-- ==== Sys2Proof/Word.lean ====
section
/-! DEFINITION. The word types of the GX16K and the small closed sets of names that commands carry as operands. -/

namespace Sys2Proof

abbrev U8 := BitVec 8
abbrev U16 := BitVec 16
abbrev U32 := BitVec 32
abbrev U64 := BitVec 64

/-- A string of bytes, lowest address first (R9: little-endian). -/
abbrev Bytes := List U8

/-- The two lanes of a Furrow ring port (R186). -/
inductive Lane where
  | a | b
  deriving DecidableEq, Repr

/-- Who drives a register access: the host through BAR0, a core through the core map (R405), or the debug port (R521). -/
inductive Bus where
  | host
  | core (c : Fin 16)
  | debug
  deriving DecidableEq, Repr

/-- One 64b/66b block of a Furrow part: its sync header kind (control or data) and its 64 payload bits (R189). -/
structure Block where
  ctl : Bool := false
  data : U64 := 0
  deriving DecidableEq, Repr

/-- The blocks of the frame gap that follows a copy at an endpoint, or of a frame period without one; where a PD_RESP is among them,
`rtt` is t4 − t1 in 1/16 ns, and `turn` is the endpoint's own turn-round time for a PD_REQ among them (R200). -/
structure Gap where
  blocks : List Block := []
  rtt : BitVec 24 := 0
  turn : BitVec 24 := 0
  deriving DecidableEq, Repr

/-- What the maintenance interface of an endpoint sets (R233, R239): banks as (number, DEAD_TIME, MIN_DWELL code), none for a bank
to be not programmed, the firmware version and the overvoltage limit. -/
structure EpMaint where
  banks : List (Fin 16 × Option (BitVec 12 × Fin 15)) := []
  fw : Option U16 := none
  ov : Option U16 := none
  deriving DecidableEq, Repr

/-- A DISCOVER copy as it came back: whether it did with a correct FCRC, whether it was looped, and the identity blocks
written into it, one per hop (R208). -/
structure DiscCopy where
  good : Bool
  looped : Bool
  ids : List U64
  deriving DecidableEq, Repr

/-- Where a verified command comes from: its ring, the ring index mod N of its slot, and the header fields SEQ, SESSION_ID, FLOW
and EPOCH_REQ (R80). -/
structure CmdSrc where
  ring : Fin 4
  slot : U16
  seq : U64
  session : U32
  flow : Fin 64
  epochReq : U64
  deriving DecidableEq, Repr

/-- The part of a snapshot descriptor that the host writes (R69). -/
structure SnapDesc where
  addr : U64
  len : U32
  region : U16
  deriving DecidableEq, Repr

/-- A Harrow record of a cell as a HARROW message carries it (R246, R489): END as the slot state less 1, LAST in absolute firing
units, HELD with its epoch, admission and WAIT. An arm entry (`arm`) gives END and LAST of every cell of the arm whose number stands in
`cell`. -/
structure HarrowRec where
  cell : Fin 16384
  endSt : Fin 5
  last : Option U64
  held : U16
  heldAt : Option U64
  admitted : Bool
  wait : BitVec 4
  arm : Bool := false
  deriving DecidableEq, Repr

end Sys2Proof
end

