-- ==== Sys2Proof/Syntax.lean ====
section
/-! DEFINITION. The commands of the GX16K: one constructor per row of the opcode table, in its order, with the row's operands. -/

namespace Sys2Proof

/-- The commands. [DESIGN CHOICE: notes/assumptions/6] -/
inductive Instr where
  /-- A main rail falls below its threshold, POR is asserted within 5 µs and the permits are clamped low (R531). -/
  | porAssert (secs : Nat)
  /-- POR is released 2 ms after the last main rail reaches its threshold, and boot starts (R530). -/
  | porRelease (id : BitVec 3)
  /-- RST_N is held low long enough to assert PIN, which forces permits low, FAULT_N low and all lanes idle (R533). -/
  | rstNLow
  /-- RST_N returns high and PIN is released 100 µs later (R533). -/
  | rstNRelease (secs : Nat) (id : BitVec 3)
  /-- RST_N has stayed low for 10 s, so the standby domain sets the LONG latch (R534). -/
  | longResetLatch
  /-- A write of SYS_RST_CTL.DEVICE in the set-up window performs a SOFT reset (R532). -/
  | softReset (bus : Bus)
  /-- A write of SYS_RST_CTL.FRAME stops frame generation and returns run-time state to its reset values (R535). -/
  | frameReset (bus : Bus)
  /-- A PCI Express hot reset, link disable, FLR or PERST_N low resets the HST ring state and the configuration space (R75). -/
  | hotReset
  /-- The device key pair becomes usable and waiting session-opens may be verified (R85). -/
  | devkeyOk
  /-- The root PLL locks on REFCLK and the boot ROM proceeds (R542). -/
  | pllLock
  /-- The core ROM selects an eligible bank, increments TRIES where needed and enters the core image (R539). -/
  | coreImageStart (flashOk : Bool)
  /-- The safety ROM selects an eligible bank and starts the safety image (R539). -/
  | safetyImageStart (flashOk : Bool)
  /-- A core write to SYS_CORE_RUN releases cores 1 to 15 (R547). -/
  | sysCoreRunWrite (bus : Bus) (v : U32)
  /-- Granary locates the journal head after a reset and sets JNL_READY (R182). -/
  | jnlReady
  /-- The monitor declares REFCLK lost 150 ns after its last edge, sets SYS_CLK_EVT and reports to Tocsin (R17). -/
  | refclkLost
  /-- The monitor declares the root PLL unlocked and reports the loss (R17). -/
  | pllUnlock
  /-- The clock runs again and Tocsin captures CLK_LOSS in the first FAB cycle (R397). -/
  | clockRecovered
  /-- A write of 1 to SYS_FRAME_CTL.START starts frame generation or is refused with CFG_ERR (R36). -/
  | frameStartWrite (bus : Bus) (v : U32)
  /-- The tick count reaches a multiple of L; an epoch begins and frames launch on every lane (R21). -/
  | frameBoundary
  /-- The last engine finishes, the arm reference sets are published and the loop points are handed to Granary (R301). -/
  | enginesDone (corr : List Nat)
  /-- An engine has not finished by F_m + D_LOOP; LATE is flagged and the arm sets are late (R302). -/
  | loopDeadlineMiss (e : Fin 8)
  /-- An uncorrectable ECC error in a loop disables it at once (R323). -/
  | loopEccUncorr (l : Fin 128) (c : Fin 24)
  /-- At F_(j-1) + H_START each arm lane starts building the slots for frame j (R27). -/
  | harrowStart
  /-- An arm lane finishes its selection and hands the slots to Furrow (R261). -/
  | harrowSelectionDone (a : Fin 12) (cyc : Nat)
  /-- A carrier grid zero occurs; pending carrier values load and cells are ranked (R274). -/
  | carrierZero (a : Fin 12)
  /-- The PERIOD event is raised at B ÷ 2 after the grid zero (R293). -/
  | carrierApex (a : Fin 12)
  /-- A pending class C, P or F effect reaches its epoch E, is applied and its completion is written (R115). -/
  | effectApply
  /-- A returned copy or part of a frame arrives on RX; its CRC and reports are checked (R190). -/
  | framePartReceive (r : Fin 64) (l : Lane) (j : Nat) (transit : Nat) (bs : List Block)
  /-- A ring RX declares input loss, silences the opposite TX and declares the ring wrapped (R187). -/
  | rxInputLoss (r : Fin 64) (l : Lane) (bad : BitVec 32)
  /-- A WRAP_AT block is received; loop positions are recorded and the ring is declared wrapped (R212). -/
  | wrapAtReceive (r : Fin 64) (pos : U8) (side : Bool) (lt : BitVec 40)
  /-- A span delay request arrives and is answered with PD_RESP (R200). -/
  | pdReqReceive (r : Fin 64) (l : Lane) (sq : U8) (turn : BitVec 24)
  /-- A span delay response arrives and the span delay is computed (R200). -/
  | pdRespReceive (r : Fin 64) (l : Lane) (rtt : BitVec 24) (turn : BitVec 24)
  /-- Setting EN in the set-up window starts training; clearing it starts a drain (R207). -/
  | furRingCfgWrite (bus : Bus) (r : Fin 64) (v : U32)
  /-- The RX lanes reach block lock and the ring enters DISCOVER at the next boundary (R207). -/
  | trainLock (r : Fin 64) (a : Bool) (b : Bool)
  /-- Block lock is not reached within 10 ms and the ring goes FAILED with LOCK_TO (R207). -/
  | trainLockTimeout (r : Fin 64)
  /-- The DISCOVER copies return and the discovery is accepted or refused with a TRN_ERR (R208). -/
  | discoverReturn (r : Fin 64) (a : DiscCopy) (b : DiscCopy)
  /-- The MEASURE frame returns; the spans, residences and transit are checked and the ring enters RUN or WRAPPED (R209). -/
  | measureReturn (r : Fin 64) (good : Bool) (transit : Nat) (ms : List U64)
  /-- A ring's closure deadline for epoch k expires (R159). -/
  | closureDeadline (r : Fin 64)
  /-- All closure conditions hold; each cell's REPORT is set and the build starts (R160). -/
  | epochClose (uncorr : Bool) (corr : U32) (ds : List SnapDesc)
  /-- The built image becomes COMMIT and the due snapshot regions are formed (R163). -/
  | epochCommit (dt : Fin 129) (ds : List SnapDesc)
  /-- The last snapshot write is issued, COMMIT is set and the descriptor is written back (R171). -/
  | publicationComplete (ecc : Bool)
  /-- A publication not finished by PUB_WIN epochs is abandoned with MISSED_BP (R173). -/
  | publicationAbandon
  /-- A queued journal record is written to MRAM with its commit word (R179). -/
  | journalWrite
  /-- A conversion slot ends and its code feeds the filter, accumulator and tracker (R332). -/
  | afeConversion (q : Fin 4) (x : BitVec 32) (ecc : Bool)
  /-- A write of AFE_SEQ_CTL.GO is a start event for a sequencer (R337). -/
  | afeSeqGo (bus : Bus) (v : U32)
  /-- A MODE write takes effect at the end of the entry in progress (R341). -/
  | afeSeqModeWrite (bus : Bus) (q : Fin 4) (w : U32)
  /-- A channel configuration write restarts the filter from zero state (R344). -/
  | afeChCfgWrite (bus : Bus) (c : Fin 32) (w : U32)
  /-- A fast comparator input crosses its threshold and feeds Clapper, the SP, sequencers and Snare (R342). -/
  | comparatorCrossing (k : Fin 8)
  /-- The input returns beyond the threshold by the hysteresis and the comparator re-arms (R342). -/
  | comparatorRearm (k : Fin 8)
  /-- An enabled Clapper input asserts and latches a cause that trips the channels in its MASK (R359). -/
  | clapperCauseLatch (k : Fin 16)
  /-- A latched Clapper cause clears when its clearing condition holds (R359). -/
  | clapperCauseClear (k : Fin 16)
  /-- Clapper recomputes the configuration CRC and asserts input 13 on a mismatch (R360). -/
  | configCrcCheck (upset : U32)
  /-- A lockstep mismatch or an uncorrectable SP memory error asserts Clapper input 10 (R359). -/
  | spFailure
  /-- The safety processor writes DEMAND, GRANT and BLKSYM to PRT_SP_CMD (R362). -/
  | spCmdWrite (demand : U8) (grant : U8) (blk : Bool)
  /-- The safety processor writes PRT_SP_HB; Clapper checks the value and timing (R366). -/
  | heartbeatWrite (v : U32) (cycles : U32)
  /-- No valid heartbeat arrives within HB_MAX, so Clapper input 9 asserts (R366). -/
  | heartbeatTimeout
  /-- No epoch commits for COMMIT_WD frame boundaries; the image sets COMMIT_MASK and BLKSYM (R365). -/
  | commitWatchdog
  /-- A channel leaves OFF or TRIPPED for CHECK_L or CHECK_H once its conditions hold (R369). -/
  | permitEnable (n : Fin 8)
  /-- 20 µs pass with PRB low and the channel moves to CHECK_H (R369). -/
  | permitCheckLDone (n : Fin 8)
  /-- The filtered PRB level changes, which can give ON, PRB_LOST or STUCK (R369). -/
  | prbChange (n : Fin 8) (level : Bool)
  /-- RET_MAX passes without PRB rising and the channel goes OFF or TRIPPED with NO_RISE (R369). -/
  | permitRetTimeout (n : Fin 8)
  /-- PRB stays high for OFF_CHK while the outputs are low and the channel enters FAILED (R369). -/
  | permitOffChkExpire (n : Fin 8)
  /-- A channel's test slot arrives and the switch under test is driven low, or the slot is skipped (R371). -/
  | offPulseStart (n : Fin 8)
  /-- At W − 1 µs the filtered PRB must read low or the channel fails STUCK (R372). -/
  | offPulseCheck (n : Fin 8)
  /-- At W the switch under test is driven high again (R372). -/
  | offPulseEnd (n : Fin 8)
  /-- A report is captured, classified, recorded or merged, and its reaction runs (R388). -/
  | tocsinReport (extra : Nat)
  /-- The minimum FAULT_N pulse ends and FAULT_N is held or released by FAULTN_MODE (R396). -/
  | faultnPulseEnd
  /-- A FLT_CLEAR write with ONE clears the named record, or is refused (R394). -/
  | fltClearOne (bus : Bus) (r : Fin 64) (n : Nat)
  /-- A FLT_CLEAR write with ALL clears every clearable OPEN record and possibly OVERFLOW (R394). -/
  | fltClearAll (bus : Bus) (n : Nat)
  /-- A FLT_CLEAR write with FIRST clears FLT_FIRST and rearms the first-fault capture (R390). -/
  | fltClearFirst (bus : Bus) (n : Nat)
  /-- A write to SYS_SETUP_DONE closes the set-up window or is refused with reasons (R46). -/
  | setUpDoneWrite (bus : Bus) (v : U32)
  /-- A ring CFG write enables a ring, or disables it and returns its indices to 0 (R50). -/
  | hstRingCfgWrite (bus : Bus) (q : Fin 10) (v : U32)
  /-- A BAR2 doorbell write is checked and accepted as a new index, or refused (R57). -/
  | doorbellWrite (off : Fin 65536) (d : U32)
  /-- A BAR2 access of the wrong size or alignment is handled as R11 states (R56). -/
  | bar2BadAccess (isRead : Bool)
  /-- A BAR0 access of the wrong size or alignment is ignored and reported as NOTE (R11). -/
  | bar0BadAccess (isRead : Bool)
  /-- A command ring with staging and completion room starts fetching its next envelope (R60). -/
  | commandFetch (two : BitVec 4)
  /-- The whole envelope is in staging and CI advances by 1 or 2 (R61). -/
  | fetchComplete (r : Fin 4) (bytes : Bytes)
  /-- A fetch fails with a RING cause; a RING completion is written and the ring enters ERROR (R72). -/
  | fetchFail (r : Fin 4) (cause : Fin 3)
  /-- No read completion arrives within 50 ms, so the fetch fails with FETCH_TIMEOUT (R64). -/
  | fetchTimeout (r : Fin 4)
  /-- A write to HST_RESTART resumes an ERROR ring from CI (R72). -/
  | hstRestartWrite (bus : Bus) (v : U32)
  /-- A completion entry is written in two memory writes with its PHASE, or discarded (R65). -/
  | completionWrite (r : Fin 4)
  /-- An event entry is written to the event ring, or dropped when the ring is full or off (R67). -/
  | eventWrite
  /-- The 64-byte index block is written within 2 frames of an index change (R71). -/
  | indexBlockWrite
  /-- The PCI Express link goes down; DMA stops and the rings enter LINK_DOWN (R74). -/
  | linkDown
  /-- AUT checks a KIND 0x00 envelope, updates LAST_SEQ and either refuses it or enters it in its flow (R96). -/
  | envelopeVerify
  /-- The public-key engine finishes a session-open; the session opens or is refused (R98). -/
  | sessionOpenVerify
  /-- AUT checks a KIND 0x02 envelope and its firmware body (R99). -/
  | firmwareEnvelopeVerify
  /-- The RTC passes a session's NOT_AFTER and the session expires (R95). -/
  | sessionExpire (idx : Fin 16)
  /-- A write of AUT_AKEY_CMD.COMMIT starts a register key install (R89). -/
  | akeyCommitWrite (bus : Bus) (v : U32)
  /-- The register key install completes; a slot is installed or ERR is set (R89). -/
  | keyInstallComplete (mramOk : Bool)
  /-- A TAMP input is active for two samples; the latch sets and the key storage is cleared (R106). `pins` are the levels of the inputs. -/
  | tamperLatch (idx : Fin 2) (pins : BitVec 2)
  /-- VBAT falls below 1.6 V with VDDIO absent; the key storage and the RTC are lost (R107). -/
  | vbatLoss
  /-- A vault record fails its integrity check and the vault enters FAILED (R86). -/
  | vaultIntegrityFail
  /-- TSK releases a done item in arrival order; this is its commit instant t_c (R435). -/
  | itemRelease (f : Fin 64) (ecc : Bool)
  /-- The command has no effect and returns the epoch (R122). -/
  | nop (x : CmdSrc) (p : Bytes)
  /-- The command ends the sending session after its completion (R123). -/
  | sessionClose (x : CmdSrc) (p : Bytes)
  /-- The command sets the publication of one snapshot region from epoch E (R124). -/
  | snapCfg (x : CmdSrc) (p : Bytes)
  /-- The command arms, stops or re-arms Snare from epoch E (R125). -/
  | snareArm (x : CmdSrc) (p : Bytes)
  /-- The command writes set-points of 1 to 16 loops for epoch E (R126). -/
  | setpoint (x : CmdSrc) (p : Bytes)
  /-- The command commands BLK to every cell of the named groups from j_B + LA (R127). -/
  | block (x : CmdSrc) (p : Bytes)
  /-- The command hands the cells of the named groups to Harrow or carrier mode from E (R129). -/
  | deblock (x : CmdSrc) (p : Bytes)
  /-- The command sets a group's modulation and enables or disables loops (R130). -/
  | mode (x : CmdSrc) (p : Bytes)
  /-- The command takes the listed cells out of selection from E (R132). -/
  | cellRetire (x : CmdSrc) (p : Bytes)
  /-- The command returns retired cells to selection from E (R133). -/
  | cellRestore (x : CmdSrc) (p : Bytes)
  /-- The command replaces the cell map of one arm from E (R134). -/
  | armMap (x : CmdSrc) (p : Bytes)
  /-- The command writes 1 to 23 coefficients of a loop, one per sample (R135). -/
  | coefWrite (x : CmdSrc) (p : Bytes)
  /-- The command changes an arm's carrier fields, which load at a carrier zero (R136). -/
  | carrierSet (x : CmdSrc) (p : Bytes)
  /-- The command sets an AFE channel's system calibration from F_E (R137). -/
  | calSet (x : CmdSrc) (p : Bytes)
  /-- The command disables, enables or retrains one ring port (R138). -/
  | ringCtl (x : CmdSrc) (p : Bytes)
  /-- The command authorises the pending PTP time step at F_E (R139). -/
  | timeAccept (x : CmdSrc) (p : Bytes)
  /-- The command sets the step threshold STEP_THR (R140). -/
  | timeCfg (x : CmdSrc) (p : Bytes)
  /-- The command installs an authority key in an EMPTY or REVOKED slot (R141). -/
  | akeyInstall (x : CmdSrc) (p : Bytes)
  /-- The command revokes a slot's key and closes the sessions that key granted (R142). -/
  | akeyRevoke (x : CmdSrc) (p : Bytes)
  /-- The command revokes and replaces a slot's key as one action (R143). -/
  | akeyReplace (x : CmdSrc) (p : Bytes)
  /-- The command fetches, hashes, stores and reads back a firmware image in the inactive bank (R144). -/
  | fwUpdate (x : CmdSrc) (env : Bytes)
  /-- The firmware update finishes its read-back and writes MARK, or fails (R144). -/
  | fwUpdateComplete (fetched : Option Bytes) (stored : Bool)
  /-- The command reopens the set-up window while the converter is blocked (R145). -/
  | setupReopen (x : CmdSrc) (p : Bytes)
  /-- The command ends the named session (R146). -/
  | sessionKill (x : CmdSrc) (p : Bytes)
  /-- The TSK port operation ALLOC makes the lowest FREE TCB BLOCKED (R430). -/
  | tskAlloc (c : Fin 16) (prio : Fin 64) (lo : U32) (hi : U32)
  /-- The TSK port operation FREE frees a BLOCKED TCB (R430). -/
  | tskFree (c : Fin 16) (idx : Fin 4096)
  /-- The TSK port operation WAKE makes a thread READY or sets WAKE_PEND (R430). -/
  | tskWake (c : Fin 16) (idx : Fin 4096)
  /-- The running thread yields, blocks or exits, and TSK dispatches the next thread (R430). -/
  | tskSwitch (c : Fin 16) (disp : Fin 4) (bad : Option (Fin 4096))
  /-- The TSK port operation NEXT dispatches a thread to an idle core (R430). -/
  | tskNext (c : Fin 16) (bad : Option (Fin 4096))
  /-- The TSK port operation SET_PRIO changes a thread's priority (R430). -/
  | tskSetPrio (c : Fin 16) (idx : Fin 4096) (prio : Fin 64)
  /-- The TSK port operation SET_AFF changes a thread's affinity (R430). -/
  | tskSetAff (c : Fin 16) (idx : Fin 4096) (lo : U32)
  /-- The TSK port operation TAKE hands the core a takeable command item (R433). -/
  | tskTake (c : Fin 16)
  /-- The TSK port operation RELEASE marks a taken item done with COMMIT, REFUSE or FAIL (R434). -/
  | tskRelease (c : Fin 16) (idx : Fin 4096) (disp : Fin 4) (lo : U32) (hi : U32)
  /-- The TSK port operation TOKEN_HI returns TOKEN [63:32] of a TCB (R430). -/
  | tskTokenHi (c : Fin 16) (idx : Fin 4096)
  /-- An unknown OP value returns BAD_OP and is counted and reported (R430). -/
  | tskBadOp (c : Fin 16) (op : Fin 16) (idx : Fin 4096)
  /-- An item stays taken longer than REL_MAX and REL_TIMEOUT is raised (R437). -/
  | relTimeout (idx : Fin 1024)
  /-- A read of gxclaim claims the highest presentable source and pushes it on the stack (R417). -/
  | intClaim (c : Fin 16)
  /-- A write of gxclaim completes the top source, or is an out-of-order completion (R418). -/
  | intComplete (c : Fin 16) (v : U64)
  /-- An event on an interrupt source pends it and counts it in EVCNT (R419). -/
  | intSourceEvent (c : Fin 16) (id : Fin 1088)
  /-- A source's moderation hold ends and the source may be presented (R420). -/
  | modHoldExpire (c : Fin 16) (id : Fin 1088)
  /-- A write to gxtimecmp re-evaluates the TIMER source (R414). -/
  | gxtimecmpWrite (c : Fin 16) (v : U64)
  /-- time reaches gxtimecmp and the TIMER source asserts (R414). -/
  | timerExpire (c : Fin 16)
  /-- A write to gxlset pends a LOCAL private source (R410). -/
  | gxlsetWrite (c : Fin 16) (v : U64)
  /-- A write to gxdcop starts a clean or invalidate of data-cache lines (R410). -/
  | gxdcopWrite (c : Fin 16) (v : U64)
  /-- A core write to INT_SSET pends a software source (R424). -/
  | intSsetWrite (bus : Bus) (v : U32)
  /-- A core write to INT_SWI pends SWI on the named cores (R424). -/
  | intSwiWrite (bus : Bus) (v : U32)
  /-- WFI enters light or deep idle unless a wake condition holds (R412). -/
  | wfi (c : Fin 16)
  /-- A wake condition wakes an idle core (R411). -/
  | coreWake (c : Fin 16)
  /-- A core load returns a point of the image that holds COMMIT (R407). -/
  | granaryPortLoad (c : Fin 16) (p : Fin 1064960)
  /-- A core store writes a firmware point of the staging copy (R408). -/
  | fwPointStore (c : Fin 16) (p : Fin 8192) (v : U32)
  /-- A store to the commit address makes the staging copy current (R408). -/
  | fwPointCommit (c : Fin 16)
  /-- A core store of TYPE and LEN submits a firmware journal record (R409). -/
  | journalPortSubmit (c : Fin 16) (ws : List U64) (v : U32)
  /-- A core access outside the map, or not permitted, raises an access fault (R405). -/
  | coreAccessFault (c : Fin 16) (a : U64) (kind : Fin 4)
  /-- A source code write with a reserved TYPE or bad INDEX stores NONE and sets CFG_ERR (R304). -/
  | lpeSrcWrite (bus : Bus) (l : Fin 128) (sp : Bool) (v : U32)
  /-- A DST write with an ARM above 11 stores 0 and sets CFG_ERR (R330). -/
  | lpeDstWrite (bus : Bus) (l : Fin 128) (v : U32)
  /-- A write of LPE_CAP_CTL.ARM discards the buffer and arms a capture (R327). -/
  | lpeCapArm (bus : Bus) (v : U32)
  /-- An Ethernet frame arrives and is timestamped into a receive slot, or dropped (R445). -/
  | ethFrameReceive (n : Fin 2) (fcsOk : Bool) (f : Bytes)
  /-- A read of RX_POP hands over the oldest full receive slot (R446). -/
  | ethRxPop (bus : Bus) (n : Fin 2)
  /-- A write to RX_REL frees a receive slot (R446). -/
  | ethRxRel (bus : Bus) (n : Fin 2) (v : U32)
  /-- A write of TX_CTL starts transmission of the buffered frame (R446). -/
  | ethTxCtlWrite (bus : Bus) (n : Fin 2) (v : U32)
  /-- A frame is sent and its timestamp enters the queue or is dropped (R450). -/
  | ethTxDone (n : Fin 2)
  /-- A read of TXTS_ID pops the oldest timestamp and latches its time (R450). -/
  | txtsPop (bus : Bus) (n : Fin 2)
  /-- An Ethernet port's link goes up or down (R459). -/
  | ethLinkChange (n : Fin 2) (up : Bool)
  /-- A write of TIM_MEAS_CTL commits an offset; the servo slews or a step becomes pending (R451). -/
  | measurementCommit (bus : Bus) (v : U32)
  /-- No measurement for HOLD_TO × 0.5 s, so the time base enters holdover (R453). -/
  | holdoverTimeout
  /-- The 2 s guard after a step ends and measurements are used again (R455). -/
  | stepGuardEnd
  /-- At each PTP second boundary with SYNC, the RTC is loaded (R457). -/
  | ptpSecond
  /-- A queued Snare record is stored, or is lost when the queue is full (R466). -/
  | snareRecordWrite
  /-- 16,777,215 ticks pass without a record and a GAP marker is written (R465). -/
  | snareGap
  /-- The post quota fills or the POST time limit passes, and Snare enters DUMP (R473). -/
  | snarePostEnd
  /-- The last dump write is issued; Snare enters REARM or IDLE (R477). -/
  | snareDumpDone (bad : List Nat)
  /-- REARM lasts 1,024 ticks and Snare enters ARMED again (R478). -/
  | snareRearmEnd
  /-- A TRIG line assertion arrives and is recorded at its arrival tick (R479). -/
  | trigLineAssert (l : Fin 4)
  /-- The TRIG output is released after 64 ticks (R479). -/
  | trigOutRelease
  /-- A core write to SNR_SW makes a software Snare record (R463). -/
  | snrSwWrite (bus : Bus) (v : U32)
  /-- A stack port's forwarded clock is absent for 32 ns or its lanes fall below LANE_MIN; the port goes DOWN (R487). -/
  | stkClockLoss (p : Fin 2)
  /-- FSTART misses two consecutive frame boundaries and the port goes DOWN (R487). -/
  | fstartMiss (p : Fin 2)
  /-- A stack lane loses block lock, alignment or skew and is no longer live (R486). -/
  | stkLaneLoss (p : Fin 2) (l : Fin 16)
  /-- An FSTART block arrives with the partner's role, readiness and commit LSB (R485). -/
  | fstartReceive (p : Fin 2) (tick : BitVec 40) (role : BitVec 2) (ready : BitVec 2) (commit : U8)
  /-- A DECISION block arrives; trips are followed and a NEW decision is made or forwarded (R495). -/
  | decisionReceive (p : Fin 2) (bgen : U8) (trip : U8) (perm : U8) (new : Bool)
  /-- A DLY_REQ arrives and is answered with DLY_RESP (R492). -/
  | dlyReqReceive (p : Fin 2) (sq : U8) (turn : BitVec 24)
  /-- A DLY_RESP arrives and the one-way delay is computed (R492). -/
  | dlyRespReceive (p : Fin 2) (rtt : BitVec 24) (turn : BitVec 24)
  /-- A HELLO message arrives; matching configuration and IDs bring the port UP (R487). -/
  | helloReceive (p : Fin 2) (sq : U8) (frameCfg : U32) (mode : BitVec 2) (id : BitVec 3) (crc : U32) (lanes : U16)
  /-- A STATION message updates the shadow's replica station set and PTP_BASE (R175). -/
  | stationReceive (p : Fin 2) (sq : U8) (epoch : U32) (ws : List U64)
  /-- A CELLS message updates the replica cell records (R175). -/
  | cellsReceive (p : Fin 2) (sq : U8) (first : Fin 16384) (ws : List U64)
  /-- An EFFECT message is queued in the shadow and acknowledged (R497). -/
  | effectReceive (p : Fin 2) (sq : U8) (e : U64) (env : Bytes)
  /-- An ACK lets the master write the completion of a replicated command (R499). -/
  | ackReceive (p : Fin 2) (sq : U8) (eff : U8)
  /-- No ACK within 4 frames; the completion is written with NOT_REPL (R499). -/
  | ackTimeout
  /-- A HARROW message updates the shadow's mirror, or makes a mirror gap when the queue is full (R500). -/
  | harrowMsgReceive (p : Fin 2) (sq : U8) (full : Bool) (recs : List HarrowRec)
  /-- A RING message updates the mirrored ring state (R489). -/
  | ringMsgReceive (p : Fin 2) (sq : U8) (r : Fin 64) (st : BitVec 3) (n : Fin 257) (wrap : BitVec 20)
  /-- A PTP message gives a downstream device its PTP_BASE (R493). -/
  | ptpMsgReceive (p : Fin 2) (sq : U8) (sec : BitVec 48) (ns : U32) (frac : U16)
  /-- A stack message whose CRC fails is discarded and counted (R489). -/
  | stkMessageCrcFail (p : Fin 2)
  /-- 1 ms after port UP with no MASTER announced, ID 0 becomes MASTER (R491). -/
  | roleMasterTimer
  /-- No port comes UP within BOOT_WAIT and the device becomes MASTER (R491). -/
  | bootWaitExpire
  /-- A write of STK_RETRAIN passes a port through TRAIN (R509). -/
  | stkRetrainWrite (bus : Bus) (v : U32)
  /-- A per-core counter wraps, sets its overflow bit and may take a sample (R514). -/
  | counterWrap (c : Fin 16) (k : Fin 8) (pc : U64) (addr : U64) (mMode : Bool) (slot : Fin 4) (lat : U32) (full : Bool)
  /-- A write of gxsmpl.CLR empties the sampling buffer (R516). -/
  | sampleBufferClear (c : Fin 16) (v : BitVec 3)
  /-- Writing 1 to a gxtlyovf bit clears it (R516). -/
  | gxtlyovfClear (c : Fin 16) (v : U64)
  /-- A write to TLY_DEVk_CFG selects the event and clears the counter (R519). -/
  | tlyDevCfgWrite (bus : Bus) (k : Fin 8) (v : U32)
  /-- DBG_EN low resets the debug port and ends every unlock (R520). -/
  | dbgEnLow
  /-- A request with bad parity gets no ACK and sets PERR (R520). -/
  | dpParityError
  /-- A write of DP_UNLOCK.GO queues the unlock check on the public-key engine (R522). -/
  | dpUnlockGo
  /-- The unlock check ends; LEVEL is granted, or FAILS rises and may set LOCKOUT (R522). -/
  | dpUnlockDone
  /-- A write of DP_UNLOCK.RELOCK ends the unlock (R522). -/
  | dpRelock
  /-- The RTC passes the unlock's NOT_AFTER and the unlock ends (R522). -/
  | dpUnlockExpire
  /-- A DP_HALT write halts the named cores at an instruction boundary (R524). -/
  | dpHalt (m : U16)
  /-- A DP_RESUME write resumes the named cores (R521). -/
  | dpResume (m : U16)
  /-- A DP_STEP write retires one instruction on a halted core (R524). -/
  | dpStep (npc : U64) (w : Option (Fin 64 × U64))
  /-- A DP_REG_SEL write reads a core register into DP_REG_LO and DP_REG_HI (R521). -/
  | dpRegSelWrite (v : U32)
  /-- A DP_REG_HI write writes the value into the selected core register (R521). -/
  | dpRegHiWrite (v : U32)
  /-- A DP_MEM_DATA access reads or writes memory in the core's map and may auto-increment (R525). -/
  | dpMemDataAccess (write : Bool) (v : U32)
  /-- A DP_FREEZE write sets or clears Harrow freeze (R295). -/
  | dpFreezeWrite (v : U32)
  /-- A breakpoint matches before its instruction and halts the core or counts (R524). -/
  | breakpointHit (c : Fin 16) (b : Fin 4)
  /-- A watchpoint stops the matching access and halts the core or counts (R524). -/
  | watchpointHit (c : Fin 16) (w : Fin 2) (pc : U64) (addr : U64) (isStore : Bool)
  /-- An endpoint accepts a frame copy, takes its slot and writes its report (R225). -/
  | endpointFrameAccept (e : Fin 16384) (l : Lane) (sof : U64) (res : U16) (vcap : U16) (temp : U16) (gap : Gap) (bs : List Block)
  /-- An endpoint derives its position from a DISCOVER frame and writes its identity (R224). -/
  | endpointDiscover (e : Fin 16384) (l : Lane) (ident : U64) (res : U16) (resA : U16) (resB : U16) (maint : EpMaint) (gap : Gap) (bs : List Block)
  /-- A held command's effect instant arrives and the endpoint switches its legs (R231). -/
  | endpointEffectInstant (e : Fin 16384)
  /-- An endpoint receives a BLKSYM, enters BLK, discards its commands and latches (R205). -/
  | endpointBlksymReceive (e : Fin 16384) (t : U64) (data : BitVec 56) (fresh : Bool)
  /-- No frame is accepted by F_(j+3) + T_LATE and the endpoint self-blocks (R240). -/
  | endpointSelfBlock (e : Fin 16384)
  /-- An endpoint detects a local fault and enters BLK (R243). -/
  | endpointLocalFault (e : Fin 16384) (t : U64) (cause : U16) (bypass : Bool) (mech : Bool) (rising : Bool)
  /-- An endpoint declares input loss on one lane and loops (R210). -/
  | endpointInputLoss (e : Fin 16384) (l : Lane) (t : U64) (bad : BitVec 32)
  /-- A looped endpoint receives UNLOOP and stops looping, or loops again (R211). -/
  | endpointUnloop (e : Fin 16384) (l : Lane) (locked : Bool) (t : U64)
  /-- A write of 1s to a W1C register clears those sticky bits (R12). -/
  | w1cWrite (bus : Bus) (off : Fin 0x2000000) (v : U32)
  /-- A read returns a register's value, and clears an RC register (R12); `wide` is a 64-bit access (R10). Offsets from 0x2000000 up are
  those of BAR2 (R55). -/
  | rcRead (bus : Bus) (off : Fin 0x2010000) (wide : Bool)
  /-- A read of the low word of a latched pair latches its high word (R39). -/
  | latchedPairRead (bus : Bus) (off : Fin 0x2000000) (wide : Bool)
  /-- A write to a register with no row of its own, stored or ignored by its type (R12); `hi` is the upper half of a 64-bit access (R10). -/
  | registerWrite (bus : Bus) (off : Fin 0x2000000) (v : U32) (hi : Option U32)
  /-- The SOFT reset ends 10 µs after it began, and boot starts from step 1 of R542 (R533). -/
  | softResetRelease (id : BitVec 3)
  /-- The PCI Express link trains up, HST_STAT.LINK_UP becomes 1 and the LINK_DOWN cause is gone (R382). -/
  | linkUp (speed : Fin 4) (width : Fin 4)
  /-- A stack port's forwarded clock becomes present again, and the port enters TRAIN once LANE_MIN lanes are live (R487). -/
  | forwardedClockReturn (p : Fin 2)
  /-- A stack receive lane gains block lock and is deskewed on ALIGN, and becomes live (R486). -/
  | stkLaneLive (p : Fin 2) (l : Fin 16) (id : BitVec 3) (skew : U8)
  /-- At a commanded ON or OFF edge of an arm's rank-0 carrier cell, the CMP event is raised to its prescaler and interrupt source (R293). -/
  | carrierCmpEvent (a : Fin 12)
  /-- An incoming TRIG line is released by the device driving it, and the change is recorded in Snare group 14 and the trigger vector (R463). -/
  | trigLineRelease (l : Fin 4)
  /-- The cause of an endpoint's local fault goes away while the cell has been in the retired bypass for an epoch, and STATUS.FAULT clears (R243). -/
  | endpointFaultClear (e : Fin 16384) (t : U64)
  /-- A core meets a corrected or uncorrectable ECC error in its TCM, caches or shared memory; it pends ECC_CORR or raises an access fault, CPU_EVT and TCM_ECC or SHR_ECC (R423). -/
  | coreEccError (c : Fin 16) (corrected : Bool) (place : Fin 3) (a : U64) (kind : Fin 4)
  deriving DecidableEq, Repr

end Sys2Proof
end

