-- ==== Sys2Proof/Decode.lean ====
section
/-! DEFINITION. The words that spell commands. The opcode table gives no row of this block any bits, for its commands are bus accesses,
events and protocol messages: no word spells a command. -/

namespace Sys2Proof

/-- The command that a word spells by the opcode table's bits: none, since the table gives no bits to any row.
[DEDUCED: notes/assumptions/4] -/
def decodeTableWord (_nbits _w : Nat) : Option Instr := none

end Sys2Proof
end

