-- ==== Sys2Proof/Machine/Bits.lean ====
section
/-! DEFINITION. Bit fields, byte strings and saturating counters: the plain arithmetic every block shares. -/

namespace Sys2Proof.Machine

/-- Bits `[hi:lo]` of a word, as a number. -/
def fld {w : Nat} (x : BitVec w) (hi lo : Nat) : Nat := (x.toNat >>> lo) % 2 ^ (hi + 1 - lo)

/-- Bit `i` of a word. -/
def bit {w : Nat} (x : BitVec w) (i : Nat) : Bool := x.getLsbD i

/-- A flag as the number 0 or 1. -/
def b2n (b : Bool) : Nat := if b then 1 else 0

/-- The word with bit `i` set. -/
def bitv (i : Nat) : U32 := BitVec.ofNat 32 (2 ^ i)

/-- A 32-bit word from a number. -/
def u32 (n : Nat) : U32 := BitVec.ofNat 32 n

/-- A 64-bit word from a number. -/
def u64 (n : Nat) : U64 := BitVec.ofNat 64 n

/-- Pack fields, each with its lowest bit, into a word. -/
def pack (fs : List (Nat × Nat)) : U32 := u32 (fs.foldl (fun a p => a + p.2 * 2 ^ p.1) 0)

/-- The word whose bit `i` is `f i`, for `i` below `n`. -/
def bitsOf (n : Nat) (f : Nat → Bool) : Nat :=
  (List.range n).foldl (fun a i => a + b2n (f i) * 2 ^ i) 0

/-- A counter that stops at 0xFFFF_FFFF (the "saturates" of the register maps). -/
def satInc (x : U32) (n : Nat := 1) : U32 := u32 (min (x.toNat + n) 0xFFFFFFFF)

/-- Bits [31:0] of a 64-bit value. -/
def lo32 (x : U64) : U32 := x.setWidth 32

/-- Bits [63:32] of a 64-bit value. -/
def hi32 (x : U64) : U32 := (x >>> 32).setWidth 32

/-- A 64-bit value from its halves. -/
def join64 (lo hi : U32) : U64 := hi ++ lo

/-- The number a little-endian byte string spells (R9). -/
def leNat : Bytes → Nat
  | [] => 0
  | b :: bs => b.toNat + 256 * leNat bs

/-- The number a big-endian byte string spells. -/
def beNat (bs : Bytes) : Nat := bs.foldl (fun a b => a * 256 + b.toNat) 0

/-- `n` little-endian bytes of a number. -/
def leBytes : Nat → Nat → Bytes
  | 0, _ => []
  | n + 1, x => BitVec.ofNat 8 x :: leBytes n (x / 256)

/-- `n` big-endian bytes of a number. -/
def beBytes (n x : Nat) : Bytes := (leBytes n x).reverse

/-- `n` bytes of `bs` from offset `o`; zeros past its end. -/
def slice (bs : Bytes) (o n : Nat) : Bytes :=
  let t := (bs.drop o).take n
  t ++ List.replicate (n - t.length) 0

/-- The little-endian number of `n` bytes at offset `o`. -/
def rd (bs : Bytes) (o n : Nat) : Nat := leNat (slice bs o n)

/-- A list cut or zero-filled to exactly `n` bytes. -/
def fit (n : Nat) (bs : Bytes) : Bytes := slice bs 0 n

/-- The signed value of the low `w` bits of `x`. -/
def sgn (w x : Nat) : Int := (BitVec.ofNat w x).toInt

/-- The low `w` bits of a signed value, as a number. -/
def usgn (w : Nat) (x : Int) : Nat := (BitVec.ofInt w x).toNat

/-- Clip a signed value. -/
def clampI (lo hi x : Int) : Int := if x < lo then lo else if hi < x then hi else x

/-- The elements of `range n` that satisfy `p`. -/
def idxs (n : Nat) (p : Nat → Bool) : List Nat := (List.range n).filter p

end Sys2Proof.Machine
end

