-- ==== Sys2Proof/Machine/Crypto.lean ====
section
/-! DEFINITION. The primitives of the authenticator (R79): SHA-256, SHA-384, HMAC, HKDF, AES-256-GCM, and ECDSA and
ECDH over P-384, written from the standards that R79 names. -/

namespace Sys2Proof.Machine

/-! ### SHA-2 (FIPS 180-4) -/

/-- The round constants of SHA-512, first forty; their high halves are those of SHA-256. -/
def shaK0 : List Nat :=
  [0x428A2F98D728AE22, 0x7137449123EF65CD, 0xB5C0FBCFEC4D3B2F, 0xE9B5DBA58189DBBC,
   0x3956C25BF348B538, 0x59F111F1B605D019, 0x923F82A4AF194F9B, 0xAB1C5ED5DA6D8118,
   0xD807AA98A3030242, 0x12835B0145706FBE, 0x243185BE4EE4B28C, 0x550C7DC3D5FFB4E2,
   0x72BE5D74F27B896F, 0x80DEB1FE3B1696B1, 0x9BDC06A725C71235, 0xC19BF174CF692694,
   0xE49B69C19EF14AD2, 0xEFBE4786384F25E3, 0x0FC19DC68B8CD5B5, 0x240CA1CC77AC9C65,
   0x2DE92C6F592B0275, 0x4A7484AA6EA6E483, 0x5CB0A9DCBD41FBD4, 0x76F988DA831153B5,
   0x983E5152EE66DFAB, 0xA831C66D2DB43210, 0xB00327C898FB213F, 0xBF597FC7BEEF0EE4,
   0xC6E00BF33DA88FC2, 0xD5A79147930AA725, 0x06CA6351E003826F, 0x142929670A0E6E70,
   0x27B70A8546D22FFC, 0x2E1B21385C26C926, 0x4D2C6DFC5AC42AED, 0x53380D139D95B3DF,
   0x650A73548BAF63DE, 0x766A0ABB3C77B2A8, 0x81C2C92E47EDAEE6, 0x92722C851482353B]
/-- The round constants of SHA-512, last forty. -/
def shaK1 : List Nat :=
  [0xA2BFE8A14CF10364, 0xA81A664BBC423001, 0xC24B8B70D0F89791, 0xC76C51A30654BE30,
   0xD192E819D6EF5218, 0xD69906245565A910, 0xF40E35855771202A, 0x106AA07032BBD1B8,
   0x19A4C116B8D2D0C8, 0x1E376C085141AB53, 0x2748774CDF8EEB99, 0x34B0BCB5E19B48A8,
   0x391C0CB3C5C95A63, 0x4ED8AA4AE3418ACB, 0x5B9CCA4F7763E373, 0x682E6FF3D6B2B8A3,
   0x748F82EE5DEFB2FC, 0x78A5636F43172F60, 0x84C87814A1F0AB72, 0x8CC702081A6439EC,
   0x90BEFFFA23631E28, 0xA4506CEBDE82BDE9, 0xBEF9A3F7B2C67915, 0xC67178F2E372532B,
   0xCA273ECEEA26619C, 0xD186B8C721C0C207, 0xEADA7DD6CDE0EB1E, 0xF57D4F7FEE6ED178,
   0x06F067AA72176FBA, 0x0A637DC5A2C898A6, 0x113F9804BEF90DAE, 0x1B710B35131C471B,
   0x28DB77F523047D84, 0x32CAAB7B40C72493, 0x3C9EBE0A15C9BEBC, 0x431D67C49C100D4C,
   0x4CC5D4BECB3E42B6, 0x597F299CFC657E2A, 0x5FCB6FAB3AD6FAEC, 0x6C44198C4A475817]
/-- Initial hash values: SHA-256 takes the high halves of the first eight, SHA-384 the last eight. -/
def shaIv : List Nat :=
  [0x6A09E667F3BCC908, 0xBB67AE8584CAA73B, 0x3C6EF372FE94F82B, 0xA54FF53A5F1D36F1,
   0x510E527FADE682D1, 0x9B05688C2B3E6C1F, 0x1F83D9ABFB41BD6B, 0x5BE0CD19137E2179,
   0xCBBB9D5DC1059ED8, 0x629A292A367CD507, 0x9159015A3070DD17, 0x152FECD8F70E5939,
   0x67332667FFC00B31, 0x8EB44A8768581511, 0xDB0C2E0D64F98FA7, 0x47B5481DBEFA4FA4]

/-- Rotate right within `w` bits. -/
def rotr (w n x : Nat) : Nat := (x >>> n) ||| ((x <<< (w - n)) % 2 ^ w)

/-- The rotation amounts that tell SHA-256 and SHA-512 apart. -/
structure ShaPar where
  w : Nat
  rounds : List Nat
  s0 : Nat × Nat × Nat
  s1 : Nat × Nat × Nat
  e0 : Nat × Nat × Nat
  e1 : Nat × Nat × Nat

abbrev sha256Par : ShaPar :=
  { w := 32, rounds := ((shaK0 ++ shaK1).take 64).map (· >>> 32), s0 := (7, 18, 3), s1 := (17, 19, 10),
    e0 := (2, 13, 22), e1 := (6, 11, 25) }
abbrev sha512Par : ShaPar :=
  { w := 64, rounds := shaK0 ++ shaK1, s0 := (1, 8, 7), s1 := (19, 61, 6), e0 := (28, 34, 39), e1 := (14, 18, 41) }

/-- The padded message as big-endian words. -/
def shaWords (w : Nat) (m : Bytes) : List Nat :=
  let bw := w / 8
  let block := 16 * bw
  let zeros := (block - (m.length + 1 + 2 * bw) % block) % block
  let b := m ++ [0x80] ++ List.replicate zeros 0 ++ beBytes (2 * bw) (8 * m.length)
  (List.range (b.length / bw)).map (fun i => beNat (slice b (i * bw) bw))

/-- The message schedule, newest word first. -/
def shaSched (p : ShaPar) : Nat → List Nat → List Nat
  | 0, ws => ws
  | n + 1, ws =>
    let g (i : Nat) := ws.getD i 0
    let x := g 14; let y := g 1
    let a := rotr p.w p.s0.1 x ^^^ rotr p.w p.s0.2.1 x ^^^ (x >>> p.s0.2.2)
    let b := rotr p.w p.s1.1 y ^^^ rotr p.w p.s1.2.1 y ^^^ (y >>> p.s1.2.2)
    shaSched p n (((b + g 6 + a + g 15) % 2 ^ p.w) :: ws)

/-- One round on the working variables a to h. -/
def shaRound (p : ShaPar) (v : List Nat) (kw : Nat × Nat) : List Nat :=
  match v with
  | [a, b, c, d, e, f, g, h] =>
    let M := 2 ^ p.w
    let s1 := rotr p.w p.e1.1 e ^^^ rotr p.w p.e1.2.1 e ^^^ rotr p.w p.e1.2.2 e
    let ch := (e &&& f) ^^^ ((M - 1 - e) &&& g)
    let t1 := h + s1 + ch + kw.1 + kw.2
    let s0 := rotr p.w p.e0.1 a ^^^ rotr p.w p.e0.2.1 a ^^^ rotr p.w p.e0.2.2 a
    let mj := (a &&& b) ^^^ (a &&& c) ^^^ (b &&& c)
    [(t1 + s0 + mj) % M, a, b, c, (d + t1) % M, e, f, g]
  | _ => v

/-- The compression of `n` blocks. -/
def shaBlocks (p : ShaPar) : Nat → List Nat → List Nat → List Nat
  | 0, hv, _ => hv
  | n + 1, hv, ws =>
    let sch := (shaSched p (p.rounds.length - 16) (ws.take 16).reverse).reverse
    let v := (p.rounds.zip sch).foldl (shaRound p) hv
    shaBlocks p n ((hv.zip v).map (fun q => (q.1 + q.2) % 2 ^ p.w)) (ws.drop 16)

def sha256 (m : Bytes) : Bytes :=
  let ws := shaWords 32 m
  (shaBlocks sha256Par (ws.length / 16) ((shaIv.take 8).map (· >>> 32)) ws).flatMap (beBytes 4)

def sha384 (m : Bytes) : Bytes :=
  let ws := shaWords 64 m
  ((shaBlocks sha512Par (ws.length / 16) (shaIv.drop 8) ws).flatMap (beBytes 8)).take 48

/-- HMAC (RFC 2104) over a hash of block size `bs`. -/
def hmac (hash : Bytes → Bytes) (bs : Nat) (k m : Bytes) : Bytes :=
  let k0 := fit bs (if k.length > bs then hash k else k)
  hash (k0.map (· ^^^ 0x5C) ++ hash (k0.map (· ^^^ 0x36) ++ m))

def hmacSha256 (k m : Bytes) : Bytes := hmac sha256 64 k m
def hmacSha384 (k m : Bytes) : Bytes := hmac sha384 128 k m

/-- HKDF-SHA-384 (RFC 5869) for an output of at most 48 bytes. -/
def hkdfSha384 (salt ikm info : Bytes) (n : Nat) : Bytes :=
  (hmacSha384 (hmacSha384 salt ikm) (info ++ [0x01])).take n

/-! ### AES-256 (FIPS 197) and GCM (NIST SP 800-38D) -/

/-- Doubling in the AES field. -/
def xtime (a : Nat) : Nat := if a ≥ 128 then (2 * a % 256) ^^^ 0x1B else 2 * a

/-- Product in the AES field: `n` bits of `b`. -/
def gmul : Nat → Nat → Nat → Nat
  | 0, _, _ => 0
  | n + 1, a, b => (if b % 2 = 1 then a else 0) ^^^ gmul n (xtime a) (b / 2)

/-- The S-box: inverse in the field, then the affine map. -/
def aesSbox (x : Nat) : Nat :=
  let m (a b : Nat) := gmul 8 a b
  let x2 := m x x; let x4 := m x2 x2; let x8 := m x4 x4; let x16 := m x8 x8
  let x32 := m x16 x16; let x64 := m x32 x32; let x128 := m x64 x64
  let i := m x2 (m x4 (m x8 (m x16 (m x32 (m x64 x128)))))
  i ^^^ rotr 8 7 i ^^^ rotr 8 6 i ^^^ rotr 8 5 i ^^^ rotr 8 4 i ^^^ 0x63

/-- The expanded key as 60 words of four bytes, newest first. -/
def aesExpand : Nat → Nat → Nat → List (List Nat) → List (List Nat)
  | 0, _, _, ws => ws
  | n + 1, i, rc, ws =>
    let t := ws.getD 0 []
    let t' :=
      if i % 8 = 0 then
        match t with
        | [a, b, c, d] => [aesSbox b ^^^ rc, aesSbox c, aesSbox d, aesSbox a]
        | _ => t
      else if i % 8 = 4 then t.map aesSbox else t
    let w := ((ws.getD 7 []).zip t').map (fun q => q.1 ^^^ q.2)
    aesExpand n (i + 1) (if i % 8 = 0 then xtime rc else rc) (w :: ws)

/-- The round keys, 15 of 16 bytes. -/
def aesKeys (k : Bytes) : List (List Nat) :=
  let w0 := (List.range 8).map (fun i => (slice k (4 * i) 4).map BitVec.toNat)
  let ws := (aesExpand 52 8 1 w0.reverse).reverse
  (List.range 15).map (fun r => ((ws.drop (4 * r)).take 4).flatten)

def xorN (a b : List Nat) : List Nat := (a.zip b).map (fun q => q.1 ^^^ q.2)

/-- SubBytes and ShiftRows, column-major. -/
def aesSubShift (s : List Nat) : List Nat :=
  (List.range 16).map (fun i => aesSbox (s.getD ((i + 4 * (i % 4)) % 16) 0))

/-- MixColumns. -/
def aesMix (s : List Nat) : List Nat :=
  (List.range 16).map (fun i =>
    let c := i / 4 * 4
    let g (j : Nat) := s.getD (c + (i + j) % 4) 0
    xtime (g 0) ^^^ (xtime (g 1) ^^^ g 1) ^^^ g 2 ^^^ g 3)

/-- The cipher on one block. -/
def aesBlock (ks : List (List Nat)) (b : List Nat) : List Nat :=
  let s0 := xorN b (ks.getD 0 [])
  let s := (List.range 13).foldl (fun s r => xorN (aesMix (aesSubShift s)) (ks.getD (r + 1) [])) s0
  xorN (aesSubShift s) (ks.getD 14 [])

/-- Product in the GCM field: `n` bits of `x`, most significant first. -/
def ghMul (x : Nat) : Nat → Nat → Nat → Nat
  | 0, z, _ => z
  | n + 1, z, v =>
    ghMul x n (if (x >>> n) % 2 = 1 then z ^^^ v else z)
      (if v % 2 = 1 then (v / 2) ^^^ (0xE1 <<< 120) else v / 2)

/-- GHASH of whole blocks. -/
def ghash (h : Nat) (b : Bytes) : Nat :=
  (List.range (b.length / 16)).foldl (fun y i => ghMul (y ^^^ beNat (slice b (16 * i) 16)) 128 0 h) 0

/-- A string filled with zeros to whole blocks. -/
def pad16 (b : Bytes) : Bytes := b ++ List.replicate ((16 - b.length % 16) % 16) 0

/-- AES-256-GCM decryption with a 96-bit IV: the plaintext where the tag holds. -/
def gcmDecrypt (key iv aad ct tag : Bytes) : Option Bytes :=
  let ks := aesKeys key
  let e (x : Nat) : Nat := ((aesBlock ks ((beBytes 16 x).map BitVec.toNat)).foldl (fun a d => a * 256 + d) 0)
  let j0 := beNat (fit 12 iv) * 2 ^ 32 + 1
  let s := ghash (e 0) (pad16 aad ++ pad16 ct ++ beBytes 8 (8 * aad.length) ++ beBytes 8 (8 * ct.length))
  if beBytes 16 (s ^^^ e j0) = tag then
    let stream := (List.range ((ct.length + 15) / 16)).flatMap (fun i => beBytes 16 (e (j0 + 1 + i)))
    some ((ct.zip stream).map (fun q => q.1 ^^^ q.2))
  else none

/-! ### P-384 (FIPS 186-5, SP 800-186) -/

def p384P : Nat := 2 ^ 384 - 2 ^ 128 - 2 ^ 96 + 2 ^ 32 - 1
def p384N : Nat := 0xFFFFFFFFFFFFFFFFFFFFFFFFFFFFFFFFFFFFFFFFFFFFFFFFC7634D81F4372DDF581A0DB248B0A77AECEC196ACCC52973
def p384B : Nat := 0xB3312FA7E23EE7E4988E056BE3F82D19181D9C6EFE8141120314088F5013875AC656398D8A2ED19D2A85C8EDD3EC2AEF
def p384G : Nat × Nat := (0xAA87CA22BE8B05378EB1C71EF320AD746E1D3B628BA79B9859F741E082542A385502F25DBF55296C3A545E3872760AB7,
  0x3617DE4A96262C6F5D9E98BF9292DC29F8F41DBD289A147CE9DA3113B5F0B8C00A60B1CE1D7E819D7A431D7C90EA0E5F)

/-- `b ^ e mod m` over `n` bits of the exponent. -/
def powMod (m : Nat) : Nat → Nat → Nat → Nat
  | 0, _, _ => 1
  | n + 1, b, e =>
    let r := powMod m n (b * b % m) (e / 2)
    if e % 2 = 1 then r * b % m else r

/-- Inverse modulo a prime. -/
def invMod (m x : Nat) : Nat := powMod m 384 (x % m) (m - 2)

/-- Is (x, y) a point of the curve. -/
def p384On (q : Nat × Nat) : Bool :=
  decide (q.1 < p384P ∧ q.2 < p384P ∧
    q.2 * q.2 % p384P = (q.1 * q.1 * q.1 + (p384P - 3) * q.1 + p384B) % p384P)

/-- Points in Jacobian coordinates; z = 0 is the point at infinity. -/
abbrev Jac := Nat × Nat × Nat

def jacDouble (q : Jac) : Jac :=
  let (x, y, z) := q
  let P := p384P
  if z = 0 ∨ y = 0 then (1, 1, 0)
  else
    let d := z * z % P
    let g := y * y % P
    let b := x * g % P
    let a := 3 * ((x + P - d) % P) * ((x + d) % P) % P
    let x' := (a * a + 8 * (P - b)) % P
    let z' := 2 * y * z % P
    let y' := (a * ((4 * b + (P - x')) % P) + 8 * (P - g * g % P)) % P
    (x', y', z')

def jacAdd (q r : Jac) : Jac :=
  let (x1, y1, z1) := q
  let (x2, y2, z2) := r
  let P := p384P
  if z1 = 0 then r else if z2 = 0 then q
  else
    let a := z1 * z1 % P; let b := z2 * z2 % P
    let u1 := x1 * b % P; let u2 := x2 * a % P
    let s1 := y1 * z2 % P * b % P; let s2 := y2 * z1 % P * a % P
    if u1 = u2 then (if s1 = s2 then jacDouble q else (1, 1, 0))
    else
      let h := (u2 + P - u1) % P
      let rr := (s2 + P - s1) % P
      let h2 := h * h % P; let h3 := h2 * h % P
      let v := u1 * h2 % P
      let x3 := (rr * rr + (P - h3) + 2 * (P - v)) % P
      let y3 := (rr * ((v + P - x3) % P) + (P - s1) * h3) % P
      (x3, y3, h * z1 % P * z2 % P)

/-- `k × q` over `n` bits of `k`, most significant first. -/
def jacMul (q : Jac) (k : Nat) : Nat → Jac → Jac
  | 0, acc => acc
  | n + 1, acc =>
    let d := jacDouble acc
    jacMul q k n (if (k >>> n) % 2 = 1 then jacAdd d q else d)

/-- The affine point; none at infinity. -/
def jacAffine (q : Jac) : Option (Nat × Nat) :=
  if q.2.2 = 0 then none
  else
    let i := invMod p384P q.2.2
    let i2 := i * i % p384P
    some (q.1 * i2 % p384P, q.2.1 * (i2 * i % p384P) % p384P)

def p384Mul (k : Nat) (q : Nat × Nat) : Option (Nat × Nat) :=
  jacAffine (jacMul (q.1, q.2, 1) k 384 (1, 1, 0))

/-- The point a 96-byte public key spells (R78). -/
def keyPoint (k : Bytes) : Nat × Nat := (beNat (slice k 0 48), beNat (slice k 48 48))

/-- The 96 bytes of a point. -/
def pointBytes (q : Nat × Nat) : Bytes := beBytes 48 q.1 ++ beBytes 48 q.2

/-- The public key of a private key. -/
def p384Public (d : Nat) : Bytes := pointBytes ((p384Mul d p384G).getD (0, 0))

/-- ECDH (SP 800-56A): the x coordinate of the shared point; none where the peer's key is no point. -/
def ecdhX (d : Nat) (peer : Bytes) : Option Bytes :=
  if p384On (keyPoint peer) then (p384Mul d (keyPoint peer)).map (fun q => beBytes 48 q.1) else none

/-- ECDSA P-384 verification over SHA-384 (FIPS 186-5). -/
def ecdsaVerify (pub msg sig : Bytes) : Bool :=
  let r := beNat (slice sig 0 48); let s := beNat (slice sig 48 48)
  if r = 0 ∨ p384N ≤ r ∨ s = 0 ∨ p384N ≤ s ∨ !p384On (keyPoint pub) then false
  else
    let w := invMod p384N s
    let e := beNat (sha384 msg)
    let q := keyPoint pub
    let a := jacMul (p384G.1, p384G.2, 1) (e * w % p384N) 384 (1, 1, 0)
    let b := jacMul (q.1, q.2, 1) (r * w % p384N) 384 (1, 1, 0)
    match jacAffine (jacAdd a b) with
    | some v => decide (v.1 % p384N = r)
    | none => false

end Sys2Proof.Machine
end

