-- ==== Sys2Proof/Config.lean ====
section
/-! DEFINITION. The free values: what the spec leaves open or draws from an entropy source. Opaque constants without a
body, so that nothing can be proved about their values. -/

namespace Sys2Proof

/-- The random values of R79 and R93 (session challenge) and of R523 (debug challenge), one per draw.
[DESIGN CHOICE: notes/assumptions/14] -/
opaque Config.random : Nat → BitVec 128

/-- The P-384 private keys the device generates (R85), one per generation.
[DESIGN CHOICE: notes/assumptions/14] -/
opaque Config.deviceKey : Nat → Nat

/-- Byte `i` of the key-protection storage with the key-encryption key that goes with the `n`-th free value (R85, R104).
[DESIGN CHOICE: notes/assumptions/14] -/
opaque Config.protByte : Nat → Nat → BitVec 8

/-- A truth value the spec leaves open, one per draw. [DESIGN CHOICE: notes/assumptions/14] -/
opaque Config.freeBool : Nat → Bool

/-- A word the spec leaves open, one per draw. [DESIGN CHOICE: notes/assumptions/14] -/
opaque Config.freeWord : Nat → BitVec 64

/-- The sign and payload of a NaN that a binary32 or binary64 operation produces, of the operation and its operand words (10_loop_engines.md names
IEEE 754, which leaves them open). [DESIGN CHOICE: notes/assumptions/8] -/
opaque Config.nanWord : Nat → Nat → Nat → Nat

/-- The sine of the test generator (R325), of a phase word; the spec states no rounding.
[DESIGN CHOICE: notes/assumptions/16] -/
opaque Config.sine : BitVec 32 → BitVec 32

/-- Which bit of the PRBS register (R325) is its output; the spec does not say.
[DESIGN CHOICE: notes/assumptions/16] -/
opaque Config.prbsTap : Fin 15

/-- The class of an issue slot (R513), of the core, its mode, the cycle counted in that mode, and the slot: 0 RETIRED, 1 WASTED, 2 FE, 3 BE. The
spec fixes only that each slot has exactly one. [DESIGN CHOICE: notes/assumptions/63] -/
opaque Config.slotClass : Nat → Bool → Nat → Bool → BitVec 2

/-- The content of the boot ROM (R405), by byte; the spec does not give it.
[DESIGN CHOICE: notes/assumptions/15] -/
opaque Config.rom : Nat → BitVec 8

/-- The Celrov release key held in the boot ROM (R539), by byte; the spec does not give it.
[DESIGN CHOICE: notes/assumptions/15] -/
opaque Config.celrovKey : Nat → BitVec 8

end Sys2Proof
end

