-- ==== Sys2Proof/Machine/Regmap.lean ====
section
/-! DEFINITION. The register map: one row for every register line of the spec's register tables (R4, R12 and the map of each block). -/

namespace Sys2Proof.Machine

/-- Register types (R12). -/
inductive RegTy where
  | rw | ro | wo | w1c | rc | rwl
  deriving DecidableEq, Repr

/-- A line of a register map: offset `base`, repeated `n1` times at stride `s1` and within that `n2` times at stride `s2`;
the reset value, the bits software can write, the reserved bits (R13), and whether only cores may write it. -/
structure RegRow where
  base : Nat
  ty : RegTy
  rst : Nat := 0
  w : Nat := 0
  rsv : Nat := 0
  n1 : Nat := 1
  s1 : Nat := 4
  n2 : Nat := 1
  s2 : Nat := 4
  coresOnly : Bool := false
  deriving DecidableEq, Repr

abbrev rSYS_ID : Nat := 0x000000
abbrev rSYS_CLK_STAT : Nat := 0x000100
abbrev rSYS_CLK_EVT : Nat := 0x000104
abbrev rSYS_FRAME_CFG : Nat := 0x000110
abbrev rSYS_FRAME_CTL : Nat := 0x000114
abbrev rSYS_FRAME_STAT : Nat := 0x000118
abbrev rSYS_EPOCH_LO : Nat := 0x000120
abbrev rSYS_EPOCH_HI : Nat := 0x000124
abbrev rSYS_ADELAY (a : Nat) : Nat := 0x000140 + 0x4 * a
abbrev rSYS_YIELD_CNT (k : Nat) : Nat := 0x000180 + 0x4 * k
abbrev rSYS_SETUP_DONE : Nat := 0x000200
abbrev rSYS_SETUP_STAT : Nat := 0x000204
abbrev rSYS_RST_CAUSE : Nat := 0x000300
abbrev rSYS_RST_CTL : Nat := 0x000304
abbrev rSYS_RST_LONG : Nat := 0x000308
abbrev rSYS_BOOT_STAT : Nat := 0x000310
abbrev rSYS_BOOT_CVER_LO : Nat := 0x000314
abbrev rSYS_BOOT_CVER_HI : Nat := 0x000318
abbrev rSYS_BOOT_SVER_LO : Nat := 0x00031C
abbrev rSYS_BOOT_SVER_HI : Nat := 0x000320
abbrev rSYS_CORE_RUN : Nat := 0x000324

abbrev rHST_STAT : Nat := 0x100000
abbrev rHST_EVT : Nat := 0x100004
abbrev rHST_IDX_BASE_LO : Nat := 0x100010
abbrev rHST_IDX_BASE_HI : Nat := 0x100014
abbrev rHST_IDX_CTL : Nat := 0x100018
abbrev rHST_CMD_BASE_LO (r : Nat) : Nat := 0x100100 + 0x40 * r
abbrev rHST_CMD_BASE_HI (r : Nat) : Nat := 0x100104 + 0x40 * r
abbrev rHST_CMD_CFG (r : Nat) : Nat := 0x100108 + 0x40 * r
abbrev rHST_CMD_PI (r : Nat) : Nat := 0x10010C + 0x40 * r
abbrev rHST_CMD_CI (r : Nat) : Nat := 0x100110 + 0x40 * r
abbrev rHST_CMD_STAT (r : Nat) : Nat := 0x100114 + 0x40 * r
abbrev rHST_CPL_BASE_LO (r : Nat) : Nat := 0x100120 + 0x40 * r
abbrev rHST_CPL_BASE_HI (r : Nat) : Nat := 0x100124 + 0x40 * r
abbrev rHST_CPL_CFG (r : Nat) : Nat := 0x100128 + 0x40 * r
abbrev rHST_CPL_PI (r : Nat) : Nat := 0x10012C + 0x40 * r
abbrev rHST_CPL_CI (r : Nat) : Nat := 0x100130 + 0x40 * r
abbrev rHST_EVT_BASE_LO : Nat := 0x100200
abbrev rHST_EVT_BASE_HI : Nat := 0x100204
abbrev rHST_EVT_CFG : Nat := 0x100208
abbrev rHST_EVT_PI : Nat := 0x10020C
abbrev rHST_EVT_CI : Nat := 0x100210
abbrev rHST_EVT_DROP : Nat := 0x100214
abbrev rHST_SNP_BASE_LO : Nat := 0x100240
abbrev rHST_SNP_BASE_HI : Nat := 0x100244
abbrev rHST_SNP_CFG : Nat := 0x100248
abbrev rHST_SNP_PI : Nat := 0x10024C
abbrev rHST_SNP_CI : Nat := 0x100250
abbrev rHST_SNP_NODESC : Nat := 0x100254
abbrev rHST_RESTART : Nat := 0x100300
abbrev rHST_DBERR_CNT : Nat := 0x100304
abbrev rHST_DBERR_LAST : Nat := 0x100308
abbrev rHST_CPL_DISCARD : Nat := 0x10030C

abbrev rAUT_STAT : Nat := 0x200000
abbrev rAUT_EVT : Nat := 0x200004
abbrev rAUT_CHAL (k : Nat) : Nat := 0x200010 + 0x4 * k
abbrev rAUT_DEVPUB (k : Nat) : Nat := 0x200040 + 0x4 * k
abbrev rAUT_AKEY_SEL : Nat := 0x2000A0
abbrev rAUT_AKEY_CMD : Nat := 0x2000A4
abbrev rAUT_AKEY_STAT : Nat := 0x2000A8
abbrev rAUT_AKEY_DATA (k : Nat) : Nat := 0x2000C0 + 0x4 * k
abbrev rAUT_SLOT (s : Nat) : Nat := 0x200140 + 0x4 * s
abbrev rAUT_REFUSE_CNT : Nat := 0x200180
abbrev rAUT_REFUSE_LAST : Nat := 0x200184
abbrev rAUT_RTC_LO : Nat := 0x2001A0
abbrev rAUT_RTC_HI : Nat := 0x2001A4
abbrev rAUT_ARB_LO : Nat := 0x2001B0
abbrev rAUT_ARB_HI : Nat := 0x2001B4
abbrev rAUT_TAMP_CFG : Nat := 0x2001C0
abbrev rAUT_TAMP_STAT : Nat := 0x2001C4

abbrev rCPU_STAT : Nat := 0x300000
abbrev rCPU_EVT : Nat := 0x300004
abbrev rCPU_ECC_CNT : Nat := 0x300008
abbrev rCPU_CORE_STAT (c : Nat) : Nat := 0x300100 + 0x4 * c

abbrev rTSK_STAT : Nat := 0x400000
abbrev rTSK_EVT : Nat := 0x400004
abbrev rTSK_CFG : Nat := 0x400008
abbrev rTSK_ERR_CNT : Nat := 0x40000C
abbrev rTSK_ERR_LAST : Nat := 0x400010
abbrev rTSK_FULL_CNT : Nat := 0x400014
abbrev rTSK_VIEW_SEL : Nat := 0x400020
abbrev rTSK_VIEW : Nat := 0x400024
abbrev rTSK_OP : Nat := 0x400100
abbrev rTSK_ARG_LO : Nat := 0x400108
abbrev rTSK_ARG_HI : Nat := 0x40010C
abbrev rTSK_RES_LO : Nat := 0x400110
abbrev rTSK_RES_HI : Nat := 0x400114
abbrev rTSK_WHY : Nat := 0x400118
abbrev rTSK_CUR : Nat := 0x40011C
abbrev rTSK_FLOW_STAT (f : Nat) : Nat := 0x401000 + 0x8 * f
abbrev rTSK_FLOW_ARR (f : Nat) : Nat := 0x401004 + 0x8 * f
abbrev rTSK_ITEM (i : Nat) : Nat := 0x480000 + 0x200 * i

abbrev rINT_STAT : Nat := 0x500000
abbrev rINT_EVT : Nat := 0x500004
abbrev rINT_SPUR_CNT : Nat := 0x500008
abbrev rINT_OOO_CNT : Nat := 0x50000C
abbrev rINT_OOO_LAST : Nat := 0x500010
abbrev rINT_SSET : Nat := 0x500014
abbrev rINT_SWI : Nat := 0x500018
abbrev rINT_VIEW_SEL : Nat := 0x500020
abbrev rINT_VIEW : Nat := 0x500024
abbrev rINT_SRC_CFG (i : Nat) : Nat := 0x501000 + 0x4 * i
abbrev rINT_PRV_CFG (c j : Nat) : Nat := 0x502000 + 0x100 * c + 0x4 * j

abbrev rLPE_STAT : Nat := 0x600000
abbrev rLPE_EVT : Nat := 0x600004
abbrev rLPE_LATE_CNT : Nat := 0x600008
abbrev rLPE_ECC_CNT : Nat := 0x60000C
abbrev rLPE_TG_CFG : Nat := 0x600010
abbrev rLPE_TG_PARAM : Nat := 0x600014
abbrev rLPE_CAP_CTL : Nat := 0x600020
abbrev rLPE_CAP_STAT : Nat := 0x600024
abbrev rLPE_CAP_EPOCH_LO : Nat := 0x600028
abbrev rLPE_CAP_EPOCH_HI : Nat := 0x60002C
abbrev rLPE_ENG_STAT (e : Nat) : Nat := 0x600040 + 0x4 * e
abbrev rLPE_ARMREF (a : Nat) : Nat := 0x600080 + 0x4 * a
abbrev rLPE_LOOP_CFG (l : Nat) : Nat := 0x601000 + 0x80 * l
abbrev rLPE_LOOP_SRC (l : Nat) : Nat := 0x601004 + 0x80 * l
abbrev rLPE_LOOP_SPSRC (l : Nat) : Nat := 0x601008 + 0x80 * l
abbrev rLPE_LOOP_DST (l : Nat) : Nat := 0x60100C + 0x80 * l
abbrev rLPE_LOOP_MON (l : Nat) : Nat := 0x601010 + 0x80 * l
abbrev rLPE_LOOP_STAT (l : Nat) : Nat := 0x601014 + 0x80 * l
abbrev rLPE_LOOP_GEN (l : Nat) : Nat := 0x601018 + 0x80 * l
abbrev rLPE_LOOP_SP (l : Nat) : Nat := 0x60101C + 0x80 * l
abbrev rLPE_LOOP_COEF (l c : Nat) : Nat := 0x601020 + 0x80 * l + 0x4 * c
abbrev rLPE_CAP (s w : Nat) : Nat := 0x608000 + 0x10 * s + 0x4 * w

abbrev rHRW_STAT : Nat := 0x700000
abbrev rHRW_EVT : Nat := 0x700004
abbrev rHRW_OVR_CNT : Nat := 0x700008
abbrev rHRW_CWIN_SEL : Nat := 0x700010
abbrev rHRW_CWIN (p : Nat) : Nat := 0x700400 + 0x4 * p
abbrev rHRW_ARM_CFG (a : Nat) : Nat := 0x701000 + 0x80 * a
abbrev rHRW_ARM_VNOM (a : Nat) : Nat := 0x701004 + 0x80 * a
abbrev rHRW_ARM_IDB (a : Nat) : Nat := 0x701008 + 0x80 * a
abbrev rHRW_ARM_TOL (a : Nat) : Nat := 0x70100C + 0x80 * a
abbrev rHRW_ARM_TIME (a : Nat) : Nat := 0x701010 + 0x80 * a
abbrev rHRW_ARM_ADM (a : Nat) : Nat := 0x701014 + 0x80 * a
abbrev rHRW_ARM_STAT (a : Nat) : Nat := 0x701020 + 0x80 * a
abbrev rHRW_ARM_SEL (a : Nat) : Nat := 0x701024 + 0x80 * a
abbrev rHRW_ARM_SELMAX (a : Nat) : Nat := 0x701028 + 0x80 * a
abbrev rHRW_ARM_REF (a : Nat) : Nat := 0x70102C + 0x80 * a
abbrev rHRW_ARM_EXT_CNT (a : Nat) : Nat := 0x701030 + 0x80 * a
abbrev rHRW_ARM_SUP_CNT (a : Nat) : Nat := 0x701034 + 0x80 * a
abbrev rHRW_ARM_SAT_CNT (a : Nat) : Nat := 0x701038 + 0x80 * a
abbrev rHRW_ARM_EXCL_CNT (a : Nat) : Nat := 0x70103C + 0x80 * a
abbrev rHRW_CAR_CFG (a : Nat) : Nat := 0x704000 + 0x80 * a
abbrev rHRW_CAR_PERIOD (a : Nat) : Nat := 0x704004 + 0x80 * a
abbrev rHRW_CAR_TIME (a : Nat) : Nat := 0x704008 + 0x80 * a
abbrev rHRW_CAR_BAL (a : Nat) : Nat := 0x70400C + 0x80 * a
abbrev rHRW_CAR_TRIM (a : Nat) : Nat := 0x704010 + 0x80 * a
abbrev rHRW_CAR_IRQ (a : Nat) : Nat := 0x704014 + 0x80 * a
abbrev rHRW_CAR_ACT_PERIOD (a : Nat) : Nat := 0x704020 + 0x80 * a
abbrev rHRW_CAR_ACT_TIME (a : Nat) : Nat := 0x704024 + 0x80 * a
abbrev rHRW_CAR_STAT (a : Nat) : Nat := 0x704028 + 0x80 * a
abbrev rHRW_CAR_CMP0 (a : Nat) : Nat := 0x70402C + 0x80 * a
abbrev rHRW_CAR_EXT_CNT (a : Nat) : Nat := 0x704030 + 0x80 * a
abbrev rHRW_CAR_SUP_CNT (a : Nat) : Nat := 0x704034 + 0x80 * a
abbrev rHRW_CAR_AON_CNT (a : Nat) : Nat := 0x704038 + 0x80 * a
abbrev rHRW_CAR_LOAD_EPOCH (a : Nat) : Nat := 0x70403C + 0x80 * a
abbrev rHRW_CAR_EVT : Nat := 0x704800
abbrev rHRW_FREEZE : Nat := 0x704804

abbrev rFUR_STAT : Nat := 0x800000
abbrev rFUR_EVT : Nat := 0x800004
abbrev rFUR_CFG : Nat := 0x800010
abbrev rFUR_BGEN : Nat := 0x800014
abbrev rFUR_BLKSYM_CNT : Nat := 0x800018
abbrev rFUR_DLY_SEL : Nat := 0x800020
abbrev rFUR_RING_CFG (r : Nat) : Nat := 0x801000 + 0x40 * r
abbrev rFUR_RING_STAT (r : Nat) : Nat := 0x801004 + 0x40 * r
abbrev rFUR_RING_WRAP (r : Nat) : Nat := 0x801008 + 0x40 * r
abbrev rFUR_RING_LOOPT (r : Nat) : Nat := 0x80100C + 0x40 * r
abbrev rFUR_RING_TRANS (r : Nat) : Nat := 0x801010 + 0x40 * r
abbrev rFUR_RING_ASYM (r : Nat) : Nat := 0x801014 + 0x40 * r
abbrev rFUR_RING_RET (r : Nat) : Nat := 0x801018 + 0x40 * r
abbrev rFUR_RING_RETMAX (r : Nat) : Nat := 0x80101C + 0x40 * r
abbrev rFUR_RING_CRCA (r : Nat) : Nat := 0x801020 + 0x40 * r
abbrev rFUR_RING_CRCB (r : Nat) : Nat := 0x801024 + 0x40 * r
abbrev rFUR_RING_STOMP (r : Nat) : Nat := 0x801028 + 0x40 * r
abbrev rFUR_RING_FRAG (r : Nat) : Nat := 0x80102C + 0x40 * r
abbrev rFUR_DLY (p : Nat) : Nat := 0x802000 + 0x8 * p
abbrev rFUR_ID (p : Nat) : Nat := 0x802800 + 0x8 * p

abbrev rGRN_STAT : Nat := 0x900000
abbrev rGRN_EVT : Nat := 0x900004
abbrev rGRN_CLOSE_CFG : Nat := 0x900010
abbrev rGRN_PUB_CFG : Nat := 0x900014
abbrev rGRN_COMMIT_LO : Nat := 0x900020
abbrev rGRN_COMMIT_HI : Nat := 0x900024
abbrev rGRN_MISS_LAST_LO : Nat := 0x900028
abbrev rGRN_MISS_LAST_HI : Nat := 0x90002C
abbrev rGRN_MISS_CNT : Nat := 0x900030
abbrev rGRN_LATE_DROP : Nat := 0x900034
abbrev rGRN_PUB_SKIP : Nat := 0x900038
abbrev rGRN_PUB_ABANDON : Nat := 0x90003C
abbrev rGRN_ECC_CNT : Nat := 0x900040
abbrev rGRN_REPL_CFG : Nat := 0x900050
abbrev rGRN_REPL_STAT : Nat := 0x900054
abbrev rGRN_JNL_HEAD : Nat := 0x900060
abbrev rGRN_JNL_SEQ : Nat := 0x900064
abbrev rGRN_JNL_WRAP : Nat := 0x900068
abbrev rGRN_JNL_WIN_BASE : Nat := 0x90006C
abbrev rGRN_JNL_DROP : Nat := 0x900070
abbrev rGRN_JNL_WIN (i : Nat) : Nat := 0x901000 + 0x8 * i

abbrev rAFE_STAT : Nat := 0xA00000
abbrev rAFE_EVT : Nat := 0xA00004
abbrev rAFE_OVR : Nat := 0xA00008
abbrev rAFE_SEQ_CFG (q : Nat) : Nat := 0xA00010 + 0x20 * q
abbrev rAFE_SEQ_STAT (q : Nat) : Nat := 0xA00014 + 0x20 * q
abbrev rAFE_SEQ_IGN (q : Nat) : Nat := 0xA00018 + 0x20 * q
abbrev rAFE_SEQ_GAP (q : Nat) : Nat := 0xA0001C + 0x20 * q
abbrev rAFE_SEQ_CTL : Nat := 0xA00090
abbrev rAFE_SEQ_ENT (q i : Nat) : Nat := 0xA00100 + 0x100 * q + 0x4 * i
abbrev rAFE_CMP_CFG (k : Nat) : Nat := 0xA00800 + 0x10 * k
abbrev rAFE_CMP_STAT (k : Nat) : Nat := 0xA00804 + 0x10 * k
abbrev rAFE_CMP_CNT (k : Nat) : Nat := 0xA00808 + 0x10 * k
abbrev rAFE_CH_CFG (c : Nat) : Nat := 0xA01000 + 0x10 * c
abbrev rAFE_CH_GAIN (c : Nat) : Nat := 0xA01004 + 0x10 * c
abbrev rAFE_CH_OFFSET (c : Nat) : Nat := 0xA01008 + 0x10 * c
abbrev rAFE_CH_DEC (c : Nat) : Nat := 0xA0100C + 0x10 * c

abbrev rSTK_STAT : Nat := 0xB00000
abbrev rSTK_EVT : Nat := 0xB00004
abbrev rSTK_CFG : Nat := 0xB00008
abbrev rSTK_RETRAIN : Nat := 0xB0000C
abbrev rSTK_PAIR_CRC : Nat := 0xB00010
abbrev rSTK_PARTNER_CRC : Nat := 0xB00014
abbrev rSTK_PFOLLOW : Nat := 0xB00018
abbrev rSTK_TAKE_EPOCH_LO : Nat := 0xB00020
abbrev rSTK_TAKE_EPOCH_HI : Nat := 0xB00024
abbrev rSTK_TAKE_CNT : Nat := 0xB00028
abbrev rSTK_MIRROR_GAP : Nat := 0xB0002C
abbrev rSTK_PORT_STAT (p : Nat) : Nat := 0xB00100 + 0x20 * p
abbrev rSTK_PORT_DLY (p : Nat) : Nat := 0xB00104 + 0x20 * p
abbrev rSTK_PORT_SKEW (p : Nat) : Nat := 0xB00108 + 0x20 * p
abbrev rSTK_PORT_LANES (p : Nat) : Nat := 0xB0010C + 0x20 * p
abbrev rSTK_PORT_ERR (p : Nat) : Nat := 0xB00110 + 0x20 * p

abbrev rTIM_STAT : Nat := 0xC00000
abbrev rTIM_EVT : Nat := 0xC00004
abbrev rTIM_CFG : Nat := 0xC00010
abbrev rTIM_STEP_THR : Nat := 0xC00014
abbrev rTIM_SYNC_TOL : Nat := 0xC00018
abbrev rTIM_PTP_NS : Nat := 0xC00020
abbrev rTIM_PTP_SEC_LO : Nat := 0xC00024
abbrev rTIM_PTP_SEC_HI : Nat := 0xC00028
abbrev rTIM_FREQ : Nat := 0xC00030
abbrev rTIM_LAST_OFS : Nat := 0xC00034
abbrev rTIM_PEND_LO : Nat := 0xC00038
abbrev rTIM_PEND_HI : Nat := 0xC0003C
abbrev rTIM_MEAS_LO : Nat := 0xC00040
abbrev rTIM_MEAS_HI : Nat := 0xC00044
abbrev rTIM_MEAS_CTL : Nat := 0xC00048
abbrev rTIM_MEAS_IGN : Nat := 0xC0004C
abbrev rTIM_ETH_CFG (n : Nat) : Nat := 0xC01000 + 0x100 * n
abbrev rTIM_ETH_STAT (n : Nat) : Nat := 0xC01004 + 0x100 * n
abbrev rTIM_ETH_MAC_LO (n : Nat) : Nat := 0xC01008 + 0x100 * n
abbrev rTIM_ETH_MAC_HI (n : Nat) : Nat := 0xC0100C + 0x100 * n
abbrev rTIM_ETH_ASYM (n : Nat) : Nat := 0xC01010 + 0x100 * n
abbrev rTIM_ETH_LAT (n : Nat) : Nat := 0xC01014 + 0x100 * n
abbrev rTIM_ETH_TXTS_ID (n : Nat) : Nat := 0xC01018 + 0x100 * n
abbrev rTIM_ETH_TXTS_NS (n : Nat) : Nat := 0xC0101C + 0x100 * n
abbrev rTIM_ETH_TXTS_SEC_LO (n : Nat) : Nat := 0xC01020 + 0x100 * n
abbrev rTIM_ETH_TXTS_SEC_HI (n : Nat) : Nat := 0xC01024 + 0x100 * n
abbrev rTIM_ETH_TXTS_DROP (n : Nat) : Nat := 0xC01028 + 0x100 * n
abbrev rTIM_ETH_TXTS_LOSTID (n : Nat) : Nat := 0xC0102C + 0x100 * n
abbrev rTIM_ETH_TX_CTL (n : Nat) : Nat := 0xC01030 + 0x100 * n
abbrev rTIM_ETH_TX_STAT (n : Nat) : Nat := 0xC01034 + 0x100 * n
abbrev rTIM_ETH_RX_POP (n : Nat) : Nat := 0xC01038 + 0x100 * n
abbrev rTIM_ETH_RX_REL (n : Nat) : Nat := 0xC0103C + 0x100 * n
abbrev rTIM_ETH_RX_DROP (n : Nat) : Nat := 0xC01040 + 0x100 * n
abbrev rTIM_ETH_FCS_CNT (n : Nat) : Nat := 0xC01044 + 0x100 * n
abbrev rTIM_ETH_TXBUF (n : Nat) : Nat := 0xC10000 + 0x800 * n
abbrev rTIM_ETH_RXBUF (n k : Nat) : Nat := 0xC20000 + 0x8000 * n + 0x800 * k

abbrev rPRT_STAT : Nat := 0xD00000
abbrev rPRT_EVT : Nat := 0xD00004
abbrev rPRT_CFG : Nat := 0xD00010
abbrev rPRT_TEST_CFG : Nat := 0xD00014
abbrev rPRT_CLAP_CRC : Nat := 0xD00018
abbrev rPRT_CAUSE : Nat := 0xD00020
abbrev rPRT_FIRST : Nat := 0xD00024
abbrev rPRT_TRIP_CNT : Nat := 0xD00028
abbrev rPRT_MERGE_CNT : Nat := 0xD0002C
abbrev rPRT_CLAP_CFG (k : Nat) : Nat := 0xD00040 + 0x4 * k
abbrev rPRT_FL_MASK_LO : Nat := 0xD00080
abbrev rPRT_FL_MASK_HI : Nat := 0xD00084
abbrev rPRT_PCH_CFG (n : Nat) : Nat := 0xD00100 + 0x10 * n
abbrev rPRT_PCH_STAT (n : Nat) : Nat := 0xD00104 + 0x10 * n
abbrev rPRT_PCH_CAUSE (n : Nat) : Nat := 0xD00108 + 0x10 * n
abbrev rPRT_PCH_TCNT (n : Nat) : Nat := 0xD0010C + 0x10 * n
abbrev rPRT_SP_CFG : Nat := 0xD00200
abbrev rPRT_SP_STAT : Nat := 0xD00204
abbrev rPRT_SP_CMD : Nat := 0xD00208
abbrev rPRT_SP_HB : Nat := 0xD0020C
abbrev rPRT_LIM_CFG (i : Nat) : Nat := 0xD00400 + 0x10 * i
abbrev rPRT_LIM_THR (i : Nat) : Nat := 0xD00404 + 0x10 * i
abbrev rPRT_LIM_MASK (i : Nat) : Nat := 0xD00408 + 0x10 * i

abbrev rFLT_STAT : Nat := 0xE00000
abbrev rFLT_EVT : Nat := 0xE00004
abbrev rFLT_CFG : Nat := 0xE00010
abbrev rFLT_FAULTN_CFG : Nat := 0xE00014
abbrev rFLT_IRQ_EN : Nat := 0xE00018
abbrev rFLT_IRQ_SUM : Nat := 0xE0001C
abbrev rFLT_CLEAR : Nat := 0xE00020
abbrev rFLT_NOTE_CNT : Nat := 0xE00024
abbrev rFLT_REC_DROP : Nat := 0xE00028
abbrev rFLT_CLR_REFUSE : Nat := 0xE0002C
abbrev rFLT_FIRST (w : Nat) : Nat := 0xE00040 + 0x4 * w
abbrev rFLT_BKT_CFG (t : Nat) : Nat := 0xE00080 + 0x10 * t
abbrev rFLT_BKT_RETIRED (t : Nat) : Nat := 0xE00084 + 0x10 * t
abbrev rFLT_BKT_SEL : Nat := 0xE000C0
abbrev rFLT_BKT_LVL : Nat := 0xE000C4
abbrev rFLT_CLS (k : Nat) : Nat := 0xE00400 + 0x4 * k
abbrev rFLT_REC (i w : Nat) : Nat := 0xE01000 + 0x20 * i + 0x4 * w

abbrev rSNR_STAT : Nat := 0xF00000
abbrev rSNR_EVT : Nat := 0xF00004
abbrev rSNR_CFG : Nat := 0xF00008
abbrev rSNR_POST_MS : Nat := 0xF0000C
abbrev rSNR_CWIN_CMD : Nat := 0xF00010
abbrev rSNR_CWIN_V : Nat := 0xF00014
abbrev rSNR_DUMP_BASE_LO : Nat := 0xF00018
abbrev rSNR_DUMP_BASE_HI : Nat := 0xF0001C
abbrev rSNR_DUMP_LEN : Nat := 0xF00020
abbrev rSNR_MISSED : Nat := 0xF00024
abbrev rSNR_DROP : Nat := 0xF00028
abbrev rSNR_ACQ : Nat := 0xF0002C
abbrev rSNR_SW : Nat := 0xF00030
abbrev rSNR_TRIG_DLY (l : Nat) : Nat := 0xF00040 + 0x4 * l
abbrev rSNR_TRIG_LAST (l : Nat) : Nat := 0xF00050 + 0x4 * l
abbrev rSNR_TSEL (k : Nat) : Nat := 0xF00100 + 0x4 * k

abbrev rTLY_STAT : Nat := 0x1000000
abbrev rTLY_EVT : Nat := 0x1000004
abbrev rTLY_DROP_CNT : Nat := 0x1000008
abbrev rTLY_HBUF_BASE_LO : Nat := 0x1000010
abbrev rTLY_HBUF_BASE_HI : Nat := 0x1000014
abbrev rTLY_HBUF_LEN : Nat := 0x1000018
abbrev rTLY_HBUF_WI : Nat := 0x100001C
abbrev rTLY_CWIN_SEL : Nat := 0x1000020
abbrev rTLY_CWIN_OVF : Nat := 0x1000024
abbrev rTLY_CWIN_LO (k : Nat) : Nat := 0x1000040 + 0x8 * k
abbrev rTLY_CWIN_HI (k : Nat) : Nat := 0x1000044 + 0x8 * k
abbrev rTLY_DEV_CFG (k : Nat) : Nat := 0x1000100 + 0x10 * k
abbrev rTLY_DEV_LO (k : Nat) : Nat := 0x1000104 + 0x10 * k
abbrev rTLY_DEV_HI (k : Nat) : Nat := 0x1000108 + 0x10 * k
abbrev rTLY_SWIN_SEL : Nat := 0x1001000
abbrev rTLY_SWIN (w : Nat) : Nat := 0x1002000 + 0x8 * w

abbrev rDBG_STAT : Nat := 0x1100000
abbrev rDBG_EVT : Nat := 0x1100004
abbrev rDBG_UNLOCK_CNT : Nat := 0x1100008

/-- Rows of block 0x00. -/
def regBlk00 : List RegRow := [
  { base := 0x000000, ty := .ro, rst := 0x67160A01 },
  { base := 0x000100, ty := .ro },
  { base := 0x000104, ty := .w1c, w := 0x00000003, rsv := 0xFFFFFFFC },
  { base := 0x000110, ty := .rwl, rst := 0x00040401, w := 0x000F3F03, rsv := 0xFFF0C0FC },
  { base := 0x000114, ty := .rwl, w := 0x00000001, rsv := 0xFFFFFFFE },
  { base := 0x000118, ty := .ro },
  { base := 0x000120, ty := .ro },
  { base := 0x000124, ty := .ro },
  { base := 0x000140, ty := .ro, n1 := 12, s1 := 0x4 },
  { base := 0x000180, ty := .rc, n1 := 7, s1 := 0x4 },
  { base := 0x000200, ty := .wo, w := 0xFFFFFFFF },
  { base := 0x000204, ty := .ro },
  { base := 0x000300, ty := .ro, rst := 1 },
  { base := 0x000304, ty := .rwl, w := 0x00000003, rsv := 0xFFFFFFFC },
  { base := 0x000308, ty := .ro },
  { base := 0x000310, ty := .ro },
  { base := 0x000314, ty := .ro },
  { base := 0x000318, ty := .ro },
  { base := 0x00031C, ty := .ro },
  { base := 0x000320, ty := .ro },
  { base := 0x000324, ty := .wo, w := 0x0000FFFE, rsv := 0xFFFF0001, coresOnly := true } ]

/-- Rows of block 0x01. -/
def regBlk01 : List RegRow := [
  { base := 0x100000, ty := .ro },
  { base := 0x100004, ty := .w1c, w := 0x0000007F, rsv := 0xFFFFFF80 },
  { base := 0x100010, ty := .rwl, w := 0xFFFFFFC0 },
  { base := 0x100014, ty := .rwl, w := 0xFFFFFFFF },
  { base := 0x100018, ty := .rwl, w := 0x00000001, rsv := 0xFFFFFFFE },
  { base := 0x100100, ty := .rwl, w := 0xFFFFF000, n1 := 4, s1 := 0x40 },
  { base := 0x100104, ty := .rwl, w := 0xFFFFFFFF, n1 := 4, s1 := 0x40 },
  { base := 0x100108, ty := .rwl, w := 0x0000011F, rsv := 0xFFFFFEE0, n1 := 4, s1 := 0x40 },
  { base := 0x10010C, ty := .ro, n1 := 4, s1 := 0x40 },
  { base := 0x100110, ty := .ro, n1 := 4, s1 := 0x40 },
  { base := 0x100114, ty := .ro, n1 := 4, s1 := 0x40 },
  { base := 0x100120, ty := .rwl, w := 0xFFFFF000, n1 := 4, s1 := 0x40 },
  { base := 0x100124, ty := .rwl, w := 0xFFFFFFFF, n1 := 4, s1 := 0x40 },
  { base := 0x100128, ty := .rwl, w := 0x0000011F, rsv := 0xFFFFFEE0, n1 := 4, s1 := 0x40 },
  { base := 0x10012C, ty := .ro, n1 := 4, s1 := 0x40 },
  { base := 0x100130, ty := .ro, n1 := 4, s1 := 0x40 },
  { base := 0x100200, ty := .rwl, w := 0xFFFFF000 },
  { base := 0x100204, ty := .rwl, w := 0xFFFFFFFF },
  { base := 0x100208, ty := .rwl, w := 0x0000011F, rsv := 0xFFFFFEE0 },
  { base := 0x10020C, ty := .ro },
  { base := 0x100210, ty := .ro },
  { base := 0x100214, ty := .rc },
  { base := 0x100240, ty := .rwl, w := 0xFFFFF000 },
  { base := 0x100244, ty := .rwl, w := 0xFFFFFFFF },
  { base := 0x100248, ty := .rwl, w := 0x0000011F, rsv := 0xFFFFFEE0 },
  { base := 0x10024C, ty := .ro },
  { base := 0x100250, ty := .ro },
  { base := 0x100254, ty := .rc },
  { base := 0x100300, ty := .wo, w := 0x0000000F, rsv := 0xFFFFFFF0 },
  { base := 0x100304, ty := .rc },
  { base := 0x100308, ty := .ro },
  { base := 0x10030C, ty := .rc } ]

/-- Rows of block 0x02. -/
def regBlk02 : List RegRow := [
  { base := 0x200000, ty := .ro },
  { base := 0x200004, ty := .w1c, w := 0x0000001F, rsv := 0xFFFFFFE0 },
  { base := 0x200010, ty := .ro, n1 := 4, s1 := 0x4 },
  { base := 0x200040, ty := .ro, n1 := 24, s1 := 0x4 },
  { base := 0x2000A0, ty := .rwl, w := 0x00000037, rsv := 0xFFFFFFC8 },
  { base := 0x2000A4, ty := .rwl, w := 0x00000001, rsv := 0xFFFFFFFE },
  { base := 0x2000A8, ty := .ro },
  { base := 0x2000C0, ty := .rwl, w := 0xFFFFFFFF, n1 := 24, s1 := 0x4 },
  { base := 0x200140, ty := .ro, n1 := 8, s1 := 0x4 },
  { base := 0x200180, ty := .rc },
  { base := 0x200184, ty := .ro },
  { base := 0x2001A0, ty := .ro },
  { base := 0x2001A4, ty := .ro },
  { base := 0x2001B0, ty := .ro },
  { base := 0x2001B4, ty := .ro },
  { base := 0x2001C0, ty := .rwl, w := 0x0000000F, rsv := 0xFFFFFFF0 },
  { base := 0x2001C4, ty := .ro } ]

/-- Rows of block 0x03. -/
def regBlk03 : List RegRow := [
  { base := 0x300000, ty := .ro },
  { base := 0x300004, ty := .w1c, w := 0x00000003, rsv := 0xFFFFFFFC },
  { base := 0x300008, ty := .rc },
  { base := 0x300100, ty := .ro, n1 := 16, s1 := 0x4 } ]

/-- Rows of block 0x04. -/
def regBlk04 : List RegRow := [
  { base := 0x400000, ty := .ro },
  { base := 0x400004, ty := .w1c, w := 0x0000001F, rsv := 0xFFFFFFE0 },
  { base := 0x400008, ty := .rwl, rst := 0x03E8FFFF, w := 0xFFFFFFFF },
  { base := 0x40000C, ty := .rc },
  { base := 0x400010, ty := .ro },
  { base := 0x400014, ty := .rc },
  { base := 0x400020, ty := .rw, w := 0x00000FFF, rsv := 0xFFFFF000 },
  { base := 0x400024, ty := .ro },
  { base := 0x400100, ty := .wo, w := 0x00FFFFFF, rsv := 0xFF000000 },
  { base := 0x400108, ty := .wo, w := 0xFFFFFFFF },
  { base := 0x40010C, ty := .wo, w := 0xFFFFFFFF },
  { base := 0x400110, ty := .ro },
  { base := 0x400114, ty := .ro },
  { base := 0x400118, ty := .rc },
  { base := 0x40011C, ty := .ro },
  { base := 0x401000, ty := .ro, n1 := 64, s1 := 0x8 },
  { base := 0x401004, ty := .ro, n1 := 64, s1 := 0x8 },
  { base := 0x480000, ty := .ro, n1 := 1024, s1 := 0x200, n2 := 128, s2 := 0x4, coresOnly := true } ]

/-- Rows of block 0x05. -/
def regBlk05 : List RegRow := [
  { base := 0x500000, ty := .ro },
  { base := 0x500004, ty := .w1c, w := 0x00000007, rsv := 0xFFFFFFF8 },
  { base := 0x500008, ty := .rc },
  { base := 0x50000C, ty := .rc },
  { base := 0x500010, ty := .ro },
  { base := 0x500014, ty := .wo, w := 0x000007FF, rsv := 0xFFFFF800 },
  { base := 0x500018, ty := .wo, w := 0x0000FFFF, rsv := 0xFFFF0000 },
  { base := 0x500020, ty := .rw, w := 0x07FF000F, rsv := 0xF800FFF0 },
  { base := 0x500024, ty := .ro },
  { base := 0x501000, ty := .rwl, w := 0x00FF0F1F, rsv := 0xFF00F0C0, n1 := 1024, s1 := 0x4 },
  { base := 0x502000, ty := .rwl, w := 0x00FF001F, rsv := 0xFF00F0C0, n1 := 16, s1 := 0x100, n2 := 64, s2 := 0x4 } ]

/-- Rows of block 0x06. -/
def regBlk06 : List RegRow := [
  { base := 0x600000, ty := .ro },
  { base := 0x600004, ty := .w1c, w := 0x000003FF, rsv := 0xFFFFFC00 },
  { base := 0x600008, ty := .rc },
  { base := 0x60000C, ty := .rc },
  { base := 0x600010, ty := .rwl, rst := 0x00010000, w := 0x7FFF0007, rsv := 0x8000FFF8 },
  { base := 0x600014, ty := .rwl, rst := 0x00000001, w := 0xFFFFFFFF },
  { base := 0x600020, ty := .rw, w := 0x0000037F, rsv := 0xFFFFFC80 },
  { base := 0x600024, ty := .ro },
  { base := 0x600028, ty := .ro },
  { base := 0x60002C, ty := .ro },
  { base := 0x600040, ty := .ro, n1 := 8, s1 := 0x4 },
  { base := 0x600080, ty := .ro, n1 := 12, s1 := 0x4 },
  { base := 0x601000, ty := .rwl, rst := 0x00000090, w := 0x000003F3, rsv := 0xFFFFFC0C, n1 := 128, s1 := 0x80 },
  { base := 0x601004, ty := .rwl, w := 0xFFFFFFFF, n1 := 128, s1 := 0x80 },
  { base := 0x601008, ty := .rwl, w := 0x0000FFFF, rsv := 0xFFFF0000, n1 := 128, s1 := 0x80 },
  { base := 0x60100C, ty := .rwl, w := 0x0000003F, rsv := 0xFFFFFFC0, n1 := 128, s1 := 0x80 },
  { base := 0x601010, ty := .rwl, rst := 0x00000010, w := 0x0000FFFF, rsv := 0xFFFF0000, n1 := 128, s1 := 0x80 },
  { base := 0x601014, ty := .ro, n1 := 128, s1 := 0x80 },
  { base := 0x601018, ty := .ro, n1 := 128, s1 := 0x80 },
  { base := 0x60101C, ty := .rwl, w := 0xFFFFFFFF, n1 := 128, s1 := 0x80 },
  { base := 0x601020, ty := .rwl, w := 0xFFFFFFFF, n1 := 128, s1 := 0x80, n2 := 23, s2 := 0x4 },
  { base := 0x608000, ty := .ro, n1 := 4096, s1 := 0x10, n2 := 4, s2 := 0x4 } ]

/-- Rows of block 0x07. -/
def regBlk07 : List RegRow := [
  { base := 0x700000, ty := .ro },
  { base := 0x700004, ty := .w1c, w := 0x000001FF, rsv := 0xFFFFFE00 },
  { base := 0x700008, ty := .rc },
  { base := 0x700010, ty := .rw, w := 0x0000003F, rsv := 0xFFFFFFC0 },
  { base := 0x700400, ty := .ro, rst := 0x00000003, n1 := 256, s1 := 0x4 },
  { base := 0x701000, ty := .rwl, rst := 0x00000004, w := 0x00003FFD, rsv := 0xFFFFC002, n1 := 12, s1 := 0x80 },
  { base := 0x701004, ty := .rwl, rst := 0x447A0000, w := 0xFFFFFFFF, n1 := 12, s1 := 0x80 },
  { base := 0x701008, ty := .rwl, rst := 0x3C23D70A, w := 0xFFFFFFFF, n1 := 12, s1 := 0x80 },
  { base := 0x70100C, ty := .rwl, rst := 0x02800140, w := 0xFFFFFFFF, n1 := 12, s1 := 0x80 },
  { base := 0x701010, ty := .rwl, rst := 0x00FA04E2, w := 0x0FFF1FFF, rsv := 0xF000E000, n1 := 12, s1 := 0x80 },
  { base := 0x701014, ty := .rwl, rst := 0x03020640, w := 0x0F0FFFFF, rsv := 0xF0F00000, n1 := 12, s1 := 0x80 },
  { base := 0x701020, ty := .ro, n1 := 12, s1 := 0x80 },
  { base := 0x701024, ty := .ro, n1 := 12, s1 := 0x80 },
  { base := 0x701028, ty := .rc, n1 := 12, s1 := 0x80 },
  { base := 0x70102C, ty := .ro, n1 := 12, s1 := 0x80 },
  { base := 0x701030, ty := .rc, n1 := 12, s1 := 0x80 },
  { base := 0x701034, ty := .rc, n1 := 12, s1 := 0x80 },
  { base := 0x701038, ty := .rc, n1 := 12, s1 := 0x80 },
  { base := 0x70103C, ty := .rc, n1 := 12, s1 := 0x80 },
  { base := 0x704000, ty := .rwl, w := 0x0000000F, rsv := 0xFFFFFFF0, n1 := 12, s1 := 0x80 },
  { base := 0x704004, ty := .rwl, rst := 0x00030D40, w := 0x003FFFFF, rsv := 0xFFC00000, n1 := 12, s1 := 0x80 },
  { base := 0x704008, ty := .rwl, rst := 0x00FA04E2, w := 0x0FFF1FFF, rsv := 0xF000E000, n1 := 12, s1 := 0x80 },
  { base := 0x70400C, ty := .rwl, w := 0xFFFFFFFF, n1 := 12, s1 := 0x80 },
  { base := 0x704010, ty := .rwl, rst := 0x3DCCCCCD, w := 0xFFFFFFFF, n1 := 12, s1 := 0x80 },
  { base := 0x704014, ty := .rwl, w := 0x0000FFF7, rsv := 0xFFFF0008, n1 := 12, s1 := 0x80 },
  { base := 0x704020, ty := .ro, rst := 0x00030D40, n1 := 12, s1 := 0x80 },
  { base := 0x704024, ty := .ro, rst := 0x00FA04E2, n1 := 12, s1 := 0x80 },
  { base := 0x704028, ty := .ro, n1 := 12, s1 := 0x80 },
  { base := 0x70402C, ty := .ro, n1 := 12, s1 := 0x80 },
  { base := 0x704030, ty := .rc, n1 := 12, s1 := 0x80 },
  { base := 0x704034, ty := .rc, n1 := 12, s1 := 0x80 },
  { base := 0x704038, ty := .rc, n1 := 12, s1 := 0x80 },
  { base := 0x70403C, ty := .ro, n1 := 12, s1 := 0x80 },
  { base := 0x704800, ty := .w1c, w := 0x0000000F, rsv := 0xFFFFFFF0 },
  { base := 0x704804, ty := .ro } ]

/-- Rows of block 0x08. -/
def regBlk08 : List RegRow := [
  { base := 0x800000, ty := .ro },
  { base := 0x800004, ty := .w1c, w := 0x000001FF, rsv := 0xFFFFFE00 },
  { base := 0x800010, ty := .rwl, rst := 0x00004003, w := 0x0000FF0F, rsv := 0xFFFF00F0 },
  { base := 0x800014, ty := .ro },
  { base := 0x800018, ty := .rc },
  { base := 0x800020, ty := .rw, w := 0x0000003F, rsv := 0xFFFFFFC0 },
  { base := 0x801000, ty := .rwl, w := 0x0F01FF03, rsv := 0xF0FE00FC, n1 := 64, s1 := 0x40 },
  { base := 0x801004, ty := .ro, n1 := 64, s1 := 0x40 },
  { base := 0x801008, ty := .ro, n1 := 64, s1 := 0x40 },
  { base := 0x80100C, ty := .ro, n1 := 64, s1 := 0x40 },
  { base := 0x801010, ty := .ro, n1 := 64, s1 := 0x40 },
  { base := 0x801014, ty := .ro, n1 := 64, s1 := 0x40 },
  { base := 0x801018, ty := .ro, n1 := 64, s1 := 0x40 },
  { base := 0x80101C, ty := .rc, n1 := 64, s1 := 0x40 },
  { base := 0x801020, ty := .rc, n1 := 64, s1 := 0x40 },
  { base := 0x801024, ty := .rc, n1 := 64, s1 := 0x40 },
  { base := 0x801028, ty := .ro, n1 := 64, s1 := 0x40 },
  { base := 0x80102C, ty := .rc, n1 := 64, s1 := 0x40 },
  { base := 0x802000, ty := .ro, n1 := 256, s1 := 0x8, n2 := 2, s2 := 0x4 },
  { base := 0x802800, ty := .ro, n1 := 256, s1 := 0x8, n2 := 2, s2 := 0x4 } ]

/-- Rows of block 0x09. -/
def regBlk09 : List RegRow := [
  { base := 0x900000, ty := .ro, rst := 0x00000040 },
  { base := 0x900004, ty := .w1c, w := 0x000000FF, rsv := 0xFFFFFF00 },
  { base := 0x900010, ty := .rwl, rst := 0x16800C80, w := 0xFFFFFFFF },
  { base := 0x900014, ty := .rwl, rst := 0x00000100, w := 0x0000FFFF, rsv := 0xFFFF0000 },
  { base := 0x900020, ty := .ro },
  { base := 0x900024, ty := .ro },
  { base := 0x900028, ty := .ro },
  { base := 0x90002C, ty := .ro },
  { base := 0x900030, ty := .rc },
  { base := 0x900034, ty := .rc },
  { base := 0x900038, ty := .rc },
  { base := 0x90003C, ty := .rc },
  { base := 0x900040, ty := .rc },
  { base := 0x900050, ty := .rwl, rst := 0x00010A00, w := 0x001F1F01, rsv := 0xFFE0E0FE },
  { base := 0x900054, ty := .ro },
  { base := 0x900060, ty := .ro },
  { base := 0x900064, ty := .ro },
  { base := 0x900068, ty := .rc },
  { base := 0x90006C, ty := .rw, w := 0x000007FF, rsv := 0xFFFFF800 },
  { base := 0x900070, ty := .rc },
  { base := 0x901000, ty := .ro, n1 := 512, s1 := 0x8, n2 := 2, s2 := 0x4 } ]

/-- Rows of block 0x0A. -/
def regBlk0A : List RegRow := [
  { base := 0xA00000, ty := .ro },
  { base := 0xA00004, ty := .w1c, w := 0x0000003F, rsv := 0xFFFFFFC0 },
  { base := 0xA00008, ty := .w1c, w := 0xFFFFFFFF },
  { base := 0xA00010, ty := .rwl, w := 0x00000773, rsv := 0xFFFFF88C, n1 := 4, s1 := 0x20 },
  { base := 0xA00014, ty := .ro, n1 := 4, s1 := 0x20 },
  { base := 0xA00018, ty := .rc, n1 := 4, s1 := 0x20 },
  { base := 0xA0001C, ty := .rc, n1 := 4, s1 := 0x20 },
  { base := 0xA00090, ty := .wo, w := 0x0000000F, rsv := 0xFFFFFFF0 },
  { base := 0xA00100, ty := .rwl, w := 0x8001FFF7, rsv := 0x7FFE0008, n1 := 4, s1 := 0x100, n2 := 64, s2 := 0x4 },
  { base := 0xA00800, ty := .rwl, w := 0x001FF3FF, rsv := 0xFFE00C00, n1 := 8, s1 := 0x10 },
  { base := 0xA00804, ty := .ro, n1 := 8, s1 := 0x10 },
  { base := 0xA00808, ty := .rc, n1 := 8, s1 := 0x10 },
  { base := 0xA01000, ty := .rwl, rst := 0x00000401, w := 0x000FFF07, rsv := 0xFFF000F8, n1 := 32, s1 := 0x10 },
  { base := 0xA01004, ty := .rwl, rst := 0x3F800000, w := 0xFFFFFFFF, n1 := 32, s1 := 0x10 },
  { base := 0xA01008, ty := .rwl, w := 0xFFFFFFFF, n1 := 32, s1 := 0x10 },
  { base := 0xA0100C, ty := .ro, n1 := 32, s1 := 0x10 } ]

/-- Rows of block 0x0B. -/
def regBlk0B : List RegRow := [
  { base := 0xB00000, ty := .ro },
  { base := 0xB00004, ty := .w1c, w := 0x000007FF, rsv := 0xFFFFF800 },
  { base := 0xB00008, ty := .rwl, rst := 0x0A4B0404, w := 0xFF7F0F0F, rsv := 0x0080F0F0 },
  { base := 0xB0000C, ty := .wo, w := 0x00000003, rsv := 0xFFFFFFFC },
  { base := 0xB00010, ty := .ro },
  { base := 0xB00014, ty := .ro },
  { base := 0xB00018, ty := .ro },
  { base := 0xB00020, ty := .ro },
  { base := 0xB00024, ty := .ro },
  { base := 0xB00028, ty := .rc },
  { base := 0xB0002C, ty := .rc },
  { base := 0xB00100, ty := .ro, n1 := 2, s1 := 0x20 },
  { base := 0xB00104, ty := .ro, n1 := 2, s1 := 0x20 },
  { base := 0xB00108, ty := .ro, n1 := 2, s1 := 0x20 },
  { base := 0xB0010C, ty := .ro, n1 := 2, s1 := 0x20 },
  { base := 0xB00110, ty := .rc, n1 := 2, s1 := 0x20 } ]

/-- Rows of block 0x0C. -/
def regBlk0C : List RegRow := [
  { base := 0xC00000, ty := .ro },
  { base := 0xC00004, ty := .w1c, w := 0x000001FF, rsv := 0xFFFFFE00 },
  { base := 0xC00010, ty := .rwl, rst := 0x0502111E, w := 0x0FFF133F, rsv := 0xF000ECC0 },
  { base := 0xC00014, ty := .rwl, rst := 0x000003E8, w := 0xFFFFFFFF },
  { base := 0xC00018, ty := .rwl, rst := 0x000000FA, w := 0xFFFFFFFF },
  { base := 0xC00020, ty := .ro },
  { base := 0xC00024, ty := .ro },
  { base := 0xC00028, ty := .ro },
  { base := 0xC00030, ty := .ro },
  { base := 0xC00034, ty := .ro },
  { base := 0xC00038, ty := .ro },
  { base := 0xC0003C, ty := .ro },
  { base := 0xC00040, ty := .wo, w := 0xFFFFFFFF, coresOnly := true },
  { base := 0xC00044, ty := .wo, w := 0xFFFFFFFF, coresOnly := true },
  { base := 0xC00048, ty := .wo, w := 0x00000003, rsv := 0xFFFFFFFC, coresOnly := true },
  { base := 0xC0004C, ty := .rc },
  { base := 0xC01000, ty := .rwl, w := 0x0FFFFFE7, rsv := 0xF0000018, n1 := 2, s1 := 0x100 },
  { base := 0xC01004, ty := .ro, n1 := 2, s1 := 0x100 },
  { base := 0xC01008, ty := .rwl, w := 0xFFFFFFFF, n1 := 2, s1 := 0x100 },
  { base := 0xC0100C, ty := .rwl, w := 0x0000FFFF, rsv := 0xFFFF0000, n1 := 2, s1 := 0x100 },
  { base := 0xC01010, ty := .rwl, w := 0xFFFFFFFF, n1 := 2, s1 := 0x100 },
  { base := 0xC01014, ty := .rwl, w := 0xFFFFFFFF, n1 := 2, s1 := 0x100 },
  { base := 0xC01018, ty := .rc, n1 := 2, s1 := 0x100 },
  { base := 0xC0101C, ty := .ro, n1 := 2, s1 := 0x100 },
  { base := 0xC01020, ty := .ro, n1 := 2, s1 := 0x100 },
  { base := 0xC01024, ty := .ro, n1 := 2, s1 := 0x100 },
  { base := 0xC01028, ty := .rc, n1 := 2, s1 := 0x100 },
  { base := 0xC0102C, ty := .ro, n1 := 2, s1 := 0x100 },
  { base := 0xC01030, ty := .wo, w := 0xFFFF0FFF, rsv := 0x0000F000, n1 := 2, s1 := 0x100, coresOnly := true },
  { base := 0xC01034, ty := .ro, n1 := 2, s1 := 0x100 },
  { base := 0xC01038, ty := .rc, n1 := 2, s1 := 0x100, coresOnly := true },
  { base := 0xC0103C, ty := .wo, w := 0x0000000F, rsv := 0xFFFFFFF0, n1 := 2, s1 := 0x100, coresOnly := true },
  { base := 0xC01040, ty := .rc, n1 := 2, s1 := 0x100 },
  { base := 0xC01044, ty := .rc, n1 := 2, s1 := 0x100 },
  { base := 0xC10000, ty := .wo, w := 0xFFFFFFFF, n1 := 2, s1 := 0x800, n2 := 512, s2 := 0x4, coresOnly := true },
  { base := 0xC20000, ty := .ro, n1 := 2, s1 := 0x8000, n2 := 8192, s2 := 0x4, coresOnly := true } ]

/-- Rows of block 0x0D. -/
def regBlk0D : List RegRow := [
  { base := 0xD00000, ty := .ro },
  { base := 0xD00004, ty := .w1c, w := 0x000003FF, rsv := 0xFFFFFC00 },
  { base := 0xD00010, ty := .rwl, rst := 0x050A0064, w := 0x0FFFFFFF, rsv := 0xF0000000 },
  { base := 0xD00014, ty := .rwl, rst := 0x00000A0A, w := 0x00003F3F, rsv := 0xFFFFC0C0 },
  { base := 0xD00018, ty := .ro },
  { base := 0xD00020, ty := .ro },
  { base := 0xD00024, ty := .ro },
  { base := 0xD00028, ty := .rc },
  { base := 0xD0002C, ty := .rc },
  { base := 0xD00040, ty := .rwl, w := 0x00001FFF, rsv := 0xFFFFE000, n1 := 16, s1 := 0x4 },
  { base := 0xD00080, ty := .rwl, w := 0xFFFFFFFF },
  { base := 0xD00084, ty := .rwl, w := 0xFFFFFFFF },
  { base := 0xD00100, ty := .rwl, rst := 0x00000006, w := 0x00000007, rsv := 0xFFFFFFF8, n1 := 8, s1 := 0x10 },
  { base := 0xD00104, ty := .ro, n1 := 8, s1 := 0x10 },
  { base := 0xD00108, ty := .ro, n1 := 8, s1 := 0x10 },
  { base := 0xD0010C, ty := .rc, n1 := 8, s1 := 0x10 },
  { base := 0xD00200, ty := .rwl, rst := 0x00FF0414, w := 0xFFFF0F7F, rsv := 0x0000F080 },
  { base := 0xD00204, ty := .ro },
  { base := 0xD00208, ty := .ro },
  { base := 0xD0020C, ty := .ro },
  { base := 0xD00400, ty := .rwl, w := 0x7FFFFFFF, rsv := 0x80000000, n1 := 64, s1 := 0x10 },
  { base := 0xD00404, ty := .rwl, w := 0xFFFFFFFF, n1 := 64, s1 := 0x10 },
  { base := 0xD00408, ty := .rwl, w := 0x000000FF, rsv := 0xFFFFFF00, n1 := 64, s1 := 0x10 } ]

/-- Rows of block 0x0E. -/
def regBlk0E : List RegRow := [
  { base := 0xE00000, ty := .ro },
  { base := 0xE00004, ty := .w1c, w := 0x0000003F, rsv := 0xFFFFFFC0 },
  { base := 0xE00010, ty := .rwl, rst := 0x00040025, w := 0x0007FFFF, rsv := 0xFFF80000 },
  { base := 0xE00014, ty := .rwl, rst := 0x00000064, w := 0x000003FF, rsv := 0xFFFFFC00 },
  { base := 0xE00018, ty := .rw, w := 0x0003FFFF, rsv := 0xFFFC0000 },
  { base := 0xE0001C, ty := .ro },
  { base := 0xE00020, ty := .wo, w := 0x0000073F, rsv := 0xFFFFF8C0 },
  { base := 0xE00024, ty := .rc },
  { base := 0xE00028, ty := .rc },
  { base := 0xE0002C, ty := .rc },
  { base := 0xE00040, ty := .ro, n1 := 8, s1 := 0x4 },
  { base := 0xE00080, ty := .rwl, rst := 0x04000110, w := 0xFFFF0F1F, rsv := 0x0000F0E0, n1 := 4, s1 := 0x10 },
  { base := 0xE00084, ty := .rc, n1 := 4, s1 := 0x10 },
  { base := 0xE000C0, ty := .rw, w := 0x0000FFFF, rsv := 0xFFFF0000 },
  { base := 0xE000C4, ty := .ro },
  { base := 0xE00400, ty := .rwl, w := 0xFFFFFFFF, n1 := 72, s1 := 0x4 },
  { base := 0xE01000, ty := .ro, n1 := 64, s1 := 0x20, n2 := 8, s2 := 0x4 } ]

/-- Rows of block 0x0F. -/
def regBlk0F : List RegRow := [
  { base := 0xF00000, ty := .ro },
  { base := 0xF00004, ty := .w1c, w := 0x0000003F, rsv := 0xFFFFFFC0 },
  { base := 0xF00008, ty := .rwl, w := 0x00000037, rsv := 0xFFFFFFC8 },
  { base := 0xF0000C, ty := .rwl, w := 0x0000FFFF, rsv := 0xFFFF0000 },
  { base := 0xF00010, ty := .rwl, w := 0x07FF3FFF, rsv := 0xF800C000 },
  { base := 0xF00014, ty := .rwl, w := 0x07FF3FFF, rsv := 0xF800C000 },
  { base := 0xF00018, ty := .rwl, w := 0xFFFFF000 },
  { base := 0xF0001C, ty := .rwl, w := 0xFFFFFFFF },
  { base := 0xF00020, ty := .rwl, w := 0xFFFFFFFF },
  { base := 0xF00024, ty := .rc },
  { base := 0xF00028, ty := .rc },
  { base := 0xF0002C, ty := .ro },
  { base := 0xF00030, ty := .wo, w := 0xFFFF00FF, rsv := 0x0000FF00, coresOnly := true },
  { base := 0xF00040, ty := .rwl, w := 0x000000FF, rsv := 0xFFFFFF00, n1 := 4, s1 := 0x4 },
  { base := 0xF00050, ty := .ro, n1 := 4, s1 := 0x4 },
  { base := 0xF00100, ty := .rwl, w := 0x0FFFFFFF, rsv := 0xF0000000, n1 := 64, s1 := 0x4 } ]

/-- Rows of block 0x10. -/
def regBlk10 : List RegRow := [
  { base := 0x1000000, ty := .ro },
  { base := 0x1000004, ty := .w1c, w := 0x0000000F, rsv := 0xFFFFFFF0 },
  { base := 0x1000008, ty := .rc },
  { base := 0x1000010, ty := .rwl, w := 0xFFFFF000 },
  { base := 0x1000014, ty := .rwl, w := 0xFFFFFFFF },
  { base := 0x1000018, ty := .rwl, w := 0xFFFFF000 },
  { base := 0x100001C, ty := .ro },
  { base := 0x1000020, ty := .rw, w := 0x0000000F, rsv := 0xFFFFFFF0 },
  { base := 0x1000024, ty := .ro },
  { base := 0x1000040, ty := .ro, n1 := 8, s1 := 0x8 },
  { base := 0x1000044, ty := .ro, n1 := 8, s1 := 0x8 },
  { base := 0x1000100, ty := .rw, w := 0x000001FF, rsv := 0xFFFFFE00, n1 := 8, s1 := 0x10 },
  { base := 0x1000104, ty := .ro, n1 := 8, s1 := 0x10 },
  { base := 0x1000108, ty := .ro, n1 := 8, s1 := 0x10 },
  { base := 0x1001000, ty := .rw, w := 0x000001FF, rsv := 0xFFFFFE00 },
  { base := 0x1002000, ty := .ro, n1 := 512, s1 := 0x8, n2 := 2, s2 := 0x4 } ]

/-- Rows of block 0x11. -/
def regBlk11 : List RegRow := [
  { base := 0x1100000, ty := .ro },
  { base := 0x1100004, ty := .w1c, w := 0x0000000F, rsv := 0xFFFFFFF0 },
  { base := 0x1100008, ty := .rc } ]

/-- The rows of the block that holds an offset (R4: bits [24:20]). -/
def regBlock (off : Nat) : List RegRow :=
  match off / 0x100000 with
  | 0x00 => regBlk00
  | 0x01 => regBlk01
  | 0x02 => regBlk02
  | 0x03 => regBlk03
  | 0x04 => regBlk04
  | 0x05 => regBlk05
  | 0x06 => regBlk06
  | 0x07 => regBlk07
  | 0x08 => regBlk08
  | 0x09 => regBlk09
  | 0x0A => regBlk0A
  | 0x0B => regBlk0B
  | 0x0C => regBlk0C
  | 0x0D => regBlk0D
  | 0x0E => regBlk0E
  | 0x0F => regBlk0F
  | 0x10 => regBlk10
  | 0x11 => regBlk11
  | _ => []

/-- Does the row list this offset. -/
def RegRow.holds (r : RegRow) (off : Nat) : Bool :=
  decide (r.base ≤ off) &&
  (let d := off - r.base
   decide (d / r.s1 < r.n1) && decide ((d % r.s1) % r.s2 = 0) && decide ((d % r.s1) / r.s2 < r.n2))

/-- The row that lists an offset; none for a reserved offset (R5). -/
def rowOf (off : Nat) : Option RegRow := (regBlock off).find? (fun r => r.holds off)

end Sys2Proof.Machine
end

