-- ==== Sys2Proof/Machine/Flags.lean ====
section
/-! DEFINITION. The codes of the device: Tocsin sources, codes and classes (R380 to R382 and the codes of the other
blocks' chapters), completion classes and status values (R64, R101, R119). -/

namespace Sys2Proof.Machine

/-- SOURCE of a block member (R380). -/
def srcBlk (b i : Nat) : U16 := BitVec.ofNat 16 (b * 512 + i)
/-- SOURCE of a cell (R380). -/
def srcCell (c : Nat) : U16 := BitVec.ofNat 16 (0xC000 + c)

/-- Tocsin classes (R384). -/
def clsNote : Nat := 0
def clsDegrade : Nat := 1
def clsBlock : Nat := 2
def clsTrip : Nat := 3

/-- The default class of a code: the codes of R382 and of the chapters it defers to; reserved codes are NOTE. -/
def defaultClass (code : Nat) : Nat :=
  if [0x0000, 0x0183, 0x0340, 0x0341, 0x0342, 0x0343].contains code then 3
  else if [0x0081, 0x0082, 0x01C1, 0x0205, 0x0344].contains code then 2
  else if degradeCodes.contains code then 1
  else 0
where
  degradeCodes : List Nat :=
    [0x0042, 0x0043, 0x0180, 0x0181, 0x0182, 0x0184, 0x0185, 0x01C0, 0x01C2, 0x01C5, 0x0200, 0x0201, 0x0202,
     0x0240, 0x0241, 0x0281, 0x0380, 0x0383, 0x0384, 0x00C0, 0x00C1, 0x0103, 0x0104, 0x0140, 0x0300, 0x03C1,
     0x02C0, 0x02C2, 0x02C3, 0x02C4, 0x02C5, 0x02C6, 0x0401, 0x0442]

/-- Completion classes (R64). -/
def cDone : Nat := 0
def cRefused : Nat := 1
def cFailed : Nat := 2
def cRing : Nat := 3

/-- Opcode-level status values (R119). -/
def stOk : Nat := 0x0000
def stMoved : Nat := 0x0001
def stNoChange : Nat := 0x0002
def stSuperseded : Nat := 0x0001
def stProtection : Nat := 0x0002
def stTrainFail : Nat := 0x0003
def stFwFetch : Nat := 0x0004
def stFwHash : Nat := 0x0005
def stFwStore : Nat := 0x0006
def stInternal : Nat := 0x0007
def stBadPayload : Nat := 0x0101
def stEpochPast : Nat := 0x0102
def stEpochFar : Nat := 0x0103
def stEpochAlign : Nat := 0x0104
def stQueueFull : Nat := 0x0105
def stNotBlocked : Nat := 0x0106
def stSetupOpen : Nat := 0x0107
def stPermitOff : Nat := 0x0108
def stFaultActive : Nat := 0x0109
def stArmShort : Nat := 0x010A
def stBusy : Nat := 0x010B
def stCellState : Nat := 0x010C
def stCellDead : Nat := 0x010D
def stLoopOff : Nat := 0x010E
def stModeWrong : Nat := 0x010F
def stSlotState : Nat := 0x0110
def stKeyInvalid : Nat := 0x0111
def stLastAdminKey : Nat := 0x0112
def stSlotExhausted : Nat := 0x0113
def stNoStep : Nat := 0x0114
def stStepMismatch : Nat := 0x0115
def stNoSession : Nat := 0x0116

/-- Refusals of the authenticator (R101). -/
def rfBadFormat : Nat := 0x0001
def rfVault : Nat := 0x0002
def rfNoSession : Nat := 0x0003
def rfExpired : Nat := 0x0004
def rfWrongRing : Nat := 0x0005
def rfBadMac : Nat := 0x0006
def rfSeqOld : Nat := 0x0007
def rfOpcode : Nat := 0x0008
def rfPriv : Nat := 0x0009
def rfAuthSlot : Nat := 0x0010
def rfDevkey : Nat := 0x0011
def rfChallenge : Nat := 0x0012
def rfSignature : Nat := 0x0013
def rfPrivCeil : Nat := 0x0014
def rfTimeUnknown : Nat := 0x0015
def rfTimeWindow : Nat := 0x0016
def rfBusy : Nat := 0x0017
def rfNoSlot : Nat := 0x0018
def rfUnwrap : Nat := 0x0019
def rfSessionMac : Nat := 0x001A
def rfFwFormat : Nat := 0x0020
def rfFwTarget : Nat := 0x0021
def rfFwRollback : Nat := 0x0022

end Sys2Proof.Machine
end

