-- ==== Sys2Proof/Machine/Float.lean ====
section
/-! DEFINITION. IEEE 754 binary32 and binary64 arithmetic on exact dyadic numbers, rounded to nearest, ties to even. -/

namespace Sys2Proof.Machine

/-- A floating format: `p` significand bits (the hidden one counted), `w` bits of the whole word, and the exponent of
the least subnormal. -/
structure Fmt where
  p : Nat
  w : Nat
  emin : Int
  deriving DecidableEq, Repr

abbrev fmt32 : Fmt := { p := 24, w := 32, emin := -149 }
abbrev fmt64 : Fmt := { p := 53, w := 64, emin := -1074 }

/-- The value a floating word stands for: `fin neg m e` is (-1)^neg × m × 2^e. -/
inductive FVal where
  | nan
  | inf (neg : Bool)
  | fin (neg : Bool) (m : Nat) (e : Int)
  deriving DecidableEq, Repr

/-- The largest biased exponent of a format. -/
def Fmt.emaxB (f : Fmt) : Nat := 2 ^ (f.w - f.p) - 1

/-- The value of a floating word. -/
def fUnpack (f : Fmt) (x : Nat) : FVal :=
  let neg := (x / 2 ^ (f.w - 1)) % 2 = 1
  let ex := (x / 2 ^ (f.p - 1)) % 2 ^ (f.w - f.p)
  let man := x % 2 ^ (f.p - 1)
  if ex = f.emaxB then (if man = 0 then .inf neg else .nan)
  else if ex = 0 then .fin neg man f.emin
  else .fin neg (man + 2 ^ (f.p - 1)) (f.emin + (ex : Int) - 1)

/-- A NaN that operation `op` produces from the operand words `x` and `y`: quiet, as IEEE 754 says; its sign and the rest of its payload
are free (notes/assumptions/8). -/
def fNan (f : Fmt) (op x y : Nat) : Nat :=
  let w := Config.nanWord op x y
  (w % 2) * 2 ^ (f.w - 1) + f.emaxB * 2 ^ (f.p - 1) + 2 ^ (f.p - 2) + (w / 2) % 2 ^ (f.p - 2)

/-- An infinity. -/
def fInf (f : Fmt) (neg : Bool) : Nat := b2n neg * 2 ^ (f.w - 1) + f.emaxB * 2 ^ (f.p - 1)

/-- Round (-1)^neg × m × 2^e, with `sticky` for any part below, to nearest even.
[DEDUCED: notes/assumptions/17] -/
def fRound (f : Fmt) (neg : Bool) (m : Nat) (e : Int) (sticky : Bool := false) : Nat :=
  let s := b2n neg * 2 ^ (f.w - 1)
  if m = 0 then s
  else
    let bl : Int := (Nat.log2 m : Int) + 1
    let q : Int := max (e + bl - f.p) f.emin
    let r : Nat :=
      if q ≤ e then m * 2 ^ (e - q).toNat
      else
        let d := (q - e).toNat
        let hi := m / 2 ^ d
        let lo := m % 2 ^ d
        let half := 2 ^ (d - 1)
        if lo > half ∨ (lo = half ∧ (sticky ∨ hi % 2 = 1)) then hi + 1 else hi
    let body : Nat :=
      if r < 2 ^ (f.p - 1) then r
      else (q - f.emin + 1).toNat * 2 ^ (f.p - 1) + (r - 2 ^ (f.p - 1))
    if body ≥ f.emaxB * 2 ^ (f.p - 1) then fInf f neg else s + body

/-- The word of a value. -/
def fPack (f : Fmt) : FVal → Nat
  | .nan => fNan f 0 0 0
  | .inf n => fInf f n
  | .fin n m e => fRound f n m e

/-- Exact sum of two signed dyadics as (negative, magnitude, exponent). -/
def dyAdd (n1 : Bool) (m1 : Nat) (e1 : Int) (n2 : Bool) (m2 : Nat) (e2 : Int) : Int × Int :=
  let e := min e1 e2
  let a : Int := (m1 * 2 ^ (e1 - e).toNat : Nat)
  let b : Int := (m2 * 2 ^ (e2 - e).toNat : Nat)
  ((if n1 then -a else a) + (if n2 then -b else b), e)

/-- Sum. -/
def fAdd (f : Fmt) (x y : Nat) : Nat :=
  match fUnpack f x, fUnpack f y with
  | .nan, _ => fNan f 1 x y
  | _, .nan => fNan f 1 x y
  | .inf a, .inf b => if a = b then fInf f a else fNan f 1 x y
  | .inf a, _ => fInf f a
  | _, .inf b => fInf f b
  | .fin n1 m1 e1, .fin n2 m2 e2 =>
    let (v, e) := dyAdd n1 m1 e1 n2 m2 e2
    if v = 0 then (if n1 && n2 then 2 ^ (f.w - 1) else 0)
    else fRound f (decide (v < 0)) v.natAbs e

/-- Sign change. -/
def fNeg (f : Fmt) (x : Nat) : Nat := if x ≥ 2 ^ (f.w - 1) then x - 2 ^ (f.w - 1) else x + 2 ^ (f.w - 1)

/-- Difference. -/
def fSub (f : Fmt) (x y : Nat) : Nat := fAdd f x (fNeg f y)

/-- Product. -/
def fMul (f : Fmt) (x y : Nat) : Nat :=
  match fUnpack f x, fUnpack f y with
  | .nan, _ => fNan f 2 x y
  | _, .nan => fNan f 2 x y
  | .inf a, .inf b => fInf f (a != b)
  | .inf a, .fin b m _ => if m = 0 then fNan f 2 x y else fInf f (a != b)
  | .fin a m _, .inf b => if m = 0 then fNan f 2 x y else fInf f (a != b)
  | .fin n1 m1 e1, .fin n2 m2 e2 => fRound f (n1 != n2) (m1 * m2) (e1 + e2)

/-- Quotient. -/
def fDiv (f : Fmt) (x y : Nat) : Nat :=
  match fUnpack f x, fUnpack f y with
  | .nan, _ => fNan f 3 x y
  | _, .nan => fNan f 3 x y
  | .inf _, .inf _ => fNan f 3 x y
  | .inf a, .fin b _ _ => fInf f (a != b)
  | .fin a _ _, .inf b => fRound f (a != b) 0 0
  | .fin n1 m1 e1, .fin n2 m2 e2 =>
    if m2 = 0 then (if m1 = 0 then fNan f 3 x y else fInf f (n1 != n2))
    else
      let k := f.p + 3 + Nat.log2 m2
      let q := m1 * 2 ^ k / m2
      let r := m1 * 2 ^ k % m2
      fRound f (n1 != n2) (2 * q + b2n (r != 0)) (e1 - e2 - k - 1)

/-- Is the word a NaN. -/
def fIsNan (f : Fmt) (x : Nat) : Bool := fUnpack f x == .nan

/-- Is the word neither an infinity nor a NaN. -/
def fIsFin (f : Fmt) (x : Nat) : Bool := (x / 2 ^ (f.p - 1)) % 2 ^ (f.w - f.p) != f.emaxB

/-- `x < y` (false with a NaN). -/
def fLt (f : Fmt) (x y : Nat) : Bool :=
  match fUnpack f x, fUnpack f y with
  | .nan, _ => false
  | _, .nan => false
  | .inf a, .inf b => a && !b
  | .inf a, _ => a
  | _, .inf b => !b
  | .fin n1 m1 e1, .fin n2 m2 e2 => decide ((dyAdd n1 m1 e1 (!n2) m2 e2).1 < 0)

/-- `x ≤ y` (false with a NaN). -/
def fLe (f : Fmt) (x y : Nat) : Bool :=
  !fIsNan f x && !fIsNan f y && !fLt f y x

/-- Equality of values (the two zeros are equal, a NaN equals nothing). -/
def fEq (f : Fmt) (x y : Nat) : Bool := fLe f x y && fLe f y x

/-- The largest integer at or below a finite value; 0 for the others. -/
def fFloor (f : Fmt) (x : Nat) : Int :=
  match fUnpack f x with
  | .fin n m e =>
    let v : Int := if n then -(m : Int) else m
    if 0 ≤ e then v * 2 ^ e.toNat else v.fdiv (2 ^ (-e).toNat)
  | _ => 0

/-- The integer nearest a finite value, ties to even; 0 for the others. -/
def fNearest (f : Fmt) (x : Nat) : Int :=
  match fUnpack f x with
  | .fin n m e =>
    let r : Nat :=
      if 0 ≤ e then m * 2 ^ e.toNat
      else
        let d := (-e).toNat
        let hi := m / 2 ^ d
        let lo := m % 2 ^ d
        if 2 * lo > 2 ^ d ∨ (2 * lo = 2 ^ d ∧ hi % 2 = 1) then hi + 1 else hi
    if n then -(r : Int) else r
  | _ => 0

/-- The float nearest the signed dyadic `v × 2^e`. -/
def fOfDy (f : Fmt) (v : Int) (e : Int) : Nat := fRound f (decide (v < 0)) v.natAbs e

/-- The float nearest the quotient of integers. -/
def fOfRat (f : Fmt) (v : Int) (den : Nat) : Nat :=
  if den = 0 then fNan f 4 v.toNat den
  else
    let k := f.p + 3 + Nat.log2 den
    let n := v.natAbs * 2 ^ k
    fRound f (decide (v < 0)) (2 * (n / den) + b2n (n % den != 0)) (-(k : Int) - 1)

/-- binary32 operations on register words. [DEDUCED: notes/assumptions/17] -/
def f32Add (x y : U32) : U32 := u32 (fAdd fmt32 x.toNat y.toNat)
def f32Sub (x y : U32) : U32 := u32 (fSub fmt32 x.toNat y.toNat)
def f32Mul (x y : U32) : U32 := u32 (fMul fmt32 x.toNat y.toNat)
def f32Div (x y : U32) : U32 := u32 (fDiv fmt32 x.toNat y.toNat)
def f32Neg (x : U32) : U32 := u32 (fNeg fmt32 x.toNat)
def f32Lt (x y : U32) : Bool := fLt fmt32 x.toNat y.toNat
def f32Le (x y : U32) : Bool := fLe fmt32 x.toNat y.toNat
def f32Fin (x : U32) : Bool := fIsFin fmt32 x.toNat
def f32OfInt (v : Int) : U32 := u32 (fOfDy fmt32 v 0)
def f32OfNat (v : Nat) : U32 := u32 (fOfDy fmt32 v 0)
/-- |x|: the sign bit cleared. -/
def f32Abs (x : U32) : U32 := x &&& 0x7FFFFFFF
/-- The smaller and the larger of two words by value. -/
def f32Min (x y : U32) : U32 := if f32Lt y x then y else x
def f32Max (x y : U32) : U32 := if f32Lt x y then y else x
def f32Zero : U32 := 0x00000000
def f32One : U32 := 0x3F800000

end Sys2Proof.Machine
end

