-- ==== Sys2Proof/Machine/Operands.lean ====
section
/-! DEFINITION. The operand forms of the host commands: the payload layouts of the command catalogue and the checks
that an opcode entry states without reference to the device (step 1 of R121). -/

namespace Sys2Proof.Machine

/-- A payload as its opcode entry lays it out. -/
inductive Payload where
  | none
  | snapCfg (region rateDiv first count : Nat)
  | snareArm (action pre : Nat) (groups : U32) (val mask : U64)
  | setpoint (es : List (Nat × U32))
  | groupMask (mask : Nat)
  | mode (group modulation : Nat) (on off : BitVec 128)
  | cells (cs : List Nat)
  | armMap (arm group nNeed : Nat) (ranges : List (Nat × Nat))
  | coef (loop : Nat) (ws : List (Nat × U32))
  | carrier (arm valid en period dead minPulse : Nat)
  | cal (ch : Nat) (gain offset : U32)
  | ringCtl (ring action : Nat)
  | timeAccept (step : Int) (tol : Nat)
  | timeCfg (thr : Nat)
  | key (slot ceil : Nat) (key : Bytes)
  | slot (slot : Nat)
  | session (id : Nat)
  deriving DecidableEq, Repr

/-- Are all bytes of a range of the payload 0 (the reserved bytes of R120). -/
def zeros (p : Bytes) (o n : Nat) : Bool := (slice p o n).all (fun b => b == 0)

/-- No key appears twice. -/
def noDup : List Nat → Bool
  | [] => true
  | x :: xs => !xs.contains x && noDup xs

/-- Do two cell ranges share a cell. -/
def rangesMeet (a b : Nat × Nat) : Bool := decide (0 < a.2 ∧ 0 < b.2 ∧ a.1 < b.1 + b.2 ∧ b.1 < a.1 + a.2)

/-- Do any two of the ranges share a cell. -/
def rangesOverlap : List (Nat × Nat) → Bool
  | [] => false
  | r :: rs => rs.any (rangesMeet r) || rangesOverlap rs

/-- The range of a loop coefficient (R307). -/
def coefInRange (c : Nat) (v : U32) : Bool :=
  f32Fin v &&
  (if c = 3 then f32Le f32Zero v && f32Lt v f32One
   else if c = 10 ∨ c = 20 ∨ c = 21 then f32Le f32Zero v
   else if c = 19 then f32Lt (f32Abs v) f32One
   else decide (c < 23))

/-- The checked payload of an opcode, from its bytes (offset 0 is envelope byte 32); none is BAD_PAYLOAD. -/
def parsePayload (op : Nat) (p : Bytes) : Option Payload :=
  let len := p.length
  let ok (c : Bool) (x : Payload) : Option Payload := if c then some x else Option.none
  match op with
  | 0x0101 => ok (len == 0) .none
  | 0x0102 => ok (len == 0) .none
  | 0x0103 => -- R124
    let region := rd p 0 1; let rate := rd p 2 2; let first := rd p 4 4; let count := rd p 8 4
    ok (len == 12 && zeros p 1 1 && decide (region ≤ 15) &&
        (if region == 0 then first == 0 && count == 0
         else decide (first ≤ 0x103FFF) && decide (first + count ≤ 0x104000)))
      (.snapCfg region rate first count)
  | 0x0104 => -- R125, R471, R475
    ok (len == 24 && zeros p 2 2 && decide (1 ≤ rd p 0 1 ∧ rd p 0 1 ≤ 3) && decide (rd p 1 1 ≤ 15) &&
        (rd p 0 1 != 1 || u32 (rd p 4 4) &&& 0x7FFF0000 == 0) && (rd p 0 1 != 3 || zeros p 1 23))
      (.snareArm (rd p 0 1) (rd p 1 1) (u32 (rd p 4 4)) (u64 (rd p 8 8)) (u64 (rd p 16 8)))
  | 0x0201 => -- R126
    let n := rd p 0 1
    let es := (List.range n).map (fun k => (rd p (4 + 8 * k) 1, u32 (rd p (8 + 8 * k) 4)))
    ok (decide (1 ≤ n ∧ n ≤ 16) && len == 4 + 8 * n && zeros p 1 3 &&
        (List.range n).all (fun k => zeros p (5 + 8 * k) 3) &&
        es.all (fun e => decide (e.1 < 128) && f32Fin e.2) && noDup (es.map (·.1)))
      (.setpoint es)
  | 0x0202 => ok (len == 4 && decide (1 ≤ rd p 0 1 ∧ rd p 0 1 ≤ 15) && zeros p 1 3) (.groupMask (rd p 0 1))
  | 0x0203 => ok (len == 4 && decide (1 ≤ rd p 0 1 ∧ rd p 0 1 ≤ 15) && zeros p 1 3) (.groupMask (rd p 0 1))
  | 0x0204 => -- R130
    let on := BitVec.ofNat 128 (rd p 4 16); let off := BitVec.ofNat 128 (rd p 20 16)
    let m := rd p 1 1
    ok (len == 36 && decide (rd p 0 1 ≤ 3) && (m == 0 || m == 1 || m == 0xFF) && zeros p 2 2 && (on &&& off) == 0)
      (.mode (rd p 0 1) m on off)
  | 0x0301 => parseCells p
  | 0x0302 => parseCells p
  | 0x0303 => -- R134
    let n := rd p 4 1
    let rs := (List.range n).map (fun k => (rd p (8 + 4 * k) 2, rd p (10 + 4 * k) 2))
    let total := rs.foldl (fun a r => a + r.2) 0
    ok (decide (n ≤ 8) && len == 8 + 4 * n && zeros p 5 3 && decide (rd p 0 1 ≤ 11) &&
        (n == 0 || (decide (rd p 1 1 ≤ 3) && decide (1 ≤ rd p 2 2 ∧ rd p 2 2 ≤ total))) &&
        rs.all (fun r => decide (r.1 < 0x4000)) && !rangesOverlap rs)
      (.armMap (rd p 0 1) (rd p 1 1) (rd p 2 2) rs)
  | 0x0304 => -- R135
    let n := rd p 1 1
    let ws := (List.range n).map (fun k => (rd p (4 + 8 * k) 2, u32 (rd p (8 + 8 * k) 4)))
    ok (decide (1 ≤ n ∧ n ≤ 23) && len == 4 + 8 * n && decide (rd p 0 1 < 128) && zeros p 2 2 &&
        (List.range n).all (fun k => zeros p (6 + 8 * k) 2) &&
        ws.all (fun e => coefInRange e.1 e.2))
      (.coef (rd p 0 1) ws)
  | 0x0305 => -- R136, with the ranges of R281 that do not depend on the frame length
    let v := rd p 1 1
    ok (len == 12 && zeros p 3 1 && decide (rd p 0 1 ≤ 11) && decide (1 ≤ v ∧ v ≤ 15) && decide (rd p 2 1 ≤ 1) &&
        (!v.testBit 0 || (decide (rd p 4 4 % 2 = 0) && decide (rd p 4 4 ≤ 4194302))) &&
        (!v.testBit 1 || decide (rd p 8 2 ≤ 4095)) && (!v.testBit 2 || decide (rd p 10 2 ≤ 8191)))
      (.carrier (rd p 0 1) v (rd p 2 1) (rd p 4 4) (rd p 8 2) (rd p 10 2))
  | 0x0306 => -- R137
    let g := u32 (rd p 4 4); let o := u32 (rd p 8 4)
    ok (len == 12 && zeros p 1 3 && decide (rd p 0 1 < 32) &&
        f32Le 0x3F000000 g && f32Le g 0x40000000 && f32Le 0xC5800000 o && f32Le o 0x45800000)
      (.cal (rd p 0 1) g o)
  | 0x0307 => -- R138
    ok (len == 4 && decide (rd p 0 1 < 64) && decide (1 ≤ rd p 1 1 ∧ rd p 1 1 ≤ 3) && zeros p 2 2)
      (.ringCtl (rd p 0 1) (rd p 1 1))
  | 0x0308 => ok (len == 12) (.timeAccept (sgn 64 (rd p 0 8)) (rd p 8 4))
  | 0x0309 => ok (len == 4 && decide (100 ≤ rd p 0 4 ∧ rd p 0 4 ≤ 1000000000)) (.timeCfg (rd p 0 4))
  | 0x0401 => parseKey p
  | 0x0402 => ok (len == 4 && zeros p 1 3 && decide (rd p 0 1 ≤ 7)) (.slot (rd p 0 1))
  | 0x0403 => parseKey p
  | 0x0405 => ok (len == 0) .none
  | 0x0406 => ok (len == 4) (.session (rd p 0 4))
  | _ => Option.none
where
  /-- R131. -/
  parseCells (p : Bytes) : Option Payload :=
    let n := rd p 0 1
    let cs := (List.range n).map (fun k => rd p (4 + 2 * k) 2)
    if decide (1 ≤ n ∧ n ≤ 32) && p.length == 4 + 2 * n && zeros p 1 3 && cs.all (fun c => decide (c < 0x4000))
    then some (.cells cs) else Option.none
  /-- R141. -/
  parseKey (p : Bytes) : Option Payload :=
    if p.length == 100 && decide (rd p 0 1 ≤ 7) && decide (rd p 1 1 ≤ 3) && zeros p 2 2
    then some (.key (rd p 0 1) (rd p 1 1) (slice p 4 96)) else Option.none

/-- The class an opcode needs (R120): 0 OBSERVE to 3 ADMIN; none for an opcode the table does not list. -/
def opcodeClass (op : Nat) : Option Nat :=
  if op = 0x0101 ∨ op = 0x0102 ∨ op = 0x0103 ∨ op = 0x0104 then some 0
  else if 0x0201 ≤ op ∧ op ≤ 0x0204 then some 1
  else if 0x0301 ≤ op ∧ op ≤ 0x0309 then some 2
  else if 0x0401 ≤ op ∧ op ≤ 0x0406 then some 3
  else none

/-- Effect classes (R112). -/
inductive EffClass where
  | c | p | f | i
  deriving DecidableEq, Repr

/-- The effect class of an opcode (R120). -/
def effClass (op : Nat) : EffClass :=
  match op with
  | 0x0103 => .f | 0x0104 => .f
  | 0x0201 => .p | 0x0202 => .c | 0x0203 => .c | 0x0204 => .p
  | 0x0301 => .c | 0x0302 => .c | 0x0303 => .f | 0x0304 => .p | 0x0305 => .c | 0x0306 => .p
  | 0x0307 => .f | 0x0308 => .f
  | _ => .i

end Sys2Proof.Machine
end

