-- ==== Sys2Proof/Machine/Tbl.lean ====
section
/-! DEFINITION. Finite tables with a default: sparse maps from numbers to data, kept in one canonical form. -/

namespace Sys2Proof.Machine

/-- A table: pairs of key and value, keys strictly rising, and no pair whose value is the default of its key.
Equal tables are equal data. -/
abbrev Tbl (α : Type) := List (Nat × α)

/-- The value of key `k`; `d` where the table lists none. -/
def tget {α : Type} (d : α) : Tbl α → Nat → α
  | [], _ => d
  | (k', v) :: t, k => if k' = k then v else tget d t k

/-- Put `v` at `k`, in order, dropping what stood there. -/
def tins {α : Type} (k : Nat) (v : α) : Tbl α → Tbl α
  | [] => [(k, v)]
  | (k', v') :: t =>
    if k < k' then (k, v) :: (k', v') :: t
    else if k = k' then (k, v) :: t
    else (k', v') :: tins k v t

/-- Remove key `k`, wherever it stands. -/
def tdel {α : Type} (k : Nat) : Tbl α → Tbl α
  | [] => []
  | (k', v') :: t => if k = k' then tdel k t else (k', v') :: tdel k t

/-- Write `v` at `k` in a table whose default at `k` is `d`, keeping the canonical form. -/
def tset {α : Type} [DecidableEq α] (d : α) (t : Tbl α) (k : Nat) (v : α) : Tbl α :=
  if v = d then tdel k t else tins k v t

/-- Apply `f` to the value of `k`. -/
def tmod {α : Type} [DecidableEq α] (d : α) (t : Tbl α) (k : Nat) (f : α → α) : Tbl α :=
  tset d t k (f (tget d t k))

/-- Apply `f` to the values of every listed key in turn. -/
def tmodAll {α : Type} [DecidableEq α] (d : α) (t : Tbl α) (ks : List Nat) (f : Nat → α → α) : Tbl α :=
  ks.foldl (fun t k => tmod d t k (f k)) t

/-- The values of a table of default `d`, each taken through `f`, in canonical form again. -/
def tmap {α : Type} [DecidableEq α] (d : α) (t : Tbl α) (f : Nat → α → α) : Tbl α :=
  (t.map (fun p => (p.1, f p.1 p.2))).filter (fun p => p.2 ≠ d)

/-- The keys of a table rise strictly and start at or above `lo`. -/
def tblRising {α : Type} : Nat → Tbl α → Bool
  | _, [] => true
  | lo, (k, _) :: t => decide (lo ≤ k) && tblRising (k + 1) t

/-- The canonical form of a table with default `d`. -/
def tblWf {α : Type} [DecidableEq α] (d : Nat → α) (t : Tbl α) : Bool :=
  tblRising 0 t && t.all (fun p => decide (p.2 ≠ d p.1))

end Sys2Proof.Machine
end

