-- ==== Sys2Proof/Machine/Records.lean ====
section
/-! DEFINITION. The records of which the machine state is made, block by block; each field's default is its reset value. -/

namespace Sys2Proof.Machine

/-! ### Reports, events, completions and host writes -/

/-- A report on its way to Tocsin (R380): its source and code. -/
structure Report where
  source : U16
  code : U16
  deriving DecidableEq, Repr

/-- An event entry waiting to be written (R67). -/
structure Evt where
  epoch : U64
  tick : U64
  source : U16
  code : U16
  cls : Nat
  merged : Bool := false
  data : Bytes := []
  seqno : U32
  deriving DecidableEq, Repr

/-- A completion that is due (R64). `gen` is the life of the completion ring the envelope was fetched under (R63), `flow` the ordered
flow whose order its write keeps. -/
structure Cpl where
  ring : Nat
  gen : Nat := 0
  seq : U64 := 0
  epoch : U64 := 0
  result : U32 := 0
  opcode : U16 := 0xFFFF
  slot : U16 := 0
  status : U16 := 0
  cls : Nat := 0
  notRepl : Bool := false
  closes : Option U32 := none
  flow : Option Nat := none
  ord : Option Nat := none
  session : U32 := 0
  journal : Bool := false
  deriving DecidableEq, Repr

/-- A posted memory write issued to the host (R44): an address and its bytes. -/
structure HostWrite where
  addr : Nat
  bytes : Bytes
  deriving DecidableEq, Repr

/-! ### SYS -/

/-- Clocks, frame generation, the set-up window and the versions of the images that run (R33, R35, R77, R547). Lengths are those
latched at START; `nextJ` is the number of the next frame boundary. -/
structure Sys where
  refclkOk : Bool := false
  pllLock : Bool := false
  clkRun : Bool := false
  por : Bool := false
  pin : Bool := false
  soft : Bool := false
  running : Bool := false
  cfgErr : Bool := false
  flen : Nat := 1
  period : Nat := 4
  la : Nat := 4
  nextJ : Nat := 0
  setupDone : Bool := false
  setupWhy : U32 := 0
  reopened : Bool := false
  cver : U64 := 0
  sver : U64 := 0
  deriving DecidableEq, Repr

/-! ### HST -/

/-- An authority key slot (R83): the key if one is installed, its ceiling and generation, and the REV_CNT fuses. -/
structure KeySlot where
  key : Option Bytes := none
  ceil : Nat := 0
  gen : Nat := 0
  revCnt : Nat := 0
  deriving DecidableEq, Repr

/-- An envelope in staging (R59 to R62): its ring, the ring index mod N of its first slot, its bytes, and the life of
the paired completion ring. `priv` is PRIV_MAX of the session that passed step
7, `begun` is the outcome of steps 1 to 7 on a firmware envelope (R99): 0 passed, else the
refusal, and `signer` the signing slot as it stood then (R103). -/
structure Staged where
  ring : Nat
  slot : Nat
  bytes : Bytes
  gen : Nat := 0
  begun : Option Nat := none
  priv : Nat := 0
  signer : KeySlot := {}
  deriving DecidableEq, Repr

/-- A command ring: indices, the fetch in flight (its number of slots), ERROR, and the commands outstanding. -/
structure CmdRing where
  pi : U32 := 0
  ci : U32 := 0
  fetch : Option Nat := none
  err : Bool := false
  outstanding : Nat := 0
  deriving DecidableEq, Repr

/-- A completion ring: indices, its life (R63: a new one begins when it is disabled or reset, and when the link goes down, R74), and
the life since which the commands of the ring count as outstanding (R60). -/
structure CplRing where
  pi : U32 := 0
  ci : U32 := 0
  gen : Nat := 0
  base : Nat := 0
  deriving DecidableEq, Repr

/-- The configuration space of the PCI Express function that software can change (R43): the maximum payload and read request in
bytes, D3hot, and the Advanced Error Reporting status words. The table gives configuration accesses no row; R75 resets it.
[PRESUMED: notes/assumptions/56] -/
structure PciCfg where
  maxPayload : Nat := 128
  maxRead : Nat := 512
  d3hot : Bool := false
  aerUncorr : U32 := 0
  aerCorr : U32 := 0
  deriving DecidableEq, Repr

/-- The host port. -/
structure Hst where
  pci : PciCfg := {}
  linkUp : Bool := false
  speed : Nat := 0
  width : Nat := 0
  linkDown : Bool := false
  cmd : Tbl CmdRing := []
  cpl : Tbl CplRing := []
  stage : List Staged := []
  cplDue : List Cpl := []
  evtPi : U32 := 0
  evtCi : U32 := 0
  evtSeq : U32 := 0
  lost : Nat := 0
  evtDue : List Evt := []
  snpPi : U32 := 0
  snpCi : U32 := 0
  idxDirty : Bool := false
  deriving DecidableEq, Repr

/-! ### FLT -/

/-- A fault record (R387). `age` orders records by creation; `live` is CAUSE_LIVE at capture, shown in the first-fault record. -/
structure FltRec where
  source : U16 := 0
  code : U16 := 0
  cls : Nat := 0
  isOpen : Bool := false
  permanent : Bool := false
  mergeCnt : Nat := 0
  sameCycle : Nat := 0
  index : Nat := 0
  cause : U32 := 0
  epoch : U64 := 0
  tick : U64 := 0
  age : Nat := 0
  live : Bool := false
  deriving DecidableEq, Repr

/-- A leaky bucket (R391). -/
structure Bkt where
  level : Nat := 0
  clean : Nat := 0
  retired : Bool := false
  deriving DecidableEq, Repr

/-- The event limiter of one NOTE code (R386): the epoch of its last event and the reports absorbed since. -/
structure NoteLim where
  last : Option Nat := none
  absorbed : Nat := 0
  deriving DecidableEq, Repr

/-- Tocsin. `bkts` is keyed by type × 0x10000 + element; `trips` lists the TRIP reports whose cause drives Clapper input 12;
`pulse` is the tick at which the FAULT_N pulse under way ends; `lost` says that the capture cycle under way has lost a report. -/
structure Flt where
  inbox : List Report := []
  recs : Tbl FltRec := []
  nextAge : Nat := 0
  first : Option FltRec := none
  overflow : Bool := false
  bkts : Tbl Bkt := []
  notes : Tbl NoteLim := []
  trips : List (U16 × U16) := []
  faultn : Bool := false
  pulse : Option Nat := none
  lost : Bool := false
  deriving DecidableEq, Repr

/-! ### The standby domain and the non-volatile cells -/

/-- A boot-flash bank (R538): ENV, GEN and MARK of its header, its image, and its TRIES count in MRAM (R539). -/
structure Bank where
  env : Bytes := []
  gen : Nat := 0
  mark : U32 := 0xFFFFFFFF
  image : Bytes := []
  tries : Nat := 0
  deriving DecidableEq, Repr

/-- A journal record in MRAM (R179): the index of its header word, its LEN and its RSEQ. -/
structure JnlRec where
  at_ : Nat
  len : Nat
  seqno : Nat
  deriving DecidableEq, Repr

/-- The key-protection storage when it is cleared (R104, R106). -/
def keyCleared : Bytes := List.replicate 256 0

/-- The device's private key as MRAM holds it (R85): encrypted under the key-encryption key `kek`. The spec names no cipher: decryption
gives `key` under that very key-encryption key, and nothing under any other. [DESIGN CHOICE: notes/assumptions/58] -/
structure WrappedKey where
  kek : Bytes
  key : Nat
  deriving DecidableEq, Repr

/-- What survives resets and loss of the main supplies: the standby domain (R104), the vault and the journal in MRAM
(R85, R86, R178), the fuses (R83), the boot flash (R537). `keyProt` is the key-protection storage, 256 bytes, all 0 when cleared.
`lost` says that VBAT was lost since the last reset (R107), `lowSecs` is the length in seconds of the RST_N low that set the LONG
latch (R534). -/
structure Std where
  rtcSec : BitVec 48 := 0
  rtcFrac : BitVec 15 := 0
  rtcValid : Bool := false
  latch0 : Bool := false
  latch1 : Bool := false
  tampCfg : U32 := 0
  tampPins : BitVec 2 := 0
  tampCnt : U16 := 0
  arb : U64 := 0
  keyProt : Bytes := keyCleared
  lost : Bool := false
  vault : Nat := 0
  slots : Tbl KeySlot := []
  devPriv : Option WrappedKey := none
  devNeed : Bool := true
  banks : Tbl Bank := []
  jnl : List JnlRec := []
  jnlMem : Tbl U64 := []
  longLatch : Bool := false
  longCnt : Nat := 0
  longLast : Nat := 0
  lowSecs : Nat := 0
  deriving DecidableEq, Repr

/-! ### AUT -/

/-- A session record (R90). `notAfter` is none for an unbounded grant. -/
structure Session where
  used : Bool := false
  id : U32 := 0
  key : Bytes := []
  priv : Nat := 0
  notAfter : Option Nat := none
  ring : Nat := 0
  slot : Nat := 0
  lastSeq : U64 := 0
  expired : Bool := false
  deriving DecidableEq, Repr

/-- A register key install in progress (R89). -/
structure KeyInstall where
  slot : Nat
  ceil : Nat
  key : Bytes
  deriving DecidableEq, Repr

/-- The authenticator. -/
structure Aut where
  sess : Tbl Session := []
  chal : BitVec 128 := 0
  devkeyOk : Bool := false
  install : Option KeyInstall := none
  akeyErr : Nat := 0
  deriving DecidableEq, Repr

/-! ### Commands and the converter's map -/

/-- What identifies a verified command: ring, ring life, slot, sequence, session, flow, requested epoch, and its place
in verification order (R116). -/
structure CmdId where
  ring : Nat := 0
  gen : Nat := 0
  slot : Nat := 0
  seq : U64 := 0
  session : U32 := 0
  flow : Nat := 0
  epochReq : Nat := 0
  ord : Nat := 0
  deriving DecidableEq, Repr

/-- The map of one arm (R134): group, N_NEED and ranges of cells; no ranges: not mapped. -/
structure ArmMap where
  group : Nat := 0
  nNeed : Nat := 0
  ranges : List (Nat × Nat) := []
  deriving DecidableEq, Repr

/-- A turn that a command or a decision gives its target from effect epoch `e`: a group's cells are commanded BLK (`on`) or handed to
Harrow (R118, R127, R129), a cell is retired (`on`) or restored (R132, R133). `j` is the first frame that carries a BLK, `ord` the
place of the command in verification order (R116). -/
structure Turn where
  e : Nat
  j : Nat := 0
  on : Bool := false
  ord : Nat := 0
  deriving DecidableEq, Repr

/-- A converter group: its modulation, and its turns by effect epoch. -/
structure Group where
  carrier : Bool := false
  line : List Turn := []
  deriving DecidableEq, Repr

/-- The look-ahead step of an arm (R215, R216): the first frame at LA 7, and the first frame of the step down. `was` is the first frame
of a step down that a new step up has cut short. -/
structure ArmLa where
  up : Option Nat := none
  down : Option Nat := none
  was : Option Nat := none
  deriving DecidableEq, Repr

/-- A pending effect (R114): a command whose effect waits for its epoch. `entry` is false for BLOCK. `ended` holds the
class and status with which a cancelled or failed effect completes, `at_` the epoch in which it then completes. `prog` counts the writes of COEF_WRITE. `applied`
says that the effect is in force and only its completion is due; `la` is E − j_B of a BLOCK (R127); `repl` that it came in an EFFECT
message (R497), and `bytes` is what an EFFECT message carries of the envelope. `ack` is the SEQ of the EFFECT that the partner has not acknowledged and `sent` the frame in
which it went out (R499). `fixed` says that RESULT came with the item's release. -/
structure Eff where
  id : CmdId
  op : Nat
  epoch : Nat
  payload : Payload
  entry : Bool := true
  moved : Bool := false
  tc : Nat := 0
  la : Nat := 0
  ended : Option (Nat × Nat) := none
  at_ : Option Nat := none
  prog : Nat := 0
  applied : Bool := false
  repl : Bool := false
  bytes : Bytes := []
  ack : Option Nat := none
  sent : Nat := 0
  notRepl : Bool := false
  result : U32 := 0
  fixed : Bool := false
  deriving DecidableEq, Repr

/-- A command of an ordered flow whose completion is still to be written, in order of release (R63). -/
structure FlowEnt where
  ord : Nat
  flow : Nat
  cpl : Option Cpl := none
  deriving DecidableEq, Repr

/-- The command machinery: maps, groups, retirement, pending effects, and the firmware update in progress. -/
structure Cmds where
  arms : Tbl ArmMap := []
  groups : Tbl Group := []
  cells : Tbl (List Turn) := []
  la : Tbl ArmLa := []
  pend : List Eff := []
  ord : Nat := 0
  fw : Option (CmdId × Bytes) := none
  flowQ : List FlowEnt := []
  deriving DecidableEq, Repr

/-! ### Interrupt controller and cores -/

/-- An interrupt source (R413, R419, R420): events counted, saturation, active, and the end tick of a moderation hold.
Shared source `i` has key `i`, private source `j` of core `c` has key 2048 + 64 × c + j. -/
structure IntSrc where
  cnt : Nat := 0
  sat : Bool := false
  active : Bool := false
  hold : Option Nat := none
  deriving DecidableEq, Repr

/-- A core (R403, R410, R412, R524): idle state, debug halt, the INT stack of (ID, PRIO) with the top first, the latched
presented source, the CSRs that INT uses, the architectural registers the debug port reads (`priv` 3 is M mode, 0 U mode), the tick at
which a gxdcop operation ends, the journal port's buffer and status, and its ticks up to `mark` spent running and idle, in M and in U mode
(R512).
[DESIGN CHOICE: notes/assumptions/2] -/
structure Core where
  idle : Bool := false
  deep : Bool := false
  halted : Bool := false
  released : Bool := false
  tskWake : Bool := false
  stack : List (Nat × Nat) := []
  latched : Option Nat := none
  thresh : Nat := 0
  deepCfg : Bool := false
  timecmp : U64 := 0xFFFFFFFFFFFFFFFF
  pc : U64 := 0x10000
  priv : Nat := 3
  dcopEnd : Nat := 0
  gpr : Tbl U64 := []
  fpr : Tbl U64 := []
  csr : Tbl U64 := []
  jbuf : Tbl U64 := []
  jerr : Bool := false
  jdrop : Bool := false
  mark : Nat := 0
  runM : Nat := 0
  runU : Nat := 0
  idlM : Nat := 0
  idlU : Nat := 0
  deriving DecidableEq, Repr

/-! ### TSK -/

/-- A thread control block (R426): STATE 0 FREE, 1 BLOCKED, 2 READY, 3 RUNNING. `dead` follows an uncorrectable error. -/
structure Tcb where
  st : Nat := 0
  prio : Nat := 0
  aff : BitVec 16 := 0
  last : Nat := 0
  wakePend : Bool := false
  token : U64 := 0
  dead : Bool := false
  deriving DecidableEq, Repr

/-- A core's TSK port (R429). -/
structure TskPort where
  argLo : U32 := 0
  argHi : U32 := 0
  resLo : U32 := 0
  resHi : U32 := 0
  whyPre : Bool := false
  whyCmd : Bool := false
  cur : Option Nat := none
  deriving DecidableEq, Repr

/-- A command item (R432 to R437): its verified command, bytes, flow and arrival number, the core that took it and when,
its disposition (DISP, STATUS, RESULT) once done, and whether REL_TIMEOUT was raised. -/
structure Item where
  used : Bool := false
  id : CmdId := {}
  op : Nat := 0
  bytes : Bytes := []
  arr : Nat := 0
  owner : Option Nat := none
  takenAt : Nat := 0
  done : Option (Nat × Nat × U32) := none
  timedOut : Bool := false
  deriving DecidableEq, Repr

/-- An ordered flow (R431, R436): next arrival number, oldest unreleased one, newest taken one plus one, window closed. -/
structure Flow where
  next : Nat := 0
  oldest : Nat := 0
  taken : Nat := 0
  closed : Bool := false
  deriving DecidableEq, Repr

/-- The task scheduler; `ready` lists the READY threads in the order they joined their lists. -/
structure Tsk where
  tcbs : Tbl Tcb := []
  ready : List Nat := []
  ports : Tbl TskPort := []
  items : Tbl Item := []
  flows : Tbl Flow := []
  deriving DecidableEq, Repr

/-! ### LPE -/

/-- What the loops read at F_m (R24, R303, R305): AFE points with their validity and the last boundary at which a
conversion had entered. -/
structure AfeIn where
  mean : U32 := 0
  lo : U32 := 0
  hi : U32 := 0
  valid : Bool := false
  last : Option Nat := none
  deriving DecidableEq, Repr

/-- An arm's aggregates in the committed image; `stale` is set where VMEAN, VMIN and VMAX read STALE. -/
structure AggIn where
  vsum : U32 := 0
  vmean : U32 := 0
  vmin : U32 := 0
  vmax : U32 := 0
  nLive : Nat := 0
  stale : Bool := true
  deriving DecidableEq, Repr

/-- An arm's Harrow values (R269). -/
structure HrwIn where
  level : U32 := 0
  u : Nat := 0
  sat : Bool := false
  adelay : Nat := 0
  deriving DecidableEq, Repr

/-- A firmware point in force and the first committed epoch that holds its latest commit write (R305). -/
structure FwIn where
  val : U32 := 0x80000000
  valid : Bool := false
  since : Nat := 0
  deriving DecidableEq, Repr

/-- The inputs of one sample; `imgEpoch` is the committed epoch offered, `blk` has bit a set where arm a's group is
blocked, `g` is the test generator output. -/
structure LoopInputs where
  m : Nat := 0
  p : Nat := 4
  afe : Tbl AfeIn := []
  agg : Tbl AggIn := []
  hrw : Tbl HrwIn := []
  fw : Tbl FwIn := []
  imgEpoch : Nat := 0
  blk : Nat := 0
  g : U32 := 0
  deriving DecidableEq, Repr

/-- A loop slot: its enable and drain, the variables kept between samples (R308, R309), the freeze detector (R317), the
last valid inputs, and the points of its last sample (R154). -/
structure Loop where
  enabled : Bool := false
  starting : Bool := false
  drain : Bool := false
  out : U32 := 0
  spAct : U32 := 0
  integ : U32 := 0
  d : U32 := 0
  xPrev : U32 := 0
  s1 : U32 := 0
  s2 : U32 := 0
  frzRef : U32 := 0
  frzCnt : Nat := 0
  lost : Bool := false
  frozen : Bool := false
  fallback : Nat := 0
  lastFb : U32 := 0
  lastFf : U32 := 0
  lastSp : U32 := 0
  fb : U32 := 0
  tgt : U32 := 0
  err : U32 := 0
  satHi : Bool := false
  satLo : Bool := false
  ramping : Bool := false
  late : Bool := false
  gen : BitVec 16 := 0
  left : Nat := 0
  genPt : U32 := 0
  inAge : Nat := 0
  sample : Nat := 0
  deriving DecidableEq, Repr

/-- The response capture (R327): armed or recording, and the records. -/
structure LoopCap where
  armed : Bool := false
  recording : Bool := false
  epoch : U64 := 0
  recs : List (U32 × U32 × U32 × U32) := []
  deriving DecidableEq, Repr

/-- The loop engines: loops, the sample in progress, which engines compute, which were late, the arms already counted
for the period, the published reference set with its sample, and the capture. -/
structure Lpe where
  loops : Tbl Loop := []
  sample : Option Nat := none
  busy : Bool := false
  lateEng : BitVec 8 := 0
  lateArms : BitVec 12 := 0
  engStat : Tbl U32 := []
  refs : Tbl U32 := []
  refsM : Option Nat := none
  cap : LoopCap := {}
  deriving DecidableEq, Repr

/-! ### AFE -/

/-- A sequencer (R337 to R341): the mode in effect, whether it has started and a pass runs, the entry, the conversions made
in it, the slot of the next conversion, a pending realignment, the last tainted slot, a MODE write waiting for the end
of the entry, and whether its table or its mode has been written since reset, from when T_TAB is shown. -/
structure Seq where
  mode : Nat := 0
  run : Bool := false
  entry : Nat := 0
  rep : Nat := 0
  slot : Nat := 0
  pend : Option Nat := none
  taint : Option Nat := none
  newMode : Option Nat := none
  tabOn : Bool := false
  deriving DecidableEq, Repr

/-- A channel (R343 to R347): the filter's inputs since it started and their last values, newest first; the accumulator,
tracker and flags of the period; the latched points. Sums and extremes are exact, in codes over `den`. -/
structure Chan where
  n : Nat := 0
  hist : List Int := []
  sum : Int := 0
  k : Nat := 0
  last : Option Int := none
  lo : Option Int := none
  hi : Option Int := none
  ovr : Bool := false
  taint : Bool := false
  excl : Nat := 0
  lat : AfeIn := {}
  latFlags : U32 := 0
  dec : U32 := 0
  deriving DecidableEq, Repr

/-- A fast comparator (R342): beyond its threshold, and not yet re-armed. -/
structure Cmp where
  out : Bool := false
  spent : Bool := false
  deriving DecidableEq, Repr

/-- The analog front end. -/
structure Afe where
  seqs : Tbl Seq := []
  chans : Tbl Chan := []
  cmps : Tbl Cmp := []
  deriving DecidableEq, Repr

/-! ### TIM -/

/-- A receive slot (R446): full, or handed over, its arrival number, and its bytes with the header. -/
structure RxSlot where
  full : Bool := false
  handed : Bool := false
  arr : Nat := 0
  bytes : Bytes := []
  deriving DecidableEq, Repr

/-- A transmit timestamp (R450), in units of 1/(5 × 2^16) ns. -/
structure TxTs where
  id : Nat
  time : Int
  lost : Bool
  deriving DecidableEq, Repr

/-- An Ethernet port: link, retirement, a transmission in progress and its TX_CTL word, the frame last sent, the receive slots,
the transmit buffer by word, the timestamp queue, and an error in the current frame. -/
structure EthPort where
  link : Bool := false
  retired : Bool := false
  busy : Bool := false
  txCtl : U32 := 0
  sent : Bytes := []
  slots : Tbl RxSlot := []
  arr : Nat := 0
  txbuf : Tbl U32 := []
  tsq : List TxTs := []
  lostNext : Bool := false
  error : Bool := false
  deriving DecidableEq, Repr

/-- The time base. Times are in units of 1/(5 × 2^16) ns, of which a tick is 2^20 (R443); `y` is in ppb. `bootStep` is the first
measurement's step waiting for the next frame boundary; `seen` says that a first measurement came; `accepted` that measurements
are ignored until the accepted step is applied, `guard` until which tick they are ignored after it. -/
structure Tim where
  base : Int := 0
  based : Bool := false
  seen : Bool := false
  timeSet : Bool := false
  sync : Bool := false
  good : Nat := 0
  holdover : Bool := false
  freqLim : Bool := false
  stepPend : Option Int := none
  bootStep : Option Int := none
  accepted : Bool := false
  guard : Option Nat := none
  y : Int := 0
  lastMeas : Nat := 0
  lastOfs : Int := 0
  ports : Tbl EthPort := []
  deriving DecidableEq, Repr
/-! ### FUR -/

/-- A returned part in the receive buffer (R217): its frame, the RX lane it came in on, whether it passed FCRC, and its
reports by position. -/
structure Part where
  frame : Nat
  lane : Lane
  good : Bool
  reports : List U64
  deriving DecidableEq, Repr

/-- A ring port (R206 to R221). `next` is the state to enter at the next frame boundary, `first` the first epoch the ring
carries, `tries` the repeats of the frame under way, `left` the MEASURE frames before the measuring one, `drainE` the E of a
drain in progress and `retrain` whether it trains after it. `loopA`, `loopB` are the loop positions. Delays are in 1/16 ns.
`t0` is the tick at which training started, `asked` says that a training frame is out. `gxA`, `gxB` say that the loop towards position 0,
and towards position N − 1, is at the device's own port (R210, R212); `wrapped` that the ring has been declared wrapped since it trained;
`loopTick` is the earliest loop tick and `ticks` lists when each earlier one came to be held, with its value (R214). `silA`, `silB` are
silenced TX lanes, `offA`, `offB` lanes retired by their bucket. `lossCnt` counts the epochs of R218. -/
structure Ring where
  st : Nat := 0
  aLock : Bool := false
  bLock : Bool := false
  n : Nat := 0
  err : Nat := 0
  next : Option Nat := none
  first : Nat := 0
  tries : Nat := 0
  left : Nat := 0
  asked : Bool := false
  t0 : Nat := 0
  drainE : Option Nat := none
  retrain : Bool := false
  loopA : Option Nat := none
  loopB : Option Nat := none
  gxA : Bool := false
  gxB : Bool := false
  wrapped : Bool := false
  island : Bool := false
  loopTick : Option Nat := none
  ticks : List (Nat × Nat) := []
  trans : Nat := 0
  asym : Int := 0
  ret : Nat := 0
  stomp : U32 := 0
  lossCnt : Nat := 0
  frameLoss : Bool := false
  warn : Bool := false
  span0 : Nat := 0
  spanN : Nat := 0
  ids : List U64 := []
  dly : List U64 := []
  silA : Bool := false
  silB : Bool := false
  offA : Bool := false
  offB : Bool := false
  rx : List Part := []
  hopA : Option Block := none
  hopB : Option Block := none
  deriving DecidableEq, Repr

/-- The slots that a frame carried on a ring, by position (R193). -/
structure SentFrame where
  frame : Nat
  ring : Nat
  slots : List U32
  deriving DecidableEq, Repr

/-- The last frame launched on a ring: the copies on TX A and TX B (R188). -/
structure TxFrame where
  a : List Block := []
  b : List Block := []
  deriving DecidableEq, Repr

/-- Furrow. `burst` is the tick at which the running block-symbol burst ends, until the first frame boundary after it. -/
structure Fur where
  rings : Tbl Ring := []
  sent : List SentFrame := []
  tx : Tbl TxFrame := []
  bgen : U8 := 0
  burst : Option Nat := none
  deriving DecidableEq, Repr

/-! ### GRN -/

/-- A cell in an image (R149 to R151). VCAP, STATUS and ROT_IDX are those of the report; `lastLive` is the epoch of the last
LIVE report, `streak` the LIVE epochs in a row up to 16, `liveCnt` the LIVE epochs, `cmdSt` the last state commanded (R193), `rots` the rotating values with their epochs. -/
structure CellImg where
  report : Nat := 2
  retired : Bool := false
  arm : Option Nat := none
  group : Nat := 0
  wrapped : Bool := false
  crcBad : Bool := false
  late : Bool := false
  lastLive : Option Nat := none
  vcap : Nat := 0
  stat : Nat := 0
  rotIdx : Nat := 0
  cmd : U32 := 0
  liveCnt : Nat := 0
  swCnt : Nat := 0
  rotDrop : Nat := 0
  cmdSt : Nat := 4
  streak : Nat := 0
  rots : Tbl (Nat × Nat) := []
  deriving DecidableEq, Repr

/-- An image (R147): the epoch header, the cells, the arm, loop, AFE, ring, permit and firmware points. `epochs` counts the
epochs closed since reset, `extra` lists AFE points. -/
structure Image where
  k : Nat := 0
  tick : U64 := 0
  sec : Nat := 0
  ns : Nat := 0
  tstat : U32 := 0
  closeAt : Nat := 0
  flags : U32 := 0
  live : Nat := 0
  stale : Nat := 0
  retired : Nat := 0
  lateRings : U64 := 0
  crcRings : U64 := 0
  wrapRings : U64 := 0
  role : U32 := 0
  missed : Nat := 0
  epochs : Nat := 0
  cells : Tbl CellImg := []
  arms : Tbl (List U32) := []
  loops : Tbl Loop := []
  afe : Tbl (U32 × U32 × U32 × U32) := []
  rings : Tbl U32 := []
  permits : Tbl U32 := []
  fw : Tbl U32 := []
  fwSince : Nat := 0
  deriving DecidableEq, Repr

/-- The publication of one region (R124). -/
structure SnapCfg where
  rate : Nat := 0
  first : Nat := 0
  count : Nat := 0
  deriving DecidableEq, Repr

/-- A publication in progress (R167): region, epoch, the image it copies, the buffer, the descriptor,
and the STATUS that it ends with (0 PUBLISHED). -/
structure Pubn where
  region : Nat
  epoch : Nat
  first : Nat
  count : Nat
  addr : Nat
  len : Nat
  desc : Nat
  status : Nat := 0
  img : Image
  deriving DecidableEq, Repr

/-- A record waiting in the journal queue (R181). -/
structure JnlReq where
  ty : Nat
  words : List U64
  deriving DecidableEq, Repr

/-- What holds at a frame boundary for the epoch header (R152). -/
structure Hdr where
  k : Nat
  tick : U64
  sec : Nat
  ns : Nat
  tstat : U32
  maps : Tbl ArmMap := []
  arms : Tbl U32 := []
  deriving DecidableEq, Repr

/-- The points of an earlier loop sample and the AFE points latched with it (R155, R156). -/
structure SampleHist where
  m : Nat
  loops : Tbl Loop
  afe : Tbl (U32 × U32 × U32 × U32)
  deriving DecidableEq, Repr

/-- The shadow's replica (R176): station points, cell records with the epoch each came in, and the control period of the
last station set. -/
structure Replica where
  station : Tbl U32 := []
  fw : Tbl U32 := []
  epoch : Nat := 0
  cells : Tbl (Nat × Nat) := []
  stn : Option Nat := none
  lagging : Bool := false
  deriving DecidableEq, Repr

/-- Granary. `next` is the epoch to close next, `build` the closed image not yet committed, `miss` that its build met an
uncorrectable error, `pubs` the publications in order, `fwStage` and `fwCur` the firmware points of the staging copy and as of
the last commit write, `fwNew` that no epoch has closed since it. -/
structure Grn where
  valid : Bool := false
  next : Option Nat := none
  commit : Image := {}
  build : Option Image := none
  missPrev : Bool := false
  missCnt : Nat := 0
  missLast : U64 := 0
  snaps : Tbl SnapCfg := []
  pubs : List Pubn := []
  hdrs : List Hdr := []
  hist : List SampleHist := []
  fwStage : Tbl U32 := []
  fwCur : Tbl U32 := []
  jnlReady : Bool := false
  jnlQ : List JnlReq := []
  jnlHead : Nat := 0
  jnlSeq : Nat := 0
  tripDue : Bool := false
  resetDue : Bool := true
  sweep : Nat := 0
  repl : Replica := {}
  fwNew : Bool := false
  deriving DecidableEq, Repr

/-! ### HRW -/

/-- An edge of a cell's carrier still to be commanded: its instant in firing units, the state it ends in, and whether the short-interval
rule has moved it (R287). -/
structure CarEdge where
  t : Nat
  st : Nat
  moved : Bool := false
  deriving DecidableEq, Repr

/-- Harrow's record of a cell (R246): END, LAST in absolute firing units, HELD with its epoch, the STATUS of the last LIVE
report, admission, WAIT, the flags of the last build; and its carrier (R276, R278): whether it has started, its current period's
zero, length, compare, insert state and duty, the edges to come, and whether the next edge is to be dropped. -/
structure HCell where
  endSt : Nat := 3
  last : Option Nat := none
  held : Nat := 0
  heldAt : Option Nat := none
  stat : Nat := 0
  admitted : Bool := false
  wait : Nat := 0
  usable : Bool := false
  pinned : Bool := false
  frac : Bool := false
  started : Bool := false
  zero : Nat := 0
  len : Nat := 0
  cmp : Nat := 0
  ins : Nat := 1
  edges : List CarEdge := []
  duty : U32 := 0
  skip : Bool := false
  deriving DecidableEq, Repr

/-- The arm points of a commanded epoch (R268). -/
structure ArmPt where
  e : Nat
  ref : U32
  nIns : Nat
  rem : U32
  isign : Nat
  sw : Nat := 0
  ext : Nat := 0
  sup : Nat := 0
  deriving DecidableEq, Repr

/-- A carrier grid (R274): whether it has started, the next zero in absolute firing units, and the values in force. -/
structure Grid where
  on : Bool := false
  zero : Nat := 0
  period : Nat := 200000
  dead : Nat := 250
  minPulse : Nat := 1250
  enabled : Bool := false
  deriving DecidableEq, Repr

/-- A grid zero that a build has reached and time has not: K, the compare of rank 0 and its cell (R275, R293). -/
structure CarZero where
  z : Nat
  k : Nat := 0
  cmp0 : Nat := 0
  head : Option Nat := none
  deriving DecidableEq, Repr

/-- DEAD_TIME and MIN_PULSE in force from a grid zero on (R283). -/
structure CarTime where
  at_ : Nat
  dead : Nat
  minPulse : Nat
  deriving DecidableEq, Repr

/-- The carrier of an arm (R274 to R294). `bld` is the grid as the builds have reached it, `rt` as time has: a build works on an
effect epoch ahead. `ranks` are the ranked cells of the builds, `zeros` the zeros built and not yet come, `times` the times that the builds
have loaded, `edges` the commanded edges of the rank-0 cell that have not come. `running` says that the last build ran the carriers of
cells, `fin` is the end of the last carrier period that a drain completes, `bridges` the bridges built and not yet over, from and to. -/
structure Carrier where
  bld : Grid := {}
  rt : Grid := {}
  ranks : List Nat := []
  zeros : List CarZero := []
  times : List CarTime := []
  edges : List Nat := []
  running : Bool := false
  fin : Nat := 0
  drain : Option Nat := none
  bridges : List (Nat × Nat) := []
  k : Nat := 0
  cmp0 : Nat := 0
  loadEpoch : Nat := 0
  preZ : Nat := 0
  preP : Nat := 0
  preC : Nat := 0
  apex : Option Nat := none
  deriving DecidableEq, Repr

/-- What the lane offers the loops of the latest commanded epoch (R269): N_INS, REMAINDER, U and SAT. -/
structure ArmOffer where
  nIns : Nat := 0
  rem : U32 := 0
  u : Nat := 0
  sat : Bool := false
  deriving DecidableEq, Repr

/-- An arm lane: the reference sets A and B with the sample of B and the frame from which it is taken (R248), what the last
build found, the slots built for a frame, and the frame whose selection is under way (R261). `handed` says that the lane has built since
the arm was last blocked, `refOut` is ref_j of the last build, `polOld` the polarity before it, `offer` what the loops are offered. -/
structure HArm where
  refA : U32 := 0
  refB : U32 := 0
  setN : Option Nat := none
  setFrom : Option Nat := none
  bad : Bool := false
  refJ : U32 := 0
  refOut : U32 := 0
  isign : Nat := 0
  s : Bool := true
  pol : Option Nat := none
  polOld : Option Nat := none
  offer : ArmOffer := {}
  u : Nat := 0
  nIns : Nat := 0
  rem : U32 := 0
  fracOn : Bool := false
  sat : Bool := false
  short : Bool := false
  waiting : Nat := 0
  active : Bool := false
  handed : Bool := false
  cyc : Nat := 0
  slots : Tbl U32 := []
  frame : Nat := 0
  busy : Bool := false
  overrun : Bool := false
  pts : List ArmPt := []
  car : Carrier := {}
  deriving DecidableEq, Repr

/-- Harrow. -/
structure Hrw where
  cells : Tbl HCell := []
  arms : Tbl HArm := []
  frozen : Bool := false
  gridDue : Bool := false
  deriving DecidableEq, Repr

/-! ### PRT -/

/-- A permit channel (R367 to R373): state, filtered PRB, causes, the ticks at which the state began and at which the last cause of
the trip cleared, the switch that the next off-pulse tests, and whether the pulse awaits the return of PRB. -/
structure Chn where
  st : Nat := 0
  prb : Bool := false
  cause : U32 := 0
  since : Nat := 0
  clear : Option Nat := none
  nextL : Bool := false
  ret : Bool := false
  deriving DecidableEq, Repr

/-- A limit entry of the Celrov image (R363): epochs exceeded in a row, tripped, and epochs below the limit in a row. -/
structure Lim where
  n : Nat := 0
  tripped : Bool := false
  below : Nat := 0
  deriving DecidableEq, Repr

/-- Protection: Clapper's latched causes and the assertions not yet latched, whether the safety image runs, the safety processor's command and heartbeat, the limit entries and the permit
channels. Times are ticks; Clapper's own clock is the monitor oscillator (R357). -/
structure Prt where
  latched : U16 := 0
  asserted : U16 := 0
  sp : Bool := false
  crcRef : U32 := 0
  crcOn : Bool := false
  first : U32 := 0
  demand : U8 := 0
  grant : U8 := 0
  blksym : Bool := false
  hb : U32 := 0
  hbOn : Bool := false
  hbOk : Bool := false
  hbGood : Nat := 0
  hbAt : Nat := 0
  lockErr : Bool := false
  limit : Option Nat := none
  lims : Tbl Lim := []
  noCommit : Nat := 0
  wdTrip : Bool := false
  cmpTrip : U8 := 0
  chans : Tbl Chn := []
  deriving DecidableEq, Repr
/-! ### SNR -/

/-- A Snare record before it is packed (R464): the tick of its event, its signal ID and its value. -/
structure SnrRec where
  tick : Nat
  id : Nat
  value : Nat
  deriving DecidableEq, Repr

/-- Snare (R463 to R479). `sig` holds the current value of every signal that differs from 0. `queue` waits to be stored,
`lostN` counts the records lost since the last DROP marker. The armed pattern and the last accepted ARM are kept.
`dumpDue` says that a dump has not yet invalidated its COMMIT word, `waited` that it has counted its wait (R477).
`toutLine` is the TRIG line that the latest trigger drives and `toutEnd` the tick at which it is released (R560); 0 before any. -/
structure Snr where
  st : Nat := 0
  known : Bool := false
  groups : U32 := 0
  pre : Nat := 0
  tval : U64 := 0
  tmask : U64 := 0
  armTick : Nat := 0
  sig : Tbl Nat := []
  matched : Bool := false
  lineChg : BitVec 4 := 0
  queue : List SnrRec := []
  recs : List SnrRec := []
  lastTick : Nat := 0
  lostN : Nat := 0
  drops : Nat := 0
  triggered : Bool := false
  trigTick : Nat := 0
  trigVec : U64 := 0
  early : Bool := false
  stopped : Bool := false
  postTime : Bool := false
  bus : Bool := false
  post : Nat := 0
  preN : Nat := 0
  acq : Nat := 0
  missed : U32 := 0
  noAuto : Bool := false
  rearmAt : Nat := 0
  dumpDue : Bool := false
  waited : Bool := false
  tout : Option Nat := none
  toutLine : Nat := 0
  toutEnd : Nat := 0
  lines : BitVec 4 := 0
  deriving DecidableEq, Repr

/-! ### STK -/

/-- A stack port (R484 to R490): state, clock, live and retired receive lanes, lanes in error in the current frame, what the
partner announces, FSTART supervision, delay, skew, the last SEQ of each KIND, whether the port went DOWN or met a configuration mismatch and has not been UP since, the latest DECISION, and
the reply sent. -/
structure StkPort where
  st : Nat := 0
  clk : Bool := false
  live : U16 := 0
  retired : U16 := 0
  errLanes : U16 := 0
  peerId : Nat := 0
  peerRole : Nat := 0
  peerReady : Nat := 0
  peerCommit : Nat := 0
  watched : Bool := false
  tickIn : Option (Nat × Nat) := none
  dly : Nat := 0
  skew : Nat := 0
  seqs : Tbl (Option Nat) := []
  fell : Bool := false
  mismatch : Bool := false
  trip : U8 := 0
  permOn : U8 := 0
  reply : Option Block := none
  txLive : U16 := 0xFFFF
  deriving DecidableEq, Repr

/-- A message that this device has sent: KIND, SEQ, EPOCH and payload words (R489). -/
structure StkMsg where
  kind : Nat
  sq : Nat
  epoch : Nat
  words : List U64
  deriving DecidableEq, Repr

/-- A completion that waits for the ACK of an EFFECT (R499). -/
structure AckWait where
  seqno : Nat
  cpl : Cpl
  frame : Nat
  deriving DecidableEq, Repr

/-- A HARROW message that waits for the FSTART of its frame: a full set or the records that changed (R489, R500, R506). -/
structure MirrorMsg where
  full : Bool
  recs : List HarrowRec
  deriving DecidableEq, Repr

/-- A ring in the RING mirror: STATE, N and the FUR_RINGr_WRAP word. -/
structure RingMirror where
  st : Nat := 0
  n : Nat := 0
  wrap : U32 := 0
  deriving DecidableEq, Repr

/-- The stack. `crcOn` says that PAIR_CRC has been formed since reset: at the end of set-up or for a HELLO. `decNew` is set by a NEW decision received since the last DEBLOCK effect, with its BGEN. `takeS` is the frame s of
a takeover under way, `unloopEnd` the tick at which its UNLOOP burst ends (R502). -/
structure Stk where
  id : Nat := 0
  role : Nat := 0
  idConflict : Bool := false
  ready : Nat := 0
  partnerReady : Nat := 0
  partnerLost : Bool := false
  crcOn : Bool := false
  partnerCrc : U32 := 0
  ports : Tbl StkPort := []
  follow : U8 := 0
  tickSet : Bool := false
  upAt : Option Nat := none
  takeS : Option Nat := none
  unloopEnd : Nat := 0
  taken : Bool := false
  first : Bool := false
  takeEpoch : Nat := 0
  mirrorGap : Bool := false
  mirrorQ : List MirrorMsg := []
  mirror : Tbl HCell := []
  rings : Tbl RingMirror := []
  effSeq : Nat := 0
  outSeq : Tbl Nat := []
  waits : List AckWait := []
  out : List StkMsg := []
  decNew : Option U8 := none
  decOut : Block := {}
  decTo : Option Nat := none
  fstart : Block := {}
  dlyReq : Block := {}
  dlySeq : Nat := 0
  aligns : List Block := []
  timeSplit : Bool := false
  deriving DecidableEq, Repr

/-! ### TLY and DBG -/

/-- CORE cycles that a core has spent neither idle nor halted, and idle, in M and in U mode (R512). -/
structure CoreCyc where
  runM : Nat := 0
  runU : Nat := 0
  idlM : Nat := 0
  idlU : Nat := 0
  deriving DecidableEq, Repr

/-- The counters and sampling of a core (R511 to R517); `at_` is the place in the buffer that the next record overwrites once it is
full. -/
structure TlyCore where
  cnt : Tbl (BitVec 48) := []
  base : Tbl CoreCyc := []
  evt : Tbl U64 := []
  ovf : U8 := 0
  en : Bool := false
  wrap : Bool := false
  host : Bool := false
  rld : BitVec 48 := 0
  buf : List (U64 × U64 × U64 × U64) := []
  at_ : Nat := 0
  full : Bool := false
  seqno : U16 := 0
  deriving DecidableEq, Repr

/-- Tally: the cores, the device counters, and the host buffer's write index. -/
structure Tly where
  cores : Tbl TlyCore := []
  dev : Tbl (BitVec 48) := []
  wi : Nat := 0
  deriving DecidableEq, Repr

/-- The debug port (R520 to R525). `ack` is the ACK of the last transaction: 0 none, 1 OK, 2 WAIT, 4 FAULT. Breakpoints and
watchpoints are keyed by core. -/
structure Dbg where
  en : Bool := false
  level : Nat := 0
  busy : Bool := false
  perr : Bool := false
  lockout : Bool := false
  fails : Nat := 0
  chal : BitVec 128 := 0
  ublk : Tbl U32 := []
  usig : Tbl U32 := []
  ctl : U32 := 0
  regSel : U32 := 0
  regLo : U32 := 0
  regHi : U32 := 0
  memAddr : U32 := 0
  bp : Tbl U32 := []
  bpctl : Tbl U32 := []
  wpAddr : Tbl U32 := []
  wpCfg : Tbl U32 := []
  notAfter : Option Nat := none
  ack : Nat := 0
  deriving DecidableEq, Repr

/-! ### Cell endpoints -/

/-- A held command (R236): its effect epoch and its slot. -/
structure HeldCmd where
  epoch : Nat
  slot : U32
  deriving DecidableEq, Repr

/-- A leg of an endpoint (R230, R231): the switch that is on, 0 none, 1 lower, 2 upper, and the one that turns on when its dead time
has passed. A half-bridge has one leg, with SU above and SL below. -/
structure Leg where
  on : Nat := 0
  next : Option (Int × Nat) := none
  deriving DecidableEq, Repr

/-- A frame of which copies have arrived at an endpoint: its number, F_j as derived, the copies, and whether one was accepted
(R189, R225). -/
structure EpSeen where
  j : Nat
  f : Int
  n : Nat
  ok : Bool
  deriving DecidableEq, Repr

/-- A report written into frame `j` (R237): F_k of its epoch, its 48 bits, and the anomalies up to then. -/
structure EpRpt where
  j : Nat
  f : Int
  val : U64
  anoms : Nat
  deriving DecidableEq, Repr

/-- What an endpoint can report (R238, R239): `pat` is the pattern in force, coded as ACT, and `anoms` counts what sets STATUS.ANOM. A
bank is (DEAD_TIME, MIN_DWELL code), none where it is not programmed. -/
structure EpView where
  pat : Nat := 3
  latched : Bool := false
  selfBlk : Bool := true
  fault : Bool := false
  anoms : Nat := 0
  cause : U16 := 0
  cmdMiss : Nat := 0
  lateDisc : Nat := 0
  dwellAdj : Nat := 0
  badSlot : Nat := 0
  crcA : Nat := 0
  crcB : Nat := 0
  looped : Bool := false
  side : Bool := false
  lockA : Bool := true
  lockB : Bool := true
  pos : Option Nat := none
  sbCnt : Nat := 0
  sw : Nat := 0
  bank : Nat := 0
  latchBgen : U8 := 0
  leave : Bool := false
  banks : Tbl (Option (Nat × Nat)) := []
  fwVer : U16 := 0
  ovLimit : U16 := 0
  deriving DecidableEq, Repr

/-- A cell endpoint (07_cell_endpoint.md). Times are in units of 1/80 ns (a tick is 256, a firing unit 32, 1/16 ns is 5). `lastJ` is the
last frame accepted and `fj` its boundary; `acc` the frames accepted lately, `seen` those of which copies arrived. `moved` is a
transition that R232 put off, `retiredFrom` when the retired bypass began. `log` holds what could be reported since each recent change,
newest first, and `rpts` the reports written lately. `discA` is the frame of the last unlooped A copy of DISCOVER. `spanA`, `spanB` are the
delays of the input spans and `respA`, `respB` the PD_RESP that wait for an IDLE (R200). `outA`, `outB` are what was last sent on the
two outputs. [DESIGN CHOICE: notes/assumptions/62] -/
structure Ep extends EpView where
  fb : Bool := false
  lastJ : Option Nat := none
  lastBgen : U8 := 0
  fj : Int := 0
  flen : Nat := 1
  acc : List Nat := []
  seen : List EpSeen := []
  accLatched : Bool := false
  retiredFrom : Option Int := none
  canBypass : Bool := true
  held : List HeldCmd := []
  lastTrans : Option Int := none
  moved : Option (Int × Nat) := none
  legX : Leg := {}
  legY : Leg := {}
  loopTick : Nat := 0
  rot : Nat := 0
  log : List (Int × EpView) := []
  rpts : List EpRpt := []
  discA : Option Nat := none
  spanA : Nat := 0
  spanB : Nat := 0
  respA : Option Block := none
  respB : Option Block := none
  pdSeq : U8 := 0
  outA : List Block := []
  outB : List Block := []
  deriving DecidableEq, Repr
end Sys2Proof.Machine
end

