-- ==== Sys2Proof/Machine/State.lean ====
section
/-! DEFINITION. The state of the GX16K: every register, queue, buffer, counter, mode and pin that the spec gives it. -/

namespace Sys2Proof.Machine

/-- Why a step can stop with a fault. -/
inductive Fault where
  /-- Raised by a register write that sets a reserved field to 1: R13 calls the effect undefined and gives none.
  Safe: the model stops where the hardware does something unknown. -/
  | reservedFieldSet (off : Nat)
  /-- Raised by a write of a device-specific CSR of a core that sets a reserved field to 1 (R13, R410, R516). Safe: the model
  stops where the hardware does something unknown. -/
  | reservedCsrSet (csr : Nat)
  /-- Raised by a write of a debug port register that sets a reserved field to 1 (R13, R521). Safe, as above. -/
  | reservedDebugSet (addr : Nat)
  deriving DecidableEq, Repr

/-- Why a step can be refused. -/
inductive Refusal where
  /-- A command that the model gives no meaning. Safe: the model stops. No command uses it. -/
  | notModelled (mnemonic : String)
  deriving DecidableEq, Repr

/-- The machine. `tick` is the 64-bit tick counter (R19). `regs` holds every register value that software wrote or an
event stored, by BAR0 offset, where it differs from the Reset column. `mem` is the memory of the core map (R405).
`pending` is the queue of waiting commands. `rdata` is the data the last read access returned. `dma` lists the posted
writes to host memory in order of issue (R44). `freeCtr` counts the free values drawn so far.
[DESIGN CHOICE: notes/assumptions/52] -/
structure State where
  tick : U64 := 0
  regs : Tbl U32 := []
  mem : List Host.Cell := []
  pending : List Instr := []
  rdata : U64 := 0
  dma : List HostWrite := []
  freeCtr : Nat := 0
  sys : Sys := {}
  std : Std := {}
  hst : Hst := {}
  flt : Flt := {}
  aut : Aut := {}
  cmd : Cmds := {}
  ints : Tbl IntSrc := []
  cores : Tbl Core := []
  tsk : Tsk := {}
  lpe : Lpe := {}
  afe : Afe := {}
  tim : Tim := {}
  fur : Fur := {}
  grn : Grn := {}
  hrw : Hrw := {}
  prt : Prt := {}
  snr : Snr := {}
  stk : Stk := {}
  tly : Tly := {}
  dbg : Dbg := {}
  eps : Tbl Ep := []
  deriving DecidableEq, Repr

/-- The key-protection storage with the key-encryption key of the `n`-th free value (R85, R104). -/
def keyStore (n : Nat) : Bytes := (List.range 256).map (Config.protByte n)

/-- The machine right after reset: what POR_RELEASE leaves of a device fresh from manufacture (R530). Every field is at its reset
value, nothing is listed, nothing pends; the device key that this first reset generates (R85) and the challenges it draws (R93, R523) are
the first three free values. [DEDUCED: notes/assumptions/4; DESIGN CHOICE: notes/assumptions/50; DESIGN CHOICE:
notes/assumptions/58] -/
def State.reset : State :=
  { freeCtr := 3
    std := { keyProt := keyStore 0, devPriv := some ⟨keyStore 0, Config.deviceKey 0⟩, devNeed := false }
    aut := { chal := Config.random 1 }
    dbg := { chal := Config.random 2 } }

end Sys2Proof.Machine
end

