-- ==== Sys2Proof/Machine/Ops.lean ====
section
/-! DEFINITION. The named operations on the state that every block shares: registers, time, reports, events, completions,
free values and core memory. -/

namespace Sys2Proof.Machine

/-! ### Registers -/

/-- The reset value of FLT_CLSk: two bits per code, the default classes (R382, R401). -/
def fltClsReset (k : Nat) : U32 :=
  u32 ((List.range 16).foldl (fun a i => a + defaultClass (16 * k + i) * 4 ^ i) 0)

/-- Is the shared source a level source: the block summaries (R415). -/
def sharedLevel (i : Nat) : Bool := decide (64 ≤ i ∧ i ≤ 81)

/-- The reset values of the loop coefficients (R307). -/
def coefReset (c : Nat) : U32 :=
  if c = 6 ∨ c = 8 ∨ c = 11 then 0xFF7FFFFF
  else if c = 7 ∨ c = 9 ∨ c = 12 then 0x7F7FFFFF
  else if c = 13 ∨ c = 15 then 0x3F800000
  else 0

/-- The value a register holds after reset (R14: the Reset column of its map). -/
def regReset (off : Nat) : U32 :=
  if 0x00E00400 ≤ off ∧ off < 0x00E00520 then fltClsReset ((off - 0x00E00400) / 4)
  else if 0x00D00040 ≤ off ∧ off < 0x00D00080 then
    (if [9, 10, 11, 13].contains ((off - 0x00D00040) / 4) then 0x000003FF else 0)
  else if 0x00501000 ≤ off ∧ off < 0x00502000 then
    (if sharedLevel ((off - 0x00501000) / 4 + 64) then 0x20 else 0)
  else if 0x00502000 ≤ off ∧ off < 0x00503000 then
    (if ((off - 0x00502000) % 0x100) / 4 = 1 then 0x20 else 0)
  else if 0x00601020 ≤ off ∧ off < 0x00605000 ∧ 0x20 ≤ (off - 0x00601000) % 0x80 then
    coefReset (((off - 0x00601000) % 0x80 - 0x20) / 4)
  else
    match rowOf off with
    | some r => u32 r.rst
    | none => 0

/-- The stored value of a register. -/
def rg (s : State) (off : Nat) : U32 := tget (regReset off) s.regs off

/-- Store a register value. -/
def wr (s : State) (off : Nat) (v : U32) : State := { s with regs := tset (regReset off) s.regs off v }

/-- Set bits of a sticky event register. -/
def setEvt (s : State) (off : Nat) (m : U32) : State := wr s off (rg s off ||| m)

/-- Count in a saturating counter register. -/
def count (s : State) (off : Nat) (n : Nat := 1) : State := wr s off (satInc (rg s off) n)

/-- Count a yield of guarantee `k`, 3 to 9 (R41). -/
def yieldCount (s : State) (k : Nat) : State := count s (rSYS_YIELD_CNT (k - 3))

/-! ### Time -/

/-- The tick count as a number (R19). -/
def now (s : State) : Nat := s.tick.toNat

/-- Ticks per frame of a FRAME_LEN code (R20). -/
def frameTicks (code : Nat) : Nat := if code = 0 then 400 else if code = 1 then 800 else if code = 2 then 1600 else 0

/-- FRAME_LEN: as latched at START while frames run, else as configured. -/
def flenCode (s : State) : Nat := if s.sys.running then s.sys.flen else fld (rg s rSYS_FRAME_CFG) 1 0

/-- L, the frame length in ticks (R18); 800 where the code is reserved. -/
def lTicks (s : State) : Nat := let l := frameTicks (flenCode s); if l = 0 then 800 else l

/-- P, the control period in frames (R23); 1 where it would be 0. -/
def pFrames (s : State) : Nat :=
  max 1 (if s.sys.running then s.sys.period else fld (rg s rSYS_FRAME_CFG) 13 8)

/-- The configured look-ahead (R25). -/
def laCfg (s : State) : Nat := if s.sys.running then s.sys.la else fld (rg s rSYS_FRAME_CFG) 19 16

/-- H_START in ticks (R27): a quarter of the frame. -/
def hStart (s : State) : Nat := lTicks s / 4

/-- H_MAX in ticks (R27). -/
def hMax (s : State) : Nat := if lTicks s = 400 then 275 else 550

/-- D_LOOP in ticks (R28). -/
def dLoop (s : State) : Nat := lTicks s + hStart s

/-- Cells per ring (R20). -/
def ringCells (s : State) : Nat := if lTicks s = 400 then 128 else 256

/-- Cells per arm (R20). -/
def armCellMax (s : State) : Nat := if lTicks s = 400 then 2048 else 4096

/-- The current epoch: the tick count divided by L while frames run (R21), 0 while none are generated. -/
def epochNow (s : State) : Nat := if s.sys.running then now s / lTicks s else 0

/-- Device counter `k` counts `n` events of `code` where its CFG names the code and EN is 1 (R519). -/
def tlyDevK (code n : Nat) (s : State) (k : Nat) : State :=
  if fld (rg s (rTLY_DEV_CFG k)) 7 0 = code ∧ bit (rg s (rTLY_DEV_CFG k)) 8 then
    { s with tly := { s.tly with dev := tset 0 s.tly.dev k (tget 0 s.tly.dev k + BitVec.ofNat 48 n) } }
  else s

/-- The device counters count `n` events of `code` (R519). -/
def tlyDev (code n : Nat) (s : State) : State := (List.range 8).foldl (tlyDevK code n) s

/-- Time passes up to tick `t` (never back, R19); a tick is two FAB cycles (R519).
[DESIGN CHOICE: notes/assumptions/3] -/
def advanceTo (s : State) (t : Nat) : State :=
  let s := tlyDev 0x48 (2 * (t - now s)) s
  { s with tick := u64 (max (now s) t) }

/-- The first epoch whose boundary lies after tick `t`. -/
def firstAfter (s : State) (t : Nat) : Nat := t / lTicks s + 1

/-- The first epoch whose boundary does not lie before tick `t`. -/
def firstFrom (s : State) (t : Nat) : Nat := (t + lTicks s - 1) / lTicks s

/-! ### Free values -/

/-- The next free value drawn with `f`. [DESIGN CHOICE: notes/assumptions/14] -/
def draw {α : Type} (f : Nat → α) (s : State) : α × State := (f s.freeCtr, { s with freeCtr := s.freeCtr + 1 })

/-! ### Reports, events, completions -/

/-- Send a report to Tocsin (R380). [DEDUCED: notes/assumptions/18] -/
def report (s : State) (source : U16) (code : Nat) : State :=
  { s with flt := { s.flt with inbox := s.flt.inbox ++ [{ source := source, code := BitVec.ofNat 16 code }] } }

/-- EN and 2^LOG2N of a ring CFG register (R77). -/
def cfgEn (w : U32) : Bool := bit w 8
def cfgN (w : U32) : Nat := 2 ^ fld w 4 0

/-- The CFG register of ring `q`: 0 to 3 CMDr, 4 to 7 CPLr, 8 EVT, 9 SNP (the numbering of HST_DBERR_LAST, R77). -/
def ringCfg (q : Nat) : Nat :=
  if q < 4 then rHST_CMD_CFG q else if q < 8 then rHST_CPL_CFG (q - 4) else if q = 8 then rHST_EVT_CFG else rHST_SNP_CFG

/-- Is ring `q` enabled. -/
def ringEn (s : State) (q : Nat) : Bool := cfgEn (rg s (ringCfg q))
/-- Number of entries of ring `q`. -/
def ringN (s : State) (q : Nat) : Nat := cfgN (rg s (ringCfg q))

def cmdRing (s : State) (r : Nat) : CmdRing := tget {} s.hst.cmd r
def cplRing (s : State) (r : Nat) : CplRing := tget {} s.hst.cpl r
def setCmdRing (s : State) (r : Nat) (v : CmdRing) : State :=
  { s with hst := { s.hst with cmd := tset {} s.hst.cmd r v } }
def setCplRing (s : State) (r : Nat) (v : CplRing) : State :=
  { s with hst := { s.hst with cpl := tset {} s.hst.cpl r v } }

/-- Raise an event (R67): it takes the next EVT_SEQ, and waits to be written unless the ring is off or full or the link
is down, when it is dropped and counted (R68). [DEDUCED: notes/assumptions/18] -/
def raiseEvent (s : State) (source : U16) (code : U16) (cls : Nat) (merged : Bool) (data : Bytes) : State :=
  let sq := s.hst.evtSeq
  let room := s.hst.linkUp && ringEn s 8 &&
    decide ((s.hst.evtPi - s.hst.evtCi).toNat + s.hst.evtDue.length < ringN s 8)
  if room then
    { s with hst := { s.hst with
        evtSeq := sq + 1,
        evtDue := s.hst.evtDue ++ [{ epoch := u64 (epochNow s), tick := s.tick, source := source, code := code,
                                     cls := cls, merged := merged, data := data, seqno := sq }] } }
  else
    let s := { s with hst := { s.hst with evtSeq := sq + 1, lost := min (s.hst.lost + 1) 0xFFFF } }
    setEvt (count s rHST_EVT_DROP) rHST_EVT (bitv 5)

/-- A completion is due (R63). [DEDUCED: notes/assumptions/18] -/
def postCpl (s : State) (c : Cpl) : State := { s with hst := { s.hst with cplDue := s.hst.cplDue ++ [c] } }

/-- The completion of a command with class, status, epoch and result (R64). -/
def mkCpl (id : CmdId) (op cls status epoch : Nat) (result : U32 := 0) : Cpl :=
  { ring := id.ring, gen := id.gen, seq := id.seq, epoch := u64 epoch, result := result,
    opcode := BitVec.ofNat 16 op, slot := BitVec.ofNat 16 id.slot, status := BitVec.ofNat 16 status, cls := cls }

/-- Issue posted writes to host memory, in order (R44); their payload bytes are counted (R519). -/
def dmaWrite (s : State) (ws : List HostWrite) : State :=
  let s := tlyDev 0x42 (ws.foldl (fun a w => a + w.bytes.length) 0) s
  { s with dma := s.dma ++ ws }

/-- A 64-bit address from a LO and a HI register. -/
def addr64 (s : State) (lo hi : Nat) : Nat := (rg s lo).toNat + 2 ^ 32 * (rg s hi).toNat

/-! ### Register writes -/

/-- Is the device held in reset (R533). [DEDUCED: notes/assumptions/42] -/
def held (s : State) : Bool := s.sys.por || s.sys.pin || s.sys.soft

/-- Is the set-up window open (R46, R47). -/
def windowOpen (s : State) : Bool := !s.sys.setupDone

/-- Does a write reach the register: its type (R12), the set-up window, the rule that some registers accept stores
from cores only, and the vault state for AUT_TAMP_CFG (R109). -/
def writeReaches (s : State) (bus : Bus) (row : RegRow) : Bool :=
  (match row.ty with
   | .rw => true
   | .wo => true
   | .w1c => true
   | .rwl => windowOpen s
   | .ro => false
   | .rc => false) &&
  (!row.coresOnly || (match bus with | .core _ => true | _ => false)) &&
  !(row.base == rAUT_TAMP_CFG && s.std.vault == 2)

/-- A write of `v` to the register at `off`: ignored where it does not reach it (R5, R12) or the device is held in reset, a fault where it sets a
reserved field (R13), else the effect `f`.
[DESIGN CHOICE: notes/assumptions/7; DEDUCED: notes/assumptions/42; DEDUCED: notes/assumptions/53] -/
def guardWrite (s : State) (bus : Bus) (off : Nat) (v : U32) (f : State → State) :
    Host.Outcome State Fault Refusal :=
  match rowOf off with
  | none => .next s
  | some row =>
    if !writeReaches s bus row || held s then .next s
    else if v &&& u32 row.rsv ≠ 0 then .fault (.reservedFieldSet off)
    else .next (f s)

/-- A write that only cores can make: a BAR0 or debug write is ignored (R424).
[DEDUCED: notes/assumptions/53] -/
def coreOnlyWrite (bus : Bus) (off : Nat) (v : U32) (f : State → State) (s : State) :
    Host.Outcome State Fault Refusal :=
  match bus with
  | .core _ => guardWrite s bus off v f
  | _ => .next s

/-- The value a plain register takes: the writable bits of `v`, the others kept. -/
def mergeReg (s : State) (off : Nat) (v : U32) : U32 :=
  match rowOf off with
  | none => rg s off
  | some row => (v &&& u32 row.w) ||| (rg s off &&& ~~~ u32 row.w)

/-- Store the writable bits. -/
def plainWrite (off : Nat) (v : U32) (s : State) : State := wr s off (mergeReg s off v)

/-- Clear the stored registers of the blocks that `p` names, by block number (R532). -/
def resetRegs (p : Nat → Bool) (s : State) : State := { s with regs := s.regs.filter (fun q => !p q.1) }

/-! ### Core memory (R405) -/

/-- What a byte that nothing has written reads as: 0. [DESIGN CHOICE: notes/assumptions/1] -/
def memDefault : BitVec 8 := 0

/-- The byte at an address of the core map's RAM. [DESIGN CHOICE: notes/assumptions/1] -/
def readByte (m : List Host.Cell) (a : Nat) : BitVec 8 := tget memDefault m a

/-- Write one byte, keeping the canonical form. -/
def writeByte (m : List Host.Cell) (a : Nat) (v : BitVec 8) : List Host.Cell := tset memDefault m a v

/-- Write bytes from an address up, lowest first. -/
def writeBytes : List Host.Cell → Nat → Bytes → List Host.Cell
  | m, _, [] => m
  | m, a, b :: bs => writeBytes (writeByte m a b) (a + 1) bs

/-- Read `n` bytes from an address up. -/
def readBytes (m : List Host.Cell) (a n : Nat) : Bytes := (List.range n).map (fun i => readByte m (a + i))

/-- The canonical form of memory: addresses strictly rising, nothing listed that an unlisted byte reads as. -/
def Memory.wf (m : List Host.Cell) : Bool := tblWf (fun _ => memDefault) m

end Sys2Proof.Machine
end

