-- ==== Sys2Proof/Machine/Hostport.lean ====
section
/-! DEFINITION. The host port: doorbells, command fetch, completions, events, the index block, link loss and hot reset
(02_host_rings.md). -/

namespace Sys2Proof.Machine

/-- Staging slots in use by ring `r` (R60). -/
def stagedSlots (s : State) (r : Nat) : Nat :=
  (s.hst.stage.filter (fun e => e.ring == r)).foldl (fun a e => a + (if e.bytes.length > 256 then 2 else 1)) 0

/-- Entries of completion ring `r` written but not consumed (R60). -/
def cplUnread (s : State) (r : Nat) : Nat := ((cplRing s r).pi - (cplRing s r).ci).toNat

/-- Has completion ring `r` room for one more command (R60): its size counts as 0 while it is not enabled. -/
def cplRoom (s : State) (r : Nat) : Bool :=
  ringEn s (4 + r) && decide ((cmdRing s r).outstanding + b2n (cmdRing s r).fetch.isSome + cplUnread s r < ringN s (4 + r))

/-- HST_CMDr_STAT.STATE (R77): 0 OFF, 1 RUN, 2 WAIT_CPL, 3 WAIT_STAGE, 4 ERROR, 5 LINK_DOWN. -/
def cmdRingState (s : State) (r : Nat) : Nat :=
  if !ringEn s r then 0
  else if s.hst.linkDown then 5
  else if (cmdRing s r).err then 4
  else if !cplRoom s r then 2
  else if stagedSlots s r ≥ 32 then 3
  else 1

/-! ### Ring configuration (R50, R77) -/

/-- Return the indices of ring `q` to 0 and stop its fetch (R50). [DEDUCED: notes/assumptions/25] -/
def ringStop (s : State) (q : Nat) : State :=
  if q < 4 then
    setCmdRing s q { cmdRing s q with pi := 0, ci := 0, fetch := none, err := false }
  else if q < 8 then
    let c := cplRing s (q - 4)
    setCplRing (setCmdRing s (q - 4) { cmdRing s (q - 4) with outstanding := 0 }) (q - 4)
      { c with pi := 0, ci := 0, gen := c.gen + 1, base := c.gen + 1 }
  else if q = 8 then { s with hst := { s.hst with evtPi := 0, evtCi := 0 } }
  else { s with hst := { s.hst with snpPi := 0, snpCi := 0 }, grn := { s.grn with pubs := [] } }

/-- A write of a ring CFG register: geometry only while EN is 0, EN refused with LOG2N outside 6 to 16, and a cleared
EN returns the indices to 0 (R50, R77). The spec does not say whether the LOG2N of a refused EN is stored: the model stores it.
[DESIGN CHOICE: notes/assumptions/57] -/
def ringCfgWrite (q : Nat) (v : U32) (s : State) : State :=
  let off := ringCfg q
  let old := rg s off
  if cfgEn old then
    if bit v 8 then s
    else { ringStop (wr s off (old &&& 0x1F)) q with hst := { (ringStop (wr s off (old &&& 0x1F)) q).hst with idxDirty := true } }
  else
    let n := fld v 4 0
    if bit v 8 && !(decide (6 ≤ n ∧ n ≤ 16)) then setEvt (wr s off (u32 n)) rHST_EVT (bitv 3)
    else wr s off (v &&& 0x11F)

/-- A write of a ring's BASE register: ignored while the ring's EN is 1 (R50). -/
def ringBaseWrite (q off : Nat) (v : U32) (s : State) : State :=
  if ringEn s q then s else plainWrite off v s

/-! ### Doorbells (R55 to R58) -/

/-- The check of R57 on 32-bit indices. -/
def dbOk (enabled : Bool) (d mine other : U32) (n : Nat) (producer : Bool) : Bool :=
  enabled &&
  (if producer then decide ((d - other).toNat ≤ n) && decide ((mine - other).toNat ≤ (d - other).toNat)
   else decide ((d - mine).toNat ≤ (other - mine).toNat))

/-- The last accepted index of ring `q`'s doorbell and the other party's index (R57). -/
def dbMine (s : State) (q : Nat) : U32 :=
  if q < 4 then (cmdRing s q).pi else if q < 8 then (cplRing s (q - 4)).ci else if q = 8 then s.hst.evtCi else s.hst.snpPi
def dbOther (s : State) (q : Nat) : U32 :=
  if q < 4 then (cmdRing s q).ci else if q < 8 then (cplRing s (q - 4)).pi else if q = 8 then s.hst.evtPi else s.hst.snpCi

/-- Does the host produce ring `q`. -/
def hostProduces (q : Nat) : Bool := decide (q < 4 ∨ q = 9)

/-- A doorbell of ring `q` with value `d` (R57, R58). -/
def doorbell (q : Nat) (d : U32) (s : State) : State :=
  if dbOk (ringEn s q) d (dbMine s q) (dbOther s q) (ringN s q) (hostProduces q) then
    if q < 4 then setCmdRing s q { cmdRing s q with pi := d }
    else if q < 8 then setCplRing s (q - 4) { cplRing s (q - 4) with ci := d }
    else if q = 8 then { s with hst := { s.hst with evtCi := d } }
    else { s with hst := { s.hst with snpPi := d } }
  else
    let s := wr (count s rHST_DBERR_CNT) rHST_DBERR_LAST (u32 q ||| (d <<< 4))
    report (setEvt s rHST_EVT (bitv 2)) (srcBlk 1 0) 0x0041

/-- The ring of a BAR2 offset (R55); none for a reserved one. -/
def dbRing (off : Nat) : Option Nat :=
  if off % 4 ≠ 0 then none
  else if off < 0x28 then some (off / 4) else none

/-- The handling of R11: a write is ignored, a read returns 0, and a host-access error goes to Tocsin. -/
def badAccess (isRead : Bool) (s : State) : State :=
  report (if isRead then { s with rdata := 0 } else s) (srcBlk 1 0) 0x0040

/-- A write of a BAR2 offset (R55, R56): a misaligned one as R11 states, a reserved one without effect. -/
def bar2Write (off : Nat) (d : U32) (s : State) : State :=
  if off % 4 ≠ 0 then badAccess false s
  else
    match dbRing off with
    | none => s
    | some q => if held s then s else doorbell q d s

/-- What a read of a BAR2 offset returns (R55): the last accepted index, 0 from a reserved offset. -/
def bar2Read (s : State) (off : Nat) : U32 :=
  match dbRing off with
  | none => 0
  | some q => dbMine s q

def execDoorbellWrite (off : Fin 65536) (d : U32) (s : State) : Host.Outcome State Fault Refusal := .next (bar2Write off d s)

def execBar2BadAccess (isRead : Bool) (s : State) : Host.Outcome State Fault Refusal := .next (badAccess isRead s)
def execBar0BadAccess (isRead : Bool) (s : State) : Host.Outcome State Fault Refusal := .next (badAccess isRead s)

def execHstRingCfgWrite (bus : Bus) (q : Fin 10) (v : U32) (s : State) : Host.Outcome State Fault Refusal :=
  guardWrite s bus (ringCfg q) v (ringCfgWrite q v)

/-! ### Command fetch (R59 to R62, R72) -/

/-- May ring `r` fetch its next envelope, of one slot or two. -/
def canFetch (s : State) (two : BitVec 4) (r : Nat) : Bool :=
  let c := cmdRing s r
  let n := if two.getLsbD r then 2 else 1
  s.hst.linkUp && decide (cmdRingState s r = 1) && c.fetch.isNone &&
  decide (n ≤ (c.pi - c.ci).toNat) && decide (stagedSlots s r + n ≤ 32)

/-- The ring that fetches next: strict priority, CMD0 first (R60). -/
def fetchRing (s : State) (two : BitVec 4) : Option Nat := (List.range 4).find? (canFetch s two)

def execCommandFetch (two : BitVec 4) (s : State) : Host.Outcome State Fault Refusal :=
  match fetchRing s two with
  | none => .next s
  | some r => .next (setCmdRing s r { cmdRing s r with fetch := some (if two.getLsbD r then 2 else 1) })

/-- The slots of an envelope by the KIND of its header (R59, R80): two for session-open and firmware, else one.
[DEDUCED: notes/assumptions/25] -/
def envSlots (bytes : Bytes) : Nat := if rd bytes 1 1 = 1 ∨ rd bytes 1 1 = 2 then 2 else 1

/-- The first slot names an envelope of two while only one was read: the fetch goes on to the second slot where the producer index
covers it and staging has room, and waits for it otherwise (R59, R60). -/
def fetchMore (r : Nat) (s : State) : State :=
  let c := cmdRing s r
  setCmdRing s r { c with fetch := if 2 ≤ (c.pi - c.ci).toNat ∧ stagedSlots s r + 2 ≤ 32 then some 2 else none }

/-- The whole envelope is in staging: CI advances by its slots (R59, R61). Where fetches of two rings overlap, the spec does not say
which is first in fetch order: the model takes the order in which they end.
[DESIGN CHOICE: notes/assumptions/57] -/
def fetchDone (r : Nat) (bytes : Bytes) (s : State) : State :=
  let c := cmdRing s r
  let k := envSlots bytes
  match c.fetch with
  | none => s
  | some n =>
    if n < k then fetchMore r s
    else
      let e : Staged := { ring := r, slot := c.ci.toNat % ringN s r, bytes := fit (256 * k) bytes, gen := (cplRing s r).gen }
      let s := setCmdRing s r { c with ci := c.ci + u32 k, fetch := none, outstanding := c.outstanding + 1 }
      tlyDev 0x43 (256 * k) { s with hst := { s.hst with stage := s.hst.stage ++ [e], idxDirty := true } }

def execFetchComplete (r : Fin 4) (bytes : Bytes) (s : State) : Host.Outcome State Fault Refusal := .next (fetchDone r bytes s)

/-- A fetch fails with a RING cause (R72). The spec does not say whether its completion counts among the ring's outstanding commands
(R60): the model counts it, so that the completion ring never holds more than N entries (R52).
[DESIGN CHOICE: notes/assumptions/57] -/
def fetchFail (r cause : Nat) (s : State) : State :=
  let c := cmdRing s r
  match c.fetch with
  | none => s
  | some _ =>
    let k : Cpl := { ring := r, gen := (cplRing s r).gen, slot := BitVec.ofNat 16 (c.ci.toNat % ringN s r),
                     status := BitVec.ofNat 16 cause, cls := cRing }
    let s := postCpl (setCmdRing s r { c with fetch := none, err := true, outstanding := c.outstanding + 1 }) k
    report (setEvt s rHST_EVT (bitv 1)) (srcBlk 1 (1 + r)) 0x0042

/-- `cause` 0 to 2: FETCH_ABORT, FETCH_POISON, STAGE_ECC. -/
def execFetchFail (r : Fin 4) (cause : Fin 3) (s : State) : Host.Outcome State Fault Refusal :=
  .next (fetchFail r (if cause = 0 then 1 else if cause = 1 then 3 else 4) s)

def execFetchTimeout (r : Fin 4) (s : State) : Host.Outcome State Fault Refusal := .next (fetchFail r 2 s)

/-- A write of HST_RESTART: each named ring in ERROR resumes at its CI (R72). -/
def hstRestart (v : U32) (s : State) : State :=
  (List.range 4).foldl (fun s r => if bit v r then setCmdRing s r { cmdRing s r with err := false } else s) s

def execHstRestartWrite (bus : Bus) (v : U32) (s : State) : Host.Outcome State Fault Refusal :=
  guardWrite s bus rHST_RESTART v (hstRestart v)

/-! ### Completions, events and the index block -/

/-- PHASE of an entry written at index `pi` of a ring of `n` entries: 1 on even passes (R65). -/
def phase (pi : U32) (n : Nat) : Nat := if (pi.toNat / n) % 2 = 0 then 1 else 0

/-- The 32 bytes of a completion entry (R64), in the two writes of R65. -/
def cplBytes (c : Cpl) (ph : Nat) : Bytes × Bytes :=
  (leBytes 8 c.seq.toNat ++ leBytes 8 c.epoch.toNat ++ leBytes 4 c.result.toNat ++ leBytes 2 c.opcode.toNat ++
     leBytes 2 c.slot.toNat ++ leBytes 2 c.status.toNat ++ leBytes 1 c.cls ++ leBytes 1 (b2n c.notRepl),
   [0, 0, 0, BitVec.ofNat 8 ph])

/-- Take the first due completion of ring `r` that no earlier one of its flow precedes (R63); `fs` are the flows of those before. -/
def takeCpl (r : Nat) : List Nat → List Cpl → Option (Cpl × List Cpl)
  | _, [] => none
  | fs, c :: cs =>
    if c.ring = r ∧ !(c.flow.elim false fs.contains) then some (c, cs)
    else (takeCpl r (fs ++ c.flow.toList) cs).map (fun x => (x.1, c :: x.2))

/-- Has the session expired: flagged, or the RTC past NOT_AFTER (R95). -/
def sessExpired (s : State) (v : Session) : Bool :=
  v.expired || (match v.notAfter with | some t => decide (t < s.std.rtcSec.toNat) | none => false)

/-- End the live session with an ID (R95); an expired one keeps its record. -/
def endSession (s : State) (id : U32) : Tbl Session :=
  s.aut.sess.filter (fun p => !(p.2.used && p.2.id == id && !sessExpired s p.2))

/-- The first due completion of ring `r` is written, or discarded where the ring is not the one it was fetched under,
is not enabled, or the link is down (R63, R65, R74). -/
def completionWrite (r : Nat) (s : State) : State :=
  match takeCpl r [] s.hst.cplDue with
  | none => s
  | some (c, rest) =>
    let k := cplRing s r
    let s := { s with hst := { s.hst with cplDue := rest } }
    let s := match c.closes with
      | some id => { s with aut := { s.aut with sess := endSession s id } }
      | none => s
    let s := if k.base ≤ c.gen then
        setCmdRing s r { cmdRing s r with outstanding := (cmdRing s r).outstanding - 1 } else s
    if !s.hst.linkUp || !ringEn s (4 + r) || decide (c.gen ≠ k.gen) then
      setEvt (count s rHST_CPL_DISCARD) rHST_EVT (bitv 4)
    else
      let n := ringN s (4 + r)
      let a := addr64 s (rHST_CPL_BASE_LO r) (rHST_CPL_BASE_HI r) + 32 * (k.pi.toNat % n)
      let b := cplBytes c (phase k.pi n)
      let s := dmaWrite s [⟨a, b.1⟩, ⟨a + 28, b.2⟩]
      let s := setCplRing s r { k with pi := k.pi + 1 }
      { s with hst := { s.hst with idxDirty := true } }

def execCompletionWrite (r : Fin 4) (s : State) : Host.Outcome State Fault Refusal := .next (completionWrite r s)

/-- The 64 bytes of an event entry (R67), in its two writes. -/
def evtBytes (e : Evt) (lost ph : Nat) : Bytes × Bytes :=
  (leBytes 8 e.epoch.toNat ++ leBytes 8 e.tick.toNat ++ leBytes 2 e.source.toNat ++ leBytes 2 e.code.toNat ++
     leBytes 1 e.cls ++ leBytes 1 (b2n (lost != 0) + 2 * b2n e.merged) ++ leBytes 2 lost ++ fit 32 e.data ++
     leBytes 4 e.seqno.toNat,
   [0, 0, 0, BitVec.ofNat 8 ph])

/-- The first waiting event is written to the event ring, or dropped where the ring is off or full or the link is down
by then (R67, R68). -/
def eventWrite (s : State) : State :=
  match s.hst.evtDue with
  | [] => s
  | e :: rest =>
    let n := ringN s 8
    let s := { s with hst := { s.hst with evtDue := rest } }
    if s.hst.linkUp && ringEn s 8 && decide ((s.hst.evtPi - s.hst.evtCi).toNat < n) then
      let pi := s.hst.evtPi
      let a := addr64 s rHST_EVT_BASE_LO rHST_EVT_BASE_HI + 64 * (pi.toNat % n)
      let b := evtBytes e s.hst.lost (phase pi n)
      let s := dmaWrite s [⟨a, b.1⟩, ⟨a + 60, b.2⟩]
      setEvt { s with hst := { s.hst with evtPi := pi + 1, lost := 0, idxDirty := true } } rFLT_EVT (bitv 1)
    else
      setEvt (count { s with hst := { s.hst with lost := min (s.hst.lost + 1) 0xFFFF } } rHST_EVT_DROP) rHST_EVT (bitv 5)

def execEventWrite (s : State) : Host.Outcome State Fault Refusal := .next (eventWrite s)

/-- A completion, an event or the index block waits for the link, before any snapshot write (R66). -/
def linkDue (s : State) : Bool :=
  s.hst.linkUp && (!s.hst.cplDue.isEmpty || !s.hst.evtDue.isEmpty || (s.hst.idxDirty && bit (rg s rHST_IDX_CTL) 0))

/-- The index block (R71). -/
def indexBytes (s : State) : Bytes :=
  (List.range 4).flatMap (fun r => leBytes 4 (cmdRing s r).ci.toNat) ++ leBytes 4 s.hst.snpCi.toNat ++
  leBytes 4 s.hst.evtPi.toNat ++ (List.range 4).flatMap (fun r => leBytes 4 (cplRing s r).pi.toNat) ++
  leBytes 8 (epochNow s) ++ List.replicate 16 0

/-- The index block is written where it is enabled, the link is up and an index has changed (R71).
[DEDUCED: notes/assumptions/25] -/
def indexBlockWrite (s : State) : State :=
  if bit (rg s rHST_IDX_CTL) 0 && s.hst.linkUp && s.hst.idxDirty then
    dmaWrite { s with hst := { s.hst with idxDirty := false } }
      [⟨addr64 s rHST_IDX_BASE_LO rHST_IDX_BASE_HI, indexBytes s⟩]
  else s

def execIndexBlockWrite (s : State) : Host.Outcome State Fault Refusal := .next (indexBlockWrite s)

/-! ### Link loss, hot reset (R74, R75) -/

/-- Ring `r` at a link loss: its fetch in flight ends, and the completions of the commands it has staged or running are to be discarded,
however late they come (R74). [DEDUCED: notes/assumptions/25] -/
def ringLinkDown (s : State) (r : Nat) : State :=
  let s := setCmdRing s r { cmdRing s r with fetch := none }
  setCplRing s r { cplRing s r with gen := (cplRing s r).gen + 1 }

/-- The link goes down: the rings enter LINK_DOWN, and Tocsin is told (R74).
[DEDUCED: notes/assumptions/25] -/
def linkDown (s : State) : State :=
  let s := (List.range 4).foldl ringLinkDown s
  let s := { s with hst := { s.hst with linkUp := false, linkDown := true, speed := 0, width := 0 } }
  report (setEvt s rHST_EVT (bitv 0)) (srcBlk 1 0) 0x0043

/-- The ring state of HST and the configuration space return to their reset values: indices, staging, ERROR, LINK_DOWN and the
doorbells (R75). The index block is due again (R71). The spec does not say what becomes of events raised and not yet written, nor of
publications whose descriptors the reset takes away: the model drops both without counting them.
[DESIGN CHOICE: notes/assumptions/57] -/
def hstRingReset (s : State) : State :=
  let gen (r : Nat) := (cplRing s r).gen + 1
  let cpl := (List.range 4).foldl (fun t r => tset {} t r { pi := 0, ci := 0, gen := gen r, base := gen r : CplRing }) s.hst.cpl
  { s with hst := { s.hst with pci := {}, linkDown := false, cmd := [], cpl := cpl, stage := [], evtPi := 0, evtCi := 0,
                               evtSeq := 0, lost := 0, evtDue := [], snpPi := 0, snpCi := 0, idxDirty := true },
           grn := { s.grn with pubs := [] } }

/-- A hot reset, link disable, FLR or PERST_N low (R75, R532, R553). The link comes back with LINK_UP. -/
def hotReset (s : State) : State := setEvt (hstRingReset s) rHST_EVT (bitv 6)

/-- The link trains up at a speed code and width (R77). [DEDUCED: notes/assumptions/25] -/
def linkUp (speed width : Nat) (s : State) : State :=
  { s with hst := { s.hst with linkUp := true, linkDown := false, speed := speed, width := width } }

/-- `speed` 0 to 3 for 2.5 to 16.0 GT/s; `width` 0 to 3 for 1, 2, 4 or 8 lanes. -/
def execLinkUp (speed width : Fin 4) (s : State) : Host.Outcome State Fault Refusal :=
  .next (linkUp (speed + 1) (2 ^ width.val) s)

end Sys2Proof.Machine
end

