-- ==== Sys2Proof/Machine/Interrupt.lean ====
section
/-! DEFINITION. The interrupt controller: sources, presentation, claim, completion and moderation (R413 to R422). -/

namespace Sys2Proof.Machine

/-- The key of private source `j` of core `c`. -/
def prvKey (c j : Nat) : Nat := 2048 + 64 * c + j

/-- Is the key a private source, and of which core and number. -/
def isPrv (k : Nat) : Bool := decide (2048 ≤ k)
def prvCore (k : Nat) : Nat := (k - 2048) / 64
def prvNum (k : Nat) : Nat := (k - 2048) % 64

/-- The ID of a source: 0 to 63 private, 64 to 1,087 shared (R413). -/
def srcId (k : Nat) : Nat := if isPrv k then prvNum k else k

/-- The sources that the spec lists (R414, R415); the others are reserved and never pend (R413). -/
def srcListed (k : Nat) : Bool :=
  if isPrv k then decide (prvNum k ≤ 4 ∨ 16 ≤ prvNum k)
  else
    decide (64 ≤ k ∧ k ≤ 81) || decide (96 ≤ k ∧ k ≤ 99) || (decide (128 ≤ k ∧ k < 176) && decide ((k - 128) % 4 < 3)) ||
    decide (192 ≤ k ∧ k ≤ 203) || decide (256 ≤ k ∧ k < 320) || decide (512 ≤ k ∧ k ≤ 1087)

/-- Is the source a level source: the block summaries and TIMER (R414, R415). -/
def srcLevel (k : Nat) : Bool := if isPrv k then decide (prvNum k = 1) else sharedLevel k

/-- The CFG register of a source (R424). -/
def srcCfg (s : State) (k : Nat) : U32 :=
  if isPrv k then rg s (rINT_PRV_CFG (prvCore k) (prvNum k)) else rg s (rINT_SRC_CFG (k - 64))

/-- PRIO, EN, ROUTE and MOD of a source (R425). -/
def srcPrio (s : State) (k : Nat) : Nat := fld (srcCfg s k) 3 0
def srcEn (s : State) (k : Nat) : Bool := bit (srcCfg s k) 4
def srcRoute (s : State) (k : Nat) : Nat := if isPrv k then prvCore k else fld (srcCfg s k) 11 8
def srcMod (s : State) (k : Nat) : Nat := fld (srcCfg s k) 23 16

def core (s : State) (c : Nat) : Core := tget {} s.cores c
def setCore (s : State) (c : Nat) (v : Core) : State := { s with cores := tset {} s.cores c v }

/-- A core with its ticks up to now accounted, before what it does changes (R512): nothing while it is halted or held. -/
def coreTick (s : State) (h : Core) : Core :=
  let d := if h.released && !h.halted then now s - h.mark else 0
  let m := decide (h.priv = 3)
  { h with mark := now s, runM := h.runM + (if m && !h.idle then d else 0), runU := h.runU + (if !m && !h.idle then d else 0),
           idlM := h.idlM + (if m && h.idle then d else 0), idlU := h.idlU + (if !m && h.idle then d else 0) }
def intSrc (s : State) (k : Nat) : IntSrc := tget {} s.ints k
def setIntSrc (s : State) (k : Nat) (v : IntSrc) : State := { s with ints := tset {} s.ints k v }

/-- The sticky event registers of block `b` (R398 and the chapters it names). -/
def evtRegs (b : Nat) : List Nat :=
  match b with
  | 0 => [rSYS_CLK_EVT] | 1 => [rHST_EVT] | 2 => [rAUT_EVT] | 3 => [rCPU_EVT] | 4 => [rTSK_EVT] | 5 => [rINT_EVT]
  | 6 => [rLPE_EVT] | 7 => [rHRW_EVT, rHRW_CAR_EVT] | 8 => [rFUR_EVT] | 9 => [rGRN_EVT] | 10 => [rAFE_EVT]
  | 11 => [rSTK_EVT] | 12 => [rTIM_EVT] | 13 => [rPRT_EVT] | 14 => [rFLT_EVT] | 15 => [rSNR_EVT] | 16 => [rTLY_EVT]
  | 17 => [rDBG_EVT] | _ => []

/-- FLT_IRQ_SUM (R398). -/
def irqSum (s : State) : U32 := u32 (bitsOf 18 (fun b => (evtRegs b).any (fun r => rg s r != 0)))

/-- The input of a level source. -/
def srcInput (s : State) (k : Nat) : Bool :=
  if isPrv k then decide (prvNum k = 1) && decide ((core s (prvCore k)).timecmp.toNat ≤ now s)
  else sharedLevel k && bit (irqSum s) (k - 64)

/-- Is the source pending (R416). -/
def srcPending (s : State) (k : Nat) : Bool :=
  if srcLevel k then srcInput s k else decide (0 < (intSrc s k).cnt)

/-- Is the source's moderation hold running (R420): not while its target core is idle. -/
def srcHeld (s : State) (k : Nat) : Bool :=
  (match (intSrc s k).hold with | some t => decide (now s < t) | none => false) && !(core s (srcRoute s k)).idle

/-- TOP_PRIO of a core's stack; none for an empty one. -/
def topPrio (s : State) (c : Nat) : Option Nat := ((core s c).stack.head?).map (·.2)

/-- Does core `c` admit source `k`: all that R416 asks of a presentable source but that it is pending. -/
def admits (s : State) (c k : Nat) : Bool :=
  decide (srcRoute s k = c) && srcListed k && srcEn s k && !(intSrc s k).active && !srcHeld s k &&
  decide ((core s c).thresh ≤ srcPrio s k) &&
  (match topPrio s c with | some p => decide (p < srcPrio s k) | none => true)

/-- Is source `k` presentable to core `c` (R416). -/
def presentable (s : State) (c k : Nat) : Bool := admits s c k && srcPending s k

/-- The sources that can be pending: those with a record, and the level sources. -/
def srcCandidates (s : State) (c : Nat) : List Nat :=
  (List.range 18).map (· + 64) ++ [prvKey c 1] ++ s.ints.map (·.1)

/-- Is source `a` before source `b` in presentation: higher PRIO, then lower ID (R416). -/
def before (s : State) (a b : Nat) : Bool :=
  decide (srcPrio s b < srcPrio s a) || (decide (srcPrio s a = srcPrio s b) && decide (srcId a < srcId b))

/-- The first of two sources. -/
def bestOf (s : State) (a : Option Nat) (k : Nat) : Option Nat :=
  match a with
  | none => some k
  | some x => if before s k x then some k else some x

/-- The source that INT presents to core `c` now. -/
def presented (s : State) (c : Nat) : Option Nat :=
  ((srcCandidates s c).filter (presentable s c)).foldl (bestOf s) none

/-- The source latched for core `c`, while the core admits it: a level input may have gone since (R421), but neither a higher stack, a raised
threshold nor a cleared EN leaves it presented (R416, R422). [DEDUCED: notes/assumptions/48] -/
def latchedFor (s : State) (c : Nat) : Option Nat := (core s c).latched.filter (admits s c)

/-- Latch what is presented, where no source is latched that the core admits (R416). [DEDUCED: notes/assumptions/48] -/
def latchCore (s : State) (c : Nat) : State :=
  if (latchedFor s c).isSome then s else setCore s c { core s c with latched := presented s c }

/-- An edge event on a source (R419, R422): counted while enabled, up to 255, then SAT. -/
def intEdge (s : State) (k : Nat) : State :=
  if !srcListed k || srcLevel k || !srcEn s k then s
  else
    let v := intSrc s k
    if v.cnt < 255 then latchCore (setIntSrc s k { v with cnt := v.cnt + 1 }) (srcRoute s k)
    else
      report (setEvt (setIntSrc s k { v with sat := true }) rINT_EVT (bitv 2)) (srcBlk 5 (srcRoute s k)) 0x0142

/-- Edge events on several sources. -/
def intEdges (s : State) (ks : List Nat) : State := ks.foldl intEdge s

end Sys2Proof.Machine
end

