-- ==== Sys2Proof/Machine/Tally.lean ====
section
/-! DEFINITION. Tally: the per-core counters, precise sampling and the device counters (R511 to R519). -/

namespace Sys2Proof.Machine

def tlyCore (s : State) (c : Nat) : TlyCore := tget {} s.tly.cores c
def setTlyCore (s : State) (c : Nat) (v : TlyCore) : State := { s with tly := { s.tly with cores := tset {} s.tly.cores c v } }

/-! ### Cycles and issue slots (R512, R513) -/

/-- The cycles of a core up to now: four CORE cycles a tick. [DESIGN CHOICE: notes/assumptions/63] -/
def coreCyc (s : State) (c : Nat) : CoreCyc :=
  let h := coreTick s (core s c)
  { runM := 4 * h.runM, runU := 4 * h.runU, idlM := 4 * h.idlM, idlU := 4 * h.idlU }

/-- The issue slots of class `q` in the cycles from `a` up to `b` of a core in a mode: each slot of a cycle has one class. -/
def slotsIn (c : Nat) (m : Bool) (q : BitVec 2) (a b : Nat) : Nat :=
  (List.range (b - a)).foldl
    (fun n i => n + b2n (Config.slotClass c m (a + i) false == q) + b2n (Config.slotClass c m (a + i) true == q)) 0

/-- The events of a code between two readings of a core's cycles, in the modes counted: 0x01 CYCLES, 0x02 to 0x05 the slots of each class,
0x18 IDLE_CYC. -/
def cycEvents (c code : Nat) (u m : Bool) (x y : CoreCyc) : Nat :=
  let both (fm fu : Nat) : Nat := (if m then fm else 0) + (if u then fu else 0)
  if code = 1 then both (y.runM - x.runM) (y.runU - x.runU)
  else if 2 ≤ code ∧ code ≤ 5 then
    both (slotsIn c true (BitVec.ofNat 2 (code - 2)) x.runM y.runM) (slotsIn c false (BitVec.ofNat 2 (code - 2)) x.runU y.runU)
  else if code = 0x18 then both (y.idlM - x.idlM) (y.idlU - x.idlU)
  else 0

/-- What counter `k` of core `c` reads: its count when it was last set, and the cycles since (R511 to R513). -/
def tlyCnt (s : State) (c k : Nat) : BitVec 48 :=
  let t := tlyCore s c
  let w := tget 0 t.evt k
  tget 0 t.cnt k + BitVec.ofNat 48 (cycEvents c (fld w 7 0) (bit w 8) (bit w 9) (tget {} t.base k) (coreCyc s c))

/-- Counter `k` of core `c` is set. -/
def tlySet (c k : Nat) (v : BitVec 48) (s : State) : State :=
  let t := tlyCore s c
  setTlyCore s c { t with cnt := tset 0 t.cnt k v, base := tset {} t.base k (coreCyc s c) }

/-- A write of mhpmevent (R511): what the counter has counted stays. -/
def tlySelect (c k : Nat) (v : U64) (s : State) : State :=
  let s := tlySet c k (tlyCnt s c k) s
  setTlyCore s c { tlyCore s c with evt := tset 0 (tlyCore s c).evt k (v &&& 0xFFF) }

/-! ### Samples and wraps (R514 to R518) -/

/-- The instruction that a sample describes (R515): its PC and data address, mode (3 M, 0 U), slot class and load latency. -/
structure SmpInstr where
  pc : U64
  addr : U64
  mode : Nat
  slot : Nat
  lat : Nat
  deriving DecidableEq, Repr

/-- The record of a sample of counter `k` (R515). -/
def smpRecord (s : State) (c k : Nat) (i : SmpInstr) : U64 × U64 × U64 × U64 :=
  let t := tlyCore s c
  (i.pc, i.addr, s.tick,
   u64 (fld (tget 0 t.evt k) 7 0 + c * 2 ^ 8 + b2n (i.mode = 3) * 2 ^ 12 + i.slot * 2 ^ 13 + min i.lat 0xFFFF * 2 ^ 16 +
        t.seqno.toNat * 2 ^ 32))

/-- The 32 bytes of a record. -/
def smpBytes (r : U64 × U64 × U64 × U64) : Bytes :=
  leBytes 8 r.1.toNat ++ leBytes 8 r.2.1.toNat ++ leBytes 8 r.2.2.1.toNat ++ leBytes 8 r.2.2.2.toNat

/-- A sample for the host buffer (R517): dropped where its staging buffer is full, else written at TLY_HBUF_WI; a length of 0
writes nothing. [DEDUCED: notes/assumptions/37] -/
def smpHost (c : Nat) (full : Bool) (r : U64 × U64 × U64 × U64) (s : State) : State :=
  if full then
    report (yieldCount (setEvt (count s rTLY_DROP_CNT) rTLY_EVT (bitv 0)) 9) (srcBlk 16 (1 + c)) 0x0400
  else
    let len := (rg s rTLY_HBUF_LEN).toNat
    if len = 0 ∨ !s.hst.linkUp then s
    else
      let s := dmaWrite s [⟨addr64 s rTLY_HBUF_BASE_LO rTLY_HBUF_BASE_HI + s.tly.wi, smpBytes r⟩]
      { s with tly := { s.tly with wi := (s.tly.wi + 32) % len } }

/-- A sample for the core's buffer (R517, R518). [DEDUCED: notes/assumptions/37] -/
def smpKeep (c : Nat) (r : U64 × U64 × U64 × U64) (s : State) : State :=
  let t := tlyCore s c
  if t.buf.length < 4096 then
    let s := setTlyCore s c { t with buf := t.buf ++ [r], seqno := t.seqno + 1 }
    if t.buf.length + 1 = 2048 ∨ t.buf.length + 1 = 4096 then intEdge s (prvKey c 3) else s
  else if t.wrap then
    setTlyCore s c { t with buf := t.buf.set t.at_ r, at_ := (t.at_ + 1) % 4096, seqno := t.seqno + 1 }
  else setEvt (setTlyCore s c { t with full := true }) rTLY_EVT (bitv 1)

/-- A sampling counter wraps while EN is 1 (R515, R517). [DEDUCED: notes/assumptions/37] -/
def takeSample (c k : Nat) (i : SmpInstr) (full : Bool) (s : State) : State :=
  let t := tlyCore s c
  let r := smpRecord s c k i
  if t.host then
    let s := if full then s else setTlyCore s c { t with seqno := t.seqno + 1 }
    smpHost c full r s
  else smpKeep c r s

/-- Counter `k` of core `c` wraps (R514, R518). [DEDUCED: notes/assumptions/37] -/
def counterWrap (c k : Nat) (i : SmpInstr) (full : Bool) (s : State) : State :=
  let t := tlyCore s c
  let w := tget 0 t.evt k
  let s := setTlyCore s c { t with cnt := tset 0 t.cnt k (if bit w 10 then t.rld else 0), base := tset {} t.base k (coreCyc s c),
                                   ovf := t.ovf ||| BitVec.ofNat 8 (2 ^ k) }
  let s := setEvt s rTLY_EVT (bitv 3)
  let s := if bit w 10 && t.en then takeSample c k i full s else s
  if bit w 11 then intEdge s (prvKey c 3) else s

/-- A halted core's counters do not wrap (R514, R526). -/
def execCounterWrap (c : Fin 16) (k : Fin 8) (pc addr : U64) (mMode : Bool) (slot : Fin 4) (lat : U32) (full : Bool) (s : State) :
    Host.Outcome State Fault Refusal :=
  if (core s c).halted then .next s
  else .next (counterWrap c k ⟨pc, addr, if mMode then 3 else 0, slot, lat.toNat⟩ full s)

/-- Counter `k` of core `c` counts one event of `code` in the core's mode (R511, R512). -/
def tlyCountK (c code : Nat) (s : State) (k : Nat) : State :=
  let t := tlyCore s c
  let w := tget 0 t.evt k
  let p := (core s c).priv
  if fld w 7 0 = code ∧ ((p = 0 ∧ bit w 8) ∨ (p = 3 ∧ bit w 9)) then
    if tget 0 t.cnt k = 0xFFFFFFFFFFFF then
      let (full, s) := draw Config.freeBool s
      counterWrap c k ⟨(core s c).pc, 0, p, 0, 0⟩ full s
    else setTlyCore s c { t with cnt := tset 0 t.cnt k (tget 0 t.cnt k + 1) }
  else s

/-- An event of a core that a command shows: 0x13 UNC_LOAD, 0x17 IRQ_CLAIM, 0x19 BP_COUNT and 0x1A TRAP (R512); none while it is
halted (R514). [DESIGN CHOICE: notes/assumptions/14] -/
def tlyCount (c code : Nat) (s : State) : State :=
  if (core s c).halted then s else (List.range 8).foldl (tlyCountK c code) s

/-- A read of the register space or of the Granary port counts UNC_LOAD where a core made it (R512). -/
def busLoad (bus : Bus) (s : State) : State :=
  match bus with
  | .core c => tlyCount c 0x13 s
  | _ => s

/-- A write of gxsmpl.CLR empties the buffer (R516). -/
def smpClear (c : Nat) (s : State) : State :=
  setTlyCore s c { tlyCore s c with buf := [], at_ := 0, full := false }

/-- A write of gxsmpl (R516). -/
def smplWrite (c : Nat) (v : U64) (s : State) : State :=
  let s := setTlyCore s c { tlyCore s c with en := bit v 0, wrap := bit v 1, host := bit v 2 }
  if bit v 3 then smpClear c s else s

/-- `v` is the rest of the gxsmpl word that sets CLR: EN, MODE and HOST. -/
def execSampleBufferClear (c : Fin 16) (v : BitVec 3) (s : State) : Host.Outcome State Fault Refusal :=
  .next (smplWrite c (u64 (v.toNat + 8)) s)

/-- Writing 1 to a gxtlyovf bit clears it (R514, R516). -/
def ovfClear (c : Nat) (v : U64) (s : State) : State :=
  setTlyCore s c { tlyCore s c with ovf := (tlyCore s c).ovf &&& ~~~ (v.setWidth 8) }

def execGxtlyovfClear (c : Fin 16) (v : U64) (s : State) : Host.Outcome State Fault Refusal :=
  if 0x100 ≤ v.toNat then .fault (.reservedCsrSet 0x7C6) else .next (ovfClear c v s)

/-- A write to TLY_DEVk_CFG selects the event and clears the counter (R519). -/
def devCfgWrite (k : Nat) (v : U32) (s : State) : State :=
  let s := plainWrite (rTLY_DEV_CFG k) v s
  { s with tly := { s.tly with dev := tset 0 s.tly.dev k 0 } }

def execTlyDevCfgWrite (bus : Bus) (k : Fin 8) (v : U32) (s : State) : Host.Outcome State Fault Refusal :=
  guardWrite s bus (rTLY_DEV_CFG k) v (devCfgWrite k v)

/-- The Tally registers that show structured state (R529); the HI words of the windows are those latched (R39). -/
def tlyRead (s : State) (off : Nat) : Option U32 :=
  if off = rTLY_STAT then
    some (u32 (bitsOf 16 (fun c => (tlyCore s c).en) + 2 ^ 16 * bitsOf 16 (fun c => (tlyCore s c).full)))
  else if off = rTLY_HBUF_WI then some (u32 s.tly.wi)
  else if off = rTLY_CWIN_OVF then some ((tlyCore s (fld (rg s rTLY_CWIN_SEL) 3 0)).ovf.setWidth 32)
  else if rTLY_CWIN_LO 0 ≤ off ∧ off < rTLY_CWIN_LO 8 ∧ (off - rTLY_CWIN_LO 0) % 8 = 0 then
    some ((tlyCnt s (fld (rg s rTLY_CWIN_SEL) 3 0) ((off - rTLY_CWIN_LO 0) / 8)).setWidth 32)
  else if rTLY_DEV_LO 0 ≤ off ∧ off < rTLY_DEV_LO 8 ∧ (off - rTLY_DEV_LO 0) % 16 = 0 then
    some ((tget 0 s.tly.dev ((off - rTLY_DEV_LO 0) / 16)).setWidth 32)
  else if rTLY_SWIN 0 ≤ off ∧ off < rTLY_SWIN 512 then
    let w := (off - rTLY_SWIN 0) / 8
    let sel := rg s rTLY_SWIN_SEL
    let r := (tlyCore s (fld sel 3 0)).buf.getD (128 * fld sel 8 4 + w / 4) (0, 0, 0, 0)
    let x := match w % 4 with | 0 => r.1 | 1 => r.2.1 | 2 => r.2.2.1 | _ => r.2.2.2
    some (if (off - rTLY_SWIN 0) % 8 < 4 then lo32 x else hi32 x)
  else none

/-- What the HI word of a counter window latches when its LO word is read (R39, R529). -/
def tlyHi (s : State) (off : Nat) : U32 :=
  if off < rTLY_DEV_CFG 0 then
    u32 ((tlyCnt s (fld (rg s rTLY_CWIN_SEL) 3 0) ((off - rTLY_CWIN_LO 0) / 8)).toNat / 2 ^ 32)
  else u32 ((tget 0 s.tly.dev ((off - rTLY_DEV_LO 0) / 16)).toNat / 2 ^ 32)

end Sys2Proof.Machine
end

