-- ==== Sys2Proof/Machine/Claim.lean ====
section
/-! DEFINITION. Claim, completion, moderation, software sources, idle and wake (R410 to R422). -/

namespace Sys2Proof.Machine

/-- The claim word of R417. -/
def claimWord (s : State) (k : Nat) : U64 :=
  let v := intSrc s k
  let lvl := srcLevel k
  u64 (srcId k + (if lvl then 0 else v.cnt * 2 ^ 16) + b2n v.sat * 2 ^ 24 +
       b2n (lvl && !srcInput s k) * 2 ^ 25 + b2n lvl * 2 ^ 26 + srcPrio s k * 2 ^ 32)

/-- A read of gxclaim by core `c` (R417, R421): a halted core claims nothing (R422). A claim of source 2 takes the scheduler's wake with it
(R428).
[DEDUCED: notes/assumptions/48] -/
def claim (c : Nat) (s : State) : State :=
  let h := core s c
  let pick := match presented s c, latchedFor s c with
    | some k, some l => some (if before s k l then k else l)
    | some k, none => some k
    | none, l => l
  match (if h.halted then none else pick) with
  | none => { s with rdata := 0x7FF }
  | some k =>
    let w := claimWord s k
    let spur := srcLevel k && !srcInput s k
    let s := setIntSrc s k { intSrc s k with cnt := 0, sat := false, active := true }
    let lat := if h.latched = some k then none else h.latched
    let s := setCore s c { core s c with stack := (srcId k, srcPrio s k) :: h.stack, latched := lat,
                                         tskWake := h.tskWake && k != prvKey c 2 }
    let s := tlyCount c 0x17 { s with rdata := w }
    if spur then report (setEvt (count s rINT_SPUR_CNT) rINT_EVT (bitv 1)) (srcBlk 5 c) 0x0141 else s

/-- The key of the source with an ID on core `c`. -/
def keyOf (c id : Nat) : Nat := if id < 64 then prvKey c id else id

/-- A write of gxclaim by core `c` (R418): completes the top source, or is out of order. -/
def complete (c : Nat) (v : U64) (s : State) : State :=
  let h := core s c
  let top := h.stack.head?
  if top.map (·.1) = some v.toNat then
    let k := keyOf c v.toNat
    let m := srcMod s k
    let hold := if m = 0 then none else some (now s + 256 * m)
    let s := setIntSrc s k { intSrc s k with active := false, hold := hold }
    latchCore (setCore s c { core s c with stack := h.stack.tail }) c
  else
    let top := match top with | some t => t.1 | none => 0
    let w := pack [(0, v.toNat % 0x800), (12, c), (16, top)]
    report (setEvt (wr (count s rINT_OOO_CNT) rINT_OOO_LAST w) rINT_EVT (bitv 0)) (srcBlk 5 c) 0x0140

def execIntClaim (c : Fin 16) (s : State) : Host.Outcome State Fault Refusal := .next (claim c s)
def execIntComplete (c : Fin 16) (v : U64) (s : State) : Host.Outcome State Fault Refusal := .next (complete c v s)

/-- An event on a source: an edge counts, a level source whose input is asserted is presented (R413, R416). -/
def sourceEvent (k : Nat) (s : State) : State :=
  if srcLevel k then (if srcInput s k then latchCore s (srcRoute s k) else s) else intEdge s k

/-- A shared source by its ID, or a private source of core `c`. -/
def execIntSourceEvent (c : Fin 16) (id : Fin 1088) (s : State) : Host.Outcome State Fault Refusal :=
  .next (sourceEvent (keyOf c id) s)

/-- The hold of a source ends (R420): time reaches its end, and the source may be presented. -/
def holdExpire (k : Nat) (s : State) : State :=
  match (intSrc s k).hold with
  | none => s
  | some t =>
    let s := advanceTo s t
    latchCore (setIntSrc s k { intSrc s k with hold := none }) (srcRoute s k)

def execModHoldExpire (c : Fin 16) (id : Fin 1088) (s : State) : Host.Outcome State Fault Refusal :=
  .next (holdExpire (keyOf c id) s)

/-- A write of gxtimecmp re-evaluates TIMER (R414). -/
def timecmpWrite (c : Nat) (v : U64) (s : State) : State :=
  latchCore (setCore s c { core s c with timecmp := v }) c

def execGxtimecmpWrite (c : Fin 16) (v : U64) (s : State) : Host.Outcome State Fault Refusal := .next (timecmpWrite c v s)

/-- Time reaches gxtimecmp of core `c` and TIMER asserts (R414). -/
def execTimerExpire (c : Fin 16) (s : State) : Host.Outcome State Fault Refusal :=
  .next (latchCore (advanceTo s (core s c).timecmp.toNat) c)

/-- A write of gxlset pends a LOCAL source (R410). -/
def lset (c : Nat) (v : U64) (s : State) : State :=
  if 16 ≤ v.toNat ∧ v.toNat ≤ 63 then intEdge s (prvKey c v.toNat) else s

def execGxlsetWrite (c : Fin 16) (v : U64) (s : State) : Host.Outcome State Fault Refusal := .next (lset c v s)

/-- A write of INT_SSET pends a software source (R424). -/
def sset (v : U32) (s : State) : State :=
  let i := fld v 10 0
  if 512 ≤ i ∧ i ≤ 1087 then intEdge s i else s

/-- A write of INT_SWI pends SWI on the named cores (R424). -/
def swi (v : U32) (s : State) : State := intEdges s ((idxs 16 (bit v)).map (fun c => prvKey c 0))

def execIntSsetWrite (bus : Bus) (v : U32) (s : State) : Host.Outcome State Fault Refusal :=
  coreOnlyWrite bus rINT_SSET v (sset v) s
def execIntSwiWrite (bus : Bus) (v : U32) (s : State) : Host.Outcome State Fault Refusal :=
  coreOnlyWrite bus rINT_SWI v (swi v) s

/-- Does a wake condition hold for core `c` (R411). -/
def wakeCond (s : State) (c : Nat) : Bool := (presented s c).isSome || (core s c).tskWake || (core s c).halted

/-- The moderation holds of the sources of an idle core end (R420). [DEDUCED: notes/assumptions/48] -/
def holdsEnd (c : Nat) (s : State) : State :=
  (s.ints.map (·.1)).foldl (fun s k => if srcRoute s k = c then setIntSrc s k { intSrc s k with hold := none } else s) s

/-- WFI on core `c` (R412): wake wins. Once the core is idle, no hold delays what is presented to it (R420). -/
def wfi (c : Nat) (s : State) : State :=
  let h := core s c
  if wakeCond s c then setCore s c { h with tskWake := false }
  else latchCore (holdsEnd c (setCore s c { coreTick s h with idle := true, deep := h.deepCfg })) c

def execWfi (c : Fin 16) (s : State) : Host.Outcome State Fault Refusal := .next (wfi c s)

/-! ### Traps (R404) -/

/-- A trap into M mode (R404): the RISC-V privileged architecture's entry, which the spec takes by naming RV64GC
[PRESUMED: notes/assumptions/12; DEDUCED: notes/assumptions/38] -/
def coreTrap (c cause : Nat) (tval : U64) (s : State) : State :=
  let s := tlyCount c 0x1A s
  let h := core s c
  let st := tget 0 h.csr 0x300
  let st' := u64 ((st.toNat - fld st 3 3 * 8 - fld st 7 7 * 128 - fld st 12 11 * 2048) + fld st 3 3 * 128 + h.priv * 2048)
  let csr := [(0x341, h.pc), (0x342, u64 cause), (0x343, tval), (0x300, st')].foldl (fun t p => tset 0 t p.1 p.2) h.csr
  setCore s c { coreTick s h with csr := csr, pc := u64 ((tget 0 h.csr 0x305).toNat / 4 * 4), priv := 3 }

/-- Would core `c` take the machine external interrupt (R404; PRESUMED of the RISC-V privileged architecture).
[PRESUMED: notes/assumptions/12] -/
def irqTaken (s : State) (c : Nat) : Bool :=
  let h := core s c
  (presented s c).isSome && bit (tget 0 h.csr 0x304) 11 && (h.priv == 0 || bit (tget 0 h.csr 0x300) 3)

/-- The entry of the machine external interrupt; a vectored mtvec adds 4 × 11.
[PRESUMED: notes/assumptions/12] -/
def irqTrap (c : Nat) (s : State) : State :=
  let s := coreTrap c (2 ^ 63 + 11) 0 s
  if bit (tget 0 (core s c).csr 0x305) 0 then setCore s c { core s c with pc := (core s c).pc + 44 } else s

/-- Core `c` runs again after a wake. -/
def awake (c : Nat) (s : State) : State :=
  setCore s c { coreTick s (core s c) with idle := false, deep := false, tskWake := false }

/-- A wake condition wakes an idle core, which takes the interrupt first where it is enabled (R411, R412). -/
def coreWake (c : Nat) (s : State) : State :=
  if (core s c).idle && wakeCond s c then
    let s := awake c s
    if irqTaken s c then irqTrap c s else s
  else s

def execCoreWake (c : Fin 16) (s : State) : Host.Outcome State Fault Refusal := .next (coreWake c s)

end Sys2Proof.Machine
end

