-- ==== Sys2Proof/Machine/Tsk.lean ====
section
/-! DEFINITION. The hardware task scheduler: threads, the per-core port, and the command store with its ordered flows
(15_task_scheduler.md). Releasing an item runs its command and stands in Commands.lean. -/

namespace Sys2Proof.Machine

def tcb (s : State) (i : Nat) : Tcb := tget {} s.tsk.tcbs i
def port (s : State) (c : Nat) : TskPort := tget {} s.tsk.ports c
def item (s : State) (i : Nat) : Item := tget {} s.tsk.items i
def flow (s : State) (f : Nat) : Flow := tget {} s.tsk.flows f
def setTcb (s : State) (i : Nat) (v : Tcb) : State := { s with tsk := { s.tsk with tcbs := tset {} s.tsk.tcbs i v } }
def setPort (s : State) (c : Nat) (v : TskPort) : State :=
  { s with tsk := { s.tsk with ports := tset {} s.tsk.ports c v } }
def setItem (s : State) (i : Nat) (v : Item) : State := { s with tsk := { s.tsk with items := tset {} s.tsk.items i v } }
def setFlow (s : State) (f : Nat) (v : Flow) : State := { s with tsk := { s.tsk with flows := tset {} s.tsk.flows f v } }

/-- STATUS values (R442). -/
def tOk : Nat := 0
def tNone : Nat := 1
def tBadIdx : Nat := 2
def tBadState : Nat := 3
def tNoTcb : Nat := 4
def tBadArg : Nat := 5
def tNotOwner : Nat := 6
def tBadOp : Nat := 7

/-- The result of an operation on core `c`'s port (R441). -/
def tskRes (c st idx prio : Nat) (hi : U32) (s : State) : State :=
  setPort s c { port s c with resLo := pack [(0, st), (4, idx), (16, prio)], resHi := hi }

/-- A failed operation: the result, the count, the record and the report, and nothing else (R430). -/
def tskFail (c op idx st : Nat) (s : State) : State :=
  let s := tskRes c st 0 0 0 s
  let s := wr (count s rTSK_ERR_CNT) rTSK_ERR_LAST (pack [(0, st), (4, op), (8, c), (12, idx)])
  report (setEvt s rTSK_EVT (bitv 0)) (srcBlk 4 (1 + c)) 0x0100

/-- Pend source 2 of a core: the wake of R411 for a thread or an item. -/
def tskPend (c : Nat) (s : State) : State :=
  intEdge (setCore s c { core s c with tskWake := true }) (prvKey c 2)

/-! ### Threads -/

/-- PRIO of the thread that core `c` runs. -/
def runPrio (s : State) (c : Nat) : Option Nat := (port s c).cur.map (fun t => (tcb s t).prio)

/-- The target core of a thread that becomes READY (R428). [DEDUCED: notes/assumptions/44] -/
def targetCore (s : State) (t : Tcb) : Option Nat :=
  let ok (c : Nat) : Bool := t.aff.getLsbD c
  let lower (c : Nat) : Bool := match runPrio s c with | some p => decide (p < t.prio) | none => false
  if ok t.last && ((core s t.last).idle || lower t.last) then some t.last
  else
    match (List.range 16).find? (fun c => ok c && (core s c).idle) with
    | some c => some c
    | none =>
      ((List.range 16).filter (fun c => ok c && lower c)).foldl
        (fun b c => match b with
          | none => some c
          | some x => if (runPrio s c).getD 64 < (runPrio s x).getD 64 then some c else some x) none

/-- Apply R428 to a READY thread. -/
def readyTarget (t : Nat) (s : State) : State :=
  match targetCore s (tcb s t) with
  | none => s
  | some c =>
    let p := port s c
    tskPend c (if p.cur.isSome then setPort s c { p with whyPre := true } else s)

/-- A thread becomes READY at the tail of its list (R427). -/
def makeReady (t : Nat) (s : State) : State :=
  let s := setTcb s t { tcb s t with st := 2 }
  readyTarget t { s with tsk := { s.tsk with ready := s.tsk.ready.filter (· != t) ++ [t] } }

/-- Is thread `a` chosen before thread `b` by core `c` (R427); `a` stands behind `b` in the lists. -/
def dispatchBefore (s : State) (c a b : Nat) : Bool :=
  let x := tcb s a; let y := tcb s b
  decide (y.prio < x.prio) || (decide (x.prio = y.prio) && decide (x.last = c) && decide (y.last ≠ c))

/-- The thread TSK gives to core `c` (R427). -/
def dispatchPick (s : State) (c : Nat) : Option Nat :=
  (s.tsk.ready.filter (fun t => (tcb s t).aff.getLsbD c)).foldl
    (fun b t => match b with
      | none => some t
      | some x => if dispatchBefore s c t x then some t else some x) none

/-- Dispatch on core `c` (R427). -/
def dispatch (c : Nat) (s : State) : State :=
  match dispatchPick s c with
  | none => tskRes c tNone 0 0 0 (setPort s c { port s c with cur := none })
  | some t =>
    let v := tcb s t
    let s := setTcb s t { v with st := 3, last := c }
    let s := { s with tsk := { s.tsk with ready := s.tsk.ready.filter (· != t) } }
    tskRes c tOk t v.prio (lo32 v.token) (setPort s c { port s c with cur := some t })

/-- An uncorrectable ECC error in a TCB (R438): it leaves its list and becomes BLOCKED, and only FREE mends it. -/
def tcbEcc (i : Nat) (s : State) : State :=
  let s := setTcb { s with tsk := { s.tsk with ready := s.tsk.ready.filter (· != i) } } i { tcb s i with st := 1, dead := true }
  report (setEvt s rTSK_EVT (bitv 4)) (srcBlk 4 0) 0x0104

/-- The TCB, if any, that an operation finds in error. -/
def tcbBad (bad : Option (Fin 4096)) (s : State) : State := match bad with | some i => tcbEcc i s | none => s

/-- ALLOC (R430). -/
def opAlloc (c prio : Nat) (s : State) : State :=
  match (List.range 4096).find? (fun i => (tcb s i).st == 0) with
  | none => tskFail c 1 0 tNoTcb s
  | some i =>
    let p := port s c
    tskRes c tOk i 0 0 (setTcb s i { st := 1, prio := prio, aff := 0xFFFF, token := join64 p.argLo p.argHi })

/-- FREE (R430). -/
def opFree (c i : Nat) (s : State) : State :=
  if (tcb s i).st = 1 then tskRes c tOk 0 0 0 (setTcb s i {}) else tskFail c 2 i tBadState s

/-- WAKE (R430, R438). -/
def opWake (c i : Nat) (s : State) : State :=
  let t := tcb s i
  if t.dead || decide (t.st = 0) then tskFail c 3 i tBadState s
  else if t.st = 1 then tskRes c tOk 0 0 0 (makeReady i s)
  else tskRes c tOk 0 0 0 (setTcb s i { t with wakePend := true })

/-- SWITCH (R430); a DISP of 3 is no disposition of the table and is BAD_ARG. A thread whose TCB met an uncorrectable ECC error while it ran
stays BLOCKED (R438).
[DEDUCED: notes/assumptions/44] -/
def opSwitch (c disp : Nat) (s : State) : State :=
  match (port s c).cur with
  | none => tskFail c 4 0 tBadState s
  | some t =>
    let v := tcb s t
    let free := setPort s c { port s c with cur := none }
    match disp with
    | 0 => dispatch c (if v.dead then free else makeReady t free)
    | 1 => if v.wakePend && !v.dead then dispatch c (makeReady t (setTcb free t { v with wakePend := false }))
           else dispatch c (setTcb free t { v with st := 1 })
    | 2 => dispatch c (setTcb free t {})
    | _ => tskFail c 4 0 tBadArg s

/-- NEXT (R430). -/
def opNext (c : Nat) (s : State) : State :=
  if (port s c).cur.isSome then tskFail c 5 0 tBadState s else dispatch c s

/-- SET_PRIO (R430). [DEDUCED: notes/assumptions/44] -/
def opSetPrio (c i prio : Nat) (s : State) : State :=
  let t := tcb s i
  if t.st = 0 then tskFail c 6 i tBadState s
  else
    let s := setTcb s i { t with prio := prio }
    tskRes c tOk 0 0 0 (if t.st = 2 then makeReady i s else s)

/-- SET_AFF (R430). [DEDUCED: notes/assumptions/44] -/
def opSetAff (c i : Nat) (s : State) : State :=
  let t := tcb s i
  let m := (port s c).argLo.setWidth 16
  if m = 0 then tskFail c 7 i tBadArg s
  else if t.st = 0 then tskFail c 7 i tBadState s
  else tskRes c tOk 0 0 0 (setTcb s i { t with aff := m })

/-- TOKEN_HI (R430). -/
def opTokenHi (c i : Nat) (s : State) : State := tskRes c tOk 0 0 (hi32 (tcb s i).token) s

/-! ### The command store and its flows -/

/-- The items of flow `f` in the store. -/
def flowItems (s : State) (f : Nat) : List Nat :=
  (s.tsk.items.filter (fun p => p.2.used && p.2.id.flow == f)).map (·.1)

/-- Is the item inside its flow's reorder window (R433). -/
def inWindow (s : State) (it : Item) : Bool := decide (it.arr < (flow s it.id.flow).oldest + 256)

/-- Is the item takeable by core `c` (R433). -/
def takeable (s : State) (c : Nat) (it : Item) : Bool :=
  it.used && it.owner.isNone && bit (rg s rTSK_CFG) c && inWindow s it

/-- Wake the idle cores that may take commands (R433). -/
def takeableWake (s : State) : State :=
  (List.range 16).foldl
    (fun s c => if bit (rg s rTSK_CFG) c && (core s c).idle then
        tskPend c (setPort s c { port s c with whyCmd := true }) else s) s

/-- The window of flow `f` closes over an item outside it (R436). -/
def windowClose (f : Nat) (s : State) : State :=
  let v := flow s f
  if v.closed then s
  else
    report (setEvt (count (setFlow s f { v with closed := true }) rTSK_FULL_CNT) rTSK_EVT (bitv 1))
      (srcBlk 4 (32 + f)) 0x0101

/-- A verified envelope enters its flow (R431, R432); none where the store is full. -/
def enterItem (id : CmdId) (op : Nat) (bytes : Bytes) (s : State) : Option State :=
  match (List.range 1024).find? (fun i => !(item s i).used) with
  | none => none
  | some i =>
    let v := flow s id.flow
    let it : Item := { used := true, id := { id with ord := s.cmd.ord }, op := op, bytes := bytes, arr := v.next }
    let s := setItem (setFlow s id.flow { v with next := v.next + 1 }) i it
    let s := { s with cmd := { s.cmd with ord := s.cmd.ord + 1 } }
    some (if inWindow s it then takeableWake s else windowClose id.flow s)

/-- The store is full: verification waits (R432). -/
def storeFull (s : State) : State := report (setEvt s rTSK_EVT (bitv 2)) (srcBlk 4 0) 0x0102

/-- TAKE (R433): the lowest command ring first, then the one verified first. -/
def opTake (c : Nat) (s : State) : State :=
  let pick := (s.tsk.items.filter (fun p => takeable s c p.2)).foldl
    (fun b p => match b with
      | none => some p
      | some q => if p.2.id.ring < q.2.id.ring ∨ (p.2.id.ring = q.2.id.ring ∧ p.2.id.ord < q.2.id.ord) then some p else some q)
    (none : Option (Nat × Item))
  match pick with
  | none => tskRes c tNone 0 0 0 s
  | some (i, it) =>
    let v := flow s it.id.flow
    let s := setFlow s it.id.flow { v with taken := max v.taken (it.arr + 1) }
    let s := setItem s i { it with owner := some c, takenAt := now s }
    tskRes c tOk i 0 (pack [(0, it.id.flow), (6, it.id.ring), (8, it.arr % 2 ^ 24)]) s

/-- RELEASE (R434): mark a taken item done; a DISP of 3 is BAD_ARG. [DEDUCED: notes/assumptions/44] -/
def opRelease (c i disp : Nat) (s : State) : State :=
  let it := item s i
  let p := port s c
  if 1024 ≤ i then tskFail c 9 i tBadIdx s
  else if !it.used || it.owner.isNone then tskFail c 9 i tBadState s
  else if it.owner ≠ some c then tskFail c 9 i tNotOwner s
  else if it.done.isSome then tskFail c 9 i tBadState s
  else if disp = 3 then tskFail c 9 i tBadArg s
  else tskRes c tOk 0 0 0 (setItem s i { it with done := some (disp, fld p.argLo 15 0, p.argHi) })

/-- The operation a store to TSK_OP names (R430, R441). -/
def tskOp (c : Nat) (v : U32) (s : State) : State :=
  let i := fld v 15 4
  match fld v 3 0 with
  | 1 => opAlloc c (fld v 21 16) s
  | 2 => opFree c i s
  | 3 => opWake c i s
  | 4 => opSwitch c (fld v 23 22) s
  | 5 => opNext c s
  | 6 => opSetPrio c i (fld v 21 16) s
  | 7 => opSetAff c i s
  | 8 => opTake c s
  | 9 => opRelease c i (fld v 23 22) s
  | 10 => opTokenHi c i s
  | op => tskFail c op i tBadOp s

/-- Load the port's arguments, as the operation needs them (R429). -/
def withArg (c : Nat) (lo hi : U32) (s : State) : State := setPort s c { port s c with argLo := lo, argHi := hi }

def execTskAlloc (c : Fin 16) (prio : Fin 64) (lo hi : U32) (s : State) : Host.Outcome State Fault Refusal :=
  .next (opAlloc c prio (withArg c lo hi s))
def execTskFree (c : Fin 16) (i : Fin 4096) (s : State) : Host.Outcome State Fault Refusal := .next (opFree c i s)
def execTskWake (c : Fin 16) (i : Fin 4096) (s : State) : Host.Outcome State Fault Refusal := .next (opWake c i s)
def execTskSwitch (c : Fin 16) (disp : Fin 4) (bad : Option (Fin 4096)) (s : State) : Host.Outcome State Fault Refusal :=
  .next (opSwitch c disp (tcbBad bad s))
def execTskNext (c : Fin 16) (bad : Option (Fin 4096)) (s : State) : Host.Outcome State Fault Refusal :=
  .next (opNext c (tcbBad bad s))
def execTskSetPrio (c : Fin 16) (i : Fin 4096) (prio : Fin 64) (s : State) : Host.Outcome State Fault Refusal :=
  .next (opSetPrio c i prio s)
def execTskSetAff (c : Fin 16) (i : Fin 4096) (lo : U32) (s : State) : Host.Outcome State Fault Refusal :=
  .next (opSetAff c i (withArg c lo (port s c).argHi s))
def execTskTake (c : Fin 16) (s : State) : Host.Outcome State Fault Refusal := .next (opTake c s)
def execTskRelease (c : Fin 16) (i : Fin 4096) (disp : Fin 4) (lo hi : U32) (s : State) :
    Host.Outcome State Fault Refusal := .next (opRelease c i disp (withArg c lo hi s))
def execTskTokenHi (c : Fin 16) (i : Fin 4096) (s : State) : Host.Outcome State Fault Refusal := .next (opTokenHi c i s)

/-- `op` is an OP value that R430 does not list; one that it does list is that operation. -/
def execTskBadOp (c : Fin 16) (op : Fin 16) (i : Fin 4096) (s : State) : Host.Outcome State Fault Refusal :=
  .next (tskOp c (pack [(0, op.val), (4, i.val)]) s)

/-- An item stays taken longer than REL_MAX µs (R437): raised once per item. -/
def relTimeout (i : Nat) (s : State) : State :=
  let it := item s i
  let maxUs := max 1 (fld (rg s rTSK_CFG) 31 16)
  if it.used && it.owner.isSome && it.done.isNone && !it.timedOut then
    let s := advanceTo s (it.takenAt + maxUs * 625 / 2 + 1)
    let s := setItem s i { it with timedOut := true }
    report (setEvt s rTSK_EVT (bitv 3)) (srcBlk 4 (32 + it.id.flow)) 0x0103
  else s

def execRelTimeout (i : Fin 1024) (s : State) : Host.Outcome State Fault Refusal := .next (relTimeout i s)

/-- TSK registers that show structured state (R440, R441), as core `c` or the host reads them; any core reads an item while it is taken (R432). -/
def tskRead (s : State) (c : Option Nat) (off : Nat) : Option U32 :=
  if off = rTSK_STAT then
    some (pack [(0, s.tsk.ready.length), (16, (s.tsk.items.filter (fun p => p.2.used)).length)])
  else if off = rTSK_VIEW then
    let t := tcb s (fld (rg s rTSK_VIEW_SEL) 11 0)
    some (pack [(0, t.st), (2, b2n t.wakePend), (3, t.prio), (9, t.last), (16, t.aff.toNat)])
  else if 0x00400100 ≤ off ∧ off ≤ 0x0040011C then
    match c with
    | none => some 0
    | some c =>
      let p := port s c
      if off = rTSK_RES_LO then some p.resLo
      else if off = rTSK_RES_HI then some p.resHi
      else if off = rTSK_WHY then some (pack [(0, b2n p.whyPre), (1, b2n p.whyCmd)])
      else if off = rTSK_CUR then some (match p.cur with | some t => pack [(0, t), (12, 1)] | none => 0)
      else some 0
  else if 0x00401000 ≤ off ∧ off < 0x00401200 then
    let f := (off - 0x00401000) / 8
    let v := flow s f
    some (if off % 8 = 0 then pack [(0, v.taken - v.oldest), (16, (flowItems s f).length)] else u32 v.oldest)
  else if 0x00480000 ≤ off ∧ off < 0x00500000 then
    let it := item s ((off - 0x00480000) / 512)
    some (if c.isSome && it.owner.isSome then u32 (rd it.bytes (off % 512) 4) else 0)
  else none

end Sys2Proof.Machine
end

