-- ==== Sys2Proof/Machine/Auth.lean ====
section
/-! DEFINITION. The command authenticator: the vault, key slots, sessions, the verification orders of R96, R98 and R99,
refusals, register key installs and tamper (03_zetur_authentication.md). -/

namespace Sys2Proof.Machine

/-! ### Envelope fields (R80) -/

def eKind (b : Bytes) : Nat := rd b 1 1
def eOp (b : Bytes) : Nat := rd b 2 2
def eLen (b : Bytes) : Nat := rd b 4 2
def eFlow (b : Bytes) : Nat := rd b 6 1 % 64
def eSeq (b : Bytes) : U64 := u64 (rd b 8 8)
def eSid (b : Bytes) : U32 := u32 (rd b 16 4)
def eEpoch (b : Bytes) : Nat := rd b 24 8

/-- The header rules of R80 shared by every KIND. -/
def headerOk (b : Bytes) : Bool :=
  rd b 0 1 == 1 && decide (rd b 6 1 < 64) && zeros b 7 1 && zeros b 20 4 && eSid b != 0

/-- Step 1 of R96 for a KIND 0x00 envelope (R81). -/
def commandFormat (b : Bytes) : Bool :=
  headerOk b && eKind b == 0 && decide (eLen b ≤ 192) && zeros b (32 + eLen b) (192 - eLen b)

/-- Step 1 for a KIND 0x02 envelope (R99). -/
def firmwareFormat (b : Bytes) : Bool := headerOk b && eKind b == 2 && eLen b == 352

/-- BAD_FORMAT of a session-open (R91, R98). [DEDUCED: notes/assumptions/24] -/
def openFormat (b : Bytes) : Bool :=
  headerOk b && eKind b == 1 && eLen b == 352 && eOp b == 0 && rd b 32 2 == 1 && decide (rd b 35 1 ≤ 3) &&
  slice b 36 4 == slice b 16 4 && zeros b 276 108

/-! ### Vault and sessions -/

/-- The vault states (R111): 0 BLANK, 1 PROVISION, 2 READY, 3 ZEROISED, 4 FAILED. -/
def vaultUsable (s : State) : Bool := s.std.vault == 1 || s.std.vault == 2

def keySlot (s : State) (i : Nat) : KeySlot := tget {} s.std.slots i
def setKeySlot (s : State) (i : Nat) (v : KeySlot) : State :=
  { s with std := { s.std with slots := tset {} s.std.slots i v } }

/-- STATE of a slot (R83): 0 EMPTY, 1 ACTIVE, 2 REVOKED, 3 DEAD. -/
def slotState (k : KeySlot) : Nat :=
  if 16 ≤ k.revCnt then 3
  else match k.key with
    | none => 0
    | some _ => if k.gen = k.revCnt then 1 else 2

/-- Is the slot usable for grants and firmware (R83). -/
def slotActive (s : State) (i : Nat) : Bool := decide (i < 8) && slotState (keySlot s i) == 1

/-- The record of a session ID. -/
def findSession (s : State) (id : U32) : Option (Nat × Session) :=
  s.aut.sess.find? (fun p => p.2.used && p.2.id == id)

def setSession (s : State) (i : Nat) (v : Session) : State :=
  { s with aut := { s.aut with sess := tset {} s.aut.sess i v } }

/-- Close every session that a key slot granted (R84); an expired one keeps its record. -/
def closeGranted (i : Nat) (s : State) : State :=
  { s with aut := { s.aut with sess := s.aut.sess.filter (fun p => !(p.2.slot == i && !sessExpired s p.2)) } }

/-- The private key, which only the key-encryption key in the key-protection storage decrypts (R85). -/
def devKey (s : State) : Option Nat :=
  match s.std.devPriv with
  | some w => if w.kek = s.std.keyProt then some w.key else none
  | none => none

/-- The public key of the device (R85). -/
def devPub (s : State) : Bytes := match s.std.devPriv with | some w => p384Public w.key | none => List.replicate 96 0

/-! ### Refusals (R101) -/

/-- What identifies the command of a staged envelope. -/
def stagedId (e : Staged) : CmdId :=
  { ring := e.ring, gen := e.gen, slot := e.slot, seq := eSeq e.bytes, session := eSid e.bytes, flow := eFlow e.bytes,
    epochReq := eEpoch e.bytes }

/-- Refuse an envelope: completion, count, record, sticky bit and report. -/
def refuse (e : Staged) (st : Nat) (s : State) : State :=
  let s := postCpl s (mkCpl (stagedId e) (eOp e.bytes) cRefused st 0)
  let s := wr (count s rAUT_REFUSE_CNT) rAUT_REFUSE_LAST (pack [(0, st), (16, e.ring)])
  report (setEvt s rAUT_EVT (bitv 3)) (srcBlk 2 0) 0x0080

/-! ### KIND 0x00 and the common steps (R96, R97) -/

/-- Steps 2 to 7 of R96 on an envelope whose MAC covers its first `n` bytes: the refusal, or the session record. -/
def commonChecks (s : State) (e : Staged) (n : Nat) : Nat ⊕ (Nat × Session) :=
  if !vaultUsable s then .inl rfVault
  else match findSession s (eSid e.bytes) with
    | none => .inl rfNoSession
    | some (i, v) =>
      if sessExpired s v then .inl rfExpired
      else if v.ring ≠ e.ring then .inl rfWrongRing
      else if hmacSha256 v.key (slice e.bytes 0 n) ≠ slice e.bytes n 32 then .inl rfBadMac
      else if (eSeq e.bytes).toNat ≤ v.lastSeq.toNat then .inl rfSeqOld
      else .inr (i, v)

/-- Step 7 passes: LAST_SEQ takes SEQ, and the last sequence number ends the session (R95, R97). -/
def takeSeq (e : Staged) (i : Nat) (v : Session) (s : State) : State :=
  if eSeq e.bytes = 0xFFFFFFFFFFFFFFFF then { s with aut := { s.aut with sess := tdel i s.aut.sess } }
  else setSession s i { v with lastSeq := eSeq e.bytes }

/-- Take an envelope out of staging. -/
def unstage (e : Staged) (s : State) : State :=
  { s with hst := { s.hst with stage := s.hst.stage.erase e } }

/-- Is every item slot of the command store in use (R432). -/
def storeIsFull (s : State) : Bool := decide (1024 ≤ (s.tsk.items.filter (fun p => p.2.used)).length)

/-- Verify a KIND 0x00 envelope, or one of no known KIND, which fails step 1 (R96). -/
def verifyCommand (e : Staged) (s : State) : State :=
  let b := e.bytes
  if storeIsFull s then storeFull s
  else
    let s := unstage e s
    if !commandFormat b then refuse e rfBadFormat s
    else match commonChecks s e 224 with
      | .inl st => refuse e st s
      | .inr (i, v) =>
        let s := takeSeq e i v s
        match opcodeClass (eOp b) with
        | none => refuse e rfOpcode s
        | some c =>
          if eOp b = 0x0404 then refuse e rfOpcode s
          else if v.priv < c then refuse e rfPriv s
          else tlyDev 0x45 1 ((enterItem (stagedId e) (eOp b) b s).getD s)

/-- The signing slot that a firmware envelope names, as it stands; a slot above 7 is not usable. -/
def signerSlot (s : State) (b : Bytes) : KeySlot := if rd b 34 1 < 8 then keySlot s (rd b 34 1) else {}

/-- Steps 1 to 7 on a firmware envelope (R99), whose verification begins in fetch order (R62). Its signing slot counts as it stands now
(R103). [DEDUCED: notes/assumptions/24] -/
def beginFirmware (e : Staged) (s : State) : State :=
  if e.begun.isSome then s
  else
    let mark (st priv : Nat) (s : State) : State :=
      { s with hst := { s.hst with stage := s.hst.stage.map (fun x =>
          if x = e then { x with begun := some st, priv := priv, signer := signerSlot s e.bytes } else x) } }
    if !firmwareFormat e.bytes then mark rfBadFormat 0 s
    else match commonChecks s e 480 with
      | .inl st => mark st 0 s
      | .inr (i, v) => mark 0 v.priv (takeSeq e i v s)

/-- Does an undecided session-open with the same SESSION_ID stand before an envelope in fetch order (R102).
[DEDUCED: notes/assumptions/24] -/
def waitsForOpen (before : List Staged) (e : Staged) : Bool :=
  before.any (fun x => eKind x.bytes == 1 && eSid x.bytes == eSid e.bytes)

/-- The first staged envelope that `p` accepts and that no session-open holds back, with those before it. -/
def pickStaged (p : Staged → Bool) : List Staged → List Staged → Option (List Staged × Staged)
  | _, [] => none
  | before, e :: rest =>
    if p e && !waitsForOpen before e then some (before, e) else pickStaged p (before ++ [e]) rest

/-- ENVELOPE_VERIFY: firmware envelopes fetched earlier begin first (R62), then the next command envelope is checked. -/
def envelopeVerify (s : State) : State :=
  match pickStaged (fun e => eKind e.bytes != 1 && eKind e.bytes != 2) [] s.hst.stage with
  | none => s
  | some (before, e) =>
    let fw := before.filter (fun x => eKind x.bytes == 2)
    let fw := fw.filter (fun x => !waitsForOpen (before.takeWhile (· != x)) x)
    verifyCommand e (fw.foldl (fun s x => beginFirmware x s) s)

def execEnvelopeVerify (s : State) : Host.Outcome State Fault Refusal := .next (envelopeVerify s)

/-! ### Session-open (R91 to R95, R98) -/

/-- K_S of a session-open (R92). -/
def unwrapKey (s : State) (b : Bytes) : Option Bytes :=
  match devKey s with
  | none => none
  | some d =>
    match ecdhX d (slice b 120 96) with
    | none => none
    | some z =>
      let info : Bytes := [0x5A, 0x54, 0x52, 0x2D, 0x4B, 0x45, 0x4B, 0x00] ++ slice b 36 4
      gcmDecrypt (hkdfSha384 (slice b 40 16) z info 32) (slice b 216 12) (slice b 0 120) (slice b 228 32) (slice b 260 16)

/-- The record a new session takes: the lowest free one, else the expired one with the earliest NOT_AFTER (R95). -/
def sessionSlot (s : State) : Option Nat :=
  match (List.range 16).find? (fun i => !(tget {} s.aut.sess i).used) with
  | some i => some i
  | none =>
    ((List.range 16).filter (fun i => sessExpired s (tget {} s.aut.sess i))).foldl
      (fun b i => match b with
        | none => some i
        | some x => if (tget {} s.aut.sess i).notAfter.getD 0 < (tget {} s.aut.sess x).notAfter.getD 0 then some i else some x)
      none

/-- The checks of R98, in order: the refusal, or the record and key of the new session.
[DEDUCED: notes/assumptions/24] -/
def openChecks (s : State) (e : Staged) : Nat ⊕ (Nat × Bytes) :=
  let b := e.bytes
  let nb := rd b 56 8; let na := rd b 64 8
  let bounded := !(nb == 0 && na == 0)
  let now := s.std.rtcSec.toNat
  if !openFormat b then .inl rfBadFormat
  else if !vaultUsable s then .inl rfVault
  else if !slotActive s (rd b 34 1) then .inl rfAuthSlot
  else if sha384 (devPub s) ≠ slice b 72 48 then .inl rfDevkey
  else if leBytes 16 s.aut.chal.toNat ≠ slice b 40 16 then .inl rfChallenge
  else if !ecdsaVerify ((keySlot s (rd b 34 1)).key.getD []) (slice b 0 384) (slice b 384 96) then .inl rfSignature
  else if (keySlot s (rd b 34 1)).ceil < rd b 35 1 then .inl rfPrivCeil
  else if bounded && !s.std.rtcValid then .inl rfTimeUnknown
  else if bounded && decide (now < nb ∨ na < now) then .inl rfTimeWindow
  else if (findSession s (eSid b)).isSome then .inl rfBusy
  else match sessionSlot s with
    | none => .inl rfNoSlot
    | some i =>
      match unwrapKey s b with
      | none => .inl rfUnwrap
      | some k => if hmacSha256 k (slice b 0 480) ≠ slice b 480 32 then .inl rfSessionMac else .inr (i, k)

/-- Has a command envelope among those fetched before not begun its verification yet, though no session-open holds it back (R62, R96). -/
def commandWaits (before : List Staged) : Bool :=
  before.any (fun x => eKind x.bytes != 1 && eKind x.bytes != 2 && !waitsForOpen (before.takeWhile (· != x)) x)

/-- The public-key engine finishes the first session-open; it waits for DEVKEY_OK (R98) and for what was fetched before it to begin (R62). -/
def sessionOpenVerify (s : State) : State :=
  match s.hst.stage.find? (fun e => eKind e.bytes == 1) with
  | none => s
  | some e =>
    let before := s.hst.stage.takeWhile (fun e => eKind e.bytes != 1)
    if !s.aut.devkeyOk || commandWaits before then s
    else
      let s := unstage e (before.foldl (fun s x => beginFirmware x s) s)
      match openChecks s e with
      | .inl st => refuse e st s
      | .inr (i, k) =>
        let b := e.bytes
        let na := rd b 64 8
        let v : Session := { used := true, id := eSid b, key := k, priv := rd b 35 1,
                             notAfter := if rd b 56 8 = 0 ∧ na = 0 then none else some na, ring := e.ring,
                             slot := rd b 34 1, lastSeq := eSeq b }
        let (c, s) := draw Config.random s
        let s := setSession { s with aut := { s.aut with chal := c } } i v
        tlyDev 0x45 1 (postCpl s (mkCpl (stagedId e) 0 cDone stOk 0))

def execSessionOpenVerify (s : State) : Host.Outcome State Fault Refusal := .next (sessionOpenVerify s)

/-- The firmware body checks after step 7, in the order of R99; `priv` is the session's PRIV_MAX, `k` the signing slot. -/
def firmwareBody (s : State) (priv : Nat) (k : KeySlot) (b : Bytes) : Nat :=
  if eOp b ≠ 0x0404 then rfOpcode
  else if rd b 32 2 ≠ 1 ∨ !zeros b 104 280 then rfFwFormat
  else if slotState k ≠ 1 then rfAuthSlot
  else if !ecdsaVerify (k.key.getD []) (slice b 0 384) (slice b 384 96) then rfSignature
  else if k.ceil ≠ 3 then rfPrivCeil
  else if priv ≠ 3 then rfPriv
  else if rd b 35 1 ≠ 1 ∧ rd b 35 1 ≠ 2 then rfFwTarget
  else if rd b 48 8 < s.std.arb.toNat then rfFwRollback
  else 0

/-- FIRMWARE_ENVELOPE_VERIFY: steps 1 to 7 if not begun, in fetch order (R62), then the body; a passing envelope enters its flow (R99,
R431). -/
def firmwareVerify (s : State) : State :=
  match pickStaged (fun e => eKind e.bytes == 2) [] s.hst.stage with
  | none => s
  | some (before, e) =>
    if e.begun.isNone && commandWaits before then s
    else if storeIsFull s then storeFull s
    else
      let s := beginFirmware e s
      match s.hst.stage.find? (fun x => eKind x.bytes == 2 && x.begun.isSome && x.bytes == e.bytes && x.slot == e.slot) with
      | none => s
      | some e =>
        let st := e.begun.getD 0
        let st := if st ≠ 0 then st else firmwareBody s e.priv e.signer e.bytes
        let s := unstage e s
        if st ≠ 0 then refuse e st s else tlyDev 0x45 1 ((enterItem (stagedId e) (eOp e.bytes) e.bytes s).getD s)

def execFirmwareEnvelopeVerify (s : State) : Host.Outcome State Fault Refusal := .next (firmwareVerify s)

/-- The RTC passes a session's NOT_AFTER (R95): the record stays, its envelopes are refused from here on. A NOT_AFTER that 48 bits of
seconds cannot pass never expires. -/
def sessionExpire (i : Nat) (s : State) : State :=
  let v := tget {} s.aut.sess i
  match v.notAfter with
  | none => s
  | some t =>
    if !v.used || v.expired || decide (2 ^ 48 ≤ t + 1) then s
    else
      let s := { s with std := { s.std with rtcSec := BitVec.ofNat 48 (max s.std.rtcSec.toNat (t + 1)) } }
      setEvt (setSession s i { v with expired := true }) rAUT_EVT (bitv 4)

def execSessionExpire (i : Fin 16) (s : State) : Host.Outcome State Fault Refusal := .next (sessionExpire i s)

/-! ### Register key installs (R89) -/

/-- Is a TAMP input active: enabled and at its active level (R89). -/
def tampActive (s : State) : Bool :=
  let c := s.std.tampCfg
  (bit c 0 && s.std.tampPins.getLsbD 0 == bit c 2) || (bit c 1 && s.std.tampPins.getLsbD 1 == bit c 3)

/-- A write of AUT_AKEY_CMD (R89): COMMIT is ignored while an install is in progress. The spec does not say what ERR and ERR_CODE read while
BUSY is 1: the model clears them here. [DESIGN CHOICE: notes/assumptions/58] -/
def akeyCommit (v : U32) (s : State) : State :=
  if bit v 0 && s.aut.install.isNone then
    let sel := rg s rAUT_AKEY_SEL
    let key := (List.range 24).flatMap (fun k => leBytes 4 (rg s (rAUT_AKEY_DATA k)).toNat)
    { s with aut := { s.aut with install := some { slot := fld sel 2 0, ceil := fld sel 5 4, key := key }, akeyErr := 0 } }
  else s

def execAkeyCommitWrite (bus : Bus) (v : U32) (s : State) : Host.Outcome State Fault Refusal :=
  guardWrite s bus rAUT_AKEY_CMD v (akeyCommit v)

/-- The refusal code of an install (R89, R111), 0 for none. R89 gives the reasons no order: the model takes that of the codes.
[DESIGN CHOICE: notes/assumptions/58] -/
def installErr (s : State) (k : KeyInstall) (mramOk : Bool) : Nat :=
  if !p384On (keyPoint k.key) then 1
  else if s.std.vault == 2 || (decide (3 ≤ s.std.vault) && s.std.devNeed) then 2
  else if slotState (keySlot s k.slot) == 1 || slotState (keySlot s k.slot) == 3 then 3
  else if tampActive s then 4
  else if !mramOk then 5
  else 0

/-- The install in progress completes (R88, R89). [DEDUCED: notes/assumptions/24] -/
def installDone (mramOk : Bool) (s : State) : State :=
  match s.aut.install with
  | none => s
  | some k =>
    let err := installErr s k mramOk
    let s' := { s with aut := { s.aut with install := none, akeyErr := err } }
    if err ≠ 0 then s'
    else
      let o := keySlot s k.slot
      let s' := setKeySlot s' k.slot { o with key := some k.key, ceil := k.ceil, gen := o.revCnt }
      { s' with std := { s'.std with vault := 1, latch0 := false, latch1 := false } }

def execKeyInstallComplete (mramOk : Bool) (s : State) : Host.Outcome State Fault Refusal := .next (installDone mramOk s)

/-! ### Tamper and vault failure (R86, R106 to R108) -/

/-- Every session ends and the vault enters a state in which no envelope is accepted (R86, R95). The spec does not say whether DEVKEY_OK
falls: the model leaves it until the next reset, so that a session-open is refused with VAULT_NOT_READY and does not wait (R98, R108).
[DESIGN CHOICE: notes/assumptions/58] -/
def vaultEnter (st : Nat) (s : State) : State :=
  { s with std := { s.std with vault := st, devNeed := true }, aut := { s.aut with sess := [] } }

/-- The vault enters ZEROISED (R108). -/
def zeroise (s : State) : State := setEvt (vaultEnter 3 s) rAUT_EVT (bitv 1)

/-- The standby domain's part of a tamper latch: the latch, the key storage and the count (R106). -/
def tamperLatchStd (i : Nat) (d : Std) : Std :=
  { d with latch0 := d.latch0 || i == 0, latch1 := d.latch1 || i == 1, keyProt := keyCleared,
           tampCnt := if d.tampCnt = 0xFFFF then 0xFFFF else d.tampCnt + 1 }

/-- Is the latch of TAMP input `i` set. -/
def tampLatched (d : Std) (i : Nat) : Bool := if i = 0 then d.latch0 else d.latch1

/-- Does the second sample of TAMP input `i` set its latch (R106): enabled, at its active level, and not latched yet. -/
def tampLatches (i : Nat) (pins : BitVec 2) (d : Std) : Bool :=
  bit d.tampCfg i && pins.getLsbD i == bit d.tampCfg (2 + i) && !tampLatched d i

/-- The TAMP inputs have been at the levels `pins` for two samples, and input `i` latches if they are active (R106, R108). Where it does
not latch, only their levels are new: the table gives a change of level no row of its own.
[DESIGN CHOICE: notes/assumptions/58] -/
def tamperLatch (i : Nat) (pins : BitVec 2) (s : State) : State :=
  if !tampLatches i pins s.std then { s with std := { s.std with tampPins := pins } }
  else
    let s := { s with std := { tamperLatchStd i s.std with tampPins := pins } }
    if s.sys.por then { s with std := { s.std with lost := true } }
    else report (setEvt (zeroise s) rAUT_EVT (bitv 0)) (srcBlk 2 1) 0x0081

/-- VBAT falls below 1.6 V while the main supplies are off (R107): the key storage and the RTC are lost. R107 does not name the tamper
latches and their configuration: the model keeps them. [DESIGN CHOICE: notes/assumptions/14; DESIGN CHOICE: notes/assumptions/58] -/
def vbatLoss (s : State) : State :=
  if s.sys.por then
    let (w, s) := draw Config.freeWord s
    { s with std := { s.std with keyProt := keyCleared, rtcValid := false, rtcSec := w.setWidth 48, rtcFrac := w.setWidth 15, lost := true } }
  else s

def execVbatLoss (s : State) : Host.Outcome State Fault Refusal := .next (vbatLoss s)

/-- A vault record fails its integrity check (R86). -/
def execVaultIntegrityFail (s : State) : Host.Outcome State Fault Refusal :=
  .next (report (setEvt (vaultEnter 4 s) rAUT_EVT (bitv 2)) (srcBlk 2 1) 0x0082)

/-- A write of AUT_TAMP_CFG: only with the vault BLANK, PROVISION, ZEROISED or FAILED (R109). -/
def tampCfgWrite (v : U32) (s : State) : State :=
  if s.std.vault = 2 then s else { s with std := { s.std with tampCfg := v &&& 0xF } }

/-- The AUT registers that show structured state (R110, R111). -/
def autRead (s : State) (off : Nat) : Option U32 :=
  if off = rAUT_STAT then
    let busy := s.dbg.busy || s.hst.stage.any (fun e => eKind e.bytes == 2 || (eKind e.bytes == 1 && s.aut.devkeyOk))
    some (pack [(0, s.std.vault), (3, b2n s.aut.devkeyOk), (4, b2n s.std.rtcValid), (5, b2n busy),
                (8, (s.aut.sess.filter (fun p => p.2.used)).length)])
  else if 0x00200010 ≤ off ∧ off < 0x00200020 then
    some (u32 (s.aut.chal.toNat / 2 ^ (8 * (off - 0x00200010))))
  else if 0x00200040 ≤ off ∧ off < 0x002000A0 then some (u32 (rd (devPub s) (off - 0x00200040) 4))
  else if off = rAUT_AKEY_STAT then
    some (pack [(0, b2n s.aut.install.isSome), (1, b2n (s.aut.akeyErr != 0)), (4, s.aut.akeyErr)])
  else if 0x00200140 ≤ off ∧ off < 0x00200160 then
    let k := keySlot s ((off - 0x00200140) / 4)
    let tag := match k.key with | some b => beNat (slice (sha384 b) 0 2) | none => 0
    some (pack [(0, slotState k), (4, k.ceil), (8, k.revCnt), (16, tag)])
  else if off = rAUT_RTC_LO then some (u32 s.std.rtcSec.toNat)
  else if off = rAUT_ARB_LO then some (lo32 s.std.arb)
  else if off = rAUT_TAMP_CFG then some s.std.tampCfg
  else if off = rAUT_TAMP_STAT then
    some (pack [(0, b2n s.std.latch0), (1, b2n s.std.latch1), (2, s.std.tampPins.toNat), (16, s.std.tampCnt.toNat)])
  else none

end Sys2Proof.Machine
end

