-- ==== Sys2Proof/Machine/Snare.lean ====
section
/-! DEFINITION. Snare: signals and records, the trigger, acquisition, dump and re-arm, and the trigger bus (17_snare.md). -/

namespace Sys2Proof.Machine

/-- Records that the store holds, and one sixteenth of it (R470, R471). -/
def snrCap : Nat := 2097152
def snrSixteenth : Nat := 131072
def snrQueueCap : Nat := 8192

/-- A signal ID (R463). -/
def sigId (g i : Nat) : Nat := g * 2 ^ 19 + i

/-- Is a cell inside a cell window (R463, R482). -/
def inWin (w : U32) (c : Nat) : Bool := decide (fld w 13 0 ≤ c ∧ c < fld w 13 0 + min 1024 (fld w 26 16))

/-- Insert a record into the queue in the order of ticks, and of IDs within one tick (R464). -/
def snrInsert (r : SnrRec) : List SnrRec → List SnrRec
  | [] => [r]
  | x :: xs => if r.tick < x.tick ∨ x.tick = r.tick ∧ r.id < x.id then r :: x :: xs else x :: snrInsert r xs

/-- Count a lost record, which is a yield of rank 9 (R41, R42, R466). -/
def snrLose (s : State) : State :=
  let n := s.snr
  let s := { s with snr := { n with lostN := n.lostN + 1, drops := n.drops + 1 } }
  report (yieldCount (setEvt (count s rSNR_DROP) rSNR_EVT (bitv 4)) 9) (srcBlk 15 0) 0x03C2

/-- An event of a signal makes a record while Snare stores records and the group is recorded (R463, R470, R471).
[DEDUCED: notes/assumptions/18] -/
def snareRecord (t g i v : Nat) (s : State) : State :=
  let n := s.snr
  if (n.st = 1 ∨ n.st = 2) ∧ bit n.groups g ∧ n.armTick ≤ t then
    if n.queue.length < snrQueueCap then
      { s with snr := { n with queue := snrInsert { tick := t, id := sigId g i, value := v } n.queue } }
    else snrLose s
  else s

/-- A signal takes a value: a record where it changes (R463). -/
def snareSig (t g i v : Nat) (s : State) : State :=
  let v := v % 65536
  if tget 0 s.snr.sig (sigId g i) = v then s
  else snareRecord t g i v { s with snr := { s.snr with sig := tset 0 s.snr.sig (sigId g i) v } }

/-- A signal that is recorded at each of its events, changed or not (R463). -/
def snareEvent (t g i v : Nat) (s : State) : State :=
  let v := v % 65536
  snareRecord t g i v { s with snr := { s.snr with sig := tset 0 s.snr.sig (sigId g i) v } }

/-! ### The trigger (R467 to R469) -/

/-- Bit `k` of the trigger vector (R467). -/
def trigBit (s : State) (k : Nat) : Bool :=
  let w := rg s (rSNR_TSEL k)
  let id := fld w 23 0
  let g := id / 2 ^ 19
  let i := id % 2 ^ 19
  let seen := if g = 5 then inWin (rg s rSNR_CWIN_CMD) i else if g = 6 then inWin (rg s rSNR_CWIN_V) i else decide (g ≤ 15)
  seen && decide ((tget 0 s.snr.sig id / 2 ^ fld w 27 24) % 2 = 1)

def trigVec (s : State) : U64 := u64 (bitsOf 64 (trigBit s))

/-- The TRIG lines that changed and that the vector names (R469). -/
def changedLines (s : State) : List Nat :=
  (idxs 4 s.snr.lineChg.getLsbD).filter
    (fun l => (List.range 64).any (fun k => decide (fld (rg s (rSNR_TSEL k)) 23 0 = sigId 14 l)))

/-- Enter POST at tick `t` (R469, R472, R479). -/
def snareTrigger (t : Nat) (vec : U64) (s : State) : State :=
  let ls := changedLines s
  let dly := ls.foldl (fun a l => max a (fld (rg s (rSNR_TRIG_DLY l)) 7 0)) 0
  let tt := if ls.isEmpty then t else t - dly
  let n := s.snr
  let post := (n.recs.filter (fun r => decide (tt ≤ r.tick))).length
  let s := { s with snr := { n with
    st := 2, triggered := true, trigTick := tt, trigVec := vec, bus := !ls.isEmpty, post := post,
    tout := if bit (rg s rSNR_CFG) 2 then some (t + 67) else n.tout,
    toutLine := if bit (rg s rSNR_CFG) 2 then fld (rg s rSNR_CFG) 5 4 else n.toutLine,
    toutEnd := if bit (rg s rSNR_CFG) 2 then t + 67 else n.toutEnd } }
  setEvt s rSNR_EVT (bitv 0)

/-- Evaluate the pattern once every change of the tick has been applied (R467, R468).
[DEDUCED: notes/assumptions/46] -/
def snareEval (s : State) : State :=
  let n := s.snr
  if n.st = 0 then s
  else
    let vec := trigVec s
    let m := decide ((vec ^^^ n.tval) &&& n.tmask = 0)
    let trig := if bit (rg s rSNR_CFG) 0 then m else m && !n.matched
    let s := if trig then
        (if n.st = 1 then snareTrigger (now s) vec s
         else setEvt (count s rSNR_MISSED) rSNR_EVT (bitv 3))
      else s
    { s with snr := { s.snr with matched := m, lineChg := 0 } }

/-! ### Acquisition, dump, re-arm (R470 to R478) -/

/-- Enter ARMED at tick `t` with the last accepted values (R471, R475, R478). -/
def snareArmed (t : Nat) (s : State) : State :=
  let n := s.snr
  let m := decide ((trigVec s ^^^ n.tval) &&& n.tmask = 0)
  { s with snr := { n with
      st := 1, armTick := t, recs := [], queue := [], lastTick := t, lostN := 0, drops := 0, triggered := false,
      trigTick := 0, trigVec := 0, early := false, stopped := false, postTime := false, bus := false, post := 0, preN := 0,
      noAuto := false, matched := if bit (rg s rSNR_CFG) 0 then n.matched else m } }

/-- The buffer of the dump. -/
def dumpBase (s : State) : Nat := addr64 s rSNR_DUMP_BASE_LO rSNR_DUMP_BASE_HI

/-- The write that makes the COMMIT word of the dump invalid (R476). -/
def dumpInvalid (s : State) : HostWrite := ⟨dumpBase s, List.replicate 8 0xFF⟩

/-- The link goes down during a dump, or is down when it would start: abandoned (R477). -/
def dumpAbort (s : State) : State :=
  let s := { s with snr := { s.snr with st := 0 } }
  report (setEvt s rSNR_EVT (bitv 2)) (srcBlk 15 0) 0x03C0

/-- Does something of higher rank wait for the link (R66, R477). -/
def linkBusy (s : State) : Bool := linkDue s || !s.grn.pubs.isEmpty

/-- The dump waits, which counts once for each dump (R477). -/
def dumpWait (s : State) : State :=
  if s.snr.waited then s else yieldCount { s with snr := { s.snr with waited := true } } 9

/-- Snare enters DUMP (R472 to R477): the pre-history is cut to PRE_CAP, ACQ counts, and COMMIT is written invalid, at once or, where
the link is busy, ahead of the other writes of the dump.
[DEDUCED: notes/assumptions/46] -/
def snareDump (s : State) : State :=
  let n := s.snr
  let cap := if n.triggered then n.pre * snrSixteenth else snrCap
  let before := if n.triggered then n.recs.filter (fun r => decide (r.tick < n.trigTick)) else n.recs
  let after := if n.triggered then n.recs.filter (fun r => decide (n.trigTick ≤ r.tick)) else []
  let kept := before.drop (before.length - cap)
  let s := { s with snr := { n with
      st := 3, recs := kept ++ after, queue := [], preN := kept.length, post := after.length,
      early := n.triggered && decide (before.length < cap), acq := (n.acq + 1) % 2 ^ 32, missed := rg s rSNR_MISSED,
      dumpDue := false, waited := false } }
  if !s.hst.linkUp then dumpAbort s
  else if linkBusy s then dumpWait { s with snr := { s.snr with dumpDue := true } }
  else dmaWrite s [dumpInvalid s]

/-- Store one record (R464, R470, R473): circular in ARMED; in POST the record that fills the quota ends it. -/
def snrStore (r : SnrRec) (s : State) : State :=
  let n := s.snr
  let recs := if n.recs.length < snrCap then n.recs ++ [r] else n.recs.tail ++ [r]
  let isPost := decide (n.st = 2) && decide (n.trigTick ≤ r.tick)
  let post := n.post + b2n isPost
  let s := { s with snr := { n with recs := recs, lastTick := r.tick, post := post } }
  if n.st = 2 ∧ (16 - n.pre) * snrSixteenth ≤ post then snareDump s else s

/-- The first queued record is stored, with a DROP marker ahead of it where records were lost (R465, R466). -/
def snareRecordWrite (s : State) : State :=
  let n := s.snr
  match n.queue with
  | [] => s
  | r :: rest =>
    let s := { s with snr := { n with queue := rest, lostN := 0 } }
    let s := if 0 < n.lostN then snrStore { tick := r.tick, id := 0xFFFFFE, value := min n.lostN 0xFFFF } s else s
    if s.snr.st = 1 ∨ s.snr.st = 2 then snrStore r s else s

/-- The first record that waits is stored, if its tick lies before `t` and Snare stores records. -/
def snareDrain (t : Nat) (s : State) : State :=
  match s.snr.queue with
  | [] => s
  | r :: _ => if r.tick < t ∧ (s.snr.st = 1 ∨ s.snr.st = 2) then snareRecordWrite s else s

/-- All the records of ticks before `t` are stored (R473, R474). -/
def snareFlush (t : Nat) (s : State) : State := (List.range s.snr.queue.length).foldl (fun s _ => snareDrain t s) s

def execSnareRecordWrite (s : State) : Host.Outcome State Fault Refusal := .next (snareRecordWrite s)

/-- 16,777,215 ticks pass without a record: a GAP marker (R465). -/
def snareGap (s : State) : State :=
  let n := s.snr
  if (n.st = 1 ∨ n.st = 2) ∧ n.queue = [] then
    let t := n.lastTick + 0xFFFFFF
    snrStore { tick := t, id := 0xFFFFFF, value := 0 } (advanceTo s t)
  else s

def execSnareGap (s : State) : Host.Outcome State Fault Refusal := .next (snareGap s)

/-- POST ends at its time limit (R473), once the records of ticks before it are stored; the quota ends it when its record is stored. -/
def snarePostEnd (s : State) : State :=
  let ms := fld (rg s rSNR_POST_MS) 15 0
  if s.snr.st = 2 ∧ ms ≠ 0 then
    let t := s.snr.trigTick + ms * 312500
    let s := snareFlush t (advanceTo s t)
    if s.snr.st = 2 then snareDump { s with snr := { s.snr with postTime := true } } else s
  else s

def execSnarePostEnd (s : State) : Host.Outcome State Fault Refusal := .next (snarePostEnd s)

/-- The records as written: DELTA, ID and VALUE (R464); a record whose read met an uncorrectable error is an ECC marker. -/
def dumpWords (bad : List Nat) : Nat → Option Nat → List SnrRec → Bytes
  | _, _, [] => []
  | i, prev, r :: rs =>
    let delta := match prev with | some p => r.tick - p | none => 0
    let hit := bad.contains i
    leBytes 3 delta ++ leBytes 3 (if hit then 0xFFFFFD else r.id) ++ leBytes 2 (if hit then 0 else r.value) ++
      dumpWords bad (i + 1) (some r.tick) rs

/-- Bytes 8 to 63 of the dump header (R476). -/
def dumpHeader (s : State) (ecc : Bool) : Bytes :=
  let n := s.snr
  let flags := b2n n.triggered + 2 * b2n n.early + 4 * b2n n.stopped + 8 * b2n n.postTime + 16 * b2n (n.drops != 0) +
    32 * b2n n.bus + 64 * b2n ecc
  leBytes 8 ((n.recs.head?).elim 0 (·.tick)) ++ leBytes 8 n.trigTick ++ leBytes 4 n.preN ++ leBytes 4 n.post ++
    leBytes 8 (if n.triggered then n.trigTick / lTicks s else 0) ++ leBytes 8 n.trigVec.toNat ++ leBytes 2 flags ++
    leBytes 1 n.pre ++ [0] ++ leBytes 4 n.groups.toNat ++ leBytes 4 n.drops ++ leBytes 4 n.missed.toNat

/-- The last dump write is issued (R476, R477), unless writes of higher rank wait. `bad` lists the records whose read met an
uncorrectable ECC error. -/
def snareDumpDone (bad : List Nat) (s : State) : State :=
  if s.snr.st = 3 ∧ s.hst.linkUp then
    if linkBusy s then dumpWait s
    else
      let hits := bad.filter (fun i => decide (i < s.snr.recs.length))
      let s := if hits.isEmpty then s else report (setEvt s rSNR_EVT (bitv 5)) (srcBlk 15 0) 0x03C1
      let n := s.snr
      let a := dumpBase s
      let body := dumpHeader s (!hits.isEmpty) ++ dumpWords hits 0 none n.recs
      let first := if n.dumpDue then [dumpInvalid s] else []
      let s := wr (dmaWrite s (first ++ [⟨a + 8, body⟩, ⟨a, leBytes 8 n.acq⟩])) rSNR_ACQ (u32 n.acq)
      let auto := bit (rg s rSNR_CFG) 1 && !n.noAuto
      setEvt { s with snr := { s.snr with st := if auto then 4 else 0, rearmAt := now s + 1024, dumpDue := false } } rSNR_EVT (bitv 1)
  else s

def execSnareDumpDone (bad : List Nat) (s : State) : Host.Outcome State Fault Refusal := .next (snareDumpDone bad s)

/-- REARM lasts 1,024 ticks, and Snare enters ARMED again (R478). -/
def snareRearmEnd (s : State) : State :=
  if s.snr.st = 4 then let s := advanceTo s s.snr.rearmAt; snareEval (snareArmed (now s) s) else s

def execSnareRearmEnd (s : State) : Host.Outcome State Fault Refusal := .next (snareRearmEnd s)

/-- STOP at tick `t` while records are stored (R473, R474): the records of ticks before it are kept, also those that wait to be stored. -/
def snareStop (t : Nat) (s : State) : State :=
  let s := snareFlush t s
  let n := s.snr
  let keep := n.recs.filter (fun r => decide (r.tick < t))
  if n.st = 1 then snareDump { s with snr := { n with recs := keep } }
  else if n.st = 2 then snareDump { s with snr := { n with recs := keep, stopped := true } }
  else s

/-- A SNARE_ARM takes effect at tick `t` (R471, R474, R475); the flag says that it was DONE NO_CHANGE. -/
def snareAction (t action : Nat) (s : State) : State × Bool :=
  let n := s.snr
  if action = 2 then
    match n.st with
    | 1 => (snareStop t s, false)
    | 2 => (snareStop t s, false)
    | 3 => if bit (rg s rSNR_CFG) 1 then ({ s with snr := { n with noAuto := true } }, false) else (s, true)
    | 4 => ({ s with snr := { n with st := 0 } }, false)
    | _ => (s, true)
  else (snareArmed t s, false)

/-! ### Software records and the trigger bus (R463, R479) -/

/-- A write of SNR_SW from a core makes a record (R463). -/
def swRecord (v : U32) (s : State) : State := snareEval (snareEvent (now s) 15 (fld v 7 0) (fld v 31 16) s)

def execSnrSwWrite (bus : Bus) (v : U32) (s : State) : Host.Outcome State Fault Refusal := coreOnlyWrite bus rSNR_SW v (swRecord v) s

/-- A TRIG line changes at tick `now` (R463, R479). -/
def lineChange (l : Nat) (v : Bool) (s : State) : State :=
  let m := BitVec.ofNat 4 (2 ^ l)
  if s.snr.lines.getLsbD l = v then s
  else
    let s := { s with snr := { s.snr with lines := if v then s.snr.lines ||| m else s.snr.lines &&& ~~~ m,
                                          lineChg := s.snr.lineChg ||| m } }
    snareSig (now s) 14 l (b2n v) s

/-- The input of line `l` is ignored: this device drives the line, for 64 ticks, or released it less than 16 ticks ago (R560).
[DEDUCED: notes/assumptions/46] -/
def trigMasked (l : Nat) (s : State) : Bool :=
  s.snr.toutEnd != 0 && decide (l = s.snr.toutLine) && decide (s.snr.toutEnd ≤ now s + 64) && decide (now s < s.snr.toutEnd + 16)

/-- TRIG line `l` is asserted, at its arrival tick. A line that is low already has no falling edge to record (R479, R560). -/
def trigAssert (l : Nat) (s : State) : State :=
  if trigMasked l s || s.snr.lines.getLsbD l then s
  else snareEval (lineChange l true (wr s (rSNR_TRIG_LAST l) (lo32 s.tick)))

def execTrigLineAssert (l : Fin 4) (s : State) : Host.Outcome State Fault Refusal := .next (trigAssert l s)

/-- The device that asserted TRIG line `l` releases it (R463, R560). -/
def trigRelease (l : Nat) (s : State) : State := if trigMasked l s then s else snareEval (lineChange l false s)

def execTrigLineRelease (l : Fin 4) (s : State) : Host.Outcome State Fault Refusal := .next (trigRelease l s)

/-- The TRIG output is released 64 ticks after its assertion (R479). -/
def trigOutRelease (s : State) : State :=
  match s.snr.tout with
  | none => s
  | some t => let s := advanceTo s t; { s with snr := { s.snr with tout := none } }

def execTrigOutRelease (s : State) : Host.Outcome State Fault Refusal := .next (trigOutRelease s)

/-- The Snare registers that show structured state (R482, R483). -/
def snrRead (s : State) (off : Nat) : Option U32 :=
  if off = rSNR_STAT then some (pack [(0, s.snr.st), (8, s.snr.recs.length)]) else none

end Sys2Proof.Machine
end

