-- ==== Sys2Proof/Machine/Loops.lean ====
section
/-! DEFINITION. The loop engines: input sources, the sample computation, fallback, enable and drain, the arm reference
sets, test signals and capture (10_loop_engines.md). -/

namespace Sys2Proof.Machine

/-! ### binary32 helpers of R308 -/

def nan32 (x : U32) : Bool := fIsNan fmt32 x.toNat
/-- fmaxf and fminf: a NaN operand yields the other. -/
def fmaxf (x y : U32) : U32 := if nan32 x then y else if nan32 y then x else f32Max x y
def fminf (x y : U32) : U32 := if nan32 x then y else if nan32 y then x else f32Min x y
def clampf (v lo hi : U32) : U32 := fminf (fmaxf v lo) hi
/-- `mag` with the sign of `s`. -/
def copysignf (mag s : U32) : U32 := (mag &&& 0x7FFFFFFF) ||| (s &&& 0x80000000)

/-- The transposed direct form II of R309: output and new states. -/
def biquad (c : Nat → U32) (v s1 s2 : U32) : U32 × U32 × U32 :=
  let y := f32Add (f32Mul (c 15) v) s1
  let t1 := f32Add (f32Sub (f32Mul (c 16) v) (f32Mul (c 18) y)) s2
  let t2 := f32Sub (f32Mul (c 17) v) (f32Mul (c 19) y)
  (y, t1, t2)

/-- The steady states of the biquad for a constant input (R320); 0 when 1 + A1 + A2 is 0. -/
def biquadSteady (c : Nat → U32) (v : U32) : U32 × U32 :=
  let den := f32Add (f32Add f32One (c 18)) (c 19)
  if den &&& 0x7FFFFFFF = 0 then (0, 0)
  else
    let y := f32Div (f32Mul v (f32Add (f32Add (c 15) (c 16)) (c 17))) den
    let t2 := f32Sub (f32Mul (c 17) v) (f32Mul (c 19) y)
    (f32Add (f32Sub (f32Mul (c 16) v) (f32Mul (c 18) y)) t2, t2)

/-- OUT moves towards 0.0 by `rate`, or to 0.0 at once when the rate is 0 (R318, R321). -/
def rampZero (out rate : U32) : U32 :=
  if rate &&& 0x7FFFFFFF = 0 then f32Zero
  else if f32Le (f32Abs out) rate then f32Zero
  else f32Sub out (copysignf rate out)

/-! ### Sources (R303 to R306) -/

/-- The source code that a write stores (R304): NONE for a reserved TYPE or an INDEX out of range. -/
def srcCodeOk (code : Nat) : Bool :=
  let i := code % 0x2000
  match code / 0x2000 with
  | 0 => i == 0
  | 1 => decide (i < 96)
  | 2 => decide (i < 96) && decide (i % 8 < 5)
  | 3 => decide (i < 48)
  | 4 => decide (i < 128)
  | 5 => true
  | _ => false

/-- A source value, whether it is valid, and its age in epochs (R303, R305). `cur` holds the loops as updated so far in
the sample and `prev` the loops of the previous sample (R306). -/
def srcValue (inp : LoopInputs) (cur prev : Tbl Loop) (l code : Nat) : U32 × Bool × Nat :=
  let i := code % 0x2000
  match code / 0x2000 with
  | 1 =>
    let a := tget {} inp.afe (i % 32)
    ((match i / 32 with | 0 => a.mean | 1 => a.lo | _ => a.hi), a.valid,
     inp.m - a.last.getD 0)
  | 2 =>
    let a := tget {} inp.agg (i / 8)
    let age := inp.m - inp.imgEpoch
    match i % 8 with
    | 0 => (a.vsum, a.nLive != 0, age)
    | 1 => (a.vmean, !a.stale && a.nLive != 0, age)
    | 2 => (a.vmin, !a.stale, age)
    | 3 => (a.vmax, !a.stale, age)
    | _ => (f32OfNat a.nLive, true, age)
  | 3 =>
    let h := tget {} inp.hrw (i / 4)
    ((match i % 4 with
      | 0 => h.level
      | 1 => f32OfNat h.u
      | 2 => if h.sat then f32One else f32Zero
      | _ => f32OfNat h.adelay), true, 0)
  | 4 =>
    let low := decide (i / 16 = l / 16) && decide (i < l)
    let x := tget {} (if low then cur else prev) i
    (x.out, x.enabled && x.fallback == 0, if low then 0 else inp.p)
  | 5 =>
    let f := tget {} inp.fw i
    (f.val, f.valid && f32Fin f.val, inp.m - f.since)
  | _ => (f32Zero, true, 0)

/-! ### One loop, one sample -/

/-- The configuration of a loop: coefficients and register words (R329). -/
structure LoopCfg where
  c : Nat → U32
  cfg : U32
  src : U32
  spsrc : U32
  dst : U32
  mon : U32
  sp : U32

/-- What a sample of a loop does besides its state: LPE_EVT bits, and the codes it reports. -/
structure LoopFx where
  evt : U32 := 0
  codes : List Nat := []

/-- A sample of a loop that is draining (R321): DRAIN_MODE 0 ends at once, 1 ramps OUT to zero. -/
def drainSample (k : LoopCfg) (x : Loop) : Loop :=
  if bit k.cfg 6 then
    let o := rampZero x.out (k.c 21)
    { x with out := o, drain := !(o &&& 0x7FFFFFFF == 0), fallback := 0 }
  else { x with drain := false, fallback := 0 }

/-- A sample of an enabled loop (R308 to R320). -/
def enabledSample (k : LoopCfg) (inp : LoopInputs) (fbS ffS spS : U32 × Bool × Nat) (x : Loop) : Loop × LoopFx :=
  let c := k.c
  let bqPos := bit k.cfg 1
  let injPt := fld k.cfg 9 8
  let fbAct := fld k.cfg 5 4
  let inj := f32Mul (c 22) inp.g
  -- inputs
  let maxAge := max 1 (fld k.mon 7 0)
  let lost := !fbS.2.1 || decide (maxAge < fbS.2.2)
  let inFb := if lost then x.lastFb else fbS.1
  let inFf := if ffS.2.1 then ffS.1 else x.lastFf
  let inSp := if spS.2.1 then spS.1 else x.lastSp
  let srcLost := !ffS.2.1 || !spS.2.1
  let fbr := f32Add (f32Mul inFb (c 13)) (c 14)
  -- freeze detector (R317), paused while lost
  let moved := f32Lt (c 20) (f32Abs (f32Sub fbr x.frzRef))
  let frzN := fld k.mon 15 8
  let frzRef := if lost then x.frzRef else if moved then fbr else x.frzRef
  let frzCnt := if lost then x.frzCnt else if moved then 0 else min 255 (x.frzCnt + 1)
  let frozen := !lost && decide (frzN ≠ 0) && decide (frzN ≤ frzCnt)
  let fallback := if (lost || frozen) then fbAct else 0
  -- feedback
  let st0 := if x.starting && !bqPos then biquadSteady c fbr else (x.s1, x.s2)
  let q0 := biquad c fbr st0.1 st0.2
  let fb0 := if bqPos then fbr else q0.1
  let fb := if injPt = 3 then f32Add fb0 inj else fb0
  let s0 := if bqPos then st0 else q0.2
  -- set-point (R312, R320)
  let want := f32Add k.sp inSp
  let tgt := clampf want (c 11) (c 12)
  let spStart := if x.starting then (if lost then tgt else fb) else x.spAct
  let step0 := f32Sub tgt spStart
  let ramping := f32Lt f32Zero (c 10) && f32Lt (c 10) (f32Abs step0)
  let step := if ramping then copysignf (c 10) step0 else step0
  let spAct := f32Add spStart step
  let sp := if injPt = 1 then f32Add spAct inj else spAct
  let err := f32Sub sp fb
  let xx := if bit k.cfg 0 then f32Neg fb else err
  let ffb := f32Add (f32Mul (c 4) inFf) (c 5)
  -- entry into the sample: after an enable (R320) or a fallback (R319)
  let resume := decide (x.fallback ≠ 0) && decide (fallback = 0)
  let dPrev := if x.starting || resume then f32Zero else x.d
  let xPrev := if x.starting || resume then xx else x.xPrev
  let integ0 :=
    if x.starting then clampf (f32Sub x.out ffb) (c 8) (c 9)
    else if resume then
      clampf (f32Sub x.out (f32Add (f32Add (f32Mul (c 0) err) (f32Mul (c 4) inFf)) (c 5))) (c 8) (c 9)
    else x.integ
  let d := f32Add (f32Mul (c 3) dPrev) (f32Mul (f32Mul (f32Sub f32One (c 3)) (c 2)) (f32Sub xx xPrev))
  let inc := f32Mul (c 1) err
  let pre0 := f32Add (f32Add (f32Add (f32Add (f32Add (f32Mul (c 0) err) integ0) inc) d) (f32Mul (c 4) inFf)) (c 5)
  let pre1 := f32Add pre0 (if injPt = 2 then inj else f32Zero)
  let st1 := if x.starting && bqPos then biquadSteady c pre1 else s0
  let q1 := biquad c pre1 st1.1 st1.2
  let pre := if bqPos then q1.1 else pre1
  let s1 := if bqPos then q1.2 else s0
  let out := clampf pre (c 6) (c 7)
  let arm := fld k.dst 3 0
  let track := bit k.cfg 7 && bit k.dst 4 && decide ((inp.blk / 2 ^ arm) % 2 = 1)
  let holdI := track || (f32Lt out pre && f32Lt f32Zero inc) || (f32Lt pre out && f32Lt inc f32Zero)
  let integ := clampf (if holdI then integ0 else f32Add integ0 inc) (c 8) (c 9)
  let bad := !f32Fin fb || !f32Fin pre || !f32Fin integ
  let inv := f32Lt (c 7) (c 6) || f32Lt (c 9) (c 8) || f32Lt (c 12) (c 11)
  -- the common part of every case
  let base : Loop :=
    { x with starting := false, frzRef := frzRef, frzCnt := frzCnt, lost := lost, frozen := frozen,
             fallback := fallback, lastFb := inFb, lastFf := inFf, lastSp := inSp, spAct := spAct, fb := fb, tgt := tgt,
             err := err, ramping := ramping, satHi := false, satLo := false }
  let y : Loop :=
    if fallback ≠ 0 then { base with out := if fallback = 2 then rampZero x.out (c 21) else x.out }
    else if bad then base
    else { base with out := out, integ := integ, d := d, xPrev := xx, s1 := s1.1, s2 := s1.2,
                     satHi := f32Lt out pre, satLo := f32Lt pre out }
  let newLost := lost && !x.lost
  let newFrz := frozen && !x.frozen
  let trip := fallback == 3 && x.fallback != 3
  let evt : U32 := pack [(1, b2n newLost), (2, b2n newFrz), (3, b2n trip), (4, b2n bad), (6, b2n inv), (7, b2n srcLost),
    (9, b2n (tgt != want))]
  (y, { evt := evt,
        codes := (if newLost then [0x0181] else []) ++ (if newFrz then [0x0182] else []) ++
                 (if trip then [0x0183] else []) ++ (if bad then [0x0184] else []) ++ (if inv then [0x0186] else []) })

/-- COEF_GEN of R154. -/
def coefGen (x : Loop) : U32 := pack [(0, x.gen.toNat), (16, x.left)]

/-- The sample of loop slot `l`; a disabled loop keeps the values of its last one (R154). [DEDUCED: notes/assumptions/17] -/
def loopSample (k : LoopCfg) (inp : LoopInputs) (cur prev : Tbl Loop) (l : Nat) : Loop × LoopFx :=
  let old := tget {} cur l
  let x := { old with sample := inp.m, inAge := inp.m - inp.imgEpoch, late := false, genPt := coefGen old }
  if x.enabled then
    let v (code : Nat) := srcValue inp cur prev l code
    enabledSample k inp (v (fld k.src 15 0)) (v (fld k.src 31 16)) (v (fld k.spsrc 15 0)) x
  else if x.drain then (drainSample k x, {})
  else (old, {})

/-- The configuration of loop `l` in force. -/
def loopCfg (s : State) (l : Nat) : LoopCfg :=
  { c := fun c => rg s (rLPE_LOOP_COEF l c), cfg := rg s (rLPE_LOOP_CFG l), src := rg s (rLPE_LOOP_SRC l),
    spsrc := rg s (rLPE_LOOP_SPSRC l), dst := rg s (rLPE_LOOP_DST l), mon := rg s (rLPE_LOOP_MON l),
    sp := rg s (rLPE_LOOP_SP l) }

def loop (s : State) (l : Nat) : Loop := tget {} s.lpe.loops l
def setLoop (s : State) (l : Nat) (v : Loop) : State :=
  { s with lpe := { s.lpe with loops := tset {} s.lpe.loops l v } }

/-- One shift of the PRBS register (R325): the sum of bits 14 and 13, for x^15 + x^14 + 1, comes in below.
[DEDUCED: notes/assumptions/16] -/
def prbsShift (x : BitVec 15) : BitVec 15 := (x <<< 1) ||| BitVec.ofNat 15 (b2n (x.getLsbD 14 != x.getLsbD 13))

/-- The PRBS register after `n` shifts. -/
def prbsAfter (x : BitVec 15) : Nat → BitVec 15
  | 0 => x
  | n + 1 => prbsShift (prbsAfter x n)

/-- The test generator output of a sample (R325). [DESIGN CHOICE: notes/assumptions/16] -/
def testGen (s : State) (m : Nat) : U32 :=
  let cfg := rg s rLPE_TG_CFG
  let par := (rg s rLPE_TG_PARAM).toNat
  let n := m / pFrames s
  match fld cfg 2 0 with
  | 1 => f32One
  | 2 => if (n / max 1 par) % 2 = 0 then f32One else 0xBF800000
  | 3 =>
    let seed := fld cfg 30 16
    if (prbsAfter (BitVec.ofNat 15 (max 1 seed)) (n % 32767)).getLsbD Config.prbsTap then f32One else 0xBF800000
  | 4 => Config.sine (u32 (n * par))
  | _ => f32Zero

/-- The capture record of a sample (R327). -/
def capSample (s : State) (inp : LoopInputs) : LoopCap :=
  let c := s.lpe.cap
  let l := fld (rg s rLPE_CAP_CTL) 6 0
  let gain := rg s (rLPE_LOOP_COEF l 22)
  let go := c.recording || (c.armed && (bit (rg s rLPE_CAP_CTL) 9 || gain &&& 0x7FFFFFFF != 0))
  if go && decide (c.recs.length < 4096) then
    let x := loop s l
    let c := { c with armed := false, recording := true, epoch := if c.recs.isEmpty then u64 inp.m else c.epoch,
                      recs := c.recs ++ [(f32Mul inp.g gain, x.fb, x.out, x.err)] }
    if c.recs.length < 4096 then c else { c with recording := false }
  else c

/-- The 128 slots of one sample, in ascending slot order (R299), with their events and reports. R30 discards a late reference set, but the
spec does not say what becomes of a sample that engines still run when the next period begins: the model drops it, and its late flags, for
the new one. [DESIGN CHOICE: notes/assumptions/59] -/
def lpeSample (inp : LoopInputs) (s : State) : State :=
  let prev := s.lpe.loops
  let run (acc : Tbl Loop × U32 × List (Nat × Nat)) (l : Nat) : Tbl Loop × U32 × List (Nat × Nat) :=
    let r := loopSample (loopCfg s l) inp acc.1 prev l
    (tset {} acc.1 l r.1, acc.2.1 ||| r.2.evt, acc.2.2 ++ r.2.codes.map (fun q => (l, q)))
  let r := (List.range 128).foldl run (prev, 0, [])
  let s := { s with lpe := { s.lpe with loops := r.1, sample := some inp.m, busy := true, lateEng := 0, lateArms := 0 } }
  let s := setEvt s rLPE_EVT r.2.1
  let s := r.2.2.foldl (fun s q => report s (srcBlk 6 (16 + q.1)) q.2) s
  { s with lpe := { s.lpe with cap := capSample s inp } }

/-- LSTAT of R154. -/
def lstat (x : Loop) : U32 :=
  pack [(0, b2n x.enabled), (1, b2n x.satHi), (2, b2n x.satLo), (3, b2n x.ramping), (4, x.fallback), (6, b2n x.lost),
        (7, b2n x.frozen), (8, b2n x.drain), (9, b2n x.late)]

/-- The Snare signals of the loops: LOOP_STAT on change, and LOOP_OUT at the end of a sample (R463). -/
def loopSignals (out : Bool) (s : State) : State :=
  let t := now s
  let s := if out then (List.range 128).foldl (fun s l => snareSig t 7 l ((loop s l).out.toNat / 2 ^ 16) s) s else s
  (List.range 128).foldl (fun s l => snareSig t 8 l (lstat (loop s l)).toNat s) s

/-! ### Arm references (R301) and the deadline (R302) -/

/-- The arm reference of arm `a`: the signed sum over the loops that name it, in ascending order. -/
def armRef (s : State) (a : Nat) : U32 :=
  (List.range 128).foldl
    (fun acc l =>
      let d := rg s (rLPE_LOOP_DST l)
      if bit d 4 && decide (fld d 3 0 = a) then
        f32Add acc (if bit d 5 then f32Neg (loop s l).out else (loop s l).out)
      else acc) f32Zero

/-- The last engine finishes (R300, R301): the sets are published as one, and the engine status is recorded. `corr` gives
the corrected ECC errors of each engine. -/
def enginesDone (corr : List Nat) (s : State) : State :=
  match s.lpe.sample with
  | none => s
  | some m =>
    if !s.lpe.busy then s
    else
      let cyc (e : Nat) : Nat := 808 + 48 * corr.getD e 0
      let worst := (List.range 8).foldl (fun a e => max a (cyc e)) 0
      let s := advanceTo s (m * lTicks s + (worst + 1) / 2)
      let refs := (List.range 12).foldl (fun t a => tset 0 t a (armRef s a)) ([] : Tbl U32)
      let stat := (List.range 8).foldl
        (fun t e => tset 0 t e (pack [(0, min (cyc e) 0xFFF), (16, min (corr.getD e 0) 255), (24, b2n (s.lpe.lateEng.getLsbD e))]))
        ([] : Tbl U32)
      let s := { s with lpe := { s.lpe with refs := refs, refsM := some m, busy := false, engStat := stat } }
      loopSignals true (intEdge (count s rLPE_ECC_CNT (corr.foldl (· + ·) 0)) 99)

def execEnginesDone (corr : List Nat) (s : State) : Host.Outcome State Fault Refusal :=
  .next (snareEval (enginesDone corr s))

/-- The arms that some loop of engine `e` names. -/
def engineArms (s : State) (e : Nat) : List Nat :=
  idxs 12 (fun a => (List.range 16).any (fun i =>
    let d := rg s (rLPE_LOOP_DST (16 * e + i))
    bit d 4 && decide (fld d 3 0 = a)))

/-- Engine `e` has not finished by F_m + D_LOOP (R30, R302). -/
def loopDeadlineMiss (e : Nat) (s : State) : State :=
  match s.lpe.sample with
  | none => s
  | some m =>
    if !s.lpe.busy || s.lpe.lateEng.getLsbD e then s
    else
      let s := advanceTo s (m * lTicks s + dLoop s)
      let arms := (engineArms s e).filter (fun a => !s.lpe.lateArms.getLsbD a)
      let s := count s (rSYS_YIELD_CNT 1) arms.length
      let loops := (List.range 16).foldl (fun t i => tmod {} t (16 * e + i) (fun x => { x with late := true })) s.lpe.loops
      let s := { s with lpe := { s.lpe with
        loops := loops, lateEng := s.lpe.lateEng ||| BitVec.ofNat 8 (2 ^ e),
        lateArms := s.lpe.lateArms ||| BitVec.ofNat 12 (arms.foldl (fun x a => x + 2 ^ a) 0),
        engStat := tset 0 s.lpe.engStat e (tget 0 s.lpe.engStat e ||| bitv 24) } }
      loopSignals false (report (setEvt (count s rLPE_LATE_CNT) rLPE_EVT (bitv 0)) (srcBlk 6 e) 0x0180)

def execLoopDeadlineMiss (e : Fin 8) (s : State) : Host.Outcome State Fault Refusal :=
  .next (snareEval (loopDeadlineMiss e s))

/-- An uncorrectable ECC error in loop `l` (R323): disabled at once, without a drain; the coefficient hit, if `c` names
one, reads back as an unknown value. [DESIGN CHOICE: notes/assumptions/14] -/
def loopEcc (l c : Nat) (s : State) : State :=
  let s := setLoop s l { loop s l with enabled := false, starting := false, drain := false, fallback := 0 }
  let s :=
    if c < 23 then
      let (w, s) := draw Config.freeWord s
      wr s (rLPE_LOOP_COEF l c) (lo32 w)
    else s
  loopSignals false (report (setEvt s rLPE_EVT (bitv 5)) (srcBlk 6 (l / 16)) 0x0185)

/-- `c` below 23 names the coefficient hit, 23 the loop's state. -/
def execLoopEccUncorr (l : Fin 128) (c : Fin 24) (s : State) : Host.Outcome State Fault Refusal :=
  .next (snareEval (loopEcc l c s))

/-! ### Register writes -/

/-- A write of a source code register: a bad code stores NONE and sets CFG_ERR (R304). -/
def srcWrite (off : Nat) (two : Bool) (v : U32) (s : State) : State :=
  let lo := fld v 15 0
  let hi := if two then fld v 31 16 else 0
  let bad := !srcCodeOk lo || !srcCodeOk hi
  let w := pack [(0, if srcCodeOk lo then lo else 0), (16, if srcCodeOk hi then hi else 0)]
  let s := wr s off w
  if bad then setEvt s rLPE_EVT (bitv 8) else s

/-- LPE_LOOPl_SRC, or LPE_LOOPl_SPSRC where `sp` is set. -/
def execLpeSrcWrite (bus : Bus) (l : Fin 128) (sp : Bool) (v : U32) (s : State) : Host.Outcome State Fault Refusal :=
  let off := if sp then rLPE_LOOP_SPSRC l else rLPE_LOOP_SRC l
  guardWrite s bus off v (srcWrite off (!sp) v)

/-- A write of DST: an ARM above 11 stores 0 and sets CFG_ERR (R330). -/
def dstWrite (l : Nat) (v : U32) (s : State) : State :=
  if 11 < fld v 3 0 then setEvt (wr s (rLPE_LOOP_DST l) 0) rLPE_EVT (bitv 8)
  else wr s (rLPE_LOOP_DST l) (v &&& 0x3F)

def execLpeDstWrite (bus : Bus) (l : Fin 128) (v : U32) (s : State) : Host.Outcome State Fault Refusal :=
  guardWrite s bus (rLPE_LOOP_DST l) v (dstWrite l v)

/-- A write of LPE_CAP_CTL: ARM discards the buffer and arms (R327). -/
def capWrite (v : U32) (s : State) : State :=
  let s := wr s rLPE_CAP_CTL (v &&& 0x27F)
  if bit v 8 then { s with lpe := { s.lpe with cap := { armed := true } } } else s

def execLpeCapArm (bus : Bus) (v : U32) (s : State) : Host.Outcome State Fault Refusal :=
  guardWrite s bus rLPE_CAP_CTL v (capWrite v)

/-- The loop points 0 to 15 of a loop (R154). -/
def loopPoint (x : Loop) (i : Nat) : U32 :=
  match i with
  | 0 => x.out | 1 => x.fb | 2 => x.spAct | 3 => x.tgt | 4 => x.err | 5 => x.integ
  | 6 => x.genPt | 7 => u32 (x.inAge % 65536) | 8 => lstat x | 9 => u32 x.sample | _ => 0

/-- The LPE registers that show structured state (R329, R330). -/
def lpeRead (s : State) (off : Nat) : Option U32 :=
  if off = rLPE_STAT then
    some (pack [(0, if s.lpe.busy then 255 else 0), (8, s.lpe.lateEng.toNat),
                (16, (s.lpe.loops.filter (fun p => p.2.enabled)).length)])
  else if off = rLPE_CAP_CTL then
    some (rg s off ||| (if s.lpe.cap.armed || s.lpe.cap.recording then bitv 8 else 0))
  else if off = rLPE_CAP_STAT then
    some (pack [(0, s.lpe.cap.recs.length), (13, b2n (decide (4096 ≤ s.lpe.cap.recs.length)))])
  else if off = rLPE_CAP_EPOCH_LO then some (lo32 s.lpe.cap.epoch)
  else if 0x00600040 ≤ off ∧ off < 0x00600060 then some (tget 0 s.lpe.engStat ((off - 0x00600040) / 4))
  else if 0x00600080 ≤ off ∧ off < 0x006000B0 then some (tget 0 s.lpe.refs ((off - 0x00600080) / 4))
  else if 0x00608000 ≤ off ∧ off < 0x00618000 then
    let r := s.lpe.cap.recs.getD ((off - 0x00608000) / 16) (0, 0, 0, 0)
    some (match (off % 16) / 4 with | 0 => r.1 | 1 => r.2.1 | 2 => r.2.2.1 | _ => r.2.2.2)
  else if 0x00601000 ≤ off ∧ off < 0x00605000 then
    let l := (off - 0x00601000) / 0x80
    if (off - 0x00601000) % 0x80 = 0x14 then some (lstat (loop s l))
    else if (off - 0x00601000) % 0x80 = 0x18 then some (coefGen (loop s l))
    else none
  else none

end Sys2Proof.Machine
end

