-- ==== Sys2Proof/Machine/Afe.lean ====
section
/-! DEFINITION. The analog front end: sequencers, conversions, filters, accumulators, overrange and taint, comparators
(11_analog_front_end.md). -/

namespace Sys2Proof.Machine

def seq (s : State) (q : Nat) : Seq := tget {} s.afe.seqs q
def setSeq (s : State) (q : Nat) (v : Seq) : State := { s with afe := { s.afe with seqs := tset {} s.afe.seqs q v } }
def chan (s : State) (c : Nat) : Chan := tget {} s.afe.chans c
def setChan (s : State) (c : Nat) (v : Chan) : State := { s with afe := { s.afe with chans := tset {} s.afe.chans c v } }
def cmpr (s : State) (k : Nat) : Cmp := tget {} s.afe.cmps k
def setCmp (s : State) (k : Nat) (v : Cmp) : State := { s with afe := { s.afe with cmps := tset {} s.afe.cmps k v } }

/-- Entry `i` of sequencer `q`'s table (R335). -/
def entWord (s : State) (q i : Nat) : U32 := rg s (rAFE_SEQ_ENT q i)
def entLast (s : State) (q i : Nat) : Bool := bit (entWord s q i) 31 || decide (63 ≤ i)

/-- The entries of a pass (R336). -/
def passEntries (s : State) (q : Nat) : List Nat :=
  let es := List.range 64
  es.take ((es.takeWhile (fun i => !entLast s q i)).length + 1)

/-- T_TAB: the length of a pass in slots (R336). -/
def tTab (s : State) (q : Nat) : Nat :=
  (passEntries s q).foldl (fun a i => a + fld (entWord s q i) 15 8 + fld (entWord s q i) 7 4 + 1) 0

/-- START_SRC (R337): 4 to 7 are taken as 0. -/
def startSrc (s : State) (q : Nat) : Nat :=
  let v := fld (rg s (rAFE_SEQ_CFG q)) 6 4
  if v < 4 then v else 0

/-- Begin a pass at a slot: entry 0 runs its DELAY from there (R338). -/
def passStart (s : State) (q slot : Nat) (v : Seq) : Seq :=
  { v with run := true, entry := 0, rep := 0, slot := slot + fld (entWord s q 0) 15 8 }

/-- A start event ignored: counted (R339). -/
def startIgnored (q : Nat) (s : State) : State := setEvt (count s (rAFE_SEQ_IGN q)) rAFE_EVT (bitv 1)

/-- A start event of sequencer `q` (R337 to R340). -/
def startEvent (q : Nat) (s : State) : State :=
  let v := seq s q
  let sx := (now s + 15) / 16
  if v.mode = 0 then s
  else if !v.run then setSeq s q (passStart s q sx v)
  else if v.mode = 3 && v.pend.isNone then setSeq s q { v with pend := some sx }
  else startIgnored q s

/-- Start events of every sequencer with a start source. -/
def startEvents (src : Nat) (s : State) : State :=
  (List.range 4).foldl (fun s q => if startSrc s q = src then startEvent q s else s) s

/-- A write of AFE_SEQ_CTL: GO is a start event for START_SRC 0, ignored after set-up (R337, R341). -/
def seqGo (v : U32) (s : State) : State :=
  if !windowOpen s then s
  else (List.range 4).foldl (fun s q => if bit v q && startSrc s q == 0 then startEvent q s else s) s

def execAfeSeqGo (bus : Bus) (v : U32) (s : State) : Host.Outcome State Fault Refusal :=
  guardWrite s bus rAFE_SEQ_CTL v (seqGo v)

/-! ### Filter and calibration (R343 to R348) -/

/-- N and D of a channel (R355). -/
def sincN (s : State) (c : Nat) : Nat := let n := fld (rg s (rAFE_CH_CFG c)) 2 0; if n = 0 then 1 else min n 4
def sincD (s : State) (c : Nat) : Nat := max 4 (min 256 (fld (rg s (rAFE_CH_CFG c)) 16 8))
def accMode (s : State) (c : Nat) : Nat := let m := fld (rg s (rAFE_CH_CFG c)) 18 17; if m = 3 then 0 else m
def mmFilt (s : State) (c : Nat) : Bool := bit (rg s (rAFE_CH_CFG c)) 19

/-- Moving sums of `d` successive elements, newest first, zeros before the start. -/
def movSums (d : Nat) : List Int → List Int
  | [] => []
  | x :: xs => ((x :: xs).take d).foldl (· + ·) 0 :: movSums d xs

/-- The moving sums taken `n` times. -/
def sincSums (d : Nat) : Nat → List Int → List Int
  | 0, xs => xs
  | n + 1, xs => sincSums d n (movSums d xs)

/-- The sliding output times D^N (R343). -/
def sliding (n d : Nat) (hist : List Int) : Int := (sincSums d n hist).headD 0

/-- binary32 as binary64. -/
def widen (x : U32) : Nat := fPack fmt64 (fUnpack fmt32 x.toNat)
/-- binary64 rounded to binary32. -/
def narrow (x : Nat) : U32 := u32 (fPack fmt32 (fUnpack fmt64 x))

/-- The calibration of R348 on the value `num / den` in codes: formed in binary64 and rounded once.
[DEDUCED: notes/assumptions/45] -/
def calibrate (gain offset : U32) (num : Int) (den : Nat) : U32 :=
  narrow (fDiv fmt64 (fMul fmt64 (widen gain) (fAdd fmt64 (fOfRat fmt64 num den) (widen offset))) (fOfDy fmt64 32768 0))

/-- The calibration of channel `c` in force. [DEDUCED: notes/assumptions/45] -/
def chanCal (s : State) (c : Nat) (num : Int) (den : Nat) : U32 :=
  calibrate (rg s (rAFE_CH_GAIN c)) (rg s (rAFE_CH_OFFSET c)) num den

/-! ### Conversions (R332, R333, R345, R350, R351) -/

/-- The code of an input given in 1/256 LSB, rounded half away from zero and clamped, and whether it overranges (R333).
[DEDUCED: notes/assumptions/45] -/
def afeCode (x : Int) : Int × Bool :=
  let r : Int := if 0 ≤ x then (x + 128).tdiv 256 else -((128 - x).tdiv 256)
  (clampI (-32768) 32767 r, decide (32767 * 256 + 128 < x) || decide (x < -32768 * 256 - 128))

/-- What a conversion gives besides the channel's state: the decimated output completed, if any. -/
def convChan (s : State) (c : Nat) (code : Int) (overr tainted discard : Bool) (v : Chan) : Chan × Option U32 :=
  let n := sincN s c; let d := sincD s c
  let v := { v with ovr := v.ovr || overr, taint := v.taint || tainted, excl := v.excl + b2n tainted }
  if discard then (v, none)
  else
    let input := if tainted then v.hist.headD 0 else code
    let hist := (input :: v.hist).take (n * (d - 1) + 1)
    let cnt := v.n + 1
    let settled := decide (n * d ≤ cnt)
    let out := sliding n d hist
    let decim := decide (cnt % d = 0)
    let decV : Option U32 := if decim then some (if settled then chanCal s c out (d ^ n) else 0) else none
    let v := { v with n := cnt, hist := hist, dec := decV.getD v.dec }
    let mode := accMode s c
    let v :=
      if tainted then v
      else
        let v := match mode with
          | 1 => if decim && settled then { v with sum := v.sum + out, k := v.k + 1 } else v
          | 2 => if settled then { v with last := some out } else v
          | _ => { v with sum := v.sum + code, k := v.k + 1 }
        let track : Option Int := if mmFilt s c then (if settled then some out else none) else some code
        match track with
        | none => v
        | some t => { v with lo := some (min t (v.lo.getD t)), hi := some (max t (v.hi.getD t)) }
    (v, if settled then decV else none)

/-- After a conversion: the next slot, the next entry, or the wrap (R336, R340, R341); the flag says that the table
wrapped and the number counts the idle slots a realignment inserts. -/
def seqNext (s : State) (q : Nat) (v : Seq) : Seq × Bool × Nat :=
  let w := entWord s q v.entry
  let next := v.slot + 1
  if v.rep < fld w 7 4 then ({ v with rep := v.rep + 1, slot := next }, false, 0)
  else
    let v := match v.newMode with
      | some m => { v with mode := m, newMode := none }
      | none => v
    if v.mode = 0 then ({ v with run := false, pend := none, entry := 0, rep := 0 }, false, 0)
    else if entLast s q v.entry then
      match v.mode, v.pend with
      | 2, _ => ({ v with run := false, pend := none, entry := 0, rep := 0 }, true, 0)
      | 3, some sx =>
        let t := max 1 (tTab s q)
        let m := if sx < next then (next - sx + t - 1) / t else 0
        let start := sx + m * t
        (passStart s q start { v with pend := none }, true, start - next)
      | _, _ => (passStart s q next v, true, 0)
    else
      let e := v.entry + 1
      ({ v with entry := e, rep := 0, slot := next + fld (entWord s q e) 15 8 }, false, 0)

/-- A conversion of sequencer `q` ends: the state after it and the channel's completed output. `x` is the input in 1/256
LSB, `ecc` says that AFE memory met an uncorrectable error. -/
def conversion (q : Nat) (x : Int) (ecc : Bool) (s : State) : State × Option (Nat × U32) :=
  let v := seq s q
  if !v.run then (s, none)
  else
    let w := entWord s q v.entry
    let c := 8 * q + fld w 2 0
    let (code, overr) := afeCode x
    let tainted := match v.taint with | some t => decide (v.slot ≤ t) | none => false
    let s := advanceTo s (16 * (v.slot + 1))
    let (ch, dec) := convChan s c code overr tainted (bit w 16) (chan s c)
    let s := setChan s c ch
    let v := if overr then { v with taint := some (v.slot + 2) } else v
    let (v, wrapped, gap) := seqNext s q v
    let s := setSeq s q v
    let s := if 0 < gap then setEvt (count s (rAFE_SEQ_GAP q) gap) rAFE_EVT (bitv 2) else s
    let s := if overr then
        report (setEvt (setEvt s rAFE_EVT (bitv 0)) rAFE_OVR (bitv c)) (srcBlk 10 (8 + c)) 0x0280 else s
    let s := if ecc then report (setEvt s rAFE_EVT (bitv 5)) (srcBlk 10 q) 0x0281 else s
    let s := if wrapped then intEdge s (200 + q) else s
    (s, dec.map (fun d => (c, d)))

/-! ### The period latch (R347, R349) -/

/-- The latched points of a channel at boundary `m`, and the channel with its accumulator reset. -/
def latchChan (s : State) (m c : Nat) (v : Chan) : Chan :=
  let n := sincN s c; let d := sincD s c
  let den := d ^ n
  let mode := accMode s c
  let mmDen := if mmFilt s c then den else 1
  let mean : Option (Int × Nat) := match mode with
    | 2 => v.last.map (fun o => (o, den))
    | 1 => if v.k = 0 then none else some (v.sum, v.k * den)
    | _ => if v.k = 0 then none else some (v.sum, v.k)
  let flags := pack [(0, b2n v.ovr), (1, b2n v.taint), (16, min v.excl 0xFFFF)]
  let lat : AfeIn := match mean with
    | none => { valid := false, last := v.lat.last }
    | some (a, b) =>
      let ext (o : Option Int) : U32 := match o with | some t => chanCal s c t mmDen | none => chanCal s c a b
      { mean := chanCal s c a b, lo := ext v.lo, hi := ext v.hi, valid := true, last := some m }
  { v with sum := 0, k := 0, last := none, lo := none, hi := none, ovr := false, taint := false, excl := 0,
           lat := lat, latFlags := flags }

/-- Every channel latches and its accumulator starts afresh (R347). -/
def afeLatch (m : Nat) (s : State) : State :=
  { s with afe := { s.afe with chans := tmodAll {} s.afe.chans (List.range 32) (latchChan s m) } }

/-! ### Register writes (R341, R344) -/

/-- A write of AFE_SEQq_CFG: MODE waits for the end of the entry in progress; leaving OFF starts the filters of the bank
from zero state (R341, R344). -/
def seqModeWrite (q : Nat) (w : U32) (s : State) : State :=
  let v := { seq s q with tabOn := true }
  let m := fld w 1 0
  let s := plainWrite (rAFE_SEQ_CFG q) w s
  if v.run then setSeq s q { v with newMode := some m }
  else
    let s := if v.mode = 0 ∧ m ≠ 0 then
        { s with afe := { s.afe with chans := tmodAll {} s.afe.chans ((List.range 8).map (· + 8 * q))
                                                (fun _ x => { x with n := 0, hist := [], dec := 0 }) } } else s
    setSeq s q { v with mode := m, newMode := none }

def execAfeSeqModeWrite (bus : Bus) (q : Fin 4) (w : U32) (s : State) : Host.Outcome State Fault Refusal :=
  guardWrite s bus (rAFE_SEQ_CFG q) w (seqModeWrite q w)

/-- A write of a table entry: ignored while MODE is not OFF (R341). -/
def entWrite (q i : Nat) (w : U32) (s : State) : State :=
  if (seq s q).mode ≠ 0 then setEvt s rAFE_EVT (bitv 4)
  else plainWrite (rAFE_SEQ_ENT q i) w (setSeq s q { seq s q with tabOn := true })

/-- A write of AFE_CHc_CFG restarts the filter from zero state (R344). -/
def chCfgWrite (c : Nat) (w : U32) (s : State) : State :=
  let s := plainWrite (rAFE_CH_CFG c) w s
  setChan s c { chan s c with n := 0, hist := [], dec := 0, sum := 0, k := 0, last := none, lo := none, hi := none }

def execAfeChCfgWrite (bus : Bus) (c : Fin 32) (w : U32) (s : State) : Host.Outcome State Fault Refusal :=
  guardWrite s bus (rAFE_CH_CFG c) w (chCfgWrite c w)

/-! ### Comparators (R342) -/

/-- The AFE's part of a crossing of comparator `k`: counted, an interrupt source, and a start event. -/
def cmpCross (k : Nat) (s : State) : State :=
  let s := setCmp s k { out := true, spent := true }
  let s := setEvt (count s (rAFE_CMP_CNT k)) rAFE_EVT (bitv 3)
  let s := (List.range 4).foldl
    (fun s q => if startSrc s q == 3 && fld (rg s (rAFE_SEQ_CFG q)) 10 8 == k then startEvent q s else s) s
  intEdge s (192 + k)

/-- Can comparator `k` cross: enabled and re-armed. -/
def cmpArmed (s : State) (k : Nat) : Bool := bit (rg s (rAFE_CMP_CFG k)) 20 && !(cmpr s k).spent

/-- The AFE registers that show structured state (R354, R355). T_TAB reads its reset value until the table or the mode is written (R14).
[DEDUCED: notes/assumptions/4] -/
def afeRead (s : State) (off : Nat) : Option U32 :=
  if off = rAFE_STAT then
    some (pack [(0, bitsOf 4 (fun q => (seq s q).run)), (4, bitsOf 8 (fun k => (cmpr s k).out))])
  else if 0x00A00010 ≤ off ∧ off < 0x00A00090 ∧ off % 0x20 = 0x14 then
    let q := (off - 0x00A00010) / 0x20
    let v := seq s q
    some (pack [(0, b2n v.run), (1, b2n v.pend.isSome), (8, v.entry), (16, if v.tabOn then min (tTab s q) 511 else 0)])
  else if 0x00A00800 ≤ off ∧ off < 0x00A00880 ∧ off % 0x10 = 4 then
    let k := (off - 0x00A00800) / 0x10
    some (pack [(0, b2n (cmpr s k).out), (1, b2n (cmpArmed s k))])
  else if 0x00A01000 ≤ off ∧ off < 0x00A01200 ∧ off % 0x10 = 0xC then some (chan s ((off - 0x00A01000) / 0x10)).dec
  else none

end Sys2Proof.Machine
end

