-- ==== Sys2Proof/Machine/Journal.lean ====
section
/-! DEFINITION. The MRAM journal: its queue, its records and its window (R178 to R182). -/

namespace Sys2Proof.Machine

/-- Words in the journal (R178). -/
def jnlWords : Nat := 1048576

/-- Words that queued records take (R181): header, payload, commit word. -/
def jnlUsed (q : List JnlReq) : Nat := q.foldl (fun a r => a + r.words.length + 2) 0

/-- Is the record of a type that goes ahead of every other (R181). -/
def jnlUrgent (r : JnlReq) : Bool := r.ty == 3 || r.ty == 4

/-- Drop records that are not urgent, from the back, until `n` more words fit in 16 KiB; with the number dropped. -/
def jnlMakeRoom (n : Nat) (q : List JnlReq) : Nat → List JnlReq × Nat
  | 0 => (q, 0)
  | fuel + 1 =>
    if jnlUsed q + n ≤ 2048 then (q, 0)
    else
      let others := q.filter (fun r => !jnlUrgent r)
      if others.isEmpty then (q, 0)
      else
        let r := jnlMakeRoom n (q.filter jnlUrgent ++ others.dropLast) fuel
        (r.1, r.2 + 1)

/-- Count dropped records (R181). -/
def jnlDropped (n : Nat) (s : State) : State :=
  if n = 0 then s else setEvt (count s rGRN_JNL_DROP n) rGRN_EVT (bitv 5)

/-- Queue a journal record (R181): a record that does not fit is dropped; a FAULT or TRIP_IMAGE record goes ahead of every
other and displaces others. [DEDUCED: notes/assumptions/18] -/
def jnlPut (ty : Nat) (words : List U64) (s : State) : State :=
  let r : JnlReq := { ty := ty, words := words }
  let q := s.grn.jnlQ
  let n := words.length + 2
  if jnlUrgent r then
    let (q, lost) := jnlMakeRoom n q q.length
    let s := jnlDropped lost s
    if jnlUsed q + n ≤ 2048 then
      { s with grn := { s.grn with jnlQ := q.filter jnlUrgent ++ [r] ++ q.filter (fun x => !jnlUrgent x) } }
    else jnlDropped 1 { s with grn := { s.grn with jnlQ := q } }
  else if jnlUsed q + n ≤ 2048 then { s with grn := { s.grn with jnlQ := q ++ [r] } }
  else jnlDropped 1 s

/-! ### Completions of ordered flows (R63, R115, R180) -/

/-- The COMMAND record of a completion (R180): bytes 16 to 27 of the completion fill word 3 and half of word 4. A command that
came in an EFFECT message (`none`) has zeros there (R497). [DEDUCED: notes/assumptions/23] -/
def jnlCommand (epoch : U64) (seqNo : U64) (op : Nat) (session : U32) (c : Option Cpl) (s : State) : State :=
  let w := match c with
    | some c => (c.result.toNat + c.opcode.toNat * 2 ^ 32 + c.slot.toNat * 2 ^ 48, c.status.toNat + c.cls * 2 ^ 16 + b2n c.notRepl * 2 ^ 24)
    | none => (0, 0)
  jnlPut 2 [epoch, seqNo, u64 (op + session.toNat * 2 ^ 16), u64 w.1, u64 w.2] s

/-- The completions that may be written now: of each flow those that no earlier command of the flow holds back; with what stays.
[DEDUCED: notes/assumptions/20] -/
def flowGo : List Nat → List FlowEnt → List FlowEnt × List Cpl
  | _, [] => ([], [])
  | held, x :: xs =>
    match x.cpl with
    | some c =>
      if held.contains x.flow then let r := flowGo held xs; (x :: r.1, r.2)
      else let r := flowGo held xs; (r.1, c :: r.2)
    | none => let r := flowGo (x.flow :: held) xs; (x :: r.1, r.2)

/-- A command of an ordered flow completes: its completion is due in its turn (R63), and its COMMAND record follows. -/
def cplOut (c : Cpl) (s : State) : State :=
  let s := if c.journal then jnlCommand c.epoch c.seq c.opcode.toNat c.session (some c) s else s
  match c.ord with
  | none => postCpl s c
  | some o =>
    let q := s.cmd.flowQ.map (fun x => if x.ord = o then { x with cpl := some c } else x)
    let r := flowGo [] q
    r.2.foldl postCpl { s with cmd := { s.cmd with flowQ := r.1 } }

/-- CRC-32C (R196), reflected: one bit and one byte on the register. -/
def crcBit (c : Nat) : Nat := if c % 2 = 1 then Nat.xor (c / 2) 0x82F63B78 else c / 2
def crcByte (c b : Nat) : Nat :=
  crcBit (crcBit (crcBit (crcBit (crcBit (crcBit (crcBit (crcBit (Nat.xor c b))))))))

/-- The register after some bytes; the cases on it make Lean's kernel evaluate it byte by byte. -/
def crcGo : Bytes → Nat → Nat
  | [], c => c
  | b :: bs, 0 => crcGo bs (crcByte 0 b.toNat)
  | b :: bs, c + 1 => crcGo bs (crcByte (c + 1) b.toNat)

def crc32c (bs : Bytes) : U32 := u32 (Nat.xor (crcGo bs 0xFFFFFFFF) 0xFFFFFFFF)

/-- The header word and the commit word of a record (R179). -/
def jnlHeader (ty len seqno : Nat) : U64 := u64 (ty + len * 2 ^ 16 + (seqno % 2 ^ 32) * 2 ^ 32)
def jnlCommit (ws : List U64) (seqno : Nat) : U64 :=
  u64 ((crc32c (ws.flatMap (fun w => leBytes 8 w.toNat))).toNat + (seqno % 2 ^ 32) * 2 ^ 32)

/-- Does a record at `at_` of `len` payload words meet the `n` words from `head` (indices mod 2^20). -/
def jnlMeets (head n : Nat) (r : JnlRec) : Bool :=
  decide ((r.at_ + jnlWords - head) % jnlWords < n) || decide ((head + jnlWords - r.at_) % jnlWords < r.len + 2)

/-- The first queued record is written, header and payload first and the commit word last (R179, R182); what it overwrites is
counted (R178). -/
def journalWrite (s : State) : State :=
  match s.grn.jnlQ with
  | [] => s
  | r :: rest =>
    if !s.grn.jnlReady then s
    else
      let head := s.grn.jnlHead
      let sq := s.grn.jnlSeq
      let n := r.words.length + 2
      let body := jnlHeader r.ty r.words.length sq :: r.words
      let ws := body ++ [jnlCommit body sq]
      let mem := ((List.range n).zip ws).foldl (fun m p => tset 0 m ((head + p.1) % jnlWords) p.2) s.std.jnlMem
      let overr := s.std.jnl.any (jnlMeets head n)
      let jnl := s.std.jnl.filter (fun x => !jnlMeets head n x) ++ [{ at_ := head, len := r.words.length, seqno := sq }]
      let s := { s with std := { s.std with jnlMem := mem, jnl := jnl },
                        grn := { s.grn with jnlQ := rest, jnlHead := (head + n) % jnlWords, jnlSeq := (sq + 1) % 2 ^ 32 } }
      if overr then count s rGRN_JNL_WRAP else s

def execJournalWrite (s : State) : Host.Outcome State Fault Refusal := .next (journalWrite s)

/-- The journal head is located after a reset (R182): behind the newest record. -/
def jnlLocate (s : State) : State :=
  match s.std.jnl.getLast? with
  | some r => { s with grn := { s.grn with jnlReady := true, jnlHead := (r.at_ + r.len + 2) % jnlWords, jnlSeq := (r.seqno + 1) % 2 ^ 32 } }
  | none => { s with grn := { s.grn with jnlReady := true, jnlHead := 0, jnlSeq := 0 } }

def execJnlReady (s : State) : Host.Outcome State Fault Refusal := .next (if s.grn.jnlReady then s else jnlLocate s)

end Sys2Proof.Machine
end

