-- ==== Sys2Proof/Machine/Tim.lean ====
section
/-! DEFINITION. The time base and the station network: PTP time, the servo, steps, holdover, and the Ethernet ports
(16_time_network.md). -/

namespace Sys2Proof.Machine

/-- Time units per nanosecond: 5 × 2^16. -/
def ptpNsUnit : Int := 327680
/-- Time units per second. -/
def ptpSecUnit : Int := 1000000000 * 327680
/-- Time units per tick: 3.2 ns (R443). -/
def ptpTickUnit : Int := 1048576
/-- Ticks in half a second. -/
def halfSecTicks : Nat := 156250000

/-- PTP time at a tick (R443). -/
def ptpAt (s : State) (t : Nat) : Int := s.tim.base + t * ptpTickUnit
def ptpSec (x : Int) : Nat := (x / ptpSecUnit).toNat % 2 ^ 48
def ptpNs (x : Int) : Nat := ((x % ptpSecUnit) / ptpNsUnit).toNat
/-- The 16-bit fraction of a nanosecond. -/
def ptpFrac (x : Int) : Nat := ((x % ptpNsUnit) / 5).toNat

def eth (s : State) (n : Nat) : EthPort := tget {} s.tim.ports n
def setEth (s : State) (n : Nat) (v : EthPort) : State := { s with tim := { s.tim with ports := tset {} s.tim.ports n v } }
def ethEn (s : State) (n : Nat) : Bool := bit (rg s (rTIM_ETH_CFG n)) 0 && !(eth s n).retired

/-- The device does not discipline: it follows a stack partner's clock (R444, R492, R493). -/
def timShadow (s : State) : Bool :=
  s.stk.role == 1 || (decide (fld (rg s rSTK_CFG) 1 0 = 2) && s.stk.id != 0)

/-- The TIME signals of Snare (R463). -/
def timeSignals (s : State) : State :=
  let t := now s
  snareSig t 11 2 (b2n s.tim.stepPend.isSome) (snareSig t 11 1 (b2n s.tim.holdover) (snareSig t 11 0 (b2n s.tim.sync) s))

/-- TIME_STAT (R152). -/
def timeStat (s : State) : U32 := pack [(0, b2n s.tim.sync), (1, b2n s.tim.holdover)]

/-! ### Measurements (R451 to R456) -/

/-- A value divided by 16 and rounded to the nearest whole number, halves up. -/
def round16 (x : Int) : Int := (x + 8) / 16

/-- FREQ_MAX in ppb (R462). -/
def freqMax (s : State) : Int := 1000 * (max 1 (min 50 (fld (rg s rTIM_CFG) 5 0)) : Nat)

/-- The servo takes a new frequency adjustment: the spec states no arithmetic for it, so a free value, within the limits of
R444 for the time since the last measurement. The flag says that a limit acted.
[DESIGN CHOICE: notes/assumptions/14] -/
def servoY (s : State) : Int × Bool × State :=
  let (w, s) := draw Config.freeWord s
  let want := (w.setWidth 32).toInt
  let ms : Int := ((now s - s.tim.lastMeas) / 312500 : Nat)
  let m := freqMax s
  let y := clampI (s.tim.y - 10 * ms) (s.tim.y + 10 * ms) (clampI (-m) m want)
  (y, y != want, s)

/-- SYNC falls (R452, R453). -/
def syncLost (s : State) : State :=
  if s.tim.sync then setEvt { s with tim := { s.tim with sync := false, good := 0 } } rTIM_EVT (bitv 3)
  else { s with tim := { s.tim with good := 0 } }

/-- SYNC follows a measurement (R452). -/
def syncStep (ofs : Int) (s : State) : State :=
  if ofs.natAbs ≤ 16 * (rg s rTIM_SYNC_TOL).toNat then
    let g := s.tim.good + 1
    { s with tim := { s.tim with good := g, sync := s.tim.sync || decide (8 ≤ g) } }
  else syncLost s

/-- A measurement within STEP_THR: the servo slews (R452). -/
def servoSlew (ofs : Int) (s : State) : State :=
  let (y, lim, s) := servoY s
  let s := { s with tim := { s.tim with y := y, freqLim := lim, stepPend := none, holdover := false } }
  let s := if lim then report s (srcBlk 12 0) 0x0305 else s
  syncStep ofs s

/-- y in holdover: its mean over the last 16 s, a free value within FREQ_MAX (R453, R454). [DESIGN CHOICE: notes/assumptions/14] -/
def holdY (s : State) : State :=
  let (w, s) := draw Config.freeWord s
  { s with tim := { s.tim with y := clampI (-freqMax s) (freqMax s) (w.setWidth 32).toInt } }

/-- A measurement beyond STEP_THR: the pending step (R454); y is held as in holdover, from where that begins. -/
def stepPending (ofs : Int) (s : State) : State :=
  let isNew := s.tim.stepPend.isNone
  let s := syncStep ofs s
  let s := if s.tim.holdover then s else holdY s
  let s := { s with tim := { s.tim with stepPend := some (round16 ofs), holdover := true } }
  if isNew then report (setEvt s rTIM_EVT (bitv 0)) (srcBlk 12 0) 0x0300 else s

/-- Is a measurement ignored: from the acceptance of a step until 2 s after F_E (R455). -/
def measIgnored (s : State) : Bool := s.tim.accepted || s.tim.guard.any (fun t => decide (now s < t))

/-- A measurement is committed (R451 to R456, R458). -/
def measCommit (v : U32) (s : State) : State :=
  let port := fld v 0 0
  let theta := (join64 (rg s rTIM_MEAS_LO) (rg s rTIM_MEAS_HI)).toInt
  let ofs := theta - (rg s (rTIM_ETH_ASYM port)).toInt
  if timShadow s then s
  else if measIgnored s then count s rTIM_MEAS_IGN
  else
    let isFirst := !s.tim.seen
    let valid := s.std.rtcValid
    let boot := isFirst &&
      (if valid then decide (ofs.natAbs ≤ 16 * 1000000000 * fld (rg s rTIM_CFG) 23 16) else bit (rg s rTIM_CFG) 12)
    let s0 := { s with tim := { s.tim with seen := true, lastOfs := ofs } }
    let s1 :=
      if boot then { s0 with tim := { s0.tim with bootStep := some ofs, holdover := false } }
      else if ofs.natAbs ≤ 16 * (rg s rTIM_STEP_THR).toNat then servoSlew ofs s0
      else stepPending ofs s0
    timeSignals { s1 with tim := { s1.tim with lastMeas := now s } }

def execMeasurementCommit (bus : Bus) (v : U32) (s : State) : Host.Outcome State Fault Refusal :=
  match guardWrite s bus rTIM_MEAS_CTL v (measCommit v) with
  | .next t => .next (snareEval t)
  | o => o

/-- No measurement for HOLD_TO × 0.5 s: holdover (R453). -/
def holdoverTimeout (s : State) : State :=
  if s.tim.holdover || timShadow s then s
  else
    let n := max 1 (fld (rg s rTIM_CFG) 27 24)
    let s := syncLost (holdY (advanceTo s (s.tim.lastMeas + n * halfSecTicks)))
    let s := { s with tim := { s.tim with holdover := true } }
    timeSignals (report (setEvt s rTIM_EVT (bitv 2)) (srcBlk 12 0) 0x0301)

def execHoldoverTimeout (s : State) : Host.Outcome State Fault Refusal := .next (snareEval (holdoverTimeout s))

/-- An accepted step is added to PTP_BASE at F_E (R455). -/
def stepApply (ns : Int) (s : State) : State :=
  let s := { s with tim := { s.tim with base := s.tim.base + ns * ptpNsUnit, stepPend := none, accepted := false,
                                        guard := some (now s + 4 * halfSecTicks) } }
  timeSignals (setEvt s rTIM_EVT (bitv 1))

/-- The first measurement's step, at the next frame boundary, without acceptance (R456).
[DEDUCED: notes/assumptions/47] -/
def bootStepApply (s : State) : State :=
  match s.tim.bootStep with
  | none => s
  | some ofs =>
    setEvt { s with tim := { s.tim with base := s.tim.base + ofs * (ptpNsUnit / 16), bootStep := none, timeSet := true } }
      rTIM_EVT (bitv 1)

/-- PTP_BASE at the first frame after a reset (R456): PTP time there is the RTC, or 0. -/
def ptpFirstFrame (s : State) : State :=
  if s.tim.based then s
  else
    let rtc : Int := if s.std.rtcValid then
        s.std.rtcSec.toNat * ptpSecUnit + s.std.rtcFrac.toNat * ptpSecUnit / 32768 else 0
    let base : Int := if s.std.rtcValid then rtc - now s * ptpTickUnit else 0
    { s with tim := { s.tim with base := base, based := true } }

/-- The 2 s guard after a step ends (R455). -/
def guardEnd (s : State) : State :=
  match s.tim.guard with
  | none => s
  | some t => let s := advanceTo s t; { s with tim := { s.tim with guard := none } }

def execStepGuardEnd (s : State) : Host.Outcome State Fault Refusal := .next (guardEnd s)

/-- A PTP second boundary with SYNC: the RTC is loaded (R457). [DEDUCED: notes/assumptions/47] -/
def ptpSecond (s : State) : State :=
  if s.tim.sync then
    let x := ptpAt s (now s)
    let nextSec := (x + ptpSecUnit - 1) / ptpSecUnit
    let t := ((nextSec * ptpSecUnit - s.tim.base + ptpTickUnit - 1) / ptpTickUnit).toNat
    let s := advanceTo s t
    { s with std := { s.std with rtcSec := BitVec.ofNat 48 nextSec.toNat, rtcFrac := 0, rtcValid := true } }
  else s

/-! ### The Ethernet ports (R445 to R450, R459) -/

/-- Is a frame for this port: EtherType 0x88F7 after at most one tag, and a destination that R445 names; with TAGGED. -/
def ethAccept (s : State) (n : Nat) (f : Bytes) : Bool × Bool :=
  let dst := slice f 0 6
  let mac := leBytes 4 (rg s (rTIM_ETH_MAC_LO n)).toNat ++ leBytes 2 (fld (rg s (rTIM_ETH_MAC_HI n)) 15 0)
  let dstOk := dst == [0x01, 0x1B, 0x19, 0, 0, 0] || dst == [0x01, 0x80, 0xC2, 0, 0, 0x0E] || dst == mac
  let ty := beNat (slice f 12 2)
  let tagged := ty == 0x8100
  let ty := if tagged then beNat (slice f 16 2) else ty
  (dstOk && ty == 0x88F7, tagged)

/-- A time less or plus a latency in 1/16 ns. -/
def shift16 (x : Int) (n : Int) : Int := x + n * (ptpNsUnit / 16)

/-- The header of a receive slot (R446). -/
def rxHeader (len : Nat) (tagged : Bool) (x : Int) : Bytes :=
  leBytes 2 len ++ [BitVec.ofNat 8 (b2n tagged), 0] ++ leBytes 6 (ptpSec x) ++ leBytes 4 (ptpNs x) ++ leBytes 2 (ptpFrac x)

/-- An Ethernet frame arrives (R445, R446, R448): FCS excluded from `f`. -/
def ethReceive (n : Nat) (fcsOk : Bool) (f : Bytes) (s : State) : State :=
  let p := eth s n
  if !(ethEn s n && p.link) then s
  else if !fcsOk then
    report (setEth (count s (rTIM_ETH_FCS_CNT n)) n { p with error := true }) (srcBlk 12 (1 + n)) 0x0303
  else
    let (ok, tagged) := ethAccept s n f
    match (if ok then (List.range 16).find? (fun k => let v := tget {} p.slots k; !v.full && !v.handed) else none) with
    | none => count s (rTIM_ETH_RX_DROP n)
    | some k =>
      let x := shift16 (ptpAt s (now s)) (-(fld (rg s (rTIM_ETH_LAT n)) 31 16))
      let v : RxSlot := { full := true, arr := p.arr, bytes := fit 2048 (rxHeader f.length tagged x ++ f) }
      setEvt (setEth s n { p with slots := tset {} p.slots k v, arr := p.arr + 1 }) rTIM_EVT (bitv 7)

def execEthFrameReceive (n : Fin 2) (fcsOk : Bool) (f : Bytes) (s : State) : Host.Outcome State Fault Refusal :=
  .next (ethReceive n fcsOk f s)

/-- A core's read of RX_POP hands over the oldest full slot (R446); BAR0 reads 0. -/
def rxPop (bus : Bus) (n : Nat) (s : State) : State :=
  match bus with
  | .core _ =>
    let p := eth s n
    let full := (p.slots.filter (fun q => q.2.full && !q.2.handed)).foldl
      (fun b q => match b with | none => some q | some r => if q.2.arr < r.2.arr then some q else some r)
      (none : Option (Nat × RxSlot))
    match full with
    | none => { s with rdata := 0 }
    | some (k, v) =>
      let s := setEth s n { p with slots := tset {} p.slots k { v with full := false, handed := true } }
      { s with rdata := u64 (k + 16) }
  | _ => { s with rdata := 0 }

def execEthRxPop (bus : Bus) (n : Fin 2) (s : State) : Host.Outcome State Fault Refusal := .next (busLoad bus (rxPop bus n s))

/-- A write of RX_REL frees a slot (R446). -/
def rxRel (n : Nat) (v : U32) (s : State) : State :=
  let p := eth s n
  setEth s n { p with slots := tdel (fld v 3 0) p.slots }

def execEthRxRel (bus : Bus) (n : Fin 2) (v : U32) (s : State) : Host.Outcome State Fault Refusal :=
  guardWrite s bus (rTIM_ETH_RX_REL n) v (rxRel n v)

/-- The frame in the transmit buffer, with the 802.1Q tag where VLAN_EN is set (R446, R462). -/
def txFrameBytes (s : State) (n len : Nat) : Bytes :=
  let p := eth s n
  let raw := ((List.range 512).flatMap (fun w => leBytes 4 (tget 0 p.txbuf w).toNat)).take len
  let cfg := rg s (rTIM_ETH_CFG n)
  if bit cfg 2 then
    raw.take 12 ++ [0x81, 0x00] ++ beBytes 2 (fld cfg 7 5 * 2 ^ 13 + fld cfg 19 8) ++ raw.drop 12
  else raw

/-- A write of TX_CTL starts a transmission, or is ignored while one is busy (R446); a port that is off or retired sends
nothing (R459). [DEDUCED: notes/assumptions/47] -/
def txCtl (n : Nat) (v : U32) (s : State) : State :=
  let p := eth s n
  if p.busy then setEvt s rTIM_EVT (bitv 8)
  else if !ethEn s n then s
  else setEth s n { p with busy := true, txCtl := v, sent := txFrameBytes s n (fld v 10 0) }

def execEthTxCtlWrite (bus : Bus) (n : Fin 2) (v : U32) (s : State) : Host.Outcome State Fault Refusal :=
  guardWrite s bus (rTIM_ETH_TX_CTL n) v (txCtl n v)

/-- A frame is sent; its timestamp enters the queue, or is dropped (R448, R450). -/
def txDone (n : Nat) (s : State) : State :=
  let p := eth s n
  if !p.busy then s
  else
    let p := { p with busy := false }
    if !bit p.txCtl 11 then setEth s n p
    else
      let id := fld p.txCtl 31 16
      if p.tsq.length < 16 then
        let x := shift16 (ptpAt s (now s)) (fld (rg s (rTIM_ETH_LAT n)) 15 0)
        setEth s n { p with tsq := p.tsq ++ [{ id := id, time := x, lost := p.lostNext }], lostNext := false }
      else
        let s := wr (count (setEth s n { p with lostNext := true }) (rTIM_ETH_TXTS_DROP n)) (rTIM_ETH_TXTS_LOSTID n) (u32 id)
        report (setEvt s rTIM_EVT (bitv 4)) (srcBlk 12 (1 + n)) 0x0302

def execEthTxDone (n : Fin 2) (s : State) : Host.Outcome State Fault Refusal := .next (txDone n s)

/-- A read of TXTS_ID pops the oldest timestamp and latches its time (R450, R461); the debug port pops nothing (R525). -/
def txtsPop (bus : Bus) (n : Nat) (s : State) : State :=
  let p := eth s n
  match p.tsq with
  | [] => { s with rdata := 0 }
  | e :: rest =>
    let word := pack [(0, e.id), (16, 1), (17, b2n e.lost)]
    let s := { s with rdata := u64 word.toNat }
    match bus with
    | .debug => s
    | _ =>
      let s := wr (setEth s n { p with tsq := rest }) (rTIM_ETH_TXTS_NS n) (u32 (ptpNs e.time))
      let s := wr s (rTIM_ETH_TXTS_SEC_LO n) (u32 (ptpSec e.time))
      wr s (rTIM_ETH_TXTS_SEC_HI n) (pack [(0, ptpSec e.time / 2 ^ 32), (16, ptpFrac e.time)])

def execTxtsPop (bus : Bus) (n : Fin 2) (s : State) : Host.Outcome State Fault Refusal := .next (busLoad bus (txtsPop bus n s))

/-- A port's link goes up or down (R460, R462); a loss, of block lock or of synchronisation, makes an error frame (R459). -/
def ethLink (n : Nat) (up : Bool) (s : State) : State :=
  let p := eth s n
  if p.link = up then s
  else if up then setEth s n { p with link := true }
  else
    let s := setEth s n { p with link := false, error := true }
    report (report (setEvt s rTIM_EVT (bitv 6)) (srcBlk 12 (1 + n)) 0x0304) (srcBlk 12 (1 + n)) 0x0303

def execEthLinkChange (n : Fin 2) (up : Bool) (s : State) : Host.Outcome State Fault Refusal := .next (ethLink n up s)

/-- A write of ETHn_CFG: EN cleared restores a retired port (R459). -/
def ethCfgWrite (n : Nat) (v : U32) (s : State) : State :=
  let s := plainWrite (rTIM_ETH_CFG n) v s
  if bit v 0 then s else setEth s n { eth s n with retired := false }

/-- A saturated signed 32-bit word. -/
def sat32 (x : Int) : U32 := BitVec.ofInt 32 (clampI (-2147483648) 2147483647 x)

/-- The TIM registers that show structured state (R461, R462), as a core or another reader sees them. -/
def timRead (s : State) (isCore : Bool) (off : Nat) : Option U32 :=
  if off = rTIM_STAT then
    some (pack [(0, b2n s.tim.sync), (1, b2n s.tim.holdover), (2, b2n s.tim.stepPend.isSome), (3, b2n s.tim.timeSet),
                (4, b2n s.tim.freqLim), (5, b2n (timShadow s))])
  else if off = rTIM_PTP_NS then some (u32 (ptpNs (ptpAt s (now s))))
  else if off = rTIM_FREQ then some (BitVec.ofInt 32 s.tim.y)
  else if off = rTIM_LAST_OFS then some (sat32 (round16 s.tim.lastOfs))
  else if off = rTIM_PEND_LO then some (BitVec.ofInt 32 (s.tim.stepPend.getD 0))
  else if off = rTIM_PEND_HI then some (BitVec.ofInt 32 (s.tim.stepPend.getD 0 / 4294967296))
  else if off = rTIM_MEAS_LO ∨ off = rTIM_MEAS_HI then some 0
  else if 0x00C01000 ≤ off ∧ off < 0x00C01200 then
    let n := (off - 0x00C01000) / 0x100
    let p := eth s n
    if off % 0x100 = 0x04 then
      some (pack [(0, b2n p.link), (1, b2n p.retired), (8, (p.slots.filter (fun q => q.2.full)).length)])
    else if off % 0x100 = 0x34 then some (pack [(0, b2n p.busy)])
    else none
  else if 0x00C10000 ≤ off ∧ off < 0x00C11000 then some 0
  else if 0x00C20000 ≤ off ∧ off < 0x00C30000 then
    let n := (off - 0x00C20000) / 0x8000
    let k := (off % 0x8000) / 0x800
    some (if isCore then u32 (rd (tget {} (eth s n).slots k).bytes (off % 0x800) 4) else 0)
  else none

end Sys2Proof.Machine
end

