-- ==== Sys2Proof/Machine/Groups.lean ====
section
/-! DEFINITION. The converter's map: arms, groups, the look-ahead in force, the blocked state, retirement of cells, and the
block operation that the BLOCK command, Tocsin and protection share (R25, R112, R117, R118, R127 to R129, R134, R215, R216,
R358, R385, R392, R567). -/

namespace Sys2Proof.Machine

/-! ### The arm map (R134) -/

def armMap (s : State) (a : Nat) : ArmMap := tget {} s.cmd.arms a
def group (s : State) (g : Nat) : Group := tget {} s.cmd.groups g
def setGroup (s : State) (g : Nat) (v : Group) : State := { s with cmd := { s.cmd with groups := tset {} s.cmd.groups g v } }

/-- The cells of a map in arm order (R259). -/
def mapCells (m : ArmMap) : List Nat := m.ranges.flatMap (fun r => (List.range r.2).map (· + r.1))
def armCells (s : State) (a : Nat) : List Nat := mapCells (armMap s a)
def armMapped (s : State) (a : Nat) : Bool := !(armMap s a).ranges.isEmpty
def inRanges (rs : List (Nat × Nat)) (c : Nat) : Bool := rs.any (fun r => decide (r.1 ≤ c ∧ c < r.1 + r.2))

/-- The arm that maps a cell. -/
def armOf (s : State) (c : Nat) : Option Nat := (List.range 12).find? (fun a => inRanges (armMap s a).ranges c)

/-- The mapped arms of a group, and of a group mask. -/
def groupArms (s : State) (g : Nat) : List Nat := idxs 12 (fun a => armMapped s a && decide ((armMap s a).group = g))
def maskArms (s : State) (m : Nat) : List Nat := (idxs 4 m.testBit).flatMap (groupArms s)

/-- Is a cell on ring `r`; the rings of an arm. -/
def cellRing (c : Nat) : Nat := c / 256
def rangeOnRing (r : Nat) (q : Nat × Nat) : Bool := decide (0 < q.2 ∧ q.1 / 256 ≤ r ∧ r ≤ (q.1 + q.2 - 1) / 256)
def armOnRing (s : State) (a r : Nat) : Bool := (armMap s a).ranges.any (rangeOnRing r)

def ring (s : State) (r : Nat) : Ring := tget {} s.fur.rings r
def setRing (s : State) (r : Nat) (v : Ring) : State := { s with fur := { s.fur with rings := tset {} s.fur.rings r v } }

/-! ### The look-ahead in force (R25, R215, R216, R567) -/

def armLa (s : State) (a : Nat) : ArmLa := tget {} s.cmd.la a
def setArmLa (s : State) (a : Nat) (v : ArmLa) : State := { s with cmd := { s.cmd with la := tset {} s.cmd.la a v } }

/-- The epoch that a frame of a step down from frame `v` names: none in those that carry NONE (R216). -/
def downEpoch (s : State) (v j : Nat) : Option Nat := if v ≤ j ∧ j + laCfg s < v + 7 then none else some (j + laCfg s)

/-- The epoch that the arm's slots of frame `j` name; none in the frames of a step down that carry NONE (R216). -/
def slotEpoch (s : State) (a j : Nat) : Option Nat :=
  let v := armLa s a
  match v.up with
  | none => some (j + laCfg s)
  | some w =>
    if j < w then (match v.was with | none => some (j + laCfg s) | some d => downEpoch s d j)
    else match v.down with
      | none => some (j + 7)
      | some d => if j < d then some (j + 7) else downEpoch s d j

/-- The distance from frame `j` to the first epoch that arm `a` can still be commanded for: the look-ahead in force, and in
the frames of a step down the distance to its end. -/
def laReach (s : State) (a j : Nat) : Nat :=
  match slotEpoch s a j with
  | some e => e - j
  | none =>
    let v := armLa s a
    match v.up, v.down, v.was with
    | _, some d, _ => d + 7 - j
    | some w, none, some d => if w + laCfg s < d + 7 then w + 7 - j else d + 7 - j
    | _, _, _ => laCfg s

/-- The frame whose slots of arm `a` name epoch `e` (R128); of an epoch that no frame names, a frame before the step up. -/
def namingFrame (s : State) (a e : Nat) : Nat :=
  let v := armLa s a
  let past (d : Nat) : Nat := if e < d + 7 then e - 7 else e - laCfg s
  match v.up with
  | none => e - laCfg s
  | some w =>
    if e < w + 7 then (match v.was with | some d => past d | none => e - laCfg s)
    else match v.down with
      | none => e - 7
      | some d => past d

/-- Does an arm run at LA = 7 because of a wrap in epoch `j` (R215, R216). -/
def armAt7 (s : State) (a j : Nat) : Bool :=
  match (armLa s a).up with
  | none => false
  | some w => decide (w ≤ j) && (match (armLa s a).down with | none => true | some v => decide (j < v))

/-- The look-ahead in force on an arm in epoch `j`, as SYS_ADELAYa shows it. -/
def laAt (s : State) (a j : Nat) : Nat := if armAt7 s a j then 7 else laCfg s

/-- The largest look-ahead in force in frame `j` on some arms; the configured one where there is none (R112). -/
def laMax (s : State) (arms : List Nat) (j : Nat) : Nat :=
  if arms.isEmpty then laCfg s else arms.foldl (fun m a => max m (laReach s a j)) 0

/-- The first frame whose Harrow start is not earlier than tick `t` (R112). -/
def frameC (s : State) (t : Nat) : Nat := (t - hStart s + lTicks s - 1) / lTicks s + 1

/-- E_min of class C on some arms for a commit at tick `t` (R112). -/
def eMinC (s : State) (arms : List Nat) (t : Nat) : Nat := frameC s t + laMax s arms (frameC s t)

/-! ### Turns (R116) -/

/-- What the turns have made of their target as of epoch `e`: that of the last whose effect epoch has begun, `d` before the first. -/
def turnAt (d : Bool) (l : List Turn) (e : Nat) : Bool := l.foldl (fun b x => if x.e ≤ e then x.on else b) d

/-- A turn comes into its place: by effect epoch, and for one epoch in verification order (R116). -/
def turnInsert (x : Turn) : List Turn → List Turn
  | [] => [x]
  | y :: ys => if x.e < y.e ∨ (x.e = y.e ∧ x.ord < y.ord) then x :: y :: ys else y :: turnInsert x ys

def turnSort (l : List Turn) : List Turn := l.foldl (fun l x => turnInsert x l) []

/-- Drop turns that later ones had replaced by epoch `past`, the oldest that an image can still be asked for. -/
def turnPrune (past : Nat) : List Turn → List Turn
  | x :: y :: rest => if y.e ≤ past then turnPrune past (y :: rest) else x :: turnPrune past (y :: rest)
  | l => l

/-- A new turn joins those of its target. -/
def turnPush (past : Nat) (x : Turn) (l : List Turn) : List Turn := turnInsert x (turnPrune past l)

/-! ### Retirement (R132, R133, R392) -/

def cellTurns (s : State) (c : Nat) : List Turn := tget [] s.cmd.cells c

/-- Is a cell retired in epoch `e`. -/
def retiredAt (s : State) (c e : Nat) : Bool := turnAt false (cellTurns s c) e

/-- Has a cell's retirement been decided and not its restoration. -/
def retireDecided (s : State) (c : Nat) : Bool := match (cellTurns s c).getLast? with | some x => x.on | none => false

/-- A cell is retired or restored (`on`) from epoch `e` by the command at place `ord` of verification order. -/
def setTurn (on : Bool) (e ord : Nat) (s : State) (c : Nat) : State :=
  { s with cmd := { s.cmd with cells := tset [] s.cmd.cells c (turnPush (epochNow s - 64) { e := e, on := on, ord := ord } (cellTurns s c)) } }

/-- The RETIRE journal record (R180). -/
def jnlRetire (e cause : Nat) (cells : List Nat) (retire : Bool) (s : State) : State :=
  let ent := cells.map (fun c => c + (if retire then 0x8000 else 0))
  let ws := (List.range ((ent.length + 3) / 4)).map (fun i =>
    u64 ((List.range 4).foldl (fun a k => a + ent.getD (4 * i + k) 0 * 2 ^ (16 * k)) 0))
  jnlPut 1 (u64 e :: u64 (cause + cells.length * 256) :: ws) s

/-- A cell's record in the committed image. -/
def cellImg (s : State) (c : Nat) : CellImg := tget {} s.grn.commit.cells c

/-- Mapped cells of an arm, unretired as of now, with live reports in the latest committed epoch, without the cells in `drop` (R129,
R132). -/
def liveCells (s : State) (a : Nat) (drop : List Nat) : Nat :=
  ((armCells s a).filter (fun c => decide ((cellImg s c).report = 0) && !retiredAt s c (epochNow s) && !drop.contains c)).length

/-! ### The blocked state (R118) -/

/-- Is the pending effect a live DEBLOCK that names the group. -/
def deblockOf (g : Nat) (e : Eff) : Bool :=
  e.op == 0x0203 && e.ended.isNone && !e.applied &&
  (match e.payload with | .groupMask m => m.testBit g | _ => false)

/-- Is a DEBLOCK of the group pending. -/
def deblockPending (s : State) (g : Nat) : Bool := s.cmd.pend.any (deblockOf g)

/-- Have the group's cells been commanded BLK as of epoch `e`; so they have before the first turn (R543). -/
def lineAt (line : List Turn) (e : Nat) : Bool := turnAt true line e

/-- Does frame `j`, naming epoch `e`, carry BLK to the group: a BLOCK from its first frame, a DEBLOCK from its effect epoch. -/
def lineBlk (line : List Turn) (j e : Nat) : Bool :=
  line.foldl (fun b x => if (if x.on then x.j ≤ j else x.e ≤ e) then x.on else b) true

def groupBlocked (s : State) (g : Nat) : Bool := lineAt (group s g).line (epochNow s) && !deblockPending s g

/-- Is the converter blocked: every group that has an arm (R118). -/
def convBlocked (s : State) : Bool := (List.range 4).all (fun g => (groupArms s g).isEmpty || groupBlocked s g)

/-- Is the group deblocked, with no BLOCK of it to come (R129). -/
def groupDeblocked (s : State) (g : Nat) : Bool :=
  let l := (group s g).line
  !lineAt l (epochNow s) && !l.any (fun x => x.on && decide (epochNow s < x.e))

def linePush (g : Nat) (x : Turn) (s : State) : State :=
  let v := group s g
  setGroup s g { v with line := turnPush (epochNow s - 64) x v.line }

/-! ### The block operation (R127, R128, R385) -/

/-- The first frame of a BLOCK committed at tick `t` (R127). -/
def blockFrame (s : State) (t : Nat) : Nat := firstFrom s (t + 32)

/-- The groups that a DEBLOCK names. -/
def effMask (e : Eff) : Nat := match e.payload with | .groupMask m => m | _ => 0

/-- The first command frame of a DEBLOCK: the frame whose slots name its effect epoch (R128). -/
def cmdFrame (s : State) (e : Eff) : Nat :=
  match (maskArms s (effMask e)).map (fun a => namingFrame s a e.epoch) with
  | [] => e.epoch - laCfg s
  | x :: xs => xs.foldl min x

/-- Is a DEBLOCK cancelled by a block of `mask` with first frame `jB` (R128). -/
def cancelled (s : State) (mask jB : Nat) (e : Eff) : Bool :=
  e.op == 0x0203 && e.ended.isNone && !e.applied && decide (effMask e &&& mask ≠ 0) && decide (jB ≤ cmdFrame s e)

/-- Remove the DEBLOCK's turn from the lines of its groups. -/
def lineCancel (s : State) (e : Eff) : State :=
  (idxs 4 (effMask e).testBit).foldl
    (fun s g => setGroup s g { group s g with line := (group s g).line.filter (fun x => x.on || x.ord != e.id.ord) }) s

/-- Cancel the DEBLOCKs that `p` picks: they complete FAILED with `status` when epoch `at_` begins. -/
def cancelDeblocks (p : Eff → Bool) (status : Nat) (at_ : Nat) (s : State) : State :=
  let s := (s.cmd.pend.filter p).foldl lineCancel s
  let pend := s.cmd.pend.map (fun e => if p e then { e with ended := some (cFailed, status), at_ := some at_ } else e)
  { s with cmd := { s.cmd with pend := pend } }

/-- Block the groups of a mask, as a BLOCK committed at tick `t` does; with the effect epoch. `status` completes the DEBLOCKs
that it cancels (R128, R129, R385). -/
def blockGroups (mask t status : Nat) (s : State) : Nat × State :=
  let jB := blockFrame s t
  let e := jB + laMax s (maskArms s mask) jB
  let s := cancelDeblocks (cancelled s mask jB) status e s
  (e, (idxs 4 mask.testBit).foldl (fun s g => linePush g { e := e, j := jB, on := true, ord := s.cmd.ord } s) s)

/-- A protection decision blocks every group from the first frame after its burst, fails every pending DEBLOCK, and every END
becomes BLK (R129, R204, R271); `jB` is that frame. -/
def blockByDecision (jB : Nat) (s : State) : State :=
  let s := cancelDeblocks (fun e => e.op == 0x0203 && e.ended.isNone && !e.applied && decide (epochNow s < e.epoch))
    stProtection (epochNow s) s
  let arms := idxs 12 (armMapped s)
  let e := jB + laMax s arms jB
  let s := (List.range 4).foldl (fun s g => linePush g { e := e, j := jB, on := true, ord := s.cmd.ord } s) s
  let cells := s.hrw.cells.map (fun p => (p.1, { p.2 with endSt := 3, started := false, edges := [] }))
  { s with hrw := { s.hrw with cells := cells.filter (fun p => p.2 ≠ {}) } }

/-- Retire cells at Tocsin's demand from E_min of class C at capture (R392, R393); cells already retired are left. -/
def retireCells (cells : List Nat) (s : State) : State :=
  let cells := cells.filter (fun c => !retireDecided s c)
  if cells.isEmpty then s
  else
    let arms := cells.filterMap (armOf s)
    let e := eMinC s arms (now s)
    let s := cells.foldl (setTurn true e s.cmd.ord) s
    let s := jnlRetire e 1 cells true s
    setEvt (cells.foldl (fun s c => report s (srcCell c) 0x0383) s) rFLT_EVT (bitv 4)

/-! ### The look-ahead step (R117, R127, R215, R216) -/

/-- Is a ring of the arm wrapped. -/
def armWrapped (s : State) (a : Nat) : Bool := (List.range 64).any (fun r => armOnRing s a r && (ring s r).st == 5)

/-- Does an effect of class C touch arm `a`: DEBLOCK by its groups, CELL_RETIRE and CELL_RESTORE by their cells, CARRIER_SET. -/
def effTouches (s : State) (a : Nat) (e : Eff) : Bool :=
  match e.payload with
  | .groupMask m => e.op == 0x0203 && armMapped s a && m.testBit (armMap s a).group
  | .cells cs => cs.any (fun c => inRanges (armMap s a).ranges c)
  | .carrier b _ _ _ _ _ => b == a
  | _ => false

/-- A turn of a command moves with its effect epoch. -/
def turnMove (x : Eff) (e1 : Nat) (l : List Turn) : List Turn :=
  turnSort (l.map (fun p => if p.ord = x.id.ord ∧ p.e = x.epoch ∧ p.j = 0 then { p with e := e1 } else p))

/-- Move the effect epoch of a class C command, and what its decision has written, to `e1` (R117). -/
def moveEffect (e1 : Nat) (s : State) (x : Eff) : State :=
  let s := { s with cmd := { s.cmd with pend := s.cmd.pend.map (fun y =>
    if y.id.ord = x.id.ord then { y with epoch := e1, moved := true } else y) } }
  match x.payload with
  | .groupMask m =>
    (idxs 4 m.testBit).foldl (fun s g => setGroup s g { group s g with line := turnMove x e1 (group s g).line }) s
  | .cells cs =>
    cs.foldl (fun s c => { s with cmd := { s.cmd with cells := tset [] s.cmd.cells c (turnMove x e1 (cellTurns s c)) } }) s
  | _ => s

/-- A BLOCK whose first frame the step up reaches takes effect at its look-ahead of 7 (R127), in every group that it names, and so do the
completions of the DEBLOCKs that it cancelled. It is not EPOCH_MOVED. -/
def blockReached (s : State) (x : Turn) : State :=
  let e1 := x.j + 7
  let s := (List.range 4).foldl (fun s g =>
    setGroup s g { group s g with line := turnSort ((group s g).line.map (fun p => if p = x then { p with e := e1 } else p)) }) s
  let fix (y : Eff) : Eff :=
    if y.op = 0x0202 ∧ y.id.ord = x.ord ∧ y.epoch = x.e then { y with epoch := e1, la := 7 }
    else if y.op = 0x0203 ∧ y.ended.isSome ∧ y.at_ = some x.e then { y with at_ := some e1 }
    else y
  { s with cmd := { s.cmd with pend := s.cmd.pend.map fix } }

/-- Arm `a` steps up to a look-ahead of 7 at frame `w`. Pending effects whose frame is not built yet and that no frame of the new
look-ahead names move to the first epoch that one does (R117). -/
def stepUp (a w : Nat) (v : ArmLa) (s : State) : State :=
  let hit := s.cmd.pend.filter (fun e => e.ended.isNone && !e.applied && effTouches s a e &&
    decide (w ≤ namingFrame s a e.epoch ∧ e.epoch < w + 7))
  let blks := (group s (armMap s a).group).line.filter (fun x => x.on && decide (w ≤ x.j ∧ x.e < x.j + 7))
  blks.foldl blockReached (hit.foldl (moveEffect (w + 7)) (setArmLa s a v))

/-- The look-ahead of arm `a` where `j` is the next frame to be built: up where a ring of it is wrapped and LA is below 7, down where
none is any more, and the end of a step down. A step up that has not begun is undone; one that comes during a step down cuts it short.
[DEDUCED: notes/assumptions/64] -/
def laStep (j : Nat) (s : State) (a : Nat) : State :=
  let v := armLa s a
  let wrapped := armWrapped s a
  match v.up, v.down with
  | none, _ => if wrapped && decide (laCfg s < 7) then stepUp a j { up := some j } s else s
  | some w, none =>
    if wrapped then s
    else if w < j then setArmLa s a { up := some w, down := some j }
    else setArmLa s a (match v.was with | some d => { up := some d, down := some d } | none => {})
  | some _, some d =>
    if wrapped then stepUp a j { up := some j, was := some d } s
    else if d + 7 < j + laCfg s then setArmLa s a {}
    else s

/-- The next frame whose Harrow start is still to come: the first frame of a step that is decided now (R215, R216). -/
def nextBuild (s : State) : Nat := frameC s (now s + 1)

end Sys2Proof.Machine
end

