-- ==== Sys2Proof/Machine/Tocsin.lean ====
section
/-! DEFINITION. Tocsin: capture, classes and reactions, records, the first fault, leaky buckets, clearing and FAULT_N
(13_tocsin_faults.md). -/

namespace Sys2Proof.Machine

/-! ### Sources, classes and causes (R380 to R383) -/

/-- Does the source name a cell; the block and the member it names (R380). -/
def isCellSrc (src : U16) : Bool := decide (fld src 15 14 = 3)
def srcBlock (src : U16) : Nat := fld src 13 9
def srcInst (src : U16) : Nat := fld src 8 0
def srcCellIdx (src : U16) : Nat := fld src 13 0

/-- The class of a code: its field of FLT_CLSk; NOTE for a code past the table (R383, R401). -/
def codeClass (s : State) (code : U16) : Nat :=
  let c := code.toNat
  if c < 1152 then fld (rg s (rFLT_CLS (c / 16))) (2 * (c % 16) + 1) (2 * (c % 16)) else 0

/-- FAULT_CAUSE of a cell as last reported. -/
def cellFaultCause (s : State) (c : Nat) : U32 := u32 (tget (0, 0) (cellImg s c).rots 2).1

/-- CAUSE of a report at capture (R386). [DEDUCED: notes/assumptions/19] -/
def reportCause (s : State) (r : Report) : U32 :=
  if isCellSrc r.source then cellFaultCause s (srcCellIdx r.source)
  else if r.code = 0x0340 then u32 s.prt.latched.toNat
  else if r.code = 0x01C5 then rg s rHRW_CAR_EVT
  else match evtRegs (srcBlock r.source) with
    | q :: _ => rg s q
    | [] => 0

/-- DEMAND bits that a limit entry or the commit watchdog sets (R363, R365). -/
def spSourceMask (s : State) (i : Nat) : Nat :=
  if i = 80 then fld (rg s rPRT_SP_CFG) 23 16 else fld (rg s (rPRT_LIM_MASK (i - 16))) 7 0

/-- Is the cause of an error still present (the last column of R382 and of the codes of the other chapters). -/
def causeLive (s : State) (src code : U16) : Bool :=
  let i := srcInst src
  match code.toNat with
  | 0x0000 => !(s.sys.refclkOk && s.sys.pllLock)
  | 0x0042 => (cmdRing s (i - 1)).err
  | 0x0043 => !s.hst.linkUp
  | 0x0081 => s.std.latch0 || s.std.latch1
  | 0x0082 => s.std.vault == 4
  | 0x0103 => s.tsk.items.any (fun p => p.2.used && p.2.timedOut && 32 + p.2.id.flow == i)
  | 0x0181 => (tget {} s.lpe.loops (i - 16)).lost
  | 0x0182 => (tget {} s.lpe.loops (i - 16)).frozen
  | 0x0183 => (tget {} s.lpe.loops (i - 16)).fallback == 3
  | 0x01C1 => decide ((tget {} s.hrw.arms i).u < (armMap s i).nNeed) && !groupBlocked s (armMap s i).group
  | 0x01C5 => s.hrw.frozen
  | 0x0200 => (ring s i).st == 5
  | 0x0201 => (ring s i).island
  | 0x0202 => (ring s i).st == 7
  | 0x0205 => (ring s i).frameLoss
  | 0x0206 => (ring s i).warn
  | 0x02C0 => (tget {} s.stk.ports (i - 1)).st != 2
  | 0x02C4 => s.stk.partnerReady != 2
  | 0x02C5 => (tget {} s.stk.ports (i - 1)).st != 2
  | 0x0300 => s.tim.stepPend.isSome
  | 0x0301 => s.tim.holdover
  | 0x0304 => !(eth s (i - 1)).link
  | 0x0340 => bit s.prt.latched i
  | 0x0341 => decide (s.prt.demand.toNat &&& spSourceMask s i ≠ 0)
  | 0x0342 => bit s.prt.latched i
  | 0x0343 => true
  | 0x0344 => (tget {} s.prt.chans (i - 88)).st == 7
  | 0x0380 => (cellImg s (srcCellIdx src)).stat.testBit 5
  | 0x0442 => s.cores.any (fun p => p.2.halted)
  | _ => false

/-- The groups that a BLOCK reaction blocks with BLOCK_SCOPE = 0, by source (R385). -/
def sourceScope (s : State) (src : U16) : Nat :=
  let i := srcInst src
  let armMask (a : Nat) : Nat := if armMapped s a then 2 ^ (armMap s a).group else 0
  if isCellSrc src then
    (match armOf s (srcCellIdx src) with | some a => armMask a | none => 0)
  else match srcBlock src with
    | 7 => armMask i
    | 8 =>
      let r := if i < 64 then i else (i - 64) / 2
      bitsOf 4 (fun g => (groupArms s g).any (fun a => armOnRing s a r))
    | 6 =>
      if i < 16 then 15
      else
        let d := rg s (rLPE_LOOP_DST (i - 16))
        if bit d 4 then armMask (fld d 3 0) else 15
    | _ => 15

/-- The groups of a record's scope (R385). -/
def faultScope (s : State) (cls : Nat) (src : U16) : Nat :=
  if cls = 3 || bit (rg s rFLT_CFG) 7 then 15 else sourceScope s src

/-! ### Buckets (R391) -/

/-- The bucket of a source, if it has one: type × 0x10000 + element. -/
def bktKey (src : U16) : Option Nat :=
  let i := srcInst src
  if isCellSrc src then some (srcCellIdx src)
  else match srcBlock src with
    | 8 => if 64 ≤ i then some (0x10000 + (i - 64)) else none
    | 11 => if 16 ≤ i then some (0x20000 + (i - 16)) else none
    | 12 => if 1 ≤ i then some (0x30000 + (i - 1)) else none
    | _ => none

def bucket (s : State) (k : Nat) : Bkt := tget {} s.flt.bkts k
def setBucket (s : State) (k : Nat) (v : Bkt) : State := { s with flt := { s.flt with bkts := tset {} s.flt.bkts k v } }

/-- `bucket_frame` of R391: the bucket after an evaluated frame, and whether it retires its source. -/
def bucketStep (add limit leak : Nat) (error : Bool) (b : Bkt) : Bkt × Bool :=
  if b.retired then (b, false)
  else if error then
    if limit ≤ b.level + add then ({ b with clean := 0, level := limit, retired := true }, true)
    else ({ b with clean := 0, level := b.level + add }, false)
  else if leak ≤ b.clean + 1 then ({ b with clean := 0, level := b.level - 1 }, false)
  else ({ b with clean := b.clean + 1 }, false)

/-- An evaluated frame of the bucket of type `t`, element `e`; the flag says that it retires the element. -/
def bucketFrame (t e : Nat) (error : Bool) (s : State) : Bool × State :=
  let w := rg s (rFLT_BKT_CFG t)
  let r := bucketStep (max 1 (fld w 11 8)) (max 1 (fld w 4 0)) (max 1 (fld w 31 16)) error (bucket s (t * 0x10000 + e))
  let s := setBucket s (t * 0x10000 + e) r.1
  (r.2, if r.2 then count s (rFLT_BKT_RETIRED t) else s)

/-- Restoring an element sets its bucket to 0 (R392). [DEDUCED: notes/assumptions/23] -/
def bucketRestore (t e : Nat) (s : State) : State := setBucket s (t * 0x10000 + e) {}

/-! ### Records (R387 to R390) -/

/-- The words of a record (R387), with CAUSE_LIVE as given. -/
def recWord (r : FltRec) (live : Bool) (w : Nat) : U32 :=
  match w with
  | 0 => u32 (r.source.toNat + r.code.toNat * 2 ^ 16)
  | 1 => pack [(0, r.cls), (2, b2n r.isOpen), (3, b2n live), (4, b2n r.permanent), (8, min r.mergeCnt 255),
               (16, min r.sameCycle 255), (24, r.index)]
  | 2 => r.cause
  | 4 => lo32 r.epoch
  | 5 => hi32 r.epoch
  | 6 => lo32 r.tick
  | 7 => hi32 r.tick
  | _ => 0

def fltRec (s : State) (i : Nat) : FltRec := tget {} s.flt.recs i
def setFltRec (s : State) (i : Nat) (r : FltRec) : State := { s with flt := { s.flt with recs := tset {} s.flt.recs i r } }

/-- Is a BLOCK or TRIP record open. -/
def blockRecOpen (s : State) : Bool := s.flt.recs.any (fun p => p.2.isOpen && decide (2 ≤ p.2.cls))

/-- FAULT_ACTIVE (R395). -/
def faultActive (s : State) : Bool := blockRecOpen s || s.flt.overflow

/-- The open record of a source and code (R388). -/
def openRec (s : State) (src code : U16) : Option (Nat × FltRec) :=
  s.flt.recs.find? (fun p => p.2.isOpen && p.2.source == src && p.2.code == code)

/-- A retirement sets PERMANENT in the element's open records (R392). -/
def markPermanent (src : U16) (s : State) : State :=
  { s with flt := { s.flt with recs := s.flt.recs.map (fun p =>
      if p.2.isOpen && p.2.source == src then (p.1, { p.2 with permanent := true }) else p) } }

/-- An element other than a cell is retired: RETIRED, PERMANENT and the sticky event (R392). -/
def retireElement (src : U16) (s : State) : State := report (setEvt (markPermanent src s) rFLT_EVT (bitv 4)) src 0x0383

/-- Cells are retired at Tocsin's demand (R392, R393). -/
def tocsinRetire (cells : List Nat) (s : State) : State :=
  retireCells cells (cells.foldl (fun s c => if retireDecided s c then s else markPermanent (srcCell c) s) s)

/-- A report is lost or a record replaced (R389): TABLE_FULL is due at the end of the capture cycle, unless it is a TABLE_FULL that was lost. -/
def recLost (raises : Bool) (s : State) : State :=
  let s := setEvt (count s rFLT_REC_DROP) rFLT_EVT (bitv 2)
  { s with flt := { s.flt with lost := s.flt.lost || raises } }

/-- The oldest open NOTE or DEGRADE record. -/
def oldestMinor (s : State) : Option (Nat × FltRec) :=
  (s.flt.recs.filter (fun p => p.2.isOpen && decide (p.2.cls < 2))).foldl
    (fun b p => match b with
      | none => some p
      | some q => if p.2.age < q.2.age then some p else some q) none

/-- Put a new record at an index. -/
def putRec (i : Nat) (r : FltRec) (s : State) : FltRec × State :=
  let r := { r with isOpen := true, index := i, age := s.flt.nextAge }
  let s := setFltRec { s with flt := { s.flt with nextAge := s.flt.nextAge + 1 } } i r
  (r, snareEvent (now s) 10 i r.code.toNat (setEvt s rFLT_EVT (bitv 0)))

/-- Store a new record where its class asks for one and there is room (R384, R387, R389); an unstored one is returned as it
came, not open. -/
def storeRec (r : FltRec) (s : State) : FltRec × State :=
  if r.cls < 2 && decide (r.cls < fld (rg s rFLT_CFG) 1 0) then (r, s)
  else match (List.range 64).find? (fun i => !(fltRec s i).isOpen) with
    | some i => putRec i r s
    | none =>
      if r.cls < 2 then (r, recLost (r.code != 0x0384) s)
      else match oldestMinor s with
        | some (i, _) => putRec i r (recLost true s)
        | none => (r, recLost (r.code != 0x0384) { s with flt := { s.flt with overflow := true } })

/-- The first-fault capture and its FAULT journal record (R390, R180). [DEDUCED: notes/assumptions/19] -/
def firstFault (r : FltRec) (live : Bool) (s : State) : State :=
  if s.flt.first.isSome || decide (r.cls < fld (rg s rFLT_CFG) 3 2) then s
  else
    let ws := (List.range 4).map (fun i => join64 (recWord r live (2 * i)) (recWord r live (2 * i + 1)))
    jnlPut 3 (r.epoch :: r.tick :: ws) { s with flt := { s.flt with first := some { r with live := live } } }

/-- The DATA field of a Tocsin event (R386). -/
def evtData (s : State) (r : FltRec) (cnt : Nat) : Bytes :=
  leBytes 4 r.cause.toNat ++ leBytes 2 cnt ++ [BitVec.ofNat 8 (if r.isOpen then r.index else 0xFF)] ++
    [BitVec.ofNat 8 (match bktKey r.source with | some k => (bucket s k).level | none => 0xFF)]

/-- The event of a report that was not merged (R386): at most one per NOTE code in NOTE_HOLD frames. -/
def reportEvent (r : FltRec) (s : State) : State :=
  if r.cls = 0 then
    let l : NoteLim := tget {} s.flt.notes r.code.toNat
    let hold := max 1 (fld (rg s rFLT_CFG) 18 8)
    let e := epochNow s
    let put (v : NoteLim) (s : State) : State := { s with flt := { s.flt with notes := tset {} s.flt.notes r.code.toNat v } }
    if (match l.last with | some q => decide (e < q + hold) | none => false) then
      put { l with absorbed := min 0xFFFF (l.absorbed + 1) } s
    else
      raiseEvent (put { last := some e } s) r.source r.code 0 (l.absorbed != 0) (evtData s r l.absorbed)
  else raiseEvent s r.source r.code r.cls false (evtData s r 0)

/-! ### FAULT_N (R396, R397) -/

/-- Does an open record or OVERFLOW hold FAULT_N in HOLD mode. -/
def faultnHold (s : State) : Bool :=
  s.flt.overflow || s.flt.recs.any (fun p => p.2.isOpen && decide (fld (rg s rFLT_CFG) 5 4 ≤ p.2.cls))

/-- MIN_PULSE in ticks: 10 µs are 3,125 ticks. -/
def minPulseTicks (s : State) : Nat := 3125 * max 1 (min 1000 (fld (rg s rFLT_FAULTN_CFG) 9 0))

/-- A record of FAULTN_CLASS or above is captured: a pulse starts unless FAULT_N is low.
[DEDUCED: notes/assumptions/19] -/
def faultnCapture (s : State) : State :=
  if s.flt.faultn then s else { s with flt := { s.flt with faultn := true, pulse := some (now s + minPulseTicks s) } }

/-- After the pulse, FAULT_N is held or released by FAULTN_MODE. -/
def faultnUpdate (s : State) : State :=
  if s.flt.pulse.isSome || !s.flt.faultn then s
  else { s with flt := { s.flt with faultn := !bit (rg s rFLT_CFG) 6 && faultnHold s } }

/-- The minimum pulse ends. -/
def faultnPulseEnd (s : State) : State :=
  match s.flt.pulse with
  | none => s
  | some t =>
    let s := advanceTo s t
    faultnUpdate { s with flt := { s.flt with pulse := none } }

def execFaultnPulseEnd (s : State) : Host.Outcome State Fault Refusal := .next (faultnPulseEnd s)

/-! ### Capture (R384, R388) -/

/-- The reaction of a class (R384, R385, R393). -/
def reaction (r : FltRec) (s : State) : State :=
  let s := if r.code = 0x0380 ∧ isCellSrc r.source then tocsinRetire [srcCellIdx r.source] s else s
  let s := if r.cls = 3 then { s with flt := { s.flt with trips := s.flt.trips ++ [(r.source, r.code)] } } else s
  if 2 ≤ r.cls then (blockGroups (faultScope s r.cls r.source) (now s) stProtection s).2 else s

/-- One report in its capture cycle, with `same` others in it (R388). [DEDUCED: notes/assumptions/19] -/
def captureOne (same : Nat) (s : State) (r : Report) : State :=
  let cls := codeClass s r.code
  let cause := reportCause s r
  let live := causeLive s r.source r.code
  let s := if cls = 0 then count s rFLT_NOTE_CNT else s
  match openRec s r.source r.code with
  | some (i, o) =>
    let o := { o with mergeCnt := min 255 (o.mergeCnt + 1), cause := o.cause ||| cause }
    let s := snareEvent (now s) 10 i o.code.toNat (setEvt (setFltRec s i o) rFLT_EVT (bitv 5))
    let s := if r.code = 0x0380 ∧ isCellSrc r.source then tocsinRetire [srcCellIdx r.source] s else s
    firstFault o live s
  | none =>
    let n : FltRec := { source := r.source, code := r.code, cls := cls, sameCycle := min 255 same, cause := cause,
                        epoch := u64 (epochNow s), tick := s.tick }
    let (n, s) := storeRec n s
    let s := reportEvent n (firstFault n live s)
    let s := if n.isOpen && decide (fld (rg s rFLT_CFG) 5 4 ≤ cls) then faultnCapture s else s
    reaction n s

/-- Is report `a` handled before report `b` in one capture cycle (R388). -/
def reportBefore (s : State) (a b : Report) : Bool :=
  let x := codeClass s a.code; let y := codeClass s b.code
  decide (y < x) ||
  (decide (x = y) && (decide (a.source.toNat < b.source.toNat) || (a.source == b.source && decide (a.code.toNat < b.code.toNat))))

/-- Insert a report in the order of R388, behind its equals. -/
def reportInsert (s : State) (r : Report) : List Report → List Report
  | [] => [r]
  | x :: xs => if reportBefore s r x then r :: x :: xs else x :: reportInsert s r xs

/-- The first `n` waiting reports are captured in one cycle; with them. A cycle that lost one raises one TABLE_FULL (R389). [DEDUCED: notes/assumptions/18] -/
def captureCycle (n : Nat) (s : State) : List Report × State :=
  let rs := (s.flt.inbox.take n).foldl (fun l r => reportInsert s r l) []
  let s := rs.foldl (captureOne (rs.length - 1)) { s with flt := { s.flt with inbox := s.flt.inbox.drop n, lost := false } }
  (rs, snareEval (if s.flt.lost then report { s with flt := { s.flt with lost := false } } (srcBlk 14 0) 0x0384 else s))

/-- A capture cycle: the first waiting report and up to `extra` others; none while the clock is stopped (R397). -/
def tocsinReport (extra : Nat) (s : State) : State := if s.sys.clkRun then (captureCycle (extra + 1) s).2 else s

/-- `extra` further reports reach Tocsin in the same FAB cycle. -/
def execTocsinReport (extra : Nat) (s : State) : Host.Outcome State Fault Refusal := .next (tocsinReport extra s)

/-! ### Clearing (R389, R390, R394) -/

/-- Can a record be cleared. -/
def clearable (s : State) (r : FltRec) : Bool :=
  !causeLive s r.source r.code &&
  (decide (r.cls < 2) || (idxs 4 (faultScope s r.cls r.source).testBit).all (groupBlocked s))

/-- Clear record `i`, or refuse; `hit` lists the reports captured in the same cycle. -/
def clearRec (hit : List Report) (s : State) (i : Nat) : State :=
  let r := fltRec s i
  if !r.isOpen then s
  else if hit.any (fun q => q.source == r.source && q.code == r.code) || !clearable s r then
    setEvt (count s rFLT_CLR_REFUSE) rFLT_EVT (bitv 3)
  else
    let words := (List.range 8).flatMap (fun w => leBytes 4 (recWord r false w).toNat)
    let s' := setFltRec s i { r with isOpen := false }
    if r.mergeCnt = 0 then s' else raiseEvent s' r.source r.code 0xFF true words

/-- The effect of a FLT_CLEAR word after `n` reports captured in the cycle of the write. FIRST is cleared before them, so that
one of them can be the first of the new capture. [DEDUCED: notes/assumptions/49] -/
def fltClear (v : U32) (n : Nat) (s : State) : State :=
  let s := if bit v 10 then { s with flt := { s.flt with first := none } } else s
  let (hit, s) := captureCycle n s
  let s := if bit v 8 then clearRec hit s (fld v 5 0) else s
  let s := if bit v 9 then
      let s := (List.range 64).foldl (clearRec hit) s
      if blockRecOpen s then s else { s with flt := { s.flt with overflow := false } }
    else s
  faultnUpdate s

/-- A write of FLT_CLEAR with ONE, with `n` reports captured in its cycle. -/
def execFltClearOne (bus : Bus) (r : Fin 64) (n : Nat) (s : State) : Host.Outcome State Fault Refusal :=
  guardWrite s bus rFLT_CLEAR (bitv 8 ||| u32 r) (fltClear (bitv 8 ||| u32 r) n)

def execFltClearAll (bus : Bus) (n : Nat) (s : State) : Host.Outcome State Fault Refusal :=
  guardWrite s bus rFLT_CLEAR (bitv 9) (fltClear (bitv 9) n)

def execFltClearFirst (bus : Bus) (n : Nat) (s : State) : Host.Outcome State Fault Refusal :=
  guardWrite s bus rFLT_CLEAR (bitv 10) (fltClear (bitv 10) n)

/-- FAULT_N low: Tocsin, or Clapper input 9, 10, 11 or 13 latched (R397), a boot that failed (R541), or a reset under way
(R533). -/
def faultnLow (s : State) : Bool :=
  s.flt.faultn || decide (fld (rg s rSYS_BOOT_STAT) 10 8 ≠ 0) || decide (s.prt.latched &&& 0x2E00 ≠ 0) || s.sys.por || s.sys.pin || s.sys.soft

/-- IRQ_N low (R398), released in a reset (R533). -/
def irqnLow (s : State) : Bool := !(s.sys.por || s.sys.pin || s.sys.soft) && decide (irqSum s &&& rg s rFLT_IRQ_EN ≠ 0)

/-- The FLT registers that show structured state (R401, R402). -/
def fltRead (s : State) (off : Nat) : Option U32 :=
  if off = rFLT_STAT then
    let o := s.flt.recs.filter (fun p => p.2.isOpen)
    some (pack [(0, o.length), (7, b2n s.flt.overflow), (8, o.foldl (fun m p => max m p.2.cls) 0), (10, b2n (faultActive s)),
                (11, b2n (faultnLow s)), (12, b2n (irqnLow s)), (13, b2n s.flt.first.isSome)])
  else if off = rFLT_IRQ_SUM then some (irqSum s)
  else if 0x00E00040 ≤ off ∧ off < 0x00E00060 then
    some (match s.flt.first with | some r => recWord r r.live ((off - 0x00E00040) / 4) | none => 0)
  else if off = rFLT_BKT_LVL then
    let sel := rg s rFLT_BKT_SEL
    let t := fld sel 1 0; let e := fld sel 15 2
    let b := bucket s (t * 0x10000 + e)
    some (pack [(0, b.level), (16, b2n (b.retired || (decide (t = 0) && retireDecided s e)))])
  else if 0x00E01000 ≤ off ∧ off < 0x00E01800 then
    let r := fltRec s ((off - 0x00E01000) / 32)
    some (recWord r (r.isOpen && causeLive s r.source r.code) ((off % 32) / 4))
  else none

end Sys2Proof.Machine
end

