-- ==== Sys2Proof/Machine/Furrow.lean ====
section
/-! DEFINITION. Furrow: frames and slots, returned parts, wraps, training, the block symbol and drains (06_furrow_link.md,
with the deadlines of R159 to R162). -/

namespace Sys2Proof.Machine

/-! ### Ring state -/

def modRing (r : Nat) (f : Ring → Ring) (s : State) : State := setRing s r (f (ring s r))
def srcRing (r : Nat) : U16 := srcBlk 8 r
def laneNo (l : Lane) : Nat := match l with | .a => 0 | .b => 1
/-- The SOURCE of a lane (R381), by its RX. -/
def srcLane (r : Nat) (l : Lane) : U16 := srcBlk 8 (64 + 2 * r + laneNo l)

def ringCfgReg (s : State) (r : Nat) : U32 := rg s (rFUR_RING_CFG r)
def wrapTrain (s : State) (r : Nat) : Bool := bit (ringCfgReg s r) 1
def ringExpect (s : State) (r : Nat) : Nat := fld (ringCfgReg s r) 16 8
def missMax (s : State) (r : Nat) : Nat := fld (ringCfgReg s r) 27 24

/-- Does a ring carry cycle frames: RUN, WRAPPED or DRAIN (R206). -/
def ringLive (x : Ring) : Bool := x.st == 4 || x.st == 5 || x.st == 6
/-- RUN or WRAPPED. -/
def ringRunning (x : Ring) : Bool := x.st == 4 || x.st == 5

/-- A ring's state changes: the interrupt source and the Snare signal (R206, R415, R463). -/
def ringTo (r st : Nat) (s : State) : State :=
  let x := ring s r
  if x.st = st then s else snareSig (now s) 3 r st (intEdge (setRing s r { x with st := st }) (256 + r))

/-- The look-ahead of every arm follows the wraps from the next frame whose Harrow start comes (R215, R216). -/
def laFollow (s : State) : State := (List.range 12).foldl (laStep (nextBuild s)) s

/-- A ring enters a state; where it declares or leaves a wrap, the look-ahead follows. -/
def ringEnter (r st : Nat) (s : State) : State :=
  if (ring s r).st ≠ st ∧ ((ring s r).st = 5 ∨ st = 5) then laFollow (ringTo r st s) else ringTo r st s

/-- BLKSYM_N and FLOSS_N with their limits (R223). -/
def blksymN (s : State) : Nat := max 16 (fld (rg s rFUR_CFG) 15 8)
def flossN (s : State) : Nat := max 2 (min 8 (fld (rg s rFUR_CFG) 3 0))

/-! ### Slots (R193, R194, R204, R219) -/

/-- A command slot: STATE, OFFSET, effect epoch and BANK (R193). -/
def mkSlot (st off e bank : Nat) : U32 := pack [(0, st), (4, off), (20, e % 16), (24, bank)]
def slotNone : U32 := 0x0000000F

/-- HRW_ARMa_CFG.BANK (R273). -/
def armBank (s : State) (a : Nat) : Nat := fld (rg s (rHRW_ARM_CFG a)) 7 4

/-- The epoch that a slot of frame `j` names (R194): none where it is not a look-ahead of 4 to 8. -/
def slotE (j : Nat) (w : U32) : Option Nat :=
  let d := (fld w 23 20 + 32 - (j + 4) % 16) % 16
  if 4 < d then none else some (j + 4 + d)

/-- Does Furrow itself fill every slot of the ring in frame `j`: the first 16 epochs after training, and a drain. -/
def ringBlk (x : Ring) (j : Nat) : Bool := x.st == 6 || decide (j < x.first + 16)

/-- The slot of a cell in frame `j` (R194): RETIRE to a retired cell, BLK where the ring, its group or no arm asks for it, and else
what Harrow built; HOLD where the arm's selection was not handed off (R42), NONE in the frames of a step down (R216).
[DEDUCED: notes/assumptions/26] -/
def cellSlot (s : State) (x : Ring) (j c : Nat) : U32 :=
  match armOf s c with
  | none =>
    let e := j + laCfg s
    mkSlot (if retiredAt s c e then 5 else 4) 0 e 0
  | some a =>
    match slotEpoch s a j with
    | none => slotNone
    | some e =>
      let bank := armBank s a
      let h : HArm := tget {} s.hrw.arms a
      let built := decide (h.frame = j) && !h.busy
      if ringBlk x j || lineBlk (group s (armMap s a).group).line j e then mkSlot (if retiredAt s c e then 5 else 4) 0 e bank
      else if !built then mkSlot 0 0 e bank
      else tget (mkSlot 0 0 e bank) h.slots c

/-- Slots on a ring of `n` cells: `n` rounded up to a multiple of 4 (R192). -/
def slotCount (n : Nat) : Nat := (n + 3) / 4 * 4

/-! ### Cycle frames (R192, R196) -/

def ctl (w : Nat) : Block := { ctl := true, data := u64 w }
def dat (w : Nat) : Block := { ctl := false, data := u64 w }
def idleBlock : Block := ctl 0x1E

/-- The bytes of a block, and those after its type byte. -/
def blkBytes (b : Block) : Bytes := leBytes 8 b.data.toNat
def blkTail (b : Block) : Bytes := (blkBytes b).drop 1

/-- CMD_CRC: over H0, H1, H2 and the CMD blocks. -/
def cmdCrc (h : List Block) (cmd : List Block) : U32 := crc32c ((h.take 3 ++ cmd).flatMap blkBytes)

/-- FCRC of a frame from SOF to the last report block: control blocks without their type byte. -/
def frameCrc (bs : List Block) : U32 := crc32c (bs.flatMap (fun b => if b.ctl then blkTail b else blkBytes b))

/-- The CMD blocks of a list of slots: two slots a block, the even one low. -/
def cmdBlocks : List U32 → List Block
  | a :: b :: rest => dat (a.toNat + b.toNat * 2 ^ 32) :: cmdBlocks rest
  | [a] => [dat a.toNat]
  | [] => []

/-- FFLAGS of a frame (R192). -/
def fflags (s : State) (wrapped originB : Bool) : Nat := (timeStat s).toNat + 4 * b2n wrapped + 8 * b2n originB

/-- H0 to H3 of frame `j`. -/
def frameHead (s : State) (j sCount : Nat) (wrapped originB : Bool) : List Block :=
  let x := ptpAt s (j * lTicks s)
  [dat j, dat (ptpSec x + fflags s wrapped originB * 2 ^ 48),
   dat (ptpNs x + sCount * 2 ^ 32 + flenCode s * 2 ^ 48 + s.fur.bgen.toNat * 2 ^ 56), dat 0]

/-- A cycle frame (R192). -/
def cycleFrame (s : State) (r j : Nat) (wrapped originB : Bool) (slots : List U32) : List Block :=
  let n := slots.length
  let h := frameHead s j n wrapped originB
  let cmd := cmdBlocks slots
  let body := ctl (0x78 + 0x01 * 2 ^ 8 + r * 2 ^ 24) :: h ++ cmd ++ [ctl (0x2D + (cmdCrc h cmd).toNat * 2 ^ 8)] ++
    List.replicate (3 * n / 4) (dat (2 ^ 64 - 1))
  body ++ [ctl (0xE1 + (frameCrc body).toNat * 2 ^ 8)]

/-- A DISCOVER or MEASURE frame (R208, R209): D blocks launched as all ones. -/
def trainFrame (s : State) (r j ty expect : Nat) (originB : Bool) : List Block :=
  let h := frameHead s j expect false originB
  let body := ctl (0x78 + ty * 2 ^ 8 + r * 2 ^ 24) :: h ++ List.replicate (ringCells s) (dat (2 ^ 64 - 1))
  body ++ [ctl (0xE1 + (frameCrc body).toNat * 2 ^ 8)]

def setTx (r : Nat) (f : TxFrame) (s : State) : State := { s with fur := { s.fur with tx := tset {} s.fur.tx r f } }

/-- What a frame carries on the lanes that are not silenced. -/
def txPair (x : Ring) (a b : List Block) : TxFrame :=
  { a := if x.silA || x.offA then [] else a, b := if x.silB || x.offB then [] else b }

/-! ### Launch (R188, R199) -/

/-- A slot that has left takes effect on Harrow's record of the cell and on the arm's SW_EVT (R246, R267, R268): HOLD, NONE and a
frozen slot (R295) leave END and LAST, BYP counts in WAIT of a cell that is not admitted. -/
def cellSent (j c : Nat) (w : U32) (s : State) : State :=
  match slotE j w, armOf s c with
  | some e, some a =>
    let st := fld w 3 0
    if st = 0 ∨ 5 < st ∨ (s.hrw.frozen ∧ st < 4) then s
    else
      let h : HCell := tget {} s.hrw.cells c
      let moved := h.endSt != st - 1
      let h := { h with endSt := st - 1, last := if moved then some (e * 8 * lTicks s + fld w 19 4) else h.last,
                        wait := if st = 1 && !h.admitted then min 15 (h.wait + 1) else h.wait }
      let bump (x : HArm) : HArm := { x with pts := x.pts.map (fun p => if p.e = e then { p with sw := p.sw + 1 } else p) }
      { s with hrw := { s.hrw with cells := tset {} s.hrw.cells c h,
                                   arms := if moved then tmod {} s.hrw.arms a bump else s.hrw.arms } }
  | _, _ => s

/-- Frame `j` leaves on a ring that carries cycle frames. -/
def launchCycle (r j : Nat) (s : State) : State :=
  let x := ring s r
  let slots := (List.range x.n).map (fun p => cellSlot s x j (256 * r + p)) ++ List.replicate (slotCount x.n - x.n) slotNone
  let s := setTx r (txPair x (cycleFrame s r j x.wrapped false slots) (cycleFrame s r j x.wrapped true slots)) s
  let s := { s with fur := { s.fur with sent := s.fur.sent ++ [{ frame := j, ring := r, slots := slots }] } }
  let cells := (List.range x.n).zip slots
  let s := cells.foldl (fun s p => cellSent j (256 * r + p.1) p.2 s) s
  (cells.filter (fun p => inWin (rg s rSNR_CWIN_CMD) (256 * r + p.1))).foldl
    (fun s p => snareSig (j * lTicks s) 5 (256 * r + p.1) (fld p.2 3 0 + fld p.2 19 8 * 16) s) s

/-- A hop-local block goes out on a lane, unless that lane is silenced (R200, R210, R221). -/
def hopPut (l : Lane) (b : Block) (x : Ring) : Ring :=
  match l with
  | .a => if x.silA || x.offA then x else { x with hopA := some b }
  | .b => if x.silB || x.offB then x else { x with hopB := some b }

/-- The span delay requests of frame `j` (R200): every frame in MEASURE, every 16th in RUN. -/
def pdRequests (r j : Nat) (s : State) : State :=
  let x := ring s r
  if x.st = 3 ∨ (ringRunning x ∧ j % 16 = 0) then
    let q := ctl (0x99 + j % 256 * 2 ^ 8)
    setRing s r (hopPut .b q (hopPut .a q x))
  else s

/-- Completes the RING_CTL commands that wait for ring `r` (R138). -/
def ringCtlDone (r cls status at_ : Nat) (s : State) : State :=
  let waits (e : Eff) : Bool := e.op == 0x0307 && e.applied && e.ended.isNone &&
    (match e.payload with | .ringCtl q act => q == r && act != 1 | _ => false)
  { s with cmd := { s.cmd with pend := s.cmd.pend.map (fun e =>
      if waits e then { e with ended := some (cls, status), at_ := some at_ } else e) } }

/-- Declared wrapped: the sticky event and the report (R212). -/
def wrapReport (r : Nat) (s : State) : State := report (setEvt s rFUR_EVT (bitv 0)) (srcRing r) 0x0200

/-- The first loop position that counts as loop A, and as loop B, with the device's own loops (R210, R213). -/
def effLoopA (x : Ring) : Option Int := if x.gxA then some (-1) else x.loopA.map (fun p => (p : Int))
def effLoopB (x : Ring) : Option Int := if x.gxB then some x.n else x.loopB.map (fun p => (p : Int))

/-- The positions that the loops cut off (R213). -/
def cutOff (x : Ring) : List Nat :=
  match effLoopA x, effLoopB x with
  | some a, some b => (List.range x.n).filter (fun p => decide (a < (p : Int) ∧ (p : Int) < b))
  | _, _ => []

/-- Declare an island where positions are cut off: flagged and reported once, its cells retired (R213, R393). -/
def islandCheck (r : Nat) (s : State) : State :=
  let x := ring s r
  let cut := cutOff x
  if cut.isEmpty then s
  else
    let s := if x.island then s
      else report (setEvt (setRing s r { x with island := true }) rFUR_EVT (bitv 1)) (srcRing r) 0x0201
    tocsinRetire (cut.map (· + 256 * r)) s

/-- A state change that waits for the frame boundary takes place at F_j: DISCOVER, MEASURE, RUN or WRAPPED, or DRAIN.
[DEDUCED: notes/assumptions/26] -/
def ringBoundary (r j : Nat) (s : State) : State :=
  let x := ring s r
  match x.next with
  | none => s
  | some st =>
    let s := ringEnter r st (setRing s r { x with next := none, asked := false, left := if st = 2 then 2 else if st = 3 then 257 else 0 })
    if st = 4 ∨ st = 5 then
      let s := modRing r (fun x => { x with first := j, lossCnt := 0, tries := 0, wrapped := decide (st = 5) }) s
      let s := ringCtlDone r cDone stOk j s
      if st = 5 then islandCheck r (wrapReport r s) else s
    else if st = 6 then modRing r (fun x => { x with drainE := some j }) s
    else s

/-- What ring `r` launches at F_j (R206 to R209, R219). -/
def ringLaunch (j : Nat) (s : State) (r : Nat) : State :=
  let s := pdRequests r j (ringBoundary r j s)
  let x := ring s r
  match x.st with
  | 2 =>
    let left := x.left - 1
    let s := setRing s r { x with left := left, asked := x.asked || left == 0 }
    if 2 ≤ x.left then setTx r (txPair x (trainFrame s r j 2 (ringExpect s r) false) []) s
    else if x.left = 1 then setTx r (txPair x [] (trainFrame s r j 2 (ringExpect s r) true)) s
    else setTx r {} s
  | 3 =>
    let left := x.left - 1
    let s := setRing s r { x with left := left, asked := x.asked || (x.left == 1) }
    if x.left = 1 then
      setTx r (txPair x (trainFrame s r j 3 (ringExpect s r) false) (trainFrame s r j 3 (ringExpect s r) true)) s
    else setTx r {} s
  | 4 => launchCycle r j s
  | 5 => launchCycle r j s
  | 6 => if (match x.drainE with | some e => decide (j ≤ e + 1) | none => true) then launchCycle r j s else setTx r {} s
  | _ => setTx r {} s

/-- Every lane launches frame `j` (R188, R199); a burst that has ended is over (R203). While one still runs, no frame leaves, and the
live cells without a command count once as a yield (R41, R42). -/
def furLaunch (j : Nat) (s : State) : State :=
  let s := match s.fur.burst with
    | some t => if t ≤ now s then { s with fur := { s.fur with burst := none } } else s
    | none => s
  let s := { s with fur := { s.fur with sent := s.fur.sent.filter (fun f => decide (j < f.frame + 64)) } }
  if s.fur.burst.isSome then
    let s := (List.range 64).foldl (fun s r => ringBoundary r j s) s
    if s.fur.rings.any (fun p => ringLive p.2 && p.2.n != 0) then yieldCount s 3 else s
  else (s.fur.rings.map (·.1)).foldl (ringLaunch j) s

/-! ### Deadlines and returns (R159 to R162) -/

/-- A field of GRN_CLOSE_CFG within its limits (R184): T_CLOSE or T_CLOSE_W. -/
def closeLimit (n : Nat) : Nat := max 256 (min 16000 n)

/-- Frame `j` left the ring wrapped: a loop tick that the device held by F_j + T_CLOSE is not later than F_j (R214).
[DEDUCED: notes/assumptions/26] -/
def frameWrapped (s : State) (x : Ring) (j : Nat) : Bool :=
  let f := j * lTicks s
  x.ticks.any (fun p => decide (p.1 ≤ f + closeLimit (fld (rg s rGRN_CLOSE_CFG) 15 0)) && decide (p.2 ≤ f))

/-- The closure deadline of frame `j`, in ticks after F_j (R159, R184). -/
def closeTicks (s : State) (x : Ring) (j : Nat) : Nat :=
  let w := rg s rGRN_CLOSE_CFG
  closeLimit (if frameWrapped s x j then fld w 31 16 else fld w 15 0)

/-- Has the epoch whose reports frame `j` carries been closed. -/
def reportsClosed (s : State) (j : Nat) : Bool := match s.grn.next with | some k => decide (j ≤ k) | none => false

/-- A part joins the receive buffer of its frame, unless its epoch has closed (R162, R217). -/
def rxPut (r : Nat) (p : Part) (s : State) : State :=
  if reportsClosed s p.frame then s else modRing r (fun x => { x with rx := x.rx ++ [p] }) s

/-- Has every part of frame `j` come back (R159): the A copy of an unwrapped frame, both lanes of a wrapped one, but for a lane
whose RX has lost its input. [DEDUCED: notes/assumptions/26] -/
def frameReturned (s : State) (x : Ring) (j : Nat) : Bool :=
  let has (l : Lane) : Bool := x.rx.any (fun p => p.frame == j && p.lane == l)
  if frameWrapped s x j then (has .a || !x.aLock) && (has .b || !x.bLock) && (has .a || has .b) else has .a

/-- A block of a control type. -/
def isCtl (ty : Nat) (b : Block) : Bool := b.ctl && decide (fld b.data 7 0 = ty)

/-- Has a part the shape of the ring's cycle frame, SOF to EOF, with no foreign block between (R197). -/
def partShape (n : Nat) (bs : List Block) : Bool :=
  let c := slotCount n
  decide (bs.length = 7 + 5 * c / 4) &&
  (bs.head?.map (isCtl 0x78)).getD false && (bs.getLast?.map (isCtl 0xE1)).getD false &&
  ((bs.drop (5 + c / 2)).head?.map (isCtl 0x2D)).getD false &&
  decide ((bs.filter (fun b => b.ctl)).length = 3)

/-- Does a part pass: FCRC right and STOMPED 0 (R197). -/
def partGood (bs : List Block) : Bool :=
  match bs.getLast? with
  | none => false
  | some e => decide (fld e.data 39 8 = (frameCrc bs.dropLast).toNat) && !bit e.data 48

/-- The reports of a part, by position (R195). -/
def partReports (n : Nat) (bs : List Block) : List U64 :=
  let rpt := (bs.drop (6 + slotCount n / 2)).map (fun b => b.data.toNat)
  (List.range n).map (fun p =>
    let g := p / 4
    let w := rpt.getD (3 * g) 0 + rpt.getD (3 * g + 1) 0 * 2 ^ 64 + rpt.getD (3 * g + 2) 0 * 2 ^ 128
    u64 (w / 2 ^ (48 * (p % 4)) % 2 ^ 48))

/-- The ring is declared wrapped where it is in RUN (R212). -/
def declareWrap (r : Nat) (s : State) : State :=
  if (ring s r).st = 4 then wrapReport r (ringEnter r 5 (modRing r (fun x => { x with wrapped := true }) s)) else s

/-- The GX16K drops FRAME_LOSS at a correct return (R218). -/
def frameLossOff (r : Nat) (s : State) : State :=
  let x := ring s r
  if x.frameLoss then snareSig (now s) 3 (64 + r) 0 (setRing s r { x with frameLoss := false, lossCnt := 0 }) else s

/-- ASYM of an unwrapped return on RX A and its warning (R202). -/
def asymCheck (r transit : Nat) (cum : Nat) (s : State) : State :=
  let x := ring s r
  let asym : Int := (transit : Int) - (cum + x.spanN : Nat)
  let warn := decide (24 < asym.natAbs)
  let s' := setRing s r { x with asym := asym, warn := warn }
  if !warn then s' else if x.warn then setEvt s' rFUR_EVT (bitv 7)
  else report (setEvt s' rFUR_EVT (bitv 7)) (srcRing r) 0x0206

/-- A lane whose bucket is full is silenced (R221, R392). -/
def retireLane (r : Nat) (l : Lane) (s : State) : State :=
  let s := modRing r (fun x => match l with | .a => { x with offA := true } | .b => { x with offB := true }) s
  retireElement (srcLane r l) s

/-- A part that came back whole: counters, the bucket, and its reports in the receive buffer (R190, R197, R217). A B copy that comes back
after its epoch has closed is checked and counted all the same (R162). -/
def partReturn (r : Nat) (l : Lane) (j transit ret : Nat) (bs : List Block) (s : State) : State :=
  let x := ring s r
  let good := partGood bs
  let looped := bit ((bs.head?.map (·.data)).getD 0) 16
  let wrapped := frameWrapped s x j
  let part : Part := ⟨j, l, good, if good && (wrapped || looped || l == .a) then partReports x.n bs else []⟩
  let s := rxPut r part (modRing r (fun x => { x with trans := transit, ret := ret }) s)
  let s := wr s (rFUR_RING_RETMAX r) (u32 (max (rg s (rFUR_RING_RETMAX r)).toNat (min ret 65535)))
  let s :=
    if good then
      let s := frameLossOff r s
      if !looped && !wrapped && l == .a then asymCheck r transit (fld ((bs.getD 4 {}).data) 23 0) s else s
    else
      let e := ((bs.getLast?).map (·.data)).getD 0
      let s := if bit e 48 then modRing r (fun x => { x with stomp := pack [(0, fld e 47 40), (8, laneNo l), (9, 1)] }) s else s
      let s := match l with
        | .a => setEvt (count s (rFUR_RING_CRCA r)) rFUR_EVT (bitv 3)
        | .b => setEvt (count s (rFUR_RING_CRCB r)) rFUR_EVT (bitv 4)
      report s (srcLane r l) 0x0203
  let (full, s) := bucketFrame 1 (2 * r + laneNo l) (!good) s
  if full then retireLane r l s else s

/-- A part that lacks SOF or EOF, or holds a foreign block: counted; one that a burst cut leaves its cells CRC_BAD (R161, R197).
[DEDUCED: notes/assumptions/26] -/
def partFragment (r : Nat) (l : Lane) (j : Nat) (bs : List Block) (s : State) : State :=
  let s := setEvt (count s (rFUR_RING_FRAG r)) rFUR_EVT (bitv 8)
  let s := report s (srcLane r l) 0x0204
  if bs.any (isCtl 0xD2) then rxPut r { frame := j, lane := l, good := false, reports := [] } s else s

/-- Does what came back begin with a SOF that is LOOPED (R212). -/
def sofLooped (bs : List Block) : Bool :=
  match bs.head? with
  | some b => isCtl 0x78 b && bit b.data 16
  | none => false

/-- A copy or part of frame `j` comes back on an RX, `transit` after its launch in 1/16 ns (R190, R197): a looped SOF declares the wrap
(R212), and what comes back after the deadline is discarded (R162). A shadow only hears the master's returns (R494). -/
def framePart (r : Nat) (l : Lane) (j transit : Nat) (bs : List Block) (s : State) : State :=
  let x := ring s r
  if s.stk.role = 1 then modRing r (fun x => match l with | .a => { x with aLock := true } | .b => { x with bLock := true }) s
  else if !(ringLive x && s.fur.sent.any (fun f => f.frame == j && f.ring == r)) then s
  else
    let ret := (transit * 5 + 255) / 256 + 2 * bs.length
    let s := advanceTo s (j * lTicks s + ret)
    let s := if sofLooped bs then declareWrap r s else s
    if closeTicks s x j < ret then count s rGRN_LATE_DROP
    else if partShape x.n bs then partReturn r l j transit ret bs s
    else partFragment r l j bs s

def execFramePartReceive (r : Fin 64) (l : Lane) (j transit : Nat) (bs : List Block) (s : State) :
    Host.Outcome State Fault Refusal := .next (snareEval (framePart r l j transit bs s))

/-! ### Wraps (R187, R210 to R213) -/

/-- The earliest loop tick. -/
def minTick (a : Option Nat) (t : Nat) : Option Nat := some (match a with | some x => min x t | none => t)

/-- A loop tick `v` becomes known at tick `t` (R212, R214). -/
def holdTick (t v : Nat) (x : Ring) : Ring :=
  { x with loopTick := minTick x.loopTick v,
           ticks := if (match x.loopTick with | some u => decide (u ≤ v) | none => false) then x.ticks else x.ticks ++ [(t, v)] }

/-- Do the sync headers of the last 32 blocks show a lost input: 8 or more of them invalid, a set bit each (R187). The lock state machine
of Clause 49 never loses lock where this does not hold. -/
def inputLost (bad : BitVec 32) : Bool := decide (8 ≤ ((List.range 32).filter (fun i => bad.getLsbD i)).length)

/-- A ring RX declares input loss: the opposite TX is silenced, and a running ring is wrapped at the device's own port. -/
def inputLoss (r : Nat) (l : Lane) (s : State) : State :=
  let s := modRing r (fun x => match l with
    | .a => { x with aLock := false, silB := true }
    | .b => { x with bLock := false, silA := true }) s
  if ringRunning (ring s r) then
    let own (x : Ring) : Ring := match l with | .a => { x with gxB := true } | .b => { x with gxA := true }
    islandCheck r (declareWrap r (modRing r (fun x => holdTick (now s) (now s) (own x)) s))
  else s

/-- `bad` marks the invalid sync headers among the last 32 blocks. -/
def execRxInputLoss (r : Fin 64) (l : Lane) (bad : BitVec 32) (s : State) : Host.Outcome State Fault Refusal :=
  .next (if inputLost bad then snareEval (inputLoss r l s) else s)

/-- The full tick of a LOOP_TICK of 40 bits, at or before `t`. -/
def loopTickAt (t : Nat) (lt : Nat) : Nat := t - (t + 2 ^ 40 - lt) % 2 ^ 40

/-- Is a WRAP_AT one that a takeover ignores until its UNLOOP burst has ended (R502): from the neighbours of the device's own ports. -/
def wrapIgnored (s : State) (x : Ring) (pos : Nat) (side : Bool) : Bool :=
  decide (now s < s.stk.unloopEnd) && (if side then pos == 0 else pos + 1 == x.n)

/-- A WRAP_AT arrives: positions, loop tick, declaration and island. -/
def wrapAt (r pos : Nat) (side : Bool) (lt : Nat) (s : State) : State :=
  if !ringRunning (ring s r) || wrapIgnored s (ring s r) pos side then s
  else
    let s := modRing r (fun x =>
      let x := holdTick (now s) (loopTickAt (now s) lt) x
      if side then { x with loopB := some pos } else { x with loopA := some pos }) s
    islandCheck r (declareWrap r s)

/-- `side` 0 loops A to B, 1 loops B to A; `lt` is LOOP_TICK. -/
def execWrapAtReceive (r : Fin 64) (pos : U8) (side : Bool) (lt : BitVec 40) (s : State) : Host.Outcome State Fault Refusal :=
  .next (snareEval (wrapAt r pos.toNat side lt.toNat s))

/-! ### Span delays (R200) -/

/-- The TX that reaches the neighbour heard on an RX: RX A hears position N − 1, which TX B feeds. -/
def hopSend (r : Nat) (l : Lane) (b : Block) (s : State) : State :=
  modRing r (hopPut (match l with | .a => .b | .b => .a) b) s

/-- `turn` is the device's turn-round time in 1/16 ns. A device that does not drive its rings answers none (R494). -/
def execPdReqReceive (r : Fin 64) (l : Lane) (sq : U8) (turn : BitVec 24) (s : State) : Host.Outcome State Fault Refusal :=
  .next (if s.stk.role = 1 then s else hopSend r l (ctl (0xAA + sq.toNat * 2 ^ 8 + turn.toNat * 2 ^ 16)) s)

/-- `rtt` is t4 − t1 in 1/16 ns. -/
def execPdRespReceive (r : Fin 64) (l : Lane) (rtt turn : BitVec 24) (s : State) : Host.Outcome State Fault Refusal :=
  let d := (rtt.toNat - turn.toNat) / 2
  .next (modRing r (fun x => match l with | .a => { x with spanN := d } | .b => { x with span0 := d }) s)

/-! ### Training (R207 to R209) -/

/-- Training starts: 64 UNLOOP blocks on both TX lanes. -/
def startTrain (r : Nat) (s : State) : State :=
  let x := ring s r
  let s := setRing s r { x with
    n := 0, err := 0, next := none, tries := 0, left := 0, asked := false, t0 := now s, drainE := none, retrain := false,
    loopA := none, loopB := none, gxA := false, gxB := false, wrapped := false, island := false, loopTick := none, ticks := [], lossCnt := 0, warn := false, ids := [],
    dly := [], rx := [], silA := false, silB := false }
  let s := frameLossOff r s
  let u := List.replicate 64 (ctl 0x55)
  ringEnter r 1 (setTx r (txPair (ring s r) u u) s)

/-- Training stops in FAILED with a TRN_ERR code (R207, R208). -/
def trainFail (r err : Nat) (s : State) : State :=
  let s := modRing r (fun x => { x with err := err, next := none, asked := false }) s
  let s := ringCtlDone r cFailed stTrainFail (epochNow s) (ringEnter r 7 s)
  report (setEvt (setTx r {} s) rFUR_EVT (bitv 2)) (srcRing r) 0x0202

/-- Both lanes locked, or one where WRAP_TRAIN allows it: DISCOVER at the next boundary. -/
def trainLock (r : Nat) (a b : Bool) (s : State) : State :=
  let s := modRing r (fun x => { x with aLock := x.aLock || a, bLock := x.bLock || b }) s
  let x := ring s r
  if x.st = 1 ∧ ((x.aLock && x.bLock) || (wrapTrain s r && (x.aLock || x.bLock))) then
    setRing s r { x with next := some 2, silA := !x.bLock, silB := !x.aLock }
  else s

def execTrainLock (r : Fin 64) (a b : Bool) (s : State) : Host.Outcome State Fault Refusal := .next (trainLock r a b s)

/-- 10 ms pass without block lock. -/
def trainLockTimeout (r : Nat) (s : State) : State :=
  let x := ring s r
  if x.st = 1 ∧ x.next = none then trainFail r 1 (advanceTo s (x.t0 + 3125000)) else s

def execTrainLockTimeout (r : Fin 64) (s : State) : Host.Outcome State Fault Refusal := .next (snareEval (trainLockTimeout r s))

/-- A training frame failed FCRC: repeated up to 3 times, then FAILED with CRC (R207). -/
def trainRepeat (r : Nat) (s : State) : State :=
  let x := ring s r
  if x.tries < 3 then setRing s r { x with tries := x.tries + 1, asked := false, left := if x.st = 2 then 2 else 1 }
  else trainFail r 9 s

/-- The outcome of a discovery (R208): a TRN_ERR code, or the positions' identities and the loop positions.
[DEDUCED: notes/assumptions/26] -/
def discoverJudge (wrapTrain : Bool) (expect missMax nMax : Nat) (a b : DiscCopy) :
    Nat ⊕ (List U64 × Option Nat × Option Nat) :=
  let na := a.ids.length; let nb := b.ids.length
  if !a.looped && !b.looped then
    if na ≠ nb ∨ na = 0 ∨ nMax < na then .inl 2
    else if expect ≠ 0 ∧ na ≠ expect then .inl 3
    else if a.ids ≠ b.ids.reverse then .inl 4
    else .inr (a.ids, none, none)
  else if a.looped && b.looped && wrapTrain then
    if expect = 0 ∨ expect < na + nb then .inl 3
    else if missMax < expect - (na + nb) then .inl 8
    else .inr (a.ids ++ List.replicate (expect - (na + nb)) 0 ++ b.ids.reverse,
               if na = 0 then none else some (na - 1), if nb = 0 then none else some (expect - nb))
  else .inl 2

/-- The DISCOVER copies come back. A wrapped training that found no cell on one side has that loop at the device's own port (R208, R223). -/
def discoverReturn (r : Nat) (a b : DiscCopy) (s : State) : State :=
  let x := ring s r
  if x.st ≠ 2 ∨ !x.asked then s
  else if !a.good || !b.good then trainRepeat r s
  else match discoverJudge (wrapTrain s r) (ringExpect s r) (missMax s r) (ringCells s) a b with
    | .inl e => trainFail r e s
    | .inr (ids, la, lb) =>
      setRing s r { x with n := ids.length, ids := ids, loopA := la, loopB := lb, tries := 0, asked := false, next := some 3,
                           gxA := a.looped && la.isNone, gxB := a.looped && lb.isNone,
                           loopTick := if a.looped then some (now s) else none, ticks := if a.looped then [(now s, now s)] else [] }

def execDiscoverReturn (r : Fin 64) (a b : DiscCopy) (s : State) : Host.Outcome State Fault Refusal :=
  .next (snareEval (discoverReturn r a b s))

/-- The measured block of position `p`: SPAN_A, RES_A, SPAN_B, RES_B (R209). -/
def msField (ms : List U64) (p i : Nat) : Nat := fld (ms.getD p 0) (16 * i + 15) (16 * i)

/-- Do two measurements of one span fail: one exceeds 7.5 ns, or they differ by more than 0.8 ns, in 1/16 ns. -/
def spanBad (u v : Nat) : Bool := decide (120 < u ∨ 120 < v ∨ 8 * 16 < 10 * (max u v - min u v))

/-- Is position `p` reached by a training wrapped or not; is the span below position `p` whole. -/
def reached (x : Ring) (p : Nat) : Bool := !(cutOff x).contains p
def spanWhole (x : Ring) (p : Nat) : Bool :=
  (match x.loopA with | some a => p != a + 1 | none => true) && (match x.loopB with | some b => p != b | none => true) &&
  reached x (p - 1) && reached x p

/-- The first TRN_ERR of a measurement: SPAN, RESIDENCE, TRANSIT, or 0 (R209). -/
def measureErr (x : Ring) (short : Bool) (transit : Nat) (ms : List U64) : Nat :=
  let inner := (List.range (x.n - 1)).any (fun i => spanWhole x (i + 1) && spanBad (msField ms (i + 1) 0) (msField ms i 2))
  let first := x.loopA != none || x.loopB == none
  let last := x.loopB != none || x.loopA == none
  let wrapped := x.loopTick.isSome
  if (first && spanBad x.span0 (msField ms 0 0)) || (last && spanBad x.spanN (msField ms (x.n - 1) 2)) || inner then 5
  else if (List.range x.n).any (fun p => reached x p && decide (384 < msField ms p 1 ∨ 384 < msField ms p 3)) then 6
  else if (if short then 64000 else 128000) * (if wrapped then 2 else 1) < transit then 7
  else 0

/-- The MEASURE frame comes back: the checks, and RUN or WRAPPED at the next boundary. -/
def measureReturn (r : Nat) (good : Bool) (transit : Nat) (ms : List U64) (s : State) : State :=
  let x := ring s r
  if x.st ≠ 3 ∨ !x.asked then s
  else if !good then trainRepeat r s
  else
    let e := measureErr x (lTicks s == 400) transit ms
    if e ≠ 0 then trainFail r e s
    else setRing s r { x with dly := ms.take x.n, trans := transit, asked := false, tries := 0,
                              next := some (if x.loopTick.isSome then 5 else 4) }

def execMeasureReturn (r : Fin 64) (good : Bool) (transit : Nat) (ms : List U64) (s : State) :
    Host.Outcome State Fault Refusal := .next (snareEval (measureReturn r good transit ms s))

/-- A DISABLE that found ring `r` in DRAIN completes DONE OK with EPOCH 0 when the ring enters OFF (R220). -/
def ringDisableDone (r : Nat) (s : State) : State :=
  let waits (e : Eff) : Bool := e.op == 0x0307 && e.applied && e.ended.isNone && e.prog == 1 &&
    (match e.payload with | .ringCtl q act => q == r && act == 1 | _ => false)
  { s with cmd := { s.cmd with pend := s.cmd.pend.map (fun e =>
      if waits e then { e with ended := some (cDone, stOk), at_ := some 0 } else e) } }

/-- A ring comes to OFF; RING_CTL commands that wait for it fail (R219, R220). -/
def ringClear (r : Nat) (s : State) : State :=
  let s := ringDisableDone r (ringCtlDone r cFailed stTrainFail (epochNow s) s)
  let s := modRing r (fun x => { x with err := 0, next := none, asked := false, drainE := none, retrain := false }) s
  frameLossOff r (ringTo r 0 (setTx r {} s))

/-- A ring returns to OFF, and the look-ahead follows a wrap that ends. -/
def ringOff (r : Nat) (s : State) : State :=
  if (ring s r).st = 5 then laFollow (ringClear r s) else ringClear r s

/-- A drain begins at the next frame boundary, or at once ends training (R219, R220). -/
def ringDrain (r : Nat) (s : State) : State :=
  let x := ring s r
  if ringRunning x then setRing s r { x with next := some 6, retrain := false }
  else if x.st = 6 then setRing s r { x with retrain := false }
  else ringOff r s

/-- A write of FUR_RINGr_CFG: EN set starts training, EN cleared a drain (R207, R219). -/
def furRingCfg (r : Nat) (v : U32) (s : State) : State :=
  let was := bit (ringCfgReg s r) 0
  let s := plainWrite (rFUR_RING_CFG r) v s
  let st := (ring s r).st
  if bit v 0 then (if st = 0 ∨ st = 7 then startTrain r s else s)
  else if was then ringDrain r s else s

def execFurRingCfgWrite (bus : Bus) (r : Fin 64) (v : U32) (s : State) : Host.Outcome State Fault Refusal :=
  match guardWrite s bus (rFUR_RING_CFG r) v (furRingCfg r v) with
  | .next t => .next (snareEval t)
  | o => o

/-- The drain of ring `r` ends (R219): OFF, or training at once. -/
def drainEnd (r : Nat) (s : State) : State :=
  let x := ring s r
  if x.retrain then frameLossOff r (startTrain r s) else ringOff r s

/-! ### The block symbol (R203) -/

/-- Is a cycle frame on its way out of some lane. -/
def frameInFlight (s : State) : Bool :=
  s.fur.rings.any (fun p => ringLive p.2 && decide (now s % lTicks s < 2 * (7 + 5 * slotCount p.2.n / 4)))

/-- Every TX lane sends the burst; a running burst takes a further decision in, and the first frame after it carries the new
BGEN. A ring in DISCOVER or MEASURE starts that step again (R207). With the flag: a new burst.
[DEDUCED: notes/assumptions/26] -/
def burstStart (s : State) : Bool × State :=
  if s.fur.burst.isSome then (false, s)
  else
    let t := now s + 2 * blksymN s
    let g := s.fur.bgen + 1
    let s := if s.sys.running && frameInFlight s then yieldCount s 3 else s
    let again (p : Nat × Ring) : Nat × Ring :=
      if p.2.st = 2 ∨ p.2.st = 3 then (p.1, { p.2 with next := some p.2.st, asked := false }) else p
    let burst := List.replicate (blksymN s) (ctl (0xD2 + g.toNat * 2 ^ 8 + 0xA55AA55AA55A * 2 ^ 16))
    let tx := (List.range 64).map (fun r => (r, txPair (ring s r) burst burst))
    let s := { s with fur := { s.fur with bgen := g, burst := some t, rings := s.fur.rings.map again,
                                          tx := tx.filter (fun p => p.2 ≠ {}) } }
    (true, setEvt (count s rFUR_BLKSYM_CNT) rFUR_EVT (bitv 6))

/-- The first frame after the burst. -/
def burstFrame (s : State) : Nat := firstFrom s (s.fur.burst.getD (now s))

/-- The FUR registers that show structured state (R222, R223). -/
def furRead (s : State) (off : Nat) : Option U32 :=
  let cnt (p : Ring → Bool) : Nat := (s.fur.rings.filter (fun q => p q.2)).length
  if off = rFUR_STAT then
    some (pack [(0, cnt ringRunning), (8, cnt (fun x => x.st == 5)), (16, cnt (fun x => x.st == 7))])
  else if off = rFUR_BGEN then some (u32 s.fur.bgen.toNat)
  else if 0x00801000 ≤ off ∧ off < 0x00802000 then
    let x := ring s ((off - 0x00801000) / 0x40)
    match off % 0x40 with
    | 0x04 => some (pack [(0, x.st), (3, b2n x.aLock), (4, b2n x.bLock), (5, b2n x.warn), (6, b2n x.frameLoss), (8, x.n), (20, x.err)])
    | 0x08 => some (pack [(0, x.loopA.getD 0), (8, x.loopB.getD 0), (16, b2n x.loopA.isSome), (17, b2n x.loopB.isSome),
                          (18, b2n x.island), (19, b2n (x.gxA || x.gxB))])
    | 0x0C => some (u32 (x.loopTick.getD 0))
    | 0x10 => some (u32 (min x.trans 0xFFFFF))
    | 0x14 => some (u32 (usgn 16 x.asym))
    | 0x18 => some (u32 (min x.ret 0xFFFF))
    | 0x28 => some x.stomp
    | _ => none
  else if 0x00802000 ≤ off ∧ off < 0x00803000 then
    let x := ring s (fld (rg s rFUR_DLY_SEL) 5 0)
    let p := (off % 0x800) / 8
    let w := (if off < 0x00802800 then x.dly else x.ids).getD p 0
    some (if off % 8 = 0 then lo32 w else hi32 w)
  else none

end Sys2Proof.Machine
end

