-- ==== Sys2Proof/Machine/Harrow.lean ====
section
/-! DEFINITION. Harrow: the reference of each frame, usable cells, level and remainder, selection, and the fractional edge of
the arms in level synthesis (08_harrow_levels.md). -/

namespace Sys2Proof.Machine

def hcell (s : State) (c : Nat) : HCell := tget {} s.hrw.cells c
def setHCell (s : State) (c : Nat) (v : HCell) : State := { s with hrw := { s.hrw with cells := tset {} s.hrw.cells c v } }
def harm (s : State) (a : Nat) : HArm := tget {} s.hrw.arms a
def setHArm (s : State) (a : Nat) (v : HArm) : State := { s with hrw := { s.hrw with arms := tset {} s.hrw.arms a v } }
def srcArm (a : Nat) : U16 := srcBlk 7 a

/-- Arm configuration fields (R273). -/
def armCfg (s : State) (a : Nat) : U32 := rg s (rHRW_ARM_CFG a)
def minPulse (s : State) (a : Nat) : Nat := fld (rg s (rHRW_ARM_TIME a)) 12 0
def deadTime (s : State) (a : Nat) : Nat := fld (rg s (rHRW_ARM_TIME a)) 27 16
def admBand (s : State) (a : Nat) : Nat := fld (rg s (rHRW_ARM_ADM a)) 15 0
def admEpochs (s : State) (a : Nat) : Nat := max 1 (fld (rg s (rHRW_ARM_ADM a)) 19 16)
def staleHold (s : State) (a : Nat) : Nat := fld (rg s (rHRW_ARM_ADM a)) 27 24

/-- Firing units in a frame: 8 L (R26). -/
def firingUnits (s : State) : Nat := 8 * lTicks s

/-! ### Reference and current sign (R247 to R249) -/

/-- A + (B − A) × q ÷ d in binary32, and exactly B at the end. -/
def interpRef (a b : U32) (q d : Nat) : U32 :=
  if d ≤ q then b else f32Add a (f32Div (f32Mul (f32Sub b a) (f32OfNat q)) (f32OfNat d))

/-- The published set is taken at the Harrow start of frame `j`, within the period it was written for (R29, R30, R249). -/
def takeSet (a j : Nat) (s : State) : State :=
  let h := harm s a
  match s.lpe.refsM with
  | none => s
  | some n =>
    if s.lpe.busy && decide (s.lpe.sample = some n) || h.setN = some n || decide (j < n + 2) || decide (n + pFrames s + 1 < j) then s
    else
      let b := tget 0 s.lpe.refs a
      let bad := !f32Fin b
      let s := setHArm s a { h with refA := h.refJ, refB := if bad then h.refJ else b, setN := some n, setFrom := some j, bad := bad }
      if bad then report (setEvt s rHRW_EVT (bitv 7)) (srcArm a) 0x01C2 else s

/-- ref_j (R248). -/
def refOf (s : State) (a j : Nat) : U32 :=
  let h := harm s a
  match h.setN, h.setFrom with
  | some n, some j0 =>
    if bit (armCfg s a) 2 then interpRef h.refA h.refB (j + 1 - j0) (n + pFrames s + 2 - j0) else h.refB
  | _, _ => h.refJ

def refStep (a j : Nat) (s : State) : State :=
  let s := takeSet a j s
  setHArm s a { harm s a with refJ := refOf s a j }

/-- ISIGN (R247): 0 negative, 1 positive, 2 dead band. -/
def isignOf (s : State) (a : Nat) : Nat :=
  let d := (chan s (fld (armCfg s a) 12 8)).dec
  let i := if bit (armCfg s a) 13 then f32Neg d else d
  let b := rg s (rHRW_ARM_IDB a)
  if f32Lt b i then 1 else if f32Lt i (f32Neg b) then 0 else 2

/-! ### Usable cells (R250 to R253) -/

/-- HELD follows the last LIVE report of the committed image (R246). -/
def holdCell (s : State) (c : Nat) : State :=
  let g := cellImg s c
  match g.lastLive with
  | none => s
  | some k => setHCell s c { hcell s c with held := g.vcap, heldAt := some k, stat := g.stat }

/-- STATUS.FAULT or STATUS.SELFBLK of the last report (R238). -/
def cellSick (h : HCell) : Bool := h.stat.testBit 5 || h.stat.testBit 4

/-- Is the report LIVE, or HELD no older than STALE_HOLD. -/
def cellFresh (s : State) (a c : Nat) : Bool :=
  decide ((cellImg s c).report = 0) ||
  (match (hcell s c).heldAt with | some k => decide (s.grn.commit.k ≤ k + staleHold s a) | none => false)

/-- Admission at the build for the epoch of a DEBLOCK (R252), and its loss in a later one (R250); a cell that loses it counts WAIT from 0.
[DEDUCED: notes/assumptions/27] -/
def admitStep (a e : Nat) (first : Bool) (s : State) (c : Nat) : State :=
  let h := hcell s c
  let lose : HCell := if h.admitted then { h with admitted := false, wait := 0 } else h
  if retiredAt s c e then setHCell s c lose
  else if first then
    setHCell s c (if decide ((cellImg s c).report = 0) && !cellSick h then { h with admitted := true } else lose)
  else if h.admitted && !cellFresh s a c then
    let s := setEvt (count (setHCell s c lose) (rHRW_ARM_EXCL_CNT a)) rHRW_EVT (bitv 6)
    report s (srcCell c) 0x01C4
  else s

/-- May the cell be selected: unretired, admitted, healthy. -/
def cellUsable (s : State) (e c : Nat) : Bool :=
  let h := hcell s c
  !retiredAt s c e && h.admitted && !cellSick h

/-- V_N with NORM = 0 (R254): the sum in volts, LSB 31.25 mV, divided as VMEAN is (R153). [DEDUCED: notes/assumptions/27] -/
def meanVolts (s : State) (a : Nat) (cs : List Nat) : U32 :=
  if cs.isEmpty then rg s (rHRW_ARM_VNOM a)
  else f32Div (u32 (fOfRat fmt32 ((cs.foldl (fun x c => x + (hcell s c).held) 0 : Nat) : Int) 32)) (f32OfNat cs.length)

/-- Does VCAP of a cell lie within ADM_BAND of a mean over some cells (R252), compared exactly in units of 31.25 mV. -/
def inAdmBand (s : State) (a : Nat) (cs : List Nat) (c : Nat) : Bool :=
  let v := (hcell s c).held
  if cs.isEmpty then
    let vn := f32Mul (rg s (rHRW_ARM_VNOM a)) (f32OfNat 32)
    f32Le (f32Abs (f32Sub (f32OfNat v) vn)) (f32OfNat (admBand s a))
  else
    let n := cs.length
    let sum := cs.foldl (fun x c => x + (hcell s c).held) 0
    decide (((v * n : Nat) : Int) - sum ≤ (admBand s a * n : Nat)) && decide ((sum : Int) - (v * n : Nat) ≤ (admBand s a * n : Nat))

/-- Later admissions (R252): WAIT, a LIVE report, and VCAP near the mean of the cells usable so far. -/
def admitLate (a e : Nat) (s : State) : State :=
  let cs := armCells s a
  let base := cs.filter (cellUsable s e)
  let ok (c : Nat) : Bool :=
    let h := hcell s c
    !h.admitted && !retiredAt s c e && !cellSick h && decide (admEpochs s a ≤ h.wait) && decide ((cellImg s c).report = 0) &&
    inAdmBand s a base c
  (cs.filter ok).foldl (fun s c => setHCell s c { hcell s c with admitted := true }) s

/-! ### Selection (R257 to R260) -/

/-- `harrow_key` (R258). -/
def harrowKey (vcap : Nat) (inserted pos : Bool) (tol : Nat) : Nat :=
  let v : Int := if inserted then (if pos then (vcap : Int) - tol else vcap + tol) else vcap
  let v := (clampI 0 65535 v).toNat
  if pos then v else 65535 - v

/-- A usable cell in selection: its key and rotated order, END and LAST, and its pin: 0 none, 1 in, 2 out. -/
structure SelCell where
  c : Nat
  key : Nat
  rot : Nat
  endSt : Nat
  last : Option Nat
  pin : Nat
  deriving DecidableEq, Repr

def selBefore (x y : SelCell) : Bool := decide (x.key < y.key ∨ (x.key = y.key ∧ x.rot < y.rot))

def selInsert (x : SelCell) : List SelCell → List SelCell
  | [] => [x]
  | y :: ys => if selBefore x y then x :: y :: ys else y :: selInsert x ys

/-- The usable cells in key order, ties in rotated order (R259). -/
def selSort (l : List SelCell) : List SelCell := l.foldr selInsert []

/-- The offset at which a pin breaks (R257): LAST + MIN_PULSE − F_e in firing units. -/
def pinOffset (mp base : Nat) (x : SelCell) : Nat := x.last.getD 0 + mp - base

/-- The outcome of selection: W, the broken pins that join and that leave it, and whether the level cannot be realised. -/
structure Selection where
  w : List SelCell := []
  joined : List SelCell := []
  left : List SelCell := []
  short : Bool := false
  deriving DecidableEq, Repr

/-- Choose `n` cells among the sorted usable ones (R257, R259). -/
def selectCells (n mp base units : Nat) (sorted : List SelCell) : Selection :=
  let pinIn := sorted.filter (fun x => x.pin == 1)
  let pinOut := sorted.filter (fun x => x.pin == 2)
  let free := sorted.filter (fun x => x.pin == 0)
  let breaks (x : SelCell) : Bool := decide (pinOffset mp base x < units)
  if n < pinIn.length then
    let out := (pinIn.reverse.filter breaks).take (pinIn.length - n)
    { w := pinIn.filter (fun x => !out.contains x), left := out, short := decide (out.length < pinIn.length - n) }
  else
    let m := n - pinIn.length
    if free.length < m then
      let add := (pinOut.filter breaks).take (m - free.length)
      { w := pinIn ++ free, joined := add, short := decide (add.length < m - free.length) }
    else { w := pinIn ++ free.take m }

/-! ### The fractional edge (R262 to R265) -/

/-- What an edge needs: firing units per frame, F_e, MIN_PULSE, twice c_ins and c_rem, R as a fraction, and whether R_eff = R. -/
structure EdgeCfg where
  units : Nat
  base : Nat
  mp : Nat
  cIns2 : Nat
  cRem2 : Nat
  rNum : Nat
  rDen : Nat
  plain : Bool
  deriving DecidableEq, Repr

/-- A fractional edge: ON or OFF, its offset, R_eff below 0, a limit of R262, a limit of R263. -/
structure Edge where
  on : Bool
  d : Nat
  neg : Bool
  limEff : Bool
  limD : Bool
  deriving DecidableEq, Repr

/-- The edge of a cell, with the counts of cells that switch at offset 0 without it (R262, R263). -/
def edgeOf (k : EdgeCfg) (on : Bool) (nIns nRem : Nat) : Edge :=
  let den := k.rDen * 2 * k.units
  let num : Int := (k.rNum * 2 * k.units : Nat) +
    (if k.plain then 0 else ((nIns * k.cIns2 : Nat) - (nRem * k.cRem2 : Nat) : Int) * k.rDen)
  let neg := decide (num < 0)
  let overr := decide ((den : Int) ≤ num)
  let num' : Int := if neg then 0 else if overr then ((k.units - 1) * (2 * k.rDen) : Nat) else num
  -- d as a fraction over 2 den
  let d2 : Int :=
    if on then 2 * k.units * (den - num') - k.cIns2 * den else 2 * k.units * num' - k.cRem2 * den
  let d := (d2 + den).fdiv (2 * den)
  let lim := clampI 0 (k.units - 1 : Nat) d
  { on := on, d := lim.toNat, neg := neg, limEff := neg || overr, limD := lim != d }

/-- Does an edge lie at least MIN_PULSE after the cell's LAST (R260). -/
def edgeClear (k : EdgeCfg) (last : Option Nat) (d : Nat) : Bool :=
  match last with | some t => decide (t + k.mp ≤ k.base + d) | none => true

/-- The realised remainder of an edge at `d` (R264): the fraction of the epoch after or before its effective edge, which may lie past the
end of the epoch. [DEDUCED: notes/assumptions/27] -/
def realised (k : EdgeCfg) (on : Bool) (d : Nat) : U32 :=
  let n2 : Int := if on then (2 * k.units : Nat) - (2 * d + k.cIns2 : Nat) else (2 * d + k.cRem2 : Nat)
  let n2 := clampI 0 (2 * k.units : Nat) n2
  u32 (fOfRat fmt32 n2 (2 * k.units))

/-! ### A build -/

/-- What a build found: slots as (cell, END code, offset), the arm's level and flags, and the counts of limits. -/
structure Build where
  slots : List (Nat × Nat × Nat) := []
  u : Nat := 0
  nIns : Nat := 0
  rem : U32 := 0
  frac : Option Nat := none
  pinned : List Nat := []
  sat : Bool := false
  limits : Nat := 0
  comp : Bool := false
  pins : Nat := 0
  ext : Nat := 0
  sup : Nat := 0
  waiting : Nat := 0
  deriving DecidableEq, Repr

/-- Level of R255: N_INS, R as numerator and denominator, and whether a limit acted. -/
def levelOf (ref vn : U32) (half : Bool) (u : Nat) : Nat × Nat × Nat × Bool :=
  let neg := f32Lt ref 0
  let isZero := ref &&& 0x7FFFFFFF = 0
  if half && neg then (0, 0, 1, true)
  else if !f32Lt 0 vn || !f32Fin vn then (if isZero then (0, 0, 1, true) else (u, 0, 1, true))
  else
    let x := f32Div (f32Abs ref) vn
    if !f32Fin x then (u, 0, 1, true)
    else
      let n := (fFloor fmt32 x.toNat).toNat
      match fUnpack fmt32 x.toNat with
      | .fin _ m e =>
        let den := if 0 ≤ e then 1 else 2 ^ (-e).toNat
        let num := if 0 ≤ e then 0 else m % den
        if u ≤ n then (u, 0, 1, decide (u < n) || num != 0) else (n, num, den, false)
      | _ => (u, 0, 1, true)

/-- Did every cell of the arm report FB at discovery (R256). -/
def armFull (s : State) (a : Nat) : Bool := (armCells s a).all (fun c => bit ((ring s (cellRing c)).ids.getD (c % 256) 0) 16)

/-- The slots of an arm that is not blocked, for effect epoch `e` (R250 to R267).
[DEDUCED: notes/assumptions/27] -/
def buildArm (s : State) (a e : Nat) (first : Bool) (h : HArm) (isign : Nat) : Build × Bool × Nat :=
  let cells := armCells s a
  let units := firingUnits s
  let base := e * units
  let usable := cells.filter (cellUsable s e)
  let u := usable.length
  let vn := if bit (armCfg s a) 0 then rg s (rHRW_ARM_VNOM a) else meanVolts s a usable
  let full := armFull s a
  let (n, rNum, rDen, sat) := levelOf h.refJ vn (!full) u
  let neg := full && f32Lt h.refJ 0
  let ins := if neg then 2 else 1
  let pos := if isign = 2 then (first || h.s) else (decide (isign = 1) != neg)
  let mp := minPulse s a
  let dt := deadTime s a
  let tol := let w := rg s (rHRW_ARM_TOL a); if isign = 2 then fld w 31 16 else fld w 15 0
  let order := (List.range cells.length).zip cells
  let nm := max 1 cells.length
  let mk (p : Nat × Nat) : SelCell :=
    let x := hcell s p.2
    let near := match x.last with | some t => decide (base < t + mp) | none => false
    let pin := if near && decide (x.endSt = ins) then 1 else if near && decide (x.endSt < 3) then 2 else 0
    { c := p.2, key := harrowKey x.held (decide (x.endSt = ins)) pos tol, rot := (p.1 + nm - e % nm) % nm, endSt := x.endSt,
      last := x.last, pin := pin }
  let sorted := selSort ((order.filter (fun p => cellUsable s e p.2)).map mk)
  let sel := selectCells n mp base units sorted
  let inside (x : SelCell) : Bool := sel.w.contains x || sel.joined.contains x || sel.left.contains x
  let rest := sorted.filter (fun x => !inside x)
  -- slots of the cells that are not usable (R251)
  let others := (cells.filter (fun c => !cellUsable s e c)).map (fun c =>
    (c, if retiredAt s c e then 4 else if cellSick (hcell s c) then 3 else 0, 0))
  -- cells that switch at offset 0 (R262)
  let nInsAt0 := (sel.w.filter (fun x => x.endSt == 0 && x.pin == 0)).length
  let remAt0 := (others.filter (fun p => (hcell s p.1).endSt == ins)).length
  let remOf (f : Option Nat) := remAt0 + (rest.filter (fun x => x.endSt == ins && decide (some x.c ≠ f))).length
  let cost2 : Nat × Nat := if isign = 2 then (dt, dt) else if pos then (0, 2 * dt) else (2 * dt, 0)
  let polChg := match h.pol with | some p => p != ins | none => false
  let k : EdgeCfg := { units := units, base := base, mp := mp, cIns2 := cost2.1, cRem2 := cost2.2, rNum := rNum, rDen := rDen,
                       plain := first || polChg }
  let edge (x : SelCell) : Edge := edgeOf k (x.endSt != ins) nInsAt0 (remOf (some x.c))
  let clear (x : SelCell) : Bool := edgeClear k x.last (edge x).d
  let cands := if rNum = 0 || sel.short then [] else rest.take 8
  let pick := match cands.find? clear with | some x => some x | none => cands.head?
  let base0 : Build :=
    { u := u, nIns := sel.w.length + sel.joined.length, sat := sat || sel.short, limits := b2n sat + b2n sel.short,
      pins := sel.joined.length + sel.left.length, pinned := (sorted.filter (fun x => x.pin != 0)).map (·.c),
      waiting := (others.filter (fun p => p.2.1 == 0)).length }
  let keep (x : SelCell) : Nat × Nat × Nat := (x.c, if x.pin = 2 then x.endSt else 0, 0)
  let fixed := sel.w.map (fun x => (x.c, ins, 0)) ++ sel.joined.map (fun x => (x.c, ins, pinOffset mp base x)) ++
    sel.left.map (fun x => (x.c, 0, pinOffset mp base x)) ++ others
  let b : Build :=
    match pick with
    | none =>
      let g := edgeOf k true nInsAt0 (remOf none)
      let lim := g.limEff && !sel.short
      { base0 with slots := fixed ++ rest.map keep, limits := base0.limits + b2n lim, comp := lim }
    | some x =>
      let g := edge x
      let b := { base0 with limits := base0.limits + b2n g.limEff + b2n (g.limD && !g.neg), comp := g.limEff }
      if g.neg then { b with slots := fixed ++ rest.map keep }
      else
        let rest' := (rest.filter (· ≠ x)).map keep
        let put (d : Nat) (ext : Nat) : Build :=
          { b with slots := fixed ++ rest' ++ [(x.c, if g.on then ins else 0, d)], rem := realised k g.on d, frac := some x.c,
                   ext := ext }
        let sup : Build :=
          { b with slots := fixed ++ rest' ++ [(x.c, x.endSt, 0)], nIns := b.nIns + b2n (!g.on), frac := some x.c, sup := 1 }
        if clear x then put g.d 0
        else
          let d := x.last.getD 0 + mp - base
          if bit (armCfg s a) 3 || decide (units ≤ d) then sup else put d 1
  (b, pos, ins)

/-- Drop arm points older than 64 epochs and put the new one. -/
def pushPt (p : ArmPt) (l : List ArmPt) : List ArmPt := l.filter (fun q => decide (p.e < q.e + 64) && q.e != p.e) ++ [p]

/-- The arm's state and counters after a build (R255, R261, R268, R273).
[DEDUCED: notes/assumptions/19; DEDUCED: notes/assumptions/27] -/
def finishBuild (a j e isign : Nat) (first : Bool) (s : State) : State :=
  let h := harm s a
  let (b, pos, ins) := buildArm s a e first h isign
  let bank := armBank s a
  let slots := b.slots.foldl (fun t p => tset (mkSlot 0 0 e bank) t p.1 (mkSlot (p.2.1 + 1) p.2.2 e bank)) ([] : Tbl U32)
  let short := decide (b.u < (armMap s a).nNeed)
  let pt : ArmPt := { e := e, ref := h.refJ, nIns := b.nIns, rem := b.rem, isign := isign, ext := b.pins + b.ext, sup := b.sup }
  let cells := (armCells s a).foldl (fun t c => tmod {} t c (fun x =>
    { x with usable := b.slots.any (fun p => p.1 == c) && cellUsable s e c, pinned := b.pinned.contains c,
             frac := decide (b.frac = some c) })) s.hrw.cells
  let newShort := short && !h.short
  let s := { s with hrw := { s.hrw with cells := cells } }
  let s := setHArm s a { h with isign := isign, s := pos, pol := some ins, polOld := h.pol, refOut := h.refJ, handed := true, u := b.u, nIns := b.nIns, rem := b.rem,
                                fracOn := b.frac.isSome && b.sup == 0, sat := b.sat, short := short, waiting := b.waiting,
                                active := true, slots := slots, frame := j, busy := true, overrun := false, pts := pushPt pt h.pts }
  let s := if b.pins + b.ext = 0 then s else count s (rHRW_ARM_EXT_CNT a) (b.pins + b.ext)
  let s := if b.sup = 0 then s else count s (rHRW_ARM_SUP_CNT a) b.sup
  let s := if b.limits = 0 then s else count s (rHRW_ARM_SAT_CNT a) b.limits
  let s := setEvt s rHRW_EVT (pack [(1, b2n short), (2, b2n b.sat), (3, b2n b.comp), (4, b2n (b.ext != 0)), (5, b2n (b.sup != 0)),
                                    (8, b2n (b.pins != 0))])
  let s := if newShort then report s (srcArm a) 0x01C1 else s
  if b.sat then report s (srcArm a) 0x01C3 else s

/-- A blocked arm builds nothing for epoch `e`. -/
def idleArm (a j e : Nat) (isign : Nat) (s : State) : State :=
  let h := harm s a
  setHArm s a { h with isign := isign, active := false, handed := false, short := false, frame := j, busy := false, overrun := false,
                       slots := [], waiting := 0, pts := pushPt { e := e, ref := h.refJ, nIns := 0, rem := 0, isign := isign } h.pts }

/-- Is the group handed to its lanes for the slots of frame `j` naming `e`. -/
def armOpen (s : State) (a j e : Nat) : Bool := !lineBlk (group s (armMap s a).group).line j e

/-- Is `e` the epoch at which a DEBLOCK of the arm's group takes effect (R252, R271), the group having been blocked. -/
def deblockAt (s : State) (a e : Nat) : Bool :=
  let l := (group s (armMap s a).group).line
  l.any (fun x => decide (x.e = e) && !x.on) && lineAt l (e - 1)

/-- Is the build for epoch `e` the first since the arm was blocked. -/
def firstBuild (s : State) (a e : Nat) : Bool := !(harm s a).handed || deblockAt s a e

/-- Arm `a` in level synthesis builds frame `j`. -/
def levelArm (a j e : Nat) (s : State) : State :=
  let first := firstBuild s a e
  let s := if first then setHArm s a { harm s a with pol := none, s := true } else s
  let s := if first then
      (armCells s a).foldl (fun s c => setHCell s c { hcell s c with endSt := if (hcell s c).endSt = 4 then 4 else 3 }) s
    else s
  let s := (armCells s a).foldl (admitStep a e first) s
  let s := if first then s else admitLate a e s
  finishBuild a j e (isignOf s a) first s

/-- HARROW_SELECTION_DONE: arm `a` hands its slots to Furrow after `cyc` FAB cycles, at most those of R261. -/
def selectionDone (a cyc : Nat) (s : State) : State :=
  let h := harm s a
  if !h.busy then s
  else
    let m := (armCells s a).length
    let cyc := min cyc (44 + 3 * ((m + 15) / 16))
    let s := advanceTo s ((h.frame - 1) * lTicks s + hStart s + (cyc + 1) / 2)
    let s := setHArm s a { h with busy := false, cyc := cyc }
    wr s (rHRW_ARM_SELMAX a) (u32 (max (rg s (rHRW_ARM_SELMAX a)).toNat cyc))

def execHarrowSelectionDone (a : Fin 12) (cyc : Nat) (s : State) : Host.Outcome State Fault Refusal := .next (selectionDone a cyc s)

/-- The commanded edges of the rank-0 cell in the epoch from `base` never come. -/
def dropEdges (base units : Nat) (c : Carrier) : Carrier :=
  { c with edges := c.edges.filter (fun t => decide (t < base ∨ base + units ≤ t)) }

/-- At F_j the lane has handed off, or overruns (R261): HOLD to every cell, which leaves END and LAST, and no arm points. Where BLK
replaces what it built, no cell is inserted in that epoch (R42, R271). What has been commanded is offered to the loops (R269).
[DEDUCED: notes/assumptions/27] -/
def handOff (j : Nat) (s : State) (a : Nat) : State :=
  let h := harm s a
  if h.frame ≠ j || !armMapped s a then s
  else
    match slotEpoch s a j with
    | none => s
    | some e =>
      let blk := !armOpen s a j e
      let units := firingUnits s
      let bare (p : ArmPt) : ArmPt := if p.e = e then { p with nIns := 0, rem := 0, ext := 0, sup := 0 } else p
      let h := if h.busy then { h with overrun := true, pol := h.polOld } else h
      let h := if blk then { h with offer := {}, pts := h.pts.map bare, car := dropEdges (e * units) units h.car }
        else if h.busy then { h with pts := h.pts.filter (fun p => p.e != e), car := dropEdges (e * units) units h.car }
        else if s.hrw.frozen then h
        else { h with offer := { nIns := h.nIns, rem := h.rem, u := h.u, sat := h.sat } }
      let s := setHArm s a h
      if h.busy then report (setEvt (count s rHRW_OVR_CNT) rHRW_EVT (bitv 0)) (srcArm a) 0x01C0 else s

/-- The arm points of epoch `k`: those commanded, else the last ones before it with no events (R268). -/
def armPtAt (pts : List ArmPt) (k : Nat) : Option ArmPt :=
  match pts.find? (fun p => p.e == k) with
  | some p => some p
  | none =>
    ((pts.filter (fun p => decide (p.e < k))).foldl
      (fun b p => match b with | none => some p | some q => if q.e < p.e then some p else some q) none).map
      (fun p => { p with sw := 0, ext := 0, sup := 0 })

/-- The HRW registers of level synthesis that show structured state (R272, R273). -/
def hrwRead (s : State) (off : Nat) : Option U32 :=
  if off = rHRW_STAT then
    some (pack [(0, bitsOf 12 (fun a => (harm s a).active)), (16, bitsOf 12 (fun a => (harm s a).short))])
  else if 0x00700400 ≤ off ∧ off < 0x00700800 then
    let c := 256 * fld (rg s rHRW_CWIN_SEL) 5 0 + (off - 0x00700400) / 4
    if (armOf s c).isNone then some 3
    else
      let h := hcell s c
      let age := match h.heldAt with | some k => min 15 (s.grn.commit.k - k) | none => 15
      some (pack [(0, h.endSt), (3, b2n h.admitted), (4, b2n h.usable), (5, b2n h.pinned), (6, b2n h.frac), (8, min 15 h.wait),
                  (12, h.held), (28, if h.heldAt.isNone then 0 else age)])
  else if 0x00701000 ≤ off ∧ off < 0x00701600 then
    let a := (off - 0x00701000) / 0x80
    let h := harm s a
    match off % 0x80 with
    | 0x20 => some (pack [(0, h.u), (16, h.waiting), (29, b2n h.sat), (30, b2n h.short), (31, b2n h.active)])
    | 0x24 => some (pack [(0, h.nIns), (13, b2n h.fracOn), (14, h.isign % 4), (16, h.cyc)])
    | 0x2C => some h.refOut
    | _ => none
  else none

end Sys2Proof.Machine
end

