-- ==== Sys2Proof/Machine/Carrier.lean ====
section
/-! DEFINITION. Carrier mode: the grid, ranks, compares, bridges, edges, drain, events and the Harrow freeze, and the Harrow start
of every arm with the look-ahead step (09_carrier_mode.md, R215, R216, R117). -/

namespace Sys2Proof.Machine

def carOf (s : State) (a : Nat) : Carrier := (harm s a).car
def setCar (s : State) (a : Nat) (v : Carrier) : State := setHArm s a { harm s a with car := v }
/-- Is the arm's group in carrier mode (R130). -/
def armCarrier (s : State) (a : Nat) : Bool := (group s (armMap s a).group).carrier
def carCfg (s : State) (a : Nat) : U32 := rg s (rHRW_CAR_CFG a)

/-- Half-up rounding of a non-negative quotient. -/
def roundDiv (n d : Nat) : Nat := (2 * n + d) / (2 * d)
/-- Half-up rounding of a finite non-negative binary32 times a number; 0 for the others. -/
def roundMul (x : U32) (b : Nat) : Nat :=
  match fUnpack fmt32 x.toNat with
  | .fin false m e => if 0 ≤ e then m * b * 2 ^ e.toNat else roundDiv (m * b) (2 ^ (-e).toNat)
  | _ => 0

/-- φ_k (R275). -/
def phase0 (k period n : Nat) : Nat := roundDiv (k * period) (max 1 n)

/-- DEAD_TIME and MIN_PULSE that govern an edge at `t` (R283): those of the last load at or before it. -/
def timeAt (c : Carrier) (t : Nat) : CarTime :=
  c.times.foldl (fun b x => if x.at_ ≤ t then x else b) ⟨0, c.bld.dead, c.bld.minPulse⟩

/-- W_MIN of an edge at `t` (R287). -/
def wMin (c : Carrier) (t : Nat) : Nat := max (timeAt c t).minPulse (timeAt c t).dead

/-! ### Loads (R281, R283) -/

/-- The CARRIER_SET effects of arm `a` whose epoch has begun at firing unit `z` and that `p` has not yet loaded, in order. -/
def carDue (s : State) (a z : Nat) (p : Eff → Bool) : List Eff :=
  (s.cmd.pend.filter (fun e => e.op == 0x0305 && p e && decide (e.epoch * firingUnits s ≤ z) &&
    (match e.payload with | .carrier b _ _ _ _ _ => b == a | _ => false))).foldl
    (fun l e => (l.filter (fun x => decide (x.id.ord < e.id.ord))) ++ e :: l.filter (fun x => decide (e.id.ord < x.id.ord))) []

/-- Load one CARRIER_SET at the zero `z`. [DEDUCED: notes/assumptions/22] -/
def gridLoad (g : Grid) (e : Eff) : Grid :=
  match e.payload with
  | .carrier _ v en p d m =>
    { g with period := if v.testBit 0 then p else g.period, dead := if v.testBit 1 then d else g.dead,
             minPulse := if v.testBit 2 then m else g.minPulse, enabled := if v.testBit 3 then en == 1 else g.enabled }
  | _ => g

def loadsPeriod (l : List Eff) : Bool :=
  l.any (fun e => match e.payload with | .carrier _ v _ _ _ _ => v.testBit 0 | _ => false)

/-! ### Compares (R277 to R280) -/

/-- What a build gives every carrier period that begins in its epoch: mode, insert state, |ref_j|, the K in force, trim factors, V_N,
ABSOLUTE compare. -/
structure CmpCfg where
  absolute : Bool
  ins : Nat
  nul : Bool
  ref : U32
  k : Nat
  trim : Bool
  kb : U32
  tmax : U32
  vn : U32
  pos : Bool
  cAbs : Nat
  deriving DecidableEq, Repr

/-- |ref_j| ÷ (K × V_N), before its limit (R278). -/
def levelRatio (q : CmpCfg) : U32 := f32Div q.ref (f32Mul (f32OfNat q.k) q.vn)
/-- Does the limit m = 1 act (R278). -/
def levelOver (q : CmpCfg) : Bool := !q.absolute && decide (q.k ≠ 0) && f32Lt f32One (levelRatio q)

/-- d_k of a cell: m + t_k, limited to 0 to 1 (R278, R279); 0 where the reference asks for no insertion (R277). -/
def dutyOf (q : CmpCfg) (held : Nat) : U32 :=
  let vk := f32Div (f32OfNat held) (f32OfNat 32)
  let t0 := f32Div (f32Mul q.kb (f32Sub q.vn vk)) q.vn
  let t1 := if q.pos then t0 else f32Neg t0
  let t := if q.trim then clampf t1 (f32Neg q.tmax) q.tmax else f32Zero
  let m := if levelOver q then f32One else levelRatio q
  if q.nul then f32Zero else clampf (f32Add m t) f32Zero f32One

/-- C for a period of length `b` (R278). -/
def compareOf (q : CmpCfg) (duty : U32) (b : Nat) : Nat :=
  if q.nul then 0 else if q.absolute then q.cAbs else roundMul duty b

/-- The compare of the builds of an arm (R277 to R279), for `k` ranked cells. -/
def cmpCfg (s : State) (a : Nat) (pos : Bool) (usable : List Nat) (k : Nat) : CmpCfg :=
  let w := carCfg s a
  let ref := (harm s a).refJ
  let vn := if bit (armCfg s a) 0 || usable.isEmpty then rg s (rHRW_ARM_VNOM a) else meanVolts s a usable
  let full := armFull s a
  let neg := f32Lt ref 0
  { absolute := bit w 1, ins := if neg && full then 2 else 1, nul := neg && !full, ref := f32Abs ref, k := k, trim := bit w 3,
    kb := rg s (rHRW_CAR_BAL a), tmax := rg s (rHRW_CAR_TRIM a), vn := vn, pos := pos, cAbs := roundMul (f32Abs ref) 1 }

/-! ### Carrier periods of a cell (R276, R282, R289) -/

/-- The state a cell has after its edges to come; out while it leaves BLK or RETIRE. -/
def lastState (x : HCell) : Nat :=
  match x.edges.getLast? with | some p => p.st | none => if x.endSt < 3 then x.endSt else 0

/-- Add edges; the first is dropped where R287 asks for it. -/
def addEdges (es : List CarEdge) (x : HCell) : HCell :=
  match es, x.skip with
  | [], _ => x
  | _ :: rest, true => { x with edges := x.edges ++ rest, skip := false }
  | es, false => { x with edges := x.edges ++ es }

/-- Is the cell inserted for the whole of its present period (R276). -/
def wholeIn (x : HCell) : Bool := x.started && x.len != 0 && decide (x.len ≤ x.cmp)

/-- A carrier period begins at `z` with length `b` (R276). -/
def beginPeriod (q : CmpCfg) (z b : Nat) (x : HCell) : HCell :=
  let duty := dutyOf q x.held
  let c := compareOf q duty b
  let x := { x with started := true, zero := z, len := b, cmp := c, ins := q.ins, duty := duty }
  if b ≤ c then addEdges (if lastState x = q.ins then [] else [⟨z, q.ins, false⟩]) x
  else
    let off0 : List CarEdge := if lastState x = 0 then [] else [⟨z, 0, false⟩]
    let on := (b - c) / 2
    addEdges (off0 ++ (if c = 0 then [] else [⟨z + on, q.ins, false⟩, ⟨z + on + c, 0, false⟩])) x

/-- The period under way becomes a bridge of length `b` at the grid zero `t0` (R282): the compare is kept, or recomputed in RATIO
mode, and from t0 on the cell follows the bridge. [DEDUCED: notes/assumptions/28] -/
def bridgePeriod (absolute : Bool) (t0 b : Nat) (x : HCell) : HCell :=
  let c := if absolute then x.cmp else roundMul x.duty b
  let x : HCell := { x with len := b, cmp := c, edges := x.edges.filter (fun p => decide (p.t < t0)) }
  let inside := decide (lastState x = x.ins)
  let on := x.zero + (b - c) / 2
  let off := on + c
  let goOn (t : Nat) : List CarEdge := [⟨t, x.ins, false⟩]
  let goOff (t : Nat) : List CarEdge := [⟨t, 0, false⟩]
  let es :=
    if b ≤ c then (if inside then [] else goOn t0)
    else if c = 0 || off ≤ t0 then (if lastState x = 0 then [] else goOff t0)
    else if on ≤ t0 then (if inside then [] else goOn t0) ++ goOff off
    else (if lastState x = 0 then [] else goOff t0) ++ goOn on ++ goOff off
  { x with edges := x.edges ++ es }

/-- The first time at or after `t0 + φ` in steps of the period that leaves a bridge from `from_` at least half a period. -/
def bridgeEnd (t0 phi period from_ : Nat) : Nat :=
  let t := t0 + phi
  if 2 * (t - from_) < period then t + period else t

/-- Does the cell's period under way become a bridge at the grid zero `z` (R282). -/
def bridged (x : HCell) (z : Nat) : Bool := x.started && x.len != 0 && decide (x.zero < z ∧ z < x.zero + x.len)

/-- A cell is ranked `i` of `n` at the grid zero `z` of an enabled carrier (R275, R282, R289): a running one bridges where the phases
have `moved`, another starts at its first zero. -/
def rankCell (absolute : Bool) (g : Grid) (z n i : Nat) (moved : Bool) (x : HCell) : HCell :=
  let phi := phase0 i g.period n
  if !x.started then { x with started := true, zero := z + phi, len := 0, skip := false }
  else if !moved then x
  else if x.len = 0 then { x with zero := z + phi }
  else if bridged x z then bridgePeriod absolute z (bridgeEnd z phi g.period x.zero - x.zero) x
  else x

/-- The zeros of a cell before `until_` begin their periods; `phi` is its phase after the last grid zero `z`; with the periods that are
inserted whole (R276). `fuel` bounds them. -/
def runZeros (q : CmpCfg) (g : Grid) (z phi until_ : Nat) (live : Bool) : Nat → HCell × Nat → HCell × Nat
  | 0, r => r
  | fuel + 1, (x, n) =>
    let t := x.zero + x.len
    if !x.started || until_ ≤ t then (x, n)
    else if !live then
      (addEdges (if lastState x = 0 then [] else [⟨t, 0, false⟩]) { x with started := false, zero := t, len := 0 }, n)
    else
      let onGrid := (t + g.period - (z + phi) % g.period) % g.period = 0
      let b := if t < z || onGrid then g.period else bridgeEnd z phi g.period t - t
      let y := beginPeriod q t b x
      runZeros q g z phi until_ live fuel (y, n + b2n (wholeIn y))

/-! ### From edges to slots (R285 to R288) -/

/-- The firing units of an epoch and its first, SUPPRESS, the costs of R262 as multiples of half a DEAD_TIME, and the arm's carrier. -/
structure ShortCfg where
  base : Nat
  units : Nat
  suppress : Bool
  on2 : Nat
  off2 : Nat
  car : Carrier
  deriving DecidableEq, Repr

/-- The counts of a pass over edges: extensions and suppressions. -/
abbrev Counts := Nat × Nat

/-- The instant at which an edge of this epoch is commanded: earlier by its cost, not before offset 0 of the epoch (R285). -/
def edgeTime (k : ShortCfg) (x : CarEdge) : Nat :=
  if x.moved || k.base + k.units ≤ x.t then x.t
  else max k.base (x.t - (if x.st = 0 then k.off2 else k.on2) * (timeAt k.car x.t).dead / 2)

/-- Does the interval from the previous transition to an edge at `t` count as short (R287). -/
def shortAfter (k : ShortCfg) (last : Option Nat) (t : Nat) : Bool :=
  match last with
  | some y => decide (t < y + wMin k.car t) || decide (t / k.units = y / k.units)
  | none => false

/-- Would an edge at `t` reach or pass the next one (R287). -/
def reachesNext (k : ShortCfg) (t : Nat) (rest : List CarEdge) : Bool :=
  match rest with | z :: _ => decide (edgeTime k z ≤ t) | [] => false

/-- The edge of a cell in the epoch of `k`: the edge commanded, if any, the edges left, a drop pending, and the counts. A short interval
moves its edge, which counts where it is commanded, or drops it with the next (R287). Edges before the epoch fell in epochs that were
not commanded and are dropped (R290). [DEDUCED: notes/assumptions/28] -/
def edgeInEpoch (k : ShortCfg) : Nat → Nat → Option Nat → List CarEdge → Option (Nat × Nat) →
    Option (Nat × Nat) × List CarEdge × Bool × Counts
  | 0, _, _, es, got => (got, es, false, (0, 0))
  | fuel + 1, endSt, last, es, got =>
    match es with
    | [] => (got, [], false, (0, 0))
    | x :: rest =>
      let t := edgeTime k x
      if k.base + k.units ≤ x.t then (got, es, false, (0, 0))
      else if x.t < k.base || x.st = endSt then edgeInEpoch k fuel endSt last rest got
      else
        let short := shortAfter k last t
        let t' := max (last.getD 0 + wMin k.car t) ((last.getD 0 / k.units + 1) * k.units)
        if (short && (k.suppress || reachesNext k t' rest)) || (x.moved && reachesNext k t rest) then
          let q := edgeInEpoch k fuel endSt last (rest.drop 1) got
          (q.1, q.2.1, q.2.2.1 || rest.isEmpty, (q.2.2.2.1, q.2.2.2.2 + 1))
        else if short then edgeInEpoch k fuel endSt last (⟨t', x.st, true⟩ :: rest) got
        else
          let q := edgeInEpoch k fuel x.st (some t) rest (some (t, x.st))
          (q.1, q.2.1, q.2.2.1, (q.2.2.2.1 + b2n x.moved, q.2.2.2.2))

/-- The slot of one usable cell (R288, R290, R291): BYP where it leaves BLK or RETIRE, END with no edge, else the edge; with the cell,
the counts, and the instant of its ON or OFF edge. A cell whose carrier does not run receives BYP. -/
def carSlot (k : ShortCfg) (x : HCell) : (Nat × Nat) × HCell × Counts × Option Nat :=
  let out := decide (3 ≤ x.endSt)
  let es : List CarEdge := if !x.started && x.edges.isEmpty && !out then [⟨k.base, 0, false⟩] else x.edges
  let fuel := 3 * es.length + 3
  let r := if out then edgeInEpoch k fuel 0 (some k.base) es none else edgeInEpoch k fuel x.endSt x.last es none
  let x' := { x with edges := r.2.1, skip := x.skip || r.2.2.1 }
  match r.1 with
  | some p => ((p.2, p.1 - k.base), x', r.2.2.2, some p.1)
  | none => ((if out then 0 else x.endSt, 0), x', r.2.2.2, none)

/-! ### The grid of a build (R274, R275, R281, R282, R291) -/

/-- The grid of an arm starts at the first frame boundary after SYS_SETUP_DONE (R274), with the values of the registers. -/
def gridStart (s : State) (a : Nat) (t : Nat) : Grid :=
  let p := max 2 (fld (rg s (rHRW_CAR_PERIOD a)) 21 0)
  let w := rg s (rHRW_CAR_TIME a)
  { on := true, zero := (t + p - 1) / p * p, period := p, dead := fld w 27 16, minPulse := fld w 12 0, enabled := bit (carCfg s a) 0 }

/-- The cell of a rank bridges or starts at a grid zero; with the periods that a bridge makes whole (R276). -/
def rankStep (absolute : Bool) (g : Grid) (z n : Nat) (moved : Bool) (acc : State × Nat) (p : Nat × Nat) : State × Nat :=
  let x := hcell acc.1 p.2
  let y := rankCell absolute g z n p.1 moved x
  (setHCell acc.1 p.2 y, acc.2 + b2n (moved && bridged x z && wholeIn y && !wholeIn x))

/-- The build reaches the grid zero `z`: loads, ranks, bridges; with the periods that a bridge makes whole. `live` says that the arm is
deblocked in carrier mode; a drain bridges nothing (R291). -/
def buildZero (a z : Nat) (live : Bool) (q : CmpCfg) (usable : List Nat) (s : State) : State × Nat :=
  let due := carDue s a z (fun e => e.prog == 0)
  let ids := due.map (·.id.ord)
  let s := { s with cmd := { s.cmd with pend := s.cmd.pend.map (fun e => if ids.contains e.id.ord && e.op == 0x0305 then { e with prog := 1 } else e) } }
  let c := carOf s a
  let g := due.foldl gridLoad c.bld
  let ranks := if live then usable else []
  let n := ranks.length
  let moved := live && (loadsPeriod due || ranks != c.ranks)
  let idx := (List.range n).zip ranks
  let ends (b : Nat) (i : Nat) : Nat := let x := hcell s i; if x.started then max b (x.zero + x.len) else b
  let r := if live && g.enabled then idx.foldl (rankStep q.absolute g z n moved) (s, 0) else (s, 0)
  let s := r.1
  let spans := if moved && g.enabled then
      (idx.filter (fun p => decide ((hcell s p.2).zero < z))).map (fun p => (z, (hcell s p.2).zero + (hcell s p.2).len)) else []
  let far := spans.foldl (fun b p => max b p.2) 0
  let bridges := c.bridges.filter (fun p => decide (8 * now s < p.2)) ++ (if z < far then [(z, far)] else [])
  let cmp0 := match ranks.head? with
    | some i => let x := hcell s i
      if !x.started then 0
      else if x.zero + x.len = z && g.enabled then compareOf { q with k := n } (dutyOf { q with k := n } x.held) g.period
      else x.cmp
    | none => 0
  let times := if due.isEmpty then c.times else c.times ++ [⟨z, g.dead, g.minPulse⟩]
  (setCar s a { carOf s a with
      bld := { g with zero := z + g.period }, ranks := ranks, bridges := bridges, times := times,
      fin := if c.bld.enabled && !g.enabled then c.ranks.foldl ends z else c.fin,
      zeros := c.zeros ++ [{ z := z, k := n, cmp0 := cmp0, head := ranks.head? }] }, r.2)

/-- The cells' own zeros before `stop` (R275); with the periods inserted whole. -/
def runCells (a stop : Nat) (live : Bool) (q : CmpCfg) (usable : List Nat) (acc : State × Nat) : State × Nat :=
  let c := carOf acc.1 a
  let n := c.ranks.length
  let phi (i : Nat) : Nat := phase0 ((c.ranks.takeWhile (· != i)).length) c.bld.period n
  usable.foldl (fun acc i =>
    let r := runZeros { q with k := n } c.bld (c.bld.zero - c.bld.period) (phi i) stop (live && c.bld.enabled) 16 (hcell acc.1 i, acc.2)
    (setHCell acc.1 i r.1, r.2)) acc

/-- Every grid zero before `until_`, and between them the cells' own zeros; with the periods inserted whole. -/
def runGrid (a until_ : Nat) (live : Bool) (q : CmpCfg) (usable : List Nat) : Nat → State × Nat → State × Nat
  | 0, acc => acc
  | fuel + 1, acc =>
    let z := (carOf acc.1 a).bld.zero
    let acc := runCells a (min z until_) live q usable acc
    if !(carOf acc.1 a).bld.on || until_ ≤ z then acc
    else
      let r := buildZero a z live q usable acc.1
      runGrid a until_ live q usable fuel (r.1, acc.2 + r.2)

/-- More grid zeros than lie before `until_`: a loaded PERIOD is 16 L at least (R281). -/
def gridFuel (s : State) (a until_ : Nat) : Nat :=
  let g := (carOf s a).bld
  (until_ - g.zero) / max 1 (min g.period (16 * lTicks s)) + 2

/-! ### A build of an arm in carrier mode -/

/-- The cells of an arm at a build in carrier mode: a deblocked arm's cells at rest, admissions (R252, R289), and the carriers of the
cells that cannot be used stopped. -/
def carrierAdmit (a e : Nat) (first : Bool) (s : State) : State :=
  let cells := armCells s a
  let s := if first then
      cells.foldl (fun s c => setHCell s c { hcell s c with endSt := if (hcell s c).endSt = 4 then 4 else 3, started := false,
                                                            edges := [], skip := false }) s
    else s
  let s := cells.foldl (admitStep a e first) s
  let s := if first then s else admitLate a e s
  (cells.filter (fun c => !cellUsable s e c)).foldl
    (fun s c => setHCell s c { hcell s c with started := false, edges := [], skip := false }) s

/-- The charging sign of the build (R247, R279): by the current and the insert state, from the last build where the current's sign is open. -/
def carrierPos (s : State) (a : Nat) (first : Bool) (ins : Nat) : Bool :=
  if isignOf s a = 2 then (first || (harm s a).s) else (decide (isignOf s a = 1) == decide (ins = 1))

/-- What the slots of the epoch from `base` take of the arm (R262, R285, R287). -/
def shortCfg (s : State) (a base : Nat) : ShortCfg :=
  let cost (x : Nat) : Nat := if bit (carCfg s a) 2 then x else 0
  let pos := (harm s a).s
  { base := base, units := firingUnits s, suppress := bit (armCfg s a) 3, car := carOf s a,
    on2 := cost (if isignOf s a = 2 then 1 else if pos then 0 else 2),
    off2 := cost (if isignOf s a = 2 then 1 else if pos then 2 else 0) }

/-- The grid runs on to the end of epoch `e`, with the compares of this build. -/
def carrierRun (a e : Nat) (first : Bool) (usable : List Nat) (s : State) : State × Nat :=
  let h := harm s a
  let q := cmpCfg s a true usable 0
  let pos := carrierPos s a first q.ins
  let until_ := (e + 1) * firingUnits s
  runGrid a until_ true { q with pos := pos } usable (gridFuel s a until_)
    (setHArm s a { h with s := pos, car := { h.car with running := true } }, 0)

/-- What the slots of an arm are made of, cell by cell: the state, the slots, the counts of extended and suppressed edges, the cells inserted
for the whole epoch, and the edges of the cell of rank 0. -/
abbrev CarrierAcc := State × Tbl U32 × Counts × Nat × List Nat

/-- The slot of one usable cell; `head` is the cell of rank 0 at an instant. -/
def carrierCell (sk : ShortCfg) (e bank : Nat) (head : Nat → Option Nat) (acc : CarrierAcc) (c : Nat) : CarrierAcc :=
  let r := carSlot sk (hcell acc.1 c)
  let sl := r.1
  let x := r.2.1
  let stays := decide (sl.1 = x.endSt) && (sl.1 == 1 || sl.1 == 2)
  let es := acc.2.2.2.2
  (setHCell acc.1 c { x with usable := true, pinned := false, frac := false },
   tset (mkSlot 0 0 e bank) acc.2.1 c (mkSlot (sl.1 + 1) sl.2 e bank),
   (acc.2.2.1.1 + r.2.2.1.1, acc.2.2.1.2 + r.2.2.1.2), acc.2.2.2.1 + b2n stays,
   match r.2.2.2 with | some m => if head m = some c then es ++ [m] else es | none => es)

/-- The slots of the cells that cannot be used (R251, R288). -/
def carrierOthers (s : State) (e bank : Nat) (others : List Nat) (t : Tbl U32) : Tbl U32 :=
  others.foldl (fun t c =>
    tset (mkSlot 0 0 e bank) t c (mkSlot (if retiredAt s c e then 5 else if cellSick (hcell s c) then 4 else 1) 0 e bank)) t

/-- The counters and events of a build in carrier mode (R296). -/
def carrierCounts (a : Nat) (n : Counts) (overr short was : Bool) (aon : Nat) (s : State) : State :=
  let s := if n.1 = 0 then s else count s (rHRW_CAR_EXT_CNT a) n.1
  let s := if n.2 = 0 then s else count s (rHRW_CAR_SUP_CNT a) n.2
  let s := if overr then count s (rHRW_ARM_SAT_CNT a) else s
  let s := if aon = 0 then s else setEvt (count s (rHRW_CAR_AON_CNT a) aon) rHRW_CAR_EVT (bitv 0)
  let s := setEvt s rHRW_EVT (pack [(1, b2n short), (2, b2n overr), (4, b2n (n.1 != 0)), (5, b2n (n.2 != 0))])
  if short && !was then report s (srcArm a) 0x01C1 else s

/-- What the build leaves in the arm lane: its slots for frame `j` and its arm points. [DEDUCED: notes/assumptions/28] -/
def carrierLane (a j e isign : Nat) (overr short : Bool) (u waiting : Nat) (t : Tbl U32) (n : Counts) (whole : Nat) (es : List Nat)
    (s : State) : State :=
  let h := harm s a
  let base := e * firingUnits s
  let pt : ArmPt := { e := e, ref := h.refJ, nIns := whole, rem := 0, isign := isign, ext := n.1, sup := n.2 }
  let past := h.car.times.filter (fun x => decide (x.at_ ≤ base))
  let times := past.drop (past.length - 1) ++ h.car.times.filter (fun x => decide (base < x.at_))
  setHArm s a { h with isign := isign, refOut := h.refJ, polOld := h.pol, handed := true, u := u, nIns := whole, rem := 0, fracOn := false,
                       sat := overr, short := short, waiting := waiting, active := false, slots := t, frame := j, busy := true,
                       overrun := false, pts := pushPt pt h.pts, car := { h.car with edges := h.car.edges ++ es, times := times } }

/-- The cell of rank 0 at the instant `t` (R293): that of the last grid zero at or before it, `was` before those of the list. -/
def headAt (zs : List CarZero) (was : Option Nat) (t : Nat) : Option Nat :=
  match (zs.filter (fun x => decide (x.z ≤ t))).getLast? with | some x => x.head | none => was

/-- Arm `a` in carrier mode builds frame `j`. [DEDUCED: notes/assumptions/28] -/
def carrierArm (a j e : Nat) (s0 : State) : State :=
  let first := firstBuild s0 a e
  let cells := armCells s0 a
  let s1 := carrierAdmit a e first s0
  let usable := cells.filter (cellUsable s1 e)
  let others := cells.filter (fun c => !cellUsable s1 e c)
  let was := (carOf s1 a).ranks.head?
  let (s2, aon) := carrierRun a e first usable s1
  let bank := armBank s2 a
  let overr := levelOver (cmpCfg s2 a true usable (carOf s2 a).ranks.length)
  let acc := usable.foldl (carrierCell (shortCfg s2 a (e * firingUnits s0)) e bank (headAt (carOf s2 a).zeros was)) (s2, [], (0, 0), 0, [])
  let t := carrierOthers acc.1 e bank others acc.2.1
  let s4 := others.foldl (fun s c => setHCell s c { hcell s c with usable := false, pinned := false, frac := false }) acc.1
  let short := decide (usable.length < (armMap s4 a).nNeed)
  let waiting := (others.filter (fun c => !retiredAt s4 c e && !cellSick (hcell s4 c))).length
  carrierCounts a acc.2.2.1 overr short (harm s4 a).short aon
    (carrierLane a j e (isignOf s1 a) overr short usable.length waiting t acc.2.2.1 acc.2.2.2.1 acc.2.2.2.2 s4)

/-- An arm that is blocked, or not in carrier mode: its grid runs on with no cell ranked, and edges not commanded before epoch `e` never
are (R290). -/
def idleGrid (a e : Nat) (s : State) : State :=
  let c := carOf s a
  let s := if c.running then
      (armCells s a).foldl (fun s c => setHCell s c { hcell s c with started := false, edges := [], skip := false }) s
    else s
  let until_ := (e + 1) * firingUnits s
  let s := setCar s a { c with running := false, ranks := [], edges := c.edges.filter (fun t => decide (t < e * firingUnits s)) }
  (runGrid a until_ false ⟨false, 1, true, 0, 0, false, 0, 0, 0, true, 0⟩ [] (gridFuel s a until_) (s, 0)).1

/-- The carriers of a frozen arm run on, and command nothing (R295). -/
def frozenGrid (a e : Nat) (s : State) : State :=
  let until_ := (e + 1) * firingUnits s
  let usable := (armCells s a).filter (cellUsable s e)
  let s := (runGrid a until_ true (cmpCfg s a (harm s a).s usable 0) usable (gridFuel s a until_) (s, 0)).1
  usable.foldl (fun s c => setHCell s c { hcell s c with edges := (hcell s c).edges.filter (fun x => decide (until_ ≤ x.t)) }) s

/-! ### The Harrow start -/

/-- A frozen lane sends the last slots it built, renamed to the new epoch (R295). -/
def frozenArm (a j e : Nat) (s : State) : State :=
  let h := harm s a
  let bank := armBank s a
  let on := armOpen s a j e
  let again := h.slots.map (fun p => (p.1, mkSlot (fld p.2 3 0) (fld p.2 19 4) e bank))
  let slots := again.filter (fun p => p.2 ≠ mkSlot 0 0 e bank)
  setHArm s a { h with frame := j, busy := false, overrun := false, slots := slots, active := h.active && on, handed := h.handed && on }

/-- Arm `a` at the Harrow start of frame `j`: a frame of a step down that carries NONE builds nothing and leaves the lane as it is. -/
def armStart (j : Nat) (s : State) (a : Nat) : State :=
  if !armMapped s a then idleGrid a (j + laCfg s) s
  else
    let s := (armCells s a).foldl holdCell (refStep a j s)
    match slotEpoch s a j with
    | none => setHArm s a { harm s a with frame := j, busy := false, overrun := false }
    | some e =>
      if s.hrw.frozen then
        (if armOpen s a j e && armCarrier s a then frozenGrid a e (frozenArm a j e s) else idleGrid a e (frozenArm a j e s))
      else if !armOpen s a j e then idleGrid a e (idleArm a j e (isignOf s a) s)
      else if armCarrier s a then carrierArm a j e s
      else idleGrid a e (levelArm a j e s)

/-- The Harrow start of the next frame (R27, R245): look-ahead steps, then every lane. -/
def harrowStart (s : State) : State :=
  if !s.sys.running || s.stk.role == 1 then s
  else
    let j := epochNow s + 1
    let s := advanceTo s ((j - 1) * lTicks s + hStart s)
    if (List.range 12).any (fun a => armMapped s a && decide (j ≤ (harm s a).frame)) then s
    else (List.range 12).foldl (armStart j) ((List.range 12).foldl (laStep j) s)

def execHarrowStart (s : State) : Host.Outcome State Fault Refusal := .next (harrowStart s)

/-! ### Carrier events in time (R281, R291 to R294) -/

/-- An event of arm `a`: `x` is 0 ZERO, 1 PERIOD, 2 CMP; every (PRE + 1)-th occurrence goes to the interrupt source. -/
def carEvent (a x : Nat) (s : State) : State :=
  let w := rg s (rHRW_CAR_IRQ a)
  let c := carOf s a
  let n := (if x = 0 then c.preZ else if x = 1 then c.preP else c.preC) + 1
  let pre := fld w (4 * x + 7) (4 * x + 4)
  let fire := bit w x && decide (pre < n)
  let n := if pre < n then 0 else n
  let c := if x = 0 then { c with preZ := n } else if x = 1 then { c with preP := n } else { c with preC := n }
  let s := setCar s a c
  if fire then intEdge s (128 + 4 * a + x) else s

/-- Is arm `a` deblocked in carrier mode as of epoch `e`. -/
def carrierOpen (s : State) (a e : Nat) : Bool :=
  armMapped s a && armCarrier s a && !lineAt (group s (armMap s a).group).line e

/-- A grid zero of arm `a` comes: pending values load (R281, R283), ZERO is raised, and the drain begins or the carrier starts. A drain
whose last final zero lies in an epoch that has begun ends at once (R291). -/
def carrierZero (a : Nat) (s : State) : State :=
  let c := carOf s a
  if !c.rt.on || !s.sys.running then s
  else
    let z := c.rt.zero
    let s := advanceTo s ((z + 7) / 8)
    let due := carDue s a z (fun e => e.ended.isNone && !e.applied)
    let ids := due.map (·.id.ord)
    let e0 := z / firingUnits s
    let g := due.foldl gridLoad c.rt
    let per := loadsPeriod due
    let own := (c.zeros.find? (fun p => p.z == z)).getD { z := z }
    let s := { s with cmd := { s.cmd with pend := s.cmd.pend.map (fun e =>
      if ids.contains e.id.ord && e.op == 0x0305 then
        { e with applied := true, epoch := e0, at_ := some e0, ended := some (cDone, if e.moved then stMoved else stOk) }
      else e) } }
    let starts := c.rt.enabled && !g.enabled && carrierOpen s a e0
    let last := max c.fin z / firingUnits s
    let ends := starts && decide (last ≤ epochNow s)
    let c := { carOf s a with
      rt := { g with zero := z + g.period }, zeros := c.zeros.filter (fun p => decide (z < p.z)), k := own.k, cmp0 := own.cmp0,
      apex := some (z + g.period / 2), loadEpoch := if due.isEmpty then c.loadEpoch else e0,
      drain := if ends then none else if starts then some last else if g.enabled then none else c.drain,
      preZ := if per then 0 else c.preZ, preP := if per then 0 else c.preP, preC := if per then 0 else c.preC }
    let s := setCar s a c
    let s := setEvt s rHRW_CAR_EVT (pack [(1, b2n (!due.isEmpty)), (2, b2n ends)])
    carEvent a 0 s

def execCarrierZero (a : Fin 12) (s : State) : Host.Outcome State Fault Refusal := .next (carrierZero a s)

/-- The apex, B ÷ 2 after the grid zero (R293). -/
def carrierApex (a : Nat) (s : State) : State :=
  match (carOf s a).apex with
  | none => s
  | some t => carEvent a 1 (setCar (advanceTo s ((t + 7) / 8)) a { carOf s a with apex := none })

def execCarrierApex (a : Fin 12) (s : State) : Host.Outcome State Fault Refusal := .next (carrierApex a s)

/-- A commanded edge of the rank-0 cell comes (R293). -/
def carrierCmp (a : Nat) (s : State) : State :=
  match (carOf s a).edges with
  | [] => s
  | t :: rest => carEvent a 2 (setCar (advanceTo s ((t + 7) / 8)) a { carOf s a with edges := rest })

def execCarrierCmpEvent (a : Fin 12) (s : State) : Host.Outcome State Fault Refusal := .next (carrierCmp a s)

/-- At F_j: grids start at the first boundary after SYS_SETUP_DONE (R274), and drains end, by themselves or by a BLOCK (R291,
R292). -/
def carrierBoundary (j : Nat) (s : State) (a : Nat) : State :=
  let c := carOf s a
  let s := if s.sys.setupDone && (s.hrw.gridDue || !c.rt.on) then
      let g := gridStart s a (j * firingUnits s)
      setCar s a { c with bld := g, rt := g, times := [⟨0, g.dead, g.minPulse⟩], zeros := [], ranks := [], bridges := [], k := 0, cmp0 := 0,
                          apex := none }
    else s
  let c := carOf s a
  match c.drain with
  | none => s
  | some e =>
    if e ≤ j || !carrierOpen s a j then setEvt (setCar s a { c with drain := none }) rHRW_CAR_EVT (bitv 2) else s

/-- The grids of every arm at F_j. -/
def gridsBoundary (j : Nat) (s : State) : State :=
  let s := (List.range 12).foldl (carrierBoundary j) s
  { s with hrw := { s.hrw with gridDue := s.hrw.gridDue && !s.sys.setupDone } }

/-- HRW_FREEZE is set or cleared (R295). -/
def freeze (on : Bool) (s : State) : State :=
  let was := s.hrw.frozen
  let s := { s with hrw := { s.hrw with frozen := on } }
  if on && !was then report (setEvt s rHRW_CAR_EVT (bitv 3)) (srcBlk 7 0) 0x01C5 else s

/-- A write of HRW_CARa_IRQ: a changed enable bit resets its prescaler (R294). -/
def carIrqWrite (a : Nat) (v : U32) (s : State) : State :=
  let d := rg s (rHRW_CAR_IRQ a) ^^^ v
  let c := carOf s a
  setCar (plainWrite (rHRW_CAR_IRQ a) v s) a
    { c with preZ := if bit d 0 then 0 else c.preZ, preP := if bit d 1 then 0 else c.preP, preC := if bit d 2 then 0 else c.preC }

/-- Does a CARRIER_SET of arm `a` with field bit `m` await a zero (R297). -/
def carWaits (s : State) (a : Nat) (m : Nat) : Bool :=
  s.cmd.pend.any (fun e => e.op == 0x0305 && !e.applied &&
    (match e.payload with | .carrier b v _ _ _ _ => b == a && v &&& m != 0 | _ => false))

/-- The carrier registers that show structured state (R296, R297); before the grid starts, the values of CFG, PERIOD and TIME. -/
def carRead (s : State) (off : Nat) : Option U32 :=
  if off = rHRW_FREEZE then some (u32 (b2n s.hrw.frozen))
  else if 0x00704000 ≤ off ∧ off < 0x00704600 then
    let a := (off - 0x00704000) / 0x80
    let c := carOf s a
    match off % 0x80 with
    | 0x20 => some (if c.rt.on then u32 c.rt.period else rg s (rHRW_CAR_PERIOD a))
    | 0x24 => some (if c.rt.on then pack [(0, c.rt.minPulse), (16, c.rt.dead)] else rg s (rHRW_CAR_TIME a))
    | 0x28 => some (pack [(0, b2n (c.rt.enabled && carrierOpen s a (epochNow s))), (1, b2n c.drain.isSome), (2, b2n (carWaits s a 1)),
                          (3, b2n (carWaits s a 6)), (4, b2n (carWaits s a 8)), (5, b2n (c.bridges.any (fun p => decide (p.1 ≤ 8 * now s ∧ 8 * now s < p.2)))), (16, c.k)])
    | 0x2C => some (u32 c.cmp0)
    | 0x3C => some (u32 c.loadEpoch)
    | _ => none
  else none

end Sys2Proof.Machine
end

