-- ==== Sys2Proof/Machine/Points.lean ====
section
/-! DEFINITION. The point map: what every point of an image reads (R147 to R158). -/

namespace Sys2Proof.Machine

/-- The value STALE (R148). -/
def stale : U32 := 0x80000000

/-- AGE of a cell in the image of epoch `k` (R151). -/
def cellAge (k : Nat) (x : CellImg) : Nat := match x.lastLive with | some e => min 255 (k - e) | none => 255

/-- CELL_STAT (R151). -/
def cellStat (k : Nat) (x : CellImg) : U32 :=
  pack [(0, x.report), (2, b2n x.retired), (3, b2n x.arm.isSome), (4, x.arm.getD 15), (8, x.group), (10, b2n x.wrapped),
        (11, b2n x.crcBad), (12, b2n x.late), (16, cellAge k x)]

/-- A rotating value as its point shows it (R149, R150). -/
def rotPoint (k i : Nat) (x : CellImg) : U32 :=
  match x.rots.find? (fun p => p.1 == i) with
  | some p => pack [(0, p.2.1), (16, min 0x7FFF (k - p.2.2))]
  | none => stale

/-- Point `p` of a cell (R149, R150). -/
def cellPoint (img : Image) (x : CellImg) (p : Nat) : U32 :=
  let rep (v : U32) : U32 := if x.report = 0 then v else stale
  match p with
  | 0 => cellStat img.k x
  | 1 => rep (u32 x.vcap)
  | 2 => rep (u32 x.stat)
  | 3 => rep (u32 x.rotIdx)
  | 4 => x.cmd
  | 5 => u32 (min 0x7FFFFFFF (img.epochs - x.liveCnt))
  | 6 => u32 (min 0x7FFFFFFF x.swCnt)
  | 7 => u32 (min 0x7FFFFFFF x.rotDrop)
  | p => if 24 ≤ p then rep (rotPoint img.k (p - 24) x) else 0

/-- The epoch header (R152). -/
def headPoint (img : Image) (p : Nat) : U32 :=
  match p with
  | 0x00 => u32 img.k
  | 0x01 => u32 (img.k / 2 ^ 32)
  | 0x02 => lo32 img.tick
  | 0x03 => hi32 img.tick
  | 0x04 => u32 img.sec
  | 0x05 => u32 (img.sec / 2 ^ 32)
  | 0x06 => u32 img.ns
  | 0x07 => img.tstat
  | 0x08 => u32 img.closeAt
  | 0x09 => img.flags
  | 0x0A => u32 img.live
  | 0x0B => u32 img.stale
  | 0x0C => u32 img.retired
  | 0x0E => lo32 img.lateRings
  | 0x0F => hi32 img.lateRings
  | 0x10 => lo32 img.crcRings
  | 0x11 => hi32 img.crcRings
  | 0x12 => lo32 img.wrapRings
  | 0x13 => hi32 img.wrapRings
  | 0x14 => img.role
  | 0x15 => u32 img.missed
  | _ => 0

/-- A point of an image (R147); a point that is not assigned reads 0. -/
def pointRead (img : Image) (p : Nat) : U32 :=
  if p < 0x100000 then cellPoint img (tget {} img.cells (p / 64)) (p % 64)
  else if p < 0x100100 then headPoint img (p - 0x100000)
  else if p < 0x100400 then (tget [] img.arms ((p - 0x100100) / 64)).getD ((p - 0x100100) % 64) 0
  else if p < 0x100C00 then loopPoint (tget {} img.loops ((p - 0x100400) / 16)) ((p - 0x100400) % 16)
  else if p < 0x100C80 then
    let v := tget (0, 0, 0, 0) img.afe ((p - 0x100C00) / 4)
    match p % 4 with | 0 => v.1 | 1 => v.2.1 | 2 => v.2.2.1 | _ => v.2.2.2
  else if p < 0x100CC0 then tget 0 img.rings (p - 0x100C80)
  else if p < 0x100CC8 then tget 0 img.permits (p - 0x100CC0)
  else if 0x102000 ≤ p ∧ p < 0x104000 then tget stale img.fw (p - 0x102000)
  else 0

/-- The station points 0x10_0000 to 0x10_0CC7 of an image. -/
def stationPoints (img : Image) : List U32 := (List.range 3272).map (fun i => pointRead img (0x100000 + i))

/-- Two points per word, the first in the low half. -/
def pairWords : List U32 → List U64
  | a :: b :: rest => join64 a b :: pairWords rest
  | [a] => [join64 a 0]
  | [] => []

end Sys2Proof.Machine
end

