-- ==== Sys2Proof/Machine/Protection.lean ====
section
/-! DEFINITION. Protection: Clapper, the safety processor with the Celrov image, the permit channels and protection decisions
(12_protection.md; R175, R485 and R495 where the stack meets them). Durations on the monitor oscillator are taken at their nominal
length on the tick counter. -/

namespace Sys2Proof.Machine

/-! ### Configuration -/

def srcPrt (i : Nat) : U16 := srcBlk 13 i
def clapCfg (s : State) (k : Nat) : U32 := rg s (rPRT_CLAP_CFG k)
def clapEn (s : State) (k : Nat) : Bool := bit (clapCfg s k) 9
def clapMaps (s : State) (k n : Nat) : Bool := (clapCfg s k).getLsbD n
def pchEn (s : State) (n : Nat) : Bool := bit (rg s (rPRT_PCH_CFG n)) 0
def pchDual (s : State) (n : Nat) : Bool := bit (rg s (rPRT_PCH_CFG n)) 1
def pchTest (s : State) (n : Nat) : Bool := bit (rg s (rPRT_PCH_CFG n)) 2

/-- REARM_HOLD, RET_MAX, OFF_CHK and WIDTH in ticks (R379): a millisecond is 312,500 ticks, 10 µs are 3,125. -/
def rearmHold (s : State) : Nat := 312500 * max 10 (min 10000 (fld (rg s rPRT_CFG) 15 0))
def retMax (s : State) : Nat := 3125 * max 2 (min 100 (fld (rg s rPRT_CFG) 23 16))
def offChk (s : State) : Nat := 31250 * max 1 (fld (rg s rPRT_CFG) 27 24)
def pulseWidth (s : State) : Nat := 3125 * max 2 (min 50 (fld (rg s rPRT_TEST_CFG) 13 8))
/-- HB_MAX in µs and COMMIT_WD in frames (R379). -/
def hbMax (s : State) : Nat := max 10 (min 100 (fld (rg s rPRT_SP_CFG) 6 0))
def commitWd (s : State) : Nat := max 1 (fld (rg s rPRT_SP_CFG) 11 8)

/-! ### Channels (R356, R367 to R369) -/

def chn (s : State) (n : Nat) : Chn := tget {} s.prt.chans n
def setChn (s : State) (n : Nat) (v : Chn) : State := { s with prt := { s.prt with chans := tset {} s.prt.chans n v } }

/-- The state code of a channel (R368): UNUSED while EN is 0, OFF where it has not been on since reset. -/
def chanState (s : State) (n : Nat) : Nat := if !pchEn s n then 0 else if (chn s n).st = 0 then 1 else (chn s n).st

/-- The state machine's requests (R368); the second phase of an off-pulse drives both outputs again (R372). -/
def reqH (s : State) (n : Nat) : Bool :=
  let st := chanState s n
  st == 3 || st == 4 || st == 6 || (st == 5 && (chn s n).ret)
def reqL (s : State) (n : Nat) : Bool :=
  let st := chanState s n
  pchDual s n && (st == 2 || st == 3 || st == 4 || st == 5 || (st == 6 && (chn s n).ret))

/-- Does a Clapper cause map to channel `n`. -/
def clapHits (s : State) (n : Nat) : Bool := (List.range 16).any (fun k => bit s.prt.latched k && clapMaps s k n)

/-- Does a demand hold channel `n` off: Clapper, the safety processor, or the partner's trips (R356, R369, R495). -/
def tripHeld (s : State) (n : Nat) : Bool := clapHits s n || bit s.prt.demand n || bit s.stk.follow n

/-- The output pins PERMIT_H and PERMIT_L (R356, R531, R533). -/
def permitClamp (s : State) : Bool := s.sys.por || s.sys.pin || s.sys.soft
def permitH (s : State) (n : Nat) : Bool := reqH s n && !clapHits s n && !bit s.prt.demand n && !permitClamp s
def permitL (s : State) (n : Nat) : Bool := reqL s n && !clapHits s n && !bit s.prt.demand n && !permitClamp s

/-- A channel counts as off (R370). -/
def chanOff (s : State) (n : Nat) : Bool := pchEn s n && !(decide (4 ≤ chanState s n) && decide (chanState s n ≤ 6))

/-- Channels that the DECISION block shows on and tripped (R485). -/
def permitOnMask (s : State) : Nat := bitsOf 8 (fun n => decide (4 ≤ chanState s n ∧ chanState s n ≤ 6))
def tripLiveMask (s : State) : Nat := bitsOf 8 (fun n => clapHits s n || bit s.prt.demand n)

/-- The DECISION block of this device (R485). -/
def decisionBlock (s : State) (new : Bool) : Block :=
  ctl (0x33 + s.fur.bgen.toNat * 2 ^ 8 + tripLiveMask s * 2 ^ 16 + permitOnMask s * 2 ^ 24 + b2n new * 2 ^ 32)

/-- The stack lanes send: REFCLK is present and the root PLL locked, outside a reset (R488). -/
def stkTxOn (s : State) : Bool := s.sys.refclkOk && s.sys.pllLock && !held s

/-- A DECISION block goes out, on one port or on both (R485, R493). -/
def decisionOut (b : Block) (dst : Option Nat) (s : State) : State :=
  if stkTxOn s then { s with stk := { s.stk with decOut := b, decTo := dst } } else s

/-- What follows from a change in protection: Snare group 0 (R463) and the DECISION block to the partners (R485). -/
def prtSync (s : State) : State :=
  let t := now s
  let s := (List.range 16).foldl (fun s k => snareSig t 0 k (b2n (bit s.prt.latched k)) s) s
  let s := (List.range 8).foldl (fun s n => snareSig t 0 (16 + n) (chanState s n) s) s
  let s := snareSig t 0 24 (s.prt.demand.toNat + 256 * s.prt.grant.toNat) s
  let b := decisionBlock s false
  let old := s.stk.decOut
  let s := if old.data &&& 0xFFFF0000 = b.data &&& 0xFFFF0000 then s else decisionOut b none s
  snareEval s

/-- Count a pulse passed, or skipped or aborted (R378); each half saturates. -/
def countPass (n : Nat) (s : State) : State :=
  let w := rg s (rPRT_PCH_TCNT n)
  wr s (rPRT_PCH_TCNT n) (pack [(0, min 0xFFFF (fld w 15 0 + 1)), (16, fld w 31 16)])
def countSkip (n : Nat) (s : State) : State :=
  let w := rg s (rPRT_PCH_TCNT n)
  let s := wr s (rPRT_PCH_TCNT n) (pack [(0, fld w 15 0), (16, min 0xFFFF (fld w 31 16 + 1))])
  report s (srcPrt (88 + n)) 0x0345

/-- Channel `n` enters TRIPPED for the causes in `why` (R369, R373); UNUSED and FAILED channels do not. -/
def tripChan (why : U32) (n : Nat) (s : State) : State :=
  let st := chanState s n
  if st = 0 ∨ st = 8 then s
  else
    let c := chn s n
    let s := if st = 5 ∨ st = 6 then setEvt (countSkip n s) rPRT_EVT (bitv 8) else s
    setChn s n { c with st := 7, cause := if st = 7 then c.cause ||| why else why, clear := none, ret := false,
                        since := if st = 7 then c.since else now s }

/-- The causes of each TRIPPED channel that have all cleared start its REARM_HOLD (R369, R374). -/
def holdChan (s : State) (n : Nat) : State :=
  let c := chn s n
  if c.st = 7 ∧ c.clear = none ∧ !tripHeld s n ∧ !windowOpen s then setChn s n { c with clear := some (now s) } else s
def holdStart (s : State) : State := (List.range 8).foldl holdChan s

/-- A channel enters FAILED with cause STUCK (R369). -/
def failChan (n : Nat) (s : State) : State :=
  let s := setChn s n { chn s n with st := 8, cause := bitv 20, ret := false, clear := none }
  report (setEvt s rPRT_EVT (bitv 5)) (srcPrt (88 + n)) 0x0343

/-- A channel loses its supply, or it does not rise (R369, R372). -/
def loseChan (why evt n : Nat) (s : State) : State :=
  holdStart (report (setEvt (tripChan (bitv why) n s) rPRT_EVT (bitv evt)) (srcPrt (88 + n)) 0x0344)

/-! ### Decisions (R358) -/

/-- STK_CFG.MODE (R510): 3 is taken as 0. -/
def stkMode (s : State) : Nat := let m := fld (rg s rSTK_CFG) 1 0; if m = 3 then 0 else m

/-- Does the device drive its rings: not a shadow, nor a device of a pair whose role is not decided (R491, R494, R497).
[DEDUCED: notes/assumptions/34] -/
def drives (s : State) : Bool := s.stk.role == 2 || s.stk.role == 3 || (s.stk.role == 0 && stkMode s != 1)

/-- What a protection decision does in the device that makes it: the block symbol, or its merging into a burst; every group blocked
and every pending DEBLOCK failed; the TRIP_IMAGE records (R129, R180, R203, R358).
[DEDUCED: notes/assumptions/30] -/
def protDecide (s : State) : State :=
  let s := count s rPRT_TRIP_CNT
  let s := jnlPut 4 (pairWords (stationPoints s.grn.commit)) s
  let s := { s with grn := { s.grn with tripDue := true } }
  if !drives s then s
  else
    let r := burstStart s
    let s := if r.1 then r.2 else setEvt (count r.2 rPRT_MERGE_CNT) rPRT_EVT (bitv 9)
    let s := blockByDecision (burstFrame s) s
    snareEvent (now s) 0 25 s.fur.bgen.toNat s

/-- A decision of this device, with its DECISION block to the partners (R485). -/
def decision (s : State) : State :=
  let s := protDecide s
  decisionOut (decisionBlock s true) none s

/-- The first-cause record, taken where no cause was present (R379). -/
def firstCause (w : U32) (s : State) : State :=
  if s.prt.latched = 0 ∧ s.prt.demand = 0 then { s with prt := { s.prt with first := w ||| bitv 11 } } else s

/-! ### Clapper (R359 to R361) -/

/-- An input asserts; an input whose EN is 0 does nothing. [DEDUCED: notes/assumptions/31] -/
def clapAssert (k : Nat) (s : State) : State :=
  if clapEn s k then { s with prt := { s.prt with asserted := s.prt.asserted ||| BitVec.ofNat 16 (2 ^ k) } } else s

/-- Has input `k` asserted without latching yet; input 12 follows Tocsin's request. -/
def clapDue (s : State) (k : Nat) : Bool :=
  clapEn s k && (if k = 12 then !s.flt.trips.isEmpty else bit s.prt.asserted k) && !bit s.prt.latched k

/-- The code under which a latched input reports (R377, R382). -/
def clapCode (k : Nat) : Nat := if k = 9 ∨ k = 10 ∨ k = 13 then 0x0342 else 0x0340

/-- Input `k` latches its cause, trips the channels in its MASK and is a decision where BLKSYM is set.
[DEDUCED: notes/assumptions/31] -/
def clapLatch (k : Nat) (s : State) : State :=
  let m := BitVec.ofNat 16 (2 ^ k)
  if !clapDue s k then
    { s with prt := { s.prt with asserted := s.prt.asserted &&& ~~~m } }
  else
    let s := firstCause (u32 k) s
    let s := { s with prt := { s.prt with latched := s.prt.latched ||| m, asserted := s.prt.asserted &&& ~~~m } }
    let s := setEvt s rPRT_EVT (bitv 0)
    let s := (idxs 8 (clapMaps s k)).foldl (fun s n => tripChan (bitv k) n s) s
    let s := report s (srcPrt k) (clapCode k)
    let s := if bit (clapCfg s k) 8 then decision s else s
    prtSync s

def execClapperCauseLatch (k : Fin 16) (s : State) : Host.Outcome State Fault Refusal := .next (clapLatch k s)

/-- The clearing condition of an input (R359). -/
def clapGone (s : State) (k : Nat) : Bool :=
  if k < 8 then cmpArmed s k
  else match k with
    | 8 => s.fur.rings.all (fun p => !(p.2.frameLoss && (join64 (rg s rPRT_FL_MASK_LO) (rg s rPRT_FL_MASK_HI)).getLsbD p.1))
    | 9 => decide (2 ≤ s.prt.hbGood)
    | 11 => s.sys.refclkOk && s.sys.pllLock
    | 12 => s.flt.trips.all (fun t => !causeLive s t.1 t.2)
    | _ => false

/-- A latched cause clears when its condition holds. -/
def clapClear (k : Nat) (s : State) : State :=
  if bit s.prt.latched k && clapGone s k then
    let s := { s with prt := { s.prt with latched := s.prt.latched &&& ~~~(BitVec.ofNat 16 (2 ^ k)) } }
    let s := if k = 12 then { s with flt := { s.flt with trips := [] } } else s
    prtSync (holdStart s)
  else s

def execClapperCauseClear (k : Fin 16) (s : State) : Host.Outcome State Fault Refusal := .next (clapClear k s)

/-- The registers over which the configuration CRC runs (R360), in ascending offset order. -/
def crcRegs : List Nat :=
  rPRT_CFG :: (List.range 16).map (fun k => rPRT_CLAP_CFG k) ++ [rPRT_FL_MASK_LO, rPRT_FL_MASK_HI] ++
  (List.range 8).map (fun n => rPRT_PCH_CFG n)

def configCrc (s : State) : U32 := crc32c (crcRegs.flatMap (fun r => leBytes 4 (rg s r).toNat))

/-- SYS_SETUP_DONE is accepted: the CRC is stored and its check starts (R360), and channels that a demand holds are tripped. -/
def prtSetupDone (s : State) : State :=
  let s := { s with prt := { s.prt with crcOn := true, crcRef := configCrc s } }
  let s := (List.range 8).foldl (fun s n => if tripHeld s n then tripChan 0 n s else s) s
  prtSync (holdStart s)

/-- SETUP_REOPEN: every used channel enters TRIPPED with cause SETUP, and the CRC check stops (R361). -/
def prtReopen (s : State) : State :=
  let s := { s with prt := { s.prt with crcOn := false } }
  prtSync ((List.range 8).foldl (fun s n => tripChan (bitv 19) n s) s)

/-- A recomputation of the CRC. `upset` is the difference that an upset of the stored configuration makes. -/
def crcCheck (upset : U32) (s : State) : State :=
  if s.prt.crcOn && decide (configCrc s ^^^ upset ≠ s.prt.crcRef) then
    clapAssert 13 (setEvt s rPRT_EVT (bitv 4))
  else s

def execConfigCrcCheck (upset : U32) (s : State) : Host.Outcome State Fault Refusal := .next (crcCheck upset s)

/-- The safety processor fails: input 10 (R359). -/
def spFailure (s : State) : State :=
  clapAssert 10 (setEvt { s with prt := { s.prt with lockErr := true } } rPRT_EVT (bitv 3))

def execSpFailure (s : State) : Host.Outcome State Fault Refusal := .next (spFailure s)

/-! ### The heartbeat (R366) -/

/-- Heartbeat supervision fails: input 9. -/
def hbLoss (s : State) : State :=
  let s := { s with prt := { s.prt with hbOk := false, hbGood := 0 } }
  clapAssert 9 (setEvt s rPRT_EVT (bitv 2))

/-- A write of PRT_SP_HB, `cycles` monitor-oscillator cycles of 10 ns after the previous one. -/
def heartbeat (v : U32) (cycles : Nat) (s : State) : State :=
  let old := s.prt.hb
  let s := { s with prt := { s.prt with hb := v, hbAt := now s } }
  if !s.prt.hbOn then
    if v = 0x00005AA5 then { s with prt := { s.prt with hbOn := true, hbOk := true, hbGood := 1 } } else s
  else
    let want := fld (~~~old) 15 0
    let good := decide (v.toNat = want) && decide (25 * hbMax s ≤ cycles) && decide (cycles ≤ 100 * hbMax s)
    if good then { s with prt := { s.prt with hbOk := true, hbGood := min 2 (s.prt.hbGood + 1) } } else hbLoss s

def execHeartbeatWrite (v : U32) (cycles : U32) (s : State) : Host.Outcome State Fault Refusal := .next (heartbeat v cycles.toNat s)

/-- HB_MAX passes without a write. -/
def hbTimeout (s : State) : State :=
  if s.prt.hbOn && s.prt.hbOk then hbLoss (advanceTo s (s.prt.hbAt + (hbMax s * 625 + 1) / 2)) else s

def execHeartbeatTimeout (s : State) : Host.Outcome State Fault Refusal := .next (hbTimeout s)

/-! ### The safety processor (R362 to R365) -/

/-- The source of a safety-processor trip: the recorded limit entry, else the watchdog (R381).
[DEDUCED: notes/assumptions/31] -/
def spSource (s : State) : Nat := match s.prt.limit with | some i => 16 + i | none => 80

/-- PRT_SP_CMD takes DEMAND, GRANT and BLKSYM. -/
def spCmd (demand grant : U8) (blk : Bool) (src : Nat) (s : State) : State :=
  let old := s.prt.demand
  let fresh := demand &&& ~~~old
  let s := if fresh = 0 then s else
    let s := firstCause (bitv 4 ||| u32 (32 * (s.prt.limit.getD 0))) s
    report (setEvt s rPRT_EVT (bitv 1)) (srcPrt src) 0x0341
  let s := { s with prt := { s.prt with demand := demand, grant := grant, blksym := blk } }
  let s := (idxs 8 (bit demand)).foldl
    (fun s n => if bit old n && decide (chanState s n = 7) then s else tripChan (bitv 16) n s) s
  let s := holdStart s
  let s := if blk then decision s else s
  prtSync s

def execSpCmdWrite (demand grant : U8) (blk : Bool) (s : State) : Host.Outcome State Fault Refusal :=
  .next (spCmd demand grant blk (spSource s) s)

/-- DEMAND as the Celrov image's own rules give it: tripped entries, comparator copies and the watchdog (R363 to R365). -/
def imageDemand (s : State) : U8 :=
  let lim := (List.range 64).foldl (fun m i =>
    if (tget {} s.prt.lims i).tripped then m ||| (rg s (rPRT_LIM_MASK i)).setWidth 8 else m) (0 : U8)
  let cmp := (List.range 8).foldl (fun m k => if bit s.prt.cmpTrip k then m ||| (clapCfg s k).setWidth 8 else m) (0 : U8)
  let wd : U8 := if s.prt.wdTrip then BitVec.ofNat 8 (fld (rg s rPRT_SP_CFG) 23 16) else 0
  lim ||| cmp ||| wd

/-- The image rewrites PRT_SP_CMD after `f` changed what it rests on: bits that its rules gave before are replaced. -/
def imageStep (blk : Bool) (src : State → Nat) (f : State → State) (s : State) : State :=
  if !s.prt.sp || s.prt.lockErr then s
  else
    let was := imageDemand s
    let s := f s
    let d := (s.prt.demand &&& ~~~was) ||| imageDemand s
    if d = s.prt.demand && !blk then s else spCmd d s.prt.grant blk (src s) s

/-- The latched copy of comparator `k` sets or clears its MASK in DEMAND (R364).
[DEDUCED: notes/assumptions/32] -/
def cmpCopy (k : Nat) (on : Bool) (s : State) : State :=
  let m : U8 := BitVec.ofNat 8 (2 ^ k)
  if on && !bit (rg s rPRT_SP_CFG) (24 + k) then s
  else imageStep false (fun _ => 80)
    (fun s => { s with prt := { s.prt with cmpTrip := if on then s.prt.cmpTrip ||| m else s.prt.cmpTrip &&& ~~~m } }) s

/-- Points that may read STALE (R149, R153, R158). -/
def mayStale (p : Nat) : Bool :=
  if p < 0x100000 then let q := p % 64; decide (1 ≤ q ∧ q ≤ 3) || decide (24 ≤ q)
  else if 0x100100 ≤ p ∧ p < 0x100400 then let q := (p - 0x100100) % 64; decide (6 ≤ q ∧ q ≤ 10)
  else decide (0x102000 ≤ p)

/-- What the safety port presents (R362, R496): the committed image, and in the shadow role the replica. -/
def safetyPoint (s : State) (p : Nat) : U32 :=
  if s.stk.role != 1 then pointRead s.grn.commit p
  else if p < 0x100000 then
    let w := u32 (tget (0, 0) s.grn.repl.cells (p / 64)).1
    if p % 64 = 1 ∧ (s.grn.repl.cells.any (fun q => q.1 == p / 64)) ∧ fld w 17 16 = 0 then u32 (fld w 15 0) else stale
  else if p < 0x102000 then tget 0 s.grn.repl.station (p - 0x100000)
  else tget stale s.grn.repl.fw (p - 0x102000)

/-- Is limit entry `i` exceeded (R363); none for a stale epoch that does not count. -/
def limitExceeded (s : State) (i : Nat) : Option Bool :=
  let cfg := rg s (rPRT_LIM_CFG i)
  let p := fld cfg 20 0
  let v := safetyPoint s p
  if mayStale p && decide (v = stale) then (if bit cfg 28 then some true else none)
  else
    let x := match fld cfg 22 21 with
      | 1 => fOfDy fmt64 (fld v 15 0 : Nat) 0
      | 2 => fOfDy fmt64 (v.toNat : Int) 0
      | _ => widen v
    let thr := widen (rg s (rPRT_LIM_THR i))
    some (if bit cfg 23 then fLt fmt64 x thr else fLt fmt64 thr x)

/-- One entry of the limit table over one epoch, and whether it trips now. [DEDUCED: notes/assumptions/32] -/
def limitStep (persist : Nat) (ex : Option Bool) (l : Lim) : Lim × Bool :=
  match ex with
  | none => (l, false)
  | some true =>
    let n := min persist (l.n + 1)
    if persist ≤ n then ({ n := n, tripped := true, below := 0 }, !l.tripped) else ({ l with n := n, below := 0 }, false)
  | some false =>
    let b := min persist (l.below + 1)
    ({ n := 0, tripped := l.tripped && decide (b < persist), below := b }, false)

/-- The limit table over the committed epoch: the state after it and the entries that trip. -/
def limitTable (s : State) : Tbl Lim × List Nat :=
  (List.range 64).foldl (fun r i =>
    let cfg := rg s (rPRT_LIM_CFG i)
    if bit cfg 30 then
      let q := limitStep (fld cfg 27 24 + 1) (limitExceeded s i) (tget {} r.1 i)
      (tset {} r.1 i q.1, if q.2 then r.2 ++ [i] else r.2)
    else r) (s.prt.lims, [])

/-- The safety image evaluates its limit table at a commit (R363, R364); the commit ends the watchdog's demand.
[DEDUCED: notes/assumptions/31; DEDUCED: notes/assumptions/32] -/
def safetyEval (s : State) : State :=
  let s := { s with prt := { s.prt with noCommit := 0 } }
  let r := limitTable s
  let blk := r.2.any (fun i => bit (rg s (rPRT_LIM_CFG i)) 29)
  imageStep blk spSource (fun s => { s with prt := { s.prt with
    lims := r.1, wdTrip := false, limit := match r.2.head? with | some i => some i | none => s.prt.limit } }) s

/-- No epoch committed for COMMIT_WD frame boundaries (R365). [DEDUCED: notes/assumptions/31] -/
def commitWatchdog (s : State) : State :=
  if commitWd s ≤ s.prt.noCommit ∧ !s.prt.wdTrip then
    imageStep true (fun _ => 80) (fun s => { s with prt := { s.prt with wdTrip := true } }) s
  else s

def execCommitWatchdog (s : State) : Host.Outcome State Fault Refusal := .next (commitWatchdog s)

/-! ### Permit channel events (R369, R371, R372) -/

/-- A channel leaves OFF or TRIPPED once its conditions hold. -/
def permitEnable (n : Nat) (s : State) : State :=
  let c := chn s n
  let base := !windowOpen s && bit s.prt.grant n && !c.prb && !tripHeld s n
  let go (s : State) : State :=
    prtSync (setChn s n { c with st := if pchDual s n then 2 else 3, since := now s, clear := none, ret := false })
  if chanState s n = 1 && base then go s
  else if chanState s n = 7 && base && convBlocked s then
    (match c.clear with | some t => go (advanceTo s (t + rearmHold s)) | none => s)
  else s

def execPermitEnable (n : Fin 8) (s : State) : Host.Outcome State Fault Refusal := .next (permitEnable n s)

/-- 20 µs, that is 6,250 ticks, pass in CHECK_L with PRB low. -/
def checkLDone (n : Nat) (s : State) : State :=
  let c := chn s n
  if chanState s n = 2 && !c.prb then
    let s := advanceTo s (c.since + 6250)
    prtSync (setChn s n { c with st := 3, since := now s })
  else s

def execPermitCheckLDone (n : Fin 8) (s : State) : Host.Outcome State Fault Refusal := .next (checkLDone n s)

/-- An off-pulse passes: counted, and in dual mode the next one tests the other switch (R371). -/
def pulsePass (n : Nat) (s : State) : State :=
  let c := chn s n
  countPass n (setChn s n { c with st := 4, ret := false, since := now s, nextL := pchDual s n && !c.nextL })

/-- The filtered PRB level changes (R367, R369). -/
def prbChange (n : Nat) (level : Bool) (s : State) : State :=
  if (chn s n).prb = level then s
  else
    let s := setChn s n { chn s n with prb := level }
    let c := chn s n
    let st := chanState s n
    let s :=
      if st = 2 ∧ level then failChan n s
      else if st = 3 ∧ level then setChn s n { c with st := 4, since := now s }
      else if st = 4 ∧ !level then loseChan 17 7 n s
      else if (st = 5 ∨ st = 6) ∧ level ∧ c.ret then pulsePass n s
      else s
    prtSync s

def execPrbChange (n : Fin 8) (level : Bool) (s : State) : Host.Outcome State Fault Refusal := .next (prbChange n level s)

/-- RET_MAX passes with PRB low. -/
def retTimeout (n : Nat) (s : State) : State :=
  let c := chn s n
  let st := chanState s n
  if st = 3 && !c.prb then
    let s := advanceTo s (c.since + retMax s)
    let s := setChn s n { c with st := 1, cause := bitv 18, since := now s }
    prtSync (report (setEvt s rPRT_EVT (bitv 6)) (srcPrt (88 + n)) 0x0344)
  else if (st = 5 ∨ st = 6) && c.ret && !c.prb then
    let s := advanceTo s (c.since + retMax s)
    prtSync (holdStart (report (setEvt (setChn s n { c with st := 7, cause := bitv 18, since := now s, clear := none, ret := false })
      rPRT_EVT (bitv 6)) (srcPrt (88 + n)) 0x0344))
  else s

def execPermitRetTimeout (n : Fin 8) (s : State) : Host.Outcome State Fault Refusal := .next (retTimeout n s)

/-- Is the request low on both outputs, in single mode on PERMIT_H. -/
def reqLow (s : State) (n : Nat) : Bool := !reqH s n && !reqL s n

/-- PRB stays high for OFF_CHK while the request is low. -/
def offChkExpire (n : Nat) (s : State) : State :=
  let st := chanState s n
  if st != 0 && st != 8 && (chn s n).prb && reqLow s n then prtSync (failChan n (advanceTo s (now s + offChk s))) else s

def execPermitOffChkExpire (n : Fin 8) (s : State) : Host.Outcome State Fault Refusal := .next (offChkExpire n s)

/-- The test slot of channel `n` arrives (R371); no two channels pulse at once.
[DEDUCED: notes/assumptions/31] -/
def offPulseStart (n : Nat) (s : State) : State :=
  if !(pchEn s n && pchTest s n) then s
  else if (List.range 8).any (fun m => m != n && (chanState s m == 5 || chanState s m == 6)) then s
  else if chanState s n = 4 then
    let c := chn s n
    prtSync (setChn s n { c with st := if pchDual s n && c.nextL then 6 else 5, since := now s, ret := false })
  else countSkip n s

def execOffPulseStart (n : Fin 8) (s : State) : Host.Outcome State Fault Refusal := .next (offPulseStart n s)

/-- Is the first phase of an off-pulse of channel `n` running. -/
def inPulse (s : State) (n : Nat) : Bool := (chanState s n == 5 || chanState s n == 6) && !(chn s n).ret

/-- At W − 1 µs the filtered PRB must read low (R372); 1 µs is 312.5 ticks. -/
def offPulseCheck (n : Nat) (s : State) : State :=
  if inPulse s n then
    let s := advanceTo s ((chn s n).since + pulseWidth s - 312)
    if (chn s n).prb then prtSync (failChan n s) else s
  else s

def execOffPulseCheck (n : Fin 8) (s : State) : Host.Outcome State Fault Refusal := .next (offPulseCheck n s)

/-- At W the switch is driven high again; a PRB that already reads high passes the pulse. -/
def offPulseEnd (n : Nat) (s : State) : State :=
  if inPulse s n then
    let s := advanceTo s ((chn s n).since + pulseWidth s)
    let s := setChn s n { chn s n with ret := true, since := now s }
    prtSync (if (chn s n).prb then pulsePass n s else s)
  else s

def execOffPulseEnd (n : Fin 8) (s : State) : Host.Outcome State Fault Refusal := .next (offPulseEnd n s)

/-! ### AFE events that protection sees (R332, R342) -/

/-- A conversion slot of sequencer `q` ends with the value `x`; `ecc` marks an uncorrectable table error.
[DEDUCED: notes/assumptions/45] -/
def afeConversion (q : Nat) (x : Int) (ecc : Bool) (s : State) : State :=
  let r := conversion q x ecc s
  snareEval (match r.2 with
    | some (c, d) => snareSig (now r.1) 2 c (usgn 16 (clampI (-32768) 32767 (fNearest fmt64 (fMul fmt64 (widen d) (fOfDy fmt64 32768 0))))) r.1
    | none => r.1)

def execAfeConversion (q : Fin 4) (x : BitVec 32) (ecc : Bool) (s : State) : Host.Outcome State Fault Refusal :=
  .next (afeConversion q x.toInt ecc s)

/-- Comparator `k` crosses: sequencers, the interrupt source, Clapper, the safety processor's copy and Snare. -/
def comparatorCrossing (k : Nat) (s : State) : State :=
  if !cmpArmed s k then s
  else
    let s := snareSig (now s) 1 k 1 (cmpCross k s)
    let s := cmpCopy k true (clapAssert k s)
    snareEval s

def execComparatorCrossing (k : Fin 8) (s : State) : Host.Outcome State Fault Refusal := .next (comparatorCrossing k s)

/-- Comparator `k` re-arms. -/
def comparatorRearm (k : Nat) (s : State) : State :=
  if (cmpr s k).spent then
    let s := setCmp s k {}
    snareEval (cmpCopy k false (snareSig (now s) 1 k 0 s))
  else s

def execComparatorRearm (k : Fin 8) (s : State) : Host.Outcome State Fault Refusal := .next (comparatorRearm k s)

/-! ### Registers -/

/-- The PRT registers that show structured state (R378, R379). -/
def prtRead (s : State) (off : Nat) : Option U32 :=
  if off = rPRT_STAT then
    some (pack [(0, permitOnMask s), (8, bitsOf 8 (fun n => chanState s n == 7)), (16, bitsOf 8 (fun n => chanState s n == 8)),
                (24, b2n (decide (s.prt.latched ≠ 0))), (25, b2n (s.prt.hbOn && s.prt.hbOk))])
  else if off = rPRT_CLAP_CRC then some s.prt.crcRef
  else if off = rPRT_CAUSE then some (pack [(0, s.prt.latched.toNat), (16, b2n (decide (s.prt.demand ≠ 0)))])
  else if off = rPRT_FIRST then some s.prt.first
  else if off = rPRT_SP_STAT then
    some (pack [(0, b2n s.prt.hbOn), (1, b2n s.prt.lockErr), (8, s.prt.limit.getD 0), (14, b2n s.prt.limit.isSome)])
  else if off = rPRT_SP_CMD then
    some (pack [(0, s.prt.demand.toNat), (8, s.prt.grant.toNat), (16, b2n s.prt.blksym)])
  else if off = rPRT_SP_HB then some s.prt.hb
  else if 0x00D00100 ≤ off ∧ off < 0x00D00180 then
    let n := (off - 0x00D00100) / 0x10
    match off % 0x10 with
    | 4 => some (pack [(0, chanState s n), (8, b2n (chn s n).prb), (9, b2n (permitH s n)), (10, b2n (permitL s n)),
                       (11, b2n (chn s n).nextL)])
    | 8 => some (chn s n).cause
    | _ => none
  else none

end Sys2Proof.Machine
end

