-- ==== Sys2Proof/Machine/Granary.lean ====
section
/-! DEFINITION. Granary: closing an epoch, the build, commit, missed epochs, and publication to the host (R147 to R174, R183). -/

namespace Sys2Proof.Machine

/-! ### What took part in an epoch (R159 to R161) -/

/-- Does the ring take part in the closure for which frame `j` carries the reports. -/
def ringIn (x : Ring) (j : Nat) : Bool := ringLive x && decide (x.first ≤ j)

/-- Has the ring's closure deadline for frame `j` passed. -/
def ringPast (s : State) (x : Ring) (j : Nat) : Bool := decide (j * lTicks s + closeTicks s x j ≤ now s)

/-- The receive lanes on which the report of position `p` comes back in frame `j`: on a wrapped ring RX B for the positions up to loop A,
RX A for those from loop B on, none for those cut off between them. Where one loop has not been reported yet, the other divides the ring.
[DEDUCED: notes/assumptions/26] -/
def reportLanes (s : State) (x : Ring) (j p : Nat) : List Lane :=
  if !frameWrapped s x j then [.a]
  else
    match effLoopA x, effLoopB x with
    | some a, some b => (if (p : Int) ≤ a then [.b] else []) ++ (if b ≤ (p : Int) then [.a] else [])
    | some a, none => if (p : Int) ≤ a then [.b] else [.a]
    | none, some b => if b ≤ (p : Int) then [.a] else [.b]
    | none, none => [.a, .b]

/-- The report of position `p` in a part: none for the empty-slot fill (R195). -/
def partReport (q : Part) (p : Nat) : Option U64 :=
  if q.good then (match q.reports[p]? with | some v => if fld v 23 16 = 0xFF then none else some v | none => none) else none

/-- The outcome of a report slot: LIVE with its report, or STALE with CRC_BAD and LATE (R161). -/
structure SlotOut where
  live : Option U64 := none
  crcBad : Bool := false
  late : Bool := false
  deriving DecidableEq, Repr

def slotOut (s : State) (x : Ring) (j p : Nat) : SlotOut :=
  let parts := x.rx.filter (fun q => q.frame == j)
  let lanes := reportLanes s x j p
  let mine (l : Lane) : List Part := parts.filter (fun q => q.lane == l)
  match parts.findSome? (fun q => partReport q p) with
  | some v => { live := some v }
  | none =>
    if lanes.any (fun l => (mine l).isEmpty) then { late := true }
    else if lanes.any (fun l => (mine l).all (fun q => !q.good)) then { crcBad := true }
    else {}

/-- The command whose effect epoch is `k` (R149): 0, that is HOLD, where none was sent. -/
def cmdAt (s : State) (k c : Nat) : U32 :=
  let hits := s.fur.sent.filterMap (fun f =>
    if f.ring = cellRing c then
      (match f.slots[c % 256]? with
       | some w => if slotE f.frame w = some k ∧ fld w 3 0 ≠ 15 then some w else none
       | none => none)
    else none)
  (hits.getLast?).getD 0

/-- A rotating value is stored, or counted where its index is 40 or more (R149). -/
def rotStore (k : Nat) (v : U64) (x : CellImg) : CellImg :=
  let i := fld v 31 24
  if i < 40 then { x with rots := tset (0, 0) x.rots i (fld v 47 32, k) } else { x with rotDrop := x.rotDrop + 1 }

/-- A cell in the image of epoch `k` (R149 to R151, R161, R163). -/
def closeCell (s : State) (k c : Nat) : CellImg :=
  let r := ring s (cellRing c)
  let j := k + 1
  let a := armOf s c
  let w := cmdAt s k c
  let st := fld w 3 0
  let old := cellImg s c
  let base := { old with
    retired := retiredAt s c k, arm := a, group := (match a with | some a => (armMap s a).group | none => 0),
    wrapped := false, crcBad := false, late := false, cmd := w, streak := 0,
    swCnt := if st = 0 ∨ st = old.cmdSt then old.swCnt else old.swCnt + 1, cmdSt := if st = 0 then old.cmdSt else st }
  if !(ringIn r j && decide (c % 256 < r.n)) then { base with report := 2 }
  else
    let o := slotOut s r j (c % 256)
    match o.live with
    | some v =>
      rotStore k v { base with report := 0, wrapped := frameWrapped s r j, lastLive := some k, vcap := fld v 15 0,
                               stat := fld v 23 16, rotIdx := fld v 31 24, liveCnt := old.liveCnt + 1,
                               streak := min 16 (old.streak + 1) }
    | none => { base with report := 1, crcBad := o.crcBad, late := o.late }

/-- The cells that an image can hold anything about. -/
def imageCells (s : State) : List Nat :=
  s.grn.commit.cells.map (·.1) ++ (List.range 12).flatMap (armCells s) ++ s.cmd.cells.map (·.1) ++
  (s.fur.rings.filter (fun q => ringLive q.2)).flatMap (fun q => (List.range q.2.n).map (fun p => 256 * q.1 + p))

/-- VCAP in volts (R149). -/
def vcapVolts (n : Nat) : U32 := u32 (fOfRat fmt32 (n : Int) 32)

/-- The first cell, in arm order, whose value no other undercuts. -/
def bestCell (better : Nat → Nat → Bool) : List (Nat × Nat) → Option (Nat × Nat)
  | [] => none
  | x :: xs => match bestCell better xs with | none => some x | some y => if better y.2 x.2 then some y else some x

/-- ARM_STAT of arm `a` as of F_k (R153). -/
def armStat (s : State) (k a : Nat) : U32 :=
  let m := armMap s a
  pack [(0, 1), (1, b2n (lineAt (group s m.group).line k)), (2, b2n (group s m.group).carrier), (3, b2n (armWrapped s a)),
        (4, laAt s a k), (8, m.group)]

/-- The points of arm `a` in the image of epoch `k` (R153): the sum is taken exactly and rounded once.
[DEDUCED: notes/assumptions/29] -/
def armPoints (s : State) (k a : Nat) (stat : U32) (cells : Tbl CellImg) : List U32 :=
  let cs := armCells s a
  let im (c : Nat) : CellImg := tget {} cells c
  let live := (cs.filter (fun c => !(im c).retired && (im c).report == 0)).map (fun c => (c, (im c).vcap))
  let gone := (cs.filter (fun c => !(im c).retired && (im c).report != 0)).length
  let ret := (cs.filter (fun c => (im c).retired)).length
  let vsum := vcapVolts ((live.map (·.2)).foldl (· + ·) 0)
  let lo := bestCell (fun y x => decide (y < x)) live
  let hi := bestCell (fun y x => decide (x < y)) live
  let volts (o : Option (Nat × Nat)) : U32 := match o with | some p => vcapVolts p.2 | none => stale
  let index (o : Option (Nat × Nat)) : U32 := match o with | some p => u32 p.1 | none => stale
  let pt : ArmPt := (armPtAt (harm s a).pts k).getD { e := k, ref := 0, nIns := 0, rem := 0, isign := 2 }
  [stat, u32 cs.length, u32 live.length, u32 gone, u32 ret, vsum,
   if live.isEmpty then stale else f32Div vsum (f32OfNat live.length),
   volts lo, volts hi, index lo, index hi, pt.ref, u32 pt.nIns, pt.rem, u32 pt.isign, u32 pt.sw,
   pack [(0, min 0xFFFF pt.ext), (16, min 0xFFFF pt.sup)]]

/-- A ring point (R157). -/
def ringPoint (s : State) (j r : Nat) (live : Nat) : U32 :=
  let x := ring s r
  let part := ringIn x j
  pack [(0, b2n (bit (ringCfgReg s r) 0)), (1, b2n (part && frameReturned s x j)), (2, b2n (part && !frameReturned s x j)),
        (3, b2n (part && x.rx.any (fun q => q.frame == j && !q.good))), (4, b2n (part && frameWrapped s x j)), (8, live)]

/-- The AFE points as last latched (R156). -/
def afePoints (s : State) : Tbl (U32 × U32 × U32 × U32) :=
  (List.range 32).foldl (fun t c =>
    let v := chan s c
    tset (0, 0, 0, 0) t c (v.lat.mean, v.lat.lo, v.lat.hi, v.latFlags)) []

/-- The loop and AFE points of the latest boundary at or before F_k (R155, R156). -/
def sampleAt (s : State) (k : Nat) : SampleHist :=
  let m := epochNow s / pFrames s * pFrames s
  let cur : SampleHist := { m := m, loops := s.lpe.loops, afe := afePoints s }
  if m ≤ k then cur else ((s.grn.hist.filter (fun h => decide (h.m ≤ k))).getLast?).getD cur

/-- What was kept at F_k for the image of epoch `k`; the present state where nothing was. -/
def headerAt (s : State) (k : Nat) : Hdr :=
  (s.grn.hdrs.find? (fun h => h.k == k)).getD
    { k := k, tick := u64 (k * lTicks s), sec := 0, ns := 0, tstat := 0, maps := s.cmd.arms,
      arms := (idxs 12 (armMapped s)).foldl (fun t a => tset 0 t a (armStat s k a)) [] }

/-- The built image of epoch `k` (R152, R163), under the arm map of that epoch. [DEDUCED: notes/assumptions/30] -/
def buildImage (s0 : State) (k : Nat) : Image :=
  let h := headerAt s0 k
  let s := { s0 with cmd := { s0.cmd with arms := h.maps } }
  let j := k + 1
  let cells := (imageCells s).foldl (fun t c => tset {} t c (closeCell s k c)) []
  let n (p : CellImg → Bool) : Nat := (cells.filter (fun q => p q.2)).length
  let rings (p : Ring → Bool) : U64 := u64 (bitsOf 64 (fun r => let x := ring s r; ringIn x j && p x))
  let late := rings (fun x => !frameReturned s x j)
  let crc := rings (fun x => x.rx.any (fun q => q.frame == j && !q.good))
  let smp := sampleAt s k
  let missed := decide (smp.m = k) && smp.loops.any (fun p => p.2.late)
  let liveOn (r : Nat) : Nat := (cells.filter (fun q => q.1 / 256 == r && q.2.report == 0)).length
  { k := k, tick := h.tick, sec := h.sec, ns := h.ns, tstat := h.tstat, closeAt := now s - j * lTicks s,
    flags := pack [(0, b2n (late != 0)), (1, b2n (crc != 0)), (2, b2n s.grn.missPrev), (3, b2n missed)],
    live := n (fun x => x.report == 0), stale := n (fun x => x.report == 1), retired := n (fun x => x.retired),
    lateRings := late, crcRings := crc, wrapRings := rings (fun x => frameWrapped s x j),
    role := 0, missed := s.grn.missCnt, epochs := s.grn.commit.epochs + 1, cells := cells,
    arms := (List.range 12).foldl (fun t a => if armMapped s a then tset [] t a (armPoints s k a (tget 0 h.arms a) cells) else t) [],
    loops := smp.loops, afe := smp.afe,
    rings := (List.range 64).foldl (fun t r => tset 0 t r (ringPoint s j r (liveOn r))) [],
    permits := (List.range 8).foldl (fun t n => tset 0 t n (u32 (chanState s n))) [],
    fw := s.grn.fwCur, fwSince := if s.grn.fwNew then k else s.grn.commit.fwSince }

/-! ### Publication (R167 to R174) -/

/-- FIRST and COUNT of a region (R124, R169). -/
def regionSpan (s : State) (r : Nat) : Nat × Nat :=
  if r = 0 then (0, 1064960) else let c := tget {} s.grn.snaps r; (c.first, c.count)

def snapDue (s : State) (k r : Nat) : Bool :=
  let d := (tget {} s.grn.snaps r).rate
  d != 0 && decide (k % d = 0)

/-- Does an image hold PUB. -/
def pubBusy (s : State) : Bool := s.grn.pubs.any (fun p => p.region == 0 && p.status == 0)

/-- Staging slots in use: one per epoch with regions 1 to 15 being published. -/
def slotEpochs : List Pubn → List Nat
  | [] => []
  | p :: ps =>
    let r := slotEpochs ps
    if p.region == 0 || p.status != 0 || r.contains p.epoch then r else p.epoch :: r
def stageFree (s : State) : Nat := 4 - (slotEpochs s.grn.pubs).length

def pubSkip (s : State) : State := yieldCount (setEvt (count s rGRN_PUB_SKIP) rGRN_EVT (bitv 3)) 8

/-- Region `r` of epoch `k` takes the head descriptor and its publication starts (R167, R168, R171); `ds` are the descriptors
that the host posted from the head on. [DEDUCED: notes/assumptions/29] -/
def pubTake (k : Nat) (missed : Bool) (img : Image) (r : Nat) (x : State × List SnapDesc) : State × List SnapDesc :=
  let (s, ds) := x
  let posted := decide (s.grn.pubs.length < (s.hst.snpPi - s.hst.snpCi).toNat)
  match ds with
  | d :: rest =>
    if s.hst.linkUp && ringEn s 9 && posted && decide (d.region.toNat = r) then
      let sp := regionSpan s r
      let len := 64 + 4 * sp.2
      let status := if missed then 3 else if d.len.toNat < len then 2 else 0
      let p : Pubn := { region := r, epoch := k, first := sp.1, count := sp.2, addr := d.addr.toNat, len := len,
                        desc := (s.hst.snpCi.toNat + s.grn.pubs.length) % 2 ^ 32, status := status, img := img }
      let s := { s with grn := { s.grn with pubs := s.grn.pubs ++ [p] } }
      (if status = 0 then dmaWrite s [⟨d.addr.toNat, List.replicate 8 0xFF⟩] else s, rest)
    else (yieldCount (count s rHST_SNP_NODESC) 8, ds)
  | [] => (yieldCount (count s rHST_SNP_NODESC) 8, ds)

/-- The due set of epoch `k` (R167). [DEDUCED: notes/assumptions/29] -/
def publish (k : Nat) (missed : Bool) (img : Image) (ds : List SnapDesc) (s : State) : State :=
  let full := snapDue s k 0
  let due := (idxs 16 (fun r => r != 0 && snapDue s k r))
  let x : State × List SnapDesc :=
    if full then (if pubBusy s && !missed then (pubSkip s, ds) else pubTake k missed img 0 (s, ds)) else (s, ds)
  if missed || decide (0 < stageFree s) then (due.foldl (fun x r => pubTake k missed img r x) x).1
  else due.foldl (fun s _ => pubSkip s) x.1

/-- The header of a snapshot buffer, bytes 8 to 63 (R170), and its points. -/
def pubBody (p : Pubn) : Bytes :=
  leBytes 8 p.epoch ++ leBytes 8 p.img.tick.toNat ++ leBytes 4 p.first ++ leBytes 4 p.count ++ leBytes 2 p.region ++ leBytes 2 1 ++
  leBytes 4 p.img.stale ++ leBytes 8 p.img.lateRings.toNat ++ leBytes 8 p.img.wrapRings.toNat ++ leBytes 8 0 ++
  (List.range p.count).flatMap (fun i => leBytes 4 (pointRead p.img (p.first + i)).toNat)

/-- The descriptor write-back of R69, in its two writes; the descriptor is consumed. -/
def descBack (p : Pubn) (len status : Nat) (s : State) : State :=
  let n := ringN s 9
  let a := addr64 s rHST_SNP_BASE_LO rHST_SNP_BASE_HI + 32 * (p.desc % n)
  let done := if (p.desc / n) % 2 = 0 then 1 else 0
  let s := if s.hst.linkUp && ringEn s 9 then
      dmaWrite s [⟨a + 16, leBytes 8 p.epoch ++ leBytes 4 len⟩, ⟨a + 28, leBytes 2 status ++ leBytes 1 0 ++ leBytes 1 done⟩]
    else s
  { s with hst := { s.hst with snpCi := s.hst.snpCi + 1, idxDirty := true } }

/-- The first publication is abandoned (R173). LEN of what was written is open.
[DESIGN CHOICE: notes/assumptions/14; DEDUCED: notes/assumptions/29] -/
def pubAbandon (p : Pubn) (rest : List Pubn) (s : State) : State :=
  let (w, s) := draw Config.freeWord { s with grn := { s.grn with pubs := rest } }
  yieldCount (setEvt (count (descBack p (w.toNat % (p.len + 1)) 1 s) rGRN_PUB_ABANDON) rGRN_EVT (bitv 4)) 8

/-- The last write of the first publication is issued, unless writes of higher rank wait for the link (R66); a shadow
issues none (R174); `ecc` is an uncorrectable
error while the image was copied out. [DEDUCED: notes/assumptions/29] -/
def pubComplete (ecc : Bool) (s : State) : State :=
  match s.grn.pubs with
  | [] => s
  | p :: rest =>
    if linkDue s || s.stk.role == 1 then s
    else if p.status ≠ 0 then descBack p 0 p.status { s with grn := { s.grn with pubs := rest } }
    else if !s.hst.linkUp then s
    else if ecc then report (pubAbandon p rest (setEvt s rGRN_EVT (bitv 6))) (srcBlk 9 0) 0x0241
    else
      let s := { s with grn := { s.grn with pubs := rest } }
      let s := dmaWrite s [⟨p.addr + 8, pubBody p⟩, ⟨p.addr, leBytes 8 p.epoch⟩]
      descBack p p.len 0 s

def execPublicationComplete (ecc : Bool) (s : State) : Host.Outcome State Fault Refusal := .next (pubComplete ecc s)

def pubWin (s : State) : Nat := max 1 (fld (rg s rGRN_PUB_CFG) 15 0)

def execPublicationAbandon (s : State) : Host.Outcome State Fault Refusal :=
  .next (match s.grn.pubs with
    | p :: rest => if p.status = 0 ∧ p.epoch + pubWin s ≤ s.grn.commit.k ∧ s.stk.role ≠ 1 then pubAbandon p rest s else s
    | [] => s)

/-! ### Closure (R160 to R165) -/

/-- The closure deadline of ring `r` for the epoch to close expires (R159, R162, R214). -/
def closureDeadline (r : Nat) (s : State) : State :=
  match s.grn.next with
  | none => s
  | some k =>
    let x := ring s r
    if ringIn x (k + 1) && !frameReturned s x (k + 1) && decide (k + 1 ≤ epochNow s) then
      setEvt (advanceTo s ((k + 1) * lTicks s + closeTicks s x (k + 1))) rGRN_EVT (bitv 1)
    else s

def execClosureDeadline (r : Fin 64) (s : State) : Host.Outcome State Fault Refusal := .next (closureDeadline r s)

/-- The epoch that can close now (R160). -/
def closable (s : State) : Option Nat :=
  match s.grn.next with
  | none => none
  | some k =>
    let j := k + 1
    let rings := s.fur.rings.all (fun q => !ringIn q.2 j || frameReturned s q.2 j || ringPast s q.2 j)
    let loops := decide (k % pFrames s ≠ 0) || !(s.lpe.busy && s.lpe.sample == some k) || decide (k * lTicks s + dLoop s ≤ now s)
    if s.sys.running && s.stk.role != 1 && s.grn.build.isNone && decide (j ≤ epochNow s) && rings && loops then some k else none

/-- A cell's reports to Tocsin and its bucket at the closure of epoch `k` (R391, R393).
[DEDUCED: notes/assumptions/29] -/
def cellClosed (k : Nat) (img : Image) (s : State) (c : Nat) : State :=
  let x := tget {} img.cells c
  let was := cellImg s c
  let r := ring s (cellRing c)
  let src := srcCell c
  let staleErr := decide (x.report = 1) && !x.crcBad && !x.late
  let selfBlk := decide (x.report = 0) && x.stat.testBit 4
  let fault := decide (x.report = 0) && x.stat.testBit 5
  let s := if fault && !was.stat.testBit 5 then report s src 0x0380 else s
  if x.retired || !ringRunning r then s
  else
    let s := if staleErr then report s src 0x0381 else s
    let s := if selfBlk then report s src 0x0382 else s
    if decide (k < r.first + 16) || !(staleErr || selfBlk || (decide (x.report = 0) && !fault)) then s
    else
      let q := bucketFrame 0 c (staleErr || selfBlk) s
      if q.1 then tocsinRetire [c] q.2 else q.2

/-- A ring at the closure of epoch `k`: FRAME_LOSS (R218), events, and its receive buffer freed. -/
def ringClosed (k : Nat) (s : State) (r : Nat) : State :=
  let x := ring s r
  let j := k + 1
  if !ringIn x j then s
  else
    let mine := x.rx.filter (fun q => q.frame == j)
    let good := mine.any (·.good)
    let s := if frameReturned s x j then s else setEvt s rGRN_EVT (bitv 1)
    let s := if mine.any (fun q => !q.good) then setEvt s rGRN_EVT (bitv 2) else s
    let n := if good then 0 else x.lossCnt + 1
    let lost := ringRunning x && decide (flossN s ≤ n) && !x.frameLoss
    let s := setRing s r { x with rx := x.rx.filter (fun q => decide (j < q.frame)), lossCnt := min n 255,
                                  frameLoss := x.frameLoss || lost }
    if lost then
      let s := report (setEvt s rFUR_EVT (bitv 5)) (srcRing r) 0x0205
      let s := snareSig (now s) 3 (64 + r) 1 s
      if (join64 (rg s rPRT_FL_MASK_LO) (rg s rPRT_FL_MASK_HI)).getLsbD r then clapAssert 8 s else s
    else s

/-- The closure of epoch `k` frees buffers, and ends the drains that wait for it (R219). -/
def closeRings (k : Nat) (s : State) : State :=
  let s := (List.range 64).foldl (ringClosed k) s
  (idxs 64 (fun r => match (ring s r).drainE with | some e => decide (e ≤ k) | none => false)).foldl (fun s r => drainEnd r s) s

/-- Epoch `k` is missed (R164, R167). -/
def epochMissed (k : Nat) (ds : List SnapDesc) (s : State) : State :=
  let s := { s with grn := { s.grn with next := some (k + 1), missPrev := true, missCnt := s.grn.missCnt + 1, missLast := u64 k } }
  let s := yieldCount (setEvt (count s rGRN_MISS_CNT) rGRN_EVT (bitv 0)) 5
  let s := report s (srcBlk 9 0) 0x0240
  let s := jnlPut 7 [u64 k] s
  let s := publish k true s.grn.commit ds s
  intEdge s 98

/-- The epoch that can close closes (R160 to R164): its image is built, or it is missed for an uncorrectable error in the build. -/
def epochClose (uncorr : Bool) (corr : Nat) (ds : List SnapDesc) (s : State) : State :=
  match closable s with
  | none => s
  | some k =>
    let s := if corr = 0 then s else count s rGRN_ECC_CNT corr
    let img := buildImage s k
    let s := (img.cells.map (·.1)).foldl (cellClosed k img) s
    let s := closeRings k s
    let s := if uncorr then epochMissed k ds (setEvt s rGRN_EVT (bitv 6))
      else { s with grn := { s.grn with next := some (k + 1), build := some img, missPrev := false, fwNew := false } }
    snareEval s

def execEpochClose (uncorr : Bool) (corr : U32) (ds : List SnapDesc) (s : State) : Host.Outcome State Fault Refusal :=
  .next (epochClose uncorr corr.toNat ds s)

/-! ### Commit (R163, R166) -/

/-- Snare groups 6 and 9 at the commit (R463). -/
def snareCommit (img : Image) (s : State) : State :=
  let t := now s
  let w := rg s rSNR_CWIN_V
  let s := img.cells.foldl (fun s p => if p.2.report = 0 ∧ inWin w p.1 then snareSig t 6 p.1 p.2.vcap s else s) s
  img.arms.foldl (fun s p =>
    let up (i : Nat) : Nat := (p.2.getD i 0).toNat / 65536
    snareSig t 9 (4 * p.1 + 3) (up 11) (snareSig t 9 (4 * p.1 + 2) (up 8) (snareSig t 9 (4 * p.1 + 1) (up 7)
      (snareSig t 9 (4 * p.1) (up 6) s)))) s

/-- The journal records that wait for a commit: RESET (R180) and the second TRIP_IMAGE.
[DEDUCED: notes/assumptions/30] -/
def commitRecords (img : Image) (s : State) : State :=
  let s := if s.grn.resetDue then jnlPut 6 [u64 img.k, u64 (rg s rSYS_RST_CAUSE).toNat] s else s
  let s := if s.grn.tripDue then jnlPut 4 (pairWords (stationPoints img)) s else s
  { s with grn := { s.grn with resetDue := false, tripDue := false } }

/-- The built image becomes COMMIT, `dt` ticks after the closure; a shadow drops it (R497). -/
def epochCommit (dt : Nat) (ds : List SnapDesc) (s : State) : State :=
  match s.grn.build with
  | none => s
  | some b =>
    if s.stk.role = 1 then { s with grn := { s.grn with build := none } } else
    let s := advanceTo s ((b.k + 1) * lTicks s + b.closeAt + dt)
    let img := { b with role := pack [(0, b2n (s.stk.role == 0 || s.stk.role == 2)), (1, b2n s.stk.taken)] }
    let s := { s with grn := { s.grn with build := none, commit := img, valid := true } }
    let s := commitRecords img s
    let s := publish img.k false img ds s
    let s := { s with stk := { s.stk with first := false } }
    let s := safetyEval s
    let s := snareCommit img s
    snareEval (intEdge s 98)

def execEpochCommit (dt : Fin 129) (ds : List SnapDesc) (s : State) : Host.Outcome State Fault Refusal :=
  .next (epochCommit dt ds s)

/-! ### Registers (R183, R184) -/

/-- CELL_AGE and STN_AGE of the replica (R184). -/
def replCellAge (s : State) : Nat :=
  let cs := s.grn.repl.cells
  if cs.length < 16384 then 255
  else min 255 (epochNow s - cs.foldl (fun m p => min m p.2.2) (epochNow s))
def replStnAge (s : State) : Nat :=
  match s.grn.repl.stn with | some n => min 255 (epochNow s / pFrames s - n / pFrames s) | none => 255

/-- 2^SWEEP_LOG2, from 8 to 12. -/
def sweepLog2 (s : State) : Nat := max 8 (min 12 (fld (rg s rGRN_REPL_CFG) 12 8))

/-- Is the replica CURRENT (R176): nothing but the last boundary's set outstanding, and no cell record too old.
[DEDUCED: notes/assumptions/34] -/
def replCurrent (s : State) : Bool :=
  decide (replStnAge s ≤ 1) && decide (replCellAge s ≤ 2 * 2 ^ (14 - sweepLog2 s))

def grnRead (s : State) (off : Nat) : Option U32 :=
  if off = rGRN_STAT then
    some (pack [(0, b2n s.grn.valid), (1, b2n s.grn.jnlReady), (2, b2n (pubBusy s)), (3, b2n (s.stk.role == 1)), (4, stageFree s)])
  else if off = rGRN_COMMIT_LO then some (u32 s.grn.commit.k)
  else if off = rGRN_MISS_LAST_LO then some (lo32 s.grn.missLast)
  else if off = rGRN_REPL_STAT then
    some (pack [(0, b2n (s.stk.role == 1 && replCurrent s)), (8, replCellAge s), (16, replStnAge s)])
  else if off = rGRN_JNL_HEAD then some (u32 s.grn.jnlHead)
  else if off = rGRN_JNL_SEQ then some (u32 s.grn.jnlSeq)
  else if 0x00901000 ≤ off ∧ off < 0x00902000 then
    let i := 512 * fld (rg s rGRN_JNL_WIN_BASE) 10 0 + (off - 0x00901000) / 8
    let w := tget 0 s.std.jnlMem i
    some (if off % 8 = 0 then lo32 w else hi32 w)
  else none

end Sys2Proof.Machine
end

