-- ==== Sys2Proof/Machine/Stack.lean ====
section
/-! DEFINITION. The stack ports: lanes, port states, roles, the time base from the partner, readiness, messages sent, the loss of the
partner and the takeover (18_stack.md; R175 to R177). -/

namespace Sys2Proof.Machine

/-! ### Ports -/

def sport (s : State) (p : Nat) : StkPort := tget {} s.stk.ports p
def setSport (s : State) (p : Nat) (v : StkPort) : State := { s with stk := { s.stk with ports := tset {} s.stk.ports p v } }
def srcPort (p : Nat) : U16 := srcBlk 11 (1 + p)
def srcStkLane (p l : Nat) : U16 := srcBlk 11 (16 + 16 * p + l)
def laneMin (s : State) : Nat := max 1 (min 16 (fld (rg s rSTK_CFG) 11 8))
def links2 (s : State) : Bool := bit (rg s rSTK_CFG) 2
def popcount (n : Nat) (w : Nat) : Nat := (idxs n w.testBit).length
def liveLanes (x : StkPort) : Nat := popcount 16 x.live.toNat

/-- Is port `p` cabled (R491). -/
def cabled (s : State) (p : Nat) : Bool :=
  match stkMode s with
  | 0 => false
  | 1 => links2 s || (if s.stk.id = 0 then p == 1 else p == 0)
  | _ => true

def upPorts (s : State) : List Nat := idxs 2 (fun p => (sport s p).st == 2)

/-- STATE of a port, with Snare group 13 (R508). -/
def portState (p st : Nat) (s : State) : State :=
  let x := sport s p
  snareSig (now s) 13 (2 + p) st (setSport s p { x with st := st, fell := x.fell && st != 2, mismatch := x.mismatch && st != 2 })

def setRole (r : Nat) (s : State) : State := snareSig (now s) 13 0 r { s with stk := { s.stk with role := r } }

/-- A device becomes a shadow: it closes and publishes nothing more, and its descriptors wait at the head of the ring (R174, R497). -/
def toShadow (s : State) : State := setRole 1 { s with grn := { s.grn with build := none, pubs := [] } }

/-! ### Messages sent (R489) -/

/-- A message of a kind goes out; its SEQ counts per KIND modulo 256. -/
def stkPut (kind epoch : Nat) (words : List U64) (s : State) : State :=
  let n := tget 0 s.stk.outSeq kind
  { s with stk := { s.stk with outSeq := tset 0 s.stk.outSeq kind ((n + 1) % 256),
                               out := s.stk.out ++ [{ kind := kind, sq := n, epoch := epoch % 2 ^ 32, words := words }] } }

/-- Send a message of a kind, on every port that is UP. -/
def stkSend (kind epoch : Nat) (words : List U64) (s : State) : State :=
  if (upPorts s).isEmpty || !stkTxOn s then s else stkPut kind epoch words s

/-- The words of a message on the lanes: header, payload and trailer (R489). -/
def stkFrame (m : StkMsg) : List U64 :=
  let body := u64 (m.kind + m.words.length % 2 ^ 16 * 2 ^ 8 + m.sq * 2 ^ 24 + m.epoch * 2 ^ 32) :: m.words
  body ++ [(crc32c (body.flatMap (fun w => leBytes 8 w.toNat))).setWidth 64]

/-- The bytes of a message as words, eight to a word. -/
def wordsOf (bs : Bytes) : List U64 := (List.range ((bs.length + 7) / 8)).map (fun i => u64 (rd bs (8 * i) 8))

/-- HELLO: SYS_FRAME_CFG, MODE, ID and PAIR_CRC; then the lane sets that this device receives on (R490).
[DESIGN CHOICE: notes/assumptions/35] -/
def helloWords (s : State) (crc : U32) : List U64 :=
  [join64 (rg s rSYS_FRAME_CFG) (u32 (stkMode s)), join64 (u32 s.stk.id) crc,
   u64 ((sport s 0).live.toNat + (sport s 1).live.toNat * 2 ^ 16)]

/-- Take a message of a kind from the first port that delivers its SEQ (R489). -/
def firstCopy (p kind sq : Nat) (s : State) : Bool × State :=
  let seen := (List.range 2).any (fun q => q != p && (sport s q).st == 2 && tget none (sport s q).seqs kind == some sq)
  let x := sport s p
  let s := setSport s p { x with seqs := tset none x.seqs kind (some sq) }
  (!seen, s)

/-! ### PAIR_CRC (R500) -/

def insNat (x : Nat) : List Nat → List Nat
  | [] => [x]
  | y :: ys => if x ≤ y then x :: y :: ys else y :: insNat x ys

/-- The offsets of the RWL registers of a block, in ascending order. -/
def rwlOffsets (rows : List RegRow) : List Nat :=
  ((rows.filter (fun r => r.ty == .rwl)).flatMap (fun r =>
    (List.range r.n1).flatMap (fun i => (List.range r.n2).map (fun k => r.base + i * r.s1 + k * r.s2)))).foldr insNat []

/-- The registers of PAIR_CRC: SYS_FRAME_CFG, and the RWL registers of LPE, HRW, FUR_RINGr_CFG, GRN_CLOSE_CFG and PRT. -/
def pairRegs : List Nat :=
  rSYS_FRAME_CFG :: rwlOffsets (regBlock 0x00600000) ++ rwlOffsets (regBlock 0x00700000) ++
  (List.range 64).map (fun r => rFUR_RING_CFG r) ++ [rGRN_CLOSE_CFG] ++ rwlOffsets (regBlock 0x00D00000)

def pairCrc (s : State) : U32 := crc32c (pairRegs.flatMap (fun r => leBytes 4 (rg s r).toNat))

/-- HELLO goes out while a port is in TRAIN or UP. -/
def helloSend (s : State) : State :=
  if !stkTxOn s || (List.range 2).all (fun p => (sport s p).st == 0) then s
  else stkPut 1 (epochNow s) (helloWords s (pairCrc s)) { s with stk := { s.stk with crcOn := true } }

/-! ### Readiness (R500) -/

/-- NR_CAUSE [23:16] of R510. -/
def nrCause (s : State) : Nat :=
  bitsOf 8 (fun i => match i with
    | 0 => !(s.sys.setupDone && s.prt.hbOn)
    | 1 => !s.sys.refclkOk
    | 2 => !(s.sys.pllLock && (List.range 2).any (fun p => (sport s p).clk))
    | 3 => pairCrc s != s.stk.partnerCrc
    | 4 => (List.range 2).any (fun p => cabled s p && (sport s p).st != 2)
    | 5 => !replCurrent s
    | 6 => s.stk.mirrorGap
    | _ => s.stk.rings.any (fun q => decide (q.2.st = 4 ∨ q.2.st = 5) && !((ring s q.1).aLock || (ring s q.1).bLock)))

/-- READY of a shadow; 0 in any other role. [DESIGN CHOICE: notes/assumptions/36] -/
def readyOf (s : State) : Nat :=
  if s.stk.role ≠ 1 then 0
  else
    let c := nrCause s
    if c = 0 then 2 else if c % 16 = 0 && !(upPorts s).isEmpty then 1 else 0

/-- READY follows its conditions. -/
def readyStep (s : State) : State :=
  let r := readyOf s
  if s.stk.ready = r then s
  else snareSig (now s) 13 1 r (setEvt { s with stk := { s.stk with ready := r } } rSTK_EVT (bitv 5))

/-! ### Completions that wait for an ACK (R499) -/

/-- The completion of a replicated command is written, with NOT_REPL where the shadow did not confirm it. -/
def ackRelease (notRepl : Bool) (w : AckWait) (s : State) : State := cplOut { w.cpl with notRepl := w.cpl.notRepl || notRepl } s

/-- The partner's READY; below 2 every waiting completion is written at once with NOT_REPL. -/
def partnerReadyIs (r : Nat) (s : State) : State :=
  if s.stk.partnerReady = r then s
  else
    let was := s.stk.partnerReady
    let s := setEvt { s with stk := { s.stk with partnerReady := r } } rSTK_EVT (bitv 5)
    let s := if was = 2 ∧ s.stk.role = 2 then report s (srcBlk 11 0) 0x02C4 else s
    if r = 2 then s
    else s.stk.waits.foldl (fun s w => ackRelease true w s) { s with stk := { s.stk with waits := [] } }

/-! ### Following the partner's trips (R495) -/

/-- TRIP_LIVE of the latest DECISION of a partner; a change trips channels or lets their hold start. -/
def followIs (m : U8) (s : State) : State :=
  if s.stk.follow = m then s
  else
    let new := m &&& ~~~s.stk.follow
    let s := { s with stk := { s.stk with follow := m } }
    let s := if new = 0 then s else setEvt s rSTK_EVT (bitv 8)
    prtSync (holdStart ((idxs 8 (bit new)).foldl (fun s n => tripChan 0 n s) s))

/-! ### Takeover (R177, R501 to R503) -/

/-- The replica as an image (R177): until the first own commit, the loops and Harrow read it. A cell's age counts from the frame of its
own record, as the epoch of the station set does from its frame.
[DEDUCED: notes/assumptions/34] -/
def replicaImage (s : State) : Image :=
  let r := s.grn.repl
  let pt (p : Nat) : U32 := tget 0 r.station (p - 0x100000)
  let f (p : Nat) (i : Nat) : U32 := pt (p + i)
  let k := r.epoch
  let cell (c : Nat) (w : U32) (n : Nat) : CellImg :=
    let rep := fld w 17 16
    let age := fld w 31 24
    { report := rep, retired := bit w 18, arm := armOf s c, group := (match armOf s c with | some a => (armMap s a).group | none => 0),
      vcap := fld w 15 0, lastLive := if age = 255 then none else some (k + n - r.stn.getD n - age) }
  let loop (l : Nat) : Loop :=
    let b := 0x100400 + 16 * l
    let st := f b 8
    { enabled := bit st 0, starting := bit st 0, out := f b 0, fb := f b 1, spAct := f b 2, tgt := f b 3, err := f b 4,
      integ := f b 5, gen := BitVec.ofNat 16 (fld (f b 6) 15 0), left := fld (f b 6) 20 16, genPt := f b 6, inAge := fld (f b 7) 15 0,
      sample := (f b 9).toNat }
  { k := k, tick := join64 (pt 0x100002) (pt 0x100003), cells := r.cells.foldl (fun t p => tset {} t p.1 (cell p.1 (u32 p.2.1) p.2.2)) [],
    arms := (List.range 12).foldl (fun t a => if bit (pt (0x100100 + 64 * a)) 0 then
      tset [] t a ((List.range 17).map (f (0x100100 + 64 * a))) else t) [],
    loops := (List.range 128).foldl (fun t l => tset {} t l (loop l)) [],
    fw := r.fw }

/-- The master's last committed epoch, from the COMMIT_LSB it announced: the newest that agrees. -/
def masterCommit (s : State) : Nat :=
  let lsb := (List.range 2).foldl (fun a p => if (sport s p).peerRole = 2 then (sport s p).peerCommit else a) 0
  let e := epochNow s
  e - (e + 256 - lsb) % 256

/-- Rings as the RING mirror has them, carried on without training: the 16 epochs of R209 do not apply. -/
def takeRings (fs : Nat) (s : State) : State :=
  s.stk.rings.foldl (fun s q =>
    let m := q.2
    if m.st = 4 ∨ m.st = 5 then
      let x := ring s q.1
      let v := { x with st := m.st, n := m.n, first := fs - 16, loopA := if bit m.wrap 16 then some (fld m.wrap 7 0) else none,
                        loopB := if bit m.wrap 17 then some (fld m.wrap 15 8) else none, island := bit m.wrap 18,
                        gxA := bit m.wrap 19 && !x.bLock, gxB := bit m.wrap 19 && !x.aLock, wrapped := decide (m.st = 5),
                        loopTick := if m.st = 5 then some 0 else none, ticks := if m.st = 5 then [(0, 0)] else [] }
      let idle := List.replicate 16 (ctl 0x55)
      setTx q.1 (txPair v (idleBlock :: idle) (idleBlock :: idle)) (snareSig (now s) 3 q.1 m.st (setRing s q.1 v))
    else s) s

/-- Epochs that neither device committed are counted missed (R177). [DESIGN CHOICE: notes/assumptions/35] -/
def takeMissed (fs : Nat) (s : State) : State :=
  let lost := fs - 1 - (masterCommit s + 1)
  if lost = 0 then s
  else
    let s := { s with grn := { s.grn with missPrev := true, missCnt := s.grn.missCnt + lost, missLast := u64 (fs - 2) } }
    let s := setEvt (count (count s rGRN_MISS_CNT lost) (rSYS_YIELD_CNT 2) lost) rGRN_EVT (bitv 0)
    (List.range lost).foldl (fun s i => jnlPut 7 [u64 (masterCommit s + 1 + i)] s) (report s (srcBlk 9 0) 0x0240)

/-- The takeover starts at t_d (R502): role TAKING, the follow term dropped, the rings idle and unlooped, Harrow and the loops on the
mirror and the replica, and effects that can no longer be reached move (R506). -/
def takeover (s : State) : State :=
  let fs := (now s - hStart s + lTicks s - 1) / lTicks s + 1
  let s := setRole 3 s
  let img := replicaImage s
  let s := { s with
    stk := { s.stk with takeS := some fs, taken := true, first := true, ready := 0, unloopEnd := now s + 220 },
    grn := { s.grn with commit := img, next := some (fs - 1) },
    lpe := { s.lpe with loops := img.loops },
    hrw := { s.hrw with cells := s.stk.mirror } }
  let s := takeMissed fs s
  let s := takeRings fs s
  let s := (idxs 12 (armMapped s)).foldl (fun s a =>
    let v := armRef s a
    let la7 := decide (fld ((tget [] img.arms a).getD 0 0) 7 4 = 7) && decide (laCfg s < 7)
    let s := setHArm s a { harm s a with refA := v, refB := v, refJ := v, setN := none }
    if la7 then { s with cmd := { s.cmd with la := tset {} s.cmd.la a { up := some 0 } } } else s) s
  let s := (idxs 12 (armMapped s)).foldl (fun s a => let h := harm s a
    setHArm s a { h with handed := !lineAt (group s (armMap s a).group).line (fs + laMax s [a] fs - 1),
                         car := { h.car with bld := h.car.rt, zeros := [], ranks := [], times := [⟨0, h.car.rt.dead, h.car.rt.minPulse⟩] } }) s
  let s := (s.cmd.pend.filter (fun e => e.ended.isNone && !e.applied)).foldl (fun s e =>
    let arms := idxs 12 (fun a => effTouches s a e)
    let e1 := fs + laMax s arms fs
    if !arms.isEmpty && decide (e.epoch < e1) then moveEffect e1 s e else s) s
  let s := match s.stk.decNew with
    | some g => blockByDecision fs { s with fur := { s.fur with bgen := g } }
    | none => s
  let s := jnlPut 5 [u64 fs, s.tick] s
  report (setEvt (count s rSTK_TAKE_CNT) rSTK_EVT (bitv 4)) (srcBlk 11 0) 0x02C3

/-- Frame s: the rings run under the new master (R502). -/
def takeoverFrame (j : Nat) (s : State) : State :=
  if s.stk.role = 3 ∧ s.stk.takeS = some j then
    let s := setRole 2 s
    snareSig (now s) 13 4 j { s with stk := { s.stk with takeS := none, takeEpoch := j } }
  else s

/-- Every cabled port is DOWN: the partner is lost (R495, R501, R502). -/
def partnerLost (s : State) : State :=
  if stkMode s ≠ 1 || s.stk.partnerLost || (List.range 2).any (fun p => cabled s p && (sport s p).st != 0) then s
  else
    let ready := s.stk.ready
    let s := followIs 0 { s with stk := { s.stk with partnerLost := true } }
    let s := partnerReadyIs 0 s
    if s.stk.role = 1 then
      let s := report (setEvt s rSTK_EVT (bitv 3)) (srcBlk 11 0) 0x02C2
      if 1 ≤ ready then takeover s else s
    else s

/-- Port `p` goes DOWN (R487). -/
def portDown (p : Nat) (s : State) : State :=
  let x := sport s p
  if x.st = 0 then s
  else
    let s := portState p 0 (setSport s p { x with watched := false, tickIn := none, peerReady := 0, trip := 0, permOn := 0, fell := true })
    readyStep (partnerLost (report (setEvt s rSTK_EVT (bitv 0)) (srcPort p) 0x02C0))

/-- Port `p` enters TRAIN where its clock is present and LANE_MIN lanes are live (R487); retired lanes are restored (R490). -/
def portTrain (p : Nat) (s : State) : State :=
  let x := sport s p
  if x.st = 0 && cabled s p && x.clk && decide (laneMin s ≤ liveLanes x) then
    let s := (List.range 16).foldl (fun s l => if bit x.retired l then bucketRestore 2 (16 * p + l) s else s) s
    helloSend (portState p 1 (setSport s p { x with retired := 0, errLanes := 0 }))
  else s

/-! ### Port events (R486, R487) -/

/-- A device of a chain that loses its UP clock is split from the chain's time (R493). -/
def timeSplits (p : Nat) (s : State) : Bool := (sport s p).clk && p == 0 && stkMode s == 2 && s.stk.id != 0

/-- The forwarded clock is absent for 32 ns. -/
def clockLoss (p : Nat) (s : State) : State :=
  let t := portDown p (setSport s p { sport s p with clk := false, live := 0 })
  if timeSplits p s then report (setEvt { t with stk := { t.stk with timeSplit := true } } rSTK_EVT (bitv 10)) (srcPort p) 0x02C6 else t
def execStkClockLoss (p : Fin 2) (s : State) : Host.Outcome State Fault Refusal := .next (snareEval (clockLoss p s))

/-- The forwarded clock is present again. -/
def clockReturn (p : Nat) (s : State) : State := portTrain p (setSport s p { sport s p with clk := true })
def execForwardedClockReturn (p : Fin 2) (s : State) : Host.Outcome State Fault Refusal := .next (snareEval (readyStep (clockReturn p s)))

/-- FSTART misses two consecutive frame boundaries; its supervision begins with the first one received. -/
def fstartMiss (p : Nat) (s : State) : State := if (sport s p).watched then portDown p s else s
def execFstartMiss (p : Fin 2) (s : State) : Host.Outcome State Fault Refusal := .next (snareEval (fstartMiss p s))

/-- A lane is no longer live (R486, R490). -/
def laneLoss (p l : Nat) (s : State) : State :=
  let x := sport s p
  let m := BitVec.ofNat 16 (2 ^ l)
  if !bit x.live l then s
  else
    let s := setSport s p { x with live := x.live &&& ~~~m, errLanes := x.errLanes ||| m }
    let s := report (count s (rSTK_PORT_ERR p)) (srcStkLane p l) 0x02C1
    if liveLanes (sport s p) < laneMin s then portDown p s else s
def execStkLaneLoss (p : Fin 2) (l : Fin 16) (s : State) : Host.Outcome State Fault Refusal := .next (snareEval (laneLoss p l s))

/-- A lane gains block lock and is deskewed on ALIGN, which names the peer's ID; `skew` in UI. -/
def laneLive (p l id skew : Nat) (s : State) : State :=
  let x := sport s p
  if bit x.retired l && x.st != 0 then s
  else if 64 < skew then s
  else portTrain p (setSport s p { x with live := x.live ||| BitVec.ofNat 16 (2 ^ l), peerId := id, skew := max x.skew skew })
def execStkLaneLive (p : Fin 2) (l : Fin 16) (id : BitVec 3) (skew : U8) (s : State) : Host.Outcome State Fault Refusal :=
  .next (snareEval (readyStep (laneLive p l id.toNat skew.toNat s)))

/-- A write of STK_RETRAIN (R506, R509): a port passes through TRAIN, unless no port would be left UP in a pair. -/
def stkRetrain (v : U32) (s : State) : State :=
  let hit := (upPorts s).filter (fun p => bit v p)
  if stkMode s = 1 && ((upPorts s).filter (fun p => !bit v p)).isEmpty then s
  else hit.foldl (fun s p =>
    let x := sport s p
    let s := (List.range 16).foldl (fun s l => if bit x.retired l then bucketRestore 2 (16 * p + l) s else s) s
    helloSend (portState p 1 (setSport s p { x with retired := 0, errLanes := 0 }))) s
def execStkRetrainWrite (bus : Bus) (v : U32) (s : State) : Host.Outcome State Fault Refusal :=
  match guardWrite s bus rSTK_RETRAIN v (stkRetrain v) with
  | .next t => .next (snareEval (readyStep t))
  | o => o

/-! ### Delay and tick (R492) -/

/-- A DLY_REQ is answered after `turn`, in 1/16 ns. -/
def execDlyReqReceive (p : Fin 2) (sq : U8) (turn : BitVec 24) (s : State) : Host.Outcome State Fault Refusal :=
  .next (if (sport s p).st = 0 then s
    else setSport s p { sport s p with reply := some (ctl (0x8E + sq.toNat * 2 ^ 8 + turn.toNat * 2 ^ 16)) })

/-- A DLY_RESP gives d = (round trip − TURN) ÷ 2, in 1/16 ns. -/
def execDlyRespReceive (p : Fin 2) (rtt turn : BitVec 24) (s : State) : Host.Outcome State Fault Refusal :=
  .next (if (sport s p).st = 0 then s else setSport s p { sport s p with dly := (rtt.toNat - turn.toNat) / 2 })

/-- Does the device take its clock from the stack: a shadow, and a widened chain's device on its UP port (R491). -/
def takesClock (s : State) (p : Nat) : Bool :=
  (decide (stkMode s = 1) && decide (s.stk.role = 1)) || (decide (stkMode s = 2) && s.stk.id != 0 && decide (p = 0))

/-- The tick counter is set once, at the first port UP, to the received TICK plus d.
[DEDUCED: notes/assumptions/34] -/
def tickSet (p : Nat) (s : State) : State :=
  let x := sport s p
  match x.tickIn with
  | some (v, at_) =>
    if !s.stk.tickSet && takesClock s p && decide (x.st = 2) && !s.sys.running then
      { s with tick := u64 (v + x.dly * 5 / 256 + (now s - at_)), stk := { s.stk with tickSet := true } }
    else s
  | none => s

/-! ### Roles (R491, R504, R505) -/

/-- An EFFECT message goes out for a pending effect; its SEQ is then awaited (R489, R499). -/
def effectSend (e : Eff) (s : State) : State :=
  if (upPorts s).isEmpty then s
  else
    let n := tget 0 s.stk.outSeq 4
    let s := stkSend 4 e.epoch (u64 e.epoch :: wordsOf e.bytes) s
    { s with cmd := { s.cmd with pend := s.cmd.pend.map (fun x =>
        if x.id.ord = e.id.ord then { x with ack := some n, sent := epochNow s, notRepl := false } else x) } }

/-- A partner that has become a shadow gets a full HARROW set, every RING state and each pending EFFECT (R504). -/
def resync (s : State) : State :=
  let s := { s with stk := { s.stk with mirror := [], rings := [] } }
  s.cmd.pend.foldl (fun s e => if !e.bytes.isEmpty && e.ended.isNone && !e.applied then effectSend e s else s) s

/-- What FSTART announces decides the role (R491, R505). -/
def roleStep (p : Nat) (s : State) : State :=
  let x := sport s p
  if stkMode s ≠ 1 || x.st ≠ 2 || 2 ≤ s.stk.id then s
  else if s.stk.role = 0 && decide (x.peerRole = 2) then toShadow s
  else if s.stk.role = 2 && decide (x.peerRole = 2) && decide (s.stk.id = 1) then toShadow s
  else s

/-- The records of a HARROW message enter the mirror; a full set replaces it and ends a gap (R500). -/
def mirrorApply (m : MirrorMsg) (s : State) : State :=
  let put (t : Tbl HCell) (r : HarrowRec) : Tbl HCell :=
    let last := r.last.map (·.toNat)
    if r.arm then (armCells s (r.cell % 16)).foldl (fun t c => tset {} t c { tget {} t c with endSt := r.endSt, last := last }) t
    else tset {} t r.cell { endSt := r.endSt, last := last, held := r.held.toNat, heldAt := r.heldAt.map (·.toNat),
                            admitted := r.admitted, wait := r.wait.toNat }
  { s with stk := { s.stk with mirror := m.recs.foldl put (if m.full then [] else s.stk.mirror),
                               mirrorGap := s.stk.mirrorGap && !m.full } }

/-- FSTART arrives (R485, R487, R492, R496, R500). -/
def fstartReceive (p tick role ready commit : Nat) (s : State) : State :=
  let x := sport s p
  if x.st = 0 then s
  else
    let was := x.peerRole
    let moved := x.watched && decide (x.peerCommit ≠ commit)
    let s := setSport s p { x with watched := true, peerRole := role, peerReady := ready, peerCommit := commit,
                                   tickIn := some (tick, now s) }
    let s := tickSet p (roleStep p s)
    let s := if x.st = 2 && decide (stkMode s = 1) then
        let s := partnerReadyIs ready { s with stk := { s.stk with partnerLost := false } }
        if role = 1 ∧ was ≠ 1 ∧ s.stk.role = 2 then resync s else s
      else s
    let s := if s.stk.role = 1 && moved then safetyEval s else s
    let s := if s.stk.role = 1 then s.stk.mirrorQ.foldl (fun s m => mirrorApply m s) { s with stk := { s.stk with mirrorQ := [] } } else s
    readyStep s

def execFstartReceive (p : Fin 2) (tick : BitVec 40) (role ready : BitVec 2) (commit : U8) (s : State) :
    Host.Outcome State Fault Refusal := .next (snareEval (fstartReceive p tick.toNat role.toNat ready.toNat commit.toNat s))

/-- A DECISION arrives (R485, R493, R495): its trips are followed, and a NEW one is a decision here, or is forwarded.
[DEDUCED: notes/assumptions/32] -/
def decisionReceive (p : Nat) (bgen trip perm : U8) (new : Bool) (s : State) : State :=
  let x := sport s p
  if x.st ≠ 2 then s
  else
    let s := setSport s p { x with trip := trip, permOn := perm }
    if stkMode s = 1 then
      let s := if s.stk.partnerLost then s else followIs trip s
      if !new then s
      else if drives s then prtSync (protDecide s)
      else { s with stk := { s.stk with decNew := some bgen } }
    else if stkMode s = 2 && new && bit (rg s rSTK_CFG) 3 then
      let s := prtSync (protDecide s)
      decisionOut (ctl (0x33 + bgen.toNat * 2 ^ 8 + trip.toNat * 2 ^ 16 + perm.toNat * 2 ^ 24 + 2 ^ 32)) (some (1 - p)) s
    else s

def execDecisionReceive (p : Fin 2) (bgen trip perm : U8) (new : Bool) (s : State) : Host.Outcome State Fault Refusal :=
  .next (snareEval (decisionReceive p bgen trip perm new s))

/-- What HELLO tells is kept: its SEQ, PAIR_CRC and the lanes on which the partner receives (R490, R500). -/
def helloNote (p sq : Nat) (crc : U32) (lanes : U16) (s : State) : State :=
  let s := (firstCopy p 1 sq s).2
  let s := setSport s p { sport s p with txLive := lanes }
  { s with stk := { s.stk with partnerCrc := crc } }

/-- HELLO arrives (R487, R490): equal configurations and distinct IDs bring the port UP; the partner receives on `lanes`. -/
def helloReceive (p sq : Nat) (frameCfg : U32) (mode id : Nat) (crc : U32) (lanes : U16) (s : State) : State :=
  let x := sport s p
  if x.st = 0 then s
  else
    let s := helloNote p sq crc lanes s
    if frameCfg ≠ rg s rSYS_FRAME_CFG || mode ≠ stkMode s then
      report (setEvt (setSport s p { sport s p with mismatch := true }) rSTK_EVT (bitv 6)) (srcPort p) 0x02C5
    else if id = s.stk.id then setEvt { s with stk := { s.stk with idConflict := true } } rSTK_EVT (bitv 7)
    else if x.st = 1 then
      let s := helloSend (setEvt (portState p 2 s) rSTK_EVT (bitv 1))
      let s := { s with stk := { s.stk with crcOn := true, upAt := some (s.stk.upAt.getD (now s)), partnerLost := false } }
      readyStep (tickSet p (roleStep p s))
    else readyStep s

def execHelloReceive (p : Fin 2) (sq : U8) (frameCfg : U32) (mode : BitVec 2) (id : BitVec 3) (crc : U32) (lanes : U16) (s : State) :
    Host.Outcome State Fault Refusal := .next (snareEval (helloReceive p sq.toNat frameCfg mode.toNat id.toNat crc lanes s))

/-- 1 ms after the first port came UP with no MASTER announced, ID 0 becomes MASTER; a millisecond is 312,500 ticks. -/
def roleMasterTimer (s : State) : State :=
  match s.stk.upAt with
  | some t =>
    if stkMode s = 1 && decide (s.stk.id = 0) && decide (s.stk.role = 0) && !(upPorts s).any (fun p => (sport s p).peerRole == 2) then
      setRole 2 (advanceTo s (t + 312500))
    else s
  | none => s
def execRoleMasterTimer (s : State) : Host.Outcome State Fault Refusal := .next (snareEval (roleMasterTimer s))

/-- No port came UP within BOOT_WAIT, for ID 1 twice BOOT_WAIT. -/
def bootWaitExpire (s : State) : State :=
  if stkMode s = 1 && decide (s.stk.id ≤ 1) && decide (s.stk.role = 0) && s.stk.upAt.isNone then
    setRole 2 { s with stk := { s.stk with tickSet := true } }
  else s
def execBootWaitExpire (s : State) : Host.Outcome State Fault Refusal := .next (snareEval (bootWaitExpire s))

/-- May START be accepted as far as the tick is concerned (R492). -/
def tickReady (s : State) : Bool :=
  s.stk.tickSet || !((stkMode s == 1 && s.stk.role == 1) || (stkMode s == 2 && s.stk.id != 0))

/-! ### At a frame boundary (R175, R176, R485, R489, R490, R498) -/

/-- The bucket of each receive lane of a port that is UP. -/
def laneBuckets (p : Nat) (s : State) : State :=
  if (sport s p).st ≠ 2 then s
  else
    let errs := (sport s p).errLanes
    let s := setSport s p { sport s p with errLanes := 0 }
    (idxs 16 (fun l => bit (sport s p).live l || bit errs l)).foldl (fun s l =>
      let q := bucketFrame 2 (16 * p + l) (bit errs l) s
      if q.1 then
        let x := sport q.2 p
        let m := BitVec.ofNat 16 (2 ^ l)
        let s := setSport q.2 p { x with retired := x.retired ||| m, live := x.live &&& ~~~m }
        let s := retireElement (srcStkLane p l) (setEvt s rSTK_EVT (bitv 2))
        if liveLanes (sport s p) < laneMin s then portDown p s else s
      else q.2) s

/-- The payload bytes that REPL_SHARE leaves replication in a frame (R484, R498): a lane carries 8 bytes per 4.125 ticks.
[DEDUCED: notes/assumptions/34] -/
def replBytes (s : State) : Nat :=
  let lanes := (upPorts s).foldl (fun m p => max m (popcount 16 (sport s p).txLive.toNat)) 0
  let share := max 25 (min 100 (fld (rg s rSTK_CFG) 22 16))
  lanes * 8 * (lTicks s * 8 / 33) * share / 100

/-- A cell record (R175). -/
def cellRecord (s : State) (c : Nat) : U32 :=
  let x := cellImg s c
  pack [(0, if x.report = 0 then x.vcap else 0), (16, x.report), (18, b2n x.retired), (24, cellAge s.grn.commit.k x)]

/-- STATION at a control-period boundary and CELLS in every frame (R175, R498). -/
def replicate (j : Nat) (s : State) : State :=
  let cfg := rg s rGRN_REPL_CFG
  if !(bit cfg 0 && decide (s.stk.role = 2) && decide (stkMode s = 1)) || (upPorts s).isEmpty then s
  else
    let fw := 512 * min 16 (fld cfg 20 16)
    let img := s.grn.commit
    let boundary := decide (j % pFrames s = 0)
    let pts := stationPoints img ++ (List.range fw).map (fun i => pointRead img (0x102000 + i))
    let s := if boundary then stkSend 2 j (pairWords pts) s else s
    let room := (replBytes s - (if boundary then 4 * pts.length else 0)) / 4
    let want := 2 ^ sweepLog2 s
    let n := min want room
    let first := s.grn.sweep
    let s := if n = 0 then s
      else stkSend 3 j (u64 first :: pairWords ((List.range n).map (fun i => cellRecord s ((first + i) % 16384)))) s
    let s := { s with grn := { s.grn with sweep := (first + n) % 16384 } }
    if n < want then yieldCount s 6 else s

/-- The 8 bytes of a Harrow record in a HARROW message; `c` is a cell, or an arm in an arm entry.
[DESIGN CHOICE: notes/assumptions/35] -/
def harrowWord (arm : Bool) (c : Nat) (h : HCell) : U64 :=
  u64 (c + h.endSt * 2 ^ 14 + h.wait % 16 * 2 ^ 17 + b2n h.admitted * 2 ^ 21 + h.held % 2 ^ 16 * 2 ^ 22 +
    (h.heldAt.getD 0) % 256 * 2 ^ 38 + (h.last.getD 0) % 2 ^ 17 * 2 ^ 46 + b2n arm * 2 ^ 63)

/-- The part of a cell's record that R246 names. -/
def harrowRec (h : HCell) : HCell :=
  { endSt := h.endSt, last := h.last, held := h.held, heldAt := h.heldAt, admitted := h.admitted, wait := h.wait }

/-- Every cell of arm `a` has changed in END and LAST alone, and to the same: an arm-wide change. -/
def armWide (old new : Tbl HCell) (cs : List Nat) : Bool :=
  match cs with
  | [] => false
  | c :: _ =>
    let h := tget {} new c
    cs.all (fun d => let x := tget {} old d
      tget {} new d != x && tget {} new d == { x with endSt := h.endSt, last := h.last })

/-- HARROW and RING messages: what differs from what was sent before (R489).
[DESIGN CHOICE: notes/assumptions/35] -/
def mirrorSend (j : Nat) (s : State) : State :=
  if !(decide (s.stk.role = 2) && decide (stkMode s = 1)) || (upPorts s).isEmpty then s
  else
    let cells := tmap {} s.hrw.cells (fun _ h => harrowRec h)
    let wide := idxs 12 (fun a => armWide s.stk.mirror cells (armCells s a))
    let diff := (cells.filter (fun p => tget {} s.stk.mirror p.1 ≠ p.2) ++
      (s.stk.mirror.filter (fun p => !cells.any (fun q => q.1 == p.1))).map (fun p => (p.1, ({} : HCell)))).filter
      (fun p => !wide.any (fun a => armOf s p.1 == some a))
    let words := wide.map (fun a => harrowWord true a (tget {} cells ((armCells s a).headD 0))) ++ diff.map (fun p => harrowWord false p.1 p.2)
    let s := if words.isEmpty then s else stkSend 6 j (u64 (b2n s.stk.mirror.isEmpty) :: words) s
    let mirrorOf (x : Ring) : RingMirror :=
      { st := x.st, n := x.n, wrap := pack [(0, x.loopA.getD 0), (8, x.loopB.getD 0), (16, b2n x.loopA.isSome), (17, b2n x.loopB.isSome),
                                            (18, b2n x.island), (19, b2n (x.gxA || x.gxB))] }
    let s := (List.range 64).foldl (fun s r =>
      let m := mirrorOf (ring s r)
      if tget {} s.stk.rings r = m then s
      else stkSend 7 j [u64 (r + m.st * 2 ^ 8 + m.n * 2 ^ 16 + m.wrap.toNat * 2 ^ 32)]
        { s with stk := { s.stk with rings := tset {} s.stk.rings r m } }) s
    { s with stk := { s.stk with mirror := cells } }

/-- A replica that becomes LAGGING (R176), judged at each boundary of the shadow. -/
def replStep (s : State) : State :=
  if s.stk.role ≠ 1 then s
  else
    let lag := !replCurrent s
    let s := if lag && !s.grn.repl.lagging then setEvt s rGRN_EVT (bitv 7) else s
    { s with grn := { s.grn with repl := { s.grn.repl with lagging := lag } } }

/-- Ticks between ALIGN blocks: 4,096 blocks of 4.125 ticks (R485). -/
def alignTicks : Nat := 16896

/-- The ALIGN block of lane `l` (R485). -/
def alignBlock (s : State) (l : Nat) : Block := ctl (0x4B + l * 2 ^ 8 + s.stk.id * 2 ^ 16 + 0xC3C3C3C3C3 * 2 ^ 24)

/-- The control blocks of a frame: FSTART, DECISION and DLY_REQ at its boundary, and ALIGN on all lanes where its time comes (R485).
[DESIGN CHOICE: notes/assumptions/35] -/
def stkBlocks (s : State) : State :=
  if stkMode s = 0 || !stkTxOn s then s
  else
    let f := ctl (0x66 + now s % 2 ^ 40 * 2 ^ 8 + (s.stk.role + 4 * s.stk.ready) * 2 ^ 48 + s.grn.commit.k % 256 * 2 ^ 56)
    let n := (s.stk.dlySeq + 1) % 256
    let due := (now s - lTicks s) / alignTicks != now s / alignTicks
    { s with stk := { s.stk with fstart := f, decOut := decisionBlock s false, decTo := none, dlySeq := n, dlyReq := ctl (0x87 + n * 2 ^ 8),
                                 aligns := if due then (List.range 16).map (alignBlock s) else s.stk.aligns } }

/-- The stack at F_j. -/
def stkBoundary (j : Nat) (s : State) : State :=
  let s := stkBlocks (laneBuckets 1 (laneBuckets 0 s))
  let s := if j % 1024 = 0 then helloSend s else s
  readyStep (replStep (mirrorSend j (replicate j s)))

/-! ### Registers (R509, R510) -/

def stkRead (s : State) (off : Nat) : Option U32 :=
  if off = rSTK_STAT then
    some (pack [(0, s.stk.role), (2, s.stk.ready), (4, s.stk.partnerReady), (6, b2n s.stk.partnerLost),
                (7, b2n (pairCrc s == s.stk.partnerCrc)), (8, s.stk.id),
                (11, b2n (s.stk.idConflict || (stkMode s == 1 && decide (2 ≤ s.stk.id)))),
                (16, if s.stk.role = 1 then nrCause s else 0)])
  else if off = rSTK_PAIR_CRC then some (if s.stk.crcOn then pairCrc s else 0)
  else if off = rSTK_PARTNER_CRC then some s.stk.partnerCrc
  else if off = rSTK_PFOLLOW then some (u32 s.stk.follow.toNat)
  else if off = rSTK_TAKE_EPOCH_LO then some (u32 s.stk.takeEpoch)
  else if 0x00B00100 ≤ off ∧ off < 0x00B00140 then
    let x := sport s ((off - 0x00B00100) / 0x20)
    match off % 0x20 with
    | 0x00 => some (pack [(0, x.st), (2, b2n x.clk), (3, liveLanes x), (8, x.peerId), (11, x.peerRole)])
    | 0x04 => some (u32 (min 0xFFFF x.dly))
    | 0x08 => some (u32 (min 255 x.skew))
    | 0x0C => some (pack [(0, x.live.toNat), (16, x.retired.toNat)])
    | _ => none
  else none

end Sys2Proof.Machine
end

