-- ==== Sys2Proof/Machine/Commands.lean ====
section
/-! DEFINITION. The command catalogue: what each opcode checks at its commit instant, in the order of R121, what it decides there, what
its effect is in its epoch, and its completion (04_command_set.md; R307, R348, R471, R475, R497, R499). -/

namespace Sys2Proof.Machine

/-! ### Completions -/

/-- Does a completion DONE of this opcode make a COMMAND record (R180): effect class C, P or F, or an ADMIN command. -/
def journaled (op : Nat) : Bool := effClass op != .i || decide (0x0401 ≤ op)

/-- The completion of a command of a flow. [DEDUCED: notes/assumptions/20] -/
def flowCpl (id : CmdId) (op cls status epoch : Nat) (result : U32) (notRepl : Bool := false) (closes : Option U32 := none) : Cpl :=
  { mkCpl id op cls status epoch result with
    flow := some id.flow, ord := some id.ord, session := id.session, notRepl := notRepl, closes := closes,
    journal := decide (cls = cDone) && journaled op }

/-- A command is refused: nothing else changes (R119). -/
def cmdRefuse (id : CmdId) (op status : Nat) (s : State) : State := cplOut (flowCpl id op cRefused status 0 0) s

/-- A command completes DONE NO_CHANGE at its commit instant (R115). [DEDUCED: notes/assumptions/20] -/
def cmdNoChange (id : CmdId) (op : Nat) (result : U32) (s : State) : State := cplOut (flowCpl id op cDone stNoChange 0 result) s

/-! ### Effect epochs (R112, R113, R127) -/

/-- The arms that a class C command touches. -/
def touchedArms (s : State) (pl : Payload) : List Nat :=
  match pl with
  | .groupMask m => maskArms s m
  | .cells cs => cs.filterMap (armOf s)
  | .carrier a _ _ _ _ _ => if armMapped s a then [a] else []
  | _ => []

/-- E_min at tick `t` (R112). -/
def eMin (s : State) (op : Nat) (pl : Payload) (t : Nat) : Nat :=
  match effClass op with
  | .c => eMinC s (touchedArms s pl) t
  | .p => (t / (lTicks s * pFrames s) + 1) * pFrames s
  | .f => (t + hStart s) / lTicks s + 1
  | .i => 0

/-- The rules of R113: the refusal, or the effect epoch. -/
def epochOf (s : State) (op : Nat) (pl : Payload) (req : Nat) : Nat ⊕ Nat :=
  let m := eMin s op pl (now s)
  if req = 0 then .inr m
  else if req < m then .inl stEpochPast
  else if epochNow s + 2 ^ 24 < req then .inl stEpochFar
  else if effClass op = .p ∧ req % pFrames s ≠ 0 then .inl stEpochAlign
  else .inr req

/-- Does a command hold an entry of the pending-effect queue (R114): from its t_c until its effect has been applied in full, COEF_WRITE
until its last write, CARRIER_SET until its load, RING_CTL ENABLE and RETRAIN until the ring runs or has failed. -/
def holdsEntry (s : State) (e : Eff) : Bool :=
  e.entry && e.ended.isNone && (match e.payload with
    | .ringCtl _ 1 => !e.applied
    | .ringCtl _ _ => true
    | .groupMask _ | .cells _ => decide (epochNow s < e.epoch)
    | _ => !e.applied)

def entries (s : State) : Nat := (s.cmd.pend.filter (holdsEntry s)).length

/-! ### The checks of each opcode (step 3 of R121) -/

/-- What the checks against the device find: a refusal, nothing to change, or the command goes on. -/
inductive Verdict where
  | refuse (status : Nat)
  | noChange
  | go
  deriving DecidableEq, Repr

/-- Refuse where `c` holds, else go on with `v`. -/
def refuseIf (c : Bool) (status : Nat) (v : Verdict) : Verdict := if c then .refuse status else v

/-- Σ COUNT ÷ RATE_DIV over the regions, as a fraction (R169). -/
def snapLoad (cfg : Nat → SnapCfg) : Nat × Nat :=
  (List.range 16).foldl (fun x r =>
    let c := cfg r
    if c.rate = 0 then x else (x.1 * c.rate + (if r = 0 then 1064960 else c.count) * x.2, x.2 * c.rate)) (0, 1)

/-- SNAP_CFG (R124, R169): the limits by frame length, and the checks of the configuration that would result. -/
def snapCheck (s : State) (region rate first count : Nat) : Verdict :=
  let l := lTicks s
  let minRate := if l = 400 then 391 else if l = 800 then 196 else 98
  let budget := if l = 400 then 2752 else if l = 800 then 5504 else 11008
  let room := if l = 400 then 8192 else 16384
  let cfg (r : Nat) : SnapCfg := if r = region then { rate := rate, first := first, count := count } else tget {} s.grn.snaps r
  let load := snapLoad cfg
  let sum := (List.range 16).foldl (fun a r => if r = 0 ∨ (cfg r).rate = 0 then a else a + (cfg r).count) 0
  refuseIf (region == 0 && rate != 0 && decide (rate < minRate)) stBadPayload
    (refuseIf (decide (budget * load.2 < load.1) || decide (room < sum)) stBadPayload .go)

/-- SNARE_ARM (R125, R471, R474, R475). -/
def snareCheck (s : State) (action : Nat) : Verdict :=
  if action = 2 then
    (if s.snr.st = 0 || (s.snr.st == 3 && !bit (rg s rSNR_CFG) 1) then .noChange else .go)
  else
    refuseIf (s.snr.st == 3 || s.snr.st == 4) stBusy
      (refuseIf (action == 1 && decide ((rg s rSNR_DUMP_LEN).toNat < 16777280)) stBadPayload
        (refuseIf (action == 3 && !s.snr.known) stBadPayload .go))

/-- DEBLOCK (R129). -/
def deblockCheck (s : State) (mask : Nat) : Verdict :=
  let gs := idxs 4 mask.testBit
  refuseIf (gs.any (fun g => (groupArms s g).isEmpty)) stBadPayload
    (refuseIf (windowOpen s) stSetupOpen
      (refuseIf (faultActive s) stFaultActive
        (refuseIf ((List.range 8).any (chanOff s)) stPermitOff
          (refuseIf ((maskArms s mask).any (fun a => decide (liveCells s a [] < (armMap s a).nNeed))) stArmShort
            (if gs.all (groupDeblocked s) then .noChange else .go)))))

/-- MODE (R130). -/
def modeCheck (s : State) (g m : Nat) (on : BitVec 128) : Verdict :=
  refuseIf (m != 0xFF && (m == 1) != (group s g).carrier && !groupBlocked s g) stNotBlocked
    (refuseIf ((List.range 128).any (fun l => on.getLsbD l && (loop s l).drain)) stBusy .go)

/-- CELL_RETIRE (R132). [DEDUCED: notes/assumptions/21] -/
def retireCheck (s : State) (cs : List Nat) : Verdict :=
  refuseIf (cs.any (fun c => (armOf s c).isNone || retiredAt s c (epochNow s))) stCellState
    (refuseIf ((cs.filterMap (armOf s)).any (fun a =>
        !groupBlocked s (armMap s a).group && decide (liveCells s a cs < (armMap s a).nNeed))) stArmShort .go)

/-- CELL_RESTORE (R133). -/
def restoreCheck (s : State) (cs : List Nat) : Verdict :=
  refuseIf (cs.any (fun c => !retiredAt s c (epochNow s))) stCellState
    (refuseIf (cs.any (fun c => decide ((cellImg s c).streak < 16))) stCellDead .go)

/-- ARM_MAP (R134). -/
def armMapCheck (s : State) (a g : Nat) (rs : List (Nat × Nat)) : Verdict :=
  let old := armMap s a
  let total := rs.foldl (fun n r => n + r.2) 0
  refuseIf ((armMapped s a && !groupBlocked s old.group) || (!rs.isEmpty && !groupBlocked s g)) stNotBlocked
    (refuseIf ((List.range 12).any (fun b => b != a && rangesOverlap2 rs (armMap s b).ranges) ||
        decide (armCellMax s < total) || rs.any (fun r => decide (ringCells s < r.1 % 256 + r.2))) stBadPayload .go)
where
  /-- Do two lists of ranges share a cell. -/
  rangesOverlap2 (xs ys : List (Nat × Nat)) : Bool := xs.any (fun x => ys.any (rangesMeet x))

/-- COEF_WRITE (R135): one accepted counts as in progress also before its epoch. [DESIGN CHOICE: notes/assumptions/61] -/
def coefCheck (s : State) (l : Nat) : Verdict :=
  refuseIf (s.cmd.pend.any (fun e => e.op == 0x0304 && !e.applied && (match e.payload with | .coef m _ => m == l | _ => false))) stBusy .go

/-- CARRIER_SET (R136, R281, R292). -/
def carrierCheck (s : State) (a v en p : Nat) : Verdict :=
  let drains := (carOf s a).drain.isSome
  refuseIf (!(armMapped s a && (group s (armMap s a).group).carrier)) stModeWrong
    (refuseIf (v.testBit 0 && decide (p < 16 * lTicks s)) stBadPayload
      (refuseIf (v.testBit 3 && en == 1 && drains) stBusy (if v = 8 ∧ en = 0 ∧ drains then .noChange else .go)))

/-- RING_CTL (R138, R220): 1 DISABLE, 2 ENABLE, 3 RETRAIN. -/
def ringCheck (s : State) (r act : Nat) : Verdict :=
  let st := (ring s r).st
  let inUse := (List.range 12).any (fun a => armOnRing s a r && !groupBlocked s (armMap s a).group &&
    (armCells s a).any (fun c => cellRing c == r && !retiredAt s c (epochNow s)))
  refuseIf (act != 2 && inUse) stNotBlocked
    (refuseIf (act != 1 && (st == 6 || st == 1 || st == 2 || st == 3)) stBusy
      (if (act = 2 ∧ (st = 4 ∨ st = 5)) ∨ (act = 1 ∧ st = 0) then .noChange else .go))

/-- TIME_ACCEPT (R139). [DEDUCED: notes/assumptions/23] -/
def timeCheck (s : State) (step : Int) (tol : Nat) : Verdict :=
  match s.tim.stepPend with
  | none => .refuse stNoStep
  | some p => refuseIf s.tim.accepted stNoStep (refuseIf (decide (tol < (p - step).natAbs)) stStepMismatch .go)

/-- The checks against the device of a command of class C, P or F. A shadow refuses every one (R497).
[DEDUCED: notes/assumptions/21] -/
def stateCheck (s : State) (op : Nat) (pl : Payload) : Verdict :=
  if s.stk.role = 1 then .refuse stBusy
  else
    match pl with
    | .snapCfg r d f n => snapCheck s r d f n
    | .snareArm a _ _ _ _ => snareCheck s a
    | .setpoint es => refuseIf (es.any (fun e => !(loop s e.1).enabled)) stLoopOff .go
    | .groupMask m =>
      if op = 0x0202 then (if (idxs 4 m.testBit).all (groupBlocked s) then .noChange else .go) else deblockCheck s m
    | .mode g m on _ => modeCheck s g m on
    | .cells cs => if op = 0x0301 then retireCheck s cs else restoreCheck s cs
    | .armMap a g _ rs => armMapCheck s a g rs
    | .coef l _ => coefCheck s l
    | .carrier a v en p _ _ => carrierCheck s a v en p
    | .ringCtl r act => ringCheck s r act
    | .timeAccept step tol => timeCheck s step tol
    | _ => .go

/-! ### Acceptance -/

/-- The envelope bytes 0 to 223 of a command (R80, R489). -/
def envBytes (id : CmdId) (op : Nat) (p : Bytes) : Bytes :=
  [1, 0] ++ leBytes 2 op ++ leBytes 2 p.length ++ [BitVec.ofNat 8 id.flow, 0] ++ leBytes 8 id.seq.toNat ++ leBytes 4 id.session.toNat ++
    leBytes 4 0 ++ leBytes 8 id.epochReq ++ fit 192 p

/-- Is the command carried in an EFFECT message (R489). -/
def carried (op : Nat) : Bool := effClass op != .i && op != 0x0308 && op != 0x0104

/-- RESULT as the opcode entry defines it where it is known at the commit instant. -/
def resultOf (pl : Payload) : U32 := match pl with | .setpoint es => u32 es.length | _ => 0

/-- The payload with which a command waits: REARM takes the values of the last accepted ARM (R475). -/
def storedPayload (s : State) (pl : Payload) : Payload :=
  match pl with
  | .snareArm 3 _ _ _ _ =>
    let arms := s.cmd.pend.filter (fun e => match e.payload with | .snareArm 1 _ _ _ _ => true | _ => false)
    match arms.getLast?.map (·.payload) with
    | some (Payload.snareArm _ p g v m) => .snareArm 3 p g v m
    | _ => .snareArm 3 s.snr.pre s.snr.groups s.snr.tval s.snr.tmask
  | p => p

/-- Replace a pending effect. -/
def modEff (ord : Nat) (f : Eff → Eff) (s : State) : State :=
  { s with cmd := { s.cmd with pend := s.cmd.pend.map (fun e => if e.id.ord = ord then f e else e) } }

/-- The lanes of a ring that trains again leave their retirement behind (R392). -/
def ringRestore (r : Nat) (s : State) : State :=
  let s := [Lane.a, Lane.b].foldl (fun s l => bucketRestore 1 (2 * r + laneNo l) s) s
  setRing s r { ring s r with offA := false, offB := false }

/-- RING_CTL at its acceptance: ENABLE or RETRAIN of an OFF or FAILED ring starts training (R207, R220); a DISABLE that finds the ring
in DRAIN keeps it from training again, and waits for OFF (R220). A shadow has no ring of its own to act on (R497).
[DEDUCED: notes/assumptions/23] -/
def ringAccept (e : Eff) (r act : Nat) (s : State) : State :=
  let x := ring s r
  if s.stk.role = 1 then s
  else if act = 1 then
    if x.st = 6 then modEff e.id.ord (fun y => { y with applied := true, prog := 1 }) (setRing s r { x with retrain := false }) else s
  else if x.st = 0 ∨ x.st = 7 then modEff e.id.ord (fun y => { y with applied := true }) (startTrain r (ringRestore r s))
  else s

/-- What an accepted command decides at once: the lines of the groups, retirements, that a time step is accepted, and training.
[DEDUCED: notes/assumptions/21] -/
def decide1 (e : Eff) (s : State) : State :=
  match e.payload with
  | .groupMask m =>
    if e.op = 0x0203 then (idxs 4 m.testBit).foldl (fun s g => linePush g { e := e.epoch, ord := e.id.ord } s) s
    else
      let jB := e.epoch - e.la
      let s := cancelDeblocks (cancelled s m jB) stSuperseded e.epoch s
      (idxs 4 m.testBit).foldl (fun s g => linePush g { e := e.epoch, j := jB, on := true, ord := e.id.ord } s) s
  | .cells cs => cs.foldl (setTurn (e.op == 0x0301) e.epoch e.id.ord) s
  | .timeAccept _ _ => { s with tim := { s.tim with accepted := true } }
  | .snareArm 1 _ _ _ _ => { s with snr := { s.snr with known := true } }
  | .ringCtl r act => ringAccept e r act s
  | _ => s

/-- The pair confirms the effect: an EFFECT goes out, or the completion will carry NOT_REPL (R42, R499). -/
def replicateEff (e : Eff) (s : State) : State :=
  if carried e.op && decide (stkMode s = 1) && decide (s.stk.role = 2) then
    if (upPorts s).isEmpty then
      { s with cmd := { s.cmd with pend := s.cmd.pend.map (fun x => if x.id.ord = e.id.ord then { x with notRepl := true } else x) } }
    else effectSend e s
  else s

/-- An effect joins the pending effects, and decides what it decides at its commit instant.
[DESIGN CHOICE: notes/assumptions/36] -/
def enqueue (e : Eff) (s : State) : State :=
  replicateEff e (decide1 e { s with cmd := { s.cmd with pend := s.cmd.pend ++ [e] } })

/-- A command of class C, P or F is accepted with effect epoch `ep`. -/
def accept (id : CmdId) (op : Nat) (pl : Payload) (p : Bytes) (res : Option U32) (ep : Nat) (s : State) : State :=
  let t := now s
  let la := if op = 0x0202 then ep - blockFrame s t else 0
  enqueue { id := id, op := op, epoch := ep, payload := storedPayload s pl, entry := op != 0x0202, tc := t, la := la,
            bytes := if carried op then envBytes id op p else [], result := res.getD (resultOf pl), fixed := res.isSome } s

/-- BLOCK (R127): no queue entry, no EPOCH_REQ. -/
def blockEpoch (s : State) (mask : Nat) : Nat := blockFrame s (now s) + laMax s (maskArms s mask) (blockFrame s (now s))

/-- Steps 2 and 3 of R121, and acceptance. -/
def cmdTimed (id : CmdId) (op : Nat) (pl : Payload) (p : Bytes) (res : Option U32) (s : State) : State :=
  let go (ep : Nat) : State :=
    match stateCheck s op pl with
    | .refuse st => cmdRefuse id op st s
    | .noChange => cmdNoChange id op (res.getD (resultOf pl)) s
    | .go => accept id op pl p res ep s
  if op = 0x0202 then go (match pl with | .groupMask m => blockEpoch s m | _ => 0)
  else
    match epochOf s op pl id.epochReq with
    | .inl st => cmdRefuse id op st s
    | .inr ep => if 256 ≤ entries s then cmdRefuse id op stQueueFull s else go ep

/-! ### Class I (R122, R123, R140 to R146) -/

/-- A class I command is done (R115). -/
def cmdDone (id : CmdId) (op : Nat) (result : U32) (s : State) : State := cplOut (flowCpl id op cDone stOk 0 result) s

/-- Is the slot the only ACTIVE one with PRIV_CEIL ADMIN (R142). -/
def lastAdmin (s : State) (i : Nat) : Bool :=
  (keySlot s i).ceil == 3 && !(List.range 8).any (fun k => k != i && slotState (keySlot s k) == 1 && (keySlot s k).ceil == 3)

/-- KEY_TAG of a key (R83). -/
def keyTag (k : Bytes) : U32 := u32 (beNat (slice (sha384 k) 0 2))

/-- AKEY_INSTALL (R141). -/
def akeyInstall (id : CmdId) (res : Option U32) (i ceil : Nat) (key : Bytes) (s : State) : State :=
  let k := keySlot s i
  if slotState k = 1 ∨ slotState k = 3 then cmdRefuse id 0x0401 stSlotState s
  else if !p384On (keyPoint key) then cmdRefuse id 0x0401 stKeyInvalid s
  else cmdDone id 0x0401 (res.getD (keyTag key)) (setKeySlot s i { k with key := some key, ceil := ceil, gen := k.revCnt })

/-- AKEY_REVOKE (R84, R142). -/
def akeyRevoke (id : CmdId) (res : Option U32) (i : Nat) (s : State) : State :=
  let k := keySlot s i
  if slotState k ≠ 1 then cmdRefuse id 0x0402 stSlotState s
  else if lastAdmin s i then cmdRefuse id 0x0402 stLastAdminKey s
  else closeGranted i (cmdDone id 0x0402 (res.getD 0) (setKeySlot s i { k with revCnt := k.revCnt + 1 }))

/-- AKEY_REPLACE (R143). [DEDUCED: notes/assumptions/23] -/
def akeyReplace (id : CmdId) (res : Option U32) (i ceil : Nat) (key : Bytes) (s : State) : State :=
  let k := keySlot s i
  if slotState k ≠ 1 then cmdRefuse id 0x0403 stSlotState s
  else if k.revCnt = 15 then cmdRefuse id 0x0403 stSlotExhausted s
  else if !p384On (keyPoint key) then cmdRefuse id 0x0403 stKeyInvalid s
  else if decide (ceil < 3) && lastAdmin s i then cmdRefuse id 0x0403 stLastAdminKey s
  else
    let n := k.revCnt + 1
    closeGranted i (cmdDone id 0x0403 (res.getD 0) (setKeySlot s i { key := some key, ceil := ceil, gen := n, revCnt := n }))

/-- SETUP_REOPEN (R47, R145). -/
def setupReopen (id : CmdId) (res : Option U32) (s : State) : State :=
  if !convBlocked s then cmdRefuse id 0x0405 stNotBlocked s
  else cmdDone id 0x0405 (res.getD 0) (prtReopen { s with sys := { s.sys with setupDone := false, reopened := true } })

/-- SESSION_KILL (R146). -/
def sessionKill (id : CmdId) (res : Option U32) (sid : Nat) (s : State) : State :=
  match findSession s (u32 sid) with
  | none => cmdRefuse id 0x0406 stNoSession s
  | some (i, v) =>
    if sessExpired s v then cmdRefuse id 0x0406 stNoSession s
    else
      let s := cmdDone id 0x0406 (res.getD 0) s
      { s with aut := { s.aut with sess := tdel i s.aut.sess } }

/-- The class I commands with a catalogue payload. -/
def cmdImmediate (id : CmdId) (op : Nat) (pl : Payload) (res : Option U32) (s : State) : State :=
  match op, pl with
  | 0x0102, _ => cplOut (flowCpl id op cDone stOk 0 (res.getD 0) false (some id.session)) s
  | 0x0309, .timeCfg thr => cmdDone id op (res.getD 0) (wr s rTIM_STEP_THR (u32 thr))
  | 0x0401, .key i c k => akeyInstall id res i c k s
  | 0x0402, .slot i => akeyRevoke id res i s
  | 0x0403, .key i c k => akeyReplace id res i c k s
  | 0x0405, _ => setupReopen id res s
  | 0x0406, .session sid => sessionKill id res sid s
  | _, _ => cmdDone id op (res.getD (u32 (epochNow s))) s

/-! ### The commit of a command -/

/-- The command takes its place among the completions of its flow (R63), and Snare records its release (R463). -/
def flowEnter (id : CmdId) (op : Nat) (s : State) : State :=
  snareEvent (now s) 12 id.flow op { s with cmd := { s.cmd with flowQ := s.cmd.flowQ ++ [{ ord := id.ord, flow := id.flow }] } }

/-- A command commits with its payload bytes (R121); `res` is RESULT where the item's release gives it (R434). -/
def cmdRun (id : CmdId) (op : Nat) (p : Bytes) (res : Option U32) (s : State) : State :=
  let s := flowEnter id op s
  match parsePayload op p with
  | none => cmdRefuse id op stBadPayload s
  | some pl => if effClass op = .i then cmdImmediate id op pl res s else cmdTimed id op pl p res s

/-- The bank that an update of `target` writes: the inactive one; banks 0 and 1 are core A and B, 2 and 3 safety A and B. -/
def idleBank (s : State) (target : Nat) : Nat × Nat :=
  let st := rg s rSYS_BOOT_STAT
  if target = 1 then (if bit st 0 then (0, 1) else (1, 0)) else (if bit st 3 then (2, 3) else (3, 2))

def bank (s : State) (i : Nat) : Bank := tget {} s.std.banks i
def setBank (i : Nat) (b : Bank) (s : State) : State := { s with std := { s.std with banks := tset {} s.std.banks i b } }

/-- FW_UPDATE (R144): the envelope bytes; one update at a time. The inactive bank is marked invalid first (R538, R546). -/
def fwUpdate (id : CmdId) (env : Bytes) (s : State) : State :=
  let s := flowEnter id 0x0404 s
  if s.cmd.fw.isSome then cmdRefuse id 0x0404 stBusy s
  else
    let i := (idleBank s (rd env 35 1)).1
    setBank i { bank s i with mark := 0xFFFFFFFF } { s with cmd := { s.cmd with fw := some (id, fit 480 env) } }

/-- The identity of a command that commits on its own row: the life of its completion ring and the next place in verification order.
[DEDUCED: notes/assumptions/20] -/
def cmdIdOf (x : CmdSrc) (s : State) : CmdId :=
  { ring := x.ring, gen := (cplRing s x.ring).gen, slot := x.slot.toNat, seq := x.seq, session := x.session, flow := x.flow,
    epochReq := x.epochReq.toNat, ord := s.cmd.ord }

/-- A command of the catalogue commits now. -/
def cmdRow (x : CmdSrc) (op : Nat) (p : Bytes) (s : State) : State :=
  snareEval (cmdRun (cmdIdOf x s) op p none { s with cmd := { s.cmd with ord := s.cmd.ord + 1 } })

def execNop (x : CmdSrc) (p : Bytes) (s : State) : Host.Outcome State Fault Refusal := .next (cmdRow x 0x0101 p s)
def execSessionClose (x : CmdSrc) (p : Bytes) (s : State) : Host.Outcome State Fault Refusal := .next (cmdRow x 0x0102 p s)
def execSnapCfg (x : CmdSrc) (p : Bytes) (s : State) : Host.Outcome State Fault Refusal := .next (cmdRow x 0x0103 p s)
def execSnareArm (x : CmdSrc) (p : Bytes) (s : State) : Host.Outcome State Fault Refusal := .next (cmdRow x 0x0104 p s)
def execSetpoint (x : CmdSrc) (p : Bytes) (s : State) : Host.Outcome State Fault Refusal := .next (cmdRow x 0x0201 p s)
def execBlock (x : CmdSrc) (p : Bytes) (s : State) : Host.Outcome State Fault Refusal := .next (cmdRow x 0x0202 p s)
def execDeblock (x : CmdSrc) (p : Bytes) (s : State) : Host.Outcome State Fault Refusal := .next (cmdRow x 0x0203 p s)
def execMode (x : CmdSrc) (p : Bytes) (s : State) : Host.Outcome State Fault Refusal := .next (cmdRow x 0x0204 p s)
def execCellRetire (x : CmdSrc) (p : Bytes) (s : State) : Host.Outcome State Fault Refusal := .next (cmdRow x 0x0301 p s)
def execCellRestore (x : CmdSrc) (p : Bytes) (s : State) : Host.Outcome State Fault Refusal := .next (cmdRow x 0x0302 p s)
def execArmMap (x : CmdSrc) (p : Bytes) (s : State) : Host.Outcome State Fault Refusal := .next (cmdRow x 0x0303 p s)
def execCoefWrite (x : CmdSrc) (p : Bytes) (s : State) : Host.Outcome State Fault Refusal := .next (cmdRow x 0x0304 p s)
def execCarrierSet (x : CmdSrc) (p : Bytes) (s : State) : Host.Outcome State Fault Refusal := .next (cmdRow x 0x0305 p s)
def execCalSet (x : CmdSrc) (p : Bytes) (s : State) : Host.Outcome State Fault Refusal := .next (cmdRow x 0x0306 p s)
def execRingCtl (x : CmdSrc) (p : Bytes) (s : State) : Host.Outcome State Fault Refusal := .next (cmdRow x 0x0307 p s)
def execTimeAccept (x : CmdSrc) (p : Bytes) (s : State) : Host.Outcome State Fault Refusal := .next (cmdRow x 0x0308 p s)
def execTimeCfg (x : CmdSrc) (p : Bytes) (s : State) : Host.Outcome State Fault Refusal := .next (cmdRow x 0x0309 p s)
def execAkeyInstall (x : CmdSrc) (p : Bytes) (s : State) : Host.Outcome State Fault Refusal := .next (cmdRow x 0x0401 p s)
def execAkeyRevoke (x : CmdSrc) (p : Bytes) (s : State) : Host.Outcome State Fault Refusal := .next (cmdRow x 0x0402 p s)
def execAkeyReplace (x : CmdSrc) (p : Bytes) (s : State) : Host.Outcome State Fault Refusal := .next (cmdRow x 0x0403 p s)
def execSetupReopen (x : CmdSrc) (p : Bytes) (s : State) : Host.Outcome State Fault Refusal := .next (cmdRow x 0x0405 p s)
def execSessionKill (x : CmdSrc) (p : Bytes) (s : State) : Host.Outcome State Fault Refusal := .next (cmdRow x 0x0406 p s)

/-- `env` holds the envelope's bytes 0 to 479. -/
def execFwUpdate (x : CmdSrc) (env : Bytes) (s : State) : Host.Outcome State Fault Refusal :=
  .next (snareEval (fwUpdate (cmdIdOf x s) env { s with cmd := { s.cmd with ord := s.cmd.ord + 1 } }))

/-! ### The end of a firmware update (R144, R538) -/


/-- The update ends: `fetched` is the image that the reads returned, none where one failed; `stored` that the writes and the
read-back held. A failed update leaves the bank invalid. -/
def fwComplete (fetched : Option Bytes) (stored : Bool) (s : State) : State :=
  match s.cmd.fw with
  | none => s
  | some (id, env) =>
    let s := { s with cmd := { s.cmd with fw := none } }
    let (i, act) := idleBank s (rd env 35 1)
    let s := setBank i { bank s i with mark := 0xFFFFFFFF } s
    let fail (st : Nat) (s : State) : State := cplOut (flowCpl id 0x0404 cFailed st 0 0) s
    match fetched with
    | none => fail stFwFetch s
    | some img =>
      if sha384 (fit (rd env 36 4) img) ≠ slice env 56 48 then fail stFwHash s
      else if !stored then fail stFwStore s
      else
        let b := bank s i
        let s := setBank i { b with env := env, gen := ((bank s act).gen + 1) % 2 ^ 32, mark := 0x5A5AA5A5, image := fit (rd env 36 4) img } s
        cmdDone id 0x0404 0 s

def execFwUpdateComplete (fetched : Option Bytes) (stored : Bool) (s : State) : Host.Outcome State Fault Refusal :=
  .next (fwComplete fetched stored s)

/-! ### Effects (R115, R126, R130, R135, R137) -/

/-- MODE at the sample of epoch E: the modulation, and loops enabled and disabled (R320, R321). -/
def modeApply (g m : Nat) (on off : BitVec 128) (s : State) : State :=
  let s := if m = 0xFF then s else setGroup s g { group s g with carrier := m == 1 }
  (List.range 128).foldl (fun s l =>
    let x := loop s l
    if on.getLsbD l && !x.enabled then setLoop s l { x with enabled := true, starting := true, drain := false, fallback := 0 }
    else if off.getLsbD l && x.enabled then setLoop s l { x with enabled := false, starting := false, drain := true, fallback := 0 }
    else s) s

/-- The next write of a COEF_WRITE, at the sample of epoch `m` (R135, R313). -/
def coefApply (m : Nat) (e : Eff) (l : Nat) (ws : List (Nat × U32)) (s : State) : State :=
  match ws[e.prog]? with
  | none => s
  | some w =>
    let s := wr s (rLPE_LOOP_COEF l w.1) w.2
    let x := loop s l
    let left := ws.length - (e.prog + 1)
    let s := setLoop s l { x with gen := x.gen + 1, left := left }
    let last := left == 0
    let res := if e.fixed then e.result else pack [(0, (x.gen + 1).toNat), (16, ws.length)]
    modEff e.id.ord (fun y => { y with prog := y.prog + 1, applied := last, at_ := if last then some m else y.at_,
                                       result := if last then res else y.result }) s

/-- RING_CTL at F_E (R219, R220); a shadow has no ring of its own to act on (R497).
[DEDUCED: notes/assumptions/23] -/
def ringApply (e : Eff) (r act : Nat) (s : State) : State :=
  let x := ring s r
  if s.stk.role = 1 then modEff e.id.ord (fun y => { y with ended := some (cDone, stOk), at_ := some y.epoch }) s
  else if act = 1 then
    if ringRunning x then ringDrain r s
    else if x.st = 6 then ringAccept e r act s
    else if x.st = 0 then s
    else ringOff r s
  else
    let s := ringRestore r s
    let x := ring s r
    if x.st = 0 ∨ x.st = 7 then startTrain r s
    else if ringRunning x && act == 3 then setRing s r { x with next := some 6, retrain := true }
    else if ringRunning x then modEff e.id.ord (fun y => { y with ended := some (cDone, stOk), at_ := some y.epoch }) s
    else s

/-- An effect comes into force, for a frame or sample `m`; COEF_WRITE writes one coefficient.
[DEDUCED: notes/assumptions/22] -/
def effForce (m : Nat) (e : Eff) (s : State) : State :=
  let done (s : State) : State := modEff e.id.ord (fun y => { y with applied := true }) s
  match e.payload with
  | .snapCfg r d f n => done { s with grn := { s.grn with snaps := tset {} s.grn.snaps r { rate := d, first := f, count := n } } }
  | .snareArm a p g v k =>
    let set : State := if a = 1 ∨ a = 3 then { s with snr := { s.snr with pre := p, groups := g, tval := v, tmask := k } } else s
    let r := snareAction (e.epoch * lTicks s) a set
    modEff e.id.ord (fun y => { y with applied := true, ended := if r.2 then some (cDone, stNoChange) else none,
                                       at_ := if r.2 then some 0 else none }) r.1
  | .setpoint es => done (es.foldl (fun s q => wr s (rLPE_LOOP_SP q.1) q.2) s)
  | .mode g k on off => done (modeApply g k on off s)
  | .coef l ws => coefApply m e l ws s
  | .cal c g o => done (wr (wr s (rAFE_CH_GAIN c) g) (rAFE_CH_OFFSET c) o)
  | .armMap a g n rs =>
    let v : ArmMap := if rs.isEmpty then {} else { group := g, nNeed := n, ranges := rs }
    done { s with cmd := { s.cmd with arms := tset {} s.cmd.arms a v } }
  | .ringCtl r act => done (ringApply e r act s)
  | .timeAccept _ _ => done (stepApply (s.tim.stepPend.getD 0) s)
  | .cells cs =>
    let s := if e.op = 0x0302 then cs.foldl (fun s c => bucketRestore 0 c s) s else s
    done (jnlRetire e.epoch 0 cs (e.op == 0x0301) s)
  | .groupMask _ => done (if e.op = 0x0203 then { s with stk := { s.stk with decNew := none } } else s)
  | _ => s

/-- Insert by place in verification order (R116). -/
def effInsert (e : Eff) : List Eff → List Eff
  | [] => [e]
  | x :: xs => if e.id.ord < x.id.ord then e :: x :: xs else x :: effInsert e xs

def effSort (l : List Eff) : List Eff := l.foldr effInsert []

/-- The effects that `p` picks come into force at frame boundary `m`, in verification order. -/
def forceAll (m : Nat) (p : Eff → Bool) (s : State) : State :=
  (effSort (s.cmd.pend.filter (fun e => !e.applied && e.ended.isNone && decide (e.epoch ≤ m) && p e))).foldl (fun s e => effForce m e s) s

/-- What comes into force at F_m before the frame leaves and the loops sample (R24, R299): the effects of class F, then CAL_SET, the
MODE changes, the coefficient writes due at a sample, and the set-points. `sample` says that F_m is a control-period boundary.
[DEDUCED: notes/assumptions/22] -/
def boundaryEffects (m : Nat) (sample : Bool) (s : State) : State :=
  let s := forceAll m (fun e => effClass e.op == .f) s
  if !sample then s
  else
    let s := forceAll m (fun e => e.op == 0x0306) s
    let s := forceAll m (fun e => e.op == 0x0204) s
    let s := forceAll m (fun e => e.op == 0x0304) s
    forceAll m (fun e => e.op == 0x0201) s

/-! ### EFFECT_APPLY (R114, R115, R499) -/

/-- Does an effect in force still wait for its end: RING_CTL for its ring, CARRIER_SET for a zero, COEF_WRITE for its writes. -/
def effWaits (e : Eff) : Bool :=
  match e.payload with
  | .ringCtl _ act => e.applied && (act != 1 || e.prog == 1)
  | .carrier _ _ _ _ _ _ => true
  | .coef _ _ => !e.applied
  | _ => false

/-- May the completion of an effect be written in epoch `k`. [DEDUCED: notes/assumptions/22] -/
def effDue (k : Nat) (e : Eff) : Bool :=
  match e.ended with
  | some _ => decide (e.at_.getD e.epoch ≤ k)
  | none => decide (e.at_.getD e.epoch ≤ k) && decide (e.epoch ≤ k) && !effWaits e

/-- The completion of an effect: DONE with the epoch used, FAILED with E (R115, R117, R129).
[DEDUCED: notes/assumptions/20] -/
def effCpl (e : Eff) : Cpl :=
  match e.ended with
  | some (c, st) => flowCpl e.id e.op c st (if c = cDone then e.at_.getD e.epoch else e.epoch) (if c = cDone then e.result else 0) e.notRepl
  | none => flowCpl e.id e.op cDone (if e.moved then stMoved else stOk) (e.at_.getD e.epoch) e.result e.notRepl

/-- An effect is finished: its completion, which waits for an ACK in a pair (R499); on a shadow, a COMMAND record (R497). -/
def effFinish (e : Eff) (s : State) : State :=
  let s := { s with cmd := { s.cmd with pend := s.cmd.pend.filter (fun x => x.id.ord ≠ e.id.ord) } }
  let c := effCpl e
  if e.repl then (if c.cls = cDone then jnlCommand c.epoch e.id.seq e.op e.id.session none s else s)
  else
    match e.ack with
    | none => cplOut c s
    | some q =>
      if s.stk.partnerReady = 2 then
        yieldCount { s with stk := { s.stk with waits := s.stk.waits ++ [{ seqno := q, cpl := c, frame := e.sent }] } } 7
      else cplOut { c with notRepl := true } s

/-- The first pending effect whose epoch has come: it comes into force if it has not yet, and completes unless it waits.
[DEDUCED: notes/assumptions/22] -/
def effectApply (s : State) : State :=
  let k := epochNow s
  if !s.sys.running then s
  else
    let ready (e : Eff) : Bool := effDue k e || (e.ended.isNone && !e.applied && decide (e.epoch ≤ k) && e.op == 0x0307)
    match s.cmd.pend.find? ready with
    | none => s
    | some e =>
      let s := if e.ended.isNone && !e.applied then effForce k e s else s
      match s.cmd.pend.find? (fun x => x.id.ord == e.id.ord) with
      | none => s
      | some e => if effDue k e then effFinish e s else s

def execEffectApply (s : State) : Host.Outcome State Fault Refusal := .next (snareEval (effectApply s))

/-! ### ITEM_RELEASE (R434 to R436, R438) -/

/-- An item leaves the store, and the window of its flow moves on (R433, R435, R436).
[DEDUCED: notes/assumptions/20] -/
def itemLeave (i : Nat) (it : Item) (s : State) : State :=
  let f := it.id.flow
  let v := flow s f
  let s := tlyDev 0x46 1 (setFlow { s with tsk := { s.tsk with items := tdel i s.tsk.items } } f { v with oldest := v.oldest + 1 })
  let mine := s.tsk.items.filter (fun p => p.2.used && p.2.id.flow == f)
  let s := if mine.any (fun p => !inWindow s p.2) then s else setFlow s f { flow s f with closed := false }
  if mine.any (fun p => p.2.owner.isNone && decide (p.2.arr = v.oldest + 256)) then takeableWake s else s

/-- The oldest item of flow `f` is released where it is done: this is its commit instant. `ecc` says that the stored item has met an
uncorrectable ECC error, when it is released as FAILED INTERNAL in its turn (R438). -/
def itemRelease (f : Nat) (ecc : Bool) (s : State) : State :=
  match s.tsk.items.find? (fun p => p.2.used && p.2.id.flow == f && p.2.arr == (flow s f).oldest) with
  | none => s
  | some (i, it) =>
    let fail (cls st : Nat) (s : State) : State :=
      let s := { s with cmd := { s.cmd with flowQ := s.cmd.flowQ ++ [{ ord := it.id.ord, flow := f }] } }
      cplOut (flowCpl it.id it.op cls st 0 0) s
    if ecc then report (fail cFailed stInternal (setEvt (itemLeave i it s) rTSK_EVT (bitv 4))) (srcBlk 4 0) 0x0104
    else
      match it.done with
      | none => s
      | some (disp, st, res) =>
        let s := itemLeave i it s
        if disp = 0 then
          if it.op = 0x0404 then fwUpdate it.id it.bytes s
          else cmdRun it.id it.op (slice it.bytes 32 (rd it.bytes 4 2)) (some res) s
        else if disp = 1 then fail cRefused st s
        else fail cFailed st s

def execItemRelease (f : Fin 64) (ecc : Bool) (s : State) : Host.Outcome State Fault Refusal := .next (snareEval (itemRelease f ecc s))

end Sys2Proof.Machine
end

