-- ==== Sys2Proof/Machine/Cores.lean ====
section
/-! DEFINITION. The cores: their memory map, ports, CSRs, and the access faults and ECC errors they take (R403 to R412, R423,
R511, R516). -/

namespace Sys2Proof.Machine

/-! ### The memory map (R405, R406) -/

/-- A region of the core map. -/
inductive Region where
  | rom | ownTcm | tcm | cached | uncached | regs | granary | fwPort | jnlPort
  deriving DecidableEq, Repr

/-- The region of an address (R405). -/
def regionOf (a : Nat) : Option Region :=
  if 0x10000 ≤ a ∧ a < 0x20000 then some .rom
  else if 0x10000000 ≤ a ∧ a < 0x10080000 then some .ownTcm
  else if 0x20000000 ≤ a ∧ a < 0x20800000 then some .tcm
  else if 0x40000000 ≤ a ∧ a < 0x40C00000 then some .cached
  else if 0x40C00000 ≤ a ∧ a < 0x41000000 then some .uncached
  else if 0x80000000 ≤ a ∧ a < 0x82000000 then some .regs
  else if 0x90000000 ≤ a ∧ a < 0x90410000 then some .granary
  else if 0x91000000 ≤ a ∧ a < 0x91008004 then some .fwPort
  else if 0x92000000 ≤ a ∧ a < 0x92010000 then some .jnlPort
  else none

/-- Kinds of access: 0 fetch, 1 load, 2 store, 3 LR/SC or AMO. Does a region permit one (R405, R406). -/
def regionPermits (r : Region) (kind : Nat) : Bool :=
  match r with
  | .rom => decide (kind ≤ 1)
  | .ownTcm => true
  | .tcm => decide (kind = 1 ∨ kind = 2)
  | .cached => decide (kind ≤ 2)
  | .uncached => decide (1 ≤ kind)
  | .regs => decide (kind = 1 ∨ kind = 2)
  | .granary => decide (kind = 1)
  | .fwPort => decide (kind = 1 ∨ kind = 2)
  | .jnlPort => decide (kind = 1 ∨ kind = 2)

/-- Does the map permit an access. -/
def accessOk (a kind : Nat) : Bool := match regionOf a with | some r => regionPermits r kind | none => false

/-- The exception code of an access fault by kind: instruction, load, store/AMO. -/
def accessCause (kind : Nat) : Nat := if kind = 0 then 1 else if kind = 1 then 5 else 7

/-- An access that the map does not permit raises the matching access fault, with the address in mtval (R405); one that it permits
raises none. A halted core makes no access. -/
def coreAccessFault (c : Nat) (a : U64) (kind : Nat) (s : State) : State :=
  if accessOk a.toNat kind || (core s c).halted then s else coreTrap c (accessCause kind) a s

def execCoreAccessFault (c : Fin 16) (a : U64) (kind : Fin 4) (s : State) : Host.Outcome State Fault Refusal :=
  .next (coreAccessFault c a kind s)

/-- An ECC error at an access of core `c` (R414, R423): `place` 0 its TCM, 1 its caches, 2 shared memory.
[DEDUCED: notes/assumptions/38] -/
def coreEcc (c : Nat) (corrected : Bool) (place : Nat) (a : U64) (kind : Nat) (s : State) : State :=
  if corrected then
    let s := count s rCPU_ECC_CNT
    if place < 2 then intEdge s (prvKey c 4) else s
  else
    let s := if place = 0 then report (setEvt s rCPU_EVT (bitv 0)) (srcBlk 3 c) 0x00C0
      else if place = 2 then report (setEvt s rCPU_EVT (bitv 1)) (srcBlk 3 c) 0x00C1 else s
    coreTrap c (accessCause kind) a s

def execCoreEccError (c : Fin 16) (corrected : Bool) (place : Fin 3) (a : U64) (kind : Fin 4) (s : State) :
    Host.Outcome State Fault Refusal :=
  if (core s c).halted then .next s else .next (coreEcc c corrected place a kind s)

/-! ### The ports (R407 to R409) -/

/-- A load of point `p` through the Granary read port (R407). -/
def granaryLoad (p : Nat) (s : State) : State := { s with rdata := (pointRead s.grn.commit p).setWidth 64 }

def execGranaryPortLoad (c : Fin 16) (p : Fin 1064960) (s : State) : Host.Outcome State Fault Refusal :=
  .next (busLoad (.core c) (granaryLoad p s))

/-- A store of point 0x10_2000 + `p` of the staging copy (R408). -/
def fwStore (p : Nat) (v : U32) (s : State) : State :=
  { s with grn := { s.grn with fwStage := tset stale s.grn.fwStage p v } }

def execFwPointStore (_c : Fin 16) (p : Fin 8192) (v : U32) (s : State) : Host.Outcome State Fault Refusal := .next (fwStore p v s)

/-- The commit write makes the staging copy current (R158, R408). -/
def fwCommit (s : State) : State := { s with grn := { s.grn with fwCur := s.grn.fwStage, fwNew := true } }

def execFwPointCommit (_c : Fin 16) (s : State) : Host.Outcome State Fault Refusal := .next (fwCommit s)

/-- A store of TYPE and LEN submits the buffered words (R409); BUSY is over when the record is queued, so it reads 0.
[DEDUCED: notes/assumptions/38] -/
def jnlSubmit (c : Nat) (v : U32) (s : State) : State :=
  let h := core s c
  let ty := fld v 15 0
  let len := fld v 31 16
  if ty < 0x8000 ∨ 4096 < len then setCore s c { h with jerr := true, jdrop := false }
  else
    let s' := jnlPut ty ((List.range len).map (fun i => tget 0 h.jbuf i)) s
    setCore s' c { h with jerr := false, jdrop := decide (s'.grn.jnlQ.length ≤ s.grn.jnlQ.length) }

/-- The words stored at the port first, from offset 0 up. -/
def jnlFill (c : Nat) (ws : List U64) (s : State) : State :=
  let h := core s c
  setCore s c { h with jbuf := ((List.range 4096).zip ws).foldl (fun t p => tset 0 t p.1 p.2) h.jbuf }

def execJournalPortSubmit (c : Fin 16) (ws : List U64) (v : U32) (s : State) : Host.Outcome State Fault Refusal :=
  .next (jnlSubmit c v (jnlFill c ws s))

/-! ### gxdcop and core release (R410, R547) -/

/-- A write of gxdcop (R410): busy for a time the spec leaves open; a line outside the cacheable part, or no operation, completes
at once. The caches of the model hold nothing, for only executed instructions fill them.
[DESIGN CHOICE: notes/assumptions/13; DESIGN CHOICE: notes/assumptions/14; DEDUCED: notes/assumptions/38] -/
def dcopWrite (c : Nat) (v : U64) (s : State) : State :=
  let line := fld v 63 6 * 64
  if fld v 1 0 = 0 ∨ (!bit v 2 ∧ !decide (regionOf line = some .cached)) then s
  else
    let (x, s) := draw Config.freeWord s
    setCore s c { core s c with dcopEnd := now s + x.toNat }

def execGxdcopWrite (c : Fin 16) (v : U64) (s : State) : Host.Outcome State Fault Refusal := .next (dcopWrite c v s)

/-- A write of SYS_CORE_RUN releases cores 1 to 15 (R547). -/
def coreRun (v : U32) (s : State) : State :=
  (List.range 15).foldl (fun s i => if bit v (i + 1) then setCore s (i + 1) { coreTick s (core s (i + 1)) with released := true } else s) s

def execSysCoreRunWrite (bus : Bus) (v : U32) (s : State) : Host.Outcome State Fault Refusal :=
  coreOnlyWrite bus rSYS_CORE_RUN v (coreRun v) s

/-! ### CSRs (R403, R410, R511, R516) -/

/-- A CSR number in the custom ranges. -/
def csrCustom (n : Nat) : Bool := [0x7C0, 0xBC0, 0xFC0, 0x5C0, 0x9C0, 0xDC0, 0x6C0, 0xAC0, 0xEC0].any (fun b => decide (b ≤ n ∧ n < b + 0x40))
  || decide (0x800 ≤ n ∧ n < 0x900) || decide (0xCC0 ≤ n ∧ n < 0xD00)

/-- The custom CSRs that exist (R410, R516). -/
def csrExists (n : Nat) : Bool := !csrCustom n || decide (0x7C0 ≤ n ∧ n ≤ 0x7C8) || decide (0xFC0 ≤ n ∧ n ≤ 0xFC3)

/-- gxstack (R410). -/
def gxstack (h : Core) : Nat :=
  match h.stack with
  | [] => 0
  | t :: _ => h.stack.length + t.1 * 2 ^ 8 + t.2 * 2 ^ 20

/-- The CORE cycles that a core has run, in both modes and in idle, since reset (R403); none while it is halted (R514).
[DESIGN CHOICE: notes/assumptions/63] -/
def coreCycles (s : State) (c : Nat) : Nat :=
  let y := coreCyc s c
  y.runM + y.runU + y.idlM + y.idlU

/-- The instructions that a core has retired: its RETIRED slots (R513). [DESIGN CHOICE: notes/assumptions/63] -/
def coreRetired (s : State) (c : Nat) : Nat :=
  let y := coreCyc s c
  slotsIn c true 0 0 y.runM + slotsIn c false 0 0 y.runU

/-- The value of a CSR other than gxclaim; mcycle and minstret hold what was written less what had been counted. Counters of the RISC-V numbers are those of Tally.
[PRESUMED: notes/assumptions/12; DESIGN CHOICE: notes/assumptions/13] -/
def csrRead (s : State) (c n : Nat) : U64 :=
  let h := core s c
  let t := tlyCore s c
  if n = 0x7C1 then u64 h.thresh
  else if n = 0x7C2 then u64 (b2n h.deepCfg)
  else if n = 0x7C3 then h.timecmp
  else if n = 0x7C4 then u64 (b2n (decide (now s < h.dcopEnd)))
  else if n = 0x7C5 then 0
  else if n = 0x7C6 then t.ovf.setWidth 64
  else if n = 0x7C7 then u64 (b2n t.en + 2 * b2n t.wrap + 4 * b2n t.host)
  else if n = 0x7C8 then t.rld.setWidth 64
  else if n = 0xFC0 then u64 (epochNow s)
  else if n = 0xFC1 then u64 s.grn.commit.k
  else if n = 0xFC2 then u64 (gxstack h)
  else if n = 0xFC3 then u64 (t.buf.length + b2n t.full * 2 ^ 13)
  else if n = 0xF14 then u64 c
  else if n = 0xF11 then 0
  else if n = 0xF12 then 0x6716
  else if n = 0xF13 then 1
  else if n = 0x301 then 0x800000000010112D
  else if n = 0xC01 then s.tick
  else if n = 0xB00 ∨ n = 0xC00 then tget 0 h.csr 0xB00 + u64 (coreCycles s c)
  else if n = 0xB02 ∨ n = 0xC02 then tget 0 h.csr 0xB02 + u64 (coreRetired s c)
  else if n = 0x344 then u64 (b2n (presented s c).isSome * 2 ^ 11)
  else if 0xB03 ≤ n ∧ n ≤ 0xB0A then (tlyCnt s c (n - 0xB03)).setWidth 64
  else if 0xC03 ≤ n ∧ n ≤ 0xC0A then (tlyCnt s c (n - 0xC03)).setWidth 64
  else if 0x323 ≤ n ∧ n ≤ 0x32A then tget 0 t.evt (n - 0x323)
  else if (0xB0B ≤ n ∧ n ≤ 0xB1F) ∨ (0xC0B ≤ n ∧ n ≤ 0xC1F) ∨ (0x32B ≤ n ∧ n ≤ 0x33F) then 0
  else tget 0 h.csr n

/-- The reserved bits of a custom CSR (R410, R516). -/
def csrRsv (n : Nat) : Nat :=
  if n = 0x7C1 then 2 ^ 64 - 16
  else if n = 0x7C2 then 2 ^ 64 - 2
  else if n = 0x7C6 then 2 ^ 64 - 256
  else if n = 0x7C7 then 2 ^ 64 - 16
  else if n = 0x7C8 then 2 ^ 64 - 2 ^ 48
  else 0

/-- A write of a CSR; the read-only ones ignore it. [PRESUMED: notes/assumptions/12] -/
def csrWrite (c n : Nat) (v : U64) (s : State) : State :=
  let h := core s c
  let t := tlyCore s c
  if n = 0x7C0 then complete c v s
  else if n = 0x7C1 then latchCore (setCore s c { h with thresh := fld v 3 0 }) c
  else if n = 0x7C2 then setCore s c { h with deepCfg := bit v 0 }
  else if n = 0x7C3 then timecmpWrite c v s
  else if n = 0x7C4 then dcopWrite c v s
  else if n = 0x7C5 then lset c v s
  else if n = 0x7C6 then ovfClear c v s
  else if n = 0x7C7 then smplWrite c v s
  else if n = 0x7C8 then setTlyCore s c { t with rld := v.setWidth 48 }
  else if 0xC00 ≤ n ∨ n = 0x301 ∨ n = 0x344 then s
  else if n = 0xB00 then setCore s c { h with csr := tset 0 h.csr n (v - u64 (coreCycles s c)) }
  else if n = 0xB02 then setCore s c { h with csr := tset 0 h.csr n (v - u64 (coreRetired s c)) }
  else if 0xB03 ≤ n ∧ n ≤ 0xB0A then tlySet c (n - 0xB03) (v.setWidth 48) s
  else if 0x323 ≤ n ∧ n ≤ 0x32A then tlySelect c (n - 0x323) v s
  else if (0xB0B ≤ n ∧ n ≤ 0xB1F) ∨ (0x32B ≤ n ∧ n ≤ 0x33F) then s
  else setCore s c { h with csr := tset 0 h.csr n v }

/-- The CPU and INT registers that show structured state (R424, R425). -/
def cpuRead (s : State) (off : Nat) : Option U32 :=
  if off = rCPU_STAT then
    some (u32 (bitsOf 16 (fun c => (core s c).idle) + 2 ^ 16 * bitsOf 16 (fun c => (core s c).deep)))
  else if rCPU_CORE_STAT 0 ≤ off ∧ off < rCPU_CORE_STAT 16 ∧ off % 4 = 0 then
    let h := core s ((off - rCPU_CORE_STAT 0) / 4)
    let top := h.stack.head?.getD (0, 0)
    some (pack [(0, h.stack.length), (5, b2n h.idle), (6, b2n h.deep), (7, b2n h.halted), (8, top.1), (20, top.2)])
  else if off = rINT_STAT then some (u32 (bitsOf 16 (fun c => (presented s c).isSome)))
  else if off = rINT_VIEW then
    let sel := rg s rINT_VIEW_SEL
    let k := keyOf (fld sel 3 0) (fld sel 26 16)
    if 1088 ≤ fld sel 26 16 then some 0
    else
      let v := intSrc s k
      some (pack [(0, v.cnt), (8, b2n (srcPending s k)), (9, b2n v.active), (10, b2n (srcHeld s k)),
                  (11, b2n (srcLevel k && srcInput s k))])
  else none

end Sys2Proof.Machine
end

