-- ==== Sys2Proof/Machine/Dbgport.lean ====
section
/-! DEFINITION. The debug port: unlocks, halting, stepping, breakpoints and watchpoints, and register access (R520 to R528). -/

namespace Sys2Proof.Machine

/-- ACK codes (R520). -/
def ackOk : Nat := 1
def ackWait : Nat := 2
def ackFault : Nat := 4

def setAck (n : Nat) (s : State) : State := { s with dbg := { s.dbg with ack := n } }

/-- The port is addressed, so DBG_EN is high (R520). -/
def dpBegin (s : State) : State := { s with dbg := { s.dbg with en := true } }

/-- May a write of a port register take place (R521, R522): without an unlock DP_UBLK, DP_USIG and DP_UNLOCK; at LEVEL 1 also
what a memory read needs, DP_CTL and DP_MEM_ADDR; at LEVEL 2 every register. [DEDUCED: notes/assumptions/39] -/
def dpWritable (level a : Nat) : Bool :=
  decide (8 ≤ a ∧ a < 0x1E) || decide (0x20 ≤ a ∧ a ≤ 0x38) || (decide (level = 1) && (a == 2 || a == 0x48)) || decide (2 ≤ level)

/-- A write transaction to port register `a`: FAULT where it is not permitted, WAIT while an unlock check is busy, else OK with
the effect `f`. [DEDUCED: notes/assumptions/39] -/
def dpWrite (a : Nat) (f : State → State) (s : State) : State :=
  let s := dpBegin s
  if !dpWritable s.dbg.level a then setAck ackFault s
  else if s.dbg.busy then setAck ackWait s
  else f (setAck ackOk s)

/-- Core `c` runs again. -/
def resumeCore (c : Nat) (s : State) : State := setCore s c { coreTick s (core s c) with halted := false }

/-- Core `c` halts (R524); a halt wakes an idle core (R411). -/
def haltCore (c : Nat) (s : State) : State := setCore s c { coreTick s (core s c) with halted := true, idle := false, deep := false }

/-- A halt is recorded and reported (R524, R528). -/
def haltNoted (s : State) : State := report (setEvt s rDBG_EVT (bitv 2)) (srcBlk 17 0) 0x0442

/-- The unlock ends (R522): breakpoints and watchpoints off, every halted core resumes, DP_FREEZE cleared. -/
def unlockEnd (s : State) : State :=
  let d := s.dbg
  let s := { s with dbg := { d with level := 0, notAfter := none, bp := (d.bp.map (fun p => (p.1, p.2 &&& ~~~ 1))).filter (fun p => p.2 ≠ 0),
                                    wpCfg := (d.wpCfg.map (fun p => (p.1, p.2 &&& ~~~ 0x100))).filter (fun p => p.2 ≠ 0) } }
  freeze false ((List.range 16).foldl (fun s c => if (core s c).halted then resumeCore c s else s) s)

/-- DBG_EN low: the port is held in reset and every unlock ends; the challenge, FAILS and LOCKOUT stay (R520, R522, R523).
[DEDUCED: notes/assumptions/39] -/
def dbgEnLow (s : State) : State :=
  let s := unlockEnd s
  { s with dbg := { chal := s.dbg.chal, fails := s.dbg.fails, lockout := s.dbg.lockout } }

def execDbgEnLow (s : State) : Host.Outcome State Fault Refusal := .next (dbgEnLow s)

/-- A request with bad parity (R520). -/
def execDpParityError (s : State) : Host.Outcome State Fault Refusal :=
  .next (setAck 0 { dpBegin s with dbg := { (dpBegin s).dbg with perr := true } })

/-! ### Signed unlock (R522, R523) -/

/-- GO queues the check; LOCKOUT refuses it. [DEDUCED: notes/assumptions/39] -/
def unlockGo (s : State) : State := if s.dbg.lockout then s else { s with dbg := { s.dbg with busy := true } }

def execDpUnlockGo (s : State) : Host.Outcome State Fault Refusal := .next (dpWrite 0x38 unlockGo s)

/-- The unlock block and the signature as written. -/
def unlockBlock (s : State) : Bytes := (List.range 22).flatMap (fun i => leBytes 4 (tget 0 s.dbg.ublk i).toNat)
def unlockSig (s : State) : Bytes := (List.range 24).flatMap (fun i => leBytes 4 (tget 0 s.dbg.usig i).toNat)

/-- "ZTR-DBG" and 0x00. -/
def unlockMagic : Bytes := [0x5A, 0x54, 0x52, 0x2D, 0x44, 0x42, 0x47, 0x00]

/-- Is the unlock granted (R522). -/
def unlockGranted (s : State) : Bool :=
  let b := unlockBlock s
  let level := rd b 8 1
  let slot := rd b 9 1
  let na := rd b 80 8
  slice b 0 8 == unlockMagic && zeros b 10 6 && decide (level = 1 ∨ level = 2) && vaultUsable s && slotActive s slot &&
  decide (level + 1 ≤ (keySlot s slot).ceil) && slice b 16 16 == leBytes 16 s.dbg.chal.toNat &&
  slice b 32 48 == sha384 (devPub s) && (na == 0 || decide (s.std.rtcSec.toNat ≤ na)) &&
  ecdsaVerify ((keySlot s slot).key.getD []) b (unlockSig s)

/-- The check ends (R522, R523): the grant takes LEVEL and a new challenge; a failure counts, and the eighth in a row locks out. -/
def unlockDone (s : State) : State :=
  if !s.dbg.busy then s
  else if unlockGranted s then
    let b := unlockBlock s
    let na := rd b 80 8
    let (c, s) := draw Config.random s
    let s := { s with dbg := { s.dbg with busy := false, level := rd b 8 1, notAfter := if na = 0 then none else some na,
                                          fails := 0, chal := c } }
    report (setEvt (count s rDBG_UNLOCK_CNT) rDBG_EVT (bitv 0)) (srcBlk 17 0) 0x0440
  else
    let n := s.dbg.fails + 1
    let s := { s with dbg := { s.dbg with busy := false, fails := n } }
    let s := report (setEvt s rDBG_EVT (bitv 1)) (srcBlk 17 0) 0x0441
    if 8 ≤ n then
      report (setEvt { s with dbg := { s.dbg with lockout := true } } rDBG_EVT (bitv 3)) (srcBlk 17 0) 0x0443
    else s

def execDpUnlockDone (s : State) : Host.Outcome State Fault Refusal := .next (unlockDone s)

def execDpRelock (s : State) : Host.Outcome State Fault Refusal := .next (dpWrite 0x38 unlockEnd s)

/-- The RTC passes NOT_AFTER of the unlock (R522); it cannot pass one beyond its 48 bits. -/
def unlockExpire (s : State) : State :=
  match s.dbg.notAfter with
  | none => s
  | some t => if 2 ^ 48 ≤ t + 1 then s else unlockEnd { s with std := { s.std with rtcSec := BitVec.ofNat 48 (max s.std.rtcSec.toNat (t + 1)) } }

def execDpUnlockExpire (s : State) : Host.Outcome State Fault Refusal := .next (unlockExpire s)

/-! ### Halt, resume, step, breakpoints (R524, R527) -/

/-- The cores of `m` halt. -/
def haltCores (m : U16) (s : State) : State :=
  let cs := (idxs 16 m.getLsbD).filter (fun c => !(core s c).halted)
  let s := cs.foldl (fun s c => haltCore c s) s
  if cs.isEmpty then s else haltNoted s

def execDpHalt (m : U16) (s : State) : Host.Outcome State Fault Refusal := .next (dpWrite 0x40 (haltCores m) s)

def execDpResume (m : U16) (s : State) : Host.Outcome State Fault Refusal :=
  .next (dpWrite 0x41 (fun s => (idxs 16 m.getLsbD).foldl (fun s c => resumeCore c s) s) s)

/-- CORE_SEL. -/
def coreSel (s : State) : Nat := fld s.dbg.ctl 3 0

/-- Write register `r` of core `c`: 0 to 31 GPR, of which 0 reads 0 (RISC-V), 32 to 63 FPR, 64 PC (R521). -/
def coreReg (c r : Nat) (v : U64) (s : State) : State :=
  let h := core s c
  if r = 0 then s
  else if r < 32 then setCore s c { h with gpr := tset 0 h.gpr r v }
  else if r < 64 then setCore s c { h with fpr := tset 0 h.fpr (r - 32) v }
  else setCore s c { h with pc := v }

/-- One instruction retires on a halted core, which stays halted (R524, R527): `npc` is where it leaves the PC and `w` the register it
writes, for the instruction set itself is not modelled. With STEPIE a pending interrupt is taken in its place.
[DESIGN CHOICE: notes/assumptions/13; DEDUCED: notes/assumptions/39] -/
def stepCore (npc : U64) (w : Option (Fin 64 × U64)) (s : State) : State :=
  let c := coreSel s
  if !(core s c).halted then s
  else if bit s.dbg.ctl 4 && irqTaken s c then irqTrap c s
  else
    let s := match w with | some (r, v) => coreReg c r v s | none => s
    coreReg c 64 npc s

def execDpStep (npc : U64) (w : Option (Fin 64 × U64)) (s : State) : Host.Outcome State Fault Refusal :=
  .next (dpWrite 0x42 (stepCore npc w) s)

/-- Breakpoint `b` of core `c`; it matches where its EN is 1. -/
def bpWord (s : State) (c b : Nat) : U32 := tget 0 s.dbg.bp (4 * c + b)

/-- A breakpoint matches before its instruction (R524): the core halts with PC there, or BP_COUNT counts. -/
def bpHit (c b : Nat) (s : State) : State :=
  let w := bpWord s c b
  if !bit w 0 || (core s c).halted then s
  else
    let s := setCore s c { core s c with pc := u64 (fld w 31 1 * 2) }
    if bit (tget 0 s.dbg.bpctl c) b then tlyCount c 0x19 s else haltNoted (haltCore c s)

def execBreakpointHit (c : Fin 16) (b : Fin 4) (s : State) : Host.Outcome State Fault Refusal := .next (bpHit c b s)

/-- Does watchpoint `w` of core `c` match an access (R521). -/
def wpMatches (s : State) (c w : Nat) (addr : U64) (isStore : Bool) : Bool :=
  let g := tget 0 s.dbg.wpCfg (2 * c + w)
  let m := 2 ^ fld g 4 0
  bit g 8 && bit g (if isStore then 7 else 6) &&
  decide (addr.toNat / m = (tget 0 s.dbg.wpAddr (2 * c + w)).toNat / m)

/-- The breakpoint on the instruction at `pc`, if one matches (R527: it goes before a watchpoint). -/
def bpAt (s : State) (c : Nat) (pc : U64) : Option Nat :=
  (List.range 4).find? (fun b => bit (bpWord s c b) 0 && decide (fld (bpWord s c b) 31 1 * 2 = pc.toNat))

/-- A watchpoint stops the access of the instruction at `pc`, or BP_COUNT counts (R524). -/
def wpHit (c w : Nat) (pc addr : U64) (isStore : Bool) (s : State) : State :=
  match bpAt s c pc with
  | some b => bpHit c b s
  | none =>
    if !wpMatches s c w addr isStore || (core s c).halted then s
    else
      let s := setCore s c { core s c with pc := pc }
      if bit (tget 0 s.dbg.wpCfg (2 * c + w)) 9 then tlyCount c 0x19 s else haltNoted (haltCore c s)

def execWatchpointHit (c : Fin 16) (w : Fin 2) (pc addr : U64) (isStore : Bool) (s : State) : Host.Outcome State Fault Refusal :=
  .next (wpHit c w pc addr isStore s)

/-! ### Core registers (R521) -/

/-- Does DP_REG_SEL name a register: NUM up to 64, or a CSR that exists (R410, R521).
[DEDUCED: notes/assumptions/39] -/
def regSelOk (v : U32) : Bool := if bit v 12 then csrExists (fld v 11 0) else decide (fld v 11 0 ≤ 64)

/-- The selected register of core `c`. A halted core's gxclaim claims nothing (R422). -/
def regSelRead (s : State) (c : Nat) (v : U32) : U64 :=
  let n := fld v 11 0
  let h := core s c
  if bit v 12 then (if n = 0x7C0 then 0x7FF else csrRead s c n)
  else if n < 32 then tget 0 h.gpr n
  else if n < 64 then tget 0 h.fpr (n - 32)
  else h.pc

/-- A write of DP_REG_SEL reads the register (R521); a core that is not halted answers FAULT (R524). -/
def regSel (v : U32) (s : State) : State :=
  if !(core s (coreSel s)).halted || !regSelOk v then setAck ackFault s
  else
    let x := regSelRead s (coreSel s) v
    { s with dbg := { s.dbg with regSel := v &&& 0x1FFF, regLo := lo32 x, regHi := hi32 x } }

def execDpRegSelWrite (v : U32) (s : State) : Host.Outcome State Fault Refusal := .next (dpWrite 0x44 (regSel v) s)

/-- A write of DP_REG_HI writes the pair to the selected register (R521). -/
def regHi (v : U32) (s : State) : State :=
  let c := coreSel s
  if !(core s c).halted then setAck ackFault s
  else
    let s := { s with dbg := { s.dbg with regHi := v } }
    let x := join64 s.dbg.regLo v
    if bit s.dbg.regSel 12 then csrWrite c (fld s.dbg.regSel 11 0) x s else coreReg c (fld s.dbg.regSel 11 0) x s

/-- A value that sets a reserved field of the selected custom CSR has no effect that the spec gives (R13).
[DESIGN CHOICE: notes/assumptions/7] -/
def execDpRegHiWrite (v : U32) (s : State) : Host.Outcome State Fault Refusal :=
  let n := fld s.dbg.regSel 11 0
  let x := join64 s.dbg.regLo v
  if 2 ≤ s.dbg.level ∧ !s.dbg.busy ∧ (core s (coreSel s)).halted ∧ bit s.dbg.regSel 12 ∧ x.toNat &&& csrRsv n ≠ 0 then
    .fault (.reservedCsrSet n)
  else .next (dpWrite 0x46 (regHi v) s)

/-- DP_FREEZE sets and clears HRW_FREEZE.FROZEN (R295). -/
def execDpFreezeWrite (v : U32) (s : State) : Host.Outcome State Fault Refusal := .next (dpWrite 0x60 (freeze (bit v 0)) s)

/-! ### The other port registers (R521) -/

/-- The reserved bits of a port register. -/
def dpRsv (a : Nat) : U32 :=
  if a = 2 then 0xFFFFFFC0 else if a = 0x38 then 0xFFFFFFFC else if a = 0x59 ∨ a = 0x5B then 0xFFFFFC00 else 0

/-- The effect of a write of a port register that has no command of its own; a read-only or unassigned one ignores it. -/
def dpStore (a : Nat) (v : U32) (s : State) : State :=
  let d := s.dbg
  let c := coreSel s
  if a = 2 then { s with dbg := { d with ctl := v } }
  else if 8 ≤ a ∧ a < 0x1E then { s with dbg := { d with ublk := tset 0 d.ublk (a - 8) v } }
  else if 0x20 ≤ a ∧ a < 0x38 then { s with dbg := { d with usig := tset 0 d.usig (a - 0x20) v } }
  else if a = 0x38 then (let s := if bit v 1 then unlockEnd s else s; if bit v 0 then unlockGo s else s)
  else if a = 0x40 then haltCores (v.setWidth 16) s
  else if a = 0x41 then (idxs 16 v.getLsbD).foldl (fun s c => resumeCore c s) s
  else if a = 0x44 then regSel v s
  else if a = 0x45 then { s with dbg := { d with regLo := v } }
  else if a = 0x46 then regHi v s
  else if a = 0x48 then { s with dbg := { d with memAddr := v &&& ~~~ 3 } }
  else if 0x50 ≤ a ∧ a < 0x54 then { s with dbg := { d with bp := tset 0 d.bp (4 * c + (a - 0x50)) v } }
  else if a = 0x54 then { s with dbg := { d with bpctl := tset 0 d.bpctl c (v &&& 0xF) } }
  else if a = 0x58 ∨ a = 0x5A then { s with dbg := { d with wpAddr := tset 0 d.wpAddr (2 * c + (a - 0x58) / 2) v } }
  else if a = 0x59 ∨ a = 0x5B then { s with dbg := { d with wpCfg := tset 0 d.wpCfg (2 * c + (a - 0x59) / 2) v } }
  else if a = 0x60 then freeze (bit v 0) s
  else s

/-- What a port register reads (R521). -/
def dpRead (s : State) (a : Nat) : U32 :=
  let d := s.dbg
  let c := coreSel s
  if a = 0 then 0x67161101
  else if a = 1 then pack [(0, d.level), (2, b2n d.busy), (3, b2n d.perr), (4, b2n d.lockout), (8, d.fails)]
  else if a = 2 then d.ctl
  else if 4 ≤ a ∧ a < 8 then u32 (d.chal.toNat / 2 ^ (32 * (a - 4)))
  else if a = 0x43 then u32 (bitsOf 16 (fun c => (core s c).halted))
  else if a = 0x44 then d.regSel
  else if a = 0x45 then d.regLo
  else if a = 0x46 then d.regHi
  else if a = 0x48 then d.memAddr
  else if 0x50 ≤ a ∧ a < 0x54 then bpWord s c (a - 0x50)
  else if a = 0x54 then tget 0 d.bpctl c
  else if a = 0x58 ∨ a = 0x5A then tget 0 d.wpAddr (2 * c + (a - 0x58) / 2)
  else if a = 0x59 ∨ a = 0x5B then tget 0 d.wpCfg (2 * c + (a - 0x59) / 2)
  else if a = 0x60 then u32 (b2n s.hrw.frozen)
  else 0

/-- DBG_STAT (R529). -/
def dbgRead (s : State) (off : Nat) : Option U32 :=
  if off = rDBG_STAT then
    some (pack [(0, s.dbg.level), (2, b2n s.dbg.lockout), (3, b2n s.dbg.en), (4, b2n s.hrw.frozen),
                (16, bitsOf 16 (fun c => (core s c).halted))])
  else none

/-! ### Tamper (R106, R108) -/

/-- A tamper latch sets; zeroisation ends a debug unlock (R522). -/
def execTamperLatch (i : Fin 2) (pins : BitVec 2) (s : State) : Host.Outcome State Fault Refusal :=
  let s' := tamperLatch i pins s
  .next (if tampLatches i pins s.std && !s.sys.por then unlockEnd s' else s')

end Sys2Proof.Machine
end

