-- ==== Sys2Proof/Machine/Boot.lean ====
section
/-! DEFINITION. Resets, clocks, boot and the set-up window (R17, R36, R46, R74, R75, R85, R88, R397, R530 to R548). -/

namespace Sys2Proof.Machine

/-! ### Resets (R531 to R534, R543) -/

/-- What a POR, PIN or SOFT reset leaves (R532): every block at its reset value. What lies outside the device stays (the queue of
commands, the data of the last read, the writes already issued, the cell endpoints), as do the standby domain and the non-volatile
cells; core RAM is kept where `ram`. -/
def resetCore (s : State) (ram : Bool) : State :=
  { ({} : State) with pending := s.pending, rdata := s.rdata, dma := s.dma, freeCtr := s.freeCtr, std := s.std, eps := s.eps,
                          mem := if ram then s.mem else [] }

/-- SYS_CLK_EVT survives every reset except POR (R32); the level of DBG_EN is that of its pin.
[DESIGN CHOICE: notes/assumptions/1] -/
def resetKeep (s : State) : State :=
  let t := wr (resetCore s true) rSYS_CLK_EVT (rg s rSYS_CLK_EVT)
  { t with dbg := { t.dbg with en := s.dbg.en } }

/-- POR is asserted (R531): the supplies are below their thresholds. `secs` is how long RST_N had been low by then, which the
standby domain has timed (R534). [DESIGN CHOICE: notes/assumptions/1] -/
def porAssert (secs : Nat) (s : State) : State :=
  let low := if s.std.longLatch && s.sys.pin then max s.std.lowSecs secs else s.std.lowSecs
  let t := resetCore s false
  { t with sys := { t.sys with por := true }, std := { t.std with lowSecs := low } }

def execPorAssert (secs : Nat) (s : State) : Host.Outcome State Fault Refusal := .next (porAssert secs s)

/-- At power-up, the vault enters ZEROISED where VBAT was lost, or a tamper latch set, while the main supplies were off (R107). Of a latch
that set then, AUT_EVT.TAMPER and Tocsin learn nothing: the spec does not say that they do.
[DEDUCED: notes/assumptions/42; DESIGN CHOICE: notes/assumptions/58] -/
def powerUpVault (s : State) : State :=
  if s.std.lost then
    let s := setEvt s rAUT_EVT (bitv 1)
    { s with std := { s.std with lost := false, vault := 3, devNeed := true } }
  else s

/-- The device key is generated, and after ZEROISED or FAILED the slots are emptied, at the first reset that needs it (R85, R88). -/
def newDeviceKey (s : State) : State :=
  if s.std.devNeed then
    let kek := keyStore s.freeCtr
    let (k, s) := draw Config.deviceKey s
    let slots := if 3 ≤ s.std.vault then
        s.std.slots.map (fun p => (p.1, if slotState p.2 = 3 then p.2 else { p.2 with key := none, ceil := 0, gen := 0 }))
      else s.std.slots
    { s with std := { s.std with keyProt := kek, devPriv := some ⟨kek, k⟩, devNeed := false, slots := slots.filter (fun p => p.2 ≠ {}) } }
  else s

/-- SYS_RST_CAUSE, and the LONG latch of the standby domain (R534, R548). -/
def resetCause (cause : Nat) (s : State) : State :=
  let long := s.std.longLatch
  let s := wr s rSYS_RST_CAUSE (u32 (cause + b2n long * 16))
  if long then
    { s with std := { s.std with longLatch := false, longCnt := min 0xFFFF (s.std.longCnt + 1), longLast := min 65535 s.std.lowSecs,
                                 lowSecs := 0 } }
  else s

/-- The high words of the standby pairs read the retained values after a reset (R110). -/
def standbyPairs (s : State) : State :=
  wr (wr s rAUT_RTC_HI (u32 (s.std.rtcSec.toNat / 2 ^ 32))) rAUT_ARB_HI (hi32 s.std.arb)

/-- A reset is released (R533, R542 step 1): new challenges (R93, R523), the device key, the cause, and the ID straps (R491).
[DESIGN CHOICE: notes/assumptions/50] -/
def resetRelease (cause id : Nat) (s : State) : State :=
  let s := newDeviceKey (powerUpVault s)
  let (a, s) := draw Config.random s
  let (d, s) := draw Config.random s
  let s := { s with sys := { s.sys with por := false, pin := false, soft := false }, aut := { s.aut with chal := a },
                    dbg := { s.dbg with chal := d }, stk := { s.stk with id := id } }
  standbyPairs (resetCause cause s)

/-- `id` is what the ID straps read. -/
def execPorRelease (id : BitVec 3) (s : State) : Host.Outcome State Fault Refusal :=
  .next (if s.sys.por then resetRelease 1 id.toNat s else s)

/-- RST_N asserts PIN (R533); while POR is asserted it has no effect (R546). -/
def pinAssert (s : State) : State :=
  if s.sys.por then s else let t := resetKeep s; { t with sys := { t.sys with pin := true } }

def execRstNLow (s : State) : Host.Outcome State Fault Refusal := .next (pinAssert s)

/-- RST_N has returned high after `secs` seconds, and PIN is released 100 µs later (R533, R534). -/
def pinRelease (secs id : Nat) (s : State) : State :=
  if s.sys.pin then
    resetRelease 2 id { s with std := { s.std with lowSecs := if s.std.longLatch then max s.std.lowSecs secs else s.std.lowSecs } }
  else s

def execRstNRelease (secs : Nat) (id : BitVec 3) (s : State) : Host.Outcome State Fault Refusal := .next (pinRelease secs id.toNat s)

/-- RST_N has stayed low for 10 s (R534): only while it is low. -/
def execLongResetLatch (s : State) : Host.Outcome State Fault Refusal :=
  .next (if s.sys.pin then { s with std := { s.std with longLatch := true, lowSecs := 10 } } else s)

/-- A SOFT reset (R532, R533). -/
def softAssert (s : State) : State := let t := resetKeep s; { t with sys := { t.sys with soft := true } }

/-- A write of SYS_RST_CTL.DEVICE (R535). -/
def execSoftReset (bus : Bus) (s : State) : Host.Outcome State Fault Refusal := guardWrite s bus rSYS_RST_CTL 1 softAssert

def execSoftResetRelease (id : BitVec 3) (s : State) : Host.Outcome State Fault Refusal :=
  .next (if s.sys.soft then resetRelease 3 id.toNat s else s)

/-! ### The FRAME reset (R535, R536) -/

/-- A loop after a FRAME reset: disabled without a drain, its states at reset values, the rest kept. -/
def loopFrameReset (x : Loop) : Loop :=
  { x with enabled := false, starting := false, drain := false, fallback := 0, out := 0, integ := 0, spAct := 0, d := 0, xPrev := 0,
           s1 := 0, s2 := 0 }

/-- A sequencer before its first start event, in its MODE (R341). -/
def seqFrameReset (x : Seq) : Seq := { mode := x.newMode.getD x.mode, tabOn := x.tabOn }

/-- A channel whose filter, accumulator and tracker are in zero state. -/
def chanFrameReset (x : Chan) : Chan :=
  { x with n := 0, hist := [], sum := 0, k := 0, last := none, lo := none, hi := none, ovr := false, taint := false, excl := 0 }

/-- An arm lane after a FRAME reset: no selection under way and nothing built ahead; the grid starts again with frames (R274).
[DEDUCED: notes/assumptions/43] -/
def armFrameReset (x : HArm) : HArm :=
  { x with slots := [], busy := false, overrun := false, pts := [], car := { x.car with
      bld := { x.car.bld with on := false }, rt := { x.car.rt with on := false }, ranks := [], zeros := [], edges := [],
      running := false, drain := none, bridges := [], apex := none } }

/-- The run-time state that a FRAME reset returns to its reset values, ring by ring and block by block (R535).
[DEDUCED: notes/assumptions/43] -/
def frameStateReset (s : State) : State :=
  let s := (List.range 64).foldl (fun s r => if (ring s r).st = 0 then s else ringClear r s) s
  { s with
    fur := { s.fur with sent := [], tx := [], burst := none },
    cmd := { s.cmd with la := [] },
    hrw := { s.hrw with cells := [], arms := tmap {} s.hrw.arms (fun _ => armFrameReset) },
    lpe := { s.lpe with loops := tmap {} s.lpe.loops (fun _ => loopFrameReset), sample := none, busy := false,
                        lateEng := 0, lateArms := 0, cap := {} },
    grn := { s.grn with valid := false, next := none, commit := {}, build := none, hdrs := [], hist := [], resetDue := true },
    afe := { s.afe with seqs := tmap {} s.afe.seqs (fun _ => seqFrameReset),
                        chans := tmap {} s.afe.chans (fun _ => chanFrameReset) },
    snr := { s.snr with st := 0, queue := [], recs := [] },
    stk := { s.stk with fstart := {} } }

/-- A FRAME reset (R535): frames stop at the end of the frame in transmission, and the tick counter runs on.
[DEDUCED: notes/assumptions/43] -/
def frameReset (s : State) : State :=
  let s := if s.sys.running then advanceTo s ((epochNow s + 1) * lTicks s) else s
  let s := frameStateReset s
  wr { s with sys := { s.sys with running := false } } rSYS_RST_CAUSE 4

/-- A write of SYS_RST_CTL.FRAME. -/
def execFrameReset (bus : Bus) (s : State) : Host.Outcome State Fault Refusal := guardWrite s bus rSYS_RST_CTL 2 frameReset

/-! ### Host link (R74, R75) -/

/-- A dump under way is abandoned with the link (R477). [DEDUCED: notes/assumptions/46] -/
def snareLinkDown (s : State) : State := if s.snr.st = 3 then dumpAbort s else s

def execLinkDown (s : State) : Host.Outcome State Fault Refusal :=
  .next (if s.hst.linkUp then snareLinkDown (linkDown s) else s)

/-- A hot reset, link disable or FLR: the ring state of HST only (R75, R532). -/
def execHotReset (s : State) : Host.Outcome State Fault Refusal := .next (hotReset s)

/-! ### Clocks (R17, R33, R397) -/

/-- Does the device take its clock from the stack and receive it (R492): its own REFCLK is then the standby reference. -/
def stackClocked (s : State) : Bool := (List.range 2).any (fun p => takesClock s p && (sport s p).clk)

/-- REFCLK is declared lost, or the root PLL unlocked (`pll`): SYS_CLK_EVT, the report, Clapper input 11 (R17, R359).
[DEDUCED: notes/assumptions/42] -/
def clockLost (pll : Bool) (s : State) : State :=
  let runs := !pll && stackClocked s
  let s := { s with sys := { s.sys with refclkOk := s.sys.refclkOk && pll, pllLock := s.sys.pllLock && !pll,
                                        clkRun := s.sys.clkRun && runs } }
  clapAssert 11 (report (setEvt s rSYS_CLK_EVT (bitv (b2n pll))) (srcBlk 0 0) 0x0000)

def execRefclkLost (s : State) : Host.Outcome State Fault Refusal := .next (if s.sys.refclkOk then clockLost false s else s)
def execPllUnlock (s : State) : Host.Outcome State Fault Refusal := .next (if s.sys.pllLock then clockLost true s else s)

def clocksOn (s : State) : State := { s with sys := { s.sys with refclkOk := true, pllLock := true, clkRun := true } }

/-- The root PLL locks in boot (R542 step 2): the clocks run, and core 0 runs the ROM (step 3).
[DEDUCED: notes/assumptions/41] -/
def pllLocked (s : State) : State :=
  if held s then s else setCore (clocksOn s) 0 { coreTick s (core s 0) with released := true }

def execPllLock (s : State) : Host.Outcome State Fault Refusal := .next (pllLocked s)

/-- The clock runs again after a loss, and Tocsin captures CLK_LOSS in the first FAB cycle (R397). -/
def clockRecovered (s : State) : State :=
  if s.sys.clkRun || held s then s else tocsinReport 0 (clocksOn s)

def execClockRecovered (s : State) : Host.Outcome State Fault Refusal := .next (snareEval (clockRecovered s))

/-! ### Boot (R85, R539 to R542) -/

/-- The device key pair is usable (R85); a device that has none yet generates it.
[DEDUCED: notes/assumptions/42] -/
def devkeyReady (s : State) : State :=
  if held s then s
  else
    let s := if s.std.devPriv.isNone then newDeviceKey s else s
    { s with aut := { s.aut with devkeyOk := true } }

def execDevkeyOk (s : State) : Host.Outcome State Fault Refusal := .next (devkeyReady s)

/-- The largest image of a target's bank (R538): 1 core, 2 safety. -/
def bankMax (target : Nat) : Nat := if target = 1 then 12582912 else 196608

/-- The first bank of a target: core A or safety A. -/
def bankBase (target : Nat) : Nat := if target = 1 then 0 else 2

def markValid (b : Bank) : Bool := b.mark == 0x5A5AA5A5

/-- The signature of a bank's ENV verifies: under an ACTIVE slot of ceiling ADMIN, or under the Celrov release key (R539).
[DESIGN CHOICE: notes/assumptions/15] -/
def bankSigned (s : State) (b : Bank) : Bool :=
  let slot := rd b.env 34 1
  if slot = 0xFF then ecdsaVerify ((List.range 96).map Config.celrovKey) (slice b.env 0 384) (slice b.env 384 96)
  else slotActive s slot && (keySlot s slot).ceil == 3 &&
    ecdsaVerify ((keySlot s slot).key.getD []) (slice b.env 0 384) (slice b.env 384 96)

/-- Is a bank eligible for a target (R539). -/
def bankEligible (s : State) (target : Nat) (b : Bank) : Bool :=
  markValid b && rd b.env 35 1 == target && decide (rd b.env 36 4 ≤ bankMax target) && bankSigned s b &&
  sha384 (fit (rd b.env 36 4) b.image) == slice b.env 56 48 && decide (s.std.arb.toNat ≤ rd b.env 48 8) &&
  (rd b.env 48 8 == s.std.arb.toNat || decide (b.tries < 3))

/-- The banks of a target in descending GEN order, A first where they are equal.
[DEDUCED: notes/assumptions/41] -/
def bankOrder (s : State) (target : Nat) : List Nat :=
  let i := bankBase target
  if (bank s i).gen < (bank s (i + 1)).gen then [i + 1, i] else [i, i + 1]

/-- The bank that a ROM boots, and whether it is a fallback: not the one with the highest valid GEN (R539). -/
def bankPick (s : State) (target : Nat) : Option (Nat × Bool) :=
  let o := bankOrder s target
  ((o.find? (fun i => bankEligible s target (bank s i))).map (fun i =>
    (i, decide ((o.find? (fun i => markValid (bank s i))) ≠ some i))))

/-- The hand-over to the image of bank `i` (R540): TRIES counts while the version exceeds the anti-rollback counter. -/
def bankHandOver (i : Nat) (s : State) : State :=
  let b := bank s i
  if s.std.arb.toNat < rd b.env 48 8 then setBank i { b with tries := min 3 (b.tries + 1) } s else s

/-- No bank is eligible, or the flash does not respond (R541); the first failure stands.
[DEDUCED: notes/assumptions/41] -/
def bootFail (code : Nat) (s : State) : State :=
  let w := rg s rSYS_BOOT_STAT
  if fld w 10 8 = 0 then wr s rSYS_BOOT_STAT (w ||| u32 (code * 2 ^ 8)) else s

/-- The core ROM boots an image (R539 to R542): copied to 0x4000_0000, core 0 enters it in M mode, FW_RUN is set. -/
def coreImageStart (flashOk : Bool) (s : State) : State :=
  if held s || !s.sys.pllLock || bit (rg s rSYS_BOOT_STAT) 6 then s
  else if !flashOk then bootFail 3 s
  else match bankPick s 1 with
    | none => bootFail 1 s
    | some (i, fb) =>
      let b := bank s i
      let s := bankHandOver i s
      let w := pack [(0, i), (1, b2n fb), (2, b2n (rd b.env 34 1 = 0xFF)), (6, 1)]
      let s := wr s rSYS_BOOT_STAT (rg s rSYS_BOOT_STAT ||| w)
      let s := { s with sys := { s.sys with cver := u64 (rd b.env 48 8) },
                        mem := writeBytes s.mem 0x40000000 (fit (rd b.env 36 4) b.image) }
      setCore s 0 { coreTick s (core s 0) with pc := 0x40000000, priv := 3, released := true }

/-- `flashOk`: the boot flash responds. -/
def execCoreImageStart (flashOk : Bool) (s : State) : Host.Outcome State Fault Refusal := .next (coreImageStart flashOk s)

/-- The safety ROM starts an image (R539 to R542). Without one the safety processor's failure is reported (R546).
[DEDUCED: notes/assumptions/41] -/
def safetyImageStart (flashOk : Bool) (s : State) : State :=
  if held s || !s.sys.pllLock || bit (rg s rSYS_BOOT_STAT) 7 then s
  else match (if flashOk then bankPick s 2 else none) with
    | none =>
      clapAssert 10 (setEvt (bootFail (if flashOk then 2 else 3) s) rPRT_EVT (bitv 3))
    | some (i, fb) =>
      let b := bank s i
      let s := bankHandOver i s
      let w := pack [(3, i - 2), (4, b2n fb), (5, b2n (rd b.env 34 1 = 0xFF)), (7, 1)]
      let s := wr s rSYS_BOOT_STAT (rg s rSYS_BOOT_STAT ||| w)
      { s with sys := { s.sys with sver := u64 (rd b.env 48 8) }, prt := { s.prt with sp := true } }

def execSafetyImageStart (flashOk : Bool) (s : State) : Host.Outcome State Fault Refusal := .next (safetyImageStart flashOk s)

/-! ### The set-up window (R46, R86, R360, R540) -/

/-- The reasons for which SYS_SETUP_DONE is refused, at their bits of SYS_SETUP_STAT (R46, R77). -/
def setupWhyBits (s : State) : U32 :=
  pack [(2, b2n (!(List.range 8).any (slotActive s))), (3, b2n (!ringEn s 0)), (4, b2n (!ringEn s 4))]

/-- The anti-rollback counter advances and the TRIES of the running images are cleared (R540). -/
def rollbackAdvance (s : State) : State :=
  let st := rg s rSYS_BOOT_STAT
  let v := min s.sys.cver.toNat s.sys.sver.toNat
  let c := if bit st 0 then 1 else 0
  let p := if bit st 3 then 3 else 2
  let s := setBank p { bank s p with tries := 0 } (setBank c { bank s c with tries := 0 } s)
  { s with std := { s.std with arb := u64 (max s.std.arb.toNat v) } }

/-- A write of SYS_SETUP_DONE (R46): any value but 1 is ignored, as is a write while the window is closed. -/
def setupDoneWrite (v : U32) (s : State) : State :=
  if v ≠ 1 ∨ s.sys.setupDone then s
  else
    let why := setupWhyBits s
    if why ≠ 0 then { s with sys := { s.sys with setupWhy := why ||| 2 } }
    else
      let s := rollbackAdvance { s with sys := { s.sys with setupDone := true, setupWhy := 0 }, hrw := { s.hrw with gridDue := true } }
      let s := if s.std.vault = 1 then { s with std := { s.std with vault := 2 } } else s
      prtSetupDone { s with stk := { s.stk with crcOn := true } }

def execSetUpDoneWrite (bus : Bus) (v : U32) (s : State) : Host.Outcome State Fault Refusal :=
  guardWrite s bus rSYS_SETUP_DONE v (setupDoneWrite v)

/-! ### START (R36, R535) -/

/-- Is START refused. -/
def startRefused (s : State) : Bool :=
  let w := rg s rSYS_FRAME_CFG
  decide (fld w 1 0 = 3) || !decide (2 ≤ fld w 13 8 ∧ fld w 13 8 ≤ 40) || !decide (4 ≤ fld w 19 16 ∧ fld w 19 16 ≤ 8) ||
  !s.sys.pllLock || !tickReady s

/-- Does an arm's map keep within the limits of the frame length in force (R20). -/
def armFits (s : State) (m : ArmMap) : Bool :=
  decide (m.ranges.foldl (fun a r => a + r.2) 0 ≤ armCellMax s) && m.ranges.all (fun r => decide (r.1 % 256 + r.2 ≤ ringCells s))

/-- A write of START (R36): the lengths are latched, and the first frame leaves at the next whole multiple of L. -/
def frameStart (v : U32) (s : State) : State :=
  if !bit v 0 || s.sys.running then s
  else if startRefused s then { s with sys := { s.sys with cfgErr := true } }
  else
    let w := rg s rSYS_FRAME_CFG
    let s := { s with sys := { s.sys with cfgErr := false, running := true, flen := fld w 1 0, period := fld w 13 8,
                                          la := fld w 19 16 } }
    { s with sys := { s.sys with nextJ := now s / lTicks s + 1 },
             cmd := { s.cmd with arms := s.cmd.arms.filter (fun p => armFits s p.2) } }

def execFrameStartWrite (bus : Bus) (v : U32) (s : State) : Host.Outcome State Fault Refusal :=
  guardWrite s bus rSYS_FRAME_CTL v (frameStart v)

/-! ### Registers (R33, R35, R38, R77, R547, R548) -/

/-- The look-ahead in force on an arm, for SYS_ADELAYa. -/
def adelay (s : State) (a : Nat) : U32 :=
  if armMapped s a then let la := laAt s a (epochNow s); pack [(0, la), (8, la + 2)] else 0

/-- The SYS and HST registers that show structured state. [DEDUCED: notes/assumptions/41] -/
def sysRead (s : State) (off : Nat) : Option U32 :=
  if off = rSYS_CLK_STAT then some (pack [(0, b2n s.sys.refclkOk), (1, b2n s.sys.pllLock), (2, b2n s.sys.clkRun)])
  else if off = rSYS_FRAME_CTL ∨ off = rSYS_RST_CTL then some 0
  else if off = rSYS_FRAME_STAT then
    let las := ((List.range 12).filter (armMapped s)).map (fun a => (a, laAt s a (epochNow s)))
    some (pack [(0, b2n s.sys.running), (1, b2n s.sys.cfgErr), (8, if s.sys.running then epochNow s % pFrames s else 0),
                (16, las.foldl (fun m p => max m p.2) 0), (20, bitsOf 12 (fun a => armAt7 s a (epochNow s)))])
  else if off = rSYS_EPOCH_LO then some (u32 (epochNow s))
  else if rSYS_ADELAY 0 ≤ off ∧ off < rSYS_ADELAY 12 then some (adelay s ((off - rSYS_ADELAY 0) / 4))
  else if off = rSYS_SETUP_STAT then
    some (pack [(0, b2n s.sys.setupDone), (5, b2n s.sys.reopened)] ||| s.sys.setupWhy)
  else if off = rSYS_RST_LONG then some (pack [(0, s.std.longCnt), (16, s.std.longLast)])
  else if off = rSYS_BOOT_STAT then
    let w := rg s off
    some (w ||| pack [(16, (bank s (b2n (bit w 0))).tries), (18, (bank s (2 + b2n (bit w 3))).tries)])
  else if off = rSYS_BOOT_CVER_LO then some (lo32 s.sys.cver)
  else if off = rSYS_BOOT_SVER_LO then some (lo32 s.sys.sver)
  else none

def hstRead (s : State) (off : Nat) : Option U32 :=
  if off = rHST_STAT then some (pack [(0, b2n s.hst.linkUp), (1, s.hst.speed), (4, s.hst.width)])
  else if rHST_CMD_BASE_LO 0 ≤ off ∧ off < rHST_CMD_BASE_LO 4 then
    let r := (off - rHST_CMD_BASE_LO 0) / 0x40
    match off % 0x40 with
    | 0x0C => some (cmdRing s r).pi
    | 0x10 => some (cmdRing s r).ci
    | 0x14 => some (pack [(0, cmdRingState s r), (8, stagedSlots s r)])
    | 0x2C => some (cplRing s r).pi
    | 0x30 => some (cplRing s r).ci
    | _ => none
  else if off = rHST_EVT_PI then some s.hst.evtPi
  else if off = rHST_EVT_CI then some s.hst.evtCi
  else if off = rHST_SNP_PI then some s.hst.snpPi
  else if off = rHST_SNP_CI then some s.hst.snpCi
  else none

end Sys2Proof.Machine
end

