-- ==== Sys2Proof/Machine/Replica.lean ====
section
/-! DEFINITION. The messages that a stack port receives: the replica, effects and their acknowledgements, the Harrow and ring mirrors,
and PTP_BASE (R175, R176, R489, R493, R497, R499, R500). -/

namespace Sys2Proof.Machine

/-- A message of a kind is taken where its port is UP and no other port has delivered its SEQ (R489). -/
def stkTake (p kind : Nat) (sq : U8) (f : State → State) (s : State) : State :=
  if (sport s p).st ≠ 2 then s
  else
    let r := firstCopy p kind sq.toNat s
    if r.1 then f r.2 else r.2

/-- Does the device keep a replica and a mirror: a SHADOW. -/
def isShadow (s : State) : Bool := decide (stkMode s = 1) && decide (s.stk.role = 1)

/-- The epoch whose low 32 bits are `lo`, at or before the current one. -/
def fullEpoch (s : State) (lo : Nat) : Nat := epochNow s - (epochNow s + 2 ^ 32 - lo % 2 ^ 32) % 2 ^ 32

/-- The points that words carry, two to a word. -/
def unpair (ws : List U64) : List U32 := ws.flatMap (fun w => [lo32 w, hi32 w])

/-- A table of 32-bit values by index. -/
def tblOf (d : U32) (vs : List U32) : Tbl U32 := ((List.range vs.length).zip vs).foldl (fun t p => tset d t p.1 p.2) []

/-! ### STATION and CELLS (R175, R176, R497) -/

/-- A STATION message: the station points, the firmware points, and PTP_BASE from the header points. -/
def stationReceive (epoch : Nat) (ws : List U64) (s : State) : State :=
  if !isShadow s then s
  else
    let pts := unpair ws
    let st := tblOf 0 (pts.take 3272)
    let g (i : Nat) : Nat := (tget 0 st i).toNat
    let base : Int := (g 4 + 2 ^ 32 * g 5 : Nat) * ptpSecUnit + (g 6 : Nat) * ptpNsUnit - (g 2 + 2 ^ 32 * g 3 : Nat) * ptpTickUnit
    { s with
      grn := { s.grn with repl := { s.grn.repl with
        station := st, fw := tblOf stale (pts.drop 3272), epoch := g 0 + 2 ^ 32 * g 1, stn := some (fullEpoch s epoch) } },
      tim := { s.tim with base := base, based := true } }

def execStationReceive (p : Fin 2) (sq : U8) (epoch : U32) (ws : List U64) (s : State) : Host.Outcome State Fault Refusal :=
  .next (snareEval (readyStep (stkTake p 2 sq (stationReceive epoch.toNat ws) s)))

/-- A CELLS message: records from cell `first` up, wrapping after the last cell.
[DEDUCED: notes/assumptions/34] -/
def cellsReceive (first : Nat) (ws : List U64) (s : State) : State :=
  if !isShadow s then s
  else
    let recs := unpair ws
    let cells := ((List.range recs.length).zip recs).foldl
      (fun t p => tins ((first + p.1) % 16384) (p.2.toNat, epochNow s) t) s.grn.repl.cells
    { s with grn := { s.grn with repl := { s.grn.repl with cells := cells } } }

def execCellsReceive (p : Fin 2) (sq : U8) (first : Fin 16384) (ws : List U64) (s : State) : Host.Outcome State Fault Refusal :=
  .next (snareEval (readyStep (stkTake p 3 sq (cellsReceive first ws) s)))

/-! ### EFFECT and ACK (R489, R497, R499) -/

/-- An EFFECT message: the effect joins the pending effects of the shadow, with the master's E, and is acknowledged. -/
def effectReceive (sq : Nat) (e : Nat) (env : Bytes) (s : State) : State :=
  if !isShadow s then s
  else
    match parsePayload (eOp env) (slice env 32 (eLen env)) with
    | none => s
    | some pl =>
      if !carried (eOp env) then s
      else
        let id : CmdId := { seq := eSeq env, session := eSid env, flow := eFlow env, epochReq := eEpoch env, ord := s.cmd.ord }
        let s := { s with cmd := { s.cmd with ord := s.cmd.ord + 1 } }
        let x : Eff := { id := id, op := eOp env, epoch := e, payload := pl, entry := eOp env != 0x0202, tc := now s,
                         la := if eOp env = 0x0202 then laMax s (touchedArms s pl) (frameC s (now s)) else 0, repl := true, bytes := fit 224 env }
        stkSend 5 (epochNow s) [u64 sq] (enqueue x s)

def execEffectReceive (p : Fin 2) (sq : U8) (e : U64) (env : Bytes) (s : State) : Host.Outcome State Fault Refusal :=
  .next (snareEval (stkTake p 4 sq (effectReceive sq.toNat e.toNat env) s))

/-- An ACK names the SEQ of an EFFECT. [DESIGN CHOICE: notes/assumptions/36] -/
def ackReceive (q : Nat) (s : State) : State :=
  let s := { s with cmd := { s.cmd with pend := s.cmd.pend.map (fun (e : Eff) => if e.ack = some q then { e with ack := none } else e) } }
  let hit := s.stk.waits.filter (fun (w : AckWait) => w.seqno == q)
  hit.foldl (fun s w => ackRelease false w s) { s with stk := { s.stk with waits := s.stk.waits.filter (fun w => w.seqno != q) } }

def execAckReceive (p : Fin 2) (sq eff : U8) (s : State) : Host.Outcome State Fault Refusal :=
  .next (snareEval (stkTake p 5 sq (ackReceive eff.toNat) s))

/-- Four frames have passed without the ACK of an EFFECT: its command completes with NOT_REPL.
[DESIGN CHOICE: notes/assumptions/36] -/
def ackTimeout (s : State) : State :=
  let late (f : Nat) : Bool := decide (f + 4 ≤ epochNow s)
  let s := { s with cmd := { s.cmd with pend := s.cmd.pend.map (fun (e : Eff) =>
    if e.ack.isSome && late e.sent then { e with ack := none, notRepl := true } else e) } }
  let hit := s.stk.waits.filter (fun (w : AckWait) => late w.frame)
  hit.foldl (fun s w => ackRelease true w s) { s with stk := { s.stk with waits := s.stk.waits.filter (fun w => !late w.frame) } }

def execAckTimeout (s : State) : Host.Outcome State Fault Refusal := .next (snareEval (ackTimeout s))

/-! ### The mirrors (R489, R500) -/

/-- Records that the mirror queue of 256 KiB holds, at 8 bytes each. -/
def mirrorCap : Nat := 32768

/-- A HARROW message waits for the FSTART of its frame (R506), or finds the queue full: a mirror gap. -/
def harrowMsg (full : Bool) (recs : List HarrowRec) (s : State) : State :=
  if !isShadow s then s
  else
    let used := s.stk.mirrorQ.foldl (fun n m => n + m.recs.length) 0
    if mirrorCap < used + recs.length then
      setEvt (count { s with stk := { s.stk with mirrorGap := true } } rSTK_MIRROR_GAP) rSTK_EVT (bitv 9)
    else { s with stk := { s.stk with mirrorQ := s.stk.mirrorQ ++ [{ full := full, recs := recs }] } }

def execHarrowMsgReceive (p : Fin 2) (sq : U8) (full : Bool) (recs : List HarrowRec) (s : State) : Host.Outcome State Fault Refusal :=
  .next (snareEval (readyStep (stkTake p 6 sq (harrowMsg full recs) s)))

/-- A RING message: STATE, N and FUR_RINGr_WRAP of ring `r`. -/
def ringMsg (r st n : Nat) (wrap : U32) (s : State) : State :=
  if !isShadow s then s
  else { s with stk := { s.stk with rings := tset {} s.stk.rings r { st := st, n := n, wrap := wrap } } }

def execRingMsgReceive (p : Fin 2) (sq : U8) (r : Fin 64) (st : BitVec 3) (n : Fin 257) (wrap : BitVec 20) (s : State) :
    Host.Outcome State Fault Refusal :=
  .next (snareEval (readyStep (stkTake p 7 sq (ringMsg r st.toNat n (wrap.setWidth 32)) s)))

/-! ### PTP and errors (R457, R489, R492, R493) -/

/-- A downstream device in a chain takes PTP_BASE from its UP port. -/
def ptpMsg (p : Nat) (base : Int) (s : State) : State :=
  if stkMode s = 2 ∧ s.stk.id ≠ 0 ∧ p = 0 then { s with tim := { s.tim with base := base, based := true } } else s

def execPtpMsgReceive (p : Fin 2) (sq : U8) (sec : BitVec 48) (ns : U32) (frac : U16) (s : State) : Host.Outcome State Fault Refusal :=
  .next (stkTake p 8 sq (ptpMsg p (sec.toNat * ptpSecUnit + ns.toNat * ptpNsUnit + frac.toNat * 5)) s)

/-- A PTP second begins: the RTC is loaded (R457), and a chain sends PTP_BASE downstream (R489). -/
def execPtpSecond (s : State) : Host.Outcome State Fault Refusal :=
  let s := ptpSecond s
  .next (if stkMode s = 2 then
      stkSend 8 (epochNow s) [u64 (ptpSec s.tim.base), u64 (ptpNs s.tim.base + ptpFrac s.tim.base * 2 ^ 32)] s
    else s)

/-- A message whose CRC fails is discarded and counted. -/
def execStkMessageCrcFail (p : Fin 2) (s : State) : Host.Outcome State Fault Refusal :=
  .next (if (sport s p).st = 0 then s else count s (rSTK_PORT_ERR p))

end Sys2Proof.Machine
end

