-- ==== Sys2Proof/Machine/Frame.lean ====
section
/-! DEFINITION. The frame boundary: what the GX16K does at F_j, and at a control-period boundary besides (R21 to R24, R199). -/

namespace Sys2Proof.Machine

/-- What holds at F_j of the epoch header and the arms, for the image of epoch `j` (R152, R153). -/
def headerPush (j : Nat) (s : State) : State :=
  let t := ptpAt s (now s)
  let h : Hdr := { k := j, tick := s.tick, sec := ptpSec t, ns := ptpNs t, tstat := timeStat s, maps := s.cmd.arms,
                   arms := (idxs 12 (armMapped s)).foldl (fun t a => tset 0 t a (armStat s j a)) [] }
  { s with grn := { s.grn with hdrs := s.grn.hdrs.drop (s.grn.hdrs.length - 63) ++ [h] } }

/-- The points of the sample before the one at F_j stay, for the epochs that have not closed (R155, R156): before anything that takes
effect at F_j. -/
def samplePush (j : Nat) (s : State) : State :=
  let h : SampleHist := { m := j - pFrames s, loops := s.lpe.loops, afe := afePoints s }
  { s with grn := { s.grn with hist := s.grn.hist.drop (s.grn.hist.length - 15) ++ [h] } }

/-- The aggregates of arm `a` in the committed image (R24, R303). -/
def aggOf (img : Image) (a : Nat) : AggIn :=
  match tget [] img.arms a with
  | [] => {}
  | p =>
    { vsum := p.getD 5 0, vmean := p.getD 6 0, vmin := p.getD 7 0, vmax := p.getD 8 0, nLive := (p.getD 2 0).toNat,
      stale := p.getD 6 stale == stale }

/-- The Harrow values of arm `a` (R269, R31): those of its latest commanded epoch. -/
def hrwOf (s : State) (j a : Nat) : HrwIn :=
  if armMapped s a then
    let h := harm s a
    { level := f32Add (f32OfNat h.offer.nIns) h.offer.rem, u := h.offer.u, sat := h.offer.sat, adelay := laAt s a j + 2 }
  else {}

/-- The inputs of the sample at F_j (R24, R303, R305). -/
def loopInputs (j : Nat) (s : State) : LoopInputs :=
  let img := s.grn.commit
  { m := j, p := pFrames s,
    afe := (List.range 32).foldl (fun t c => tset {} t c (chan s c).lat) [],
    agg := (List.range 12).foldl (fun t a => tset {} t a (aggOf img a)) [],
    hrw := (List.range 12).foldl (fun t a => tset {} t a (hrwOf s j a)) [],
    fw := img.fw.map (fun p => (p.1, { val := p.2, valid := p.2 != stale, since := img.fwSince })),
    imgEpoch := img.k,
    blk := bitsOf 12 (fun a => armMapped s a && groupBlocked s (armMap s a).group),
    g := testGen s j }

/-- What a control-period boundary adds (R24, R299, R347): the AFE latches, sequencers start, the loops sample; a shadow's loops do
not run (R497). -/
def periodBoundary (j : Nat) (s : State) : State :=
  let s := startEvents 2 (afeLatch j s)
  let s := if s.stk.role = 1 then s else loopSignals false (lpeSample (loopInputs j s) s)
  intEdge s 97

/-- The buckets of the Ethernet ports (R391, R459). -/
def ethBuckets (n : Nat) (s : State) : State :=
  let p := eth s n
  if p.retired || !(p.link || p.error) then s
  else
    let q := bucketFrame 3 n p.error (setEth s n { p with error := false })
    if q.1 then retireElement (srcBlk 12 (1 + n)) (setEvt (setEth q.2 n { eth q.2 n with retired := true }) rTIM_EVT (bitv 5))
    else q.2

/-- The N_INS and ISIGN signals of the builds that frame `j` carries (R463). -/
def armSignals (j : Nat) (s : State) : State :=
  (List.range 12).foldl (fun s a =>
    let h := harm s a
    if armMapped s a && decide (h.frame = j) then
      snareSig (now s) 4 (2 * a + 1) h.isign (snareSig (now s) 4 (2 * a) h.nIns s)
    else s) s

/-- What Granary and the commit watchdog do at F_j (R160, R365): the first frame is the first epoch to close. -/
def granaryBoundary (j : Nat) (s : State) : State :=
  let g := s.grn
  { s with grn := { g with next := if g.next.isNone && drives s then some j else g.next },
           prt := { s.prt with noCommit := if g.valid then s.prt.noCommit + 1 else 0 } }

/-- F_j, once time has reached it. -/
def frameAt (j : Nat) (s : State) : State :=
  let sample := decide (j % pFrames s = 0)
  let s := takeoverFrame j (bootStepApply (ptpFirstFrame s))
  let s := (List.range 12).foldl (handOff j) s
  let s := gridsBoundary j s
  let s := headerPush j (boundaryEffects j sample (if sample then samplePush j s else s))
  let s := if drives s then furLaunch j s else s
  let s := startEvents 1 (granaryBoundary j s)
  let s := if sample then periodBoundary j s else s
  let s := stkBoundary j (ethBuckets 1 (ethBuckets 0 s))
  let s := armSignals j (snareEvent (now s) 11 3 j s)
  tlyDev 0x47 1 (intEdge s 96)

/-- The next frame boundary: frames are generated, and time reaches it (R21). -/
def frameBoundary (s : State) : State :=
  if !s.sys.running || !s.sys.clkRun then s
  else
    let j := s.sys.nextJ
    frameAt j (advanceTo { s with sys := { s.sys with nextJ := j + 1 } } (j * lTicks s))

def execFrameBoundary (s : State) : Host.Outcome State Fault Refusal := .next (snareEval (frameBoundary s))

end Sys2Proof.Machine
end

