-- ==== Sys2Proof/Machine/Registers.lean ====
section
/-! DEFINITION. Register access as a whole: what a register reads, and what a write of any register does (R5, R9 to R14, R39). -/

namespace Sys2Proof.Machine

/-! ### Reads -/

/-- The core that drives an access. -/
def busCore (bus : Bus) : Option Nat := match bus with | .core c => some c.val | _ => none

/-- The value of a register that shows structured state rather than a stored word, by block. -/
def liveRead (s : State) (bus : Bus) (off : Nat) : Option U32 :=
  match off / 0x100000 with
  | 0 => sysRead s off
  | 1 => hstRead s off
  | 2 => autRead s off
  | 3 => cpuRead s off
  | 4 => tskRead s (busCore bus) off
  | 5 => cpuRead s off
  | 6 => lpeRead s off
  | 7 => if off < 0x00704000 then hrwRead s off else carRead s off
  | 8 => furRead s off
  | 9 => grnRead s off
  | 10 => afeRead s off
  | 11 => stkRead s off
  | 12 => timRead s (busCore bus).isSome off
  | 13 => prtRead s off
  | 14 => fltRead s off
  | 15 => snrRead s off
  | 16 => tlyRead s off
  | 17 => dbgRead s off
  | _ => none

/-- What a 32-bit read returns (R5, R12): 0 from an offset that no map lists and from a write-only register. -/
def busRead (s : State) (bus : Bus) (off : Nat) : U32 :=
  match rowOf off with
  | none => 0
  | some row =>
    match row.ty with
    | .wo => 0
    | _ => (liveRead s bus off).getD (rg s off)

/-- The high words that a read of the low word at `off` latches, with the values they take (R39 and the register maps).
[DEDUCED: notes/assumptions/51] -/
def latched (s : State) (off : Nat) : List (Nat × U32) :=
  if off = rSYS_EPOCH_LO then [(rSYS_EPOCH_HI, u32 (epochNow s / 2 ^ 32))]
  else if off = rSYS_BOOT_CVER_LO then [(rSYS_BOOT_CVER_HI, hi32 s.sys.cver)]
  else if off = rSYS_BOOT_SVER_LO then [(rSYS_BOOT_SVER_HI, hi32 s.sys.sver)]
  else if off = rAUT_RTC_LO then [(rAUT_RTC_HI, u32 (s.std.rtcSec.toNat / 2 ^ 32))]
  else if off = rAUT_ARB_LO then [(rAUT_ARB_HI, hi32 s.std.arb)]
  else if off = rGRN_COMMIT_LO then [(rGRN_COMMIT_HI, u32 (s.grn.commit.k / 2 ^ 32))]
  else if off = rGRN_MISS_LAST_LO then [(rGRN_MISS_LAST_HI, hi32 s.grn.missLast)]
  else if off = rLPE_CAP_EPOCH_LO then [(rLPE_CAP_EPOCH_HI, hi32 s.lpe.cap.epoch)]
  else if off = rSTK_TAKE_EPOCH_LO then [(rSTK_TAKE_EPOCH_HI, u32 (s.stk.takeEpoch / 2 ^ 32))]
  else if off = rTIM_PTP_NS then
    let x := ptpAt s (now s)
    [(rTIM_PTP_SEC_LO, u32 (ptpSec x)), (rTIM_PTP_SEC_HI, pack [(0, ptpSec x / 2 ^ 32), (16, ptpFrac x)])]
  else if rTLY_CWIN_LO 0 ≤ off ∧ off < rTLY_CWIN_LO 8 ∧ off % 8 = 0 then [(off + 4, tlyHi s off)]
  else if rTLY_DEV_LO 0 ≤ off ∧ off < rTLY_DEV_LO 8 ∧ off % 16 = 4 then [(off + 4, tlyHi s off)]
  else []

/-- What a read of the register at `off` latches (R39). -/
def latchPair (off : Nat) (s : State) : State := (latched s off).foldl (fun t p => wr t p.1 p.2) s

/-- A read of any register: the data, and the high words latched where it is the low word of a latched pair (R39).
[DEDUCED: notes/assumptions/51] -/
def pairRead (bus : Bus) (off : Nat) (s : State) : State :=
  latchPair off { s with rdata := u64 (busRead s bus off).toNat }

/-- A read of an RC register returns its value and clears it; the debug port's read clears nothing (R12, R525). TSK_WHY is the reading
core's (R428), and the two pop registers of an Ethernet port pop (R446, R450).
[DEDUCED: notes/assumptions/10] -/
def rcRead (bus : Bus) (off : Nat) (s : State) : State :=
  if off = rTIM_ETH_RX_POP 0 then rxPop bus 0 s
  else if off = rTIM_ETH_RX_POP 1 then rxPop bus 1 s
  else if off = rTIM_ETH_TXTS_ID 0 then txtsPop bus 0 s
  else if off = rTIM_ETH_TXTS_ID 1 then txtsPop bus 1 s
  else
    let t := pairRead bus off s
    match bus, rowOf off with
    | .debug, _ => t
    | _, none => t
    | _, some row =>
      match row.ty with
      | .rc =>
        if off = rTSK_WHY then
          (match busCore bus with | some c => setPort t c { port t c with whyPre := false, whyCmd := false } | none => t)
        else wr t off 0
      | _ => t

/-- A read transaction of debug port register `a` (R520, R521): FAULT where the unlock does not reach it, else OK and its data.
[DEDUCED: notes/assumptions/11] -/
def dpReadReg (a : Nat) (s : State) : State :=
  let s := dpBegin s
  if dpWritable s.dbg.level a || decide (a < 2) || decide (4 ≤ a ∧ a < 8) then
    { setAck ackOk s with rdata := u64 (dpRead s a).toNat }
  else setAck ackFault s

/-- A 64-bit read is two 32-bit reads, the lower offset first (R10). -/
def wideRead (f : Nat → State → State) (off : Nat) (s : State) : State :=
  let t := f off s
  let u := f (off + 4) t
  { u with rdata := join64 (lo32 t.rdata) (lo32 u.rdata) }

/-- A read access at an offset of BAR0, or from 0x2000000 up of BAR2, which takes only 32-bit accesses (R10, R55, R56). -/
def readAcc (bus : Bus) (off : Nat) (wide : Bool) (s : State) : State :=
  if off < 0x2000000 then (if wide then wideRead (rcRead bus) off s else rcRead bus off s)
  else if wide then badAccess true s
  else { s with rdata := u64 (bar2Read s (off - 0x2000000)).toNat }

/-- A read access (R12): the data of a read of any register, with the clearing of an RC register. The debug port reads its own registers
below 0x100. [DEDUCED: notes/assumptions/11] -/
def execRcRead (bus : Bus) (off : Fin 0x2010000) (wide : Bool) (s : State) : Host.Outcome State Fault Refusal :=
  match bus with
  | .debug => .next (if off.val < 0x100 then dpReadReg off s else rcRead .debug off s)
  | b => .next (busLoad b (readAcc b off wide s))

def execLatchedPairRead (bus : Bus) (off : Fin 0x2000000) (wide : Bool) (s : State) : Host.Outcome State Fault Refusal :=
  .next (busLoad bus (if wide then wideRead (pairRead bus) off s else pairRead bus off s))

/-! ### W1C registers -/

/-- Does any of the `n` elements satisfy `p`, as the bit `i` of a word. -/
def anyBit (i n : Nat) (p : Nat → Bool) : Nat × Nat := (i, b2n ((List.range n).any p))

/-- The bits of an event register whose cause is present (R12): those whose report has a state as its cause (the Tocsin tables'
last column), while that state lasts. [DEDUCED: notes/assumptions/9] -/
def evtLive (s : State) (off : Nat) : U32 :=
  if off = rSYS_CLK_EVT then pack [(0, b2n (!s.sys.refclkOk)), (1, b2n (!s.sys.pllLock))]
  else if off = rHST_EVT then pack [(0, b2n (!s.hst.linkUp)), anyBit 1 4 (fun r => (cmdRing s r).err)]
  else if off = rAUT_EVT then pack [(0, b2n (s.std.latch0 || s.std.latch1)), (2, b2n (s.std.vault == 4))]
  else if off = rTSK_EVT then pack [(3, b2n (s.tsk.items.any (fun p => p.2.used && p.2.timedOut)))]
  else if off = rLPE_EVT then
    pack [anyBit 1 128 (fun l => (loop s l).lost), anyBit 2 128 (fun l => (loop s l).frozen),
          anyBit 3 128 (fun l => (loop s l).fallback == 3)]
  else if off = rHRW_EVT then pack [anyBit 1 12 (fun a => (harm s a).short)]
  else if off = rHRW_CAR_EVT then pack [(3, b2n s.hrw.frozen)]
  else if off = rFUR_EVT then
    pack [anyBit 0 64 (fun r => (ring s r).st == 5), anyBit 1 64 (fun r => (ring s r).island),
          anyBit 2 64 (fun r => (ring s r).st == 7), anyBit 5 64 (fun r => (ring s r).frameLoss),
          anyBit 7 64 (fun r => (ring s r).warn)]
  else if off = rTIM_EVT then
    pack [(0, b2n s.tim.stepPend.isSome), (2, b2n s.tim.holdover),
          anyBit 6 2 (fun n => ethEn s n && !(eth s n).link)]
  else if off = rPRT_EVT then
    pack [(0, b2n (decide (s.prt.latched ≠ 0))), (1, b2n (decide (s.prt.demand ≠ 0))), (2, b2n (bit s.prt.latched 9)),
          (3, b2n (bit s.prt.latched 10)), (4, b2n (bit s.prt.latched 13)), anyBit 5 8 (fun n => chanState s n == 8),
          anyBit 6 8 (fun n => chanState s n == 7), anyBit 7 8 (fun n => chanState s n == 7)]
  else if off = rSTK_EVT then
    pack [anyBit 0 2 (fun p => (tget {} s.stk.ports p).fell), anyBit 6 2 (fun p => (tget {} s.stk.ports p).mismatch), (7, b2n s.stk.idConflict)]
  else if off = rDBG_EVT then pack [anyBit 2 16 (fun c => (core s c).halted)]
  else 0

/-- Every core's interrupt controller latches what it presents (R416), before a write can take the input away (R421).
[DEDUCED: notes/assumptions/48] -/
def latchAll (s : State) : State := (List.range 16).foldl latchCore s

/-- The bits written as 1 clear; a bit whose cause is present sets again (R12).
[DEDUCED: notes/assumptions/9] -/
def w1c (off : Nat) (v : U32) (s : State) : State :=
  let s := latchAll s
  let old := rg s off
  wr s off ((old &&& ~~~ v) ||| (old &&& evtLive s off))

/-- A write of a W1C register; of another register this command is none. -/
def execW1cWrite (bus : Bus) (off : Fin 0x2000000) (v : U32) (s : State) : Host.Outcome State Fault Refusal :=
  match rowOf off with
  | some row => if row.ty = .w1c then guardWrite s bus off v (w1c off v) else .next s
  | none => .next s

/-! ### Writes -/

/-- The write of the DEVICE and FRAME bits of SYS_RST_CTL (R532, R547). -/
def rstCtl (v : U32) (s : State) : State := if bit v 0 then softAssert s else if bit v 1 then frameReset s else s

/-- A write of a word of the TSK port of core `c` (R429, R430). -/
def tskPortWrite (c off : Nat) (v : U32) (s : State) : State :=
  if off = rTSK_OP then tskOp c v s
  else if off = rTSK_ARG_LO then setPort s c { port s c with argLo := v }
  else setPort s c { port s c with argHi := v }

/-- A write of TIM_ETHn_CFG: EN cleared restores a retired port (R459). -/
def ethCfg (n : Nat) (v : U32) (s : State) : State :=
  let s := ethCfgWrite n v s
  if bit v 0 then s else bucketRestore 3 n s

/-- A word of the transmit buffer (R446). -/
def txWord (n w : Nat) (v : U32) (s : State) : State := setEth s n { eth s n with txbuf := tset 0 (eth s n).txbuf w v }

/-- The ring whose CFG, BASE_LO or BASE_HI register stands at an offset of the HST block. -/
def ringAt (off : Nat) : Option Nat :=
  (List.range 10).find? (fun q => off = ringCfg q || off + 4 = ringCfg q || off + 8 = ringCfg q)

/-- The effect of a write that reaches a register, by block; a register that none of the blocks names stores its writable bits.
[DEDUCED: notes/assumptions/49] -/
def writeEffect (bus : Bus) (off : Nat) (v : U32) (s : State) : State :=
  match off / 0x100000 with
  | 0 =>
    if off = rSYS_FRAME_CTL then frameStart v s
    else if off = rSYS_SETUP_DONE then setupDoneWrite v s
    else if off = rSYS_RST_CTL then rstCtl v s
    else if off = rSYS_CORE_RUN then coreRun v s
    else plainWrite off v s
  | 1 =>
    if off = rHST_RESTART then hstRestart v s
    else
      match ringAt off with
      | some q => if off = ringCfg q then ringCfgWrite q v s else ringBaseWrite q off v s
      | none => plainWrite off v s
  | 2 =>
    if off = rAUT_AKEY_CMD then akeyCommit v s
    else if off = rAUT_TAMP_CFG then tampCfgWrite v s
    else plainWrite off v s
  | 4 =>
    if rTSK_OP ≤ off ∧ off ≤ rTSK_ARG_HI then
      (match busCore bus with | some c => tskPortWrite c off v s | none => s)
    else plainWrite off v s
  | 5 =>
    if off = rINT_SSET then sset v s
    else if off = rINT_SWI then swi v s
    else plainWrite off v (latchAll s)
  | 6 =>
    if off = rLPE_CAP_CTL then capWrite v s
    else if 0x00601000 ≤ off ∧ off < 0x00605000 then
      (match (off - 0x00601000) % 0x80 with
       | 0x04 => srcWrite off true v s
       | 0x08 => srcWrite off false v s
       | 0x0C => dstWrite ((off - 0x00601000) / 0x80) v s
       | _ => plainWrite off v s)
    else plainWrite off v s
  | 7 =>
    if 0x00704000 ≤ off ∧ off < 0x00704600 ∧ off % 0x80 = 0x14 then carIrqWrite ((off - 0x00704000) / 0x80) v s
    else plainWrite off v s
  | 8 =>
    if 0x00801000 ≤ off ∧ off < 0x00802000 then snareEval (furRingCfg ((off - 0x00801000) / 0x40) v s)
    else plainWrite off v s
  | 10 =>
    if off = rAFE_SEQ_CTL then seqGo v s
    else if 0x00A00010 ≤ off ∧ off < 0x00A00090 then seqModeWrite ((off - 0x00A00010) / 0x20) v s
    else if 0x00A00100 ≤ off ∧ off < 0x00A00500 then entWrite ((off - 0x00A00100) / 0x100) ((off % 0x100) / 4) v s
    else if 0x00A01000 ≤ off ∧ off < 0x00A01200 ∧ off % 0x10 = 0 then chCfgWrite ((off - 0x00A01000) / 0x10) v s
    else plainWrite off v s
  | 11 => if off = rSTK_RETRAIN then snareEval (readyStep (stkRetrain v s)) else plainWrite off v s
  | 12 =>
    if off = rTIM_MEAS_CTL then snareEval (measCommit v s)
    else if 0x00C01000 ≤ off ∧ off < 0x00C01200 then
      (let n := (off - 0x00C01000) / 0x100
       match off % 0x100 with
       | 0x00 => ethCfg n v s
       | 0x30 => txCtl n v s
       | 0x3C => rxRel n v s
       | _ => plainWrite off v s)
    else if 0x00C10000 ≤ off ∧ off < 0x00C11000 then txWord ((off - 0x00C10000) / 0x800) ((off % 0x800) / 4) v s
    else plainWrite off v s
  | 14 => if off = rFLT_CLEAR then fltClear v 0 s else plainWrite off v s
  | 15 => if off = rSNR_SW then swRecord v s else plainWrite off v s
  | 16 =>
    if rTLY_DEV_CFG 0 ≤ off ∧ off < rTLY_DEV_CFG 8 then devCfgWrite ((off - rTLY_DEV_CFG 0) / 0x10) v s else plainWrite off v s
  | _ => plainWrite off v s

/-- The registers at which stores of cores act, and those of the host and the debug port do not (R424, R429).
[DEDUCED: notes/assumptions/53] -/
def coreRegs (off : Nat) : Bool :=
  [rINT_SSET, rINT_SWI, rTSK_OP, rTSK_ARG_LO, rTSK_ARG_HI].contains off

/-- A 32-bit write of the register at `off` (R5, R12, R13). [DEDUCED: notes/assumptions/10] -/
def busWrite (bus : Bus) (off : Nat) (v : U32) (s : State) : Host.Outcome State Fault Refusal :=
  match rowOf off with
  | none => .next s
  | some row =>
    if coreRegs off && (busCore bus).isNone then .next s
    else guardWrite s bus off v (if row.ty = .w1c then w1c off v else writeEffect bus off v)

end Sys2Proof.Machine
end

