-- ==== Sys2Proof/Machine/Debug.lean ====
section
/-! DEFINITION. Writes of registers that have no command of their own, those of the debug port among them, and the debug port's access
to the map of a core (R521, R525). -/

namespace Sys2Proof.Machine

/-! ### Memory access from the debug port (R525) -/

/-- The key of an address of core `c` in the memory of the model: the own TCM is the global view's. -/
def memKey (c a : Nat) : Nat := if a < 0x20000000 then 0x20000000 + 0x80000 * c + (a - 0x10000000) else a

/-- An access to shared memory counts (R519). -/
def sharedCount (r : Region) (s : State) : State :=
  match r with
  | .cached => tlyDev 0x40 1 s
  | .uncached => tlyDev 0x40 1 s
  | _ => s

/-- The 32-bit word at address `a` of core `c`'s map. The spec does not say what a load of the commit and submit words or of the
payload of the journal port returns: a free value.
[DESIGN CHOICE: notes/assumptions/15; DESIGN CHOICE: notes/assumptions/40] -/
def mapRead (c : Nat) (r : Region) (a : Nat) (s : State) : U32 × State :=
  match r with
  | .rom => (u32 (leNat ((List.range 4).map (fun i => Config.rom (a - 0x10000 + i)))), s)
  | .ownTcm => (u32 (leNat (readBytes s.mem (memKey c a) 4)), s)
  | .tcm => (u32 (leNat (readBytes s.mem a 4)), s)
  | .cached => (u32 (leNat (readBytes s.mem a 4)), s)
  | .uncached => (u32 (leNat (readBytes s.mem a 4)), s)
  | .regs => (busRead s .debug (a - 0x80000000), latchPair (a - 0x80000000) s)
  | .granary => (pointRead s.grn.commit ((a - 0x90000000) / 4), s)
  | .fwPort =>
    if a < 0x91008000 then (tget stale s.grn.fwStage ((a - 0x91000000) / 4), s)
    else (lo32 (draw Config.freeWord s).1, (draw Config.freeWord s).2)
  | .jnlPort =>
    if a = 0x92008008 then (pack [(1, b2n (core s c).jerr), (2, b2n (core s c).jdrop)], s)
    else if a = 0x9200800C then (0, s)
    else (lo32 (draw Config.freeWord s).1, (draw Config.freeWord s).2)

/-- A 32-bit store into the payload of the journal port takes that half of its word.
[DESIGN CHOICE: notes/assumptions/40] -/
def jnlHalf (c off : Nat) (v : U32) (s : State) : State :=
  let h := core s c
  let w := tget 0 h.jbuf (off / 8)
  setCore s c { h with jbuf := tset 0 h.jbuf (off / 8) (if off % 8 = 0 then join64 v (hi32 w) else join64 (lo32 w) v) }

/-- A 32-bit store at address `a` of core `c`'s map. -/
def mapWrite (c : Nat) (r : Region) (a : Nat) (v : U32) (s : State) : Host.Outcome State Fault Refusal :=
  match r with
  | .rom => .next s
  | .granary => .next s
  | .ownTcm => .next { s with mem := writeBytes s.mem (memKey c a) (leBytes 4 v.toNat) }
  | .tcm => .next { s with mem := writeBytes s.mem a (leBytes 4 v.toNat) }
  | .cached => .next { s with mem := writeBytes s.mem a (leBytes 4 v.toNat) }
  | .uncached => .next { s with mem := writeBytes s.mem a (leBytes 4 v.toNat) }
  | .regs => busWrite .debug (a - 0x80000000) v s
  | .fwPort => .next (if a < 0x91008000 then fwStore ((a - 0x91000000) / 4) v s else fwCommit s)
  | .jnlPort =>
    .next (if a < 0x92008000 then jnlHalf c (a - 0x92000000) v s
           else if a = 0x92008000 then jnlSubmit c v s else s)

/-- The access is made: OK, and DP_MEM_ADDR moves on where AUTOINC is 1 (R521). -/
def memDone (s : State) : State :=
  setAck ackOk (if bit s.dbg.ctl 5 then { s with dbg := { s.dbg with memAddr := s.dbg.memAddr + 4 } } else s)

/-- A DP_MEM_DATA access (R521, R522, R525): reads at LEVEL 1 and 2, writes at LEVEL 2; FAULT where the map does not permit it. -/
def dpMem (write : Bool) (v : U32) (s : State) : Host.Outcome State Fault Refusal :=
  let s := dpBegin s
  let a := s.dbg.memAddr.toNat
  let c := coreSel s
  if s.dbg.level < (if write then 2 else 1) then .next (setAck ackFault s)
  else if write && s.dbg.busy then .next (setAck ackWait s)
  else
    match regionOf a with
    | none => .next (setAck ackFault s)
    | some r =>
      if !regionPermits r (if write then 2 else 1) then .next (setAck ackFault s)
      else
        let s := sharedCount r (memDone s)
        if write then mapWrite c r a v s
        else .next { (mapRead c r a s).2 with rdata := u64 (mapRead c r a s).1.toNat }

def execDpMemDataAccess (write : Bool) (v : U32) (s : State) : Host.Outcome State Fault Refusal := dpMem write v s

/-! ### Register writes -/

/-- A write of debug port register `a`: a fault where it takes place and sets a reserved field, of the register or of the CSR it
writes (R13). [DESIGN CHOICE: notes/assumptions/7] -/
def dpRegWrite (a : Nat) (v : U32) (s : State) : Host.Outcome State Fault Refusal :=
  if a = 0x49 then dpMem true v s
  else if a = 0x46 then execDpRegHiWrite v s
  else if dpWritable s.dbg.level a ∧ !s.dbg.busy ∧ v &&& dpRsv a ≠ 0 then .fault (.reservedDebugSet a)
  else .next (dpWrite a (dpStore a v) s)

/-- A write of 32 bits, or of 64 bits as two writes of 32, the lower offset first (R10). -/
def busWriteWide (bus : Bus) (off : Nat) (v : U32) (hi : Option U32) (s : State) : Host.Outcome State Fault Refusal :=
  match hi with
  | none => busWrite bus off v s
  | some h =>
    match busWrite bus off v s with
    | .next t => busWrite bus (off + 4) h t
    | o => o

/-- A write of a register that has no command of its own (R12): of the debug port itself by its ADDR where the debug port drives it
below 0x100, else of the register space. [DEDUCED: notes/assumptions/11] -/
def execRegisterWrite (bus : Bus) (off : Fin 0x2000000) (v : U32) (hi : Option U32) (s : State) : Host.Outcome State Fault Refusal :=
  match bus with
  | .debug => if off.val < 0x100 then dpRegWrite off v s else busWrite .debug off v s
  | b => busWriteWide b off v hi s

end Sys2Proof.Machine
end

