-- ==== Sys2Proof/Machine/Endpoint.lean ====
section
/-! DEFINITION. Cell endpoints: position, acceptance of a frame, reports, forwarding, span delays, effect instants, switches, the BLKSYM
latch, self-block, the retired bypass, local faults and looping (07_cell_endpoint.md; R189, R191, R194, R196, R200, R201, R205,
R208 to R211). Times are in units of 1/80 ns: a tick is 256, a firing unit 32, 1/16 ns is 5. -/

namespace Sys2Proof.Machine

def ep (s : State) (e : Nat) : Ep := tget {} s.eps e
def setEp (s : State) (e : Nat) (v : Ep) : State := { s with eps := tset {} s.eps e v }

/-- L in 1/80 ns (R20). -/
def epL (flen : Nat) : Int := 256 * (frameTicks flen : Nat)
/-- T_LATE in 1/80 ns (R240): 8.448 µs or 16.8576 µs. -/
def tLate (flen : Nat) : Int := if flen = 0 then 675840 else 1348608

/-! ### What can be reported (R238, R239) -/

/-- STATUS without ANOM (R238). -/
def epStatus (v : EpView) : Nat := v.pat + 8 * b2n v.latched + 16 * b2n v.selfBlk + 32 * b2n v.fault

/-- Record, from time `t` on, what can be reported, where it changed. -/
def epLog (t : Int) (x : Ep) : Ep :=
  if (match x.log with | p :: _ => p.2 | [] => {}) = x.toEpView then x else { x with log := ((t, x.toEpView) :: x.log).take 64 }

/-- What could be reported at time `t`; that of a reset endpoint before the first record. -/
def viewAt (t : Int) (x : Ep) : EpView :=
  match x.log.find? (fun p => decide (p.1 ≤ t)) with
  | some p => p.2
  | none => if x.log.length < 64 then {} else ((x.log.getLast?).map (·.2)).getD {}

/-- A bank: bank 0 is always programmed (R233). [DESIGN CHOICE: notes/assumptions/62] -/
def epBank (v : EpView) (b : Nat) : Option (Nat × Nat) := tget (if b = 0 then some (0, 0) else none) v.banks b

/-! ### Transitions (R230 to R232) -/

/-- The switches that a pattern has on, leg X and leg Y (R230): 1 lower, 2 upper. -/
def patLegs (fb : Bool) (pat : Nat) : Nat × Nat :=
  match pat with
  | 0 => (1, b2n fb)
  | 4 => (1, b2n fb)
  | 1 => (2, b2n fb)
  | 2 => (1, 2)
  | _ => (0, 0)

/-- The switch of a leg that is on just before time `t`. -/
def legOn (t : Int) (g : Leg) : Nat := match g.next with | some (u, w) => if u < t then w else 0 | none => g.on

/-- A leg goes to switch `w` at time `t` (R231): what leaves turns off at once, what enters waits for the dead time where another switch of
the leg was on. -/
def legTurn (t dead : Int) (w : Nat) (g : Leg) : Leg :=
  let want := match g.next with | some (_, v) => v | none => g.on
  if want = w then g
  else if w = 0 then {}
  else if legOn t g = 0 then { on := w }
  else { on := 0, next := some (t + dead, w) }

/-- Is a change of pattern no transition: BYP and the retired bypass have the same switches (R242). -/
def samePat (p q : Nat) : Bool := p == q || (p == 4 && q == 0) || (p == 0 && q == 4)

/-- Put a new pattern in force at `t` (R231, R232). -/
def epTransition (t : Int) (target : Nat) (x : Ep) : Ep :=
  let dead : Int := 32 * ((epBank x.toEpView x.bank).getD (0, 0)).1
  let w := patLegs x.fb target
  let y := { x with pat := target, moved := none, legX := legTurn t dead w.1 x.legX, legY := legTurn t dead w.2 x.legY,
                    retiredFrom := if target = 4 then (if x.pat = 4 then x.retiredFrom else some t) else none }
  epLog t (if samePat x.pat target then y else { y with lastTrans := some t, sw := x.sw + 1 })

/-- A commanded transition, moved where it would come less than MIN_DWELL after the previous one (R232). -/
def epMove (t : Int) (target : Nat) (x : Ep) : Ep :=
  let bk := (epBank x.toEpView x.bank).getD (0, 0)
  match x.lastTrans with
  | some p =>
    if !samePat x.pat target && decide (target ≠ 3) && decide (t < p + 6400 * bk.2) then
      epLog t { x with moved := some (p + 6400 * bk.2, target), dwellAdj := x.dwellAdj + 1, anoms := x.anoms + 1 }
    else epTransition t target x
  | none => epTransition t target x

/-- A slot carried out other than it reads, for its code or its bank. -/
def epBad (x : Ep) : Ep := { x with badSlot := x.badSlot + 1, anoms := x.anoms + 1 }

/-- Everything that makes the endpoint BLK at once: held and moved commands are dropped (R205, R240, R243). -/
def epBlock (t : Int) (x : Ep) : Ep := epTransition t 3 { x with held := [], moved := none }

/-- Does the endpoint obey a slot state now (R205, R241, R243). -/
def epObeys (x : Ep) (st : Nat) : Bool :=
  let quiet := decide (st = 0) || decide (4 ≤ st)
  if x.fault then (if st = 5 then x.canBypass else decide (4 ≤ st)) else if x.selfBlk || x.latched then quiet else true

/-- Carry out a slot at its effect instant (R230, R234, R235, R242). -/
def epCarry (t : Int) (w : U32) (x : Ep) : Ep :=
  let st := fld w 3 0
  if st = 0 ∨ !epObeys x st then x
  else
    let b := fld w 27 24
    if (epBank x.toEpView b).isNone then epTransition t 3 (epBad x)
    else
      let x := { x with bank := b }
      match st with
      | 1 => epMove t 0 x
      | 2 => if x.pat = 4 then epMove t 0 (epBad x) else epMove t 1 x
      | 3 => if x.pat = 4 then epMove t 0 (epBad x) else if x.fb then epMove t 2 x else epTransition t 3 (epBad x)
      | 4 => epTransition t 3 x
      | 5 => epMove t 4 x
      | _ => epTransition t 3 (epBad x)

/-! ### Outputs, the frame gap and the span delays (R191, R200, R210, R211, R226) -/

def otherLane (l : Lane) : Lane := match l with | .a => .b | .b => .a

/-- The output of the path from an input, and the output that a looped endpoint leaves silent (R210, R226). -/
def outLane (x : Ep) (l : Lane) : Lane := if x.looped then (if x.side then .a else .b) else l
def silentLane (x : Ep) (o : Lane) : Bool := x.looped && (if x.side then o == .b else o == .a)

def epSend (o : Lane) (bs : List Block) (x : Ep) : Ep := match o with | .a => { x with outA := bs } | .b => { x with outB := bs }
def epSpan (x : Ep) (l : Lane) : Nat := match l with | .a => x.spanA | .b => x.spanB
def setSpan (l : Lane) (d : Nat) (x : Ep) : Ep := match l with | .a => { x with spanA := d } | .b => { x with spanB := d }
def epResp (x : Ep) (o : Lane) : Option Block := match o with | .a => x.respA | .b => x.respB
def setResp (o : Lane) (b : Option Block) (x : Ep) : Ep := match o with | .a => { x with respA := b } | .b => { x with respB := b }

/-- WRAP_AT of a looped endpoint (R211). -/
def epWrapAt (x : Ep) : Block :=
  ctl (0xC3 + (x.pos.getD 0 % 256) * 2 ^ 8 + b2n x.side * 2 ^ 16 + x.loopTick % 2 ^ 40 * 2 ^ 24)

/-- A gap block as sent on: a hop-local block goes no further, every other leaves as it came (R191, R226). -/
def fwdGap (b : Block) : Block := if isCtl 0x99 b || isCtl 0xAA b then idleBlock else b

/-- Put blocks in the place of IDLEs, in order; what finds no IDLE is left over. -/
def fillIdle : List Block → List Block → List Block × List Block
  | [], ins => ([], ins)
  | b :: bs, [] => (b :: bs, [])
  | b :: bs, i :: ins =>
    if isCtl 0x1E b then (i :: (fillIdle bs ins).1, (fillIdle bs ins).2)
    else (b :: (fillIdle bs (i :: ins)).1, (fillIdle bs (i :: ins)).2)

/-- What arrives in a gap on input `l`: a PD_RESP gives the delay of the span (R200), and a PD_REQ is answered on the output towards its
sender. -/
def gapReceive (l : Lane) (g : Gap) (x : Ep) : Ep :=
  let x := match g.blocks.find? (isCtl 0xAA) with
    | some b => setSpan l ((g.rtt.toNat - fld b.data 39 16) / 2) x
    | none => x
  match g.blocks.find? (isCtl 0x99) with
  | some b =>
    if silentLane x (otherLane l) then x
    else setResp (otherLane l) (some (ctl (0xAA + fld b.data 15 8 * 2 ^ 8 + g.turn.toNat * 2 ^ 16))) x
  | none => x

/-- A frame and its gap go on from input `l`; `frame` is the frame as sent. IDLEs make room for a WRAP_AT while the endpoint is looped, for a
PD_REQ where one is due, and for a PD_RESP. -/
def gapSend (l : Lane) (req : Bool) (frame : List Block) (g : Gap) (x : Ep) : Ep :=
  let o := outLane x l
  let ins := (if x.looped then [epWrapAt x] else []) ++ (if req then [ctl (0x99 + x.pdSeq.toNat * 2 ^ 8)] else []) ++ (epResp x o).toList
  let r := fillIdle (g.blocks.map fwdGap) ins
  let x := if r.2.isEmpty then setResp o none x else x
  epSend o (frame ++ r.1) { x with pdSeq := if req then x.pdSeq + 1 else x.pdSeq }

def epGap (l : Lane) (req : Bool) (frame : List Block) (g : Gap) (x : Ep) : Ep := gapSend l req frame g (gapReceive l g x)

/-! ### Frames (R189, R194, R196, R201, R224, R225, R228, R236 to R239) -/

def blkFld (bs : List Block) (i hi lo : Nat) : Nat := fld (bs.getD i {}).data hi lo

/-- Is a copy looped. -/
def copyLooped (bs : List Block) : Bool := bit (bs.getD 0 {}).data 16

/-- Does a copy pass CMD_CRC with S slots. -/
def copyCmdOk (bs : List Block) : Bool :=
  let n := blkFld bs 3 47 32
  isCtl 0x2D (bs.getD (5 + n / 2) {}) &&
  decide (blkFld bs (5 + n / 2) 39 8 = (cmdCrc ((bs.drop 1).take 3) ((bs.drop 5).take (n / 2))).toNat)

/-- F_j as a copy gives it, from the arrival of SOF and the span it came on (R228). -/
def copyFj (sof : Int) (span : Nat) (bs : List Block) : Int := sof - 5 * ((blkFld bs 4 23 0 + span : Nat) : Int)

/-- The rotating indices that the modelled endpoint implements: those marked M in R239, 12, 13, and every bank.
[DEDUCED: notes/assumptions/33] -/
def epRots : List Nat := [0] ++ (List.range 31).map (· + 2)

/-- The value of a rotating index (R239), 2 to 32. [DEDUCED: notes/assumptions/33] -/
def rotValue (v : EpView) (i : Nat) : Nat :=
  let sat (n : Nat) : Nat := min 0xFFFF n
  match i with
  | 2 => v.cause.toNat
  | 3 => v.fwVer.toNat
  | 4 => sat v.cmdMiss
  | 5 => sat v.lateDisc
  | 6 => sat v.dwellAdj
  | 7 => sat v.badSlot
  | 8 => sat v.crcA
  | 9 => sat v.crcB
  | 10 => b2n v.looped + 2 * b2n v.side + 4 * b2n v.lockA + 8 * b2n v.lockB + 256 * (v.pos.getD 0 % 256)
  | 11 => sat v.sbCnt
  | 12 => v.sw % 65536
  | 13 => v.sw / 65536 % 65536
  | 14 => v.bank
  | 15 => v.latchBgen.toNat + 256 * b2n v.latched + 512 * b2n v.leave
  | 32 => v.ovLimit.toNat
  | _ => match epBank v (i - 16) with | some b => b.1 + 4096 * b.2 | none => 0xF000

/-- Do two derivations of the boundary of one frame number stand for the same frame. -/
def sameFrame (flen : Nat) (f g : Int) : Bool := decide ((f - g).natAbs < (epL flen).natAbs)

/-- The report that goes into frame `j` (R237 to R239), the same in every copy of it: what the endpoint held at F_k, with ANOM where
something set it since the reports of earlier epochs. `temp` is the heatsink temperature, index 0. -/
def epReport (j flen : Nat) (fk : Int) (vcap temp : Nat) (x : Ep) : U64 × Ep :=
  match x.rpts.find? (fun r => r.j == j && sameFrame flen r.f fk) with
  | some r => (r.val, x)
  | none =>
    let v := viewAt fk x
    let prev := x.rpts.foldl (fun a r => if r.f < fk then max a r.anoms else a) 0
    let i := epRots.getD (x.rot % epRots.length) 0
    let w := u64 (vcap + (epStatus v + 64 * b2n (decide (prev < v.anoms))) * 2 ^ 16 + i * 2 ^ 24 +
      (if i = 0 then temp else rotValue v i) * 2 ^ 32)
    (w, { x with rpts := (⟨j, fk, w, v.anoms⟩ :: x.rpts).take 16, rot := (x.rot + 1) % epRots.length })

/-- Report `p` is written into the RPT blocks that start at block `base` (R195), where they are there. -/
def putReport (base p : Nat) (v : U64) (bs : List Block) : List Block :=
  let at_ (k : Nat) : Nat := base + 3 * (p / 4) + k
  if (List.range 3).any (fun k => (bs.getD (at_ k) { ctl := true }).ctl) then bs
  else
    let w := (List.range 3).foldl (fun a k => a + ((bs.getD (at_ k) {}).data).toNat * 2 ^ (64 * k)) 0
    let lo := 48 * (p % 4)
    let w := w - (w / 2 ^ lo % 2 ^ 48) * 2 ^ lo + v.toNat * 2 ^ lo
    (List.range 3).foldl (fun bs k => bs.set (at_ k) (dat (w / 2 ^ (64 * k) % 2 ^ 64))) bs

/-- H3 as sent on (R201), where the copy reaches it: CUM grows by SPAN_in + RES, HOPS by `hop`. -/
def fwdH3 (span res hop : Nat) (bs : List Block) : List Block :=
  if (bs.getD 4 {}).ctl then bs
  else bs.set 4 (dat ((blkFld bs 4 23 0 + span + res) % 2 ^ 24 + (blkFld bs 4 31 24 + hop) % 256 * 2 ^ 24))

/-- EOF as sent on (R196), and LOOPED where the endpoint turns the copy round (R210). A copy that was cut has no EOF to regenerate. -/
def fwdEnd (x : Ep) (inp out : List Block) : List Block :=
  let out := if x.looped && isCtl 0x78 (out.getD 0 {}) then out.set 0 { ctl := true, data := (out.getD 0 {}).data ||| u64 (2 ^ 16) } else out
  let last := inp.getLast?.getD {}
  if !isCtl 0xE1 last then out
  else
    let e := last.data
    let body := out.dropLast
    let good := decide (fld e 39 8 = (frameCrc inp.dropLast).toNat) && !bit e 48
    let crc := frameCrc body
    let pos := if bit e 48 then fld e 47 40 else x.pos.getD 0 % 256
    body ++ [if good then ctl (0xE1 + crc.toNat * 2 ^ 8)
             else ctl (0xE1 + (~~~crc).toNat * 2 ^ 8 + pos * 2 ^ 40 + 2 ^ 48)]

/-- Does a copy fail FCRC. -/
def copyFcrcBad (bs : List Block) : Bool :=
  !isCtl 0xE1 (bs.getLast?.getD {}) || decide (fld (bs.getLast?.getD {}).data 39 8 ≠ (frameCrc bs.dropLast).toNat)

/-- CRC_A or CRC_B counts a bad copy, when it has ended. -/
def epCrcCount (t : Int) (l : Lane) (bad : Bool) (x : Ep) : Ep :=
  if !bad then x else epLog t (match l with | .a => { x with crcA := x.crcA + 1 } | .b => { x with crcB := x.crcB + 1 })

/-- The effect instant of a held command (R228), by the newest derivation of F_j; OFFSET is ignored in HOLD (R230). -/
def heldAt (x : Ep) (h : HeldCmd) : Int :=
  x.fj + ((h.epoch : Int) - (x.lastJ.getD 0 : Nat)) * epL x.flen + 32 * (if fld h.slot 3 0 = 0 then 0 else fld h.slot 19 4 : Nat)

/-- The command of frame `j` is held for its effect instant (R194, R205, R228, R236); `t` is when the frame was accepted. -/
def epHold (t : Int) (j : Nat) (bgen : U8) (w : U32) (x : Ep) : Ep :=
  let st := fld w 3 0
  match slotE j w with
  | none => x
  | some e =>
    if st = 15 then x
    else
      let free := decide (1 ≤ st ∧ st ≤ 3) && (if x.leave then bgen != x.latchBgen else bgen == x.latchBgen)
      let x := if x.latched && free then { x with latched := false, leave := false, latchBgen := bgen } else x
      if x.latched && decide (1 ≤ st ∧ st ≤ 3) then x
      else
        let h : HeldCmd := { epoch := e, slot := w }
        if heldAt x h < t then { x with lateDisc := x.lateDisc + 1, anoms := x.anoms + 1 }
        else { x with held := x.held.filter (fun g => g.epoch != e) ++ [h] }

/-- Have frames of 16 consecutive numbers, `j` among them, been accepted (R241). -/
def accRun (acc : List Nat) (j : Nat) : Bool :=
  (List.range 16).any (fun i => decide (i ≤ j) && (List.range 16).all (fun k => acc.contains (j - i + k)))

/-- A copy of frame `j` has arrived, and was accepted or not (R225): a frame whose two copies both fail counts in CMD_MISS, and so does one
of which a single copy came and failed, when 16 later frames have been seen. -/
def epSeen (j flen : Nat) (f : Int) (ok : Bool) (x : Ep) : Ep :=
  let mine (e : EpSeen) : Bool := e.j == j && sameFrame flen e.f f
  let old := (x.seen.find? mine).getD ⟨j, f, 0, false⟩
  let new : EpSeen := ⟨j, f, old.n + 1, old.ok || ok⟩
  let all := new :: x.seen.filter (fun e => !mine e)
  let miss := b2n (!new.ok && new.n == 2) + ((all.drop 16).filter (fun e => !e.ok && e.n == 1)).length
  { x with seen := all.take 16, cmdMiss := x.cmdMiss + miss }

/-- Has a copy of frame `j` been accepted already. -/
def epTaken (j flen : Nat) (f : Int) (x : Ep) : Bool := x.seen.any (fun e => e.j == j && sameFrame flen e.f f && e.ok)

/-- Does a copy meet R225, for an endpoint with a position. -/
def copyPasses (p : Nat) (bs : List Block) : Bool :=
  copyCmdOk bs && decide (p < blkFld bs 3 47 32) && decide (blkFld bs 3 55 48 ≤ 2)

/-- The first copy of frame `j` that passes is accepted (R189, R225, R228, R241); the newest frame gives the time.
[DEDUCED: notes/assumptions/33] -/
def epAccept (sof : Int) (span : Nat) (bs : List Block) (x : Ep) : Ep :=
  let j := (bs.getD 1 {}).data.toNat
  let flen := blkFld bs 3 55 48
  let bgen : U8 := BitVec.ofNat 8 (blkFld bs 3 63 56)
  let fj := copyFj sof span bs
  let t := sof + 512 * ((6 + blkFld bs 3 47 32 / 2 : Nat) : Int)
  match x.pos with
  | none => epLog t (epSeen j flen fj false x)
  | some p =>
    let first := copyPasses p bs && !epTaken j flen fj x
    let x := epSeen j flen fj (copyPasses p bs) x
    if !first then epLog t x
    else
      let x := if x.lastJ.isNone || decide (x.fj < fj) then { x with lastJ := some j, fj := fj, flen := flen, lastBgen := bgen } else x
      let acc := (j :: x.acc).take 64
      let x := { x with acc := acc, selfBlk := x.selfBlk && !accRun acc j, accLatched := x.accLatched || x.latched }
      let w := (bs.getD (5 + p / 2) {}).data
      epLog t (epHold t j bgen (if p % 2 = 0 then lo32 w else hi32 w) x)

/-- The endpoint writes its report into a copy that reaches it unlooped (R189, R225). -/
def epWrite (fk : Int) (vcap temp : Nat) (bs out : List Block) (x : Ep) : List Block × Ep :=
  let n := blkFld bs 3 47 32
  match x.pos with
  | some p =>
    if decide (p < n) && !copyLooped bs then
      let r := epReport (bs.getD 1 {}).data.toNat (blkFld bs 3 55 48) fk vcap temp x
      (putReport (6 + n / 2) p r.1 out, r.2)
    else (out, x)
  | none => (out, x)

/-- A copy of a CYCLE frame arrives with its gap: `sof` is the arrival of its first bit, `res` the residence of its path in 1/16 ns, `vcap`
the sample at F_{j−1}, `temp` the heatsink temperature then. -/
def epFrame (l : Lane) (sof : Int) (res vcap temp : Nat) (g : Gap) (bs : List Block) (x : Ep) : Ep :=
  if bs.isEmpty then epGap l false [] g x
  else
    let span := epSpan x l
    let fk := copyFj sof span bs - epL (blkFld bs 3 55 48)
    let x := epCrcCount (sof + 512 * (bs.length : Nat)) l (copyFcrcBad bs || !copyCmdOk bs) (epAccept sof span bs x)
    let r := epWrite fk vcap temp bs (fwdH3 span res 1 bs) x
    epGap l (decide ((bs.getD 1 {}).data.toNat % 16 = 0)) (fwdEnd r.2 bs r.1) g r.2

def execEndpointFrameAccept (e : Fin 16384) (l : Lane) (sof : U64) (res vcap temp : U16) (gap : Gap) (bs : List Block) (s : State) :
    Host.Outcome State Fault Refusal :=
  .next (setEp s e (epFrame l sof.toNat res.toNat vcap.toNat temp.toNat gap bs (ep s e)))

/-- Maintenance writes, refused while the endpoint receives CYCLE frames (R233); bank 0 stays programmed.
[DESIGN CHOICE: notes/assumptions/62] -/
def epMaint (m : EpMaint) (x : Ep) : Ep :=
  if x.lastJ.isSome && !x.selfBlk then x
  else
    let put (bs : Tbl (Option (Nat × Nat))) (q : Fin 16 × Option (BitVec 12 × Fin 15)) : Tbl (Option (Nat × Nat)) :=
      match q.2 with
      | some (d, c) => tset (if q.1.val = 0 then some (0, 0) else none) bs q.1 (some (d.toNat, c.val))
      | none => if q.1.val = 0 then bs else tset none bs q.1 none
    { x with banks := m.banks.foldl put x.banks, fwVer := m.fw.getD x.fwVer, ovLimit := m.ov.getD x.ovLimit }

/-- A copy of a DISCOVER or MEASURE frame arrives with its gap, or a frame period of MEASURE without a frame (R200, R208, R209, R224): on an
unlooped copy the endpoint takes its position and writes its identity, or its spans and residences. -/
def epTrain (l : Lane) (ident : U64) (res resA resB : Nat) (g : Gap) (bs : List Block) (x : Ep) : Ep :=
  if bs.isEmpty then epGap l true [] g x
  else
    let hops := blkFld bs 4 31 24
    let n := blkFld bs 3 47 32
    let span := epSpan x l
    let x := { epCrcCount (x.fj) l (copyFcrcBad bs) x with fb := bit ident 16 }
    let looped := copyLooped bs
    if fld (bs.getD 0 {}).data 15 8 = 2 then
      let j := (bs.getD 1 {}).data.toNat
      let x := if looped then x
        else match l with
          | .a => { x with pos := some hops, discA := some j }
          | .b => if x.discA = some j || x.discA = some (j - 1) then x else { x with pos := some (n - 1 - hops) }
      let out := fwdH3 span res (if looped then 0 else 1) bs
      epGap l false (fwdEnd x bs (if looped then out else out.set (5 + hops) { data := ident })) g (epLog x.fj x)
    else
      let out := fwdH3 span res 1 bs
      let m := dat (x.spanA + resA * 2 ^ 16 + x.spanB * 2 ^ 32 + resB * 2 ^ 48)
      epGap l true (fwdEnd x bs (match x.pos with | some p => if looped then out else out.set (5 + p) m | none => out)) g x

/-- `res` is the residence of the copy's path, `resA`, `resB` those of the two lanes; `maint` is what the maintenance interface wrote
before. -/
def execEndpointDiscover (e : Fin 16384) (l : Lane) (ident : U64) (res resA resB : U16) (maint : EpMaint) (gap : Gap) (bs : List Block)
    (s : State) : Host.Outcome State Fault Refusal :=
  .next (setEp s e (epTrain l ident res.toNat resA.toNat resB.toNat gap bs (epMaint maint (ep s e))))

/-! ### Instants -/

/-- The self-block instant (R240). -/
def selfBlockAt (x : Ep) : Int := x.fj + 3 * epL x.flen + tLate x.flen

/-- Does an instant come too late, at or after the self-block instant of an endpoint that is not self-blocked (R244). -/
def pastSelfBlock (x : Ep) (t : Int) : Bool := !x.selfBlk && decide (selfBlockAt x ≤ t)

/-- The held command whose instant comes first. -/
def heldFirst (x : Ep) : List HeldCmd → Option HeldCmd
  | [] => none
  | h :: hs => match heldFirst x hs with | none => some h | some g => if heldAt x g < heldAt x h then some g else some h

/-- A moved transition takes place. -/
def takeMoved (m : Int × Nat) (x : Ep) : Ep := if pastSelfBlock x m.1 then x else epTransition m.1 m.2 { x with moved := none }

/-- A held command takes effect. -/
def takeHeld (h : HeldCmd) (x : Ep) : Ep :=
  if pastSelfBlock x (heldAt x h) then x
  else epCarry (heldAt x h) h.slot { x with held := x.held.filter (fun g => g.epoch != h.epoch) }

/-- The next instant arrives (R231, R232, R244): a moved transition, or the effect instant of a held command, unless the
endpoint self-blocks first. -/
def epInstant (x : Ep) : Ep :=
  match x.moved, heldFirst x x.held with
  | some m, some h => if m.1 ≤ heldAt x h then takeMoved m x else takeHeld h x
  | some m, none => takeMoved m x
  | none, some h => takeHeld h x
  | none, none => x

def execEndpointEffectInstant (e : Fin 16384) (s : State) : Host.Outcome State Fault Refusal := .next (setEp s e (epInstant (ep s e)))

/-- A block goes out on both outputs, but for one that is silent (R191, R205, R210). [DEDUCED: notes/assumptions/33] -/
def sendBoth (b : Block) (x : Ep) : Ep :=
  { x with outA := if silentLane x .a then [] else [b], outB := if silentLane x .b then [] else [b] }

/-- A block of type 0xD2 arrives at `t` with bytes 1 to 7 (R191, R205): it goes on bit for bit, and `fresh` says that it is the first of its
burst. -/
def epBlksym (t : Int) (data : BitVec 56) (fresh : Bool) (x : Ep) : Ep :=
  let bgen : U8 := BitVec.ofNat 8 (fld data 7 0)
  let intact := decide (fld data 55 8 = 0xA55AA55AA55A)
  let was := x
  let x := sendBoth (ctl (0xD2 + data.toNat * 2 ^ 8)) (epBlock t x)
  let x :=
    if intact then
      if was.latched && !was.leave && was.latchBgen == bgen then x
      else { x with latched := true, leave := false, latchBgen := bgen, accLatched := false }
    else if was.latched && !fresh then x
    else if was.lastJ.isNone then x
    else { x with latched := true, leave := true, accLatched := false,
                  latchBgen := if was.latched && !was.accLatched then was.latchBgen else was.lastBgen }
  epLog t x

def execEndpointBlksymReceive (e : Fin 16384) (t : U64) (data : BitVec 56) (fresh : Bool) (s : State) :
    Host.Outcome State Fault Refusal := .next (setEp s e (epBlksym t.toNat data fresh (ep s e)))

/-- No later frame was accepted by F_{j+3} + T_LATE (R240): the retired bypass is kept. -/
def epSelfBlock (x : Ep) : Ep :=
  if x.lastJ.isNone || x.selfBlk then x
  else
    let t := selfBlockAt x
    let y := if x.pat = 4 then { x with held := [], moved := none } else epBlock t x
    epLog t { y with selfBlk := true, acc := [], sbCnt := x.sbCnt + 1 }

def execEndpointSelfBlock (e : Fin 16384) (s : State) : Host.Outcome State Fault Refusal := .next (setEp s e (epSelfBlock (ep s e)))

/-- A local fault (R243): `bypass` is the endpoint's own decision that the BYP pattern stays usable, `mech` that it has a mechanical bypass
switch, and `rising` that VCAP keeps rising above OV_LIMIT. A closed mechanical bypass is FAULT_CAUSE [5].
[DEDUCED: notes/assumptions/33] -/
def epFault (t : Int) (cause : U16) (bypass mech rising : Bool) (x : Ep) : Ep :=
  let can := bypass && (x.canBypass || !x.fault)
  let closed : U16 := if mech && (!can || rising) then 0x20 else 0
  epLog t { epBlock t x with fault := true, cause := x.cause ||| cause ||| closed, canBypass := can }

def execEndpointLocalFault (e : Fin 16384) (t : U64) (cause : U16) (bypass mech rising : Bool) (s : State) :
    Host.Outcome State Fault Refusal := .next (setEp s e (epFault t.toNat cause bypass mech rising (ep s e)))

/-- The cause has gone at `t`, after an epoch in the retired bypass (R243); a closed mechanical bypass stays closed. -/
def epFaultClear (t : Int) (x : Ep) : Ep :=
  match x.retiredFrom with
  | some r => if x.fault && decide (x.pat = 4) && decide (r + epL x.flen ≤ t) then
      epLog t { x with fault := false, cause := x.cause &&& 0x20, canBypass := true } else x
  | none => x

def execEndpointFaultClear (e : Fin 16384) (t : U64) (s : State) : Host.Outcome State Fault Refusal :=
  .next (setEp s e (epFaultClear t.toNat (ep s e)))

/-- Input loss on a lane at `t`: the endpoint loops and silences its output towards the lost neighbour (R210); SIDE 1 for loss on
lane A. -/
def epInputLoss (l : Lane) (t : Nat) (x : Ep) : Ep :=
  let x := match l with | .a => { x with lockA := false } | .b => { x with lockB := false }
  if x.looped then epLog t x
  else
    let x := setResp (otherLane l) none (epSend (otherLane l) [] x)
    epLog t { x with looped := true, side := decide (l = Lane.a), loopTick := t / 256 }

/-- `bad` marks the invalid sync headers among the last 32 blocks (R187). -/
def execEndpointInputLoss (e : Fin 16384) (l : Lane) (t : U64) (bad : BitVec 32) (s : State) : Host.Outcome State Fault Refusal :=
  .next (if inputLost bad then setEp s e (epInputLoss l t.toNat (ep s e)) else s)

/-- UNLOOP on input `l` at `t` (R191, R207, R211): a looped endpoint stops looping, or loops again at once where its lost input has not
regained lock; the block goes on in either case. -/
def epUnloop (l : Lane) (locked : Bool) (t : Nat) (x : Ep) : Ep :=
  let x :=
    if !x.looped then x
    else if locked then { (if x.side then { x with lockA := true } else { x with lockB := true }) with looped := false }
    else { x with loopTick := t / 256 }
  epLog t (epSend (outLane x l) [ctl 0x55] x)

def execEndpointUnloop (e : Fin 16384) (l : Lane) (locked : Bool) (t : U64) (s : State) : Host.Outcome State Fault Refusal :=
  .next (setEp s e (epUnloop l locked t.toNat (ep s e)))

end Sys2Proof.Machine
end

