-- ==== Sys2Proof/Machine/Dispatch.lean ====
section
/-! DEFINITION. The dispatch: one arm per command. -/

namespace Sys2Proof.Machine

def exec (i : Instr) (s : State) : Host.Outcome State Fault Refusal :=
  match i with
  | .porAssert secs => Sys2Proof.Machine.execPorAssert secs s
  | .porRelease id => Sys2Proof.Machine.execPorRelease id s
  | .rstNLow => Sys2Proof.Machine.execRstNLow s
  | .rstNRelease secs id => Sys2Proof.Machine.execRstNRelease secs id s
  | .longResetLatch => Sys2Proof.Machine.execLongResetLatch s
  | .softReset bus => Sys2Proof.Machine.execSoftReset bus s
  | .frameReset bus => Sys2Proof.Machine.execFrameReset bus s
  | .hotReset => Sys2Proof.Machine.execHotReset s
  | .devkeyOk => Sys2Proof.Machine.execDevkeyOk s
  | .pllLock => Sys2Proof.Machine.execPllLock s
  | .coreImageStart flashOk => Sys2Proof.Machine.execCoreImageStart flashOk s
  | .safetyImageStart flashOk => Sys2Proof.Machine.execSafetyImageStart flashOk s
  | .sysCoreRunWrite bus v => Sys2Proof.Machine.execSysCoreRunWrite bus v s
  | .jnlReady => Sys2Proof.Machine.execJnlReady s
  | .refclkLost => Sys2Proof.Machine.execRefclkLost s
  | .pllUnlock => Sys2Proof.Machine.execPllUnlock s
  | .clockRecovered => Sys2Proof.Machine.execClockRecovered s
  | .frameStartWrite bus v => Sys2Proof.Machine.execFrameStartWrite bus v s
  | .frameBoundary => Sys2Proof.Machine.execFrameBoundary s
  | .enginesDone corr => Sys2Proof.Machine.execEnginesDone corr s
  | .loopDeadlineMiss e => Sys2Proof.Machine.execLoopDeadlineMiss e s
  | .loopEccUncorr l c => Sys2Proof.Machine.execLoopEccUncorr l c s
  | .harrowStart => Sys2Proof.Machine.execHarrowStart s
  | .harrowSelectionDone a cyc => Sys2Proof.Machine.execHarrowSelectionDone a cyc s
  | .carrierZero a => Sys2Proof.Machine.execCarrierZero a s
  | .carrierApex a => Sys2Proof.Machine.execCarrierApex a s
  | .effectApply => Sys2Proof.Machine.execEffectApply s
  | .framePartReceive r l j transit bs => Sys2Proof.Machine.execFramePartReceive r l j transit bs s
  | .rxInputLoss r l bad => Sys2Proof.Machine.execRxInputLoss r l bad s
  | .wrapAtReceive r pos side lt => Sys2Proof.Machine.execWrapAtReceive r pos side lt s
  | .pdReqReceive r l sq turn => Sys2Proof.Machine.execPdReqReceive r l sq turn s
  | .pdRespReceive r l rtt turn => Sys2Proof.Machine.execPdRespReceive r l rtt turn s
  | .furRingCfgWrite bus r v => Sys2Proof.Machine.execFurRingCfgWrite bus r v s
  | .trainLock r a b => Sys2Proof.Machine.execTrainLock r a b s
  | .trainLockTimeout r => Sys2Proof.Machine.execTrainLockTimeout r s
  | .discoverReturn r a b => Sys2Proof.Machine.execDiscoverReturn r a b s
  | .measureReturn r good transit ms => Sys2Proof.Machine.execMeasureReturn r good transit ms s
  | .closureDeadline r => Sys2Proof.Machine.execClosureDeadline r s
  | .epochClose uncorr corr ds => Sys2Proof.Machine.execEpochClose uncorr corr ds s
  | .epochCommit dt ds => Sys2Proof.Machine.execEpochCommit dt ds s
  | .publicationComplete ecc => Sys2Proof.Machine.execPublicationComplete ecc s
  | .publicationAbandon => Sys2Proof.Machine.execPublicationAbandon s
  | .journalWrite => Sys2Proof.Machine.execJournalWrite s
  | .afeConversion q x ecc => Sys2Proof.Machine.execAfeConversion q x ecc s
  | .afeSeqGo bus v => Sys2Proof.Machine.execAfeSeqGo bus v s
  | .afeSeqModeWrite bus q w => Sys2Proof.Machine.execAfeSeqModeWrite bus q w s
  | .afeChCfgWrite bus c w => Sys2Proof.Machine.execAfeChCfgWrite bus c w s
  | .comparatorCrossing k => Sys2Proof.Machine.execComparatorCrossing k s
  | .comparatorRearm k => Sys2Proof.Machine.execComparatorRearm k s
  | .clapperCauseLatch k => Sys2Proof.Machine.execClapperCauseLatch k s
  | .clapperCauseClear k => Sys2Proof.Machine.execClapperCauseClear k s
  | .configCrcCheck upset => Sys2Proof.Machine.execConfigCrcCheck upset s
  | .spFailure => Sys2Proof.Machine.execSpFailure s
  | .spCmdWrite demand grant blk => Sys2Proof.Machine.execSpCmdWrite demand grant blk s
  | .heartbeatWrite v cycles => Sys2Proof.Machine.execHeartbeatWrite v cycles s
  | .heartbeatTimeout => Sys2Proof.Machine.execHeartbeatTimeout s
  | .commitWatchdog => Sys2Proof.Machine.execCommitWatchdog s
  | .permitEnable n => Sys2Proof.Machine.execPermitEnable n s
  | .permitCheckLDone n => Sys2Proof.Machine.execPermitCheckLDone n s
  | .prbChange n level => Sys2Proof.Machine.execPrbChange n level s
  | .permitRetTimeout n => Sys2Proof.Machine.execPermitRetTimeout n s
  | .permitOffChkExpire n => Sys2Proof.Machine.execPermitOffChkExpire n s
  | .offPulseStart n => Sys2Proof.Machine.execOffPulseStart n s
  | .offPulseCheck n => Sys2Proof.Machine.execOffPulseCheck n s
  | .offPulseEnd n => Sys2Proof.Machine.execOffPulseEnd n s
  | .tocsinReport extra => Sys2Proof.Machine.execTocsinReport extra s
  | .faultnPulseEnd => Sys2Proof.Machine.execFaultnPulseEnd s
  | .fltClearOne bus r n => Sys2Proof.Machine.execFltClearOne bus r n s
  | .fltClearAll bus n => Sys2Proof.Machine.execFltClearAll bus n s
  | .fltClearFirst bus n => Sys2Proof.Machine.execFltClearFirst bus n s
  | .setUpDoneWrite bus v => Sys2Proof.Machine.execSetUpDoneWrite bus v s
  | .hstRingCfgWrite bus q v => Sys2Proof.Machine.execHstRingCfgWrite bus q v s
  | .doorbellWrite off d => Sys2Proof.Machine.execDoorbellWrite off d s
  | .bar2BadAccess isRead => Sys2Proof.Machine.execBar2BadAccess isRead s
  | .bar0BadAccess isRead => Sys2Proof.Machine.execBar0BadAccess isRead s
  | .commandFetch two => Sys2Proof.Machine.execCommandFetch two s
  | .fetchComplete r bytes => Sys2Proof.Machine.execFetchComplete r bytes s
  | .fetchFail r cause => Sys2Proof.Machine.execFetchFail r cause s
  | .fetchTimeout r => Sys2Proof.Machine.execFetchTimeout r s
  | .hstRestartWrite bus v => Sys2Proof.Machine.execHstRestartWrite bus v s
  | .completionWrite r => Sys2Proof.Machine.execCompletionWrite r s
  | .eventWrite => Sys2Proof.Machine.execEventWrite s
  | .indexBlockWrite => Sys2Proof.Machine.execIndexBlockWrite s
  | .linkDown => Sys2Proof.Machine.execLinkDown s
  | .envelopeVerify => Sys2Proof.Machine.execEnvelopeVerify s
  | .sessionOpenVerify => Sys2Proof.Machine.execSessionOpenVerify s
  | .firmwareEnvelopeVerify => Sys2Proof.Machine.execFirmwareEnvelopeVerify s
  | .sessionExpire idx => Sys2Proof.Machine.execSessionExpire idx s
  | .akeyCommitWrite bus v => Sys2Proof.Machine.execAkeyCommitWrite bus v s
  | .keyInstallComplete mramOk => Sys2Proof.Machine.execKeyInstallComplete mramOk s
  | .tamperLatch idx pins => Sys2Proof.Machine.execTamperLatch idx pins s
  | .vbatLoss => Sys2Proof.Machine.execVbatLoss s
  | .vaultIntegrityFail => Sys2Proof.Machine.execVaultIntegrityFail s
  | .itemRelease f ecc => Sys2Proof.Machine.execItemRelease f ecc s
  | .nop x p => Sys2Proof.Machine.execNop x p s
  | .sessionClose x p => Sys2Proof.Machine.execSessionClose x p s
  | .snapCfg x p => Sys2Proof.Machine.execSnapCfg x p s
  | .snareArm x p => Sys2Proof.Machine.execSnareArm x p s
  | .setpoint x p => Sys2Proof.Machine.execSetpoint x p s
  | .block x p => Sys2Proof.Machine.execBlock x p s
  | .deblock x p => Sys2Proof.Machine.execDeblock x p s
  | .mode x p => Sys2Proof.Machine.execMode x p s
  | .cellRetire x p => Sys2Proof.Machine.execCellRetire x p s
  | .cellRestore x p => Sys2Proof.Machine.execCellRestore x p s
  | .armMap x p => Sys2Proof.Machine.execArmMap x p s
  | .coefWrite x p => Sys2Proof.Machine.execCoefWrite x p s
  | .carrierSet x p => Sys2Proof.Machine.execCarrierSet x p s
  | .calSet x p => Sys2Proof.Machine.execCalSet x p s
  | .ringCtl x p => Sys2Proof.Machine.execRingCtl x p s
  | .timeAccept x p => Sys2Proof.Machine.execTimeAccept x p s
  | .timeCfg x p => Sys2Proof.Machine.execTimeCfg x p s
  | .akeyInstall x p => Sys2Proof.Machine.execAkeyInstall x p s
  | .akeyRevoke x p => Sys2Proof.Machine.execAkeyRevoke x p s
  | .akeyReplace x p => Sys2Proof.Machine.execAkeyReplace x p s
  | .fwUpdate x env => Sys2Proof.Machine.execFwUpdate x env s
  | .fwUpdateComplete fetched stored => Sys2Proof.Machine.execFwUpdateComplete fetched stored s
  | .setupReopen x p => Sys2Proof.Machine.execSetupReopen x p s
  | .sessionKill x p => Sys2Proof.Machine.execSessionKill x p s
  | .tskAlloc c prio lo hi => Sys2Proof.Machine.execTskAlloc c prio lo hi s
  | .tskFree c idx => Sys2Proof.Machine.execTskFree c idx s
  | .tskWake c idx => Sys2Proof.Machine.execTskWake c idx s
  | .tskSwitch c disp bad => Sys2Proof.Machine.execTskSwitch c disp bad s
  | .tskNext c bad => Sys2Proof.Machine.execTskNext c bad s
  | .tskSetPrio c idx prio => Sys2Proof.Machine.execTskSetPrio c idx prio s
  | .tskSetAff c idx lo => Sys2Proof.Machine.execTskSetAff c idx lo s
  | .tskTake c => Sys2Proof.Machine.execTskTake c s
  | .tskRelease c idx disp lo hi => Sys2Proof.Machine.execTskRelease c idx disp lo hi s
  | .tskTokenHi c idx => Sys2Proof.Machine.execTskTokenHi c idx s
  | .tskBadOp c op idx => Sys2Proof.Machine.execTskBadOp c op idx s
  | .relTimeout idx => Sys2Proof.Machine.execRelTimeout idx s
  | .intClaim c => Sys2Proof.Machine.execIntClaim c s
  | .intComplete c v => Sys2Proof.Machine.execIntComplete c v s
  | .intSourceEvent c id => Sys2Proof.Machine.execIntSourceEvent c id s
  | .modHoldExpire c id => Sys2Proof.Machine.execModHoldExpire c id s
  | .gxtimecmpWrite c v => Sys2Proof.Machine.execGxtimecmpWrite c v s
  | .timerExpire c => Sys2Proof.Machine.execTimerExpire c s
  | .gxlsetWrite c v => Sys2Proof.Machine.execGxlsetWrite c v s
  | .gxdcopWrite c v => Sys2Proof.Machine.execGxdcopWrite c v s
  | .intSsetWrite bus v => Sys2Proof.Machine.execIntSsetWrite bus v s
  | .intSwiWrite bus v => Sys2Proof.Machine.execIntSwiWrite bus v s
  | .wfi c => Sys2Proof.Machine.execWfi c s
  | .coreWake c => Sys2Proof.Machine.execCoreWake c s
  | .granaryPortLoad c p => Sys2Proof.Machine.execGranaryPortLoad c p s
  | .fwPointStore c p v => Sys2Proof.Machine.execFwPointStore c p v s
  | .fwPointCommit c => Sys2Proof.Machine.execFwPointCommit c s
  | .journalPortSubmit c ws v => Sys2Proof.Machine.execJournalPortSubmit c ws v s
  | .coreAccessFault c a kind => Sys2Proof.Machine.execCoreAccessFault c a kind s
  | .lpeSrcWrite bus l sp v => Sys2Proof.Machine.execLpeSrcWrite bus l sp v s
  | .lpeDstWrite bus l v => Sys2Proof.Machine.execLpeDstWrite bus l v s
  | .lpeCapArm bus v => Sys2Proof.Machine.execLpeCapArm bus v s
  | .ethFrameReceive n fcsOk f => Sys2Proof.Machine.execEthFrameReceive n fcsOk f s
  | .ethRxPop bus n => Sys2Proof.Machine.execEthRxPop bus n s
  | .ethRxRel bus n v => Sys2Proof.Machine.execEthRxRel bus n v s
  | .ethTxCtlWrite bus n v => Sys2Proof.Machine.execEthTxCtlWrite bus n v s
  | .ethTxDone n => Sys2Proof.Machine.execEthTxDone n s
  | .txtsPop bus n => Sys2Proof.Machine.execTxtsPop bus n s
  | .ethLinkChange n up => Sys2Proof.Machine.execEthLinkChange n up s
  | .measurementCommit bus v => Sys2Proof.Machine.execMeasurementCommit bus v s
  | .holdoverTimeout => Sys2Proof.Machine.execHoldoverTimeout s
  | .stepGuardEnd => Sys2Proof.Machine.execStepGuardEnd s
  | .ptpSecond => Sys2Proof.Machine.execPtpSecond s
  | .snareRecordWrite => Sys2Proof.Machine.execSnareRecordWrite s
  | .snareGap => Sys2Proof.Machine.execSnareGap s
  | .snarePostEnd => Sys2Proof.Machine.execSnarePostEnd s
  | .snareDumpDone bad => Sys2Proof.Machine.execSnareDumpDone bad s
  | .snareRearmEnd => Sys2Proof.Machine.execSnareRearmEnd s
  | .trigLineAssert l => Sys2Proof.Machine.execTrigLineAssert l s
  | .trigOutRelease => Sys2Proof.Machine.execTrigOutRelease s
  | .snrSwWrite bus v => Sys2Proof.Machine.execSnrSwWrite bus v s
  | .stkClockLoss p => Sys2Proof.Machine.execStkClockLoss p s
  | .fstartMiss p => Sys2Proof.Machine.execFstartMiss p s
  | .stkLaneLoss p l => Sys2Proof.Machine.execStkLaneLoss p l s
  | .fstartReceive p tick role ready commit => Sys2Proof.Machine.execFstartReceive p tick role ready commit s
  | .decisionReceive p bgen trip perm new => Sys2Proof.Machine.execDecisionReceive p bgen trip perm new s
  | .dlyReqReceive p sq turn => Sys2Proof.Machine.execDlyReqReceive p sq turn s
  | .dlyRespReceive p rtt turn => Sys2Proof.Machine.execDlyRespReceive p rtt turn s
  | .helloReceive p sq frameCfg mode id crc lanes => Sys2Proof.Machine.execHelloReceive p sq frameCfg mode id crc lanes s
  | .stationReceive p sq epoch ws => Sys2Proof.Machine.execStationReceive p sq epoch ws s
  | .cellsReceive p sq first ws => Sys2Proof.Machine.execCellsReceive p sq first ws s
  | .effectReceive p sq e env => Sys2Proof.Machine.execEffectReceive p sq e env s
  | .ackReceive p sq eff => Sys2Proof.Machine.execAckReceive p sq eff s
  | .ackTimeout => Sys2Proof.Machine.execAckTimeout s
  | .harrowMsgReceive p sq full recs => Sys2Proof.Machine.execHarrowMsgReceive p sq full recs s
  | .ringMsgReceive p sq r st n wrap => Sys2Proof.Machine.execRingMsgReceive p sq r st n wrap s
  | .ptpMsgReceive p sq sec ns frac => Sys2Proof.Machine.execPtpMsgReceive p sq sec ns frac s
  | .stkMessageCrcFail p => Sys2Proof.Machine.execStkMessageCrcFail p s
  | .roleMasterTimer => Sys2Proof.Machine.execRoleMasterTimer s
  | .bootWaitExpire => Sys2Proof.Machine.execBootWaitExpire s
  | .stkRetrainWrite bus v => Sys2Proof.Machine.execStkRetrainWrite bus v s
  | .counterWrap c k pc addr mMode slot lat full => Sys2Proof.Machine.execCounterWrap c k pc addr mMode slot lat full s
  | .sampleBufferClear c v => Sys2Proof.Machine.execSampleBufferClear c v s
  | .gxtlyovfClear c v => Sys2Proof.Machine.execGxtlyovfClear c v s
  | .tlyDevCfgWrite bus k v => Sys2Proof.Machine.execTlyDevCfgWrite bus k v s
  | .dbgEnLow => Sys2Proof.Machine.execDbgEnLow s
  | .dpParityError => Sys2Proof.Machine.execDpParityError s
  | .dpUnlockGo => Sys2Proof.Machine.execDpUnlockGo s
  | .dpUnlockDone => Sys2Proof.Machine.execDpUnlockDone s
  | .dpRelock => Sys2Proof.Machine.execDpRelock s
  | .dpUnlockExpire => Sys2Proof.Machine.execDpUnlockExpire s
  | .dpHalt m => Sys2Proof.Machine.execDpHalt m s
  | .dpResume m => Sys2Proof.Machine.execDpResume m s
  | .dpStep npc w => Sys2Proof.Machine.execDpStep npc w s
  | .dpRegSelWrite v => Sys2Proof.Machine.execDpRegSelWrite v s
  | .dpRegHiWrite v => Sys2Proof.Machine.execDpRegHiWrite v s
  | .dpMemDataAccess write v => Sys2Proof.Machine.execDpMemDataAccess write v s
  | .dpFreezeWrite v => Sys2Proof.Machine.execDpFreezeWrite v s
  | .breakpointHit c b => Sys2Proof.Machine.execBreakpointHit c b s
  | .watchpointHit c w pc addr isStore => Sys2Proof.Machine.execWatchpointHit c w pc addr isStore s
  | .endpointFrameAccept e l sof res vcap temp gap bs => Sys2Proof.Machine.execEndpointFrameAccept e l sof res vcap temp gap bs s
  | .endpointDiscover e l ident res resA resB maint gap bs => Sys2Proof.Machine.execEndpointDiscover e l ident res resA resB maint gap bs s
  | .endpointEffectInstant e => Sys2Proof.Machine.execEndpointEffectInstant e s
  | .endpointBlksymReceive e t data fresh => Sys2Proof.Machine.execEndpointBlksymReceive e t data fresh s
  | .endpointSelfBlock e => Sys2Proof.Machine.execEndpointSelfBlock e s
  | .endpointLocalFault e t cause bypass mech rising => Sys2Proof.Machine.execEndpointLocalFault e t cause bypass mech rising s
  | .endpointInputLoss e l t bad => Sys2Proof.Machine.execEndpointInputLoss e l t bad s
  | .endpointUnloop e l locked t => Sys2Proof.Machine.execEndpointUnloop e l locked t s
  | .w1cWrite bus off v => Sys2Proof.Machine.execW1cWrite bus off v s
  | .rcRead bus off wide => Sys2Proof.Machine.execRcRead bus off wide s
  | .latchedPairRead bus off wide => Sys2Proof.Machine.execLatchedPairRead bus off wide s
  | .registerWrite bus off v hi => Sys2Proof.Machine.execRegisterWrite bus off v hi s
  | .softResetRelease id => Sys2Proof.Machine.execSoftResetRelease id s
  | .linkUp speed width => Sys2Proof.Machine.execLinkUp speed width s
  | .forwardedClockReturn p => Sys2Proof.Machine.execForwardedClockReturn p s
  | .stkLaneLive p l id skew => Sys2Proof.Machine.execStkLaneLive p l id skew s
  | .carrierCmpEvent a => Sys2Proof.Machine.execCarrierCmpEvent a s
  | .trigLineRelease l => Sys2Proof.Machine.execTrigLineRelease l s
  | .endpointFaultClear e t => Sys2Proof.Machine.execEndpointFaultClear e t s
  | .coreEccError c corrected place a kind => Sys2Proof.Machine.execCoreEccError c corrected place a kind s

end Sys2Proof.Machine
end

