-- ==== Sys2Proof/Machine/Step.lean ====
section
/-! DEFINITION. One step: the command at the front of the queue, or, on an empty queue, the passing of one tick. -/

namespace Sys2Proof.Machine

/-- With no command waiting, one cycle of TB passes while the clocks run (R19): DESIGN CHOICE, notes/assumptions/3. What the spec
ties to an instant is an event command of the table. -/
def idle (s : State) : State := if s.sys.clkRun then advanceTo s (now s + 1) else s

/-- One step. [DESIGN CHOICE: notes/assumptions/3; DESIGN CHOICE: notes/assumptions/52] -/
def step (s : State) : Host.Outcome State Fault Refusal :=
  match s.pending with
  | [] => .next (idle s)
  | c :: rest => exec c { s with pending := rest }

/-- The command that a word spells, put at the front of the queue; the state unchanged where the word spells none.
[DEDUCED: notes/assumptions/4] -/
def State.withFetchWord (s : State) (nbits w : Nat) : State :=
  match Sys2Proof.decodeTableWord nbits w with
  | some c => { s with pending := c :: s.pending }
  | none => s

end Sys2Proof.Machine
end

