-- ==== Sys2Proof/Safety.lean ====
section
/-! DEFINITION. The terms that claims use: what a command gives, which areas of the state it changes, and the states in which every
table stands in its canonical form. -/

namespace Sys2Proof.Machine

/-- The areas of the state. -/
inductive Area where
  | tick | regs | mem | pending | rdata | dma | freeCtr | sys | std | hst | flt | aut | cmd | ints | cores | tsk | lpe | afe | tim
  | fur | grn | hrw | prt | snr | stk | tly | dbg | eps
  deriving DecidableEq, Repr

/-- Area `p` of `t` is that of `s`. -/
@[reducible] def sameArea (p : Area) (s t : State) : Prop :=
  match p with
  | .tick => t.tick = s.tick
  | .regs => t.regs = s.regs
  | .mem => t.mem = s.mem
  | .pending => t.pending = s.pending
  | .rdata => t.rdata = s.rdata
  | .dma => t.dma = s.dma
  | .freeCtr => t.freeCtr = s.freeCtr
  | .sys => t.sys = s.sys
  | .std => t.std = s.std
  | .hst => t.hst = s.hst
  | .flt => t.flt = s.flt
  | .aut => t.aut = s.aut
  | .cmd => t.cmd = s.cmd
  | .ints => t.ints = s.ints
  | .cores => t.cores = s.cores
  | .tsk => t.tsk = s.tsk
  | .lpe => t.lpe = s.lpe
  | .afe => t.afe = s.afe
  | .tim => t.tim = s.tim
  | .fur => t.fur = s.fur
  | .grn => t.grn = s.grn
  | .hrw => t.hrw = s.hrw
  | .prt => t.prt = s.prt
  | .snr => t.snr = s.snr
  | .stk => t.stk = s.stk
  | .tly => t.tly = s.tly
  | .dbg => t.dbg = s.dbg
  | .eps => t.eps = s.eps

/-- `t` differs from `s` in the areas `ps` at most. -/
def ChangesOnly (ps : List Area) (s t : State) : Prop := ∀ p, ps.contains p = false → sameArea p s t

/-- Command `c` at `s` answers a next state, and `P` holds of it. -/
def Gives (c : Instr) (s : State) (P : State → Prop) : Prop := ∃ t, exec c s = .next t ∧ P t

/-- The areas that a command may change; a command changes no other (`pending` is the queue's: no command touches it). -/
def areas : Instr → List Area
  | .porAssert .. =>
    [.tick, .regs, .mem, .sys, .std, .hst, .flt, .aut, .cmd, .ints, .cores, .tsk, .lpe, .afe, .tim, .fur, .grn, .hrw, .prt, .snr, .stk, .tly, .dbg]
  | .porRelease .. | .rstNRelease .. | .softResetRelease .. =>
    [.regs, .freeCtr, .sys, .std, .aut, .stk, .dbg]
  | .rstNLow .. | .softReset .. =>
    [.tick, .regs, .sys, .hst, .flt, .aut, .cmd, .ints, .cores, .tsk, .lpe, .afe, .tim, .fur, .grn, .hrw, .prt, .snr, .stk, .tly, .dbg]
  | .longResetLatch .. =>
    [.std]
  | .frameReset .. =>
    [.tick, .regs, .sys, .flt, .cmd, .ints, .cores, .lpe, .afe, .fur, .grn, .hrw, .snr, .stk, .tly]
  | .hotReset .. =>
    [.regs, .hst, .flt, .grn]
  | .devkeyOk .. =>
    [.freeCtr, .std, .aut]
  | .pllLock .. =>
    [.sys, .cores]
  | .coreImageStart .. =>
    [.regs, .mem, .sys, .std, .cores]
  | .safetyImageStart .. =>
    [.regs, .sys, .std, .prt]
  | .wfi .. =>
    [.ints, .cores]
  | .coreWake .. =>
    [.regs, .dma, .freeCtr, .flt, .ints, .cores, .tly]
  | .sysCoreRunWrite .. | .gxtimecmpWrite .. =>
    [.cores]
  | .jnlReady .. | .fwPointStore .. | .fwPointCommit .. =>
    [.grn]
  | .refclkLost .. | .pllUnlock .. =>
    [.regs, .sys, .flt, .prt]
  | .clockRecovered .. =>
    [.regs, .sys, .hst, .flt, .cmd, .grn, .snr]
  | .frameStartWrite .. =>
    [.sys, .cmd]
  | .frameBoundary .. =>
    [.tick, .regs, .dma, .sys, .hst, .flt, .cmd, .ints, .cores, .lpe, .afe, .tim, .fur, .grn, .hrw, .prt, .snr, .stk, .tly]
  | .enginesDone .. =>
    [.tick, .regs, .flt, .ints, .cores, .lpe, .snr, .tly]
  | .loopDeadlineMiss .. =>
    [.tick, .regs, .flt, .lpe, .snr, .tly]
  | .loopEccUncorr .. =>
    [.regs, .freeCtr, .flt, .lpe, .snr]
  | .harrowStart .. =>
    [.tick, .regs, .flt, .cmd, .hrw, .tly]
  | .harrowSelectionDone .. =>
    [.tick, .regs, .hrw, .tly]
  | .carrierZero .. =>
    [.tick, .regs, .flt, .cmd, .ints, .cores, .hrw, .tly]
  | .carrierApex .. | .carrierCmpEvent .. =>
    [.tick, .regs, .flt, .ints, .cores, .hrw, .tly]
  | .effectApply .. =>
    [.regs, .dma, .hst, .flt, .cmd, .ints, .cores, .lpe, .tim, .fur, .grn, .snr, .stk, .tly]
  | .framePartReceive .. | .trainLockTimeout .. =>
    [.tick, .regs, .flt, .cmd, .ints, .cores, .fur, .snr, .tly]
  | .rxInputLoss .. | .wrapAtReceive .. =>
    [.regs, .flt, .cmd, .ints, .cores, .fur, .grn, .snr]
  | .pdReqReceive .. | .pdRespReceive .. | .trainLock .. =>
    [.fur]
  | .furRingCfgWrite .. | .discoverReturn .. | .measureReturn .. =>
    [.regs, .flt, .cmd, .ints, .cores, .fur, .snr]
  | .closureDeadline .. =>
    [.tick, .regs, .tly]
  | .epochClose .. =>
    [.regs, .dma, .flt, .cmd, .ints, .cores, .fur, .grn, .prt, .snr, .tly]
  | .epochCommit .. =>
    [.tick, .regs, .dma, .flt, .cmd, .ints, .cores, .fur, .grn, .hrw, .prt, .snr, .stk, .tly]
  | .publicationComplete .. =>
    [.regs, .dma, .freeCtr, .hst, .flt, .grn, .tly]
  | .publicationAbandon .. =>
    [.regs, .dma, .freeCtr, .hst, .grn, .tly]
  | .journalWrite .. =>
    [.regs, .std, .grn]
  | .afeConversion .. =>
    [.tick, .regs, .flt, .ints, .cores, .afe, .snr, .tly]
  | .afeSeqGo .. | .afeSeqModeWrite .. | .afeChCfgWrite .. =>
    [.regs, .afe]
  | .comparatorCrossing .. =>
    [.regs, .flt, .cmd, .ints, .cores, .afe, .fur, .grn, .hrw, .prt, .snr, .stk]
  | .comparatorRearm .. =>
    [.regs, .flt, .cmd, .afe, .fur, .grn, .hrw, .prt, .snr, .stk]
  | .clapperCauseLatch .. | .spCmdWrite .. | .commitWatchdog .. | .decisionReceive .. =>
    [.regs, .flt, .cmd, .fur, .grn, .hrw, .prt, .snr, .stk]
  | .clapperCauseClear .. | .prbChange .. | .offPulseStart .. =>
    [.regs, .flt, .prt, .snr, .stk]
  | .configCrcCheck .. | .spFailure .. | .heartbeatWrite .. =>
    [.regs, .prt]
  | .heartbeatTimeout .. =>
    [.tick, .regs, .prt, .tly]
  | .permitEnable .. | .permitCheckLDone .. | .permitRetTimeout .. | .permitOffChkExpire .. | .offPulseCheck .. | .offPulseEnd .. =>
    [.tick, .regs, .flt, .prt, .snr, .stk, .tly]
  | .tocsinReport .. | .fltClearOne .. | .fltClearAll .. | .fltClearFirst .. =>
    [.regs, .hst, .flt, .cmd, .grn, .snr]
  | .faultnPulseEnd .. =>
    [.tick, .flt, .tly]
  | .setUpDoneWrite .. =>
    [.regs, .sys, .std, .flt, .hrw, .prt, .snr, .stk]
  | .hstRingCfgWrite .. =>
    [.regs, .hst, .grn]
  | .doorbellWrite .. | .fetchFail .. | .fetchTimeout .. | .linkUp .. =>
    [.regs, .hst, .flt]
  | .bar2BadAccess .. | .bar0BadAccess .. =>
    [.rdata, .flt]
  | .commandFetch .. | .hstRestartWrite .. =>
    [.hst]
  | .fetchComplete .. =>
    [.hst, .tly]
  | .completionWrite .. =>
    [.regs, .dma, .hst, .aut, .tly]
  | .eventWrite .. =>
    [.regs, .dma, .hst, .tly]
  | .indexBlockWrite .. =>
    [.dma, .hst, .tly]
  | .linkDown .. =>
    [.regs, .hst, .flt, .snr]
  | .envelopeVerify .. | .firmwareEnvelopeVerify .. =>
    [.regs, .hst, .flt, .aut, .cmd, .ints, .cores, .tsk, .tly]
  | .sessionOpenVerify .. =>
    [.regs, .freeCtr, .hst, .flt, .aut, .tly]
  | .sessionExpire .. =>
    [.regs, .std, .aut]
  | .akeyCommitWrite .. =>
    [.aut]
  | .keyInstallComplete .. =>
    [.std, .aut]
  | .tamperLatch .. =>
    [.regs, .std, .flt, .aut, .cores, .hrw, .dbg]
  | .vbatLoss .. =>
    [.freeCtr, .std]
  | .vaultIntegrityFail .. =>
    [.regs, .std, .flt, .aut]
  | .itemRelease .. =>
    [.regs, .sys, .std, .hst, .flt, .aut, .cmd, .ints, .cores, .tsk, .tim, .fur, .grn, .prt, .snr, .stk, .tly]
  | .nop .. | .sessionClose .. | .snapCfg .. | .snareArm .. | .setpoint .. | .block .. | .deblock .. | .mode .. | .cellRetire .. | .cellRestore ..
   | .armMap .. | .coefWrite .. | .carrierSet .. | .calSet .. | .ringCtl .. | .timeAccept .. | .timeCfg .. | .akeyInstall .. | .akeyRevoke ..
   | .akeyReplace .. | .setupReopen .. | .sessionKill .. =>
    [.regs, .sys, .std, .hst, .flt, .aut, .cmd, .ints, .cores, .tim, .fur, .grn, .prt, .snr, .stk]
  | .fwUpdate .. =>
    [.regs, .std, .hst, .flt, .cmd, .grn, .snr]
  | .fwUpdateComplete .. =>
    [.regs, .std, .hst, .cmd, .grn]
  | .tskAlloc .. | .tskFree .. | .tskNext .. | .tskSetAff .. | .tskRelease .. =>
    [.regs, .flt, .tsk]
  | .tskWake .. | .tskSwitch .. | .tskSetPrio .. | .tskBadOp .. =>
    [.regs, .flt, .ints, .cores, .tsk]
  | .tskTake .. | .tskTokenHi .. =>
    [.tsk]
  | .relTimeout .. =>
    [.tick, .regs, .flt, .tsk, .tly]
  | .intClaim .. =>
    [.regs, .rdata, .dma, .freeCtr, .flt, .ints, .cores, .tly]
  | .intComplete .. | .intSourceEvent .. | .gxlsetWrite .. | .intSsetWrite .. | .intSwiWrite .. =>
    [.regs, .flt, .ints, .cores]
  | .modHoldExpire .. =>
    [.tick, .ints, .cores, .tly]
  | .timerExpire .. =>
    [.tick, .cores, .tly]
  | .gxdcopWrite .. =>
    [.freeCtr, .cores]
  | .granaryPortLoad .. =>
    [.regs, .rdata, .dma, .freeCtr, .flt, .ints, .cores, .tly]
  | .journalPortSubmit .. =>
    [.regs, .cores, .grn]
  | .coreAccessFault .. | .breakpointHit .. | .watchpointHit .. | .coreEccError .. =>
    [.regs, .dma, .freeCtr, .flt, .ints, .cores, .tly]
  | .lpeSrcWrite .. | .lpeDstWrite .. | .stkMessageCrcFail .. =>
    [.regs]
  | .lpeCapArm .. =>
    [.regs, .lpe]
  | .ethFrameReceive .. | .ethTxDone .. | .ethLinkChange .. =>
    [.regs, .flt, .tim]
  | .ethRxPop .. =>
    [.regs, .rdata, .dma, .freeCtr, .flt, .ints, .cores, .tim, .tly]
  | .ethRxRel .. =>
    [.tim]
  | .ethTxCtlWrite .. =>
    [.regs, .tim]
  | .txtsPop .. =>
    [.regs, .rdata, .dma, .freeCtr, .flt, .ints, .cores, .tim, .tly]
  | .measurementCommit .. =>
    [.regs, .freeCtr, .flt, .tim, .snr]
  | .holdoverTimeout .. =>
    [.tick, .regs, .freeCtr, .flt, .tim, .snr, .tly]
  | .stepGuardEnd .. =>
    [.tick, .tim, .tly]
  | .ptpSecond .. =>
    [.tick, .std, .stk, .tly]
  | .snareRecordWrite .. | .snareDumpDone .. =>
    [.regs, .dma, .flt, .snr, .tly]
  | .snareGap .. | .snarePostEnd .. =>
    [.tick, .regs, .dma, .flt, .snr, .tly]
  | .snareRearmEnd .. =>
    [.tick, .regs, .snr, .tly]
  | .trigLineAssert .. | .snrSwWrite .. | .trigLineRelease .. =>
    [.regs, .flt, .snr]
  | .trigOutRelease .. =>
    [.tick, .snr, .tly]
  | .stkClockLoss .. | .fstartMiss .. | .stkLaneLoss .. =>
    [.regs, .hst, .flt, .cmd, .lpe, .fur, .grn, .hrw, .prt, .snr, .stk]
  | .fstartReceive .. | .helloReceive .. =>
    [.tick, .regs, .hst, .flt, .cmd, .lpe, .fur, .grn, .hrw, .prt, .snr, .stk]
  | .dlyReqReceive .. | .dlyRespReceive .. =>
    [.stk]
  | .stationReceive .. =>
    [.regs, .flt, .tim, .grn, .snr, .stk]
  | .cellsReceive .. =>
    [.regs, .flt, .grn, .snr, .stk]
  | .effectReceive .. =>
    [.regs, .flt, .cmd, .ints, .cores, .tim, .fur, .snr, .stk]
  | .ackReceive .. | .ackTimeout .. =>
    [.regs, .hst, .cmd, .grn, .snr, .stk]
  | .harrowMsgReceive .. | .ringMsgReceive .. | .stkRetrainWrite .. | .forwardedClockReturn .. | .stkLaneLive .. =>
    [.regs, .flt, .snr, .stk]
  | .ptpMsgReceive .. =>
    [.tim, .stk]
  | .roleMasterTimer .. =>
    [.tick, .regs, .flt, .snr, .stk, .tly]
  | .bootWaitExpire .. =>
    [.tick, .regs, .flt, .snr, .stk]
  | .counterWrap .. =>
    [.regs, .dma, .flt, .ints, .cores, .tly]
  | .sampleBufferClear .. | .gxtlyovfClear .. =>
    [.tly]
  | .tlyDevCfgWrite .. =>
    [.regs, .tly]
  | .dbgEnLow .. | .dpRelock .. =>
    [.regs, .flt, .cores, .hrw, .dbg]
  | .dpParityError .. | .dpUnlockGo .. =>
    [.dbg]
  | .dpUnlockDone .. =>
    [.regs, .freeCtr, .flt, .dbg]
  | .dpUnlockExpire .. =>
    [.regs, .std, .flt, .cores, .hrw, .dbg]
  | .dpHalt .. =>
    [.regs, .flt, .cores, .dbg]
  | .dpResume .. =>
    [.cores, .dbg]
  | .dpStep .. =>
    [.regs, .dma, .freeCtr, .flt, .ints, .cores, .tly, .dbg]
  | .dpRegSelWrite .. | .dpRegHiWrite .. =>
    [.regs, .freeCtr, .flt, .ints, .cores, .tly, .dbg]
  | .dpMemDataAccess .. | .registerWrite .. =>
    [.tick, .regs, .mem, .rdata, .freeCtr, .sys, .std, .hst, .flt, .aut, .cmd, .ints, .cores, .tsk, .lpe, .afe, .tim, .fur, .grn, .hrw, .prt, .snr,
     .stk, .tly, .dbg]
  | .dpFreezeWrite .. =>
    [.regs, .flt, .hrw, .dbg]
  | .endpointFrameAccept .. | .endpointDiscover .. | .endpointEffectInstant .. | .endpointBlksymReceive .. | .endpointSelfBlock ..
   | .endpointLocalFault .. | .endpointInputLoss .. | .endpointUnloop .. | .endpointFaultClear .. =>
    [.eps]
  | .w1cWrite .. =>
    [.regs, .cores]
  | .rcRead .. =>
    [.regs, .rdata, .dma, .freeCtr, .flt, .ints, .cores, .tsk, .tim, .tly, .dbg]
  | .latchedPairRead .. =>
    [.regs, .rdata, .dma, .freeCtr, .flt, .ints, .cores, .tly]

/-- A write of `v` takes effect at the register at `off`: a map lists it, its type and the driver of the access let the write through,
the device is not held in reset, and no reserved field is set (R5, R12, R13). -/
def WriteOk (s : State) (bus : Bus) (off : Nat) (v : U32) : Prop :=
  held s = false ∧ ∃ row, rowOf off = some row ∧ writeReaches s bus row = true ∧ v &&& u32 row.rsv = 0

/-- Every block but SYS and the debug port stands at its reset values (R532). -/
def BlocksReset (t : State) : Prop :=
  t.tick = 0 ∧ t.hst = {} ∧ t.flt = {} ∧ t.aut = {} ∧ t.cmd = {} ∧ t.ints = [] ∧ t.cores = [] ∧ t.tsk = {} ∧ t.lpe = {} ∧ t.afe = {} ∧
  t.tim = {} ∧ t.fur = {} ∧ t.grn = {} ∧ t.hrw = {} ∧ t.prt = {} ∧ t.snr = {} ∧ t.stk = {} ∧ t.tly = {}

/-- The converter is off: every group is blocked, no command pends, Harrow holds every cell at BLK, and no permit is driven (R531,
R533, R543). -/
def ConverterOff (t : State) : Prop :=
  (∀ g, groupBlocked t g = true) ∧ t.cmd.pend = [] ∧ (∀ c, (hcell t c).endSt = 3) ∧ ∀ n, permitH t n = false ∧ permitL t n = false

/-- REV_CNT of authority slot `k` (R83). -/
def revOf (x : Std) (k : Nat) : Nat := (tget {} x.slots k).revCnt

/-- The authority slots are in canonical form. -/
def slotsWf (x : Std) : Bool := tblWf (fun _ => ({} : KeySlot)) x.slots

/-- Core memory, the register table and the authority slots are in canonical form: a listed entry differs from what its key reads as,
and no key is listed twice. -/
def Canonical (s : State) : Bool := Memory.wf s.mem && tblWf regReset s.regs && slotsWf s.std

end Sys2Proof.Machine
end

