-- ==== Sys2Proof/WellFormed.lean ====
section
/-! DEFINITION. Which commands are well formed: what the operand types leave open is checked here, one check per kind of operand. -/

namespace Sys2Proof

/-- The type of the register at an offset, if a map lists it. -/
def regTypeAt (off : Nat) : Option Machine.RegTy := (Machine.rowOf off).map (fun r => r.ty)

/-- A catalogue command's slot lies in a ring of at most 2^16 entries and its flow in 0 to 63 by type; its payload is at most
192 bytes (R80) and its session is never 0 (R80). -/
def catalogueOk (x : CmdSrc) (p : Bytes) : Bool := decide (p.length ≤ 192) && decide (x.session ≠ 0)

/-- A firmware envelope is 512 bytes (R80). -/
def envelopeOk (x : CmdSrc) (env : Bytes) : Bool := decide (env.length = 512) && decide (x.session ≠ 0)

/-- A register access of 32 bits at a 4-byte-aligned offset (R10). -/
def alignedOk (off : Nat) : Bool := decide (off % 4 = 0)

/-- A register access of 32 bits, or of 64 bits at an 8-byte-aligned offset (R10). The debug port makes only accesses of 32 bits (R525), and
BAR2 takes no others (R56). -/
def busAccessOk (bus : Bus) (off : Nat) (wide : Bool) : Bool :=
  if wide then decide (off % 8 = 0) && decide (bus ≠ .debug) && decide (off < 0x2000000) else alignedOk off

/-- BAR2 is the host's (R55). -/
def spaceOk (bus : Bus) (off : Nat) : Bool := decide (off < 0x2000000) || decide (bus = .host)

/-- The copies of a DISCOVER carry at most one identity block per hop, 256 of them (R208). -/
def copyOk (c : DiscCopy) : Bool := decide (c.ids.length ≤ 256)

/-- The low words of the latched pairs (R39, R110, R183, R329, R461, R509, R529, R547).
[DEDUCED: notes/assumptions/51] -/
def lowWord (off : Nat) : Bool :=
  [Machine.rSYS_EPOCH_LO, Machine.rSYS_BOOT_CVER_LO, Machine.rSYS_BOOT_SVER_LO, Machine.rAUT_RTC_LO, Machine.rAUT_ARB_LO,
   Machine.rGRN_COMMIT_LO, Machine.rGRN_MISS_LAST_LO, Machine.rLPE_CAP_EPOCH_LO, Machine.rSTK_TAKE_EPOCH_LO,
   Machine.rTIM_PTP_NS].contains off ||
  (List.range 8).any (fun k => off == Machine.rTLY_CWIN_LO k || off == Machine.rTLY_DEV_LO k)

/-- Is a command well formed. -/
def Instr.wf : Instr → Bool
  | .nop x p => catalogueOk x p
  | .sessionClose x p => catalogueOk x p
  | .snapCfg x p => catalogueOk x p
  | .snareArm x p => catalogueOk x p
  | .setpoint x p => catalogueOk x p
  | .block x p => catalogueOk x p
  | .deblock x p => catalogueOk x p
  | .mode x p => catalogueOk x p
  | .cellRetire x p => catalogueOk x p
  | .cellRestore x p => catalogueOk x p
  | .armMap x p => catalogueOk x p
  | .coefWrite x p => catalogueOk x p
  | .carrierSet x p => catalogueOk x p
  | .calSet x p => catalogueOk x p
  | .ringCtl x p => catalogueOk x p
  | .timeAccept x p => catalogueOk x p
  | .timeCfg x p => catalogueOk x p
  | .akeyInstall x p => catalogueOk x p
  | .akeyRevoke x p => catalogueOk x p
  | .akeyReplace x p => catalogueOk x p
  | .setupReopen x p => catalogueOk x p
  | .sessionKill x p => catalogueOk x p
  | .fwUpdate x env => envelopeOk x env
  | .fetchComplete _ bs => decide (bs.length = 256 ∨ bs.length = 512)
  | .effectReceive _ _ _ env => decide (env.length ≤ 512)
  | .ethFrameReceive _ _ f => decide (f.length ≤ 2032)
  | .journalPortSubmit _ ws _ => decide (ws.length ≤ 4096)
  | .enginesDone corr => decide (corr.length ≤ 8)
  | .discoverReturn _ a b => copyOk a && copyOk b
  | .measureReturn _ _ _ ms => decide (ms.length ≤ 256)
  | .registerWrite bus off _ hi => busAccessOk bus off hi.isSome || (decide (bus = .debug) && decide (off.val < 0x100) && hi.isNone)
  | .w1cWrite _ off _ => alignedOk off && decide (regTypeAt off = some .w1c)
  | .rcRead bus off wide => (busAccessOk bus off wide || (decide (bus = .debug) && decide (off.val < 0x100) && !wide)) && spaceOk bus off
  | .latchedPairRead bus off wide => busAccessOk bus off wide && lowWord off
  | _ => true

end Sys2Proof
end

