-- ==== Sys2Proof/Certificates/Slice0/Obligations.lean ====
section
/-! DEFINITION. The statements about the GX16K that are put to the provers. -/

open Sys2Proof Sys2Proof.Machine

/-! ### The queue, the clock and reset -/

/-- A step takes the command at the front of the queue and is its meaning with the rest of the queue waiting. -/
def Obligations.StepRunsTheFrontCommand : Prop :=
  ∀ (s : State) (c : Instr) (rest : List Instr), s.pending = c :: rest → step s = exec c { s with pending := rest }

/-- On an empty queue one tick passes while the clocks run, counted by the device counters of FAB cycles (R519), and nothing happens while they
do not: the model's choice (notes/assumptions/3). -/
def Obligations.EmptyQueueLetsOneTickPass : Prop :=
  ∀ s : State, s.pending = [] →
    ∃ t, step s = .next t ∧ (s.sys.clkRun = false → t = s) ∧
      (s.sys.clkRun = true → s.tick.toNat + 1 < 2 ^ 64 → t.tick = s.tick + 1) ∧ ChangesOnly [.tick, .tly] s t

/-- What reset leaves: the Reset column of registers of every block, and no state pending. -/
def Obligations.ResetReadsTheResetColumn : Prop :=
  (∀ bus : Bus, ∀ p ∈ ([(0x000000, 0x67160A01), (0x000100, 0), (0x000110, 0x00040401), (0x000118, 0), (0x000120, 0), (0x000204, 0),
      (0x000300, 1), (0x100000, 0), (0x200000, 0), (0x300000, 0), (0x400008, 0x03E8FFFF), (0x600010, 0x00010000), (0x600014, 1),
      (0x601038, 0xFF7FFFFF), (0x701000, 4), (0x701004, 0x447A0000), (0x701010, 0x00FA04E2), (0x800010, 0x00004003),
      (0x900000, 0x40), (0x900010, 0x16800C80), (0x900050, 0x00010A00), (0xA01004, 0x3F800000), (0xB00008, 0x0A4B0404),
      (0xC00010, 0x0502111E), (0xC00014, 1000), (0xC00018, 250), (0xD00010, 0x050A0064), (0xD00014, 0x00000A0A),
      (0xD00064, 0x3FF), (0xD00200, 0x00FF0414), (0xE00010, 0x00040025), (0xE00014, 0x64), (0xF00000, 0), (0x1000000, 0),
      (0x1100000, 0)] : List (Nat × U32)),
      busRead State.reset bus p.1 = p.2) ∧
  State.reset.tick = 0 ∧ State.reset.sys.running = false ∧ State.reset.sys.setupDone = false ∧ State.reset.pending = [] ∧
  State.reset.dma = []

/-! ### What every step keeps -/

/-- Core memory, the register table and the authority slots are canonical after reset. -/
def Obligations.ResetIsCanonical : Prop :=
  Canonical State.reset = true

/-- Every step keeps the canonical forms: no entry of core memory, of the register table or of the authority slots is listed twice or listed
with the value that an unlisted one has. -/
def Obligations.EveryStepKeepsTheCanonicalForms : Prop :=
  ∀ s t : State, step s = .next t → Canonical s = true → Canonical t = true

/-- No step, and no command, lowers the REV_CNT of an authority slot. -/
def Obligations.RevCntNeverFalls : Prop :=
  ∀ s t : State, slotsWf s.std = true → step s = .next t → ∀ k, revOf s.std k ≤ revOf t.std k

/-- Every step leaves the posted writes already issued as they are and in order; it adds its own after them. -/
def Obligations.PostedWritesStayInOrder : Prop :=
  ∀ s t : State, step s = .next t → ∃ ws, t.dma = s.dma ++ ws

/-- A command changes the areas of the state that `areas` gives it and no other. No command touches the queue: only the step takes from it.
Every byte of core memory reads as before after every command but the four that store to it: power-on reset, the start of the core image,
and writes through the debug port. -/
def Obligations.CommandsChangeOnlyTheirAreas : Prop :=
  (∀ (c : Instr) (s t : State), exec c s = .next t → ChangesOnly (areas c) s t) ∧
  (∀ (c : Instr) (s t : State), exec c s = .next t → t.pending = s.pending) ∧
  (∀ (c : Instr) (s t : State), exec c s = .next t → (areas c).contains .mem = false →
    ∀ a : Nat, readByte t.mem a = readByte s.mem a)

/-! ### Register access (R5, R12, R13, R39, R521, R525) -/

/-- Reserved offsets: the part above the blocks lists none; a read of one returns 0, a write to one is ignored, and neither raises an error: both
leave everything else as it was, but for what a core's read counts (UNC_LOAD, R512). -/
def Obligations.ReservedOffsetsReadZeroAndIgnoreWrites : Prop :=
  (∀ off : Nat, 0x1200000 ≤ off → off < 0x2000000 → rowOf off = none) ∧
  ∀ (s : State) (bus : Bus) (off : Fin 0x2000000) (v : U32), rowOf off = none → (bus = .debug → 0x100 ≤ off.val) →
    busRead s bus off = 0 ∧ exec (.rcRead bus (off.castLE (by decide)) false) s = .next (busLoad bus { s with rdata := 0 }) ∧
    exec (.registerWrite bus off v none) s = .next s ∧ exec (.w1cWrite bus off v) s = .next s

/-- A write that reaches its register and sets a reserved field stops with the fault that names the register: the model's choice
(notes/assumptions/7), for R13 gives such a write no effect. A write that sets none, or does not reach its register, is never stopped. A
64-bit access is two 32-bit accesses in one command, the lower offset first (R10). -/
def Obligations.ReservedFieldsStopTheWrite : Prop :=
  ∀ (s : State) (bus : Bus) (off : Fin 0x2000000) (v : U32) (row : RegRow), rowOf off = some row →
    (bus = .debug → 0x100 ≤ off.val) → (coreRegs off = true → ∃ c, bus = .core c) →
    (writeReaches s bus row = true → held s = false → v &&& u32 row.rsv ≠ 0 →
      exec (.registerWrite bus off v none) s = .fault (.reservedFieldSet off)) ∧
    (writeReaches s bus row = false ∨ held s = true → exec (.registerWrite bus off v none) s = .next s) ∧
    (v &&& u32 row.rsv = 0 → Gives (.registerWrite bus off v none) s fun t =>
      ∀ (h : U32) (up : Fin 0x2000000), up.val = off.val + 4 → bus ≠ .debug →
        exec (.registerWrite bus off v (some h)) s = exec (.registerWrite bus up h none) t)

/-- A write to a register that is read-only or clears on read, or, once SYS_SETUP_DONE has been written, to an RWL register, is ignored; a WO
register reads 0 (R12). Writing 1 to a bit of a W1C register clears it unless its cause is still present, writing 0 leaves it; every other register
keeps its value (R12). Which causes are present is `evtLive` (notes/assumptions/9). A read of an RC register returns its value and clears it; the
debug port's read clears nothing (R12, R525); a core's read counts UNC_LOAD after that (R512). TSK_WHY, whose content is the reading core's, and the
two pop registers of the Ethernet ports are stated apart. -/
def Obligations.RegisterTypesHold : Prop :=
  (∀ (s : State) (bus : Bus) (off : Fin 0x2000000) (v : U32) (row : RegRow), rowOf off = some row →
    (bus = .debug → 0x100 ≤ off.val) →
    ((row.ty = .ro ∨ row.ty = .rc ∨ (row.ty = .rwl ∧ s.sys.setupDone = true)) → exec (.registerWrite bus off v none) s = .next s) ∧
    (row.ty = .wo → busRead s bus off = 0)) ∧
  (∀ (s : State) (bus : Bus) (off : Fin 0x2000000) (v : U32), WriteOk s bus off v → (rowOf off).map RegRow.ty = some .w1c →
    Gives (.w1cWrite bus off v) s fun t =>
      (∀ i, i < 32 → v.getLsbD i = false → (rg t off).getLsbD i = (rg s off).getLsbD i) ∧
      (∀ i, i < 32 → v.getLsbD i = true → (evtLive (latchAll s) off).getLsbD i = false → (rg t off).getLsbD i = false) ∧
      (∀ i, i < 32 → v.getLsbD i = true → (evtLive (latchAll s) off).getLsbD i = true → (rg t off).getLsbD i = (rg s off).getLsbD i) ∧
      (∀ o, o ≠ off.val → rg t o = rg s o) ∧ ChangesOnly [.regs, .cores] s t) ∧
  (∀ (s : State) (bus : Bus) (off : Fin 0x2000000), (rowOf off).map RegRow.ty = some .rc →
    off.val ∉ [rTSK_WHY, rTIM_ETH_RX_POP 0, rTIM_ETH_RX_POP 1, rTIM_ETH_TXTS_ID 0, rTIM_ETH_TXTS_ID 1] →
    (bus ≠ .debug → Gives (.rcRead bus (off.castLE (by decide)) false) s fun u => ∃ t, u = busLoad bus t ∧
      t.rdata = u64 (busRead s bus off).toNat ∧ rg t off = 0 ∧ (∀ o, o ≠ off.val → rg t o = rg s o) ∧
      ChangesOnly [.regs, .rdata] s t) ∧
    (bus = .debug → 0x100 ≤ off.val → exec (.rcRead bus (off.castLE (by decide)) false) s = .next { s with rdata := u64 (busRead s bus off).toNat }))

/-- A write to a plain register stores the writable bits and keeps the others, and changes no other register and nothing else: the frame
configuration, the publication and replication configuration, Furrow's, Harrow's arm configuration, the station network's, protection's,
Tocsin's and the stack's. -/
def Obligations.PlainRegistersStoreWhatIsWritten : Prop :=
  ∀ (s : State) (bus : Bus) (v : U32),
    ∀ off ∈ ([rSYS_FRAME_CFG, rGRN_CLOSE_CFG, rGRN_PUB_CFG, rGRN_REPL_CFG, rFUR_CFG, rLPE_TG_CFG, rHRW_ARM_CFG 3, rHRW_ARM_TIME 3,
      rTIM_CFG, rTIM_STEP_THR, rPRT_CFG, rPRT_TEST_CFG, rPRT_SP_CFG, rFLT_CFG, rFLT_FAULTN_CFG, rSTK_CFG, rTSK_CFG] : List Nat),
    ∀ (h : off < 0x2000000), WriteOk s bus off v →
      Gives (.registerWrite bus ⟨off, h⟩ v none) s fun t =>
        (∀ row, rowOf off = some row → rg t off = (v &&& u32 row.w) ||| (rg s off &&& ~~~ u32 row.w)) ∧
        (∀ o, o ≠ off → rg t o = rg s o) ∧ ChangesOnly [.regs] s t

/-- Any read of the low word of a 64-bit value returns its low half and latches the high half, which the high word's register then reads: the
epoch, the boot versions, the RTC seconds, the anti-rollback counter, the committed and the last missed epoch, the capture's and the
takeover's epoch (R39). A 64-bit read returns both halves (R10). A core's read counts UNC_LOAD after that (R512). -/
def Obligations.LowWordsLatchTheirHighWords : Prop :=
  ∀ (s : State) (bus : Bus),
    ∀ p ∈ ([(rSYS_EPOCH_LO, rSYS_EPOCH_HI, epochNow s), (rSYS_BOOT_CVER_LO, rSYS_BOOT_CVER_HI, s.sys.cver.toNat),
      (rSYS_BOOT_SVER_LO, rSYS_BOOT_SVER_HI, s.sys.sver.toNat), (rAUT_RTC_LO, rAUT_RTC_HI, s.std.rtcSec.toNat),
      (rAUT_ARB_LO, rAUT_ARB_HI, s.std.arb.toNat), (rGRN_COMMIT_LO, rGRN_COMMIT_HI, s.grn.commit.k),
      (rGRN_MISS_LAST_LO, rGRN_MISS_LAST_HI, s.grn.missLast.toNat), (rLPE_CAP_EPOCH_LO, rLPE_CAP_EPOCH_HI, s.lpe.cap.epoch.toNat),
      (rSTK_TAKE_EPOCH_LO, rSTK_TAKE_EPOCH_HI, s.stk.takeEpoch)] : List (Nat × Nat × Nat)),
    ∀ (h : p.1 < 0x2000000),
      (Gives (.latchedPairRead bus ⟨p.1, h⟩ false) s fun u =>
        exec (.rcRead bus ⟨p.1, Nat.lt_of_lt_of_le h (by decide)⟩ false) s = .next u ∧ ∃ t, u = busLoad bus t ∧
        t.rdata.toNat = p.2.2 % 2 ^ 32 ∧ (busRead t bus p.2.1).toNat = p.2.2 / 2 ^ 32 % 2 ^ 32 ∧
        (∀ o, o ≠ p.2.1 → rg t o = rg s o) ∧ ChangesOnly [.regs, .rdata] s t) ∧
      Gives (.latchedPairRead bus ⟨p.1, h⟩ true) s fun u => ∃ t, u = busLoad bus t ∧
        t.rdata.toNat = p.2.2 % 2 ^ 64 ∧ (∀ o, o ≠ p.2.1 → rg t o = rg s o) ∧ ChangesOnly [.regs, .rdata] s t

/-! ### Resets, clocks and boot (R17, R31 to R36, R46, R85, R397, R530 to R548) -/

/-- POR, PIN and SOFT return every block to its reset values, every register to its Reset column except SYS_CLK_EVT, which only POR resets,
leave the converter off with the tick count 0, and keep the standby domain and non-volatile cells. POR also empties core memory
(notes/assumptions/1); while POR is asserted a low RST_N does nothing. The release of POR, PIN and SOFT ends the reset, records its cause
(1, 2, 3) with LONG at bit 4, counts and clears a LONG latch, reads the ID straps, sees that the device has its key pair, and changes no
register but SYS_RST_CAUSE, AUT_EVT and the high words of the standby values, which show them (R110); where its reset is not asserted it
does nothing. The LONG latch sets while RST_N is low. A FRAME reset stops frames at the end of the frame in transmission, puts every ring in
OFF, Harrow's cells, the images and Snare at their reset values, disables every loop without a drain, records its cause, and keeps the
standby domain, the sessions, the host rings, core memory, the permits and the set-up window. -/
def Obligations.ResetsReturnEveryBlock : Prop :=
  (∀ s : State,
    (∀ secs, Gives (.porAssert secs) s fun t =>
      BlocksReset t ∧ ConverterOff t ∧ t.sys = { por := true } ∧ t.dbg = {} ∧ (∀ o, rg t o = regReset o) ∧ (∀ a, readByte t.mem a = 0) ∧
      t.std = { s.std with lowSecs := t.std.lowSecs } ∧ t.eps = s.eps ∧ t.dma = s.dma) ∧
    (s.sys.por = false → Gives .rstNLow s fun t =>
      BlocksReset t ∧ ConverterOff t ∧ t.sys = { pin := true } ∧ (∀ o, rg t o = if o = rSYS_CLK_EVT then rg s o else regReset o) ∧
      t.dbg = { en := s.dbg.en } ∧ t.std = s.std ∧ t.mem = s.mem ∧ t.eps = s.eps ∧ t.dma = s.dma) ∧
    (s.sys.por = true → exec .rstNLow s = .next s) ∧
    (∀ bus, WriteOk s bus rSYS_RST_CTL 1 → Gives (.softReset bus) s fun t =>
      BlocksReset t ∧ ConverterOff t ∧ t.sys = { soft := true } ∧ (∀ o, rg t o = if o = rSYS_CLK_EVT then rg s o else regReset o) ∧
      t.dbg = { en := s.dbg.en } ∧ t.std = s.std ∧ t.mem = s.mem ∧ t.eps = s.eps ∧ t.dma = s.dma)) ∧
  (∀ (s : State) (id : BitVec 3) (secs : Nat),
    let released (cause : Nat) (t : State) : Prop :=
      t.sys = { s.sys with por := false, pin := false, soft := false } ∧
      rg t rSYS_RST_CAUSE = u32 (cause + b2n s.std.longLatch * 16) ∧ t.stk = { s.stk with id := id.toNat } ∧
      t.std.longLatch = false ∧ t.std.longCnt = (if s.std.longLatch then min 0xFFFF (s.std.longCnt + 1) else s.std.longCnt) ∧
      t.std.devNeed = false ∧ (s.std.devNeed = true → t.std.devPriv.isSome = true) ∧
      rg t rAUT_RTC_HI = u32 (s.std.rtcSec.toNat / 2 ^ 32) ∧ rg t rAUT_ARB_HI = hi32 s.std.arb ∧
      (∀ o, o ∉ [rSYS_RST_CAUSE, rAUT_EVT, rAUT_RTC_HI, rAUT_ARB_HI] → rg t o = rg s o) ∧
      ChangesOnly [.regs, .freeCtr, .sys, .std, .aut, .stk, .dbg] s t
    (s.sys.por = true → Gives (.porRelease id) s (released 1)) ∧ (s.sys.por = false → exec (.porRelease id) s = .next s) ∧
    (s.sys.pin = true → Gives (.rstNRelease secs id) s (released 2)) ∧
    (s.sys.pin = false → exec (.rstNRelease secs id) s = .next s) ∧
    (s.sys.soft = true → Gives (.softResetRelease id) s (released 3)) ∧
    (s.sys.soft = false → exec (.softResetRelease id) s = .next s) ∧
    (s.sys.pin = true → exec .longResetLatch s = .next { s with std := { s.std with longLatch := true, lowSecs := 10 } })) ∧
  (∀ (s : State) (bus : Bus), WriteOk s bus rSYS_RST_CTL 2 →
    Gives (.frameReset bus) s fun t =>
      t.sys.running = false ∧ t.sys.setupDone = s.sys.setupDone ∧ (∀ r, r < 64 → (ring t r).st = 0) ∧
      (∀ c, hcell t c = {}) ∧ t.grn.commit = {} ∧ t.grn.valid = false ∧ t.snr.st = 0 ∧
      (∀ l, (loop t l).enabled = false ∧ (loop t l).out = 0 ∧ (loop t l).integ = 0) ∧ rg t rSYS_RST_CAUSE = 4 ∧
      t.cmd.arms = s.cmd.arms ∧ t.cmd.groups = s.cmd.groups ∧ t.cmd.cells = s.cmd.cells ∧
      ChangesOnly [.tick, .regs, .sys, .flt, .cmd, .ints, .cores, .lpe, .afe, .fur, .grn, .hrw, .snr, .stk, .tly] s t)

/-- Loss of REFCLK or of the root PLL clears its status bit, stops the clock (unless, for REFCLK, the device runs on the clock that it takes
from the stack), sets its bit of SYS_CLK_EVT, reports, and asserts Clapper input 11 where that is enabled (R17, R33, R359). The PLL's lock
starts the clocks and core 0; after a loss the clocks run again. -/
def Obligations.ClockLossAndRecovery : Prop :=
  ∀ s : State,
    (s.sys.refclkOk = true → Gives .refclkLost s fun t =>
      t.sys = { s.sys with refclkOk := false, clkRun := s.sys.clkRun && stackClocked s } ∧
      rg t rSYS_CLK_EVT = rg s rSYS_CLK_EVT ||| 1 ∧ (∀ o, o ≠ rSYS_CLK_EVT → rg t o = rg s o) ∧
      t.flt = { s.flt with inbox := s.flt.inbox ++ [{ source := 0, code := 0 }] } ∧
      (clapEn s 11 = true → t.prt.asserted.getLsbD 11 = true) ∧ ChangesOnly [.regs, .sys, .flt, .prt] s t) ∧
    (s.sys.pllLock = true → Gives .pllUnlock s fun t =>
      t.sys = { s.sys with pllLock := false, clkRun := false } ∧ rg t rSYS_CLK_EVT = rg s rSYS_CLK_EVT ||| 2 ∧
      (∀ o, o ≠ rSYS_CLK_EVT → rg t o = rg s o) ∧ t.flt = { s.flt with inbox := s.flt.inbox ++ [{ source := 0, code := 0 }] } ∧
      (clapEn s 11 = true → t.prt.asserted.getLsbD 11 = true) ∧ ChangesOnly [.regs, .sys, .flt, .prt] s t) ∧
    (held s = false → Gives .pllLock s fun t =>
      t.sys = { s.sys with refclkOk := true, pllLock := true, clkRun := true } ∧ core t 0 = { coreTick s (core s 0) with released := true } ∧
      (∀ c, c ≠ 0 → core t c = core s c) ∧ ChangesOnly [.sys, .cores] s t) ∧
    (held s = false → s.sys.clkRun = false → Gives .clockRecovered s fun t =>
      t.sys = { s.sys with refclkOk := true, pllLock := true, clkRun := true } ∧
      ChangesOnly [.regs, .sys, .hst, .flt, .cmd, .grn, .snr] s t)

/-- Boot: the device key becomes usable; the core ROM copies the image of the bank it picks to 0x4000_0000 and core 0 enters it in M mode; the
safety ROM starts its image; each shows the version and sets its run bit, and counts a try while the version exceeds the anti-rollback
counter. Without an eligible bank SYS_BOOT_STAT shows the failure. -/
def Obligations.BootStartsTheImages : Prop :=
  ∀ s : State, held s = false →
    (s.std.devNeed = false → s.std.devPriv.isSome = true →
      exec .devkeyOk s = .next { s with aut := { s.aut with devkeyOk := true } }) ∧
    (s.sys.pllLock = true → bit (rg s rSYS_BOOT_STAT) 6 = false → ∀ i fb, bankPick s 1 = some (i, fb) →
      Gives (.coreImageStart true) s fun t =>
        t.sys = { s.sys with cver := u64 (rd (bank s i).env 48 8) } ∧
        (core t 0).pc = 0x40000000 ∧ (core t 0).priv = 3 ∧ (core t 0).released = true ∧ (∀ c, c ≠ 0 → core t c = core s c) ∧
        bit (rg t rSYS_BOOT_STAT) 6 = true ∧ (∀ o, o ≠ rSYS_BOOT_STAT → rg t o = rg s o) ∧
        (∀ a, (a < 0x40000000 ∨ 0x40000000 + rd (bank s i).env 36 4 ≤ a) → readByte t.mem a = readByte s.mem a) ∧
        (∀ k (h : k < (bank s i).image.length), k < rd (bank s i).env 36 4 → readByte t.mem (0x40000000 + k) = (bank s i).image[k]) ∧
        (bank t i).tries = (if s.std.arb.toNat < rd (bank s i).env 48 8 then min 3 ((bank s i).tries + 1) else (bank s i).tries) ∧
        ChangesOnly [.regs, .mem, .sys, .std, .cores] s t) ∧
    (s.sys.pllLock = true → bit (rg s rSYS_BOOT_STAT) 6 = false → fld (rg s rSYS_BOOT_STAT) 10 8 = 0 → bankPick s 1 = none →
      Gives (.coreImageStart true) s fun t => fld (rg t rSYS_BOOT_STAT) 10 8 = 1 ∧ ChangesOnly [.regs] s t) ∧
    (s.sys.pllLock = true → bit (rg s rSYS_BOOT_STAT) 7 = false → ∀ i fb, bankPick s 2 = some (i, fb) →
      Gives (.safetyImageStart true) s fun t =>
        t.sys = { s.sys with sver := u64 (rd (bank s i).env 48 8) } ∧ t.prt = { s.prt with sp := true } ∧
        bit (rg t rSYS_BOOT_STAT) 7 = true ∧ (∀ o, o ≠ rSYS_BOOT_STAT → rg t o = rg s o) ∧
        (bank t i).tries = (if s.std.arb.toNat < rd (bank s i).env 48 8 then min 3 ((bank s i).tries + 1) else (bank s i).tries) ∧
        ChangesOnly [.regs, .sys, .std, .prt] s t)

/-- SYS_SETUP_DONE closes the window only with a usable authority key and command and completion ring 0 enabled; the anti-rollback counter
then takes the smaller running version if that is larger, a vault in PROVISION becomes READY, the configuration CRC check starts, and the
carrier grid starts again at the next frame. Otherwise the window stays open and SYS_SETUP_STAT shows REFUSED and the reasons. Any value but
1, and a write while the window is closed, is ignored (R46, R274, R540). -/
def Obligations.SetupDoneClosesTheWindow : Prop :=
  ∀ (s : State) (bus : Bus) (v : U32), WriteOk s bus rSYS_SETUP_DONE v →
    (v ≠ 1 ∨ s.sys.setupDone = true → exec (.setUpDoneWrite bus v) s = .next s) ∧
    (v = 1 → s.sys.setupDone = false → (List.range 8).any (slotActive s) = true → ringEn s 0 = true → ringEn s 4 = true →
      Gives (.setUpDoneWrite bus v) s fun t =>
        t.sys = { s.sys with setupDone := true, setupWhy := 0 } ∧
        t.std.arb = u64 (max s.std.arb.toNat (min s.sys.cver.toNat s.sys.sver.toNat)) ∧
        t.std.vault = (if s.std.vault = 1 then 2 else s.std.vault) ∧ t.std.slots = s.std.slots ∧ t.prt.crcOn = true ∧
        t.hrw = { s.hrw with gridDue := true } ∧ ChangesOnly [.regs, .sys, .std, .flt, .hrw, .prt, .snr, .stk] s t) ∧
    (v = 1 → s.sys.setupDone = false →
      ((List.range 8).any (slotActive s) = false ∨ ringEn s 0 = false ∨ ringEn s 4 = false) →
      Gives (.setUpDoneWrite bus v) s fun t =>
        t.sys.setupDone = false ∧ bit t.sys.setupWhy 1 = true ∧
        bit t.sys.setupWhy 2 = !(List.range 8).any (slotActive s) ∧ bit t.sys.setupWhy 3 = !ringEn s 0 ∧
        bit t.sys.setupWhy 4 = !ringEn s 4 ∧ t = { s with sys := { s.sys with setupWhy := t.sys.setupWhy } })

/-- START is refused, and CFG_ERR set, while FRAME_LEN is 3, PERIOD lies outside 2 to 40, LOOKAHEAD lies outside 4 to 8, the PLL is not locked,
or a tick count from the partner is awaited. Otherwise CFG_ERR is cleared, the lengths are latched, and the first frame's boundary is the
next whole multiple of L ticks. Once frames run START has no effect (R36). -/
def Obligations.StartFollowsTheFrameConfiguration : Prop :=
  ∀ (s : State) (bus : Bus) (v : U32), WriteOk s bus rSYS_FRAME_CTL v → bit v 0 = true →
    let w := rg s rSYS_FRAME_CFG
    let good := fld w 1 0 ≠ 3 ∧ (2 ≤ fld w 13 8 ∧ fld w 13 8 ≤ 40) ∧ (4 ≤ fld w 19 16 ∧ fld w 19 16 ≤ 8) ∧ s.sys.pllLock = true ∧
      tickReady s = true
    (s.sys.running = true → exec (.frameStartWrite bus v) s = .next s) ∧
    (s.sys.running = false → ¬ good →
      exec (.frameStartWrite bus v) s = .next { s with sys := { s.sys with cfgErr := true } }) ∧
    (s.sys.running = false → good → Gives (.frameStartWrite bus v) s fun t =>
      t.sys.running = true ∧ t.sys.cfgErr = false ∧ t.sys.flen = fld w 1 0 ∧ t.sys.period = fld w 13 8 ∧ t.sys.la = fld w 19 16 ∧
      s.tick.toNat < t.sys.nextJ * frameTicks (fld w 1 0) ∧ t.sys.nextJ * frameTicks (fld w 1 0) ≤ s.tick.toNat + frameTicks (fld w 1 0) ∧
      (∀ x ∈ t.cmd.arms, x ∈ s.cmd.arms) ∧ ChangesOnly [.sys, .cmd] s t)

/-- While frames are generated and the clock runs, a frame boundary moves the tick count to the boundary, which is a whole multiple of L, and
the next frame is the next in number. -/
def Obligations.FrameBoundariesFollowEachOther : Prop :=
  ∀ s : State, s.sys.running = true → s.sys.clkRun = true → s.tick.toNat ≤ s.sys.nextJ * lTicks s → s.sys.nextJ * lTicks s < 2 ^ 64 →
    Gives .frameBoundary s fun t =>
      t.tick.toNat = s.sys.nextJ * lTicks s ∧ t.sys = { s.sys with nextJ := s.sys.nextJ + 1 } ∧
      ChangesOnly (areas .frameBoundary) s t

/-! ### Cores, their ports and the journal (R178 to R182, R404 to R410, R423, R547) -/

/-- A core access that the map does not permit traps into M mode: mepc, mcause (1 fetch, 5 load, 7 store or AMO), mtval (the address) and
mstatus (MPP, MPIE, MIE) are written and the pc goes to the base in mtvec; other CSRs, other cores' pc and mode, and core memory stay (R404,
R405). Where it is permitted, or the core is halted, nothing happens. An uncorrected ECC error traps alike and, in the core's TCM, is
reported; a corrected one counts in CPU_ECC_CNT (R423). -/
def Obligations.CoreAccessFaultsTrap : Prop :=
  ∀ (s : State) (c : Fin 16) (a : U64) (kind : Fin 4) (place : Fin 3),
    let h := core s c
    let trapped (t : State) : Prop :=
      (core t c).pc = u64 ((tget 0 h.csr 0x305).toNat / 4 * 4) ∧ (core t c).priv = 3 ∧ tget 0 (core t c).csr 0x341 = h.pc ∧
      tget 0 (core t c).csr 0x342 = (if kind.val = 0 then 1 else if kind.val = 1 then 5 else 7) ∧ tget 0 (core t c).csr 0x343 = a ∧
      fld (tget 0 (core t c).csr 0x300) 12 11 = h.priv % 4 ∧ bit (tget 0 (core t c).csr 0x300) 3 = false ∧
      bit (tget 0 (core t c).csr 0x300) 7 = bit (tget 0 h.csr 0x300) 3 ∧
      (∀ n, n ∉ [0x300, 0x341, 0x342, 0x343] → tget 0 (core t c).csr n = tget 0 h.csr n) ∧
      (∀ d, d ≠ c.val → (core t d).pc = (core s d).pc ∧ (core t d).priv = (core s d).priv ∧ (core t d).csr = (core s d).csr) ∧
      ChangesOnly [.regs, .dma, .freeCtr, .flt, .ints, .cores, .tly] s t
    (h.halted = false → accessOk a.toNat kind = false → Gives (.coreAccessFault c a kind) s trapped) ∧
    (accessOk a.toNat kind = true ∨ h.halted = true → exec (.coreAccessFault c a kind) s = .next s) ∧
    (h.halted = false → Gives (.coreEccError c false place a kind) s trapped) ∧
    (h.halted = false → Gives (.coreEccError c false 0 a kind) s fun t =>
      { source := srcBlk 3 c, code := 0x00C0 : Report } ∈ t.flt.inbox) ∧
    (h.halted = false → Gives (.coreEccError c true place a kind) s fun t =>
      rg t rCPU_ECC_CNT = satInc (rg s rCPU_ECC_CNT) ∧ (core t c).pc = h.pc ∧ ChangesOnly [.regs, .flt, .ints, .cores] s t)

/-- A load from the Granary port returns the point of the committed image and counts UNC_LOAD (R512); a store to the firmware-point port writes one
point of the staging copy; the commit write makes the staging copy current; a release write releases the cores whose bits are set, and no other
(R407, R408, R547). -/
def Obligations.CorePortsReadAndWritePoints : Prop :=
  ∀ (s : State) (c : Fin 16),
    (∀ p : Fin 1064960, exec (.granaryPortLoad c p) s = .next (busLoad (.core c) { s with rdata := (pointRead s.grn.commit p).setWidth 64 })) ∧
    (∀ (p : Fin 8192) (v : U32), Gives (.fwPointStore c p v) s fun t =>
      tget stale t.grn.fwStage p = v ∧ (∀ q, q ≠ p.val → tget stale t.grn.fwStage q = tget stale s.grn.fwStage q) ∧
      t = { s with grn := { s.grn with fwStage := t.grn.fwStage } }) ∧
    exec (.fwPointCommit c) s = .next { s with grn := { s.grn with fwCur := s.grn.fwStage, fwNew := true } } ∧
    (∀ v : U32, WriteOk s (.core c) rSYS_CORE_RUN v → Gives (.sysCoreRunWrite (.core c) v) s fun t =>
      (∀ d, d < 16 → core t d = if 0 < d ∧ bit v d = true then { coreTick s (core s d) with released := true } else core s d) ∧
      ChangesOnly [.cores] s t)

/-- A cache operation makes gxdcop busy from now for a time that the spec leaves open, and changes nothing else but the free values drawn; a
line outside the cacheable part, or no operation, completes at once (R410). -/
def Obligations.CacheOperationsMakeGxdcopBusy : Prop :=
  ∀ (s : State) (c : Fin 16) (v : U64),
    (fld v 1 0 = 0 → exec (.gxdcopWrite c v) s = .next s) ∧
    (bit v 2 = false → regionOf (fld v 63 6 * 64) ≠ some .cached → exec (.gxdcopWrite c v) s = .next s) ∧
    (fld v 1 0 ≠ 0 → (bit v 2 = true ∨ regionOf (fld v 63 6 * 64) = some .cached) →
      Gives (.gxdcopWrite c v) s fun t =>
        now s ≤ (core t c).dcopEnd ∧ core t c = { core s c with dcopEnd := (core t c).dcopEnd } ∧
        (∀ d, d ≠ c.val → core t d = core s d) ∧ ChangesOnly [.freeCtr, .cores] s t)

/-- A submit at the journal port with a firmware type and LEN up to 4,096 queues a record of the words stored, or drops and counts it where the
queue is full, and shows which; any other sets ERR and queues nothing (R181, R409). Once the head is located a journal write puts the first
queued record at the head: the header word, the payload and the commit word with the header's sequence number; the head moves behind it and
the sequence number rises by 1. Before that, and with nothing queued, nothing is written (R178, R179, R182). -/
def Obligations.JournalPortSubmits : Prop :=
  (∀ (s : State) (c : Fin 16) (ws : List U64) (v : U32), ws.length ≤ 4096 →
    (0x8000 ≤ fld v 15 0 → fld v 31 16 = ws.length → jnlUsed s.grn.jnlQ + ws.length + 2 ≤ 2048 →
      Gives (.journalPortSubmit c ws v) s fun t =>
        t.grn = { s.grn with jnlQ := s.grn.jnlQ ++ [{ ty := fld v 15 0, words := ws }] } ∧ (core t c).jerr = false ∧
        (core t c).jdrop = false ∧ (∀ d, d ≠ c.val → core t d = core s d) ∧ ChangesOnly [.grn, .cores] s t) ∧
    (0x8000 ≤ fld v 15 0 → fld v 31 16 = ws.length → 2048 < jnlUsed s.grn.jnlQ + ws.length + 2 →
      Gives (.journalPortSubmit c ws v) s fun t =>
        t.grn = s.grn ∧ (core t c).jdrop = true ∧ rg t rGRN_JNL_DROP = satInc (rg s rGRN_JNL_DROP) ∧ ChangesOnly [.regs, .cores] s t) ∧
    (fld v 15 0 < 0x8000 → Gives (.journalPortSubmit c ws v) s fun t =>
      t.grn = s.grn ∧ (core t c).jerr = true ∧ ChangesOnly [.cores] s t)) ∧
  (∀ s : State,
    (s.grn.jnlReady = false → Gives .jnlReady s fun t =>
      t.grn.jnlReady = true ∧ t = { s with grn := { s.grn with jnlReady := true, jnlHead := t.grn.jnlHead, jnlSeq := t.grn.jnlSeq } } ∧
      (∀ r, s.std.jnl.getLast? = some r →
        t.grn.jnlHead = (r.at_ + r.len + 2) % 1048576 ∧ t.grn.jnlSeq = (r.seqno + 1) % 2 ^ 32)) ∧
    (s.grn.jnlReady = true → exec .jnlReady s = .next s) ∧
    (s.grn.jnlReady = false ∨ s.grn.jnlQ = [] → exec .journalWrite s = .next s) ∧
    (∀ r rest, s.grn.jnlQ = r :: rest → s.grn.jnlReady = true → r.words.length ≤ 4096 → s.grn.jnlHead < 1048576 →
      Gives .journalWrite s fun t =>
        let at_ (i : Nat) := tget 0 t.std.jnlMem ((s.grn.jnlHead + i) % 1048576)
        at_ 0 = u64 (r.ty + r.words.length * 2 ^ 16 + (s.grn.jnlSeq % 2 ^ 32) * 2 ^ 32) ∧
        (∀ k (h : k < r.words.length), at_ (1 + k) = r.words[k]) ∧
        (hi32 (at_ (r.words.length + 1))).toNat = s.grn.jnlSeq % 2 ^ 32 ∧
        (∀ k, (k + 1048576 - s.grn.jnlHead) % 1048576 ≥ r.words.length + 2 → k < 1048576 →
          tget 0 t.std.jnlMem k = tget 0 s.std.jnlMem k) ∧
        t.grn = { s.grn with jnlQ := rest, jnlHead := (s.grn.jnlHead + r.words.length + 2) % 1048576,
                             jnlSeq := (s.grn.jnlSeq + 1) % 2 ^ 32 } ∧
        ChangesOnly [.regs, .std, .grn] s t))

/-! ### The host port (R11, R50 to R75) -/

/-- A doorbell of an enabled ring stores an index that passes the check (a producer index within N of the consumer's and not behind the last
accepted one, a consumer index not past the producer's) and nothing else; one that fails leaves every index, counts in HST_DBERR_CNT, leaves
ring and value in HST_DBERR_LAST and reports a host-access error. An access off a 4-byte offset is reported as R11 says; a reserved BAR2
offset and a held port do nothing. A read returns the last index accepted, 0 from a reserved offset (R55 to R58). While a ring's EN is 1 a
write of its CFG register that keeps EN changes nothing, and one that clears EN returns the ring's indices to 0 and its geometry stays;
while EN is 0 a write stores LOG2N and EN, but EN with LOG2N outside 6 to 16 is refused and marked (R50, R77). -/
def Obligations.DoorbellsCheckTheirIndex : Prop :=
  (∀ (s : State) (off : Fin 65536) (d : U32),
    let q := off.val / 4
    (off.val % 4 ≠ 0 → exec (.doorbellWrite off d) s =
      .next { s with flt := { s.flt with inbox := s.flt.inbox ++ [{ source := srcBlk 1 0, code := 0x0040 }] } }) ∧
    (off.val % 4 = 0 → 0x28 ≤ off.val ∨ held s = true → exec (.doorbellWrite off d) s = .next s) ∧
    (off.val % 4 = 0 → off.val < 0x28 → held s = false →
      let pass := ringEn s q = true ∧
        (if q < 4 ∨ q = 9 then (d - dbOther s q).toNat ≤ ringN s q ∧ (dbMine s q - dbOther s q).toNat ≤ (d - dbOther s q).toNat
         else (d - dbMine s q).toNat ≤ (dbOther s q - dbMine s q).toNat)
      (pass → Gives (.doorbellWrite off d) s fun t =>
        dbMine t q = d ∧ (∀ p, p < 10 → p ≠ q → dbMine t p = dbMine s p) ∧ (∀ p, p < 10 → dbOther t p = dbOther s p) ∧
        ChangesOnly [.hst] s t) ∧
      (¬ pass → Gives (.doorbellWrite off d) s fun t =>
        t.hst = s.hst ∧ rg t rHST_DBERR_CNT = satInc (rg s rHST_DBERR_CNT) ∧ rg t rHST_DBERR_LAST = u32 q ||| (d <<< 4) ∧
        bit (rg t rHST_EVT) 2 = true ∧ t.flt.inbox = s.flt.inbox ++ [{ source := srcBlk 1 0, code := 0x0041 }] ∧
        ChangesOnly [.regs, .flt] s t))) ∧
  (∀ (s : State) (bus : Bus) (off : Fin 0x2010000), bus ≠ .debug → 0x2000000 ≤ off.val →
    exec (.rcRead bus off false) s = .next (busLoad bus
      { s with rdata := if off.val % 4 = 0 ∧ off.val < 0x2000028 then u64 (dbMine s ((off.val - 0x2000000) / 4)).toNat
        else 0 })) ∧
  (∀ (s : State) (bus : Bus) (q : Fin 10) (v : U32), WriteOk s bus (ringCfg q) v →
    (ringEn s q = true → bit v 8 = true → exec (.hstRingCfgWrite bus q v) s = .next s) ∧
    (ringEn s q = true → bit v 8 = false → Gives (.hstRingCfgWrite bus q v) s fun t =>
      ringEn t q = false ∧ ringN t q = ringN s q ∧ dbMine t q = 0 ∧ dbOther t q = 0 ∧ (q.val < 4 → (cmdRing t q).fetch = none) ∧
      (∀ o, o ≠ ringCfg q → rg t o = rg s o) ∧ ChangesOnly [.regs, .hst, .grn] s t) ∧
    (ringEn s q = false → bit v 8 = true → 6 ≤ fld v 4 0 → fld v 4 0 ≤ 16 → Gives (.hstRingCfgWrite bus q v) s fun t =>
      ringEn t q = true ∧ ringN t q = 2 ^ fld v 4 0 ∧ (∀ o, o ≠ ringCfg q → rg t o = rg s o) ∧ ChangesOnly [.regs] s t) ∧
    (ringEn s q = false → bit v 8 = false → Gives (.hstRingCfgWrite bus q v) s fun t =>
      ringEn t q = false ∧ ringN t q = 2 ^ fld v 4 0 ∧ (∀ o, o ≠ ringCfg q → rg t o = rg s o) ∧ ChangesOnly [.regs] s t) ∧
    (ringEn s q = false → bit v 8 = true → fld v 4 0 < 6 ∨ 16 < fld v 4 0 → Gives (.hstRingCfgWrite bus q v) s fun t =>
      ringEn t q = false ∧ bit (rg t rHST_EVT) 3 = true ∧ ChangesOnly [.regs] s t))

/-- An access of a size or alignment that BAR0 or BAR2 does not take reads 0 or is ignored, and is reported (R11, R56). Link loss ends fetches,
leaves staged envelopes and what is due, but no completion of a command fetched before is written any more; it sets HST_EVT.LINK_DOWN and is
reported (R74). A hot reset returns the rings to empty but leaves every register but HST_EVT, the completions due and the rest of the device
(R75); that it drops the events and publications not yet written is the model's choice (notes/assumptions/57). Link up records speed and
width. -/
def Obligations.LinkEventsReachTheRingsOnly : Prop :=
  ∀ s : State,
    (∀ isRead, Gives (.bar0BadAccess isRead) s fun t =>
      t.flt.inbox = s.flt.inbox ++ [{ source := srcBlk 1 0, code := 0x0040 }] ∧ (isRead = true → t.rdata = 0) ∧
      t = { s with rdata := t.rdata, flt := t.flt } ∧ exec (.bar2BadAccess isRead) s = .next t) ∧
    (s.hst.linkUp = true → Gives .linkDown s fun t =>
      t.hst.linkUp = false ∧ t.hst.linkDown = true ∧ bit (rg t rHST_EVT) 0 = true ∧ t.hst.stage = s.hst.stage ∧ t.hst.cplDue = s.hst.cplDue ∧
      (∀ r, r < 4 → cmdRing t r = { cmdRing s r with fetch := none } ∧ cplRing t r = { cplRing s r with gen := (cplRing s r).gen + 1 }) ∧
      ({ source := srcBlk 1 0, code := 0x0043 } : Report) ∈ t.flt.inbox) ∧
    (s.hst.linkUp = false → exec .linkDown s = .next s) ∧
    (Gives .hotReset s fun t =>
      (∀ r, r < 4 → cmdRing t r = {} ∧ (cplRing t r).pi = 0 ∧ (cplRing t r).ci = 0 ∧ (cplRing t r).gen = (cplRing s r).gen + 1) ∧
      t.hst.stage = [] ∧ t.hst.evtPi = 0 ∧ t.hst.evtCi = 0 ∧ t.hst.snpPi = 0 ∧ t.hst.snpCi = 0 ∧ t.hst.cplDue = s.hst.cplDue ∧
      t.hst.pci = {} ∧ t.hst.idxDirty = true ∧ t.grn = { s.grn with pubs := [] } ∧
      (∀ o, o ≠ rHST_EVT → rg t o = rg s o) ∧ rg t rHST_EVT = rg s rHST_EVT ||| bitv 6 ∧ ChangesOnly [.regs, .hst, .grn] s t) ∧
    (∀ speed width : Fin 4, exec (.linkUp speed width) s =
      .next { s with hst := { s.hst with linkUp := true, linkDown := false, speed := speed + 1, width := 2 ^ width.val } })

/-- The fetch goes to the lowest-numbered ring that has a whole envelope, room in staging and room on its completion ring, and to none without
one. Its completion stages the envelope with its slot and advances CI by the slots that the header's KIND takes, two for session-open and
firmware and else one; where the second slot was not read it is fetched or waited for. A failed fetch stops the ring at its CI with a RING
completion, which counts as outstanding (the model's choice, notes/assumptions/57), and a report; HST_RESTART releases the rings named and no
other (R59 to R61, R72). -/
def Obligations.FetchesFollowTheRings : Prop :=
  ∀ s : State,
    (∀ (two : BitVec 4) (r : Nat), fetchRing s two = some r ↔ r < 4 ∧ canFetch s two r = true ∧ ∀ p, p < r → canFetch s two p = false) ∧
    (∀ (two : BitVec 4) (r : Nat), fetchRing s two = some r → Gives (.commandFetch two) s fun t =>
      cmdRing t r = { cmdRing s r with fetch := some (if two.getLsbD r then 2 else 1) } ∧ (∀ p, p ≠ r → cmdRing t p = cmdRing s p) ∧
      ChangesOnly [.hst] s t) ∧
    (∀ two : BitVec 4, fetchRing s two = none → exec (.commandFetch two) s = .next s) ∧
    (∀ (r : Fin 4) (bytes : Bytes), (cmdRing s r).fetch = none → exec (.fetchComplete r bytes) s = .next s) ∧
    (∀ (r : Fin 4) (bytes : Bytes) (n : Nat), (cmdRing s r).fetch = some n →
      let k := if rd bytes 1 1 = 1 ∨ rd bytes 1 1 = 2 then 2 else 1
      (k ≤ n → Gives (.fetchComplete r bytes) s fun t =>
        (cmdRing t r).ci = (cmdRing s r).ci + u32 k ∧ (cmdRing t r).fetch = none ∧
        (cmdRing t r).outstanding = (cmdRing s r).outstanding + 1 ∧ (∀ p, p ≠ r.val → cmdRing t p = cmdRing s p) ∧
        t.hst.stage = s.hst.stage ++
          [{ ring := r, slot := (cmdRing s r).ci.toNat % ringN s r, bytes := fit (256 * k) bytes, gen := (cplRing s r).gen }] ∧
        t.aut = s.aut ∧ t.cmd = s.cmd ∧ t.grn = s.grn) ∧
      (n < k → Gives (.fetchComplete r bytes) s fun t =>
        cmdRing t r = { cmdRing s r with fetch :=
          if 2 ≤ ((cmdRing s r).pi - (cmdRing s r).ci).toNat ∧ stagedSlots s r + 2 ≤ 32 then some 2 else none } ∧
        (∀ p, p ≠ r.val → cmdRing t p = cmdRing s p) ∧ t.hst.stage = s.hst.stage ∧ ChangesOnly [.hst] s t)) ∧
    (∀ (r : Fin 4) (n : Nat) (cause : Fin 3), (cmdRing s r).fetch = some n →
      (let failed (st : Nat) (t : State) : Prop :=
        cmdRing t r = { cmdRing s r with fetch := none, err := true, outstanding := (cmdRing s r).outstanding + 1 } ∧
        (∀ p, p ≠ r.val → cmdRing t p = cmdRing s p) ∧
        t.hst.cplDue = s.hst.cplDue ++ [
          { ring := r, gen := (cplRing s r).gen, slot := BitVec.ofNat 16 ((cmdRing s r).ci.toNat % ringN s r),
            status := BitVec.ofNat 16 st, cls := cRing }] ∧
        t.hst.stage = s.hst.stage ∧ bit (rg t rHST_EVT) 1 = true ∧
        t.flt.inbox = s.flt.inbox ++ [{ source := srcBlk 1 (1 + r), code := 0x0042 }] ∧ ChangesOnly [.regs, .hst, .flt] s t
      Gives (.fetchFail r cause) s (failed (if cause = 0 then 1 else if cause = 1 then 3 else 4)) ∧ Gives (.fetchTimeout r) s (failed 2))) ∧
    (∀ (bus : Bus) (v : U32), WriteOk s bus rHST_RESTART v → Gives (.hstRestartWrite bus v) s fun t =>
      (∀ r, r < 4 → cmdRing t r = if bit v r then { cmdRing s r with err := false } else cmdRing s r) ∧ ChangesOnly [.hst] s t)

/-- The completion that goes next on ring r is due on it, and none due before it is of its flow. It goes, with the link up, its ring enabled and
unchanged, in two writes to entry PI mod N of 32 bytes: 28 bytes, then 4 that end in PHASE, 1 on even passes; PI rises by 1. Otherwise it is
discarded and counted (R63 to R65, R74). An event goes to its 64-byte entry in two writes of 60 and 4 bytes, or is dropped and counted; the
index block of 64 bytes is written where it is enabled, the link is up and an index changed (R67, R68, R71). -/
def Obligations.RingEntriesAreWrittenAtTheirIndex : Prop :=
  ∀ s : State,
    (∀ (r : Fin 4) (c : Cpl) (rest : List Cpl), takeCpl r [] s.hst.cplDue = some (c, rest) →
      ∃ a b, s.hst.cplDue = a ++ c :: b ∧ rest = a ++ b ∧ c.ring = r.val ∧ ∀ x ∈ a, c.flow ≠ none → x.flow ≠ c.flow) ∧
    (∀ r : Fin 4, takeCpl r [] s.hst.cplDue = none → exec (.completionWrite r) s = .next s) ∧
    (∀ (r : Fin 4) (c : Cpl) (rest : List Cpl), takeCpl r [] s.hst.cplDue = some (c, rest) →
      let k := cplRing s r
      let n := ringN s (4 + r)
      (s.hst.linkUp = true → ringEn s (4 + r) = true → c.gen = k.gen → Gives (.completionWrite r) s fun t =>
        (∃ a b, t.dma = s.dma ++ [⟨addr64 s (rHST_CPL_BASE_LO r) (rHST_CPL_BASE_HI r) + 32 * (k.pi.toNat % n), a⟩,
                                 ⟨addr64 s (rHST_CPL_BASE_LO r) (rHST_CPL_BASE_HI r) + 32 * (k.pi.toNat % n) + 28, b⟩] ∧
          a.length = 28 ∧ b = [0, 0, 0, if (k.pi.toNat / n) % 2 = 0 then 1 else 0] ∧ a.take 8 = leBytes 8 c.seq.toNat ∧
          (a.drop 24).take 2 = leBytes 2 c.status.toNat) ∧
        (cplRing t r).pi = k.pi + 1 ∧ (cplRing t r).ci = k.ci ∧ t.hst.cplDue = rest ∧
        t.aut.sess = (match c.closes with | none => s.aut.sess | some id => endSession s id)) ∧
      (s.hst.linkUp = false ∨ ringEn s (4 + r) = false ∨ c.gen ≠ k.gen → Gives (.completionWrite r) s fun t =>
        t.dma = s.dma ∧ rg t rHST_CPL_DISCARD = satInc (rg s rHST_CPL_DISCARD) ∧ bit (rg t rHST_EVT) 4 = true ∧
        cplRing t r = k ∧ t.hst.cplDue = rest ∧
        t.aut.sess = (match c.closes with | none => s.aut.sess | some id => endSession s id))) ∧
    (∀ (e : Evt) (rest : List Evt), s.hst.evtDue = e :: rest →
      let n := ringN s 8
      let can := s.hst.linkUp = true ∧ ringEn s 8 = true ∧ (s.hst.evtPi - s.hst.evtCi).toNat < n
      (can → Gives .eventWrite s fun t =>
        (∃ a b, t.dma = s.dma ++ [⟨addr64 s rHST_EVT_BASE_LO rHST_EVT_BASE_HI + 64 * (s.hst.evtPi.toNat % n), a⟩,
                                 ⟨addr64 s rHST_EVT_BASE_LO rHST_EVT_BASE_HI + 64 * (s.hst.evtPi.toNat % n) + 60, b⟩] ∧
          a.length = 60 ∧ b = [0, 0, 0, if (s.hst.evtPi.toNat / n) % 2 = 0 then 1 else 0] ∧ a.take 8 = leBytes 8 e.epoch.toNat) ∧
        t.hst.evtPi = s.hst.evtPi + 1 ∧ t.hst.evtDue = rest ∧ t.hst.lost = 0) ∧
      (¬ can → Gives .eventWrite s fun t =>
        t.dma = s.dma ∧ t.hst.evtPi = s.hst.evtPi ∧ t.hst.evtDue = rest ∧ rg t rHST_EVT_DROP = satInc (rg s rHST_EVT_DROP) ∧
        bit (rg t rHST_EVT) 5 = true ∧ ChangesOnly [.regs, .hst] s t)) ∧
    (let can := bit (rg s rHST_IDX_CTL) 0 = true ∧ s.hst.linkUp = true ∧ s.hst.idxDirty = true
     (can → Gives .indexBlockWrite s fun t =>
       (∃ a, t.dma = s.dma ++ [⟨addr64 s rHST_IDX_BASE_LO rHST_IDX_BASE_HI, a⟩] ∧ a.length = 64 ∧ a.take 4 = leBytes 4 (cmdRing s 0).ci.toNat) ∧
       t.hst = { s.hst with idxDirty := false }) ∧
     (¬ can → exec .indexBlockWrite s = .next s))

/-! ### Zetur authentication (R83 to R111) -/

/-- The first staged command envelope is checked in the order format, vault, session, expiry, ring, MAC, SEQ, opcode, privilege, and the first
check that fails decides its refusal: a completion REFUSED, the count, AUT_EVT bit 3 and a report. Checks up to SEQ leave the sessions; from
then on LAST_SEQ holds SEQ. One that passes enters a free slot of the command store under its flow (R96, R97, R101, R431). -/
def Obligations.EnvelopesPassTheirChecksInOrder : Prop :=
  ∀ (s : State) (e : Staged) (rest : List Staged), s.hst.stage = e :: rest → eKind e.bytes ≠ 1 → eKind e.bytes ≠ 2 → storeIsFull s = false →
    let b := e.bytes
    let refused (st : Nat) (t : State) : Prop :=
      t.hst.stage = rest ∧ t.hst.cplDue = s.hst.cplDue ++ [mkCpl (stagedId e) (eOp b) cRefused st 0] ∧
      rg t rAUT_REFUSE_CNT = satInc (rg s rAUT_REFUSE_CNT) ∧ bit (rg t rAUT_EVT) 3 = true ∧
      t.flt.inbox = s.flt.inbox ++ [{ source := srcBlk 2 0, code := 0x0080 }] ∧ t.tsk = s.tsk ∧ t.cmd = s.cmd ∧ t.std = s.std
    let early (st : Nat) (t : State) : Prop := refused st t ∧ t.aut = s.aut
    let took (i : Nat) (v : Session) (t : State) : Prop :=
      tget {} t.aut.sess i = (if eSeq b = 0xFFFFFFFFFFFFFFFF then {} else { v with lastSeq := eSeq b }) ∧
      ∀ j, j ≠ i → tget {} t.aut.sess j = tget {} s.aut.sess j
    (commandFormat b = false → Gives .envelopeVerify s (early rfBadFormat)) ∧
    (commandFormat b = true → vaultUsable s = false → Gives .envelopeVerify s (early rfVault)) ∧
    (commandFormat b = true → vaultUsable s = true → findSession s (eSid b) = none → Gives .envelopeVerify s (early rfNoSession)) ∧
    (∀ i v, commandFormat b = true → vaultUsable s = true → findSession s (eSid b) = some (i, v) →
      (sessExpired s v = true → Gives .envelopeVerify s (early rfExpired)) ∧
      (sessExpired s v = false → v.ring ≠ e.ring → Gives .envelopeVerify s (early rfWrongRing)) ∧
      (sessExpired s v = false → v.ring = e.ring →
        let mac := hmacSha256 v.key (slice b 0 224) = slice b 224 32
        let fresh := v.lastSeq.toNat < (eSeq b).toNat
        (¬ mac → Gives .envelopeVerify s (early rfBadMac)) ∧ (mac → ¬ fresh → Gives .envelopeVerify s (early rfSeqOld)) ∧
        (mac → fresh → opcodeClass (eOp b) = none ∨ eOp b = 0x0404 → Gives .envelopeVerify s fun t => refused rfOpcode t ∧ took i v t) ∧
        (∀ c, mac → fresh → opcodeClass (eOp b) = some c → eOp b ≠ 0x0404 →
          (v.priv < c → Gives .envelopeVerify s fun t => refused rfPriv t ∧ took i v t) ∧
          (c ≤ v.priv → ∀ k, (List.range 1024).find? (fun i => !(item s i).used) = some k → Gives .envelopeVerify s fun t =>
            took i v t ∧ t.hst.stage = rest ∧ t.hst.cplDue = s.hst.cplDue ∧
            item t k = { used := true, id := { stagedId e with ord := s.cmd.ord }, op := eOp b, bytes := b, arr := (flow s (eFlow b)).next } ∧
            (∀ j, j ≠ k → item t j = item s j) ∧ (flow t (eFlow b)).next = (flow s (eFlow b)).next + 1))))

/-- A session-open waits for the device key and until each command envelope fetched before it has begun; the firmware envelopes fetched before it
begin first. One that fails is refused and leaves challenge and sessions; one that passes takes its record, draws a new challenge and completes
DONE. It passes only with a well-formed body, a usable vault and slot, this device's key, the current challenge, a valid signature, a privilege
within the ceiling, a free SESSION_ID, and a key that decrypts and proves the MAC. A firmware envelope begins with steps 1 to 7, then its body is
checked with the signing slot as it stood at the beginning: one that passes enters the store, one that fails is refused (R62, R94, R98, R99, R103).
-/
def Obligations.SessionsOpenOnlyOnProof : Prop :=
  (∀ (s : State) (e : Staged), s.hst.stage.find? (fun e => eKind e.bytes == 1) = some e →
    let before := s.hst.stage.takeWhile (fun e => eKind e.bytes != 1)
    let u := before.foldl (fun s x => beginFirmware x s) s
    (s.aut.devkeyOk = false ∨ commandWaits before = true → exec .sessionOpenVerify s = .next s) ∧
    (∀ st, s.aut.devkeyOk = true → commandWaits before = false → openChecks u e = .inl st → Gives .sessionOpenVerify s fun t =>
      t.aut = u.aut ∧ t.hst.stage = u.hst.stage.erase e ∧
      t.hst.cplDue = s.hst.cplDue ++ [mkCpl (stagedId e) (eOp e.bytes) cRefused st 0] ∧ t.std = s.std ∧ t.tsk = s.tsk) ∧
    (∀ i k, s.aut.devkeyOk = true → commandWaits before = false → openChecks u e = .inr (i, k) → Gives .sessionOpenVerify s fun t =>
      (let v := tget {} t.aut.sess i
       v.used = true ∧ v.id = eSid e.bytes ∧ v.key = k ∧ v.priv = rd e.bytes 35 1 ∧ v.ring = e.ring ∧ v.slot = rd e.bytes 34 1 ∧
       v.lastSeq = eSeq e.bytes ∧ v.expired = false) ∧
      (∀ j, j ≠ i → tget {} t.aut.sess j = tget {} u.aut.sess j) ∧ t.aut.chal = Config.random s.freeCtr ∧ t.freeCtr = s.freeCtr + 1 ∧
      t.hst.stage = u.hst.stage.erase e ∧ t.hst.cplDue = s.hst.cplDue ++ [mkCpl (stagedId e) 0 cDone stOk 0])) ∧
  (∀ (s : State) (e : Staged) i k, openChecks s e = .inr (i, k) →
    let b := e.bytes
    let g := keySlot s (rd b 34 1)
    openFormat b = true ∧ vaultUsable s = true ∧ slotState g = 1 ∧ sha384 (devPub s) = slice b 72 48 ∧
    leBytes 16 s.aut.chal.toNat = slice b 40 16 ∧ ecdsaVerify (g.key.getD []) (slice b 0 384) (slice b 384 96) = true ∧
    rd b 35 1 ≤ g.ceil ∧ (rd b 56 8 = 0 ∧ rd b 64 8 = 0 ∨ s.std.rtcValid = true ∧ rd b 56 8 ≤ s.std.rtcSec.toNat ∧ s.std.rtcSec.toNat ≤ rd b 64 8) ∧
    findSession s (eSid b) = none ∧ unwrapKey s b = some k ∧ hmacSha256 k (slice b 0 480) = slice b 480 32) ∧
  (∀ (s : State) (e : Staged) (rest : List Staged), s.hst.stage = e :: rest → eKind e.bytes = 2 → storeIsFull s = false →
    (e.begun = none → ∃ f, (beginFirmware e s).hst.stage.head? = some f ∧ f.begun.isSome = true ∧ f.signer = signerSlot s e.bytes ∧
      f.bytes = e.bytes ∧ exec .firmwareEnvelopeVerify s = exec .firmwareEnvelopeVerify (beginFirmware e s)) ∧
    ∀ st, e.begun = some st →
    let v := if st ≠ 0 then st else firmwareBody s e.priv e.signer e.bytes
    (v ≠ 0 → Gives .firmwareEnvelopeVerify s fun t =>
      t.hst.stage = rest ∧ t.hst.cplDue = s.hst.cplDue ++ [mkCpl (stagedId e) (eOp e.bytes) cRefused v 0] ∧ t.aut = s.aut ∧ t.tsk = s.tsk) ∧
    (v = 0 → ∀ k, (List.range 1024).find? (fun i => !(item s i).used) = some k → Gives .firmwareEnvelopeVerify s fun t =>
      t.hst.stage = rest ∧ t.aut = s.aut ∧
      item t k = { used := true, id := { stagedId e with ord := s.cmd.ord }, op := eOp e.bytes, bytes := e.bytes, arr := (flow s (eFlow e.bytes)).next }))

/-- COMMIT takes slot, ceiling and key from the AUT registers unless an install runs; the install ends with its first error, which changes no
slot, or makes the slot ACTIVE with that key, the vault PROVISION and both tamper latches clear (R88, R89). A session past its NOT_AFTER is
marked and AUT_EVT bit 4 set (R95). -/
def Obligations.KeyInstallsFillASlot : Prop :=
  ∀ s : State,
    (∀ bus v, WriteOk s bus rAUT_AKEY_CMD v → bit v 0 = true → s.aut.install = none → Gives (.akeyCommitWrite bus v) s fun t =>
      (∃ k, t.aut = { s.aut with install := some k, akeyErr := 0 } ∧ k.slot = fld (rg s rAUT_AKEY_SEL) 2 0 ∧
        k.ceil = fld (rg s rAUT_AKEY_SEL) 5 4 ∧ k.key.length = 96 ∧ ∀ j < 24, rd k.key (4 * j) 4 = (rg s (rAUT_AKEY_DATA j)).toNat) ∧
      ChangesOnly [.aut] s t) ∧
    (∀ bus v, WriteOk s bus rAUT_AKEY_CMD v → bit v 0 = false ∨ s.aut.install ≠ none → exec (.akeyCommitWrite bus v) s = .next s) ∧
    (∀ k ok, s.aut.install = some k → installErr s k ok ≠ 0 → exec (.keyInstallComplete ok) s =
      .next { s with aut := { s.aut with install := none, akeyErr := installErr s k ok } }) ∧
    (∀ k, s.aut.install = some k → p384On (keyPoint k.key) = true → s.std.vault = 0 ∨ s.std.vault = 1 ∨ 3 ≤ s.std.vault ∧ s.std.devNeed = false →
      slotState (keySlot s k.slot) = 0 ∨ slotState (keySlot s k.slot) = 2 → tampActive s = false →
      Gives (.keyInstallComplete true) s fun t =>
        slotState (keySlot t k.slot) = 1 ∧ (keySlot t k.slot).key = some k.key ∧ (keySlot t k.slot).ceil = k.ceil ∧
        (keySlot t k.slot).revCnt = (keySlot s k.slot).revCnt ∧ (∀ j, j ≠ k.slot → keySlot t j = keySlot s j) ∧
        t.std.vault = 1 ∧ t.std.latch0 = false ∧ t.std.latch1 = false ∧ t.aut = { s.aut with install := none, akeyErr := 0 } ∧
        ChangesOnly [.std, .aut] s t) ∧
    (∀ (i : Fin 16) n, (tget {} s.aut.sess i).used = true → (tget {} s.aut.sess i).expired = false → (tget {} s.aut.sess i).notAfter = some n →
      n + 1 < 2 ^ 48 → Gives (.sessionExpire i) s fun t =>
        tget {} t.aut.sess i = { tget {} s.aut.sess i with expired := true } ∧ n < t.std.rtcSec.toNat ∧ bit (rg t rAUT_EVT) 4 = true ∧
        (∀ j, j ≠ i.val → tget {} t.aut.sess j = tget {} s.aut.sess j) ∧ ChangesOnly [.regs, .std, .aut] s t)

/-- A tamper latch erases the key storage, counts, and with the main supplies on ends every session and leaves the vault ZEROISED; a failed
integrity check leaves it FAILED. With the supplies off, VBAT loss erases the key storage and the RTC. A TAMP input that is disabled, inactive or
latched already latches nothing (R86, R106 to R108). -/
def Obligations.TamperEndsEverySession : Prop :=
  ∀ (s : State) (i : Fin 2) (pins : BitVec 2),
    (bit s.std.tampCfg i = false ∨ pins.getLsbD i ≠ bit s.std.tampCfg (2 + i) ∨ (if i.val = 0 then s.std.latch0 else s.std.latch1) = true →
      exec (.tamperLatch i pins) s = .next { s with std := { s.std with tampPins := pins } }) ∧
    (bit s.std.tampCfg i = true → pins.getLsbD i = bit s.std.tampCfg (2 + i) → (if i.val = 0 then s.std.latch0 else s.std.latch1) = false →
      Gives (.tamperLatch i pins) s fun t =>
      t.std.keyProt = keyCleared ∧ (if i.val = 0 then t.std.latch0 else t.std.latch1) = true ∧ t.std.tampPins = pins ∧
      t.std.tampCnt.toNat = min (s.std.tampCnt.toNat + 1) 0xFFFF ∧ t.std.slots = s.std.slots ∧ (s.sys.por = true → t.std.lost = true) ∧
      (s.sys.por = false → t.aut.sess = [] ∧ t.std.vault = 3 ∧ t.aut.devkeyOk = s.aut.devkeyOk ∧ bit (rg t rAUT_EVT) 0 = true ∧ bit (rg t rAUT_EVT) 1 = true ∧
        ({ source := srcBlk 2 1, code := 0x0081 } : Report) ∈ t.flt.inbox)) ∧
    (Gives .vaultIntegrityFail s fun t =>
      t.aut.sess = [] ∧ t.std.vault = 4 ∧ bit (rg t rAUT_EVT) 2 = true ∧ t.flt.inbox = s.flt.inbox ++ [{ source := srcBlk 2 1, code := 0x0082 }]) ∧
    (s.sys.por = true → Gives .vbatLoss s fun t =>
      t.std.keyProt = keyCleared ∧ t.std.rtcValid = false ∧ t.std.slots = s.std.slots ∧ ChangesOnly [.freeCtr, .std] s t) ∧
    (s.sys.por = false → exec .vbatLoss s = .next s)

/-! ### The command set (R112 to R146, R434 to R438) -/

/-- Of the commands with an effect epoch other than BLOCK: a payload that its opcode entry does not allow is refused BAD_PAYLOAD, an EPOCH_REQ
before E_min EPOCH_PAST, one more than 2^24 ahead EPOCH_FAR, one of class P off a control period EPOCH_ALIGN, and a 257th entry QUEUE_FULL, each
with nothing else changed; one that passes its checks against the device waits, without a completion, as a pending effect for EPOCH_REQ, or for
E_min where that is 0; a RING_CTL that finds its ring OFF or FAILED starts training at its acceptance, and one that finds it in DRAIN keeps it from
training again (R112 to R114, R119, R121, R207, R220). -/
def Obligations.TimedCommandsWaitForTheirEpoch : Prop :=
  ∀ (s : State) (x : CmdSrc) (p : Bytes) (c : Instr) (op : Nat),
    (c, op) ∈ [(.snapCfg x p, 0x0103), (.snareArm x p, 0x0104), (.setpoint x p, 0x0201), (.deblock x p, 0x0203), (.mode x p, 0x0204),
      (.cellRetire x p, 0x0301), (.cellRestore x p, 0x0302), (.armMap x p, 0x0303), (.coefWrite x p, 0x0304), (.carrierSet x p, 0x0305),
      (.calSet x p, 0x0306), (.ringCtl x p, 0x0307), (.timeAccept x p, 0x0308)] →
    (∀ y ∈ s.cmd.flowQ, y.flow ≠ x.flow ∧ y.ord ≠ s.cmd.ord ∧ y.cpl = none) →
    let id := cmdIdOf x s
    let u := flowEnter id op { s with cmd := { s.cmd with ord := s.cmd.ord + 1 } }
    let req := x.epochReq.toNat
    let refused (st : Nat) (t : State) : Prop :=
      t.hst = { s.hst with cplDue := s.hst.cplDue ++ [flowCpl id op cRefused st 0 0] } ∧ t.cmd = { s.cmd with ord := s.cmd.ord + 1 } ∧
      ChangesOnly [.regs, .hst, .flt, .cmd, .snr] s t
    (parsePayload op p = none → Gives c s (refused stBadPayload)) ∧
    (∀ pl, parsePayload op p = some pl →
      let m := eMin u op pl (now u)
      (req ≠ 0 → req < m → Gives c s (refused stEpochPast)) ∧
      (m ≤ req → epochNow u + 2 ^ 24 < req → Gives c s (refused stEpochFar)) ∧
      (req ≠ 0 → m ≤ req → req ≤ epochNow u + 2 ^ 24 → effClass op = .p → req % pFrames u ≠ 0 → Gives c s (refused stEpochAlign)) ∧
      (∀ ep, epochOf u op pl req = .inr ep →
        (ep = if req = 0 then m else req) ∧ (256 ≤ entries u → Gives c s (refused stQueueFull)) ∧
        (∀ st, entries u < 256 → stateCheck u op pl = .refuse st → Gives c s (refused st)) ∧
        (entries u < 256 → stateCheck u op pl = .go → Gives c s fun t =>
          let ends : Prop := ∃ r, pl = .ringCtl r 1 ∧ (ring s r).st = 6
          let trains : Prop := ∃ r act, pl = .ringCtl r act ∧ act ≠ 1 ∧ ((ring s r).st = 0 ∨ (ring s r).st = 7)
          (∃ e ∈ t.cmd.pend, e.id = id ∧ e.op = op ∧ e.epoch = ep ∧ e.payload = storedPayload u pl ∧ (e.applied = true ↔ ends ∨ trains)) ∧
          t.hst = s.hst ∧ t.std = s.std ∧ t.aut = s.aut ∧ t.lpe = s.lpe ∧ (¬ (ends ∨ trains) → t.fur = s.fur) ∧
          (ends → ∀ r act, pl = .ringCtl r act → (ring t r).retrain = false ∧ (ring t r).st = 6) ∧
          (trains → ∀ r act, pl = .ringCtl r act → (ring t r).st = 1))))

/-- BLOCK takes no EPOCH_REQ and no entry: the line of each group that it names takes a turn to blocked, from the first frame that its commit
reaches and with effect in the epoch of R127. CELL_RETIRE and CELL_RESTORE put a turn for their epoch to each of their cells, and to no other
cell, at once (R127, R132, R133). -/
def Obligations.BlockAndRetireDecideAtOnce : Prop :=
  ∀ (s : State) (x : CmdSrc) (p : Bytes),
    (let u := flowEnter (cmdIdOf x s) 0x0202 { s with cmd := { s.cmd with ord := s.cmd.ord + 1 } }
     ∀ m, parsePayload 0x0202 p = some (.groupMask m) → stateCheck u 0x0202 (.groupMask m) = .go → Gives (.block x p) s fun t =>
       (∀ g, g < 4 → m.testBit g = true → ∃ w ∈ (group t g).line, w.e = blockEpoch u m ∧ w.j = blockFrame u (now u) ∧ w.on = true) ∧
       (∃ e ∈ t.cmd.pend, e.op = 0x0202 ∧ e.epoch = blockEpoch u m ∧ e.entry = false) ∧ t.hst = s.hst) ∧
    (let u := flowEnter (cmdIdOf x s) 0x0301 { s with cmd := { s.cmd with ord := s.cmd.ord + 1 } }
     ∀ cs ep, parsePayload 0x0301 p = some (.cells cs) → epochOf u 0x0301 (.cells cs) x.epochReq.toNat = .inr ep → entries u < 256 →
       stateCheck u 0x0301 (.cells cs) = .go → Gives (.cellRetire x p) s fun t =>
         (∀ k, k ∈ cs → ∃ w ∈ cellTurns t k, w.e = ep ∧ w.on = true ∧ w.ord = s.cmd.ord) ∧ (∀ k, k ∉ cs → cellTurns t k = cellTurns s k)) ∧
    (let u := flowEnter (cmdIdOf x s) 0x0302 { s with cmd := { s.cmd with ord := s.cmd.ord + 1 } }
     ∀ cs ep, parsePayload 0x0302 p = some (.cells cs) → epochOf u 0x0302 (.cells cs) x.epochReq.toNat = .inr ep → entries u < 256 →
       stateCheck u 0x0302 (.cells cs) = .go → Gives (.cellRestore x p) s fun t =>
         (∀ k, k ∈ cs → ∃ w ∈ cellTurns t k, w.e = ep ∧ w.on = false ∧ w.ord = s.cmd.ord) ∧ (∀ k, k ∉ cs → cellTurns t k = cellTurns s k))

/-- The class I commands complete DONE at their commit: NOP with the epoch as RESULT, SESSION_CLOSE with a completion that ends the session,
TIME_CFG with its threshold stored, AKEY_INSTALL, AKEY_REPLACE and AKEY_REVOKE with the slot's key and REV_CNT as the opcode says and the
sessions it granted closed, SESSION_KILL with the session's record free, SETUP_REOPEN with the window open again; FW_UPDATE invalidates the
idle bank and waits (R84, R122, R123, R140 to R146). -/
def Obligations.ImmediateCommandsActAtTheirCommit : Prop :=
  ∀ (s : State) (x : CmdSrc) (p : Bytes), (∀ y ∈ s.cmd.flowQ, y.flow ≠ x.flow ∧ y.ord ≠ s.cmd.ord ∧ y.cpl = none) →
    let id := cmdIdOf x s
    let done (op : Nat) (res : U32) (t : State) : Prop := t.hst = { s.hst with cplDue := s.hst.cplDue ++ [flowCpl id op cDone stOk 0 res] }
    (p = [] → Gives (.nop x p) s fun t => done 0x0101 (u32 (epochNow s)) t ∧ ChangesOnly [.regs, .hst, .flt, .cmd, .snr] s t) ∧
    (p = [] → Gives (.sessionClose x p) s fun t =>
      t.hst = { s.hst with cplDue := s.hst.cplDue ++ [flowCpl id 0x0102 cDone stOk 0 0 false (some x.session)] } ∧
      ChangesOnly [.regs, .hst, .flt, .cmd, .snr] s t) ∧
    (p.length = 4 → 100 ≤ rd p 0 4 → rd p 0 4 ≤ 1000000000 → Gives (.timeCfg x p) s fun t =>
      done 0x0309 0 t ∧ rg t rTIM_STEP_THR = u32 (rd p 0 4) ∧ ChangesOnly [.regs, .hst, .flt, .cmd, .snr] s t) ∧
    (∀ i ceil key, parsePayload 0x0401 p = some (.key i ceil key) → slotState (keySlot s i) = 0 ∨ slotState (keySlot s i) = 2 →
      p384On (keyPoint key) = true → Gives (.akeyInstall x p) s fun t =>
        done 0x0401 (keyTag key) t ∧ keySlot t i = { keySlot s i with key := some key, ceil := ceil, gen := (keySlot s i).revCnt } ∧
        (∀ j, j ≠ i → keySlot t j = keySlot s j) ∧ t.aut = s.aut) ∧
    (∀ i, parsePayload 0x0402 p = some (.slot i) → slotState (keySlot s i) = 1 → lastAdmin s i = false → Gives (.akeyRevoke x p) s fun t =>
      done 0x0402 0 t ∧ keySlot t i = { keySlot s i with revCnt := (keySlot s i).revCnt + 1 } ∧ (∀ j, j ≠ i → keySlot t j = keySlot s j) ∧
      (∀ q ∈ t.aut.sess, q ∈ s.aut.sess ∧ (q.2.slot ≠ i ∨ sessExpired s q.2 = true)) ∧
      (∀ q ∈ s.aut.sess, q.2.slot ≠ i → q ∈ t.aut.sess)) ∧
    (∀ i ceil key, parsePayload 0x0403 p = some (.key i ceil key) → slotState (keySlot s i) = 1 → (keySlot s i).revCnt ≠ 15 →
      p384On (keyPoint key) = true → ceil = 3 ∨ lastAdmin s i = false → Gives (.akeyReplace x p) s fun t =>
        done 0x0403 0 t ∧ keySlot t i = { key := some key, ceil := ceil, gen := (keySlot s i).revCnt + 1, revCnt := (keySlot s i).revCnt + 1 } ∧
        (∀ j, j ≠ i → keySlot t j = keySlot s j) ∧ (∀ q ∈ t.aut.sess, q.2.slot ≠ i ∨ sessExpired s q.2 = true)) ∧
    (p = [] → convBlocked s = true → Gives (.setupReopen x p) s fun t => done 0x0405 0 t ∧ t.sys.setupDone = false ∧ t.sys.reopened = true) ∧
    (∀ sid i v, parsePayload 0x0406 p = some (.session sid) → findSession s (u32 sid) = some (i, v) → sessExpired s v = false →
      Gives (.sessionKill x p) s fun t =>
        done 0x0406 0 t ∧ tget {} t.aut.sess i = {} ∧ (∀ j, j ≠ i → tget {} t.aut.sess j = tget {} s.aut.sess j) ∧ t.std = s.std) ∧
    (s.cmd.fw = none → Gives (.fwUpdate x p) s fun t =>
      let i := (idleBank s (rd p 35 1)).1
      bank t i = { bank s i with mark := 0xFFFFFFFF } ∧ (∀ j, j ≠ i → bank t j = bank s j) ∧ t.cmd.fw = some (id, fit 480 p) ∧ t.hst = s.hst)

/-- At its epoch an effect comes into force and completes: SETPOINT stores its set-points, CAL_SET gain and offset, SNAP_CFG and ARM_MAP their
tables (R115, R124, R126, R134, R137). A firmware image with the signed hash makes the idle bank valid with the next generation; a wrong one
fails and leaves it invalid (R144, R538). An item released as REFUSED or FAILED leaves the store and completes so; with an ECC error it
completes FAILED INTERNAL with a report (R434, R438). -/
def Obligations.EffectsComeIntoForceAndComplete : Prop :=
  (∀ (s : State) (e : Eff) (rest : List Eff) (l : List FlowEnt), s.cmd.pend = e :: rest → (∀ y ∈ rest, y.id.ord ≠ e.id.ord) →
    s.sys.running = true → e.ended = none → e.applied = false → e.at_ = none → e.repl = false → e.ack = none → e.epoch ≤ epochNow s →
    s.cmd.flowQ = { ord := e.id.ord, flow := e.id.flow } :: l → (∀ y ∈ l, y.flow ≠ e.id.flow ∧ y.ord ≠ e.id.ord ∧ y.cpl = none) →
    let done (t : State) : Prop :=
      t.cmd.pend = rest ∧ t.hst = { s.hst with cplDue := s.hst.cplDue ++
        [flowCpl e.id e.op cDone (if e.moved then stMoved else stOk) e.epoch e.result e.notRepl] }
    (∀ es, e.payload = .setpoint es → (es.map (·.1)).Nodup → (∀ q ∈ es, q.1 < 128) → Gives .effectApply s fun t =>
      done t ∧ ∀ q ∈ es, rg t (rLPE_LOOP_SP q.1) = q.2) ∧
    (∀ c g o, e.payload = .cal c g o → c < 32 → Gives .effectApply s fun t =>
      done t ∧ rg t (rAFE_CH_GAIN c) = g ∧ rg t (rAFE_CH_OFFSET c) = o) ∧
    (∀ r d f n, e.payload = .snapCfg r d f n → Gives .effectApply s fun t =>
      done t ∧ tget {} t.grn.snaps r = { rate := d, first := f, count := n }) ∧
    (∀ a g n rs, e.payload = .armMap a g n rs → Gives .effectApply s fun t =>
      done t ∧ armMap t a = (if rs = [] then {} else { group := g, nNeed := n, ranges := rs }) ∧ ∀ b, b ≠ a → armMap t b = armMap s b)) ∧
  (∀ (s : State) (id : CmdId) (env img : Bytes) (l : List FlowEnt), s.cmd.fw = some (id, env) →
    s.cmd.flowQ = { ord := id.ord, flow := id.flow } :: l → (∀ y ∈ l, y.flow ≠ id.flow ∧ y.ord ≠ id.ord ∧ y.cpl = none) →
    let i := (idleBank s (rd env 35 1)).1
    let failed (st : Nat) (t : State) : Prop :=
      (bank t i).mark = 0xFFFFFFFF ∧ t.cmd.fw = none ∧ t.hst = { s.hst with cplDue := s.hst.cplDue ++ [flowCpl id 0x0404 cFailed st 0 0] }
    let hashed := sha384 (fit (rd env 36 4) img) = slice env 56 48
    (hashed → Gives (.fwUpdateComplete (some img) true) s fun t =>
      (bank t i).mark = 0x5A5AA5A5 ∧ (bank t i).image = fit (rd env 36 4) img ∧ (bank t i).env = env ∧
      (bank t i).gen = ((bank s (idleBank s (rd env 35 1)).2).gen + 1) % 2 ^ 32 ∧ t.cmd.fw = none ∧
      t.hst = { s.hst with cplDue := s.hst.cplDue ++ [flowCpl id 0x0404 cDone stOk 0 0] }) ∧
    (¬ hashed → ∀ ok, Gives (.fwUpdateComplete (some img) ok) s (failed stFwHash)) ∧
    (hashed → Gives (.fwUpdateComplete (some img) false) s (failed stFwStore)) ∧
    (∀ ok, Gives (.fwUpdateComplete none ok) s (failed stFwFetch))) ∧
  (∀ (s : State) (f : Fin 64) (i : Nat) (it : Item), s.tsk.items.find? (fun q => q.2.used && q.2.id.flow == f.val && q.2.arr == (flow s f).oldest) = some (i, it) →
    (∀ y ∈ s.cmd.flowQ, y.flow ≠ f.val ∧ y.ord ≠ it.id.ord ∧ y.cpl = none) →
    let ends (cls st : Nat) (t : State) : Prop :=
      item t i = {} ∧ (flow t f).oldest = (flow s f).oldest + 1 ∧
      t.hst = { s.hst with cplDue := s.hst.cplDue ++ [flowCpl it.id it.op cls st 0 0] } ∧ t.cmd = s.cmd
    (∀ st res, it.done = some (1, st, res) → Gives (.itemRelease f false) s (ends cRefused st)) ∧
    (∀ st res, it.done = some (2, st, res) → Gives (.itemRelease f false) s (ends cFailed st)) ∧
    (Gives (.itemRelease f true) s fun t => ends cFailed stInternal t ∧ bit (rg t rTSK_EVT) 4 = true))

/-! ### The debug port (R520 to R529) -/

/-- The port answers FAULT to what the unlock level does not permit and WAIT while a check is busy, and then does nothing else; bad parity is
not acknowledged; GO starts a check unless locked out. A granted check takes its LEVEL and a new challenge and clears FAILS; another counts
a failure, and the eighth in a row locks out. Relock, expiry and DBG_EN low end the unlock: LEVEL 0, every core resumed (R520 to R523). -/
def Obligations.DebugUnlocksAreGrantedAndEnd : Prop :=
  ∀ s : State,
    let begun := { s with dbg := { s.dbg with en := true } }
    let ended (t : State) : Prop := t.dbg.level = 0 ∧ t.dbg.notAfter = none ∧ (∀ c, c < 16 → (core t c).halted = false) ∧ t.hrw.frozen = false ∧ t.regs = s.regs
    (∀ (c : Instr) (a : Nat), (∃ m v npc w, (c, a) ∈ [(.dpUnlockGo, 0x38), (.dpRelock, 0x38), (.dpHalt m, 0x40), (.dpResume m, 0x41), (.dpStep npc w, 0x42), (.dpRegSelWrite v, 0x44), (.dpFreezeWrite v, 0x60)]) →
      (dpWritable s.dbg.level a = false → exec c s = .next (setAck 4 begun)) ∧
      (dpWritable s.dbg.level a = true → s.dbg.busy = true → exec c s = .next (setAck 2 begun))) ∧
    (exec .dpParityError s = .next { s with dbg := { s.dbg with en := true, perr := true, ack := 0 } }) ∧
    (s.dbg.busy = false → exec .dpUnlockGo s = .next { s with dbg := { s.dbg with en := true, busy := !s.dbg.lockout, ack := 1 } }) ∧
    (s.dbg.busy = false → exec .dpUnlockDone s = .next s) ∧
    (s.dbg.busy = true → unlockGranted s = true → Gives .dpUnlockDone s fun t =>
      t.dbg.level = rd (unlockBlock s) 8 1 ∧ t.dbg.chal = Config.random s.freeCtr ∧ t.dbg.fails = 0 ∧ t.dbg.busy = false ∧
      t.dbg.lockout = s.dbg.lockout ∧ rg t rDBG_UNLOCK_CNT = satInc (rg s rDBG_UNLOCK_CNT) ∧ bit (rg t rDBG_EVT) 0 = true ∧
      t.flt.inbox = s.flt.inbox ++ [{ source := srcBlk 17 0, code := 0x0440 }] ∧ ChangesOnly [.regs, .freeCtr, .flt, .dbg] s t) ∧
    (s.dbg.busy = true → unlockGranted s = false → Gives .dpUnlockDone s fun t =>
      t.dbg = { s.dbg with busy := false, fails := s.dbg.fails + 1, lockout := s.dbg.lockout || decide (8 ≤ s.dbg.fails + 1) } ∧
      bit (rg t rDBG_EVT) 1 = true ∧ (8 ≤ s.dbg.fails + 1 → bit (rg t rDBG_EVT) 3 = true) ∧
      ({ source := srcBlk 17 0, code := 0x0441 } : Report) ∈ t.flt.inbox ∧ ChangesOnly [.regs, .flt, .dbg] s t) ∧
    (s.dbg.busy = false → Gives .dpRelock s ended) ∧
    (∀ n, s.dbg.notAfter = some n → n + 1 < 2 ^ 48 → Gives .dpUnlockExpire s ended) ∧
    ((∀ n, s.dbg.notAfter = some n → 2 ^ 48 ≤ n + 1) → exec .dpUnlockExpire s = .next s) ∧
    (Gives .dbgEnLow s fun t => ended t ∧ t.dbg = { chal := s.dbg.chal, fails := s.dbg.fails, lockout := s.dbg.lockout })

/-- At LEVEL 2 the port halts and resumes the cores of a mask, steps a halted core to the pc and register given, reads and writes the selected
register of a halted core, and sets HRW_FREEZE. A matching breakpoint halts its core at its address. A memory access the level or the map
does not permit answers FAULT; one it permits reads or writes the four bytes there, no other byte, and answers OK (R521 to R527). -/
def Obligations.DebugPortDrivesTheCores : Prop :=
  (∀ s : State, s.dbg.level = 2 → s.dbg.busy = false →
    let c := coreSel s
    (∀ m : U16, Gives (.dpHalt m) s fun t => ∀ d, d < 16 → core t d =
      if m.getLsbD d = true ∧ (core s d).halted = false then { coreTick s (core s d) with halted := true, idle := false, deep := false } else core s d) ∧
    (∀ m : U16, Gives (.dpResume m) s fun t =>
      ∀ d, d < 16 → core t d = if m.getLsbD d then { coreTick s (core s d) with halted := false } else core s d) ∧
    (∀ npc, (core s c).halted = true → (bit s.dbg.ctl 4 && irqTaken s c) = false → Gives (.dpStep npc none) s fun t =>
      core t c = { core s c with pc := npc } ∧ (∀ d, d ≠ c → core t d = core s d) ∧ t.mem = s.mem) ∧
    (∀ npc (r : Fin 64) x, (core s c).halted = true → (bit s.dbg.ctl 4 && irqTaken s c) = false → 0 < r.val → r.val < 32 →
      Gives (.dpStep npc (some (r, x))) s fun t => core t c = { core s c with pc := npc, gpr := tset 0 (core s c).gpr r x }) ∧
    (∀ v, (core s c).halted = true → regSelOk v = true → Gives (.dpRegSelWrite v) s fun t =>
      join64 t.dbg.regLo t.dbg.regHi = regSelRead s c v ∧ t.dbg.regSel = v &&& 0x1FFF ∧ t.dbg.ack = 1 ∧ ChangesOnly [.dbg] s t) ∧
    (∀ v, (core s c).halted = false ∨ regSelOk v = false → Gives (.dpRegSelWrite v) s fun t => t.dbg.ack = 4 ∧ t.dbg.regSel = s.dbg.regSel) ∧
    (∀ v, (core s c).halted = true → bit s.dbg.regSel 12 = false → 0 < fld s.dbg.regSel 11 0 → fld s.dbg.regSel 11 0 < 32 →
      Gives (.dpRegHiWrite v) s fun t =>
        core t c = { core s c with gpr := tset 0 (core s c).gpr (fld s.dbg.regSel 11 0) (join64 s.dbg.regLo v) } ∧ t.dbg.ack = 1) ∧
    (∀ v, Gives (.dpFreezeWrite v) s fun t => t.hrw = { s.hrw with frozen := bit v 0 } ∧ t.dbg.ack = 1)) ∧
  (∀ (s : State) (c : Fin 16) (b : Fin 4), bit (bpWord s c b) 0 = true → (core s c).halted = false → bit (tget 0 s.dbg.bpctl c) b = false →
    Gives (.breakpointHit c b) s fun t =>
      core t c = { coreTick s (core s c) with pc := u64 (fld (bpWord s c b) 31 1 * 2), halted := true, idle := false, deep := false } ∧
      bit (rg t rDBG_EVT) 2 = true ∧ t.flt.inbox = s.flt.inbox ++ [{ source := srcBlk 17 0, code := 0x0442 }]) ∧
  (∀ (s : State) (c : Fin 16) (w : Fin 2) (pc addr : U64) (st : Bool), bpAt s c pc = none → (core s c).halted = false →
    (wpMatches s c w addr st = false → exec (.watchpointHit c w pc addr st) s = .next s) ∧
    (wpMatches s c w addr st = true → bit (tget 0 s.dbg.wpCfg (2 * c + w)) 9 = false → Gives (.watchpointHit c w pc addr st) s fun t =>
      core t c = { coreTick s (core s c) with pc := pc, halted := true, idle := false, deep := false })) ∧
  (∀ (s : State) (write : Bool) (v : U32),
    let a := s.dbg.memAddr.toNat
    (s.dbg.level < (if write then 2 else 1) → exec (.dpMemDataAccess write v) s = .next { s with dbg := { s.dbg with en := true, ack := 4 } }) ∧
    (regionOf a = none → s.dbg.busy = false → 2 ≤ s.dbg.level → exec (.dpMemDataAccess write v) s = .next { s with dbg := { s.dbg with en := true, ack := 4 } }) ∧
    (∀ r, regionOf a = some r → r = .tcm ∨ r = .cached ∨ r = .uncached → 2 ≤ s.dbg.level → s.dbg.busy = false →
      (Gives (.dpMemDataAccess false v) s fun t => t.rdata = (u32 (leNat (readBytes s.mem a 4))).setWidth 64 ∧ t.dbg.ack = 1 ∧ t.mem = s.mem) ∧
      (Gives (.dpMemDataAccess true v) s fun t =>
        readBytes t.mem a 4 = leBytes 4 v.toNat ∧ (∀ k, k < a ∨ a + 4 ≤ k → readByte t.mem k = readByte s.mem k) ∧ t.dbg.ack = 1 ∧
        t.dbg.memAddr = (if bit s.dbg.ctl 5 then s.dbg.memAddr + 4 else s.dbg.memAddr))))

/-! ### The interrupt controller (R410 to R424) -/

/-- A read of gxclaim by a halted core, or with nothing latched or presented, gives 0x7FF and changes nothing else; a latched source counts while
the core admits it. Otherwise it claims the first of the source latched and the source presented, by PRIO and then by ID: it gives that source's
word, stacks its ID and PRIO, and the source is active with nothing counted; a level source whose input has gone is counted and reported as
spurious. A write of gxclaim completes the top source: it leaves the stack, is no longer active and is held for its MOD time. Another ID is counted,
recorded and reported, and changes neither the stack nor a source. A moderation hold ends at its tick, and where none runs nothing happens (R416 to
R422). -/
def Obligations.ClaimsAndCompletionsFollowTheStack : Prop :=
  ∀ (s : State) (c : Fin 16),
    (((core s c).halted = true ∨ (presented s c = none ∧ latchedFor s c = none)) → exec (.intClaim c) s = .next { s with rdata := 0x7FF }) ∧
    (∀ k, (core s c).halted = false →
      ((latchedFor s c = some k ∧ ∀ j, presented s c = some j → before s j k = false) ∨
       (presented s c = some k ∧ ∀ l, latchedFor s c = some l → before s k l = true)) →
      Gives (.intClaim c) s fun t =>
        t.rdata = claimWord s k ∧ (core t c).stack = (srcId k, srcPrio s k) :: (core s c).stack ∧ (intSrc t k).active = true ∧
        (intSrc t k).hold = (intSrc s k).hold ∧ (∀ d, d ≠ c.val → (core t d).stack = (core s d).stack) ∧
        (∀ j, j ≠ k → (intSrc t j).active = (intSrc s j).active) ∧
        (srcLevel k = true → srcInput s k = false →
          rg t rINT_SPUR_CNT = satInc (rg s rINT_SPUR_CNT) ∧ bit (rg t rINT_EVT) 1 = true ∧
          ({ source := srcBlk 5 c, code := 0x0141 } : Report) ∈ t.flt.inbox)) ∧
    (∀ (v : U64) p rest, (core s c).stack = (v.toNat, p) :: rest → Gives (.intComplete c v) s fun t =>
      let k := keyOf c v.toNat
      (core t c).stack = rest ∧
      intSrc t k = { intSrc s k with active := false, hold := if srcMod s k = 0 then none else some (now s + 256 * srcMod s k) } ∧
      (∀ j, j ≠ k → intSrc t j = intSrc s j) ∧ ChangesOnly [.ints, .cores] s t) ∧
    (∀ v : U64, ((core s c).stack.head?.map (·.1)) ≠ some v.toNat → Gives (.intComplete c v) s fun t =>
      rg t rINT_OOO_CNT = satInc (rg s rINT_OOO_CNT) ∧ bit (rg t rINT_EVT) 0 = true ∧
      rg t rINT_OOO_LAST = pack [(0, v.toNat % 0x800), (12, c), (16, ((core s c).stack.head?.map (·.1)).getD 0)] ∧
      t.flt.inbox = s.flt.inbox ++ [{ source := srcBlk 5 c, code := 0x0140 }] ∧ ChangesOnly [.regs, .flt] s t) ∧
    (∀ id : Fin 1088, ∀ e, (intSrc s (keyOf c id)).hold = some e → Gives (.modHoldExpire c id) s fun t =>
      t.tick = u64 (max (now s) e) ∧ intSrc t (keyOf c id) = { intSrc s (keyOf c id) with hold := none } ∧
      (∀ j, j ≠ keyOf c id → intSrc t j = intSrc s j) ∧ ChangesOnly [.tick, .ints, .cores, .tly] s t) ∧
    (∀ id : Fin 1088, (intSrc s (keyOf c id)).hold = none → exec (.modHoldExpire c id) s = .next s)

/-- An event on an enabled edge source counts up to 255, and then saturates and is reported; a source that is disabled or not listed keeps
nothing. gxlset pends a LOCAL source of its core, INT_SSET a software source and INT_SWI source 0 of every named core; other numbers, and
writes that are no core's, do nothing. gxtimecmp takes its value (R410, R413, R414, R419, R422, R424). WFI with a wake condition clears the
scheduler's wake and goes on; without one the core is idle, deep where gxdeep is set, and the moderation holds of its sources end (R420). A
wake condition wakes an idle core, which takes the external interrupt first where it is enabled (trap entry: log entry 12), and nothing else
wakes it (R411, R412). -/
def Obligations.EdgeEventsAreCounted : Prop :=
  ((∀ (s : State) (c : Fin 16) (cmd : Instr) (k : Nat),
    ((∃ id : Fin 1088, cmd = .intSourceEvent c id ∧ k = keyOf c id) ∨
     (∃ v : U64, cmd = .gxlsetWrite c v ∧ 16 ≤ v.toNat ∧ v.toNat ≤ 63 ∧ k = prvKey c v.toNat) ∨
     (∃ v : U32, cmd = .intSsetWrite (.core c) v ∧ WriteOk s (.core c) rINT_SSET v ∧ 512 ≤ fld v 10 0 ∧ fld v 10 0 ≤ 1087 ∧ k = fld v 10 0)) →
    srcLevel k = false →
    ((srcListed k = false ∨ srcEn s k = false) → exec cmd s = .next s) ∧
    (srcListed k = true → srcEn s k = true → (intSrc s k).cnt < 255 → Gives cmd s fun t =>
      intSrc t k = { intSrc s k with cnt := (intSrc s k).cnt + 1 } ∧ (∀ j, j ≠ k → intSrc t j = intSrc s j) ∧ t.regs = s.regs) ∧
    (srcListed k = true → srcEn s k = true → 255 ≤ (intSrc s k).cnt → Gives cmd s fun t =>
      intSrc t k = { intSrc s k with sat := true } ∧ bit (rg t rINT_EVT) 2 = true ∧ t.cores = s.cores ∧
      t.flt.inbox = s.flt.inbox ++ [{ source := srcBlk 5 (srcRoute s k), code := 0x0142 }])) ∧
  (∀ (s : State) (c : Fin 16) (v : U64), ¬ (16 ≤ v.toNat ∧ v.toNat ≤ 63) → exec (.gxlsetWrite c v) s = .next s) ∧
  (∀ (s : State) (c : Fin 16) (v : U32), WriteOk s (.core c) rINT_SSET v → fld v 10 0 < 512 ∨ 1087 < fld v 10 0 →
    exec (.intSsetWrite (.core c) v) s = .next s) ∧
  (∀ (s : State) (bus : Bus) (v : U32), (∀ c, bus ≠ .core c) →
    exec (.intSsetWrite bus v) s = .next s ∧ exec (.intSwiWrite bus v) s = .next s) ∧
  (∀ (s : State) (c : Fin 16) (v : U32), WriteOk s (.core c) rINT_SWI v → Gives (.intSwiWrite (.core c) v) s fun t =>
    ∀ d, d < 16 → (intSrc t (prvKey d 0)).cnt =
      if bit v d = true ∧ srcEn s (prvKey d 0) = true ∧ (intSrc s (prvKey d 0)).cnt < 255 then (intSrc s (prvKey d 0)).cnt + 1
      else (intSrc s (prvKey d 0)).cnt) ∧
  (∀ (s : State) (c : Fin 16),
    (∀ v : U64, Gives (.gxtimecmpWrite c v) s fun t =>
      core t c = { core s c with timecmp := v, latched := (core t c).latched } ∧ (∀ d, d ≠ c.val → core t d = core s d) ∧
      ((latchedFor s c).isSome = true → (core t c).latched = (core s c).latched)) ∧
    (Gives (.timerExpire c) s fun t => t.tick = u64 (max (now s) (core s c).timecmp.toNat) ∧
      core t c = { core s c with latched := (core t c).latched } ∧ t.ints = s.ints))) ∧
  (∀ (s : State) (c : Fin 16),
    (wakeCond s c = true → Gives (.wfi c) s fun t =>
      core t c = { core s c with tskWake := false } ∧ (∀ d, d ≠ c.val → core t d = core s d) ∧ ChangesOnly [.cores] s t) ∧
    (wakeCond s c = false → Gives (.wfi c) s fun t =>
      (core t c).idle = true ∧ (core t c).deep = (core s c).deepCfg ∧ (∀ d, d ≠ c.val → core t d = core s d) ∧
      (∀ k, intSrc t k = if srcRoute s k = c then { intSrc s k with hold := none } else intSrc s k) ∧ ChangesOnly [.ints, .cores] s t) ∧
    ((core s c).idle = true → wakeCond s c = true → irqTaken (awake c s) c = false → Gives (.coreWake c) s fun t =>
      core t c = { coreTick s (core s c) with idle := false, deep := false, tskWake := false } ∧ (∀ d, d ≠ c.val → core t d = core s d) ∧
      ChangesOnly [.cores] s t) ∧
    ((core s c).idle = true → wakeCond s c = true → irqTaken (awake c s) c = true → Gives (.coreWake c) s fun t =>
      let h := core s c
      let base := tget 0 h.csr 0x305
      (core t c).idle = false ∧ (core t c).deep = false ∧ (core t c).tskWake = false ∧ (core t c).priv = 3 ∧
      (core t c).pc = u64 (base.toNat / 4 * 4) + (if bit base 0 = true then 44 else 0) ∧ tget 0 (core t c).csr 0x341 = h.pc ∧
      tget 0 (core t c).csr 0x342 = u64 (2 ^ 63 + 11) ∧
      (∀ d, d ≠ c.val → (core t d).pc = (core s d).pc ∧ (core t d).idle = (core s d).idle) ∧
      ChangesOnly [.regs, .dma, .freeCtr, .flt, .ints, .cores, .tly] s t) ∧
    ((core s c).idle = false ∨ wakeCond s c = false → exec (.coreWake c) s = .next s))

/-! ### The task scheduler (R426 to R442) -/

/-- ALLOC takes the lowest FREE thread, FREE frees a BLOCKED one, WAKE makes a BLOCKED one READY at the tail and marks another, SET_PRIO and SET_AFF
set their fields, TOKEN_HI gives the token's upper half. SWITCH and NEXT dispatch: the thread picked runs on the core, or none; a thread whose TCB
met an uncorrectable error stays BLOCKED (log entry 44). An operation that a rule refuses answers its STATUS, counts, records and reports, and
changes no thread, item or flow (R427 to R430, R438). -/
def Obligations.ThreadOperationsFollowTheTable : Prop :=
  ∀ (s : State) (c : Fin 16),
    let fails (t : State) (op idx st : Nat) : Prop :=
      (port t c).resLo = pack [(0, st), (4, 0), (16, 0)] ∧ rg t rTSK_ERR_CNT = satInc (rg s rTSK_ERR_CNT) ∧
      rg t rTSK_ERR_LAST = pack [(0, st), (4, op), (8, c), (12, idx)] ∧ bit (rg t rTSK_EVT) 0 = true ∧
      t.flt.inbox = s.flt.inbox ++ [{ source := srcBlk 4 (1 + c), code := 0x0100 }] ∧
      t.tsk.tcbs = s.tsk.tcbs ∧ t.tsk.ready = s.tsk.ready ∧ t.tsk.items = s.tsk.items ∧ t.tsk.flows = s.tsk.flows
    let ok (t : State) : Prop := (port t c).resLo = 0 ∧ t.regs = s.regs ∧ t.flt = s.flt
    (∀ (p : Fin 64) lo hi i, (List.range 4096).find? (fun i => (tcb s i).st == 0) = some i → Gives (.tskAlloc c p lo hi) s fun t =>
      tcb t i = { st := 1, prio := p, aff := 0xFFFF, token := join64 lo hi } ∧ (∀ j, j ≠ i → tcb t j = tcb s j) ∧
      (port t c).resLo = pack [(0, 0), (4, i), (16, 0)] ∧ ChangesOnly [.tsk] s t) ∧
    (∀ p lo hi, (List.range 4096).find? (fun i => (tcb s i).st == 0) = none → Gives (.tskAlloc c p lo hi) s fun t => fails t 1 0 4) ∧
    (∀ i : Fin 4096, ((tcb s i).st = 1 → Gives (.tskFree c i) s fun t => tcb t i = {} ∧ (∀ j, j ≠ i.val → tcb t j = tcb s j) ∧ ok t) ∧
      ((tcb s i).st ≠ 1 → Gives (.tskFree c i) s fun t => fails t 2 i 3)) ∧
    (∀ i : Fin 4096, ((tcb s i).dead = true ∨ (tcb s i).st = 0 → Gives (.tskWake c i) s fun t => fails t 3 i 3) ∧
      ((tcb s i).dead = false → (tcb s i).st = 1 → Gives (.tskWake c i) s fun t =>
        tcb t i = { tcb s i with st := 2 } ∧ (∀ j, j ≠ i.val → tcb t j = tcb s j) ∧ t.tsk.ready = s.tsk.ready.filter (· != i.val) ++ [i.val] ∧
        (port t c).resLo = 0) ∧
      ((tcb s i).dead = false → 2 ≤ (tcb s i).st → Gives (.tskWake c i) s fun t =>
        tcb t i = { tcb s i with wakePend := true } ∧ (∀ j, j ≠ i.val → tcb t j = tcb s j) ∧ t.tsk.ready = s.tsk.ready ∧ ok t)) ∧
    (∀ (i : Fin 4096) (p : Fin 64), ((tcb s i).st = 0 → Gives (.tskSetPrio c i p) s fun t => fails t 6 i 3) ∧
      ((tcb s i).st ≠ 0 → Gives (.tskSetPrio c i p) s fun t =>
        tcb t i = { tcb s i with prio := p } ∧ (∀ j, j ≠ i.val → tcb t j = tcb s j) ∧ (port t c).resLo = 0 ∧
        t.tsk.ready = if (tcb s i).st = 2 then s.tsk.ready.filter (· != i.val) ++ [i.val] else s.tsk.ready)) ∧
    (∀ (i : Fin 4096) lo, (lo.setWidth 16 = (0 : U16) → Gives (.tskSetAff c i lo) s fun t => fails t 7 i 5) ∧
      (lo.setWidth 16 ≠ (0 : U16) → (tcb s i).st = 0 → Gives (.tskSetAff c i lo) s fun t => fails t 7 i 3) ∧
      (lo.setWidth 16 ≠ (0 : U16) → (tcb s i).st ≠ 0 → Gives (.tskSetAff c i lo) s fun t =>
        tcb t i = { tcb s i with aff := lo.setWidth 16 } ∧ (∀ j, j ≠ i.val → tcb t j = tcb s j) ∧ t.tsk.ready = s.tsk.ready ∧ ok t)) ∧
    (∀ i : Fin 4096, Gives (.tskTokenHi c i) s fun t => (port t c).resHi = hi32 (tcb s i).token ∧ t.tsk.tcbs = s.tsk.tcbs ∧ ok t) ∧
    (∀ (op : Fin 16) (i : Fin 4096), op.val = 0 ∨ 10 < op.val → Gives (.tskBadOp c op i) s fun t => fails t op i 7) ∧
    ((port s c).cur.isSome = true → Gives (.tskNext c none) s fun t => fails t 5 0 3) ∧
    ((port s c).cur = none → exec (.tskNext c none) s = .next (dispatch c s)) ∧
    ((port s c).cur = none → ∀ d, Gives (.tskSwitch c d none) s fun t => fails t 4 0 3) ∧
    (∀ x, (port s c).cur = some x →
      let v := tcb s x
      let free := setPort s c { port s c with cur := none }
      exec (.tskSwitch c 0 none) s = .next (dispatch c (if v.dead = true then free else makeReady x free)) ∧
      exec (.tskSwitch c 1 none) s =
        .next (dispatch c (if v.wakePend = true ∧ v.dead = false then makeReady x (setTcb free x { v with wakePend := false })
          else setTcb free x { v with st := 1 })) ∧
      exec (.tskSwitch c 2 none) s = .next (dispatch c (setTcb free x {})) ∧
      Gives (.tskSwitch c 3 none) s fun t => fails t 4 0 5) ∧
    (dispatchPick s c = none → (port (dispatch c s) c).cur = none ∧ (port (dispatch c s) c).resLo = 1 ∧ (dispatch c s).tsk.tcbs = s.tsk.tcbs) ∧
    (∀ x, dispatchPick s c = some x →
      tcb (dispatch c s) x = { tcb s x with st := 3, last := c } ∧ (∀ j, j ≠ x → tcb (dispatch c s) j = tcb s j) ∧
      (dispatch c s).tsk.ready = s.tsk.ready.filter (· != x) ∧ (port (dispatch c s) c).cur = some x ∧
      (port (dispatch c s) c).resLo = pack [(0, 0), (4, x), (16, (tcb s x).prio)] ∧ (port (dispatch c s) c).resHi = lo32 (tcb s x).token) ∧
    (∀ (b : Fin 4096) d, exec (.tskNext c (some b)) s = exec (.tskNext c none) (tcbEcc b s) ∧
      exec (.tskSwitch c d (some b)) s = exec (.tskSwitch c d none) (tcbEcc b s) ∧
      tcb (tcbEcc b s) b = { tcb s b with st := 1, dead := true } ∧ b.val ∉ (tcbEcc b s).tsk.ready ∧
      (tcbEcc b s).flt.inbox = s.flt.inbox ++ [{ source := srcBlk 4 0, code := 0x0104 }])

/-- TAKE takes, of the items the core may take, that of the lowest command ring and there the one verified first: the core owns it from then on;
with none it answers NONE. RELEASE of an item the core owns records its disposition once; another answers its STATUS. An item taken longer
than REL_MAX is reported once (R433, R434, R437). -/
def Obligations.ItemsAreTakenAndReleasedByTheirOwner : Prop :=
  ∀ (s : State) (c : Fin 16),
    ((∀ q ∈ s.tsk.items, takeable s c q.2 = false) → Gives (.tskTake c) s fun t => (port t c).resLo = 1 ∧ t.tsk.items = s.tsk.items) ∧
    (∀ i it, (i, it) ∈ s.tsk.items → item s i = it → takeable s c it = true →
      (∀ q ∈ s.tsk.items, takeable s c q.2 = true → q ≠ (i, it) → it.id.ring < q.2.id.ring ∨ it.id.ring = q.2.id.ring ∧ it.id.ord < q.2.id.ord) →
      Gives (.tskTake c) s fun t =>
        item t i = { it with owner := some c, takenAt := now s } ∧ (∀ j, j ≠ i → item t j = item s j) ∧
        (port t c).resLo = pack [(0, 0), (4, i), (16, 0)] ∧
        (port t c).resHi = pack [(0, it.id.flow), (6, it.id.ring), (8, it.arr % 2 ^ 24)] ∧
        (flow t it.id.flow).taken = max (flow s it.id.flow).taken (it.arr + 1) ∧ ChangesOnly [.tsk] s t) ∧
    (∀ (i : Fin 4096) (d : Fin 4) (lo hi : U32),
      let it := item s i
      let st := if 1024 ≤ i.val then 2 else if it.used = false ∨ it.owner = none then 3
                else if it.owner ≠ some c.val then 6 else if it.done ≠ none then 3 else if d = 3 then 5 else 0
      (st = 0 → Gives (.tskRelease c i d lo hi) s fun t =>
        item t i = { it with done := some (d.val, fld lo 15 0, hi) } ∧ (∀ j, j ≠ i.val → item t j = item s j) ∧ (port t c).resLo = 0 ∧
        t.tsk.flows = s.tsk.flows ∧ t.regs = s.regs) ∧
      (st ≠ 0 → Gives (.tskRelease c i d lo hi) s fun t =>
        (port t c).resLo = pack [(0, st), (4, 0), (16, 0)] ∧ t.tsk.items = s.tsk.items ∧ rg t rTSK_ERR_CNT = satInc (rg s rTSK_ERR_CNT) ∧
        rg t rTSK_ERR_LAST = pack [(0, st), (4, 9), (8, c), (12, i)])) ∧
    (∀ i : Fin 1024,
      let it := item s i
      (it.used = true ∧ it.owner.isSome = true ∧ it.done = none ∧ it.timedOut = false → Gives (.relTimeout i) s fun t =>
        item t i = { it with timedOut := true } ∧ bit (rg t rTSK_EVT) 3 = true ∧
        t.tick = u64 (max (now s) (it.takenAt + max 1 (fld (rg s rTSK_CFG) 31 16) * 625 / 2 + 1)) ∧
        t.flt.inbox = s.flt.inbox ++ [{ source := srcBlk 4 (32 + it.id.flow), code := 0x0103 }]) ∧
      (it.used = false ∨ it.owner = none ∨ it.done ≠ none ∨ it.timedOut = true → exec (.relTimeout i) s = .next s))

/-! ### Tally (R511 to R519) -/

/-- The issue slots of the four classes add up to two for every cycle of the core. A counter that wraps sets its overflow bit and the event, and
restarts from 0, or from the reload value where it samples; a halted core's counters do not wrap. A sample enters the core's buffer, replaces the
oldest one of a full buffer that wraps, is lost in one that does not, or goes to the host's buffer. Clearing empties the buffer; 1s clear gxtlyovf
bits; a device counter's CFG write clears it. A core's read of the register space or load from the Granary port counts UNC_LOAD in the counters that
name it in the core's mode (R512); the host's and the debug port's reads count nothing. -/
def Obligations.CountersWrapAndSample : Prop :=
  ∀ (s : State) (c : Fin 16),
    (∀ m a b, slotsIn c m 0 a b + slotsIn c m 1 a b + slotsIn c m 2 a b + slotsIn c m 3 a b = 2 * (b - a)) ∧
    (∀ (k : Fin 8) pc addr mm sl lat full,
      let cmd := Instr.counterWrap c k pc addr mm sl lat full
      let w := tget 0 (tlyCore s c).evt k
      let base := { tlyCore s c with cnt := tset 0 (tlyCore s c).cnt k (if bit w 10 then (tlyCore s c).rld else 0),
                                     base := tset {} (tlyCore s c).base k (coreCyc s c),
                                     ovf := (tlyCore s c).ovf ||| BitVec.ofNat 8 (2 ^ k.val) }
      let r := smpRecord s c k ⟨pc, addr, if mm then 3 else 0, sl, lat.toNat⟩
      ((core s c).halted = true → exec cmd s = .next s) ∧
      ((core s c).halted = false → (bit w 10 = false ∨ base.en = false) → bit w 11 = false → Gives cmd s fun t =>
        tlyCore t c = base ∧ (∀ d, d ≠ c.val → tlyCore t d = tlyCore s d) ∧ bit (rg t rTLY_EVT) 3 = true ∧ ChangesOnly [.regs, .tly] s t) ∧
      ((core s c).halted = false → (bit w 10 = false ∨ base.en = false) → bit w 11 = true → Gives cmd s fun t =>
        tlyCore t c = base ∧ (∀ j, j ≠ prvKey c 3 → intSrc t j = intSrc s j) ∧
        (intSrc t (prvKey c 3)).cnt =
          if srcEn s (prvKey c 3) = true ∧ (intSrc s (prvKey c 3)).cnt < 255 then (intSrc s (prvKey c 3)).cnt + 1
          else (intSrc s (prvKey c 3)).cnt) ∧
      ((core s c).halted = false → bit w 10 = true → base.en = true → bit w 11 = false → base.host = false →
        (base.buf.length < 4096 → base.buf.length ≠ 2047 → base.buf.length ≠ 4095 → Gives cmd s fun t =>
          tlyCore t c = { base with buf := base.buf ++ [r], seqno := base.seqno + 1 } ∧ ChangesOnly [.regs, .tly] s t) ∧
        (4096 ≤ base.buf.length → base.wrap = true → Gives cmd s fun t =>
          tlyCore t c = { base with buf := base.buf.set base.at_ r, at_ := (base.at_ + 1) % 4096, seqno := base.seqno + 1 }) ∧
        (4096 ≤ base.buf.length → base.wrap = false → Gives cmd s fun t =>
          tlyCore t c = { base with full := true } ∧ bit (rg t rTLY_EVT) 1 = true)) ∧
      ((core s c).halted = false → bit w 10 = true → base.en = true → bit w 11 = false → base.host = true →
        (full = true → Gives cmd s fun t =>
          tlyCore t c = base ∧ rg t rTLY_DROP_CNT = satInc (rg s rTLY_DROP_CNT) ∧ bit (rg t rTLY_EVT) 0 = true ∧ t.dma = s.dma ∧
          t.flt.inbox = s.flt.inbox ++ [{ source := srcBlk 16 (1 + c), code := 0x0400 }]) ∧
        (full = false → 0 < (rg s rTLY_HBUF_LEN).toNat → s.hst.linkUp = true → Gives cmd s fun t =>
          tlyCore t c = { base with seqno := base.seqno + 1 } ∧ t.tly.wi = (s.tly.wi + 32) % (rg s rTLY_HBUF_LEN).toNat ∧
          t.dma = s.dma ++ [⟨addr64 s rTLY_HBUF_BASE_LO rTLY_HBUF_BASE_HI + s.tly.wi, smpBytes r⟩]))) ∧
    (∀ v : BitVec 3, Gives (.sampleBufferClear c v) s fun t =>
      tlyCore t c = { tlyCore s c with en := v.getLsbD 0, wrap := v.getLsbD 1, host := v.getLsbD 2, buf := [], at_ := 0, full := false } ∧
      (∀ d, d ≠ c.val → tlyCore t d = tlyCore s d) ∧ ChangesOnly [.tly] s t) ∧
    (∀ v : U64, v.toNat < 0x100 → Gives (.gxtlyovfClear c v) s fun t =>
      tlyCore t c = { tlyCore s c with ovf := (tlyCore s c).ovf &&& ~~~ (v.setWidth 8) } ∧ ChangesOnly [.tly] s t) ∧
    (∀ u : State, busLoad .host u = u ∧ busLoad .debug u = u) ∧
    (∀ p : Fin 1064960, (core s c).halted = false → (∀ k, k < 8 → tget 0 (tlyCore s c).cnt k ≠ 0xFFFFFFFFFFFF) →
      Gives (.granaryPortLoad c p) s fun t => (∀ d, d ≠ c.val → tlyCore t d = tlyCore s d) ∧ ChangesOnly [.rdata, .tly] s t ∧
        ∀ k, k < 8 →
          let w := tget 0 (tlyCore s c).evt k
          let mode : Prop := ((core s c).priv = 0 ∧ bit w 8 = true) ∨ ((core s c).priv = 3 ∧ bit w 9 = true)
          tget 0 (tlyCore t c).cnt k = tget 0 (tlyCore s c).cnt k + if fld w 7 0 = 0x13 ∧ mode then 1 else 0) ∧
    (∀ v : U64, 0x100 ≤ v.toNat → exec (.gxtlyovfClear c v) s = .fault (.reservedCsrSet 0x7C6)) ∧
    (∀ (bus : Bus) (k : Fin 8) (v : U32), WriteOk s bus (rTLY_DEV_CFG k) v → Gives (.tlyDevCfgWrite bus k v) s fun t =>
      rg t (rTLY_DEV_CFG k) = mergeReg s (rTLY_DEV_CFG k) v ∧ tget 0 t.tly.dev k = 0 ∧
      (∀ j, j ≠ k.val → tget 0 t.tly.dev j = tget 0 s.tly.dev j) ∧ t.tly.cores = s.tly.cores ∧ ChangesOnly [.regs, .tly] s t)

/-! ### Snare (R463 to R479) -/

/-- The pattern is evaluated once a change is applied: an armed acquisition that it triggers enters POST at its trigger tick, and one that has
left ARMED counts a missed trigger; a disarmed Snare does nothing. A TRIG line takes its level and its first falling edge is stamped, but the
input of a line that this device drives, or released less than 16 ticks ago, is ignored (R560, both by log entry 46). A software record
enters the queue in the order of ticks and IDs or is lost and counted, and TRIG_OUT is released (R463 to R469, R479). -/
def Obligations.SnareEvaluatesItsTrigger : Prop :=
  ∀ s : State,
    (∀ l : Fin 4, s.snr.lines.getLsbD l = false → trigMasked l s = false →
      let c := Instr.trigLineRelease l
      let vec := trigVec s
      let m := decide ((vec ^^^ s.snr.tval) &&& s.snr.tmask = 0)
      let trig := if bit (rg s rSNR_CFG) 0 then m else m && !s.snr.matched
      let ls := changedLines s
      let dly := ls.foldl (fun a l => max a (fld (rg s (rSNR_TRIG_DLY l)) 7 0)) 0
      let tt := if ls.isEmpty then now s else now s - dly
      (s.snr.st = 0 → exec c s = .next s) ∧
      (s.snr.st = 1 → trig = true → Gives c s fun t =>
        t.snr = { s.snr with st := 2, triggered := true, trigTick := tt, trigVec := vec, bus := !ls.isEmpty, matched := m, lineChg := 0,
                             post := (s.snr.recs.filter (fun r => decide (tt ≤ r.tick))).length,
                             tout := if bit (rg s rSNR_CFG) 2 then some (now s + 67) else s.snr.tout,
                             toutLine := if bit (rg s rSNR_CFG) 2 then fld (rg s rSNR_CFG) 5 4 else s.snr.toutLine,
                             toutEnd := if bit (rg s rSNR_CFG) 2 then now s + 67 else s.snr.toutEnd } ∧
        bit (rg t rSNR_EVT) 0 = true ∧ ChangesOnly [.regs, .snr] s t) ∧
      (2 ≤ s.snr.st → trig = true → Gives c s fun t =>
        t.snr = { s.snr with matched := m, lineChg := 0 } ∧ rg t rSNR_MISSED = satInc (rg s rSNR_MISSED) ∧ bit (rg t rSNR_EVT) 3 = true) ∧
      (0 < s.snr.st → trig = false → exec c s = .next { s with snr := { s.snr with matched := m, lineChg := 0 } })) ∧
    (∀ l : Fin 4,
      (trigMasked l s = false → s.snr.lines.getLsbD l = false → Gives (.trigLineAssert l) s fun t =>
        t.snr.lines = s.snr.lines ||| BitVec.ofNat 4 (2 ^ l.val) ∧ rg t (rSNR_TRIG_LAST l) = lo32 s.tick ∧ ChangesOnly [.regs, .flt, .snr] s t) ∧
      (trigMasked l s = false → s.snr.lines.getLsbD l = true → exec (.trigLineAssert l) s = .next s) ∧
      (trigMasked l s = false → Gives (.trigLineRelease l) s fun t =>
        t.snr.lines = s.snr.lines &&& ~~~ BitVec.ofNat 4 (2 ^ l.val) ∧ ChangesOnly [.regs, .flt, .snr] s t) ∧
      (trigMasked l s = true → exec (.trigLineAssert l) s = .next s ∧ exec (.trigLineRelease l) s = .next s) ∧
      (∀ e : Nat, 0 < e → s.snr.toutLine = l.val → s.snr.toutEnd = e → e ≤ now s + 64 → now s < e + 16 → trigMasked l s = true)) ∧
    (∀ (c : Fin 16) (v : U32), WriteOk s (.core c) rSNR_SW v →
      let stores := (s.snr.st = 1 ∨ s.snr.st = 2) ∧ bit s.snr.groups 15 = true ∧ s.snr.armTick ≤ now s
      Gives (.snrSwWrite (.core c) v) s fun t =>
        tget 0 t.snr.sig (sigId 15 (fld v 7 0)) = fld v 31 16 ∧ ChangesOnly [.regs, .flt, .snr] s t ∧
        (stores → s.snr.queue.length < snrQueueCap →
          t.snr.queue = snrInsert { tick := now s, id := sigId 15 (fld v 7 0), value := fld v 31 16 } s.snr.queue) ∧
        (stores → snrQueueCap ≤ s.snr.queue.length →
          t.snr.queue = s.snr.queue ∧ t.snr.drops = s.snr.drops + 1 ∧ t.snr.lostN = s.snr.lostN + 1 ∧
          rg t rSNR_DROP = satInc (rg s rSNR_DROP) ∧ rg t (rSYS_YIELD_CNT 6) = satInc (rg s (rSYS_YIELD_CNT 6)) ∧ t.flt.inbox = s.flt.inbox ++ [{ source := srcBlk 15 0, code := 0x03C2 }]) ∧
        (¬ stores → t.snr.queue = s.snr.queue)) ∧
    (∀ (bus : Bus) (v : U32), (∀ c, bus ≠ .core c) → exec (.snrSwWrite bus v) s = .next s) ∧
    (s.snr.tout = none → exec .trigOutRelease s = .next s) ∧
    (∀ e, s.snr.tout = some e → Gives .trigOutRelease s fun t =>
      t.tick = u64 (max (now s) e) ∧ t.snr = { s.snr with tout := none } ∧ ChangesOnly [.tick, .snr, .tly] s t)

/-- The queue's first record is stored, behind a DROP marker where records were lost; the store drops its oldest record when full. The record that
fills the quota of POST, or its time limit, starts the dump: the pre-history is cut, ACQ counts and COMMIT is written invalid; at the time limit the
records that wait from before it are stored first. The end of the dump writes header, records and then COMMIT, and re-arms where the configuration
says so; writes of higher rank make it wait, which counts once as a yield of rank 9 (R41, R464 to R466, R470 to R478). -/
def Obligations.SnareRecordsAreStoredAndDumped : Prop :=
  ∀ s : State,
    let n := s.snr
    let quota := (16 - n.pre) * snrSixteenth
    (n.queue = [] → exec .snareRecordWrite s = .next s) ∧
    (∀ r rest, n.queue = r :: rest → n.lostN = 0 → n.st = 1 →
      (n.recs.length < snrCap → Gives .snareRecordWrite s fun t =>
        t = { s with snr := { n with queue := rest, recs := n.recs ++ [r], lastTick := r.tick } }) ∧
      (snrCap ≤ n.recs.length → Gives .snareRecordWrite s fun t =>
        t = { s with snr := { n with queue := rest, recs := n.recs.tail ++ [r], lastTick := r.tick } })) ∧
    (∀ r rest, n.queue = r :: rest → 0 < n.lostN → n.st = 1 → n.recs.length + 1 < snrCap → Gives .snareRecordWrite s fun t =>
      t.snr.recs = n.recs ++ [{ tick := r.tick, id := 0xFFFFFE, value := min n.lostN 0xFFFF }, r] ∧ t.snr.lostN = 0 ∧ t.snr.queue = rest) ∧
    (∀ r rest, n.queue = r :: rest → n.lostN = 0 → n.st = 2 → n.recs.length < snrCap → n.trigTick ≤ r.tick →
      (n.post + 1 < quota → Gives .snareRecordWrite s fun t =>
        t = { s with snr := { n with queue := rest, recs := n.recs ++ [r], lastTick := r.tick, post := n.post + 1 } }) ∧
      (quota ≤ n.post + 1 → s.hst.linkUp = true → linkBusy s = false → Gives .snareRecordWrite s fun t =>
        t.snr.st = 3 ∧ t.snr.acq = (n.acq + 1) % 2 ^ 32 ∧ t.snr.queue = [] ∧ t.dma = s.dma ++ [⟨dumpBase s, List.replicate 8 0xFF⟩]) ∧
      (quota ≤ n.post + 1 → s.hst.linkUp = true → linkBusy s = true → Gives .snareRecordWrite s fun t =>
        t.snr.st = 3 ∧ t.snr.acq = (n.acq + 1) % 2 ^ 32 ∧ t.snr.dumpDue = true ∧ t.snr.waited = true ∧ t.dma = s.dma ∧
        rg t (rSYS_YIELD_CNT 6) = satInc (rg s (rSYS_YIELD_CNT 6)))) ∧
    ((n.st = 1 ∧ n.queue = [] ∧ n.recs.length < snrCap) → Gives .snareGap s fun t =>
      t.snr = { n with recs := n.recs ++ [{ tick := n.lastTick + 0xFFFFFF, id := 0xFFFFFF, value := 0 }], lastTick := n.lastTick + 0xFFFFFF } ∧
      t.tick = u64 (max (now s) (n.lastTick + 0xFFFFFF))) ∧
    (¬ ((n.st = 1 ∨ n.st = 2) ∧ n.queue = []) → exec .snareGap s = .next s) ∧
    (n.st = 2 → fld (rg s rSNR_POST_MS) 15 0 ≠ 0 → Gives .snarePostEnd s fun t =>
      t.snr.st ≠ 2 ∧ t.tick = u64 (max (now s) (n.trigTick + fld (rg s rSNR_POST_MS) 15 0 * 312500))) ∧
    (n.st = 2 → fld (rg s rSNR_POST_MS) 15 0 ≠ 0 → n.triggered = true →
      (∀ r ∈ n.queue.head?, n.trigTick + fld (rg s rSNR_POST_MS) 15 0 * 312500 ≤ r.tick) → Gives .snarePostEnd s fun t =>
      let before := n.recs.filter (fun r => decide (r.tick < n.trigTick))
      t.snr.st = (if s.hst.linkUp then 3 else 0) ∧ t.snr.postTime = true ∧ t.snr.acq = (n.acq + 1) % 2 ^ 32 ∧
      t.snr.recs = before.drop (before.length - n.pre * snrSixteenth) ++ n.recs.filter (fun r => decide (n.trigTick ≤ r.tick))) ∧
    (n.st ≠ 2 ∨ fld (rg s rSNR_POST_MS) 15 0 = 0 → exec .snarePostEnd s = .next s) ∧
    (∀ bad : List Nat, n.st = 3 → s.hst.linkUp = true →
      let hits := bad.filter (fun i => decide (i < n.recs.length))
      (linkBusy s = true → Gives (.snareDumpDone bad) s fun t => t.dma = s.dma ∧ t.snr = { n with waited := true } ∧
        rg t (rSYS_YIELD_CNT 6) = if n.waited then rg s (rSYS_YIELD_CNT 6) else satInc (rg s (rSYS_YIELD_CNT 6))) ∧
      (linkBusy s = false → Gives (.snareDumpDone bad) s fun t =>
        t.dma = s.dma ++ ((if n.dumpDue then [⟨dumpBase s, List.replicate 8 0xFF⟩] else []) ++
          [⟨dumpBase s + 8, dumpHeader s (!hits.isEmpty) ++ dumpWords hits 0 none n.recs⟩, ⟨dumpBase s, leBytes 8 n.acq⟩]) ∧
        t.snr = { n with st := if bit (rg s rSNR_CFG) 1 && !n.noAuto then 4 else 0, rearmAt := now s + 1024, dumpDue := false } ∧
        rg t rSNR_ACQ = u32 n.acq ∧ bit (rg t rSNR_EVT) 1 = true ∧
        (hits ≠ [] → t.flt.inbox = s.flt.inbox ++ [{ source := srcBlk 15 0, code := 0x03C1 }]))) ∧
    (∀ bad : List Nat, n.st ≠ 3 ∨ s.hst.linkUp = false → exec (.snareDumpDone bad) s = .next s) ∧
    (n.st = 4 → Gives .snareRearmEnd s fun t =>
      t.tick = u64 (max (now s) n.rearmAt) ∧ t.snr.armTick = now t ∧ t.snr.recs = [] ∧ t.snr.queue = [] ∧ t.snr.drops = 0 ∧
      (t.snr.st = 1 ∨ t.snr.st = 2)) ∧
    (n.st ≠ 4 → exec .snareRearmEnd s = .next s)

/-! ### Tocsin (R380 to R397) -/

/-- While the clock runs a capture cycle takes the first waiting report and the others that came with it; none is taken while it is stopped. A
report whose source and code have an open record is merged into it. Another takes a free record where its class is recorded, is the first
fault where none is held and its class is captured so, and from BLOCK upwards blocks every group of its scope from the frame of a BLOCK
decided now; a record of FAULTN_CLASS or above pulls FAULT_N low (R384, R385, R387 to R390, R396). -/
def Obligations.ReportsAreCapturedAndReact : Prop :=
  ∀ s : State,
    (∀ n, s.sys.clkRun = false → exec (.tocsinReport n) s = .next s) ∧
    (∀ n, s.sys.clkRun = true → exec (.tocsinReport n) s = .next (captureCycle (n + 1) s).2) ∧
    (∀ r rest, s.flt.inbox = r :: rest →
      let t := (captureCycle 1 s).2
      let cls := codeClass s r.code
      (∀ i o, openRec s r.source r.code = some (i, o) → r.code ≠ 0x0380 →
        fltRec t i = { o with mergeCnt := min 255 (o.mergeCnt + 1), cause := o.cause ||| reportCause s r } ∧
        (∀ j, j ≠ i → fltRec t j = fltRec s j) ∧ bit (rg t rFLT_EVT) 5 = true ∧ t.cmd = s.cmd) ∧
      (∀ i, openRec s r.source r.code = none → (2 ≤ cls ∨ fld (rg s rFLT_CFG) 1 0 ≤ cls) →
        (List.range 64).find? (fun i => !(fltRec s i).isOpen) = some i → r.code ≠ 0x0380 →
        let rec_ : FltRec := { source := r.source, code := r.code, cls := cls, cause := reportCause s r, epoch := u64 (epochNow s),
                               tick := s.tick, isOpen := true, index := i, age := s.flt.nextAge }
        fltRec t i = rec_ ∧ (∀ j, j ≠ i → fltRec t j = fltRec s j) ∧
        (s.flt.first = none → fld (rg s rFLT_CFG) 3 2 ≤ cls → t.flt.first = some { rec_ with live := causeLive s r.source r.code }) ∧
        (fld (rg s rFLT_CFG) 5 4 ≤ cls → t.flt.faultn = true) ∧
        (2 ≤ cls → ∀ g, g < 4 → (faultScope s cls r.source).testBit g = true →
          ∃ w ∈ (group t g).line, w.j = blockFrame s (now s) ∧ w.on = true ∧ w.ord = s.cmd.ord) ∧
        (cls < 2 → t.cmd = s.cmd)))

/-- FLT_CLEAR takes the reports of its cycle first. ONE closes the record it names, and ALL every record, whose cause is gone, that no report of
the cycle hit and whose groups are all blocked; what stays open is counted. FIRST re-arms the first-fault capture. The FAULT_N pulse ends at
its tick, and FAULT_N then follows its mode (R389, R390, R394, R396). -/
def Obligations.ClearingNeedsTheCauseGone : Prop :=
  (∀ (s : State) (bus : Bus) (k : Fin 64) (n : Nat), WriteOk s bus rFLT_CLEAR (bitv 8 ||| u32 k) →
    let u := (captureCycle n s).2
    let hit := (captureCycle n s).1.any (fun q => q.source == (fltRec u k).source && q.code == (fltRec u k).code)
    Gives (.fltClearOne bus k n) s fun t =>
      (∀ j, j ≠ k.val → fltRec t j = fltRec u j) ∧
      ((fltRec u k).isOpen = false → fltRec t k = fltRec u k) ∧
      ((fltRec u k).isOpen = true → hit = false → clearable u (fltRec u k) = true → fltRec t k = { fltRec u k with isOpen := false }) ∧
      ((fltRec u k).isOpen = true → hit = true ∨ clearable u (fltRec u k) = false →
        fltRec t k = fltRec u k ∧ rg t rFLT_CLR_REFUSE = satInc (rg u rFLT_CLR_REFUSE) ∧ bit (rg t rFLT_EVT) 3 = true)) ∧
  (∀ (s : State) (bus : Bus) (n : Nat), WriteOk s bus rFLT_CLEAR (bitv 9) →
    let u := (captureCycle n s).2
    Gives (.fltClearAll bus n) s fun t =>
      (∀ k, k < 64 →
        let hit := (captureCycle n s).1.any (fun q => q.source == (fltRec u k).source && q.code == (fltRec u k).code)
        fltRec t k = if (fltRec u k).isOpen = true ∧ hit = false ∧ clearable u (fltRec u k) = true then { fltRec u k with isOpen := false }
                     else fltRec u k) ∧
      t.flt.overflow = (u.flt.overflow && blockRecOpen t)) ∧
  (∀ (s : State) (bus : Bus) (n : Nat), WriteOk s bus rFLT_CLEAR (bitv 10) →
    let u := (captureCycle n { s with flt := { s.flt with first := none } }).2
    Gives (.fltClearFirst bus n) s fun t => t.flt.first = u.flt.first ∧ t.flt.recs = u.flt.recs ∧ (n = 0 → t.flt.first = none)) ∧
  (∀ s : State, (s.flt.pulse = none → exec .faultnPulseEnd s = .next s) ∧
    (∀ e, s.flt.pulse = some e → Gives .faultnPulseEnd s fun t =>
      t.tick = u64 (max (now s) e) ∧
      t.flt = { s.flt with pulse := none, faultn := s.flt.faultn && (!bit (rg s rFLT_CFG) 6 && faultnHold s) } ∧
      ChangesOnly [.tick, .flt, .tly] s t))

/-! ### Cell endpoints (R205, R208 to R211, R224 to R244) -/

/-- A command of an endpoint changes that endpoint alone. Of a frame's copies the first good one is taken: its slot joins the held commands,
and the newest frame sets number, timing, length and BGEN; a bad copy is counted, a second bad one of a frame counts a miss, and none
changes the pattern. One report is written for a frame and serves both its copies. Training gives the position, and an endpoint that accepts
no frames takes the maintenance that comes with DISCOVER. A held command that the endpoint obeys takes effect at its instant, reckoned from
the newest frame, or is moved where it would break MIN_DWELL; from the self-block instant on none does (R189, R208, R209, R224 to R240,
R244). A BLK symbol latches its BGEN, blocks and goes out on both outputs that are not silent; self-block and a local fault drop every held
command and block, the mechanical bypass stays closed, a fault clears after an epoch in the retired bypass, and a lost input, 8 of 32
headers invalid, loops the endpoint and silences an output until it is unlooped with the input locked; UNLOOP is passed on (R187, R205,
R210, R211, R240 to R243). -/
def Obligations.EndpointsCarryOutFrames : Prop :=
  (∀ (s : State) (e : Fin 16384),
    let x := ep s e
    let alone (t : State) : Prop := (∀ d, d ≠ e.val → ep t d = ep s d) ∧ ChangesOnly [.eps] s t
    (∀ l sof res vcap temp gap bs,
      let j := (bs.getD 1 {}).data.toNat
      let n := blkFld bs 3 47 32
      let flen := blkFld bs 3 55 48
      let bad := copyFcrcBad bs || !copyCmdOk bs
      let f : Int := (sof.toNat : Int) - 5 * ((blkFld bs 4 23 0 + epSpan x l : Nat) : Int)
      let ok : Bool := match x.pos with | none => false | some p => copyCmdOk bs && decide (p < n) && decide (flen ≤ 2)
      let mine (c : EpSeen) : Bool := c.j == j && sameFrame flen c.f f
      let rpt := x.rpts.find? (fun r => r.j == j && sameFrame flen r.f (f - epL flen))
      Gives (.endpointFrameAccept e l sof res vcap temp gap bs) s fun t =>
        let y := ep t e
        alone t ∧ y.pat = x.pat ∧ y.lastTrans = x.lastTrans ∧
        (bs = [] → y.toEpView = x.toEpView ∧ y.lastJ = x.lastJ ∧ y.held = x.held ∧ y.seen = x.seen) ∧
        (bs ≠ [] → y.crcA = x.crcA + (if bad = true ∧ l = .a then 1 else 0) ∧ y.crcB = x.crcB + (if bad = true ∧ l = .b then 1 else 0) ∧
          (ok = false ∨ epTaken j flen f x = true → y.lastJ = x.lastJ ∧ y.fj = x.fj ∧ y.held = x.held ∧ y.latched = x.latched) ∧
          (ok = true → epTaken j flen f y = true) ∧
          (ok = true → epTaken j flen f x = false →
            (x.lastJ = none ∨ x.fj < f → y.lastJ = some j ∧ y.fj = f ∧ y.flen = flen ∧ y.lastBgen = BitVec.ofNat 8 (blkFld bs 3 63 56)) ∧
            (x.lastJ ≠ none → f ≤ x.fj → y.lastJ = x.lastJ ∧ y.fj = x.fj ∧ y.flen = x.flen ∧ y.lastBgen = x.lastBgen) ∧
            (∀ p w h, x.pos = some p → w = (if p % 2 = 0 then lo32 (bs.getD (5 + p / 2) {}).data else hi32 (bs.getD (5 + p / 2) {}).data) →
              x.latched = false → slotE j w = some h → fld w 3 0 ≠ 15 →
              (sof.toNat : Int) + 512 * ((6 + n / 2 : Nat) : Int) ≤ heldAt y { epoch := h, slot := w } → { epoch := h, slot := w } ∈ y.held)) ∧
          (x.seen.length < 16 → y.cmdMiss = x.cmdMiss + (if ok = false ∧ ∃ c, x.seen.find? mine = some c ∧ c.n = 1 ∧ c.ok = false then 1 else 0)) ∧
          (rpt ≠ none → y.rpts = x.rpts ∧ y.rot = x.rot) ∧
          (∀ p, x.pos = some p → p < n → copyLooped bs = false → rpt = none → ∃ r : EpRpt, y.rpts = (r :: x.rpts).take 16 ∧ r.j = j ∧
            r.f = f - epL flen ∧ r.val.toNat % 65536 = vcap.toNat ∧ y.rot = (x.rot + 1) % 32))) ∧
    (∀ l ident res resA resB maint gap bs, Gives (.endpointDiscover e l ident res resA resB maint gap bs) s fun t =>
      let y := ep t e
      let hops := blkFld bs 4 31 24
      let j := (bs.getD 1 {}).data.toNat
      let unlooped : Prop := bs ≠ [] ∧ fld (bs.getD 0 {}).data 15 8 = 2 ∧ copyLooped bs = false
      alone t ∧ y.pat = x.pat ∧ (bs ≠ [] → y.fb = bit ident 16) ∧
      (¬ unlooped → y.pos = x.pos) ∧ (unlooped → l = .a → y.pos = some hops ∧ y.discA = some j) ∧
      (unlooped → l = .b → y.pos = if x.discA = some j ∨ x.discA = some (j - 1) then x.pos else some (blkFld bs 3 47 32 - 1 - hops)) ∧
      (x.lastJ ≠ none → x.selfBlk = false → y.banks = x.banks ∧ y.fwVer = x.fwVer ∧ y.ovLimit = x.ovLimit) ∧
      (x.lastJ = none ∨ x.selfBlk = true → y.fwVer = maint.fw.getD x.fwVer ∧ y.ovLimit = maint.ov.getD x.ovLimit ∧
        (maint.banks = [] → y.banks = x.banks) ∧
        ∀ b d c, maint.banks = [(b, some (d, c))] → epBank y.toEpView b = some (d.toNat, c.val))) ∧
    (x.moved = none → x.held = [] → Gives (.endpointEffectInstant e) s fun t => alone t ∧ ep t e = x) ∧
    (∀ m, x.moved = some m → (∀ h ∈ x.held, m.1 ≤ heldAt x h) →
      (x.selfBlk = true ∨ m.1 < selfBlockAt x → Gives (.endpointEffectInstant e) s fun t =>
        alone t ∧ (ep t e).pat = m.2 ∧ (ep t e).moved = none ∧ (ep t e).held = x.held) ∧
      (x.selfBlk = false → selfBlockAt x ≤ m.1 → Gives (.endpointEffectInstant e) s fun t => alone t ∧ ep t e = x)) ∧
    (∀ h ∈ x.held, x.moved = none → (∀ g ∈ x.held, g ≠ h → heldAt x h < heldAt x g) →
      let st := fld h.slot 3 0
      let b := fld h.slot 27 24
      let i : Int := x.fj + ((h.epoch : Int) - (x.lastJ.getD 0 : Nat)) * epL x.flen + 32 * (if st = 0 then 0 else fld h.slot 19 4 : Nat)
      let rest := x.held.filter (fun g => g.epoch != h.epoch)
      (x.selfBlk = false → selfBlockAt x ≤ i → Gives (.endpointEffectInstant e) s fun t => alone t ∧ ep t e = x) ∧
      (x.selfBlk = true ∨ i < selfBlockAt x →
        (st = 0 ∨ epObeys x st = false → Gives (.endpointEffectInstant e) s fun t => alone t ∧ ep t e = { x with held := rest }) ∧
        (st = 4 → epObeys x st = true → epBank x.toEpView b ≠ none → Gives (.endpointEffectInstant e) s fun t =>
          alone t ∧ (ep t e).pat = 3 ∧ (ep t e).bank = b ∧ (ep t e).held = rest) ∧
        (∀ bk, (st = 1 ∨ st = 2) → epObeys x st = true → epBank x.toEpView b = some bk → x.pat = 3 →
          ((x.lastTrans = none ∨ ∃ p, x.lastTrans = some p ∧ p + 6400 * (bk.2 : Int) ≤ i) → Gives (.endpointEffectInstant e) s fun t =>
            alone t ∧ (ep t e).pat = st - 1 ∧ (ep t e).lastTrans = some i ∧ (ep t e).sw = x.sw + 1 ∧ (ep t e).held = rest ∧
            (x.legX = {} → (ep t e).legX = { on := st })) ∧
          (∀ p, x.lastTrans = some p → i < p + 6400 * (bk.2 : Int) → Gives (.endpointEffectInstant e) s fun t =>
            alone t ∧ (ep t e).pat = 3 ∧ (ep t e).moved = some (p + 6400 * (bk.2 : Int), st - 1) ∧ (ep t e).dwellAdj = x.dwellAdj + 1 ∧
            (ep t e).anoms = x.anoms + 1 ∧ (ep t e).held = rest))))) ∧
  (∀ (s : State) (e : Fin 16384),
    let x := ep s e
    let alone (t : State) : Prop := (∀ d, d ≠ e.val → ep t d = ep s d) ∧ ChangesOnly [.eps] s t
    (∀ t0 data fresh, Gives (.endpointBlksymReceive e t0 data fresh) s fun t =>
      let y := ep t e
      let bgen : U8 := BitVec.ofNat 8 (fld data 7 0)
      let intact : Prop := fld data 55 8 = 0xA55AA55AA55A
      let b := ctl (0xD2 + data.toNat * 2 ^ 8)
      alone t ∧ y.pat = 3 ∧ y.held = [] ∧ y.moved = none ∧ y.outA = (if silentLane x .a then [] else [b]) ∧
      y.outB = (if silentLane x .b then [] else [b]) ∧
      (intact → y.latched = true ∧ y.leave = false ∧ y.latchBgen = bgen) ∧
      (¬ intact → x.latched = false → x.lastJ ≠ none → y.latched = true ∧ y.leave = true ∧ y.latchBgen = x.lastBgen)) ∧
    ((x.lastJ = none ∨ x.selfBlk = true) → Gives (.endpointSelfBlock e) s fun t => alone t ∧ ep t e = x) ∧
    (x.lastJ ≠ none → x.selfBlk = false → Gives (.endpointSelfBlock e) s fun t =>
      alone t ∧ (ep t e).pat = (if x.pat = 4 then 4 else 3) ∧ (ep t e).selfBlk = true ∧ (ep t e).acc = [] ∧ (ep t e).sbCnt = x.sbCnt + 1 ∧
      (ep t e).held = [] ∧ (ep t e).moved = none) ∧
    (∀ t0 cause byp mech rising, Gives (.endpointLocalFault e t0 cause byp mech rising) s fun t =>
      let y := ep t e
      alone t ∧ y.pat = 3 ∧ y.held = [] ∧ y.fault = true ∧ y.canBypass = (byp && (x.canBypass || !x.fault)) ∧
      (mech = true → y.canBypass = false ∨ rising = true → y.cause = x.cause ||| cause ||| 0x20) ∧
      (mech = false ∨ y.canBypass = true ∧ rising = false → y.cause = x.cause ||| cause)) ∧
    (∀ (t0 : U64) r, x.retiredFrom = some r → x.fault = true → x.pat = 4 → r + epL x.flen ≤ (t0.toNat : Int) →
      Gives (.endpointFaultClear e t0) s fun t =>
        alone t ∧ (ep t e).fault = false ∧ (ep t e).cause = x.cause &&& 0x20 ∧ (ep t e).canBypass = true ∧ (ep t e).pat = 4) ∧
    (∀ t0 : U64, (x.retiredFrom = none ∨ x.fault = false ∨ x.pat ≠ 4 ∨ ∃ r, x.retiredFrom = some r ∧ (t0.toNat : Int) < r + epL x.flen) →
      Gives (.endpointFaultClear e t0) s fun t => alone t ∧ ep t e = x) ∧
    (∀ l t0 bad, ((List.range 32).filter (fun i => bit bad i)).length < 8 → exec (.endpointInputLoss e l t0 bad) s = .next s) ∧
    (∀ l t0 bad, 8 ≤ ((List.range 32).filter (fun i => bit bad i)).length → Gives (.endpointInputLoss e l t0 bad) s fun t =>
      let y := ep t e
      alone t ∧ y.pat = x.pat ∧ y.looped = true ∧ (l = .a → y.lockA = false) ∧ (l = .b → y.lockB = false) ∧
      (x.looped = false → y.side = decide (l = Lane.a) ∧ y.loopTick = t0.toNat / 256 ∧ (l = .a → y.outB = []) ∧ (l = .b → y.outA = [])) ∧
      (x.looped = true → y.side = x.side ∧ y.loopTick = x.loopTick)) ∧
    (∀ l locked t0, Gives (.endpointUnloop e l locked t0) s fun t =>
      let y := ep t e
      alone t ∧ y.pat = x.pat ∧ (match outLane y l with | .a => y.outA | .b => y.outB) = [ctl 0x55] ∧
      (x.looped = false → y.looped = false ∧ y.loopTick = x.loopTick) ∧
      (x.looped = true → locked = true → y.looped = false ∧ (x.side = true → y.lockA = true) ∧ (x.side = false → y.lockB = true)) ∧
      (x.looped = true → locked = false → y.looped = true ∧ y.side = x.side ∧ y.loopTick = t0.toNat / 256)))

/-! ### Messages of the stack: the replica, effects and the mirrors (R175, R176, R489, R492, R493, R497, R499, R500) -/

/-- A message is taken where its port is UP and no other port that is UP has delivered its SEQ; what is not taken changes no replica, no effect
and no mirror. A shadow keeps the points of STATION and CELLS, lists the effect of EFFECT with the master's E and acknowledges it, and keeps
HARROW and RING. An ACK frees what waited for it, four frames without one complete it with NOT_REPL. -/
def Obligations.MessagesReachTheShadow : Prop :=
  ∀ (s : State) (p : Fin 2) (sq : U8),
    let fresh (kind : Nat) : Prop := (sport s p).st = 2 ∧
      ∀ q, q < 2 → q ≠ p.val → (sport s q).st = 2 → tget none (sport s q).seqs kind ≠ some sq.toNat
    let shadow : Prop := stkMode s = 1 ∧ s.stk.role = 1
    let noted (kind : Nat) (t : State) : Prop := (sport s p).st = 2 → tget none (sport t p).seqs kind = some sq.toNat
    (∀ e ws, Gives (.stationReceive p sq e ws) s fun t => noted 2 t ∧
      (¬ (fresh 2 ∧ shadow) → t.grn = s.grn ∧ t.tim = s.tim) ∧
      (fresh 2 → shadow →
        (∀ i, tget 0 t.grn.repl.station i = if i < 3272 then (unpair ws).getD i 0 else 0) ∧
        (∀ i, tget stale t.grn.repl.fw i = (unpair ws).getD (3272 + i) stale) ∧
        t.grn.repl.stn = some (fullEpoch s e.toNat) ∧ t.grn.repl.cells = s.grn.repl.cells ∧ t.tim.based = true)) ∧
    (∀ (first : Fin 16384) ws, Gives (.cellsReceive p sq first ws) s fun t => noted 3 t ∧
      (¬ (fresh 3 ∧ shadow) → t.grn = s.grn) ∧
      (fresh 3 → shadow → (unpair ws).length ≤ 16384 → ∀ i, i < 16384 →
        tget (0, 0) t.grn.repl.cells ((first.val + i) % 16384) =
          if i < (unpair ws).length then (((unpair ws).getD i 0).toNat, epochNow s)
          else tget (0, 0) s.grn.repl.cells ((first.val + i) % 16384))) ∧
    (∀ e env, Gives (.effectReceive p sq e env) s fun t => noted 4 t ∧
      (¬ (fresh 4 ∧ shadow ∧ carried (eOp env) = true) → t.cmd = s.cmd) ∧
      (∀ pl, fresh 4 → shadow → carried (eOp env) = true → parsePayload (eOp env) (slice env 32 (eLen env)) = some pl →
        (∃ l x, t.cmd.pend = l ++ [x] ∧ x.op = eOp env ∧ x.epoch = e.toNat ∧ x.payload = pl ∧ x.repl = true ∧ x.id.seq = eSeq env ∧
          x.id.session = eSid env) ∧
        (stkTxOn s = true → t.stk.out = s.stk.out ++
          [{ kind := 5, sq := tget 0 s.stk.outSeq 5, epoch := epochNow s % 2 ^ 32, words := [u64 sq.toNat] }]))) ∧
    (∀ eff, Gives (.ackReceive p sq eff) s fun t => noted 5 t ∧
      (¬ fresh 5 → t.cmd = s.cmd ∧ t.stk.waits = s.stk.waits) ∧
      (fresh 5 →
        t.stk.waits = s.stk.waits.filter (fun w => w.seqno != eff.toNat) ∧
        t.cmd.pend = s.cmd.pend.map (fun x => if x.ack = some eff.toNat then { x with ack := none } else x))) ∧
    Gives .ackTimeout s (fun t =>
      t.stk.waits = s.stk.waits.filter (fun w => !decide (w.frame + 4 ≤ epochNow s)) ∧
      t.cmd.pend = s.cmd.pend.map (fun x =>
        if x.ack.isSome = true ∧ x.sent + 4 ≤ epochNow s then { x with ack := none, notRepl := true } else x)) ∧
    (∀ full recs, Gives (.harrowMsgReceive p sq full recs) s fun t =>
      let used := s.stk.mirrorQ.foldl (fun n m => n + m.recs.length) 0
      noted 6 t ∧ t.stk.mirror = s.stk.mirror ∧
      (¬ (fresh 6 ∧ shadow) → t.stk.mirrorQ = s.stk.mirrorQ ∧ t.stk.mirrorGap = s.stk.mirrorGap) ∧
      (fresh 6 → shadow → used + recs.length ≤ 32768 →
        t.stk.mirrorQ = s.stk.mirrorQ ++ [{ full := full, recs := recs }] ∧ t.stk.mirrorGap = s.stk.mirrorGap) ∧
      (fresh 6 → shadow → 32768 < used + recs.length → t.stk.mirrorQ = s.stk.mirrorQ ∧ t.stk.mirrorGap = true)) ∧
    (∀ (r : Fin 64) (st : BitVec 3) (n : Fin 257) (wrap : BitVec 20), Gives (.ringMsgReceive p sq r st n wrap) s fun t => noted 7 t ∧
      (∀ q, q ≠ r.val → tget {} t.stk.rings q = tget {} s.stk.rings q) ∧
      (¬ (fresh 7 ∧ shadow) → t.stk.rings = s.stk.rings) ∧
      (fresh 7 → shadow → tget {} t.stk.rings r = { st := st.toNat, n := n, wrap := wrap.setWidth 32 })) ∧
    (∀ (sec : BitVec 48) (ns : U32) (frac : U16), Gives (.ptpMsgReceive p sq sec ns frac) s fun t => noted 8 t ∧
      (¬ (fresh 8 ∧ stkMode s = 2 ∧ s.stk.id ≠ 0 ∧ p = 0) → t.tim = s.tim) ∧
      (fresh 8 → stkMode s = 2 → s.stk.id ≠ 0 → p = 0 →
        t.tim = { s.tim with base := sec.toNat * ptpSecUnit + ns.toNat * ptpNsUnit + frac.toNat * 5, based := true })) ∧
    Gives .ptpSecond s (fun t =>
      (s.tim.sync = false → t.std = s.std ∧ t.tick = s.tick) ∧
      (s.tim.sync = true → t.std.rtcFrac = 0 ∧ t.std.rtcValid = true ∧
        t.std.rtcSec = BitVec.ofNat 48 ((ptpAt s (now s) + ptpSecUnit - 1) / ptpSecUnit).toNat) ∧
      (stkMode s ≠ 2 ∨ upPorts s = [] ∨ stkTxOn s = false → t.stk = s.stk) ∧
      (stkMode s = 2 → upPorts s ≠ [] → stkTxOn s = true → ∃ m, t.stk.out = s.stk.out ++ [m] ∧ m.kind = 8)) ∧
    Gives (.stkMessageCrcFail p) s (fun t => ChangesOnly [.regs] s t ∧
      (∀ o, o ≠ rSTK_PORT_ERR p → rg t o = rg s o) ∧
      rg t (rSTK_PORT_ERR p) = if (sport s p).st = 0 then rg s (rSTK_PORT_ERR p) else satInc (rg s (rSTK_PORT_ERR p)))

/-! ### Stack ports (R486, R487, R490, R492, R495, R501, R502, R506, R509) -/

/-- A port goes DOWN when its clock is lost, when FSTART misses, and when too few of its lanes are live; a port whose clock is present and whose
lanes suffice trains; retraining returns ports to TRAIN and restores their lanes. When the last cabled port of a pair goes DOWN the partner
is lost, its trips are no longer followed, and a ready shadow takes over. A device of a chain that loses its UP clock notes the split from the
chain's time (R493). The other port stays as it is. -/
def Obligations.PortsFollowTheirLink : Prop :=
  ∀ (s : State) (p : Fin 2),
    let x := sport s p
    let others (t : State) : Prop := ∀ q, q ≠ p.val → sport t q = sport s q
    let down (y : StkPort) : StkPort := { y with st := 0, watched := false, tickIn := none, peerReady := 0, trip := 0, permOn := 0, fell := true }
    let last : Prop := stkMode s = 1 ∧ s.stk.partnerLost = false ∧ ∀ q, q < 2 → q ≠ p.val → cabled s q = true → (sport s q).st = 0
    let lost (t : State) : Prop :=
      (¬ last → t.stk.role = s.stk.role ∧ t.stk.partnerLost = s.stk.partnerLost ∧ t.stk.follow = s.stk.follow) ∧
      (last → t.stk.partnerLost = true ∧ t.stk.follow = 0 ∧
        (s.stk.role = 1 → 1 ≤ s.stk.ready → t.stk.role = 3 ∧ t.stk.taken = true) ∧
        (s.stk.role ≠ 1 ∨ s.stk.ready = 0 → t.stk.role = s.stk.role))
    let trains (y : StkPort) : Prop := y.st = 0 ∧ cabled s p = true ∧ y.clk = true ∧ laneMin s ≤ liveLanes y
    let trained (y : StkPort) (t : State) : Prop :=
      others t ∧ (trains y → sport t p = { y with st := 1, retired := 0, errLanes := 0 }) ∧ (¬ trains y → sport t p = y)
    Gives (.stkClockLoss p) s (fun t => others t ∧
      (x.clk = true → p = 0 → stkMode s = 2 → s.stk.id ≠ 0 → t.stk.timeSplit = true ∧ bit (rg t rSTK_EVT) 10 = true) ∧
      (x.st = 0 → sport t p = { x with clk := false, live := 0 }) ∧
      (x.st ≠ 0 → sport t p = down { x with clk := false, live := 0 } ∧ lost t)) ∧
    Gives (.fstartMiss p) s (fun t => others t ∧
      (x.watched = false ∨ x.st = 0 → sport t p = x) ∧
      (x.watched = true → x.st ≠ 0 → sport t p = down x ∧ lost t)) ∧
    (∀ l : Fin 16,
      let y := { x with live := x.live &&& ~~~ BitVec.ofNat 16 (2 ^ l.val), errLanes := x.errLanes ||| BitVec.ofNat 16 (2 ^ l.val) }
      Gives (.stkLaneLoss p l) s fun t => others t ∧
        (bit x.live l = false → sport t p = x) ∧
        (bit x.live l = true → (x.st = 0 ∨ laneMin s ≤ liveLanes y) → sport t p = y ∧ t.stk.role = s.stk.role) ∧
        (bit x.live l = true → x.st ≠ 0 → liveLanes y < laneMin s → sport t p = down y ∧ lost t)) ∧
    Gives (.forwardedClockReturn p) s (trained { x with clk := true }) ∧
    (∀ (l : Fin 16) (id : BitVec 3) (skew : U8),
      let y := { x with live := x.live ||| BitVec.ofNat 16 (2 ^ l.val), peerId := id.toNat, skew := max x.skew skew.toNat }
      let off : Prop := (bit x.retired l = true ∧ x.st ≠ 0) ∨ 64 < skew.toNat
      Gives (.stkLaneLive p l id skew) s fun t =>
        (off → others t ∧ sport t p = x) ∧ (¬ off → trained y t)) ∧
    (∀ (bus : Bus) (v : U32), WriteOk s bus rSTK_RETRAIN v → Gives (.stkRetrainWrite bus v) s fun t =>
      ∀ q, q < 2 →
        let hit : Prop := (sport s q).st = 2 ∧ bit v q = true ∧ ¬ (stkMode s = 1 ∧ ∀ r, r < 2 → (sport s r).st = 2 → bit v r = true)
        (hit → sport t q = { sport s q with st := 1, retired := 0, errLanes := 0 }) ∧ (¬ hit → sport t q = sport s q)) ∧
    (∀ (sq : U8) (turn : BitVec 24), Gives (.dlyReqReceive p sq turn) s fun t => others t ∧
      sport t p = if x.st = 0 then x else { x with reply := some (ctl (0x8E + sq.toNat * 2 ^ 8 + turn.toNat * 2 ^ 16)) }) ∧
    (∀ (rtt turn : BitVec 24), Gives (.dlyRespReceive p rtt turn) s fun t => others t ∧
      sport t p = if x.st = 0 then x else { x with dly := (rtt.toNat - turn.toNat) / 2 })

/-! ### Roles of a pair (R485, R487, R491, R492, R493, R495, R504, R505) -/

/-- HELLO brings a port UP where the configurations agree and the IDs differ, and reports a mismatch or a conflict else. What FSTART announces
is kept; where the partner is MASTER a device of no role becomes SHADOW, and so does ID 1 that is MASTER too; the tick counter is set once.
A DECISION's trips are followed, and a NEW one is a decision here; in a chain it goes on through the other port. HELLO also
tells on which lanes the partner receives (R490). ID 0 becomes MASTER when none announces itself. -/
def Obligations.PairMessagesDecideTheRoles : Prop :=
  ∀ (s : State) (p : Fin 2),
    let x := sport s p
    let pair : Prop := stkMode s = 1
    let others (t : State) : Prop := ∀ q, q ≠ p.val → sport t q = sport s q
    let role' (peer : Nat) : Nat :=
      if stkMode s ≠ 1 ∨ 2 ≤ s.stk.id then s.stk.role
      else if s.stk.role = 0 ∧ peer = 2 then 1
      else if s.stk.role = 2 ∧ peer = 2 ∧ s.stk.id = 1 then 1 else s.stk.role
    (∀ (sq : U8) (cfg : U32) (mode : BitVec 2) (id : BitVec 3) (crc : U32) (lanes : U16),
      let cmd := Instr.helloReceive p sq cfg mode id crc lanes
      let same : Prop := cfg = rg s rSYS_FRAME_CFG ∧ mode.toNat = stkMode s
      (x.st = 0 → Gives cmd s fun t => t.stk = s.stk) ∧
      (x.st ≠ 0 → ¬ same → Gives cmd s fun t => others t ∧ (sport t p).st = x.st ∧ (sport t p).mismatch = true ∧
        t.stk.role = s.stk.role ∧ t.stk.partnerCrc = crc ∧ bit (rg t rSTK_EVT) 6 = true ∧ t.flt.inbox = s.flt.inbox ++ [{ source := srcPort p, code := 0x02C5 }]) ∧
      (x.st ≠ 0 → same → id.toNat = s.stk.id → Gives cmd s fun t => others t ∧ (sport t p).st = x.st ∧ t.stk.role = s.stk.role ∧
        t.stk.partnerCrc = crc ∧ t.stk.idConflict = true ∧ bit (rg t rSTK_EVT) 7 = true) ∧
      (x.st = 1 → same → id.toNat ≠ s.stk.id → Gives cmd s fun t => others t ∧ (sport t p).st = 2 ∧ (sport t p).txLive = lanes ∧
        (sport t p).fell = false ∧ (sport t p).mismatch = false ∧ t.stk.partnerLost = false ∧ t.stk.crcOn = true ∧ t.stk.partnerCrc = crc ∧ t.stk.upAt = some (s.stk.upAt.getD (now s)) ∧ t.stk.role = role' x.peerRole) ∧
      (2 ≤ x.st → same → id.toNat ≠ s.stk.id → Gives cmd s fun t => others t ∧ (sport t p).st = x.st ∧ (sport t p).txLive = lanes ∧ t.stk.partnerCrc = crc ∧
        t.stk.role = s.stk.role)) ∧
    (∀ (tick : BitVec 40) (role ready : BitVec 2) (commit : U8),
      let cmd := Instr.fstartReceive p tick role ready commit
      let r := if x.st = 2 then role' role.toNat else s.stk.role
      let clock : Prop := (stkMode s = 1 ∧ r = 1) ∨ (stkMode s = 2 ∧ s.stk.id ≠ 0 ∧ p = 0)
      (x.st = 0 → Gives cmd s fun t => t.stk = s.stk ∧ t.tick = s.tick) ∧
      (x.st ≠ 0 → Gives cmd s fun t => others t ∧ t.stk.role = r ∧
        sport t p = { x with watched := true, peerRole := role.toNat, peerReady := ready.toNat, peerCommit := commit.toNat,
                             tickIn := some (tick.toNat, now s) } ∧
        (x.st = 2 → pair → t.stk.partnerLost = false ∧ t.stk.partnerReady = ready.toNat) ∧
        (x.st = 2 → s.stk.tickSet = false → s.sys.running = false → clock →
          t.tick = u64 (tick.toNat + x.dly * 5 / 256) ∧ t.stk.tickSet = true) ∧
        (x.st ≠ 2 ∨ s.stk.tickSet = true ∨ s.sys.running = true ∨ ¬ clock → t.tick = s.tick ∧ t.stk.tickSet = s.stk.tickSet) ∧
        (r = 1 → t.stk.mirrorQ = []))) ∧
    (∀ (bgen trip perm : U8) (new : Bool),
      let cmd := Instr.decisionReceive p bgen trip perm new
      (x.st ≠ 2 → Gives cmd s fun t => t.stk = s.stk ∧ t.prt = s.prt) ∧
      (x.st = 2 → Gives cmd s fun t => others t ∧ sport t p = { x with trip := trip, permOn := perm } ∧ t.stk.role = s.stk.role ∧
        (pair → t.stk.follow = if s.stk.partnerLost = true then s.stk.follow else trip) ∧ (¬ pair → t.stk.follow = s.stk.follow) ∧
        (pair → new = true → s.stk.role = 1 → t.stk.decNew = some bgen) ∧
        (pair → new = true → (s.stk.role = 2 ∨ s.stk.role = 3) → t.grn.tripDue = true) ∧
        (stkMode s = 2 → new = true → bit (rg s rSTK_CFG) 3 = true → t.grn.tripDue = true ∧ (stkTxOn s = true →
          t.stk.decOut = ctl (0x33 + bgen.toNat * 2 ^ 8 + trip.toNat * 2 ^ 16 + perm.toNat * 2 ^ 24 + 2 ^ 32) ∧ t.stk.decTo = some (1 - p.val))))) ∧
    (let master : Prop := pair ∧ s.stk.id = 0 ∧ s.stk.role = 0 ∧ ∀ q, q < 2 → (sport s q).st = 2 → (sport s q).peerRole ≠ 2
     Gives .roleMasterTimer s fun t => t.stk.ports = s.stk.ports ∧
      (∀ t0, s.stk.upAt = some t0 → master → t.stk.role = 2 ∧ t.tick = u64 (max (now s) (t0 + 312500))) ∧
      (s.stk.upAt = none ∨ ¬ master → t.stk = s.stk ∧ t.tick = s.tick)) ∧
    Gives .bootWaitExpire s (fun t => t.stk.ports = s.stk.ports ∧
      (pair → s.stk.id ≤ 1 → s.stk.role = 0 → s.stk.upAt = none → t.stk.role = 2 ∧ t.stk.tickSet = true) ∧
      (¬ (pair ∧ s.stk.id ≤ 1 ∧ s.stk.role = 0 ∧ s.stk.upAt = none) → t.stk = s.stk))

/-! ### The time base and the station network (R443, R445 to R456, R459 to R462) -/

/-- A port keeps a frame that R445 accepts in its first free slot with the receive time, counts one with a bad FCS and one that finds no slot; a
pop hands over the oldest slot and a release frees it; a transmission sends the buffer, and its timestamp enters the queue or is lost; a
read of TXTS_ID takes the oldest timestamp. The other port and the time base stay as they are. -/
def Obligations.StationPortsKeepFrames : Prop :=
  ∀ (s : State) (n : Fin 2),
    let p := eth s n
    let alone (t : State) : Prop := (∀ m, m ≠ n.val → eth t m = eth s m) ∧ t.tim = { s.tim with ports := t.tim.ports }
    let free (k : Nat) : Prop := (tget {} p.slots k).full = false ∧ (tget {} p.slots k).handed = false
    let reports (t : State) (c : Nat) : Prop := t.flt.inbox = s.flt.inbox ++ [{ source := srcBlk 12 (1 + n), code := BitVec.ofNat 16 c }]
    (∀ fcsOk f, ethEn s n = false ∨ p.link = false → exec (.ethFrameReceive n fcsOk f) s = .next s) ∧
    (∀ f, ethEn s n = true → p.link = true → Gives (.ethFrameReceive n false f) s fun t => alone t ∧
      eth t n = { p with error := true } ∧ rg t (rTIM_ETH_FCS_CNT n) = satInc (rg s (rTIM_ETH_FCS_CNT n)) ∧ reports t 0x0303) ∧
    (∀ f, ethEn s n = true → p.link = true → ((ethAccept s n f).1 = false ∨ ∀ k, k < 16 → ¬ free k) →
      Gives (.ethFrameReceive n true f) s fun t => t.tim = s.tim ∧
        rg t (rTIM_ETH_RX_DROP n) = satInc (rg s (rTIM_ETH_RX_DROP n)) ∧ ChangesOnly [.regs] s t) ∧
    (∀ f k, ethEn s n = true → p.link = true → (ethAccept s n f).1 = true → k < 16 → free k → (∀ j, j < k → ¬ free j) →
      let hdr := rxHeader f.length (ethAccept s n f).2 (shift16 (ptpAt s (now s)) (-(fld (rg s (rTIM_ETH_LAT n)) 31 16)))
      let v : RxSlot := { full := true, arr := p.arr, bytes := fit 2048 (hdr ++ f) }
      Gives (.ethFrameReceive n true f) s fun t => alone t ∧ bit (rg t rTIM_EVT) 7 = true ∧
        eth t n = { p with arr := p.arr + 1, slots := tset {} p.slots k v }) ∧
    (∀ (bus : Bus), ((∀ c, bus ≠ .core c) ∨ ∀ q ∈ p.slots, q.2.full = false ∨ q.2.handed = true) → Gives (.ethRxPop bus n) s fun t =>
      t.rdata = 0 ∧ t.tim = s.tim) ∧
    (∀ c k v, (k, v) ∈ p.slots → v.full = true → v.handed = false →
      (∀ q ∈ p.slots, q.2.full = true → q.2.handed = false → q = (k, v) ∨ v.arr < q.2.arr) → Gives (.ethRxPop (.core c) n) s fun t =>
        t.rdata = u64 (k + 16) ∧ alone t ∧ eth t n = { p with slots := tset {} p.slots k { v with full := false, handed := true } }) ∧
    (∀ bus v, WriteOk s bus (rTIM_ETH_RX_REL n) v → Gives (.ethRxRel bus n v) s fun t => alone t ∧
      eth t n = { p with slots := tdel (fld v 3 0) p.slots }) ∧
    (∀ bus v, WriteOk s bus (rTIM_ETH_TX_CTL n) v → Gives (.ethTxCtlWrite bus n v) s fun t => alone t ∧
      (p.busy = true → eth t n = p ∧ bit (rg t rTIM_EVT) 8 = true) ∧
      (p.busy = false → ethEn s n = false → eth t n = p) ∧
      (p.busy = false → ethEn s n = true → eth t n = { p with busy := true, txCtl := v, sent := txFrameBytes s n (fld v 10 0) })) ∧
    Gives (.ethTxDone n) s (fun t => alone t ∧
      (p.busy = false → eth t n = p) ∧
      (p.busy = true → bit p.txCtl 11 = false → eth t n = { p with busy := false }) ∧
      (p.busy = true → bit p.txCtl 11 = true → p.tsq.length < 16 → eth t n = { p with busy := false, lostNext := false, tsq := p.tsq ++
        [{ id := fld p.txCtl 31 16, time := shift16 (ptpAt s (now s)) (fld (rg s (rTIM_ETH_LAT n)) 15 0), lost := p.lostNext }] }) ∧
      (p.busy = true → bit p.txCtl 11 = true → 16 ≤ p.tsq.length → eth t n = { p with busy := false, lostNext := true } ∧ reports t 0x0302 ∧
        rg t (rTIM_ETH_TXTS_LOSTID n) = u32 (fld p.txCtl 31 16) ∧
        rg t (rTIM_ETH_TXTS_DROP n) = satInc (rg s (rTIM_ETH_TXTS_DROP n)))) ∧
    (∀ bus, p.tsq = [] → exec (.txtsPop bus n) s = .next (busLoad bus { s with rdata := 0 })) ∧
    (∀ bus e rest, p.tsq = e :: rest → Gives (.txtsPop bus n) s fun u => ∃ t, u = busLoad bus t ∧ alone t ∧
      t.rdata = u64 (pack [(0, e.id), (16, 1), (17, b2n e.lost)]).toNat ∧
      (bus = .debug → eth t n = p ∧ t.regs = s.regs) ∧
      (bus ≠ .debug → eth t n = { p with tsq := rest } ∧ rg t (rTIM_ETH_TXTS_NS n) = u32 (ptpNs e.time) ∧
        rg t (rTIM_ETH_TXTS_SEC_LO n) = u32 (ptpSec e.time) ∧
        rg t (rTIM_ETH_TXTS_SEC_HI n) = pack [(0, ptpSec e.time / 2 ^ 32), (16, ptpFrac e.time)])) ∧
    (∀ up, Gives (.ethLinkChange n up) s fun t => alone t ∧
      (p.link = up → eth t n = p) ∧
      (p.link = false → up = true → eth t n = { p with link := true }) ∧
      (p.link = true → up = false → eth t n = { p with link := false, error := true } ∧ bit (rg t rTIM_EVT) 6 = true ∧
        t.flt.inbox = s.flt.inbox ++ [{ source := srcBlk 12 (1 + n), code := 0x0304 }, { source := srcBlk 12 (1 + n), code := 0x0303 }]))

/-- A measurement is ignored while an accepted step or its guard runs, and by a device that follows its partner. Else the offset is kept: the
first one may wait as a step, one within STEP_THR slews the frequency within the limits of R444, a larger one waits for acceptance and holds
the frequency; SYNC follows the tolerance. Without measurements the device goes into holdover. -/
def Obligations.MeasurementsDisciplineTime : Prop :=
  ∀ (s : State),
    let m := freqMax s
    let quiet (t : State) : Prop := t.tim.base = s.tim.base ∧ t.tim.ports = s.tim.ports
    (∀ (bus : Bus) (v : U32), WriteOk s bus rTIM_MEAS_CTL v →
      let cmd := Instr.measurementCommit bus v
      let ofs := (join64 (rg s rTIM_MEAS_LO) (rg s rTIM_MEAS_HI)).toInt - (rg s (rTIM_ETH_ASYM (fld v 0 0))).toInt
      let off : Prop := timShadow s = true ∨ s.tim.accepted = true ∨ ∃ g, s.tim.guard = some g ∧ now s < g
      let near : Prop := if s.std.rtcValid = true then ofs.natAbs ≤ 16 * 1000000000 * fld (rg s rTIM_CFG) 23 16 else bit (rg s rTIM_CFG) 12 = true
      let boot : Prop := s.tim.seen = false ∧ near
      let kept (t : State) : Prop := quiet t ∧ t.tim.seen = true ∧ t.tim.lastOfs = ofs ∧ t.tim.lastMeas = now s
      let ms : Int := ((now s - s.tim.lastMeas) / 312500 : Nat)
      let inTol : Prop := ofs.natAbs ≤ 16 * (rg s rTIM_SYNC_TOL).toNat
      let syncs (t : State) : Prop :=
        (inTol → t.tim.good = s.tim.good + 1 ∧ t.tim.sync = (s.tim.sync || decide (8 ≤ s.tim.good + 1))) ∧
        (¬ inTol → t.tim.good = 0 ∧ t.tim.sync = false)
      (off → Gives cmd s fun t => t.tim = s.tim ∧
        (timShadow s = false → rg t rTIM_MEAS_IGN = satInc (rg s rTIM_MEAS_IGN))) ∧
      (¬ off → boot → Gives cmd s fun t => kept t ∧ t.tim.bootStep = some ofs ∧ t.tim.holdover = false ∧ t.tim.y = s.tim.y ∧
        t.tim.sync = s.tim.sync) ∧
      (¬ off → ¬ boot → ofs.natAbs ≤ 16 * (rg s rTIM_STEP_THR).toNat → Gives cmd s fun t => kept t ∧ syncs t ∧ t.tim.stepPend = none ∧
        t.tim.holdover = false ∧ s.tim.y - 10 * ms ≤ t.tim.y ∧ t.tim.y ≤ s.tim.y + 10 * ms ∧ (-m ≤ s.tim.y → s.tim.y ≤ m → -m ≤ t.tim.y ∧ t.tim.y ≤ m)) ∧
      (¬ off → ¬ boot → 16 * (rg s rTIM_STEP_THR).toNat < ofs.natAbs → Gives cmd s fun t => kept t ∧ syncs t ∧
        t.tim.stepPend = some ((ofs + 8) / 16) ∧ t.tim.holdover = true ∧
        (s.tim.holdover = true → t.tim.y = s.tim.y) ∧ (s.tim.holdover = false → -m ≤ t.tim.y ∧ t.tim.y ≤ m))) ∧
    ((s.tim.holdover = true ∨ timShadow s = true) → Gives .holdoverTimeout s fun t => t.tim = s.tim ∧ t.tick = s.tick) ∧
    (s.tim.holdover = false → timShadow s = false → Gives .holdoverTimeout s fun t => quiet t ∧
      t.tim.holdover = true ∧ t.tim.sync = false ∧ t.tim.good = 0 ∧ -m ≤ t.tim.y ∧ t.tim.y ≤ m ∧
      t.tick = u64 (max (now s) (s.tim.lastMeas + max 1 (fld (rg s rTIM_CFG) 27 24) * 156250000))) ∧
    (s.tim.guard = none → Gives .stepGuardEnd s fun t => t = s) ∧
    (∀ g, s.tim.guard = some g → Gives .stepGuardEnd s fun t => t.tim = { s.tim with guard := none } ∧ t.tick = u64 (max (now s) g))

/-! ### Granary (R159 to R174) -/

/-- A ring that is late at its deadline is passed over. The epoch that can close closes: its image is built, or it is counted missed where
the build met an uncorrectable error. The built image becomes COMMIT; a shadow drops it. A publication in hand is written, body before
epoch, with its descriptor, or abandoned, but by no shadow and not while completions, events or an index block are due; a descriptor too
short or of a missed epoch is only written back (R66, R160 to R174). -/
def Obligations.EpochsCloseCommitAndPublish : Prop :=
  ∀ (s : State),
    let late (r : Fin 64) (k : Nat) : Prop := ringIn (ring s r) (k + 1) = true ∧ frameReturned s (ring s r) (k + 1) = false ∧ k + 1 ≤ epochNow s
    let back (p : Pubn) (len status : Nat) : List HostWrite :=
      let a := addr64 s rHST_SNP_BASE_LO rHST_SNP_BASE_HI + 32 * (p.desc % ringN s 9)
      let done := if (p.desc / ringN s 9) % 2 = 0 then 1 else 0
      if (s.hst.linkUp && ringEn s 9) = true then
        [⟨a + 16, leBytes 8 p.epoch ++ leBytes 4 len⟩, ⟨a + 28, leBytes 2 status ++ leBytes 1 0 ++ leBytes 1 done⟩] else []
    let gone (rest : List Pubn) (t : State) : Prop := t.grn = { s.grn with pubs := rest } ∧ t.hst.snpCi = s.hst.snpCi + 1
    let stays (t : State) : Prop := t.grn.commit = s.grn.commit ∧ t.grn.valid = s.grn.valid
    let yields : Prop := s.stk.role = 1 ∨
      (s.hst.linkUp = true ∧ (s.hst.cplDue ≠ [] ∨ s.hst.evtDue ≠ [] ∨ (s.hst.idxDirty = true ∧ bit (rg s rHST_IDX_CTL) 0 = true)))
    (∀ r : Fin 64, (∀ k, s.grn.next = some k → ¬ late r k) → exec (.closureDeadline r) s = .next s) ∧
    (∀ (r : Fin 64) k, s.grn.next = some k → late r k → Gives (.closureDeadline r) s fun t => t.grn = s.grn ∧ bit (rg t rGRN_EVT) 1 = true ∧
      t.tick = u64 (max (now s) ((k + 1) * lTicks s + closeTicks s (ring s r) (k + 1)))) ∧
    (∀ uncorr corr ds, closable s = none → exec (.epochClose uncorr corr ds) s = .next s) ∧
    (∀ k (corr : U32) ds, closable s = some k → Gives (.epochClose false corr ds) s fun t => stays t ∧ t.grn.next = some (k + 1) ∧
      t.grn.build = some (buildImage (if corr.toNat = 0 then s else count s rGRN_ECC_CNT corr.toNat) k) ∧ t.grn.missPrev = false ∧
      t.grn.missCnt = s.grn.missCnt ∧ t.grn.pubs = s.grn.pubs) ∧
    (∀ k (corr : U32) ds, closable s = some k → Gives (.epochClose true corr ds) s fun t => stays t ∧ t.grn.next = some (k + 1) ∧
      t.grn.build = s.grn.build ∧ t.grn.missPrev = true ∧ t.grn.missCnt = s.grn.missCnt + 1 ∧ t.grn.missLast = u64 k) ∧
    (∀ dt ds, s.grn.build = none → exec (.epochCommit dt ds) s = .next s) ∧
    (∀ dt ds b, s.grn.build = some b → s.stk.role = 1 → Gives (.epochCommit dt ds) s fun t =>
      ChangesOnly [.grn] s t ∧ t.grn = { s.grn with build := none }) ∧
    (∀ dt ds b, s.grn.build = some b → s.stk.role ≠ 1 → Gives (.epochCommit dt ds) s fun t =>
      t.grn.build = none ∧ t.grn.valid = true ∧ t.grn.next = s.grn.next ∧ t.grn.resetDue = false ∧ t.stk.first = false ∧
      t.grn.commit = { b with role := pack [(0, b2n (s.stk.role == 0 || s.stk.role == 2)), (1, b2n s.stk.taken)] } ∧
      t.tick = u64 (max (now s) ((b.k + 1) * lTicks s + b.closeAt + dt)) ∧
      ((∀ r, r < 16 → snapDue s b.k r = false) → t.grn.pubs = s.grn.pubs)) ∧
    (∀ ecc, s.grn.pubs = [] ∨ yields → exec (.publicationComplete ecc) s = .next s) ∧
    (∀ ecc p rest, s.grn.pubs = p :: rest → ¬ yields → p.status ≠ 0 → Gives (.publicationComplete ecc) s fun t => gone rest t ∧
      t.dma = s.dma ++ back p 0 p.status) ∧
    (∀ ecc p rest, s.grn.pubs = p :: rest → p.status = 0 → s.hst.linkUp = false → exec (.publicationComplete ecc) s = .next s) ∧
    (∀ p rest, s.grn.pubs = p :: rest → ¬ yields → p.status = 0 → s.hst.linkUp = true → Gives (.publicationComplete false) s fun t => gone rest t ∧
      t.dma = s.dma ++ [⟨p.addr + 8, pubBody p⟩, ⟨p.addr, leBytes 8 p.epoch⟩] ++ back p p.len 0) ∧
    (∀ p rest, s.grn.pubs = p :: rest → ¬ yields → p.status = 0 → s.hst.linkUp = true → Gives (.publicationComplete true) s fun t => gone rest t ∧
      rg t rGRN_PUB_ABANDON = satInc (rg s rGRN_PUB_ABANDON) ∧ (∃ len, len ≤ p.len ∧ t.dma = s.dma ++ back p len 1) ∧
      t.flt.inbox = s.flt.inbox ++ [{ source := srcBlk 9 0, code := 0x0241 }]) ∧
    (∀ p rest, s.grn.pubs = p :: rest → p.status = 0 → p.epoch + pubWin s ≤ s.grn.commit.k → s.stk.role ≠ 1 → Gives .publicationAbandon s fun t =>
      gone rest t ∧ rg t rGRN_PUB_ABANDON = satInc (rg s rGRN_PUB_ABANDON) ∧ ∃ len, len ≤ p.len ∧ t.dma = s.dma ++ back p len 1) ∧
    ((∀ p rest, s.grn.pubs = p :: rest → ¬ (p.status = 0 ∧ p.epoch + pubWin s ≤ s.grn.commit.k ∧ s.stk.role ≠ 1)) → exec .publicationAbandon s = .next s)

/-! ### Furrow (R190 to R218) -/

/-- A write of EN trains a ring from OFF or FAILED, drains it where EN is cleared, and is no more than a write otherwise. Block lock asks
for DISCOVER, its absence fails with code 1; a training frame with a bad FCRC is repeated up to three times, then fails with code 9; a
discovery gives the positions or one of the codes 2, 3, 4 and 8; a measurement gives RUN, WRAPPED after a wrapped training, or its code. A
failure puts the ring in FAILED, sets bit 2 of FUR_EVT and reports 0x0202. Every other ring stays as it is. A span delay request is answered
on the TX of the same neighbour unless that is silent, and a response gives the span's delay. Input loss clears the lock and silences the
opposite TX; input loss (8 of 32 headers invalid), WRAP_AT and a returned SOF that is LOOPED put a running ring in WRAPPED, the first two
from its earliest loop tick, and where the loops cut positions off, the island's cells are retired. What a takeover's UNLOOP undoes is no
WRAP_AT. A returned frame is kept while its epoch is open, and checked while its deadline has not passed, with its reports where it is whole
and its FCRC good; one too late, one that is no frame of the ring, and one with a bad FCRC are counted. -/
def Obligations.RingsTrainStepByStep : Prop :=
  (∀ (s : State) (r : Fin 64),
    let x := ring s r
    let others (t : State) : Prop := ∀ q, q ≠ r.val → ring t q = ring s q
    let is (y : Ring) (t : State) : Prop := others t ∧ ring t r = y
    let fails (code : Nat) (t : State) : Prop := is { x with st := 7, err := code, next := none, asked := false } t ∧
      bit (rg t rFUR_EVT) 2 = true ∧ t.flt.inbox.getLast? = some { source := srcBlk 8 r, code := 0x0202 }
    let again (t : State) : Prop := is { x with tries := x.tries + 1, asked := false, left := if x.st = 2 then 2 else 1 } t
    let expect := fld (rg s (rFUR_RING_CFG r)) 16 8
    let wrapTr := bit (rg s (rFUR_RING_CFG r)) 1
    let found (n : Nat) (ids : List U64) (la lb : Option Nat) (ga gb : Bool) (lt : Option Nat) (tk : List (Nat × Nat)) (t : State) : Prop :=
      is { x with n := n, ids := ids, loopA := la, loopB := lb, gxA := ga, gxB := gb, loopTick := lt, ticks := tk, tries := 0, asked := false,
                  next := some 3 } t
    (∀ bus v, WriteOk s bus (rFUR_RING_CFG r) v → Gives (.furRingCfgWrite bus r v) s fun t => others t ∧
      (bit v 0 = true → (x.st = 0 ∨ x.st = 7) → (ring t r).st = 1 ∧ (ring t r).n = 0 ∧ (ring t r).err = 0 ∧ (ring t r).next = none ∧
        (ring t r).tries = 0 ∧ (ring t r).t0 = now s ∧ (ring t r).loopTick = none ∧
        (x.offA = false → (tget {} t.fur.tx r).a = List.replicate 64 { ctl := true, data := 0x55 }) ∧
        (x.offB = false → (tget {} t.fur.tx r).b = List.replicate 64 { ctl := true, data := 0x55 })) ∧
      (bit v 0 = true → x.st ≠ 0 → x.st ≠ 7 → ring t r = x) ∧
      (bit v 0 = false → bit (rg s (rFUR_RING_CFG r)) 0 = false → ring t r = x) ∧
      (bit v 0 = false → bit (rg s (rFUR_RING_CFG r)) 0 = true → (x.st = 4 ∨ x.st = 5) → ring t r = { x with next := some 6, retrain := false }) ∧
      (bit v 0 = false → bit (rg s (rFUR_RING_CFG r)) 0 = true → x.st = 6 → ring t r = { x with retrain := false }) ∧
      (bit v 0 = false → bit (rg s (rFUR_RING_CFG r)) 0 = true → x.st ≠ 4 → x.st ≠ 5 → x.st ≠ 6 → (ring t r).st = 0 ∧
        (ring t r).err = 0 ∧ (ring t r).next = none)) ∧
    (∀ a b, Gives (.trainLock r a b) s fun t => ChangesOnly [.fur] s t ∧
      let y := { x with aLock := x.aLock || a, bLock := x.bLock || b }
      let go := x.st = 1 ∧ ((y.aLock = true ∧ y.bLock = true) ∨ (wrapTr = true ∧ (y.aLock = true ∨ y.bLock = true)))
      (go → is { y with next := some 2, silA := !y.bLock, silB := !y.aLock } t) ∧ (¬ go → is y t)) ∧
    Gives (.trainLockTimeout r) s (fun t =>
      (x.st = 1 ∧ x.next = none → fails 1 t ∧ t.tick = u64 (max (now s) (x.t0 + 3125000))) ∧
      (¬ (x.st = 1 ∧ x.next = none) → is x t)) ∧
    (∀ a b, Gives (.discoverReturn r a b) s fun t =>
      let na := a.ids.length
      let nb := b.ids.length
      (x.st ≠ 2 ∨ x.asked = false → is x t) ∧
      (x.st = 2 → x.asked = true → a.good = false ∨ b.good = false → (x.tries < 3 → again t) ∧ (3 ≤ x.tries → fails 9 t)) ∧
      (x.st = 2 → x.asked = true → a.good = true → b.good = true → a.looped = false → b.looped = false →
        (na ≠ nb ∨ na = 0 ∨ ringCells s < na → fails 2 t) ∧
        (na = nb → na ≠ 0 → na ≤ ringCells s →
          (expect ≠ 0 → na ≠ expect → fails 3 t) ∧
          (expect = 0 ∨ na = expect → a.ids ≠ b.ids.reverse → fails 4 t) ∧
          (expect = 0 ∨ na = expect → a.ids = b.ids.reverse → found a.ids.length a.ids none none false false none [] t))) ∧
      (x.st = 2 → x.asked = true → a.good = true → b.good = true → (a.looped ≠ b.looped ∨ (a.looped = true ∧ wrapTr = false)) → fails 2 t) ∧
      (x.st = 2 → x.asked = true → a.good = true → b.good = true → a.looped = true → b.looped = true → wrapTr = true →
        (expect = 0 ∨ expect < na + nb → fails 3 t) ∧
        (expect ≠ 0 → na + nb + fld (rg s (rFUR_RING_CFG r)) 27 24 < expect → fails 8 t) ∧
        (expect ≠ 0 → na + nb ≤ expect → expect ≤ na + nb + fld (rg s (rFUR_RING_CFG r)) 27 24 → found expect
          (a.ids ++ List.replicate (expect - (na + nb)) 0 ++ b.ids.reverse) (if na = 0 then none else some (na - 1))
          (if nb = 0 then none else some (expect - nb)) (decide (na = 0)) (decide (nb = 0)) (some (now s)) [(now s, now s)] t))) ∧
    (∀ good transit ms, Gives (.measureReturn r good transit ms) s fun t =>
      let err := measureErr x (lTicks s == 400) transit ms
      (x.st ≠ 3 ∨ x.asked = false → is x t) ∧
      (x.st = 3 → x.asked = true → good = false → (x.tries < 3 → again t) ∧ (3 ≤ x.tries → fails 9 t)) ∧
      (x.st = 3 → x.asked = true → good = true → err ≠ 0 → fails err t) ∧
      (x.st = 3 → x.asked = true → good = true → err = 0 →
        is { x with dly := ms.take x.n, trans := transit, asked := false, tries := 0, next := some (if x.loopTick.isSome then 5 else 4) } t))) ∧
  (∀ (s : State) (r : Fin 64) (l : Lane),
    let x := ring s r
    let others (t : State) : Prop := ∀ q, q ≠ r.val → ring t q = ring s q
    let is (y : Ring) (t : State) : Prop := others t ∧ ring t r = y
    let wraps (y : Ring) (tick : Nat) (t : State) : Prop :=
      let later := x.ticks ++ [(now s, tick)]
      let ticks := match x.loopTick with | some u => if u ≤ tick then x.ticks else later | none => later
      let z := { y with st := 5, wrapped := x.wrapped || x.st == 4, ticks := ticks,
                        loopTick := some (match x.loopTick with | some b => min b tick | none => tick) }
      is { z with island := z.island || !(cutOff z).isEmpty } t ∧ (x.st = 4 → bit (rg t rFUR_EVT) 0 = true) ∧
      (∀ p, p ∈ cutOff z → retireDecided t (p + 256 * r) = true ∨ ∃ w ∈ cellTurns t (p + 256 * r), w.on = true ∧ w.ord = t.cmd.ord) ∧
      (cutOff z ≠ [] → x.island = false → bit (rg t rFUR_EVT) 1 = true)
    let running := x.st = 4 ∨ x.st = 5
    (∀ sq turn, Gives (.pdReqReceive r l sq turn) s fun t => ChangesOnly [.fur] s t ∧
      let b : Block := { ctl := true, data := u64 (0xAA + sq.toNat * 2 ^ 8 + turn.toNat * 2 ^ 16) }
      is (if s.stk.role = 1 then x else match l with
        | .a => if (x.silB || x.offB) = true then x else { x with hopB := some b }
        | .b => if (x.silA || x.offA) = true then x else { x with hopA := some b }) t) ∧
    (∀ rtt turn, Gives (.pdRespReceive r l rtt turn) s fun t => ChangesOnly [.fur] s t ∧
      let d := (rtt.toNat - turn.toNat) / 2
      is (match l with | .a => { x with spanN := d } | .b => { x with span0 := d }) t) ∧
    (∀ (pos : U8) side (lt : BitVec 40), Gives (.wrapAtReceive r pos side lt) s fun t =>
      let ignored : Prop := now s < s.stk.unloopEnd ∧ (if side = true then pos.toNat = 0 else pos.toNat + 1 = x.n)
      (¬ running ∨ ignored → is x t) ∧
      (running → ¬ ignored → wraps (if side = true then { x with loopB := some pos.toNat } else { x with loopA := some pos.toNat })
        (now s - (now s + 2 ^ 40 - lt.toNat) % 2 ^ 40) t)) ∧
    (∀ bad, ((List.range 32).filter (fun i => bit bad i)).length < 8 → exec (.rxInputLoss r l bad) s = .next s) ∧
    (∀ bad, 8 ≤ ((List.range 32).filter (fun i => bit bad i)).length → Gives (.rxInputLoss r l bad) s fun t =>
      let y := match l with | .a => { x with aLock := false, silB := true } | .b => { x with bLock := false, silA := true }
      (¬ running → is y t) ∧ (running → wraps (match l with | .a => { y with gxB := true } | .b => { y with gxA := true }) (now s) t)) ∧
    (∀ j transit bs, Gives (.framePartReceive r l j transit bs) s fun t =>
      let back := (transit * 5 + 255) / 256 + 2 * bs.length
      let carried := ringLive x = true ∧ ∃ f ∈ s.fur.sent, f.frame = j ∧ f.ring = r.val
      let closed := ∃ k, s.grn.next = some k ∧ j ≤ k
      let late := closeTicks s x j < back
      let looped := bit ((bs.head?.map (·.data)).getD 0) 16
      let y : Ring := if sofLooped bs = true ∧ x.st = 4 then { x with st := 5, wrapped := true } else x
      let reports := if partGood bs && (frameWrapped s x j || looped || l == .a) then partReports x.n bs else []
      (s.stk.role = 1 → is (match l with | .a => { x with aLock := true } | .b => { x with bLock := true }) t) ∧
      (s.stk.role ≠ 1 → ¬ carried → t.fur = s.fur) ∧
      (s.stk.role ≠ 1 → carried → t.tick = u64 (max (now s) (j * lTicks s + back)) ∧ (ring t r).st = y.st) ∧
      (s.stk.role ≠ 1 → carried → late → is y t ∧ rg t rGRN_LATE_DROP = satInc (rg s rGRN_LATE_DROP)) ∧
      (s.stk.role ≠ 1 → carried → ¬ late → partShape x.n bs = false → rg t (rFUR_RING_FRAG r) = satInc (rg s (rFUR_RING_FRAG r)) ∧
        bit (rg t rFUR_EVT) 8 = true ∧
        (¬ closed → bs.any (isCtl 0xD2) = true → is { y with rx := x.rx ++ [{ frame := j, lane := l, good := false, reports := [] }] } t) ∧
        (closed ∨ bs.any (isCtl 0xD2) = false → is y t)) ∧
      (s.stk.role ≠ 1 → carried → ¬ late → partShape x.n bs = true → others t ∧
        (closed → (ring t r).rx = x.rx) ∧ (¬ closed → (ring t r).rx = x.rx ++ [{ frame := j, lane := l, good := partGood bs, reports := reports }]) ∧
        (ring t r).trans = transit ∧ (ring t r).ret = back ∧
        rg t (rFUR_RING_RETMAX r) = u32 (max (rg s (rFUR_RING_RETMAX r)).toNat (min back 65535)) ∧
        (ring t r).wrapped = y.wrapped ∧
        rg t (rFUR_RING_CRCA r) = (if partGood bs = false ∧ l = .a then satInc (rg s (rFUR_RING_CRCA r)) else rg s (rFUR_RING_CRCA r)) ∧
        rg t (rFUR_RING_CRCB r) = (if partGood bs = false ∧ l = .b then satInc (rg s (rFUR_RING_CRCB r)) else rg s (rFUR_RING_CRCB r)))))

/-! ### Protection (R356 to R379) -/

/-- The state machine of a permit channel (R367 to R372): when it may be driven, CHECK_L, the rise of PRB and its loss, RET_MAX, OFF_CHK, and
the phases of an off-pulse, each with its time, its count and its report; where the conditions do not hold, the command changes nothing.
Every other channel stays as it is, but for the start of REARM_HOLD of those whose causes are gone. -/
def Obligations.PermitChannelsFollowTheirStates : Prop :=
  ∀ (s : State) (n : Fin 8),
    let c := chn s n
    let st := chanState s n
    let dual := pchDual s n
    let becomes (v : Chn) (t : State) : Prop :=
      chn t n = v ∧ (∀ m, m ≠ n.val → chn t m = chn s m) ∧ t.prt = { s.prt with chans := t.prt.chans }
    let held (t : State) (m : Nat) (v : Chn) : Chn :=
      if v.st = 7 ∧ v.clear = none ∧ tripHeld s m = false ∧ windowOpen s = false then { v with clear := some (now t) } else v
    let trips (v : Chn) (t : State) : Prop := chn t n = held t n v ∧ ∀ m, m < 8 → m ≠ n.val → chn t m = held t m (chn s m)
    let reports (code : Nat) (t : State) : Prop := s.flt.inbox ++ [{ source := srcBlk 13 (88 + n), code := BitVec.ofNat 16 code }] <+: t.flt.inbox
    let fails (v : Chn) (t : State) : Prop :=
      becomes { v with st := 8, cause := bitv 20, ret := false, clear := none } t ∧ bit (rg t rPRT_EVT) 5 = true ∧ reports 0x0343 t
    let waited (e : Nat) (t : State) : Prop := t.tick = u64 (max (now s) e)
    let tcnt := rg s (rPRT_PCH_TCNT n)
    let passed (t : State) : Prop := rg t (rPRT_PCH_TCNT n) = pack [(0, min 0xFFFF (fld tcnt 15 0 + 1)), (16, fld tcnt 31 16)]
    let skipped (t : State) : Prop := rg t (rPRT_PCH_TCNT n) = pack [(0, fld tcnt 15 0), (16, min 0xFFFF (fld tcnt 31 16 + 1))]
    let retMaxT := 3125 * max 2 (min 100 (fld (rg s rPRT_CFG) 23 16))
    let width := 3125 * max 2 (min 50 (fld (rg s rPRT_TEST_CFG) 13 8))
    let ready := windowOpen s = false ∧ bit s.prt.grant n = true ∧ c.prb = false ∧ tripHeld s n = false
    let first (t : State) : Prop := becomes { c with st := if dual then 2 else 3, since := now t, clear := none, ret := false } t
    let pulsing := (st = 5 ∨ st = 6) ∧ c.ret = false
    (st = 1 → ready → Gives (.permitEnable n) s fun t => first t ∧ t.tick = s.tick) ∧
    (∀ e, st = 7 → ready → convBlocked s = true → c.clear = some e → Gives (.permitEnable n) s fun t =>
      first t ∧ waited (e + 312500 * max 10 (min 10000 (fld (rg s rPRT_CFG) 15 0))) t) ∧
    (¬ (ready ∧ (st = 1 ∨ (st = 7 ∧ convBlocked s = true ∧ c.clear ≠ none))) → exec (.permitEnable n) s = .next s) ∧
    (st = 2 → c.prb = false → Gives (.permitCheckLDone n) s fun t => becomes { c with st := 3, since := now t } t ∧ waited (c.since + 6250) t) ∧
    (¬ (st = 2 ∧ c.prb = false) → exec (.permitCheckLDone n) s = .next s) ∧
    exec (.prbChange n c.prb) s = .next s ∧
    (∀ level, level ≠ c.prb → Gives (.prbChange n level) s fun t =>
      let v := { c with prb := level }
      (st = 2 → level = true → fails v t) ∧
      (st = 3 → level = true → becomes { v with st := 4, since := now s } t) ∧
      (st = 4 → level = false → trips { v with st := 7, cause := bitv 17, clear := none, ret := false, since := now s } t ∧
        bit (rg t rPRT_EVT) 7 = true ∧ reports 0x0344 t) ∧
      ((st = 5 ∨ st = 6) → level = true → c.ret = true →
        becomes { v with st := 4, ret := false, since := now s, nextL := dual && !c.nextL } t ∧ passed t) ∧
      ((st ≠ 2 ∧ st ≠ 3 ∧ st ≠ 4 ∧ (st ≠ 5 ∧ st ≠ 6 ∨ c.ret = false)) ∨ (level = false ∧ st ≠ 4) ∨ (level = true ∧ st = 4) → becomes v t)) ∧
    (st = 3 → c.prb = false → Gives (.permitRetTimeout n) s fun t => becomes { c with st := 1, cause := bitv 18, since := now t } t ∧
      waited (c.since + retMaxT) t ∧ bit (rg t rPRT_EVT) 6 = true ∧ reports 0x0344 t) ∧
    (st = 5 ∨ st = 6 → c.ret = true → c.prb = false → Gives (.permitRetTimeout n) s fun t =>
      trips { c with st := 7, cause := bitv 18, since := now t, clear := none, ret := false } t ∧
      waited (c.since + retMaxT) t ∧ bit (rg t rPRT_EVT) 6 = true ∧ reports 0x0344 t) ∧
    (¬ (c.prb = false ∧ (st = 3 ∨ ((st = 5 ∨ st = 6) ∧ c.ret = true))) → exec (.permitRetTimeout n) s = .next s) ∧
    (st ≠ 0 → st ≠ 8 → c.prb = true → reqH s n = false → reqL s n = false → Gives (.permitOffChkExpire n) s fun t =>
      fails c t ∧ waited (now s + 31250 * max 1 (fld (rg s rPRT_CFG) 27 24)) t) ∧
    (st = 0 ∨ st = 8 ∨ c.prb = false ∨ reqH s n = true ∨ reqL s n = true → exec (.permitOffChkExpire n) s = .next s) ∧
    (pchEn s n = false ∨ pchTest s n = false ∨ (∃ m, m < 8 ∧ m ≠ n.val ∧ (chanState s m = 5 ∨ chanState s m = 6)) →
      exec (.offPulseStart n) s = .next s) ∧
    (pchEn s n = true → pchTest s n = true → (∀ m, m < 8 → m ≠ n.val → chanState s m ≠ 5 ∧ chanState s m ≠ 6) → Gives (.offPulseStart n) s fun t =>
      (st = 4 → becomes { c with st := if dual && c.nextL then 6 else 5, since := now s, ret := false } t) ∧
      (st ≠ 4 → t.prt = s.prt ∧ skipped t ∧ reports 0x0345 t)) ∧
    (pulsing → Gives (.offPulseCheck n) s fun t => waited (c.since + width - 312) t ∧ (c.prb = true → fails c t) ∧ (c.prb = false → t.prt = s.prt)) ∧
    (¬ pulsing → exec (.offPulseCheck n) s = .next s) ∧
    (pulsing → Gives (.offPulseEnd n) s fun t => waited (c.since + width) t ∧
      (c.prb = false → becomes { c with ret := true, since := now t } t) ∧
      (c.prb = true → becomes { c with st := 4, ret := false, since := now t, nextL := dual && !c.nextL } t ∧ passed t)) ∧
    (¬ pulsing → exec (.offPulseEnd n) s = .next s)

/-- A Clapper input latches once where it has asserted: it trips the channels it maps to, whose outputs fall, and is a decision where BLKSYM is
set; it clears only where its condition is gone, which inputs 10 and 13 to 15 never are before reset. The CRC check, a failure of the safety
processor and its heartbeat assert inputs 13, 10 and 9. PRT_SP_CMD takes DEMAND, GRANT and BLKSYM: a newly set bit raises the event and its
record, a demanded channel trips and its outputs fall, and BLKSYM makes a decision. The watchdog demands its MASK with BLKSYM when COMMIT_WD
boundaries pass without a commit. A crossing that finds its comparator armed is counted, asserts its Clapper input, counts for its interrupt
source, starts its sequencers and sets the image's copy; re-arming clears the comparator and the copy. -/
def Obligations.ClapperLatchesTripsAndClears : Prop :=
  (∀ s : State,
    let m (k : Nat) : U16 := BitVec.ofNat 16 (2 ^ k)
    let due (k : Nat) : Prop := clapEn s k = true ∧ bit s.prt.latched k = false ∧ (if k = 12 then s.flt.trips ≠ [] else bit s.prt.asserted k = true)
    let asserts (k : Nat) : U16 := if clapEn s k then s.prt.asserted ||| m k else s.prt.asserted
    let gone (k : Nat) : Prop :=
      (k < 8 ∧ cmpArmed s k = true) ∨
      (k = 8 ∧ ∀ p ∈ s.fur.rings, p.2.frameLoss = false ∨ (join64 (rg s rPRT_FL_MASK_LO) (rg s rPRT_FL_MASK_HI)).getLsbD p.1 = false) ∨
      (k = 9 ∧ 2 ≤ s.prt.hbGood) ∨ (k = 11 ∧ s.sys.refclkOk = true ∧ s.sys.pllLock = true) ∨
      (k = 12 ∧ ∀ t ∈ s.flt.trips, causeLive s t.1 t.2 = false)
    (∀ k : Fin 16, ¬ due k → Gives (.clapperCauseLatch k) s fun t => ChangesOnly [.prt] s t ∧
      t.prt = { s.prt with asserted := s.prt.asserted &&& ~~~m k }) ∧
    (∀ k : Fin 16, due k → Gives (.clapperCauseLatch k) s fun t =>
      t.prt.latched = s.prt.latched ||| m k ∧ t.prt.asserted = s.prt.asserted &&& ~~~m k ∧ bit (rg t rPRT_EVT) 0 = true ∧
      t.prt.first = (if s.prt.latched = 0 ∧ s.prt.demand = 0 then u32 k ||| bitv 11 else s.prt.first) ∧
      (∀ n, n < 8 → clapMaps s k n = true → permitH t n = false ∧ permitL t n = false ∧
        (chanState s n ≠ 0 → chanState s n ≠ 8 → (chn t n).st = 7 ∧
          (chn t n).cause = if chanState s n = 7 then (chn s n).cause ||| bitv k else bitv k)) ∧
      (∀ n, clapMaps s k n = false → chn t n = chn s n) ∧
      rg t rPRT_TRIP_CNT = (if bit (clapCfg s k) 8 then satInc (rg s rPRT_TRIP_CNT) else rg s rPRT_TRIP_CNT) ∧
      (bit (clapCfg s k) 8 = true → t.grn.tripDue = true)) ∧
    (∀ k : Fin 16, bit s.prt.latched k = true → gone k → Gives (.clapperCauseClear k) s fun t =>
      t.prt = { s.prt with latched := s.prt.latched &&& ~~~m k, chans := t.prt.chans } ∧
      t.flt.trips = (if k.val = 12 then [] else s.flt.trips) ∧
      ∀ n, chn t n = { chn s n with clear := (chn t n).clear }) ∧
    (∀ k : Fin 16, ¬ (bit s.prt.latched k = true ∧ gone k) → exec (.clapperCauseClear k) s = .next s) ∧
    (∀ upset, s.prt.crcOn = true → configCrc s ^^^ upset ≠ s.prt.crcRef → Gives (.configCrcCheck upset) s fun t =>
      ChangesOnly [.regs, .prt] s t ∧ t.prt = { s.prt with asserted := asserts 13 } ∧ bit (rg t rPRT_EVT) 4 = true) ∧
    (∀ upset, s.prt.crcOn = false ∨ configCrc s ^^^ upset = s.prt.crcRef → exec (.configCrcCheck upset) s = .next s) ∧
    Gives .spFailure s (fun t => ChangesOnly [.regs, .prt] s t ∧ t.prt = { s.prt with lockErr := true, asserted := asserts 10 } ∧
      bit (rg t rPRT_EVT) 3 = true) ∧
    (∀ v cycles, Gives (.heartbeatWrite v cycles) s fun t =>
      let p := { s.prt with hb := v, hbAt := now s }
      let good := v.toNat = fld (~~~s.prt.hb) 15 0 ∧ 25 * hbMax s ≤ cycles.toNat ∧ cycles.toNat ≤ 100 * hbMax s
      ChangesOnly [.regs, .prt] s t ∧
      (s.prt.hbOn = false → t.prt = if v = 0x00005AA5 then { p with hbOn := true, hbOk := true, hbGood := 1 } else p) ∧
      (s.prt.hbOn = true → good → t.prt = { p with hbOk := true, hbGood := min 2 (s.prt.hbGood + 1) }) ∧
      (s.prt.hbOn = true → ¬ good → t.prt = { p with hbOk := false, hbGood := 0, asserted := asserts 9 } ∧ bit (rg t rPRT_EVT) 2 = true)) ∧
    (s.prt.hbOn = true → s.prt.hbOk = true → Gives .heartbeatTimeout s fun t =>
      t.tick = u64 (max (now s) (s.prt.hbAt + (hbMax s * 625 + 1) / 2)) ∧
      t.prt = { s.prt with hbOk := false, hbGood := 0, asserted := asserts 9 } ∧ bit (rg t rPRT_EVT) 2 = true) ∧
    (s.prt.hbOn = false ∨ s.prt.hbOk = false → exec .heartbeatTimeout s = .next s)) ∧
  (∀ s : State,
    let image := s.prt.sp = true ∧ s.prt.lockErr = false
    let decides (blk : Bool) (t : State) : Prop :=
      rg t rPRT_TRIP_CNT = (if blk then satInc (rg s rPRT_TRIP_CNT) else rg s rPRT_TRIP_CNT) ∧ (blk = true → t.grn.tripDue = true)
    (∀ demand grant blk, Gives (.spCmdWrite demand grant blk) s fun t =>
      t.prt = { s.prt with demand := demand, grant := grant, blksym := blk, first := t.prt.first, chans := t.prt.chans } ∧
      (demand &&& ~~~s.prt.demand ≠ 0 → bit (rg t rPRT_EVT) 1 = true ∧ t.prt.first =
        (if s.prt.latched = 0 ∧ s.prt.demand = 0 then bitv 4 ||| u32 (32 * s.prt.limit.getD 0) ||| bitv 11 else s.prt.first)) ∧
      (demand &&& ~~~s.prt.demand = 0 → t.prt.first = s.prt.first) ∧
      (∀ n, n < 8 → bit demand n = true → permitH t n = false ∧ permitL t n = false ∧
        (chanState s n ≠ 0 → chanState s n ≠ 8 → (chn t n).st = 7) ∧
        (chanState s n ≠ 0 → chanState s n ≠ 8 → (chn t n).cause =
          if chanState s n = 7 then (if bit s.prt.demand n then (chn s n).cause else (chn s n).cause ||| bitv 16) else bitv 16)) ∧
      (∀ n, n < 8 → bit demand n = false → chn t n = { chn s n with clear := (chn t n).clear }) ∧ decides blk t) ∧
    (commitWd s ≤ s.prt.noCommit → s.prt.wdTrip = false → image → Gives .commitWatchdog s fun t =>
      t.prt.wdTrip = true ∧ t.prt.blksym = true ∧ t.prt.grant = s.prt.grant ∧
      t.prt.demand &&& BitVec.ofNat 8 (fld (rg s rPRT_SP_CFG) 23 16) = BitVec.ofNat 8 (fld (rg s rPRT_SP_CFG) 23 16) ∧
      s.prt.demand &&& ~~~imageDemand s &&& ~~~t.prt.demand = 0 ∧ decides true t) ∧
    (¬ (commitWd s ≤ s.prt.noCommit ∧ s.prt.wdTrip = false ∧ image) → exec .commitWatchdog s = .next s) ∧
    (∀ k : Fin 8, cmpArmed s k = true → Gives (.comparatorCrossing k) s fun t =>
      cmpr t k = { out := true, spent := true } ∧ (∀ j, j ≠ k.val → cmpr t j = cmpr s j) ∧
      rg t (rAFE_CMP_CNT k) = satInc (rg s (rAFE_CMP_CNT k)) ∧ bit (rg t rAFE_EVT) 3 = true ∧
      (intSrc t (192 + k)).cnt = (if srcEn s (192 + k) = true ∧ (intSrc s (192 + k)).cnt < 255 then (intSrc s (192 + k)).cnt + 1
        else (intSrc s (192 + k)).cnt) ∧
      t.prt.asserted = (if clapEn s k then s.prt.asserted ||| BitVec.ofNat 16 (2 ^ k.val) else s.prt.asserted) ∧
      (∀ q, q < 4 → seq t q = if startSrc s q = 3 ∧ fld (rg s (rAFE_SEQ_CFG q)) 10 8 = k.val then seq (startEvent q s) q else seq s q) ∧
      (image ∧ bit (rg s rPRT_SP_CFG) (24 + k) = true → bit t.prt.cmpTrip k = true) ∧
      (¬ (image ∧ bit (rg s rPRT_SP_CFG) (24 + k) = true) → t.prt.cmpTrip = s.prt.cmpTrip ∧ t.prt.demand = s.prt.demand)) ∧
    (∀ k : Fin 8, cmpArmed s k = false → exec (.comparatorCrossing k) s = .next s) ∧
    (∀ k : Fin 8, (cmpr s k).spent = true → Gives (.comparatorRearm k) s fun t =>
      cmpr t k = {} ∧ (∀ j, j ≠ k.val → cmpr t j = cmpr s j) ∧ (image → bit t.prt.cmpTrip k = false)) ∧
    (∀ k : Fin 8, (cmpr s k).spent = false → exec (.comparatorRearm k) s = .next s))

/-! ### The analog front end (R332 to R348) -/

/-- A conversion feeds its channel: the code, the overrange and taint flags, the filter and the accumulator of its mode; the sequencer goes on
to the next conversion, entry or pass. GO starts a sequencer whose START_SRC is 0, a write of MODE waits for the entry in progress and
restarts the bank's filters when it leaves OFF, and a write of AFE_CHc_CFG restarts its channel. -/
def Obligations.ConversionsFeedTheirChannels : Prop :=
  (∀ x : Int, -32768 ≤ (afeCode x).1 ∧ (afeCode x).1 ≤ 32767 ∧
    ((afeCode x).2 = true ↔ 32767 * 256 + 128 < x ∨ x < -32768 * 256 - 128) ∧
    (-32768 * 256 - 128 ≤ x → x < 32767 * 256 + 128 → 256 * (afeCode x).1 - 128 ≤ x ∧ x ≤ 256 * (afeCode x).1 + 128)) ∧
  (∀ (s : State) (q : Fin 4) (x : BitVec 32) (ecc : Bool), (seq s q).run = false →
    Gives (.afeConversion q x ecc) s fun t => t.afe = s.afe ∧ t.tick = s.tick) ∧
  (∀ (s : State) (q : Fin 4) (x : BitVec 32) (ecc : Bool), (seq s q).run = true →
    let v := seq s q
    let ent (i : Nat) := rg s (rAFE_SEQ_ENT q i)
    let w := ent v.entry
    let c := 8 * q.val + fld w 2 0
    let y := chan s c
    let code := (afeCode x.toInt).1
    let overr := (afeCode x.toInt).2
    let tainted := match v.taint with | some k => decide (v.slot ≤ k) | none => false
    let n := sincN s c
    let d := sincD s c
    let hist := ((if tainted then y.hist.headD 0 else code) :: y.hist).take (n * (d - 1) + 1)
    let settled := n * d ≤ y.n + 1
    let decim := (y.n + 1) % d = 0
    let flagged : Chan := { y with ovr := y.ovr || overr, taint := y.taint || tainted, excl := y.excl + b2n tainted }
    let next := v.slot + 1
    let v' : Seq := { v with taint := if overr then some (v.slot + 2) else v.taint }
    let pass (sx : Nat) (z : Seq) : Seq := { z with run := true, entry := 0, rep := 0, slot := sx + fld (ent 0) 15 8 }
    let stop (z : Seq) : Seq := { z with run := false, pend := none, entry := 0, rep := 0 }
    let z : Seq := match v.newMode with | some m => { v' with mode := m, newMode := none } | none => v'
    let last := bit w 31 = true ∨ 63 ≤ v.entry
    Gives (.afeConversion q x ecc) s fun t =>
      t.tick = u64 (max (now s) (16 * (v.slot + 1))) ∧
      (∀ c', c' ≠ c → chan t c' = chan s c') ∧ (∀ q', q' ≠ q.val → seq t q' = seq s q') ∧
      (bit w 16 = true → chan t c = flagged) ∧
      (bit w 16 = false → (chan t c).n = y.n + 1 ∧ (chan t c).hist = hist ∧
        (chan t c).ovr = flagged.ovr ∧ (chan t c).taint = flagged.taint ∧ (chan t c).excl = flagged.excl ∧
        (chan t c).dec = (if decim then (if settled then chanCal s c (sliding n d hist) (d ^ n) else 0) else y.dec) ∧
        (tainted = true → (chan t c).sum = y.sum ∧ (chan t c).k = y.k ∧ (chan t c).last = y.last) ∧
        (tainted = false → accMode s c = 0 → (chan t c).sum = y.sum + code ∧ (chan t c).k = y.k + 1) ∧
        (tainted = false → accMode s c = 1 → decim → settled → (chan t c).sum = y.sum + sliding n d hist ∧ (chan t c).k = y.k + 1) ∧
        (tainted = false → accMode s c = 1 → ¬ (decim ∧ settled) → (chan t c).sum = y.sum ∧ (chan t c).k = y.k) ∧
        (tainted = false → accMode s c = 2 → settled → (chan t c).last = some (sliding n d hist))) ∧
      (v.rep < fld w 7 4 → seq t q = { v' with rep := v.rep + 1, slot := next }) ∧
      (fld w 7 4 ≤ v.rep → z.mode = 0 → seq t q = stop z) ∧
      (fld w 7 4 ≤ v.rep → z.mode ≠ 0 → ¬ last → seq t q = { z with entry := v.entry + 1, rep := 0, slot := next + fld (ent (v.entry + 1)) 15 8 }) ∧
      (fld w 7 4 ≤ v.rep → z.mode = 2 → last → seq t q = stop z) ∧
      (fld w 7 4 ≤ v.rep → (z.mode = 1 ∨ (z.mode = 3 ∧ z.pend = none)) → last → seq t q = pass next z) ∧
      (∀ sx, fld w 7 4 ≤ v.rep → z.mode = 3 → z.pend = some sx → last → ∃ g,
        seq t q = pass (next + g) { z with pend := none } ∧ (sx ≤ next → g < max 1 (tTab s q) ∧ ∃ k, next + g = sx + k * max 1 (tTab s q)) ∧
        (0 < g → rg t (rAFE_SEQ_GAP q) = satInc (rg s (rAFE_SEQ_GAP q)) g)) ∧
      (overr = true → bit (rg t rAFE_EVT) 0 = true ∧ bit (rg t rAFE_OVR) c = true) ∧ (ecc = true → bit (rg t rAFE_EVT) 5 = true)) ∧
  (∀ (s : State) bus v, WriteOk s bus rAFE_SEQ_CTL v → Gives (.afeSeqGo bus v) s fun t =>
    let sx := (now s + 15) / 16
    (windowOpen s = false → t = s) ∧
    (windowOpen s = true → ∀ q, q < 4 → seq t q =
      let z := seq s q
      if bit v q = false ∨ startSrc s q ≠ 0 ∨ z.mode = 0 then z
      else if z.run = false then { z with run := true, entry := 0, rep := 0, slot := sx + fld (rg s (rAFE_SEQ_ENT q 0)) 15 8 }
      else if z.mode = 3 ∧ z.pend = none then { z with pend := some sx } else z)) ∧
  (∀ (s : State) bus (q : Fin 4) w, WriteOk s bus (rAFE_SEQ_CFG q) w → Gives (.afeSeqModeWrite bus q w) s fun t =>
    let v := seq s q
    let m := fld w 1 0
    rg t (rAFE_SEQ_CFG q) = mergeReg s (rAFE_SEQ_CFG q) w ∧ (∀ j, j ≠ q.val → seq t j = seq s j) ∧
    seq t q = (if v.run then { v with newMode := some m, tabOn := true } else { v with mode := m, newMode := none, tabOn := true }) ∧
    ∀ c, c < 32 → chan t c =
      if v.run = false ∧ v.mode = 0 ∧ m ≠ 0 ∧ c / 8 = q.val then { chan s c with n := 0, hist := [], dec := 0 } else chan s c) ∧
  (∀ (s : State) bus (c : Fin 32) w, WriteOk s bus (rAFE_CH_CFG c) w → Gives (.afeChCfgWrite bus c w) s fun t =>
    rg t (rAFE_CH_CFG c) = mergeReg s (rAFE_CH_CFG c) w ∧ (∀ j, j ≠ c.val → chan t j = chan s j) ∧
    chan t c = { chan s c with n := 0, hist := [], dec := 0, sum := 0, k := 0, last := none, lo := none, hi := none })

/-! ### The loop engines (R298 to R330) -/

/-- When the last engine finishes, the references of all arms are published as one set, the engine times and corrected errors are recorded, and
the engine interrupt counts; an engine that misses D_LOOP marks its loops late and yields for each arm it names; an uncorrectable error
disables its loop at once and keeps OUT; a bad source code is written as NONE and an ARM above 11 as 0, with CFG_ERR; ARM starts a capture. -/
def Obligations.LoopEnginesPublishTheirReferences : Prop :=
  (∀ (s : State) a, (∀ l, l < 128 → ¬ (bit (rg s (rLPE_LOOP_DST l)) 4 = true ∧ fld (rg s (rLPE_LOOP_DST l)) 3 0 = a)) → armRef s a = 0) ∧
  (∀ (s : State) corr, s.lpe.sample = none ∨ s.lpe.busy = false → Gives (.enginesDone corr) s fun t => t.lpe = s.lpe ∧ t.tick = s.tick) ∧
  (∀ (s : State) corr m, s.lpe.sample = some m → s.lpe.busy = true → Gives (.enginesDone corr) s fun t =>
    let cyc (e : Nat) := 808 + 48 * corr.getD e 0
    (∃ worst, (∀ e, e < 8 → cyc e ≤ worst) ∧ (∃ e, e < 8 ∧ worst = cyc e) ∧ t.tick = u64 (max (now s) (m * lTicks s + (worst + 1) / 2))) ∧
    t.lpe.busy = false ∧ t.lpe.refsM = some m ∧ (∀ a, a < 12 → tget 0 t.lpe.refs a = armRef s a) ∧
    (∀ e, e < 8 → tget 0 t.lpe.engStat e =
      pack [(0, min (cyc e) 0xFFF), (16, min (corr.getD e 0) 255), (24, b2n (s.lpe.lateEng.getLsbD e))]) ∧
    t.lpe = { s.lpe with refs := t.lpe.refs, refsM := some m, busy := false, engStat := t.lpe.engStat } ∧
    rg t rLPE_ECC_CNT = satInc (rg s rLPE_ECC_CNT) (corr.foldl (· + ·) 0) ∧
    (srcEn s 99 = true → (intSrc s 99).cnt < 255 → (intSrc t 99).cnt = (intSrc s 99).cnt + 1)) ∧
  (∀ (s : State) (e : Fin 8), s.lpe.sample = none ∨ s.lpe.busy = false ∨ s.lpe.lateEng.getLsbD e = true →
    Gives (.loopDeadlineMiss e) s fun t => t.lpe = s.lpe ∧ t.tick = s.tick) ∧
  (∀ (s : State) (e : Fin 8) m, s.lpe.sample = some m → s.lpe.busy = true → s.lpe.lateEng.getLsbD e = false →
    Gives (.loopDeadlineMiss e) s fun t =>
      let named (a : Nat) : Bool := (List.range 16).any (fun i =>
        let d := rg s (rLPE_LOOP_DST (16 * e + i))
        bit d 4 && decide (fld d 3 0 = a))
      t.tick = u64 (max (now s) (m * lTicks s + dLoop s)) ∧ t.lpe.sample = some m ∧ t.lpe.busy = true ∧
      t.lpe.refs = s.lpe.refs ∧ t.lpe.refsM = s.lpe.refsM ∧
      (∀ l, loop t l = if l / 16 = e.val then { loop s l with late := true } else loop s l) ∧
      (∀ j, j < 8 → t.lpe.lateEng.getLsbD j = (s.lpe.lateEng.getLsbD j || decide (j = e.val))) ∧
      (∀ a, a < 12 → t.lpe.lateArms.getLsbD a = (s.lpe.lateArms.getLsbD a || named a)) ∧
      rg t (rSYS_YIELD_CNT 1) = satInc (rg s (rSYS_YIELD_CNT 1)) ((idxs 12 (fun a => named a && !s.lpe.lateArms.getLsbD a)).length) ∧
      rg t rLPE_LATE_CNT = satInc (rg s rLPE_LATE_CNT) 1 ∧ bit (rg t rLPE_EVT) 0 = true ∧ bit (tget 0 t.lpe.engStat e) 24 = true ∧
      s.flt.inbox ++ [{ source := srcBlk 6 e, code := 0x0180 }] <+: t.flt.inbox) ∧
  (∀ (s : State) (l : Fin 128) (c : Fin 24), Gives (.loopEccUncorr l c) s fun t =>
    loop t l = { loop s l with enabled := false, starting := false, drain := false, fallback := 0 } ∧
    (∀ j, j ≠ l.val → loop t j = loop s j) ∧ bit (rg t rLPE_EVT) 5 = true ∧
    (c.val < 23 → rg t (rLPE_LOOP_COEF l c) = lo32 (Config.freeWord s.freeCtr) ∧ t.freeCtr = s.freeCtr + 1) ∧
    (∀ k j, k < 128 → j < 23 → ¬ (k = l.val ∧ j = c.val) → rg t (rLPE_LOOP_COEF k j) = rg s (rLPE_LOOP_COEF k j)) ∧
    s.flt.inbox ++ [{ source := srcBlk 6 (l / 16), code := 0x0185 }] <+: t.flt.inbox) ∧
  (∀ (s : State) bus (l : Fin 128) v, WriteOk s bus (rLPE_LOOP_SRC l) v → Gives (.lpeSrcWrite bus l false v) s fun t =>
    let kept (code : Nat) := if srcCodeOk code then code else 0
    rg t (rLPE_LOOP_SRC l) = pack [(0, kept (fld v 15 0)), (16, kept (fld v 31 16))] ∧
    (srcCodeOk (fld v 15 0) = false ∨ srcCodeOk (fld v 31 16) = false → bit (rg t rLPE_EVT) 8 = true) ∧
    (srcCodeOk (fld v 15 0) = true → srcCodeOk (fld v 31 16) = true → rg t (rLPE_LOOP_SRC l) = v ∧ rg t rLPE_EVT = rg s rLPE_EVT) ∧
    ∀ o, o ≠ rLPE_LOOP_SRC l → o ≠ rLPE_EVT → rg t o = rg s o) ∧
  (∀ (s : State) bus (l : Fin 128) v, WriteOk s bus (rLPE_LOOP_SPSRC l) v → Gives (.lpeSrcWrite bus l true v) s fun t =>
    (srcCodeOk (fld v 15 0) = true → rg t (rLPE_LOOP_SPSRC l) = u32 (fld v 15 0) ∧ rg t rLPE_EVT = rg s rLPE_EVT) ∧
    (srcCodeOk (fld v 15 0) = false → rg t (rLPE_LOOP_SPSRC l) = 0 ∧ bit (rg t rLPE_EVT) 8 = true) ∧
    ∀ o, o ≠ rLPE_LOOP_SPSRC l → o ≠ rLPE_EVT → rg t o = rg s o) ∧
  (∀ (s : State) bus (l : Fin 128) v, WriteOk s bus (rLPE_LOOP_DST l) v → Gives (.lpeDstWrite bus l v) s fun t =>
    (fld v 3 0 ≤ 11 → rg t (rLPE_LOOP_DST l) = v &&& 0x3F ∧ rg t rLPE_EVT = rg s rLPE_EVT) ∧
    (11 < fld v 3 0 → rg t (rLPE_LOOP_DST l) = 0 ∧ bit (rg t rLPE_EVT) 8 = true) ∧
    ∀ o, o ≠ rLPE_LOOP_DST l → o ≠ rLPE_EVT → rg t o = rg s o) ∧
  (∀ (s : State) bus v, WriteOk s bus rLPE_CAP_CTL v → Gives (.lpeCapArm bus v) s fun t =>
    rg t rLPE_CAP_CTL = v &&& 0x27F ∧ (∀ o, o ≠ rLPE_CAP_CTL → rg t o = rg s o) ∧ t.lpe.loops = s.lpe.loops ∧
    t.lpe.cap = if bit v 8 then { armed := true } else s.lpe.cap)

/-! ### Harrow (R245 to R273) -/

/-- The Harrow start of frame j: each arm's look-ahead steps up where a ring of it is wrapped and down where none is any more, every mapped
arm takes its reference, and it builds its slots for frame j where its group is handed to it and HRW_FREEZE is off. A frame of a step down
that carries NONE leaves the lane as it is, a blocked arm has no slots, and an arm that is not mapped keeps only its carrier's grid; the end
of selection records the cycles used. A level never exceeds the usable cells, the cells chosen are usable ones, and a fractional edge lies
in the frame. -/
def Obligations.HarrowBuildsEveryArm : Prop :=
  (∀ s : State, s.sys.running = false ∨ s.stk.role = 1 → exec .harrowStart s = .next s) ∧
  (∀ s : State, s.sys.running = true → s.stk.role ≠ 1 → Gives .harrowStart s fun t =>
    let j := epochNow s + 1
    t.tick = u64 (max (now s) (epochNow s * lTicks s + hStart s)) ∧
    ((∃ a, a < 12 ∧ armMapped s a = true ∧ j ≤ (harm s a).frame) → t.hrw = s.hrw ∧ t.cmd = s.cmd) ∧
    ((∀ a, a < 12 → armMapped s a = true → (harm s a).frame < j) → t.hrw.frozen = s.hrw.frozen ∧ ∀ a, a < 12 →
      let v := armLa s a
      let wrapped := armWrapped s a
      (v.up = none → armLa t a = if wrapped = true ∧ laCfg s < 7 then { up := some j } else v) ∧
      (∀ w, v.up = some w → v.down = none → armLa t a = if wrapped = true then v else if w < j then { up := some w, down := some j } else
        match v.was with | some d => { up := some d, down := some d } | none => {}) ∧
      (∀ d, v.up ≠ none → v.down = some d → armLa t a =
        if wrapped = true then { up := some j, was := some d } else if d + 7 < j + laCfg s then {} else v) ∧
      (armMapped s a = true → (harm t a).frame = j ∧ (harm t a).overrun = false ∧ (harm t a).refJ = (harm (refStep a j s) a).refJ ∧
        ((harm t a).busy = true ↔ s.hrw.frozen = false ∧ ∃ e, slotEpoch t a j = some e ∧ armOpen t a j e = true) ∧
        (slotEpoch t a j = none → (harm t a).slots = (harm s a).slots ∧ (harm t a).active = (harm s a).active) ∧
        (∀ e, slotEpoch t a j = some e → armOpen t a j e = false → (harm t a).active = false ∧ (s.hrw.frozen = false → (harm t a).slots = []))) ∧
      (armMapped s a = false → harm t a = { harm s a with car := (harm t a).car } ∧ (harm t a).car.running = false ∧
        (harm t a).car.edges = (harm s a).car.edges.filter (fun x => decide (x < (j + laCfg s) * firingUnits s))))) ∧
  (∀ (s : State) (a : Fin 12) cyc, (harm s a).busy = false → exec (.harrowSelectionDone a cyc) s = .next s) ∧
  (∀ (s : State) (a : Fin 12) cyc, (harm s a).busy = true → Gives (.harrowSelectionDone a cyc) s fun t =>
    let used := min cyc (44 + 3 * (((armCells s a).length + 15) / 16))
    t.tick = u64 (max (now s) (((harm s a).frame - 1) * lTicks s + hStart s + (used + 1) / 2)) ∧
    harm t a = { harm s a with busy := false, cyc := used } ∧ (∀ b, b ≠ a.val → harm t b = harm s b) ∧ t.hrw.cells = s.hrw.cells ∧
    rg t (rHRW_ARM_SELMAX a) = u32 (max (rg s (rHRW_ARM_SELMAX a)).toNat used) ∧ ∀ o, o ≠ rHRW_ARM_SELMAX a → rg t o = rg s o) ∧
  (∀ ref vn half u, (levelOf ref vn half u).1 ≤ u ∧ ((levelOf ref vn half u).1 = u → (levelOf ref vn half u).2.1 = 0) ∧
    (half = true → f32Lt ref 0 = true → (levelOf ref vn half u).1 = 0 ∧ (levelOf ref vn half u).2.1 = 0)) ∧
  (∀ n mp base units sorted, ∀ x, x ∈ (selectCells n mp base units sorted).w ++ (selectCells n mp base units sorted).joined → x ∈ sorted) ∧
  (∀ n mp base units sorted, (sorted.filter (fun x => x.pin == 1)).length ≤ n → (selectCells n mp base units sorted).short = false →
    ((selectCells n mp base units sorted).w ++ (selectCells n mp base units sorted).joined).length = n) ∧
  (∀ k on nIns nRem, 0 < k.units → (edgeOf k on nIns nRem).d < k.units)

/-! ### Carrier mode (R274 to R297) -/

/-- At a grid zero the CARRIER_SET commands due load into the grid and complete, the next zero lies one PERIOD on and the apex half a PERIOD
on, and a carrier switched off enters its drain, which ends at once where the epoch of its last final zero has begun; the K and the rank 0
compare are those of that zero's build. ZERO, PERIOD and CMP go to their interrupt sources on every (PRE + 1)-th occurrence, and a PERIOD
load starts the prescalers afresh. -/
def Obligations.CarrierZerosLoadAndRaiseEvents : Prop :=
  (∀ (s : State) (a : Fin 12), (carOf s a).rt.on = false ∨ s.sys.running = false → exec (.carrierZero a) s = .next s) ∧
  (∀ (s : State) (a : Fin 12), (carOf s a).rt.on = true → s.sys.running = true → Gives (.carrierZero a) s fun t =>
    let c := carOf s a
    let z := c.rt.zero
    let due := carDue s a z (fun e => e.ended.isNone && !e.applied)
    let e0 := z / firingUnits s
    let g := due.foldl gridLoad c.rt
    let own := (c.zeros.find? (fun p => p.z == z)).getD { z := z }
    let starts := c.rt.enabled && !g.enabled && carrierOpen s a e0
    let last := max c.fin z / firingUnits s
    let ends := starts && decide (last ≤ t.tick.toNat / lTicks s)
    let zeroed := loadsPeriod due
    let pre := fld (rg s (rHRW_CAR_IRQ a)) 7 4
    let n := (if zeroed then 0 else c.preZ) + 1
    let x := carOf t a
    t.tick = u64 (max (now s) ((z + 7) / 8)) ∧ x.rt = { g with zero := z + g.period } ∧ x.apex = some (z + g.period / 2) ∧
    (due = [] → g = c.rt) ∧ x.loadEpoch = (if due.isEmpty then c.loadEpoch else e0) ∧
    (due ≠ [] → bit (rg t rHRW_CAR_EVT) 1 = true) ∧
    x.drain = (if ends then none else if starts then some last else if g.enabled then none else c.drain) ∧
    (ends = true → bit (rg t rHRW_CAR_EVT) 2 = true) ∧
    x.k = own.k ∧ x.cmp0 = own.cmp0 ∧ x.zeros = c.zeros.filter (fun p => decide (z < p.z)) ∧
    x.preZ = (if pre < n then 0 else n) ∧ (zeroed = true → x.preP = 0 ∧ x.preC = 0) ∧ (zeroed = false → x.preP = c.preP ∧ x.preC = c.preC) ∧
    (bit (rg s (rHRW_CAR_IRQ a)) 0 = true → pre < n → srcEn s (128 + 4 * a) = true → (intSrc s (128 + 4 * a)).cnt < 255 →
      (intSrc t (128 + 4 * a)).cnt = (intSrc s (128 + 4 * a)).cnt + 1) ∧
    t.cmd = { s.cmd with pend := s.cmd.pend.map (fun e =>
      if (due.map (·.id.ord)).contains e.id.ord && e.op == 0x0305 then
        { e with applied := true, epoch := e0, at_ := some e0, ended := some (cDone, if e.moved then stMoved else stOk) }
      else e) } ∧
    (∀ b, b ≠ a.val → harm t b = harm s b) ∧ harm t a = { harm s a with car := x } ∧ t.hrw.cells = s.hrw.cells) ∧
  (∀ (s : State) (a : Fin 12), (carOf s a).apex = none → exec (.carrierApex a) s = .next s) ∧
  (∀ (s : State) (a : Fin 12) at_, (carOf s a).apex = some at_ → Gives (.carrierApex a) s fun t =>
    let pre := fld (rg s (rHRW_CAR_IRQ a)) 11 8
    let n := (carOf s a).preP + 1
    t.tick = u64 (max (now s) ((at_ + 7) / 8)) ∧ carOf t a = { carOf s a with apex := none, preP := if pre < n then 0 else n } ∧
    (bit (rg s (rHRW_CAR_IRQ a)) 1 = true → pre < n → srcEn s (128 + 4 * a + 1) = true → (intSrc s (128 + 4 * a + 1)).cnt < 255 →
      (intSrc t (128 + 4 * a + 1)).cnt = (intSrc s (128 + 4 * a + 1)).cnt + 1) ∧
    (∀ b, b ≠ a.val → harm t b = harm s b) ∧ t.hrw.cells = s.hrw.cells) ∧
  (∀ (s : State) (a : Fin 12), (carOf s a).edges = [] → exec (.carrierCmpEvent a) s = .next s) ∧
  (∀ (s : State) (a : Fin 12) at_ rest, (carOf s a).edges = at_ :: rest → Gives (.carrierCmpEvent a) s fun t =>
    let pre := fld (rg s (rHRW_CAR_IRQ a)) 15 12
    let n := (carOf s a).preC + 1
    t.tick = u64 (max (now s) ((at_ + 7) / 8)) ∧ carOf t a = { carOf s a with edges := rest, preC := if pre < n then 0 else n } ∧
    (bit (rg s (rHRW_CAR_IRQ a)) 2 = true → pre < n → srcEn s (128 + 4 * a + 2) = true → (intSrc s (128 + 4 * a + 2)).cnt < 255 →
      (intSrc t (128 + 4 * a + 2)).cnt = (intSrc s (128 + 4 * a + 2)).cnt + 1) ∧
    (∀ b, b ≠ a.val → harm t b = harm s b) ∧ t.hrw.cells = s.hrw.cells)
end

