-- ==== Sys2Proof/Laws/Tbl.lean ====
section
/-! SUPPORT. Tables: a read after a write, and that every operation keeps the canonical form. -/

namespace Sys2Proof.Machine

variable {α : Type}

/-- Raising the bound weakens nothing: a table that starts at `lo` starts at every lower bound. -/
theorem tblRising_mono {lo lo' : Nat} {t : Tbl α} (h : lo' ≤ lo) (w : tblRising lo t = true) : tblRising lo' t = true := by
  cases t with
  | nil => rfl
  | cons p t =>
    simp only [tblRising, Bool.and_eq_true, decide_eq_true_eq] at w ⊢
    exact ⟨Nat.le_trans h w.1, w.2⟩

/-- Below its first key a rising table lists nothing. -/
theorem tget_of_rising {lo k : Nat} {d : α} {t : Tbl α} (w : tblRising lo t = true) (h : k < lo) : tget d t k = d := by
  induction t generalizing lo with
  | nil => rfl
  | cons p t ih =>
    simp only [tblRising, Bool.and_eq_true, decide_eq_true_eq] at w
    rw [tget, if_neg (by omega)]
    exact ih w.2 (by omega)

theorem tget_tins_same (d : α) (t : Tbl α) (k : Nat) (v : α) : tget d (tins k v t) k = v := by
  induction t with
  | nil => simp [tins, tget]
  | cons p t ih =>
    simp only [tins]
    split
    · simp [tget]
    · split
      · simp [tget]
      · rw [tget, if_neg (by omega)]; exact ih

theorem tget_tins_ne {d : α} {t : Tbl α} {k k' : Nat} {v : α} (h : k' ≠ k) : tget d (tins k v t) k' = tget d t k' := by
  induction t with
  | nil => simp [tins, tget, Ne.symm h]
  | cons p t ih =>
    simp only [tins]
    split
    · rw [tget, if_neg (Ne.symm h)]
    · split
      · rename_i _ e
        rw [tget, if_neg (Ne.symm h), tget, if_neg (by omega)]
      · simp only [tget]
        split
        · rfl
        · exact ih

theorem tget_tdel_ne {d : α} {t : Tbl α} {k k' : Nat} (h : k' ≠ k) : tget d (tdel k t) k' = tget d t k' := by
  induction t with
  | nil => rfl
  | cons p t ih =>
    simp only [tdel]
    split
    · rw [tget, if_neg (by omega), ih]
    · simp only [tget]
      split
      · rfl
      · exact ih

theorem tget_tdel_same (d : α) (t : Tbl α) (k : Nat) : tget d (tdel k t) k = d := by
  induction t with
  | nil => rfl
  | cons p t ih =>
    simp only [tdel]
    split
    · exact ih
    · rw [tget, if_neg (by omega)]
      exact ih

theorem tblRising_tins {lo k : Nat} {v : α} {t : Tbl α} (hk : lo ≤ k) (w : tblRising lo t = true) :
    tblRising lo (tins k v t) = true := by
  induction t generalizing lo with
  | nil => simp [tins, tblRising, hk]
  | cons p t ih =>
    simp only [tblRising, Bool.and_eq_true, decide_eq_true_eq] at w
    simp only [tins]
    split
    · simp only [tblRising, Bool.and_eq_true, decide_eq_true_eq]
      exact ⟨hk, by omega, w.2⟩
    · split
      · rename_i _ e
        subst e
        simp only [tblRising, Bool.and_eq_true, decide_eq_true_eq]
        exact ⟨hk, w.2⟩
      · simp only [tblRising, Bool.and_eq_true, decide_eq_true_eq]
        exact ⟨w.1, ih (by omega) w.2⟩

theorem tblRising_tdel {lo k : Nat} {t : Tbl α} (w : tblRising lo t = true) : tblRising lo (tdel k t) = true := by
  induction t generalizing lo with
  | nil => rfl
  | cons p t ih =>
    simp only [tblRising, Bool.and_eq_true, decide_eq_true_eq] at w
    simp only [tdel]
    split
    · exact tblRising_mono (by omega) (ih w.2)
    · simp only [tblRising, Bool.and_eq_true, decide_eq_true_eq]
      exact ⟨w.1, ih w.2⟩

theorem tblRising_filter {lo : Nat} {t : Tbl α} (p : Nat × α → Bool) (w : tblRising lo t = true) :
    tblRising lo (t.filter p) = true := by
  induction t generalizing lo with
  | nil => rfl
  | cons q t ih =>
    simp only [tblRising, Bool.and_eq_true, decide_eq_true_eq] at w
    simp only [List.filter_cons]
    split
    · simp only [tblRising, Bool.and_eq_true, decide_eq_true_eq]
      exact ⟨w.1, ih w.2⟩
    · exact tblRising_mono (by omega) (ih w.2)

theorem mem_tins {k : Nat} {v : α} {t : Tbl α} {p : Nat × α} (h : p ∈ tins k v t) : p = (k, v) ∨ p ∈ t := by
  induction t with
  | nil => simpa [tins] using h
  | cons q t ih =>
    simp only [tins] at h
    split at h
    · simpa using h
    · split at h
      · simp only [List.mem_cons] at h ⊢
        exact h.imp id .inr
      · simp only [List.mem_cons] at h ⊢
        rcases h with h | h
        · exact .inr (.inl h)
        · rcases ih h with h | h
          · exact .inl h
          · exact .inr (.inr h)

theorem mem_tdel {k : Nat} {t : Tbl α} {p : Nat × α} (h : p ∈ tdel k t) : p ∈ t := by
  induction t with
  | nil => exact h
  | cons q t ih =>
    simp only [tdel] at h
    split at h
    · exact List.mem_cons_of_mem _ (ih h)
    · simp only [List.mem_cons] at h ⊢
      exact h.imp id ih

/-- Mapping the values of a table, where the default maps to itself. -/
theorem tget_map {d : α} {g : α → α} (hg : g d = d) (t : Tbl α) (k : Nat) :
    tget d (t.map (fun p => (p.1, g p.2))) k = g (tget d t k) := by
  induction t with
  | nil => exact hg.symm
  | cons p t ih =>
    simp only [List.map_cons, tget]
    split
    · rfl
    · exact ih

theorem tblRising_map {lo : Nat} {t : Tbl α} (g : α → α) (w : tblRising lo t = true) :
    tblRising lo (t.map (fun p => (p.1, g p.2))) = true := by
  induction t generalizing lo with
  | nil => rfl
  | cons p t ih =>
    simp only [tblRising, Bool.and_eq_true, decide_eq_true_eq] at w
    simp only [List.map_cons, tblRising, Bool.and_eq_true, decide_eq_true_eq]
    exact ⟨w.1, ih w.2⟩

variable [DecidableEq α]

/-- A write at one key keeps the canonical form. -/
theorem tblWf_tset {d : Nat → α} {t : Tbl α} (k : Nat) (v : α) (w : tblWf d t = true) : tblWf d (tset (d k) t k v) = true := by
  simp only [tblWf, Bool.and_eq_true, List.all_eq_true, decide_eq_true_eq] at w ⊢
  simp only [tset]
  split
  · exact ⟨tblRising_tdel w.1, fun p hp => w.2 p (mem_tdel hp)⟩
  · refine ⟨tblRising_tins (Nat.zero_le _) w.1, fun p hp => ?_⟩
    rcases mem_tins hp with rfl | hp
    · assumption
    · exact w.2 p hp

/-- Dropping entries keeps the canonical form. -/
theorem tblWf_filter {d : Nat → α} {t : Tbl α} (p : Nat × α → Bool) (w : tblWf d t = true) : tblWf d (t.filter p) = true := by
  simp only [tblWf, Bool.and_eq_true, List.all_eq_true, decide_eq_true_eq] at w ⊢
  exact ⟨tblRising_filter p w.1, fun q hq => w.2 q ((List.mem_filter.1 hq).1)⟩

/-- Dropping the entries that hold the default changes no value. -/
theorem tget_filter {d : α} {lo : Nat} {t : Tbl α} (k : Nat) (w : tblRising lo t = true) :
    tget d (t.filter (fun p => p.2 ≠ d)) k = tget d t k := by
  induction t generalizing lo with
  | nil => rfl
  | cons p t ih =>
    simp only [tblRising, Bool.and_eq_true, decide_eq_true_eq] at w
    simp only [List.filter_cons]
    split
    · simp only [tget]
      split
      · rfl
      · exact ih w.2
    · rename_i e
      simp only [ne_eq, decide_not, Bool.not_eq_eq_eq_not, Bool.not_true, decide_eq_false_iff_not, Classical.not_not] at e
      rw [ih w.2, tget]
      split
      · rename_i e'
        rw [e]
        exact tget_of_rising w.2 (by omega)
      · rfl

/-- The canonical form after dropping the entries that hold the default. -/
theorem tblWf_filter_default {d : α} {t : Tbl α} (w : tblRising 0 t = true) :
    tblWf (fun _ => d) (t.filter (fun p => p.2 ≠ d)) = true := by
  simp only [tblWf, Bool.and_eq_true, List.all_eq_true, decide_eq_true_eq]
  exact ⟨tblRising_filter _ w, fun q hq => of_decide_eq_true (List.mem_filter.1 hq).2⟩

/-- A read after a write at the same key. -/
@[simp] theorem tget_tset_same (d : α) (t : Tbl α) (k : Nat) (v : α) : tget d (tset d t k v) k = v := by
  simp only [tset]
  split
  · rename_i e
    subst e
    exact tget_tdel_same v t k
  · exact tget_tins_same d t k v

/-- A read after a write at another key. -/
theorem tget_tset_ne {d d' : α} {t : Tbl α} {k k' : Nat} {v : α} (h : k' ≠ k) : tget d (tset d' t k v) k' = tget d t k' := by
  simp only [tset]
  split
  · exact tget_tdel_ne h
  · exact tget_tins_ne h

end Sys2Proof.Machine
end

