-- ==== Sys2Proof/Laws/Keeps.lean ====
section
/-! SUPPORT. What every operation of the block leaves as it was: one relation, and how it goes from step to step. -/

namespace Sys2Proof.Machine

/-- `t` comes from `s` by an operation that changes the areas `ps` at most, touches neither the queue nor core memory, keeps the register
table canonical, takes no issued host write back, reuses no free value, and keeps the authority slots canonical and lowers no REV_CNT. -/
structure Keeps (ps : List Area) (s t : State) : Prop where
  only : ChangesOnly ps s t
  pending : t.pending = s.pending
  mem : t.mem = s.mem
  regs : tblWf regReset s.regs = true → tblWf regReset t.regs = true
  dma : s.dma <+: t.dma
  freeCtr : s.freeCtr ≤ t.freeCtr
  rev : slotsWf s.std = true → slotsWf t.std = true ∧ ∀ k, revOf s.std k ≤ revOf t.std k

theorem sameArea_refl (p : Area) (s : State) : sameArea p s s := by
  cases p <;> rfl

theorem sameArea_trans {p : Area} {s t u : State} (h : sameArea p s t) (g : sameArea p t u) : sameArea p s u := by
  cases p <;> exact Eq.trans g h

theorem ChangesOnly.refl (ps : List Area) (s : State) : ChangesOnly ps s s := fun p _ => sameArea_refl p s

theorem ChangesOnly.trans {ps : List Area} {s t u : State} (h : ChangesOnly ps s t) (g : ChangesOnly ps t u) : ChangesOnly ps s u :=
  fun p hp => sameArea_trans (h p hp) (g p hp)

theorem ChangesOnly.mono {ps qs : List Area} {s t : State} (h : ChangesOnly qs s t) (hs : qs.all (fun p => ps.contains p) = true) :
    ChangesOnly ps s t := by
  intro p hp
  refine h p ?_
  cases hq : qs.contains p with
  | false => rfl
  | true =>
    have := List.all_eq_true.1 hs p (List.contains_iff_mem.1 hq)
    rw [this] at hp
    cases hp

theorem Keeps.refl (ps : List Area) (s : State) : Keeps ps s s :=
  ⟨ChangesOnly.refl ps s, rfl, rfl, id, List.prefix_refl _, Nat.le_refl _, fun w => ⟨w, fun _ => Nat.le_refl _⟩⟩

/-- One operation after another; the areas that the second changes are among those named. -/
theorem Keeps.step {ps qs : List Area} {s t u : State} (g : Keeps qs t u) (hs : qs.all (fun p => ps.contains p) = true)
    (h : Keeps ps s t) : Keeps ps s u :=
  ⟨h.only.trans (g.only.mono hs), g.pending.trans h.pending, g.mem.trans h.mem, fun w => g.regs (h.regs w), h.dma.trans g.dma,
   Nat.le_trans h.freeCtr g.freeCtr,
   fun w => ⟨(g.rev (h.rev w).1).1, fun k => Nat.le_trans ((h.rev w).2 k) ((g.rev (h.rev w).1).2 k)⟩⟩

theorem sub_self (ps : List Area) : ps.all (fun p => ps.contains p) = true :=
  List.all_eq_true.2 fun _ hp => List.contains_iff_mem.2 hp

theorem Keeps.mono {ps qs : List Area} {s t : State} (h : Keeps qs s t) (hs : qs.all (fun p => ps.contains p) = true) : Keeps ps s t :=
  Keeps.step h hs (Keeps.refl ps s)

theorem sub_of {ps qs rs : List Area} (h : qs.all (fun p => ps.contains p) = true) (hr : rs.all (fun p => qs.contains p) = true) :
    rs.all (fun p => ps.contains p) = true :=
  List.all_eq_true.2 fun p hp => List.all_eq_true.1 h p (List.contains_iff_mem.1 (List.all_eq_true.1 hr p hp))

/-- An update that leaves the queue, memory, registers, issued writes, the counter of free values and the authority slots. -/
theorem Keeps.upd {ps : List Area} {s t : State} (h : Keeps ps s t)
    {tick rdata sys hst flt aut cmd ints cores tsk lpe afe tim fur grn hrw prt snr stk tly dbg eps} {std : Std}
    (hs : std.slots = t.std.slots)
    (ho : ∀ p, ps.contains p = false → sameArea p t (State.mk tick t.regs t.mem t.pending rdata t.dma t.freeCtr sys std hst flt aut cmd
      ints cores tsk lpe afe tim fur grn hrw prt snr stk tly dbg eps)) :
    Keeps ps s (State.mk tick t.regs t.mem t.pending rdata t.dma t.freeCtr sys std hst flt aut cmd ints cores tsk lpe afe tim fur grn hrw
      prt snr stk tly dbg eps) :=
  ⟨h.only.trans ho, h.pending, h.mem, h.regs, h.dma, h.freeCtr, fun w => by
    have := h.rev w
    simpa only [slotsWf, revOf, hs] using this⟩

theorem Keeps.ite {ps : List Area} {s a b : State} {c : Prop} [Decidable c] (ha : Keeps ps s a) (hb : Keeps ps s b) :
    Keeps ps s (if c then a else b) := by
  split
  · exact ha
  · exact hb

theorem Keeps.foldl {ps : List Area} {α : Type} {s t : State} {f : State → α → State} {l : List α} (h : Keeps ps s t)
    (hf : ∀ u a, Keeps ps s u → Keeps ps s (f u a)) : Keeps ps s (l.foldl f t) := by
  induction l generalizing t with
  | nil => exact h
  | cons a l ih => exact ih (hf _ _ h)

/-- A pass that carries a value beside the state. -/
theorem Keeps.foldl1 {ps : List Area} {α β : Type} {s : State} {f : State × β → α → State × β} {l : List α} {x : State × β}
    (h : Keeps ps s x.1) (hf : ∀ y a, Keeps ps s y.1 → Keeps ps s (f y a).1) : Keeps ps s (l.foldl f x).1 := by
  induction l generalizing x with
  | nil => exact h
  | cons a l ih => exact ih (hf _ _ h)

end Sys2Proof.Machine
end

