-- ==== Sys2Proof/Laws/KeepsHost.lean ====
section
/-! SUPPORT. What every operation of the shared operations, the host port, the interrupt controller, Tally, the claims, TSK, AUT and Snare leaves as it was (Keeps): each lemma names the areas of
the state that the operation may change; the queue, core memory, the canonical forms, issued host writes, the free values drawn and REV_CNT
are kept by all. -/

set_option linter.unusedTactic false
set_option linter.unreachableTactic false

namespace Sys2Proof.Machine

theorem wr_keeps {ps : List Area} {s t : State} {x1 : Nat} {x2 : U32} (h : Keeps ps s t)
    (hs : ([.regs] : List Area).all (fun p => ps.contains p) = true) : Keeps ps s (wr t x1 x2) :=
  Keeps.step (t := t) ⟨by intro p hp; cases p <;> first | (exact absurd hp (by decide)) | rfl, rfl, rfl, fun w => tblWf_tset _ _ w,
    List.prefix_refl _, Nat.le_refl _, fun w => ⟨w, fun _ => Nat.le_refl _⟩⟩ hs h

theorem setEvt_keeps {ps : List Area} {s t : State} {x1 : Nat} {x2 : U32} (h : Keeps ps s t)
    (hs : ([.regs] : List Area).all (fun p => ps.contains p) = true) : Keeps ps s (setEvt t x1 x2) := by
  refine Keeps.step ?_ hs h
  unfold setEvt
  try dsimp only
  repeat' with_reducible (first | exact Keeps.refl _ _ | assumption | decide | apply wr_keeps | apply Keeps.ite | split)

theorem count_keeps {ps : List Area} {s t : State} {x1 : Nat} {x2 : Nat} (h : Keeps ps s t)
    (hs : ([.regs] : List Area).all (fun p => ps.contains p) = true) : Keeps ps s (count t x1 x2) := by
  refine Keeps.step ?_ hs h
  unfold count
  try dsimp only
  repeat' with_reducible (first | exact Keeps.refl _ _ | assumption | decide | apply wr_keeps | apply Keeps.ite | split)

theorem yieldCount_keeps {ps : List Area} {s t : State} {x1 : Nat} (h : Keeps ps s t)
    (hs : ([.regs] : List Area).all (fun p => ps.contains p) = true) : Keeps ps s (yieldCount t x1) := by
  refine Keeps.step ?_ hs h
  unfold yieldCount
  try dsimp only
  repeat' with_reducible (first | exact Keeps.refl _ _ | assumption | decide | apply count_keeps | apply Keeps.ite | split)

theorem tlyDevK_keeps {ps : List Area} {s t : State} {x1 : Nat} {x2 : Nat} {x3 : Nat} (h : Keeps ps s t)
    (hs : ([.tly] : List Area).all (fun p => ps.contains p) = true) : Keeps ps s (tlyDevK x1 x2 t x3) := by
  refine Keeps.step ?_ hs h
  unfold tlyDevK
  try dsimp only
  repeat' with_reducible (first
    | exact Keeps.refl _ _ | assumption | apply Keeps.ite
    | (fail_if_no_progress refine Keeps.upd ?_ rfl (by intro p hp; cases p <;> first | (exact absurd hp (by decide)) | rfl)) | split)

theorem tlyDev_keeps {ps : List Area} {s t : State} {x1 : Nat} {x2 : Nat} (h : Keeps ps s t)
    (hs : ([.tly] : List Area).all (fun p => ps.contains p) = true) : Keeps ps s (tlyDev x1 x2 t) := by
  refine Keeps.step ?_ hs h
  unfold tlyDev
  try dsimp only
  repeat' with_reducible (first
    | exact Keeps.refl _ _ | assumption | decide | apply tlyDevK_keeps | apply Keeps.ite
    | (refine Keeps.foldl ?_ (fun u y hu => ?_) <;> try dsimp only) | split)

theorem advanceTo_keeps {ps : List Area} {s t : State} {x1 : Nat} (h : Keeps ps s t)
    (hs : ([.tick, .tly] : List Area).all (fun p => ps.contains p) = true) : Keeps ps s (advanceTo t x1) := by
  refine Keeps.step ?_ hs h
  unfold advanceTo
  try dsimp only
  repeat' with_reducible (first
    | exact Keeps.refl _ _ | assumption | decide | apply tlyDev_keeps | apply Keeps.ite
    | (fail_if_no_progress refine Keeps.upd ?_ rfl (by intro p hp; cases p <;> first | (exact absurd hp (by decide)) | rfl)) | split)

theorem draw_keeps {ps : List Area} {s t : State} {α : Type} {x1 : Nat → α} (h : Keeps ps s t)
    (hs : ([.freeCtr] : List Area).all (fun p => ps.contains p) = true) : Keeps ps s (draw x1 t).2 :=
  Keeps.step (t := t) ⟨by intro p hp; cases p <;> first | (exact absurd hp (by decide)) | rfl, rfl, rfl, id, List.prefix_refl _,
    Nat.le_succ _, fun w => ⟨w, fun _ => Nat.le_refl _⟩⟩ hs h

theorem draw_keeps' {ps : List Area} {s t : State} {α : Type} {x1 : Nat → α} {y0 : α} {y1 : State} (h : Keeps ps s t)
    (hs : ([.freeCtr] : List Area).all (fun p => ps.contains p) = true) (e : draw x1 t = (y0, y1)) : Keeps ps s y1 := by
  have k := draw_keeps (t := t) (x1 := x1) h hs
  rw [e] at k
  exact k

theorem report_keeps {ps : List Area} {s t : State} {x1 : U16} {x2 : Nat} (h : Keeps ps s t)
    (hs : ([.flt] : List Area).all (fun p => ps.contains p) = true) : Keeps ps s (report t x1 x2) := by
  refine Keeps.step ?_ hs h
  unfold report
  try dsimp only
  repeat' with_reducible (first
    | exact Keeps.refl _ _ | assumption | apply Keeps.ite
    | (fail_if_no_progress refine Keeps.upd ?_ rfl (by intro p hp; cases p <;> first | (exact absurd hp (by decide)) | rfl)) | split)

theorem setCmdRing_keeps {ps : List Area} {s t : State} {x1 : Nat} {x2 : CmdRing} (h : Keeps ps s t)
    (hs : ([.hst] : List Area).all (fun p => ps.contains p) = true) : Keeps ps s (setCmdRing t x1 x2) := by
  refine Keeps.step ?_ hs h
  unfold setCmdRing
  try dsimp only
  repeat' with_reducible (first
    | exact Keeps.refl _ _ | assumption | apply Keeps.ite
    | (fail_if_no_progress refine Keeps.upd ?_ rfl (by intro p hp; cases p <;> first | (exact absurd hp (by decide)) | rfl)) | split)

theorem setCplRing_keeps {ps : List Area} {s t : State} {x1 : Nat} {x2 : CplRing} (h : Keeps ps s t)
    (hs : ([.hst] : List Area).all (fun p => ps.contains p) = true) : Keeps ps s (setCplRing t x1 x2) := by
  refine Keeps.step ?_ hs h
  unfold setCplRing
  try dsimp only
  repeat' with_reducible (first
    | exact Keeps.refl _ _ | assumption | apply Keeps.ite
    | (fail_if_no_progress refine Keeps.upd ?_ rfl (by intro p hp; cases p <;> first | (exact absurd hp (by decide)) | rfl)) | split)

theorem raiseEvent_keeps {ps : List Area} {s t : State} {x1 : U16} {x2 : U16} {x3 : Nat} {x4 : Bool} {x5 : Bytes} (h : Keeps ps s t)
    (hs : ([.regs, .hst] : List Area).all (fun p => ps.contains p) = true) : Keeps ps s (raiseEvent t x1 x2 x3 x4 x5) := by
  refine Keeps.step ?_ hs h
  unfold raiseEvent
  try dsimp only
  repeat' with_reducible (first
    | exact Keeps.refl _ _ | assumption | decide | apply setEvt_keeps | apply count_keeps | apply Keeps.ite
    | (fail_if_no_progress refine Keeps.upd ?_ rfl (by intro p hp; cases p <;> first | (exact absurd hp (by decide)) | rfl)) | split)

theorem postCpl_keeps {ps : List Area} {s t : State} {x1 : Cpl} (h : Keeps ps s t)
    (hs : ([.hst] : List Area).all (fun p => ps.contains p) = true) : Keeps ps s (postCpl t x1) := by
  refine Keeps.step ?_ hs h
  unfold postCpl
  try dsimp only
  repeat' with_reducible (first
    | exact Keeps.refl _ _ | assumption | apply Keeps.ite
    | (fail_if_no_progress refine Keeps.upd ?_ rfl (by intro p hp; cases p <;> first | (exact absurd hp (by decide)) | rfl)) | split)

theorem dmaPut_keeps {t : State} {x1 : List HostWrite} : Keeps [.dma] t { t with dma := t.dma ++ x1 } :=
  ⟨by intro p hp; cases p <;> first | (exact absurd hp (by decide)) | rfl, rfl, rfl, id, List.prefix_append _ _, Nat.le_refl _,
   fun w => ⟨w, fun _ => Nat.le_refl _⟩⟩

theorem dmaWrite_keeps {ps : List Area} {s t : State} {x1 : List HostWrite} (h : Keeps ps s t)
    (hs : ([.dma, .tly] : List Area).all (fun p => ps.contains p) = true) : Keeps ps s (dmaWrite t x1) := by
  unfold dmaWrite
  exact Keeps.step dmaPut_keeps (sub_of hs (by decide)) (tlyDev_keeps h (sub_of hs (by decide)))

theorem plainWrite_keeps {ps : List Area} {s t : State} {x1 : Nat} {x2 : U32} (h : Keeps ps s t)
    (hs : ([.regs] : List Area).all (fun p => ps.contains p) = true) : Keeps ps s (plainWrite x1 x2 t) := by
  refine Keeps.step ?_ hs h
  unfold plainWrite
  try dsimp only
  repeat' with_reducible (first | exact Keeps.refl _ _ | assumption | decide | apply wr_keeps | apply Keeps.ite | split)

theorem resetRegs_keeps {ps : List Area} {s t : State} {x1 : Nat → Bool} (h : Keeps ps s t)
    (hs : ([.regs] : List Area).all (fun p => ps.contains p) = true) : Keeps ps s (resetRegs x1 t) :=
  Keeps.step (t := t) ⟨by intro p hp; cases p <;> first | (exact absurd hp (by decide)) | rfl, rfl, rfl, fun w => tblWf_filter _ w,
    List.prefix_refl _, Nat.le_refl _, fun w => ⟨w, fun _ => Nat.le_refl _⟩⟩ hs h

theorem guardWrite_next {ps : List Area} {s t u : State} {b : Bus} {o : Nat} {v : U32} {f : State → State} (h : Keeps ps s t)
    (hf : Keeps ps s (f t)) (e : guardWrite t b o v f = .next u) : Keeps ps s u := by
  unfold guardWrite at e
  split at e
  · injection e with e; exact e ▸ h
  · split at e
    · injection e with e; exact e ▸ h
    · split at e
      · cases e
      · injection e with e; exact e ▸ hf

theorem coreOnlyWrite_next {ps : List Area} {s t u : State} {b : Bus} {o : Nat} {v : U32} {f : State → State} (h : Keeps ps s t)
    (hf : Keeps ps s (f t)) (e : coreOnlyWrite b o v f t = .next u) : Keeps ps s u := by
  unfold coreOnlyWrite at e
  split at e
  · exact guardWrite_next h hf e
  · injection e with e; exact e ▸ h

theorem ringStop_keeps {ps : List Area} {s t : State} {x1 : Nat} (h : Keeps ps s t)
    (hs : ([.hst, .grn] : List Area).all (fun p => ps.contains p) = true) : Keeps ps s (ringStop t x1) := by
  refine Keeps.step ?_ hs h
  unfold ringStop
  try dsimp only
  repeat' with_reducible (first
    | exact Keeps.refl _ _ | assumption | decide | apply setCmdRing_keeps | apply setCplRing_keeps | apply Keeps.ite
    | (fail_if_no_progress refine Keeps.upd ?_ rfl (by intro p hp; cases p <;> first | (exact absurd hp (by decide)) | rfl)) | split)

theorem ringCfgWrite_keeps {ps : List Area} {s t : State} {x1 : Nat} {x2 : U32} (h : Keeps ps s t)
    (hs : ([.regs, .hst, .grn] : List Area).all (fun p => ps.contains p) = true) : Keeps ps s (ringCfgWrite x1 x2 t) := by
  refine Keeps.step ?_ hs h
  unfold ringCfgWrite
  try dsimp only
  repeat' with_reducible (first
    | exact Keeps.refl _ _ | assumption | decide | apply ringStop_keeps | apply wr_keeps | apply setEvt_keeps | apply Keeps.ite
    | (fail_if_no_progress refine Keeps.upd ?_ rfl (by intro p hp; cases p <;> first | (exact absurd hp (by decide)) | rfl)) | split)

theorem ringBaseWrite_keeps {ps : List Area} {s t : State} {x1 : Nat} {x2 : Nat} {x3 : U32} (h : Keeps ps s t)
    (hs : ([.regs] : List Area).all (fun p => ps.contains p) = true) : Keeps ps s (ringBaseWrite x1 x2 x3 t) := by
  refine Keeps.step ?_ hs h
  unfold ringBaseWrite
  try dsimp only
  repeat' with_reducible (first | exact Keeps.refl _ _ | assumption | decide | apply plainWrite_keeps | apply Keeps.ite | split)

theorem doorbell_keeps {ps : List Area} {s t : State} {x1 : Nat} {x2 : U32} (h : Keeps ps s t)
    (hs : ([.regs, .hst, .flt] : List Area).all (fun p => ps.contains p) = true) : Keeps ps s (doorbell x1 x2 t) := by
  refine Keeps.step ?_ hs h
  unfold doorbell
  try dsimp only
  repeat' with_reducible (first
    | exact Keeps.refl _ _ | assumption | decide | apply setCmdRing_keeps | apply setCplRing_keeps | apply wr_keeps | apply count_keeps
    | apply report_keeps | apply setEvt_keeps | apply Keeps.ite
    | (fail_if_no_progress refine Keeps.upd ?_ rfl (by intro p hp; cases p <;> first | (exact absurd hp (by decide)) | rfl)) | split)

theorem badAccess_keeps {ps : List Area} {s t : State} {x1 : Bool} (h : Keeps ps s t)
    (hs : ([.rdata, .flt] : List Area).all (fun p => ps.contains p) = true) : Keeps ps s (badAccess x1 t) := by
  refine Keeps.step ?_ hs h
  unfold badAccess
  try dsimp only
  repeat' with_reducible (first
    | exact Keeps.refl _ _ | assumption | decide | apply report_keeps | apply Keeps.ite
    | (fail_if_no_progress refine Keeps.upd ?_ rfl (by intro p hp; cases p <;> first | (exact absurd hp (by decide)) | rfl)) | split)

theorem bar2Write_keeps {ps : List Area} {s t : State} {x1 : Nat} {x2 : U32} (h : Keeps ps s t)
    (hs : ([.regs, .hst, .flt] : List Area).all (fun p => ps.contains p) = true) : Keeps ps s (bar2Write x1 x2 t) := by
  unfold bar2Write
  split
  · exact report_keeps h (sub_of hs (by decide))
  · split
    · exact h
    · exact Keeps.ite h (doorbell_keeps h hs)

theorem fetchMore_keeps {ps : List Area} {s t : State} {x1 : Nat} (h : Keeps ps s t)
    (hs : ([.hst] : List Area).all (fun p => ps.contains p) = true) : Keeps ps s (fetchMore x1 t) := by
  refine Keeps.step ?_ hs h
  unfold fetchMore
  try dsimp only
  repeat' with_reducible (first
    | exact Keeps.refl _ _ | assumption | decide | apply setCmdRing_keeps | apply Keeps.ite
    | (fail_if_no_progress refine Keeps.upd ?_ rfl (by intro p hp; cases p <;> first | (exact absurd hp (by decide)) | rfl)) | split)

theorem fetchDone_keeps {ps : List Area} {s t : State} {x1 : Nat} {x2 : Bytes} (h : Keeps ps s t)
    (hs : ([.hst, .tly] : List Area).all (fun p => ps.contains p) = true) : Keeps ps s (fetchDone x1 x2 t) := by
  refine Keeps.step ?_ hs h
  unfold fetchDone
  try dsimp only
  repeat' with_reducible (first
    | exact Keeps.refl _ _ | assumption | decide | apply fetchMore_keeps | apply setCmdRing_keeps | apply tlyDev_keeps | apply Keeps.ite
    | split | (fail_if_no_progress refine Keeps.upd ?_ rfl (by intro p hp; cases p <;> first | (exact absurd hp (by decide)) | rfl)))

theorem fetchFail_keeps {ps : List Area} {s t : State} {x1 : Nat} {x2 : Nat} (h : Keeps ps s t)
    (hs : ([.regs, .hst, .flt] : List Area).all (fun p => ps.contains p) = true) : Keeps ps s (fetchFail x1 x2 t) := by
  refine Keeps.step ?_ hs h
  unfold fetchFail
  try dsimp only
  repeat' with_reducible (first
    | exact Keeps.refl _ _ | assumption | decide | apply postCpl_keeps | apply setCmdRing_keeps | apply report_keeps | apply setEvt_keeps
    | apply Keeps.ite | split
    | (fail_if_no_progress refine Keeps.upd ?_ rfl (by intro p hp; cases p <;> first | (exact absurd hp (by decide)) | rfl)))

theorem hstRestart_keeps {ps : List Area} {s t : State} {x1 : U32} (h : Keeps ps s t)
    (hs : ([.hst] : List Area).all (fun p => ps.contains p) = true) : Keeps ps s (hstRestart x1 t) := by
  refine Keeps.step ?_ hs h
  unfold hstRestart
  try dsimp only
  repeat' with_reducible (first
    | exact Keeps.refl _ _ | assumption | decide | apply setCmdRing_keeps | apply Keeps.ite
    | (refine Keeps.foldl ?_ (fun u y hu => ?_) <;> try dsimp only)
    | (fail_if_no_progress refine Keeps.upd ?_ rfl (by intro p hp; cases p <;> first | (exact absurd hp (by decide)) | rfl)) | split)

theorem completionWrite_keeps {ps : List Area} {s t : State} {x1 : Nat} (h : Keeps ps s t)
    (hs : ([.regs, .dma, .hst, .aut, .tly] : List Area).all (fun p => ps.contains p) = true) : Keeps ps s (completionWrite x1 t) := by
  refine Keeps.step ?_ hs h
  unfold completionWrite
  try dsimp only
  repeat' with_reducible (first
    | exact Keeps.refl _ _ | assumption | decide | apply setCmdRing_keeps | apply setEvt_keeps | apply count_keeps | apply dmaWrite_keeps
    | apply setCplRing_keeps | apply Keeps.ite | split
    | (fail_if_no_progress refine Keeps.upd ?_ rfl (by intro p hp; cases p <;> first | (exact absurd hp (by decide)) | rfl)))

theorem eventWrite_keeps {ps : List Area} {s t : State} (h : Keeps ps s t)
    (hs : ([.regs, .dma, .hst, .tly] : List Area).all (fun p => ps.contains p) = true) : Keeps ps s (eventWrite t) := by
  refine Keeps.step ?_ hs h
  unfold eventWrite
  try dsimp only
  repeat' with_reducible (first
    | exact Keeps.refl _ _ | assumption | decide | apply dmaWrite_keeps | apply setEvt_keeps | apply count_keeps | apply Keeps.ite
    | split | (fail_if_no_progress refine Keeps.upd ?_ rfl (by intro p hp; cases p <;> first | (exact absurd hp (by decide)) | rfl)))

theorem indexBlockWrite_keeps {ps : List Area} {s t : State} (h : Keeps ps s t)
    (hs : ([.dma, .hst, .tly] : List Area).all (fun p => ps.contains p) = true) : Keeps ps s (indexBlockWrite t) := by
  refine Keeps.step ?_ hs h
  unfold indexBlockWrite
  try dsimp only
  repeat' with_reducible (first
    | exact Keeps.refl _ _ | assumption | decide | apply dmaWrite_keeps | apply Keeps.ite
    | (fail_if_no_progress refine Keeps.upd ?_ rfl (by intro p hp; cases p <;> first | (exact absurd hp (by decide)) | rfl)) | split)

theorem ringLinkDown_keeps {ps : List Area} {s t : State} {x1 : Nat} (h : Keeps ps s t)
    (hs : ([.hst] : List Area).all (fun p => ps.contains p) = true) : Keeps ps s (ringLinkDown t x1) := by
  refine Keeps.step ?_ hs h
  unfold ringLinkDown
  try dsimp only
  repeat' with_reducible (first
    | exact Keeps.refl _ _ | assumption | decide | apply setCmdRing_keeps | apply setCplRing_keeps | apply Keeps.ite
    | (fail_if_no_progress refine Keeps.upd ?_ rfl (by intro p hp; cases p <;> first | (exact absurd hp (by decide)) | rfl)) | split)

theorem linkDown_keeps {ps : List Area} {s t : State} (h : Keeps ps s t)
    (hs : ([.regs, .hst, .flt] : List Area).all (fun p => ps.contains p) = true) : Keeps ps s (linkDown t) := by
  refine Keeps.step ?_ hs h
  unfold linkDown
  try dsimp only
  repeat' with_reducible (first
    | exact Keeps.refl _ _ | assumption | decide | apply ringLinkDown_keeps | apply linkUp_keeps | apply report_keeps
    | apply setEvt_keeps | apply Keeps.ite | (refine Keeps.foldl ?_ (fun u y hu => ?_) <;> try dsimp only)
    | (fail_if_no_progress refine Keeps.upd ?_ rfl (by intro p hp; cases p <;> first | (exact absurd hp (by decide)) | rfl)) | split)

theorem hstRingReset_keeps {ps : List Area} {s t : State} (h : Keeps ps s t)
    (hs : ([.regs, .hst, .flt, .grn] : List Area).all (fun p => ps.contains p) = true) : Keeps ps s (hstRingReset t) := by
  refine Keeps.step ?_ hs h
  unfold hstRingReset
  try dsimp only
  repeat' with_reducible (first
    | exact Keeps.refl _ _ | assumption | decide | apply linkDown_keeps | apply Keeps.ite
    | (refine Keeps.foldl ?_ (fun u y hu => ?_) <;> try dsimp only)
    | (fail_if_no_progress refine Keeps.upd ?_ rfl (by intro p hp; cases p <;> first | (exact absurd hp (by decide)) | rfl)) | split)

theorem hotReset_keeps {ps : List Area} {s t : State} (h : Keeps ps s t)
    (hs : ([.regs, .hst, .flt, .grn] : List Area).all (fun p => ps.contains p) = true) : Keeps ps s (hotReset t) := by
  refine Keeps.step ?_ hs h
  unfold hotReset
  try dsimp only
  repeat' with_reducible (first
    | exact Keeps.refl _ _ | assumption | decide | apply setEvt_keeps | apply hstRingReset_keeps | apply Keeps.ite | split)

theorem linkUp_keeps {ps : List Area} {s t : State} {x1 : Nat} {x2 : Nat} (h : Keeps ps s t)
    (hs : ([.regs, .hst, .flt] : List Area).all (fun p => ps.contains p) = true) : Keeps ps s (linkUp x1 x2 t) := by
  refine Keeps.step ?_ hs h
  unfold linkUp
  try dsimp only
  repeat' with_reducible (first
    | exact Keeps.refl _ _ | assumption | decide | apply linkDown_keeps | apply Keeps.ite
    | (fail_if_no_progress refine Keeps.upd ?_ rfl (by intro p hp; cases p <;> first | (exact absurd hp (by decide)) | rfl)) | split)

theorem setCore_keeps {ps : List Area} {s t : State} {x1 : Nat} {x2 : Core} (h : Keeps ps s t)
    (hs : ([.cores] : List Area).all (fun p => ps.contains p) = true) : Keeps ps s (setCore t x1 x2) := by
  refine Keeps.step ?_ hs h
  unfold setCore
  try dsimp only
  repeat' with_reducible (first
    | exact Keeps.refl _ _ | assumption | apply Keeps.ite
    | (fail_if_no_progress refine Keeps.upd ?_ rfl (by intro p hp; cases p <;> first | (exact absurd hp (by decide)) | rfl)) | split)

theorem setIntSrc_keeps {ps : List Area} {s t : State} {x1 : Nat} {x2 : IntSrc} (h : Keeps ps s t)
    (hs : ([.ints] : List Area).all (fun p => ps.contains p) = true) : Keeps ps s (setIntSrc t x1 x2) := by
  refine Keeps.step ?_ hs h
  unfold setIntSrc
  try dsimp only
  repeat' with_reducible (first
    | exact Keeps.refl _ _ | assumption | apply Keeps.ite
    | (fail_if_no_progress refine Keeps.upd ?_ rfl (by intro p hp; cases p <;> first | (exact absurd hp (by decide)) | rfl)) | split)

theorem latchCore_keeps {ps : List Area} {s t : State} {x1 : Nat} (h : Keeps ps s t)
    (hs : ([.cores] : List Area).all (fun p => ps.contains p) = true) : Keeps ps s (latchCore t x1) := by
  refine Keeps.step ?_ hs h
  unfold latchCore
  try dsimp only
  repeat' with_reducible (first
    | exact Keeps.refl _ _ | assumption | decide | apply setCore_keeps | apply Keeps.ite
    | (fail_if_no_progress refine Keeps.upd ?_ rfl (by intro p hp; cases p <;> first | (exact absurd hp (by decide)) | rfl)) | split)

theorem intEdge_keeps {ps : List Area} {s t : State} {x1 : Nat} (h : Keeps ps s t)
    (hs : ([.regs, .flt, .ints, .cores] : List Area).all (fun p => ps.contains p) = true) : Keeps ps s (intEdge t x1) := by
  refine Keeps.step ?_ hs h
  unfold intEdge
  try dsimp only
  repeat' with_reducible (first
    | exact Keeps.refl _ _ | assumption | decide | apply latchCore_keeps | apply setIntSrc_keeps | apply report_keeps
    | apply setEvt_keeps | apply Keeps.ite
    | (fail_if_no_progress refine Keeps.upd ?_ rfl (by intro p hp; cases p <;> first | (exact absurd hp (by decide)) | rfl)) | split)

theorem intEdges_keeps {ps : List Area} {s t : State} {x1 : List Nat} (h : Keeps ps s t)
    (hs : ([.regs, .flt, .ints, .cores] : List Area).all (fun p => ps.contains p) = true) : Keeps ps s (intEdges t x1) := by
  refine Keeps.step ?_ hs h
  unfold intEdges
  try dsimp only
  repeat' with_reducible (first
    | exact Keeps.refl _ _ | assumption | decide | apply intEdge_keeps | apply Keeps.ite
    | (refine Keeps.foldl ?_ (fun u y hu => ?_) <;> try dsimp only) | split)

theorem setTlyCore_keeps {ps : List Area} {s t : State} {x1 : Nat} {x2 : TlyCore} (h : Keeps ps s t)
    (hs : ([.tly] : List Area).all (fun p => ps.contains p) = true) : Keeps ps s (setTlyCore t x1 x2) := by
  refine Keeps.step ?_ hs h
  unfold setTlyCore
  try dsimp only
  repeat' with_reducible (first
    | exact Keeps.refl _ _ | assumption | apply Keeps.ite
    | (fail_if_no_progress refine Keeps.upd ?_ rfl (by intro p hp; cases p <;> first | (exact absurd hp (by decide)) | rfl)) | split)

theorem tlySet_keeps {ps : List Area} {s t : State} {x1 : Nat} {x2 : Nat} {x3 : BitVec 48} (h : Keeps ps s t)
    (hs : ([.tly] : List Area).all (fun p => ps.contains p) = true) : Keeps ps s (tlySet x1 x2 x3 t) := by
  refine Keeps.step ?_ hs h
  unfold tlySet
  try dsimp only
  repeat' with_reducible (first
    | exact Keeps.refl _ _ | assumption | decide | apply setTlyCore_keeps | apply Keeps.ite
    | (fail_if_no_progress refine Keeps.upd ?_ rfl (by intro p hp; cases p <;> first | (exact absurd hp (by decide)) | rfl)) | split)

theorem tlySelect_keeps {ps : List Area} {s t : State} {x1 : Nat} {x2 : Nat} {x3 : U64} (h : Keeps ps s t)
    (hs : ([.tly] : List Area).all (fun p => ps.contains p) = true) : Keeps ps s (tlySelect x1 x2 x3 t) := by
  refine Keeps.step ?_ hs h
  unfold tlySelect
  try dsimp only
  repeat' with_reducible (first
    | exact Keeps.refl _ _ | assumption | decide | apply tlySet_keeps | apply setTlyCore_keeps | apply Keeps.ite
    | (fail_if_no_progress refine Keeps.upd ?_ rfl (by intro p hp; cases p <;> first | (exact absurd hp (by decide)) | rfl)) | split)

theorem smpHost_keeps {ps : List Area} {s t : State} {x1 : Nat} {x2 : Bool} {x3 : U64 × U64 × U64 × U64} (h : Keeps ps s t)
    (hs : ([.regs, .dma, .flt, .tly] : List Area).all (fun p => ps.contains p) = true) : Keeps ps s (smpHost x1 x2 x3 t) := by
  refine Keeps.step ?_ hs h
  unfold smpHost
  try dsimp only
  repeat' with_reducible (first
    | exact Keeps.refl _ _ | assumption | decide | apply report_keeps | apply yieldCount_keeps | apply setEvt_keeps | apply count_keeps
    | apply dmaWrite_keeps | apply Keeps.ite
    | (fail_if_no_progress refine Keeps.upd ?_ rfl (by intro p hp; cases p <;> first | (exact absurd hp (by decide)) | rfl)) | split)

theorem smpKeep_keeps {ps : List Area} {s t : State} {x1 : Nat} {x2 : U64 × U64 × U64 × U64} (h : Keeps ps s t)
    (hs : ([.regs, .flt, .ints, .cores, .tly] : List Area).all (fun p => ps.contains p) = true) : Keeps ps s (smpKeep x1 x2 t) := by
  refine Keeps.step ?_ hs h
  unfold smpKeep
  try dsimp only
  repeat' with_reducible (first
    | exact Keeps.refl _ _ | assumption | decide | apply setTlyCore_keeps | apply intEdge_keeps | apply setEvt_keeps | apply Keeps.ite
    | (fail_if_no_progress refine Keeps.upd ?_ rfl (by intro p hp; cases p <;> first | (exact absurd hp (by decide)) | rfl)) | split)

theorem takeSample_keeps {ps : List Area} {s t : State} {x1 : Nat} {x2 : Nat} {x3 : SmpInstr} {x4 : Bool} (h : Keeps ps s t)
    (hs : ([.regs, .dma, .flt, .ints, .cores, .tly] : List Area).all (fun p => ps.contains p) = true)
        : Keeps ps s (takeSample x1 x2 x3 x4 t) := by
  refine Keeps.step ?_ hs h
  unfold takeSample
  try dsimp only
  repeat' with_reducible (first
    | exact Keeps.refl _ _ | assumption | decide | apply setTlyCore_keeps | apply smpHost_keeps | apply smpKeep_keeps | apply Keeps.ite
    | (fail_if_no_progress refine Keeps.upd ?_ rfl (by intro p hp; cases p <;> first | (exact absurd hp (by decide)) | rfl)) | split)

theorem counterWrap_keeps {ps : List Area} {s t : State} {x1 : Nat} {x2 : Nat} {x3 : SmpInstr} {x4 : Bool} (h : Keeps ps s t)
    (hs : ([.regs, .dma, .flt, .ints, .cores, .tly] : List Area).all (fun p => ps.contains p) = true)
        : Keeps ps s (counterWrap x1 x2 x3 x4 t) := by
  refine Keeps.step ?_ hs h
  unfold counterWrap
  try dsimp only
  repeat' with_reducible (first
    | exact Keeps.refl _ _ | assumption | decide | apply setTlyCore_keeps | apply setEvt_keeps | apply takeSample_keeps
    | apply intEdge_keeps | apply Keeps.ite
    | (fail_if_no_progress refine Keeps.upd ?_ rfl (by intro p hp; cases p <;> first | (exact absurd hp (by decide)) | rfl)) | split)

theorem tlyCountK_keeps {ps : List Area} {s t : State} {x1 : Nat} {x2 : Nat} {x3 : Nat} (h : Keeps ps s t)
    (hs : ([.regs, .dma, .freeCtr, .flt, .ints, .cores, .tly] : List Area).all (fun p => ps.contains p) = true)
        : Keeps ps s (tlyCountK x1 x2 t x3) := by
  refine Keeps.step ?_ hs h
  unfold tlyCountK
  try dsimp only
  repeat' with_reducible (first
    | exact Keeps.refl _ _ | assumption | decide | refine draw_keeps' ?_ ?_ (by assumption) | apply draw_keeps | apply counterWrap_keeps
    | apply setTlyCore_keeps | apply Keeps.ite | split
    | (fail_if_no_progress refine Keeps.upd ?_ rfl (by intro p hp; cases p <;> first | (exact absurd hp (by decide)) | rfl)))

theorem tlyCount_keeps {ps : List Area} {s t : State} {x1 : Nat} {x2 : Nat} (h : Keeps ps s t)
    (hs : ([.regs, .dma, .freeCtr, .flt, .ints, .cores, .tly] : List Area).all (fun p => ps.contains p) = true)
        : Keeps ps s (tlyCount x1 x2 t) := by
  refine Keeps.step ?_ hs h
  unfold tlyCount
  try dsimp only
  repeat' with_reducible (first
    | exact Keeps.refl _ _ | assumption | decide | apply tlyCountK_keeps | apply Keeps.ite
    | (refine Keeps.foldl ?_ (fun u y hu => ?_) <;> try dsimp only) | split)

theorem busLoad_keeps {ps : List Area} {s t : State} {x1 : Bus} (h : Keeps ps s t)
    (hs : ([.regs, .dma, .freeCtr, .flt, .ints, .cores, .tly] : List Area).all (fun p => ps.contains p) = true)
        : Keeps ps s (busLoad x1 t) := by
  refine Keeps.step ?_ hs h
  unfold busLoad
  try dsimp only
  repeat' with_reducible (first
    | exact Keeps.refl _ _ | assumption | decide | apply tlyCount_keeps | apply Keeps.ite | split
    | (fail_if_no_progress refine Keeps.upd ?_ rfl (by intro p hp; cases p <;> first | (exact absurd hp (by decide)) | rfl)))

theorem smpClear_keeps {ps : List Area} {s t : State} {x1 : Nat} (h : Keeps ps s t)
    (hs : ([.tly] : List Area).all (fun p => ps.contains p) = true) : Keeps ps s (smpClear x1 t) := by
  refine Keeps.step ?_ hs h
  unfold smpClear
  try dsimp only
  repeat' with_reducible (first
    | exact Keeps.refl _ _ | assumption | decide | apply setTlyCore_keeps | apply Keeps.ite
    | (fail_if_no_progress refine Keeps.upd ?_ rfl (by intro p hp; cases p <;> first | (exact absurd hp (by decide)) | rfl)) | split)

theorem smplWrite_keeps {ps : List Area} {s t : State} {x1 : Nat} {x2 : U64} (h : Keeps ps s t)
    (hs : ([.tly] : List Area).all (fun p => ps.contains p) = true) : Keeps ps s (smplWrite x1 x2 t) := by
  refine Keeps.step ?_ hs h
  unfold smplWrite
  try dsimp only
  repeat' with_reducible (first
    | exact Keeps.refl _ _ | assumption | decide | apply setTlyCore_keeps | apply smpClear_keeps | apply Keeps.ite
    | (fail_if_no_progress refine Keeps.upd ?_ rfl (by intro p hp; cases p <;> first | (exact absurd hp (by decide)) | rfl)) | split)

theorem ovfClear_keeps {ps : List Area} {s t : State} {x1 : Nat} {x2 : U64} (h : Keeps ps s t)
    (hs : ([.tly] : List Area).all (fun p => ps.contains p) = true) : Keeps ps s (ovfClear x1 x2 t) := by
  refine Keeps.step ?_ hs h
  unfold ovfClear
  try dsimp only
  repeat' with_reducible (first
    | exact Keeps.refl _ _ | assumption | decide | apply setTlyCore_keeps | apply Keeps.ite
    | (fail_if_no_progress refine Keeps.upd ?_ rfl (by intro p hp; cases p <;> first | (exact absurd hp (by decide)) | rfl)) | split)

theorem devCfgWrite_keeps {ps : List Area} {s t : State} {x1 : Nat} {x2 : U32} (h : Keeps ps s t)
    (hs : ([.regs, .tly] : List Area).all (fun p => ps.contains p) = true) : Keeps ps s (devCfgWrite x1 x2 t) := by
  refine Keeps.step ?_ hs h
  unfold devCfgWrite
  try dsimp only
  repeat' with_reducible (first
    | exact Keeps.refl _ _ | assumption | decide | apply plainWrite_keeps | apply Keeps.ite
    | (fail_if_no_progress refine Keeps.upd ?_ rfl (by intro p hp; cases p <;> first | (exact absurd hp (by decide)) | rfl)) | split)

theorem claim_keeps {ps : List Area} {s t : State} {x1 : Nat} (h : Keeps ps s t)
    (hs : ([.regs, .rdata, .dma, .freeCtr, .flt, .ints, .cores, .tly] : List Area).all (fun p => ps.contains p) = true)
        : Keeps ps s (claim x1 t) := by
  refine Keeps.step ?_ hs h
  unfold claim
  try dsimp only
  repeat' with_reducible (first
    | exact Keeps.refl _ _ | assumption | decide | apply setIntSrc_keeps | apply setCore_keeps | apply tlyCount_keeps
    | apply report_keeps | apply setEvt_keeps | apply count_keeps | apply Keeps.ite | split
    | (fail_if_no_progress refine Keeps.upd ?_ rfl (by intro p hp; cases p <;> first | (exact absurd hp (by decide)) | rfl)))

theorem complete_keeps {ps : List Area} {s t : State} {x1 : Nat} {x2 : U64} (h : Keeps ps s t)
    (hs : ([.regs, .flt, .ints, .cores] : List Area).all (fun p => ps.contains p) = true) : Keeps ps s (complete x1 x2 t) := by
  refine Keeps.step ?_ hs h
  unfold complete
  try dsimp only
  repeat' with_reducible (first
    | exact Keeps.refl _ _ | assumption | decide | apply setIntSrc_keeps | apply latchCore_keeps | apply setCore_keeps
    | apply report_keeps | apply setEvt_keeps | apply wr_keeps | apply count_keeps | apply Keeps.ite | split
    | (fail_if_no_progress refine Keeps.upd ?_ rfl (by intro p hp; cases p <;> first | (exact absurd hp (by decide)) | rfl)))

theorem sourceEvent_keeps {ps : List Area} {s t : State} {x1 : Nat} (h : Keeps ps s t)
    (hs : ([.regs, .flt, .ints, .cores] : List Area).all (fun p => ps.contains p) = true) : Keeps ps s (sourceEvent x1 t) := by
  refine Keeps.step ?_ hs h
  unfold sourceEvent
  try dsimp only
  repeat' with_reducible (first
    | exact Keeps.refl _ _ | assumption | decide | apply latchCore_keeps | apply intEdge_keeps | apply Keeps.ite | split)

theorem holdExpire_keeps {ps : List Area} {s t : State} {x1 : Nat} (h : Keeps ps s t)
    (hs : ([.tick, .ints, .cores, .tly] : List Area).all (fun p => ps.contains p) = true) : Keeps ps s (holdExpire x1 t) := by
  refine Keeps.step ?_ hs h
  unfold holdExpire
  try dsimp only
  repeat' with_reducible (first
    | exact Keeps.refl _ _ | assumption | decide | apply advanceTo_keeps | apply latchCore_keeps | apply setIntSrc_keeps
    | apply Keeps.ite | split
    | (fail_if_no_progress refine Keeps.upd ?_ rfl (by intro p hp; cases p <;> first | (exact absurd hp (by decide)) | rfl)))

theorem timecmpWrite_keeps {ps : List Area} {s t : State} {x1 : Nat} {x2 : U64} (h : Keeps ps s t)
    (hs : ([.cores] : List Area).all (fun p => ps.contains p) = true) : Keeps ps s (timecmpWrite x1 x2 t) := by
  refine Keeps.step ?_ hs h
  unfold timecmpWrite
  try dsimp only
  repeat' with_reducible (first
    | exact Keeps.refl _ _ | assumption | decide | apply latchCore_keeps | apply setCore_keeps | apply Keeps.ite
    | (fail_if_no_progress refine Keeps.upd ?_ rfl (by intro p hp; cases p <;> first | (exact absurd hp (by decide)) | rfl)) | split)

theorem lset_keeps {ps : List Area} {s t : State} {x1 : Nat} {x2 : U64} (h : Keeps ps s t)
    (hs : ([.regs, .flt, .ints, .cores] : List Area).all (fun p => ps.contains p) = true) : Keeps ps s (lset x1 x2 t) := by
  refine Keeps.step ?_ hs h
  unfold lset
  try dsimp only
  repeat' with_reducible (first | exact Keeps.refl _ _ | assumption | decide | apply intEdge_keeps | apply Keeps.ite | split)

theorem sset_keeps {ps : List Area} {s t : State} {x1 : U32} (h : Keeps ps s t)
    (hs : ([.regs, .flt, .ints, .cores] : List Area).all (fun p => ps.contains p) = true) : Keeps ps s (sset x1 t) := by
  refine Keeps.step ?_ hs h
  unfold sset
  try dsimp only
  repeat' with_reducible (first | exact Keeps.refl _ _ | assumption | decide | apply intEdge_keeps | apply Keeps.ite | split)

theorem swi_keeps {ps : List Area} {s t : State} {x1 : U32} (h : Keeps ps s t)
    (hs : ([.regs, .flt, .ints, .cores] : List Area).all (fun p => ps.contains p) = true) : Keeps ps s (swi x1 t) := by
  refine Keeps.step ?_ hs h
  unfold swi
  try dsimp only
  repeat' with_reducible (first | exact Keeps.refl _ _ | assumption | decide | apply intEdges_keeps | apply Keeps.ite | split)

theorem holdsEnd_keeps {ps : List Area} {s t : State} {x1 : Nat} (h : Keeps ps s t)
    (hs : ([.ints] : List Area).all (fun p => ps.contains p) = true) : Keeps ps s (holdsEnd x1 t) := by
  refine Keeps.step ?_ hs h
  unfold holdsEnd
  try dsimp only
  repeat' with_reducible (first
    | exact Keeps.refl _ _ | assumption | decide | apply setIntSrc_keeps | apply Keeps.ite
    | (refine Keeps.foldl ?_ (fun u y hu => ?_) <;> try dsimp only)
    | (fail_if_no_progress refine Keeps.upd ?_ rfl (by intro p hp; cases p <;> first | (exact absurd hp (by decide)) | rfl)) | split)

theorem wfi_keeps {ps : List Area} {s t : State} {x1 : Nat} (h : Keeps ps s t)
    (hs : ([.ints, .cores] : List Area).all (fun p => ps.contains p) = true) : Keeps ps s (wfi x1 t) := by
  refine Keeps.step ?_ hs h
  unfold wfi
  try dsimp only
  repeat' with_reducible (first
    | exact Keeps.refl _ _ | assumption | decide | apply setCore_keeps | apply latchCore_keeps | apply holdsEnd_keeps | apply Keeps.ite
    | (fail_if_no_progress refine Keeps.upd ?_ rfl (by intro p hp; cases p <;> first | (exact absurd hp (by decide)) | rfl)) | split)

theorem coreTrap_keeps {ps : List Area} {s t : State} {x1 : Nat} {x2 : Nat} {x3 : U64} (h : Keeps ps s t)
    (hs : ([.regs, .dma, .freeCtr, .flt, .ints, .cores, .tly] : List Area).all (fun p => ps.contains p) = true)
        : Keeps ps s (coreTrap x1 x2 x3 t) := by
  refine Keeps.step ?_ hs h
  unfold coreTrap
  try dsimp only
  repeat' with_reducible (first
    | exact Keeps.refl _ _ | assumption | decide | apply tlyCount_keeps | apply setCore_keeps | apply Keeps.ite
    | (refine Keeps.foldl ?_ (fun u y hu => ?_) <;> try dsimp only)
    | (fail_if_no_progress refine Keeps.upd ?_ rfl (by intro p hp; cases p <;> first | (exact absurd hp (by decide)) | rfl)) | split)

theorem irqTrap_keeps {ps : List Area} {s t : State} {x1 : Nat} (h : Keeps ps s t)
    (hs : ([.regs, .dma, .freeCtr, .flt, .ints, .cores, .tly] : List Area).all (fun p => ps.contains p) = true)
        : Keeps ps s (irqTrap x1 t) := by
  refine Keeps.step ?_ hs h
  unfold irqTrap
  try dsimp only
  repeat' with_reducible (first
    | exact Keeps.refl _ _ | assumption | decide | apply coreTrap_keeps | apply setCore_keeps | apply Keeps.ite
    | (fail_if_no_progress refine Keeps.upd ?_ rfl (by intro p hp; cases p <;> first | (exact absurd hp (by decide)) | rfl)) | split)

theorem awake_keeps {ps : List Area} {s t : State} {x1 : Nat} (h : Keeps ps s t)
    (hs : ([.cores] : List Area).all (fun p => ps.contains p) = true) : Keeps ps s (awake x1 t) := by
  refine Keeps.step ?_ hs h
  unfold awake
  try dsimp only
  repeat' with_reducible (first
    | exact Keeps.refl _ _ | assumption | decide | apply setCore_keeps | apply Keeps.ite
    | (fail_if_no_progress refine Keeps.upd ?_ rfl (by intro p hp; cases p <;> first | (exact absurd hp (by decide)) | rfl)) | split)

theorem coreWake_keeps {ps : List Area} {s t : State} {x1 : Nat} (h : Keeps ps s t)
    (hs : ([.regs, .dma, .freeCtr, .flt, .ints, .cores, .tly] : List Area).all (fun p => ps.contains p) = true)
        : Keeps ps s (coreWake x1 t) := by
  refine Keeps.step ?_ hs h
  unfold coreWake
  try dsimp only
  repeat' with_reducible (first
    | exact Keeps.refl _ _ | assumption | decide | apply awake_keeps | apply irqTrap_keeps | apply Keeps.ite | split)

theorem setTcb_keeps {ps : List Area} {s t : State} {x1 : Nat} {x2 : Tcb} (h : Keeps ps s t)
    (hs : ([.tsk] : List Area).all (fun p => ps.contains p) = true) : Keeps ps s (setTcb t x1 x2) := by
  refine Keeps.step ?_ hs h
  unfold setTcb
  try dsimp only
  repeat' with_reducible (first
    | exact Keeps.refl _ _ | assumption | apply Keeps.ite
    | (fail_if_no_progress refine Keeps.upd ?_ rfl (by intro p hp; cases p <;> first | (exact absurd hp (by decide)) | rfl)) | split)

theorem setPort_keeps {ps : List Area} {s t : State} {x1 : Nat} {x2 : TskPort} (h : Keeps ps s t)
    (hs : ([.tsk] : List Area).all (fun p => ps.contains p) = true) : Keeps ps s (setPort t x1 x2) := by
  refine Keeps.step ?_ hs h
  unfold setPort
  try dsimp only
  repeat' with_reducible (first
    | exact Keeps.refl _ _ | assumption | apply Keeps.ite
    | (fail_if_no_progress refine Keeps.upd ?_ rfl (by intro p hp; cases p <;> first | (exact absurd hp (by decide)) | rfl)) | split)

theorem setItem_keeps {ps : List Area} {s t : State} {x1 : Nat} {x2 : Item} (h : Keeps ps s t)
    (hs : ([.tsk] : List Area).all (fun p => ps.contains p) = true) : Keeps ps s (setItem t x1 x2) := by
  refine Keeps.step ?_ hs h
  unfold setItem
  try dsimp only
  repeat' with_reducible (first
    | exact Keeps.refl _ _ | assumption | apply Keeps.ite
    | (fail_if_no_progress refine Keeps.upd ?_ rfl (by intro p hp; cases p <;> first | (exact absurd hp (by decide)) | rfl)) | split)

theorem setFlow_keeps {ps : List Area} {s t : State} {x1 : Nat} {x2 : Flow} (h : Keeps ps s t)
    (hs : ([.tsk] : List Area).all (fun p => ps.contains p) = true) : Keeps ps s (setFlow t x1 x2) := by
  refine Keeps.step ?_ hs h
  unfold setFlow
  try dsimp only
  repeat' with_reducible (first
    | exact Keeps.refl _ _ | assumption | apply Keeps.ite
    | (fail_if_no_progress refine Keeps.upd ?_ rfl (by intro p hp; cases p <;> first | (exact absurd hp (by decide)) | rfl)) | split)

theorem tskRes_keeps {ps : List Area} {s t : State} {x1 : Nat} {x2 : Nat} {x3 : Nat} {x4 : Nat} {x5 : U32} (h : Keeps ps s t)
    (hs : ([.tsk] : List Area).all (fun p => ps.contains p) = true) : Keeps ps s (tskRes x1 x2 x3 x4 x5 t) := by
  refine Keeps.step ?_ hs h
  unfold tskRes
  try dsimp only
  repeat' with_reducible (first
    | exact Keeps.refl _ _ | assumption | decide | apply setPort_keeps | apply Keeps.ite
    | (fail_if_no_progress refine Keeps.upd ?_ rfl (by intro p hp; cases p <;> first | (exact absurd hp (by decide)) | rfl)) | split)

theorem tskFail_keeps {ps : List Area} {s t : State} {x1 : Nat} {x2 : Nat} {x3 : Nat} {x4 : Nat} (h : Keeps ps s t)
    (hs : ([.regs, .flt, .tsk] : List Area).all (fun p => ps.contains p) = true) : Keeps ps s (tskFail x1 x2 x3 x4 t) := by
  refine Keeps.step ?_ hs h
  unfold tskFail
  try dsimp only
  repeat' with_reducible (first
    | exact Keeps.refl _ _ | assumption | decide | apply tskRes_keeps | apply wr_keeps | apply count_keeps | apply report_keeps
    | apply setEvt_keeps | apply Keeps.ite | split)

theorem tskPend_keeps {ps : List Area} {s t : State} {x1 : Nat} (h : Keeps ps s t)
    (hs : ([.regs, .flt, .ints, .cores] : List Area).all (fun p => ps.contains p) = true) : Keeps ps s (tskPend x1 t) := by
  refine Keeps.step ?_ hs h
  unfold tskPend
  try dsimp only
  repeat' with_reducible (first
    | exact Keeps.refl _ _ | assumption | decide | apply intEdge_keeps | apply setCore_keeps | apply Keeps.ite
    | (fail_if_no_progress refine Keeps.upd ?_ rfl (by intro p hp; cases p <;> first | (exact absurd hp (by decide)) | rfl)) | split)

theorem readyTarget_keeps {ps : List Area} {s t : State} {x1 : Nat} (h : Keeps ps s t)
    (hs : ([.regs, .flt, .ints, .cores, .tsk] : List Area).all (fun p => ps.contains p) = true) : Keeps ps s (readyTarget x1 t) := by
  refine Keeps.step ?_ hs h
  unfold readyTarget
  try dsimp only
  repeat' with_reducible (first
    | exact Keeps.refl _ _ | assumption | decide | apply tskPend_keeps | apply setPort_keeps | apply Keeps.ite | split
    | (fail_if_no_progress refine Keeps.upd ?_ rfl (by intro p hp; cases p <;> first | (exact absurd hp (by decide)) | rfl)))

theorem makeReady_keeps {ps : List Area} {s t : State} {x1 : Nat} (h : Keeps ps s t)
    (hs : ([.regs, .flt, .ints, .cores, .tsk] : List Area).all (fun p => ps.contains p) = true) : Keeps ps s (makeReady x1 t) := by
  refine Keeps.step ?_ hs h
  unfold makeReady
  try dsimp only
  repeat' with_reducible (first
    | exact Keeps.refl _ _ | assumption | decide | apply setTcb_keeps | apply readyTarget_keeps | apply Keeps.ite
    | (fail_if_no_progress refine Keeps.upd ?_ rfl (by intro p hp; cases p <;> first | (exact absurd hp (by decide)) | rfl)) | split)

theorem dispatch_keeps {ps : List Area} {s t : State} {x1 : Nat} (h : Keeps ps s t)
    (hs : ([.tsk] : List Area).all (fun p => ps.contains p) = true) : Keeps ps s (dispatch x1 t) := by
  refine Keeps.step ?_ hs h
  unfold dispatch
  try dsimp only
  repeat' with_reducible (first
    | exact Keeps.refl _ _ | assumption | decide | apply tskRes_keeps | apply setPort_keeps | apply setTcb_keeps | apply Keeps.ite
    | split | (fail_if_no_progress refine Keeps.upd ?_ rfl (by intro p hp; cases p <;> first | (exact absurd hp (by decide)) | rfl)))

theorem tcbEcc_keeps {ps : List Area} {s t : State} {x1 : Nat} (h : Keeps ps s t)
    (hs : ([.regs, .flt, .tsk] : List Area).all (fun p => ps.contains p) = true) : Keeps ps s (tcbEcc x1 t) := by
  refine Keeps.step ?_ hs h
  unfold tcbEcc
  try dsimp only
  repeat' with_reducible (first
    | exact Keeps.refl _ _ | assumption | decide | apply setTcb_keeps | apply report_keeps | apply setEvt_keeps | apply Keeps.ite
    | (fail_if_no_progress refine Keeps.upd ?_ rfl (by intro p hp; cases p <;> first | (exact absurd hp (by decide)) | rfl)) | split)

theorem tcbBad_keeps {ps : List Area} {s t : State} {x1 : Option (Fin 4096)} (h : Keeps ps s t)
    (hs : ([.regs, .flt, .tsk] : List Area).all (fun p => ps.contains p) = true) : Keeps ps s (tcbBad x1 t) := by
  refine Keeps.step ?_ hs h
  unfold tcbBad
  try dsimp only
  repeat' with_reducible (first
    | exact Keeps.refl _ _ | assumption | decide | apply tcbEcc_keeps | apply Keeps.ite | split
    | (fail_if_no_progress refine Keeps.upd ?_ rfl (by intro p hp; cases p <;> first | (exact absurd hp (by decide)) | rfl)))

theorem opAlloc_keeps {ps : List Area} {s t : State} {x1 : Nat} {x2 : Nat} (h : Keeps ps s t)
    (hs : ([.regs, .flt, .tsk] : List Area).all (fun p => ps.contains p) = true) : Keeps ps s (opAlloc x1 x2 t) := by
  refine Keeps.step ?_ hs h
  unfold opAlloc
  try dsimp only
  repeat' with_reducible (first
    | exact Keeps.refl _ _ | assumption | decide | apply tskFail_keeps | apply tskRes_keeps | apply setTcb_keeps | apply Keeps.ite
    | split | (fail_if_no_progress refine Keeps.upd ?_ rfl (by intro p hp; cases p <;> first | (exact absurd hp (by decide)) | rfl)))

theorem opFree_keeps {ps : List Area} {s t : State} {x1 : Nat} {x2 : Nat} (h : Keeps ps s t)
    (hs : ([.regs, .flt, .tsk] : List Area).all (fun p => ps.contains p) = true) : Keeps ps s (opFree x1 x2 t) := by
  refine Keeps.step ?_ hs h
  unfold opFree
  try dsimp only
  repeat' with_reducible (first
    | exact Keeps.refl _ _ | assumption | decide | apply tskRes_keeps | apply setTcb_keeps | apply tskFail_keeps | apply Keeps.ite
    | split)

theorem opWake_keeps {ps : List Area} {s t : State} {x1 : Nat} {x2 : Nat} (h : Keeps ps s t)
    (hs : ([.regs, .flt, .ints, .cores, .tsk] : List Area).all (fun p => ps.contains p) = true) : Keeps ps s (opWake x1 x2 t) := by
  refine Keeps.step ?_ hs h
  unfold opWake
  try dsimp only
  repeat' with_reducible (first
    | exact Keeps.refl _ _ | assumption | decide | apply tskFail_keeps | apply tskRes_keeps | apply makeReady_keeps | apply setTcb_keeps
    | apply Keeps.ite
    | (fail_if_no_progress refine Keeps.upd ?_ rfl (by intro p hp; cases p <;> first | (exact absurd hp (by decide)) | rfl)) | split)

theorem opSwitch_keeps {ps : List Area} {s t : State} {x1 : Nat} {x2 : Nat} (h : Keeps ps s t)
    (hs : ([.regs, .flt, .ints, .cores, .tsk] : List Area).all (fun p => ps.contains p) = true) : Keeps ps s (opSwitch x1 x2 t) := by
  refine Keeps.step ?_ hs h
  unfold opSwitch
  try dsimp only
  repeat' with_reducible (first
    | exact Keeps.refl _ _ | assumption | decide | apply tskFail_keeps | apply setPort_keeps | apply dispatch_keeps
    | apply makeReady_keeps | apply setTcb_keeps | apply Keeps.ite | split
    | (fail_if_no_progress refine Keeps.upd ?_ rfl (by intro p hp; cases p <;> first | (exact absurd hp (by decide)) | rfl)))

theorem opNext_keeps {ps : List Area} {s t : State} {x1 : Nat} (h : Keeps ps s t)
    (hs : ([.regs, .flt, .tsk] : List Area).all (fun p => ps.contains p) = true) : Keeps ps s (opNext x1 t) := by
  refine Keeps.step ?_ hs h
  unfold opNext
  try dsimp only
  repeat' with_reducible (first
    | exact Keeps.refl _ _ | assumption | decide | apply tskFail_keeps | apply dispatch_keeps | apply Keeps.ite | split)

theorem opSetPrio_keeps {ps : List Area} {s t : State} {x1 : Nat} {x2 : Nat} {x3 : Nat} (h : Keeps ps s t)
    (hs : ([.regs, .flt, .ints, .cores, .tsk] : List Area).all (fun p => ps.contains p) = true) : Keeps ps s (opSetPrio x1 x2 x3 t) := by
  refine Keeps.step ?_ hs h
  unfold opSetPrio
  try dsimp only
  repeat' with_reducible (first
    | exact Keeps.refl _ _ | assumption | decide | apply tskFail_keeps | apply setTcb_keeps | apply tskRes_keeps | apply makeReady_keeps
    | apply Keeps.ite
    | (fail_if_no_progress refine Keeps.upd ?_ rfl (by intro p hp; cases p <;> first | (exact absurd hp (by decide)) | rfl)) | split)

theorem opSetAff_keeps {ps : List Area} {s t : State} {x1 : Nat} {x2 : Nat} (h : Keeps ps s t)
    (hs : ([.regs, .flt, .tsk] : List Area).all (fun p => ps.contains p) = true) : Keeps ps s (opSetAff x1 x2 t) := by
  refine Keeps.step ?_ hs h
  unfold opSetAff
  try dsimp only
  repeat' with_reducible (first
    | exact Keeps.refl _ _ | assumption | decide | apply tskFail_keeps | apply tskRes_keeps | apply setTcb_keeps | apply Keeps.ite
    | (fail_if_no_progress refine Keeps.upd ?_ rfl (by intro p hp; cases p <;> first | (exact absurd hp (by decide)) | rfl)) | split)

theorem opTokenHi_keeps {ps : List Area} {s t : State} {x1 : Nat} {x2 : Nat} (h : Keeps ps s t)
    (hs : ([.tsk] : List Area).all (fun p => ps.contains p) = true) : Keeps ps s (opTokenHi x1 x2 t) := by
  refine Keeps.step ?_ hs h
  unfold opTokenHi
  try dsimp only
  repeat' with_reducible (first | exact Keeps.refl _ _ | assumption | decide | apply tskRes_keeps | apply Keeps.ite | split)

theorem takeableWake_keeps {ps : List Area} {s t : State} (h : Keeps ps s t)
    (hs : ([.regs, .flt, .ints, .cores, .tsk] : List Area).all (fun p => ps.contains p) = true) : Keeps ps s (takeableWake t) := by
  refine Keeps.step ?_ hs h
  unfold takeableWake
  try dsimp only
  repeat' with_reducible (first
    | exact Keeps.refl _ _ | assumption | decide | apply tskPend_keeps | apply setPort_keeps | apply Keeps.ite
    | (refine Keeps.foldl ?_ (fun u y hu => ?_) <;> try dsimp only)
    | (fail_if_no_progress refine Keeps.upd ?_ rfl (by intro p hp; cases p <;> first | (exact absurd hp (by decide)) | rfl)) | split)

theorem windowClose_keeps {ps : List Area} {s t : State} {x1 : Nat} (h : Keeps ps s t)
    (hs : ([.regs, .flt, .tsk] : List Area).all (fun p => ps.contains p) = true) : Keeps ps s (windowClose x1 t) := by
  refine Keeps.step ?_ hs h
  unfold windowClose
  try dsimp only
  repeat' with_reducible (first
    | exact Keeps.refl _ _ | assumption | decide | apply report_keeps | apply setEvt_keeps | apply count_keeps | apply setFlow_keeps
    | apply Keeps.ite
    | (fail_if_no_progress refine Keeps.upd ?_ rfl (by intro p hp; cases p <;> first | (exact absurd hp (by decide)) | rfl)) | split)

theorem enterItem_keeps {ps : List Area} {s t u : State} {x1 : CmdId} {x2 : Nat} {x3 : Bytes} (h : Keeps ps s t)
    (hs : ([.regs, .flt, .cmd, .ints, .cores, .tsk] : List Area).all
        (fun p => ps.contains p) = true) (e : enterItem x1 x2 x3 t = some u) : Keeps ps s u := by
  refine Keeps.step ?_ hs h
  unfold enterItem at e
  split at e
  · cases e
  · injection e with e
    rw [← e]
    repeat' with_reducible (first
      | exact Keeps.refl _ _ | decide | apply setItem_keeps | apply setFlow_keeps | apply takeableWake_keeps | apply windowClose_keeps
      | apply Keeps.ite
      | (fail_if_no_progress refine Keeps.upd ?_ rfl (by intro p hp; cases p <;> first | (exact absurd hp (by decide)) | rfl)))

theorem enterItem_keepsGetD {ps : List Area} {s t : State} {x1 : CmdId} {x2 : Nat} {x3 : Bytes} (h : Keeps ps s t)
    (hs : ([.regs, .flt, .cmd, .ints, .cores, .tsk] : List Area).all (fun p => ps.contains p) = true)
        : Keeps ps s ((enterItem x1 x2 x3 t).getD t) := by
  cases e : enterItem x1 x2 x3 t with
  | none => exact h
  | some u => exact enterItem_keeps h hs e

theorem storeFull_keeps {ps : List Area} {s t : State} (h : Keeps ps s t)
    (hs : ([.regs, .flt] : List Area).all (fun p => ps.contains p) = true) : Keeps ps s (storeFull t) := by
  refine Keeps.step ?_ hs h
  unfold storeFull
  try dsimp only
  repeat' with_reducible (first
    | exact Keeps.refl _ _ | assumption | decide | apply report_keeps | apply setEvt_keeps | apply Keeps.ite | split)

theorem opTake_keeps {ps : List Area} {s t : State} {x1 : Nat} (h : Keeps ps s t)
    (hs : ([.tsk] : List Area).all (fun p => ps.contains p) = true) : Keeps ps s (opTake x1 t) := by
  refine Keeps.step ?_ hs h
  unfold opTake
  try dsimp only
  repeat' with_reducible (first
    | exact Keeps.refl _ _ | assumption | decide | apply tskRes_keeps | apply setFlow_keeps | apply setItem_keeps | apply Keeps.ite
    | (refine Keeps.foldl ?_ (fun u y hu => ?_) <;> try dsimp only) | split
    | (fail_if_no_progress refine Keeps.upd ?_ rfl (by intro p hp; cases p <;> first | (exact absurd hp (by decide)) | rfl)))

theorem opRelease_keeps {ps : List Area} {s t : State} {x1 : Nat} {x2 : Nat} {x3 : Nat} (h : Keeps ps s t)
    (hs : ([.regs, .flt, .tsk] : List Area).all (fun p => ps.contains p) = true) : Keeps ps s (opRelease x1 x2 x3 t) := by
  refine Keeps.step ?_ hs h
  unfold opRelease
  try dsimp only
  repeat' with_reducible (first
    | exact Keeps.refl _ _ | assumption | decide | apply tskFail_keeps | apply tskRes_keeps | apply setItem_keeps | apply Keeps.ite
    | (fail_if_no_progress refine Keeps.upd ?_ rfl (by intro p hp; cases p <;> first | (exact absurd hp (by decide)) | rfl)) | split)

theorem tskOp_keeps {ps : List Area} {s t : State} {x1 : Nat} {x2 : U32} (h : Keeps ps s t)
    (hs : ([.regs, .flt, .ints, .cores, .tsk] : List Area).all (fun p => ps.contains p) = true) : Keeps ps s (tskOp x1 x2 t) := by
  refine Keeps.step ?_ hs h
  unfold tskOp
  try dsimp only
  repeat' with_reducible (first
    | exact Keeps.refl _ _ | assumption | decide | apply opAlloc_keeps | apply opFree_keeps | apply opWake_keeps | apply opSwitch_keeps
    | apply opNext_keeps | apply opSetPrio_keeps | apply opSetAff_keeps | apply opTake_keeps | apply opRelease_keeps
    | apply opTokenHi_keeps | apply tskFail_keeps | apply Keeps.ite | split
    | (fail_if_no_progress refine Keeps.upd ?_ rfl (by intro p hp; cases p <;> first | (exact absurd hp (by decide)) | rfl)))

theorem withArg_keeps {ps : List Area} {s t : State} {x1 : Nat} {x2 : U32} {x3 : U32} (h : Keeps ps s t)
    (hs : ([.tsk] : List Area).all (fun p => ps.contains p) = true) : Keeps ps s (withArg x1 x2 x3 t) := by
  refine Keeps.step ?_ hs h
  unfold withArg
  try dsimp only
  repeat' with_reducible (first
    | exact Keeps.refl _ _ | assumption | decide | apply setPort_keeps | apply Keeps.ite
    | (fail_if_no_progress refine Keeps.upd ?_ rfl (by intro p hp; cases p <;> first | (exact absurd hp (by decide)) | rfl)) | split)

theorem relTimeout_keeps {ps : List Area} {s t : State} {x1 : Nat} (h : Keeps ps s t)
    (hs : ([.tick, .regs, .flt, .tsk, .tly] : List Area).all (fun p => ps.contains p) = true) : Keeps ps s (relTimeout x1 t) := by
  refine Keeps.step ?_ hs h
  unfold relTimeout
  try dsimp only
  repeat' with_reducible (first
    | exact Keeps.refl _ _ | assumption | decide | apply advanceTo_keeps | apply setItem_keeps | apply report_keeps | apply setEvt_keeps
    | apply Keeps.ite
    | (fail_if_no_progress refine Keeps.upd ?_ rfl (by intro p hp; cases p <;> first | (exact absurd hp (by decide)) | rfl)) | split)

theorem setKeySlot_keeps {ps : List Area} {s t : State} {x1 : Nat} {x2 : KeySlot} (h : Keeps ps s t)
    (hs : ([.std] : List Area).all (fun p => ps.contains p) = true) (hv : revOf t.std x1 ≤ x2.revCnt)
        : Keeps ps s (setKeySlot t x1 x2) := by
  refine Keeps.step (t := t) ⟨by intro p hp; cases p <;> first | (exact absurd hp (by decide)) | rfl, rfl, rfl, id, List.prefix_refl _,
    Nat.le_refl _, fun w => ⟨?_, fun k => ?_⟩⟩ hs h
  · exact tblWf_tset (d := fun _ => ({} : KeySlot)) x1 x2 w
  · simp only [slotsWf, tblWf, Bool.and_eq_true] at w
    by_cases e : k = x1
    · subst e
      simpa only [setKeySlot, revOf, tget_tset_same] using hv
    · simp only [setKeySlot, revOf, tget_tset_ne e, Nat.le_refl]

theorem setSession_keeps {ps : List Area} {s t : State} {x1 : Nat} {x2 : Session} (h : Keeps ps s t)
    (hs : ([.aut] : List Area).all (fun p => ps.contains p) = true) : Keeps ps s (setSession t x1 x2) := by
  refine Keeps.step ?_ hs h
  unfold setSession
  try dsimp only
  repeat' with_reducible (first
    | exact Keeps.refl _ _ | assumption | apply Keeps.ite
    | (fail_if_no_progress refine Keeps.upd ?_ rfl (by intro p hp; cases p <;> first | (exact absurd hp (by decide)) | rfl)) | split)

theorem closeGranted_keeps {ps : List Area} {s t : State} {x1 : Nat} (h : Keeps ps s t)
    (hs : ([.aut] : List Area).all (fun p => ps.contains p) = true) : Keeps ps s (closeGranted x1 t) := by
  refine Keeps.step ?_ hs h
  unfold closeGranted
  try dsimp only
  repeat' with_reducible (first
    | exact Keeps.refl _ _ | assumption | apply Keeps.ite
    | (fail_if_no_progress refine Keeps.upd ?_ rfl (by intro p hp; cases p <;> first | (exact absurd hp (by decide)) | rfl)) | split)

theorem refuse_keeps {ps : List Area} {s t : State} {x1 : Staged} {x2 : Nat} (h : Keeps ps s t)
    (hs : ([.regs, .hst, .flt] : List Area).all (fun p => ps.contains p) = true) : Keeps ps s (refuse x1 x2 t) := by
  refine Keeps.step ?_ hs h
  unfold refuse
  try dsimp only
  repeat' with_reducible (first
    | exact Keeps.refl _ _ | assumption | decide | apply postCpl_keeps | apply wr_keeps | apply count_keeps | apply report_keeps
    | apply setEvt_keeps | apply Keeps.ite | split)

theorem takeSeq_keeps {ps : List Area} {s t : State} {x1 : Staged} {x2 : Nat} {x3 : Session} (h : Keeps ps s t)
    (hs : ([.aut] : List Area).all (fun p => ps.contains p) = true) : Keeps ps s (takeSeq x1 x2 x3 t) := by
  refine Keeps.step ?_ hs h
  unfold takeSeq
  try dsimp only
  repeat' with_reducible (first
    | exact Keeps.refl _ _ | assumption | decide | apply setSession_keeps | apply Keeps.ite
    | (fail_if_no_progress refine Keeps.upd ?_ rfl (by intro p hp; cases p <;> first | (exact absurd hp (by decide)) | rfl)) | split)

theorem unstage_keeps {ps : List Area} {s t : State} {x1 : Staged} (h : Keeps ps s t)
    (hs : ([.hst] : List Area).all (fun p => ps.contains p) = true) : Keeps ps s (unstage x1 t) := by
  refine Keeps.step ?_ hs h
  unfold unstage
  try dsimp only
  repeat' with_reducible (first
    | exact Keeps.refl _ _ | assumption | apply Keeps.ite
    | (fail_if_no_progress refine Keeps.upd ?_ rfl (by intro p hp; cases p <;> first | (exact absurd hp (by decide)) | rfl)) | split)

theorem verifyCommand_keeps {ps : List Area} {s t : State} {x1 : Staged} (h : Keeps ps s t)
    (hs : ([.regs, .hst, .flt, .aut, .cmd, .ints, .cores, .tsk, .tly] : List Area).all (fun p => ps.contains p) = true)
        : Keeps ps s (verifyCommand x1 t) := by
  refine Keeps.step ?_ hs h
  unfold verifyCommand
  try dsimp only
  repeat' with_reducible (first
    | exact Keeps.refl _ _ | assumption | decide | apply storeFull_keeps | apply unstage_keeps | apply refuse_keeps | apply takeSeq_keeps
    | apply tlyDev_keeps | apply enterItem_keepsGetD | apply Keeps.ite | split
    | (fail_if_no_progress refine Keeps.upd ?_ rfl (by intro p hp; cases p <;> first | (exact absurd hp (by decide)) | rfl)))

theorem beginFirmware_keeps {ps : List Area} {s t : State} {x1 : Staged} (h : Keeps ps s t)
    (hs : ([.hst, .aut] : List Area).all (fun p => ps.contains p) = true) : Keeps ps s (beginFirmware x1 t) := by
  refine Keeps.step ?_ hs h
  unfold beginFirmware
  try dsimp only
  repeat' with_reducible (first
    | exact Keeps.refl _ _ | assumption | decide | apply takeSeq_keeps | apply Keeps.ite | split
    | (fail_if_no_progress refine Keeps.upd ?_ rfl (by intro p hp; cases p <;> first | (exact absurd hp (by decide)) | rfl)))

theorem envelopeVerify_keeps {ps : List Area} {s t : State} (h : Keeps ps s t)
    (hs : ([.regs, .hst, .flt, .aut, .cmd, .ints, .cores, .tsk, .tly] : List Area).all (fun p => ps.contains p) = true)
        : Keeps ps s (envelopeVerify t) := by
  refine Keeps.step ?_ hs h
  unfold envelopeVerify
  try dsimp only
  repeat' with_reducible (first
    | exact Keeps.refl _ _ | assumption | decide | apply verifyCommand_keeps | apply beginFirmware_keeps | apply Keeps.ite
    | (refine Keeps.foldl ?_ (fun u y hu => ?_) <;> try dsimp only) | split
    | (fail_if_no_progress refine Keeps.upd ?_ rfl (by intro p hp; cases p <;> first | (exact absurd hp (by decide)) | rfl)))

theorem sessionOpenVerify_keeps {ps : List Area} {s t : State} (h : Keeps ps s t)
    (hs : ([.regs, .freeCtr, .hst, .flt, .aut, .tly] : List Area).all (fun p => ps.contains p) = true)
        : Keeps ps s (sessionOpenVerify t) := by
  refine Keeps.step ?_ hs h
  unfold sessionOpenVerify
  try dsimp only
  repeat' with_reducible (first
    | exact Keeps.refl _ _ | assumption | decide | apply unstage_keeps | apply beginFirmware_keeps | apply refuse_keeps
    | refine draw_keeps' ?_ ?_ (by assumption) | apply draw_keeps | apply setSession_keeps | apply tlyDev_keeps | apply postCpl_keeps
    | apply Keeps.ite | (refine Keeps.foldl ?_ (fun u y hu => ?_) <;> try dsimp only) | split
    | (fail_if_no_progress refine Keeps.upd ?_ rfl (by intro p hp; cases p <;> first | (exact absurd hp (by decide)) | rfl)))

theorem firmwareVerify_keeps {ps : List Area} {s t : State} (h : Keeps ps s t)
    (hs : ([.regs, .hst, .flt, .aut, .cmd, .ints, .cores, .tsk, .tly] : List Area).all (fun p => ps.contains p) = true)
        : Keeps ps s (firmwareVerify t) := by
  refine Keeps.step ?_ hs h
  unfold firmwareVerify
  try dsimp only
  repeat' with_reducible (first
    | exact Keeps.refl _ _ | assumption | decide | apply storeFull_keeps | apply beginFirmware_keeps | apply unstage_keeps
    | apply refuse_keeps | apply tlyDev_keeps | apply enterItem_keepsGetD | apply Keeps.ite | split
    | (fail_if_no_progress refine Keeps.upd ?_ rfl (by intro p hp; cases p <;> first | (exact absurd hp (by decide)) | rfl)))

theorem sessionExpire_keeps {ps : List Area} {s t : State} {x1 : Nat} (h : Keeps ps s t)
    (hs : ([.regs, .std, .aut] : List Area).all (fun p => ps.contains p) = true) : Keeps ps s (sessionExpire x1 t) := by
  refine Keeps.step ?_ hs h
  unfold sessionExpire
  try dsimp only
  repeat' with_reducible (first
    | exact Keeps.refl _ _ | assumption | decide | apply setEvt_keeps | apply setSession_keeps | apply Keeps.ite | split
    | (fail_if_no_progress refine Keeps.upd ?_ rfl (by intro p hp; cases p <;> first | (exact absurd hp (by decide)) | rfl)))

theorem akeyCommit_keeps {ps : List Area} {s t : State} {x1 : U32} (h : Keeps ps s t)
    (hs : ([.aut] : List Area).all (fun p => ps.contains p) = true) : Keeps ps s (akeyCommit x1 t) := by
  refine Keeps.step ?_ hs h
  unfold akeyCommit
  try dsimp only
  repeat' with_reducible (first
    | exact Keeps.refl _ _ | assumption | apply Keeps.ite
    | (fail_if_no_progress refine Keeps.upd ?_ rfl (by intro p hp; cases p <;> first | (exact absurd hp (by decide)) | rfl)) | split)

theorem installDone_keeps {ps : List Area} {s t : State} {x1 : Bool} (h : Keeps ps s t)
    (hs : ([.std, .aut] : List Area).all (fun p => ps.contains p) = true) : Keeps ps s (installDone x1 t) := by
  refine Keeps.step ?_ hs h
  unfold installDone
  try dsimp only
  repeat' with_reducible (first
    | exact Keeps.refl _ _ | assumption | decide | apply setKeySlot_keeps | apply Keeps.ite | (with_unfolding_all exact Nat.le_refl _)
    | (with_unfolding_all exact Nat.le_succ _) | split
    | (fail_if_no_progress refine Keeps.upd ?_ rfl (by intro p hp; cases p <;> first | (exact absurd hp (by decide)) | rfl)))

theorem vaultEnter_keeps {ps : List Area} {s t : State} {x1 : Nat} (h : Keeps ps s t)
    (hs : ([.std, .aut] : List Area).all (fun p => ps.contains p) = true) : Keeps ps s (vaultEnter x1 t) := by
  refine Keeps.step ?_ hs h
  unfold vaultEnter
  try dsimp only
  repeat' with_reducible (first
    | exact Keeps.refl _ _ | assumption | apply Keeps.ite
    | (fail_if_no_progress refine Keeps.upd ?_ rfl (by intro p hp; cases p <;> first | (exact absurd hp (by decide)) | rfl)) | split)

theorem zeroise_keeps {ps : List Area} {s t : State} (h : Keeps ps s t)
    (hs : ([.regs, .std, .aut] : List Area).all (fun p => ps.contains p) = true) : Keeps ps s (zeroise t) := by
  refine Keeps.step ?_ hs h
  unfold zeroise
  try dsimp only
  repeat' with_reducible (first
    | exact Keeps.refl _ _ | assumption | decide | apply setEvt_keeps | apply vaultEnter_keeps | apply Keeps.ite | split)

theorem tamperLatch_keeps {ps : List Area} {s t : State} {x1 : Nat} {x2 : BitVec 2} (h : Keeps ps s t)
    (hs : ([.regs, .std, .flt, .aut] : List Area).all (fun p => ps.contains p) = true) : Keeps ps s (tamperLatch x1 x2 t) := by
  refine Keeps.step ?_ hs h
  unfold tamperLatch
  try dsimp only
  repeat' with_reducible (first
    | exact Keeps.refl _ _ | assumption | decide | apply report_keeps | apply setEvt_keeps | apply zeroise_keeps | apply Keeps.ite
    | (fail_if_no_progress refine Keeps.upd ?_ rfl (by intro p hp; cases p <;> first | (exact absurd hp (by decide)) | rfl)) | split)

theorem vbatLoss_keeps {ps : List Area} {s t : State} (h : Keeps ps s t)
    (hs : ([.freeCtr, .std] : List Area).all (fun p => ps.contains p) = true) : Keeps ps s (vbatLoss t) := by
  refine Keeps.step ?_ hs h
  unfold vbatLoss
  try dsimp only
  repeat' with_reducible (first
    | exact Keeps.refl _ _ | assumption | decide | refine draw_keeps' ?_ ?_ (by assumption) | apply draw_keeps | apply Keeps.ite | split
    | (fail_if_no_progress refine Keeps.upd ?_ rfl (by intro p hp; cases p <;> first | (exact absurd hp (by decide)) | rfl)))

theorem tampCfgWrite_keeps {ps : List Area} {s t : State} {x1 : U32} (h : Keeps ps s t)
    (hs : ([.std] : List Area).all (fun p => ps.contains p) = true) : Keeps ps s (tampCfgWrite x1 t) := by
  refine Keeps.step ?_ hs h
  unfold tampCfgWrite
  try dsimp only
  repeat' with_reducible (first
    | exact Keeps.refl _ _ | assumption | apply Keeps.ite
    | (fail_if_no_progress refine Keeps.upd ?_ rfl (by intro p hp; cases p <;> first | (exact absurd hp (by decide)) | rfl)) | split)

theorem snrLose_keeps {ps : List Area} {s t : State} (h : Keeps ps s t)
    (hs : ([.regs, .flt, .snr] : List Area).all (fun p => ps.contains p) = true) : Keeps ps s (snrLose t) := by
  refine Keeps.step ?_ hs h
  unfold snrLose
  try dsimp only
  repeat' with_reducible (first
    | exact Keeps.refl _ _ | assumption | decide | apply report_keeps | apply yieldCount_keeps | apply setEvt_keeps | apply count_keeps
    | apply Keeps.ite
    | (fail_if_no_progress refine Keeps.upd ?_ rfl (by intro p hp; cases p <;> first | (exact absurd hp (by decide)) | rfl)) | split)

theorem snareRecord_keeps {ps : List Area} {s t : State} {x1 : Nat} {x2 : Nat} {x3 : Nat} {x4 : Nat} (h : Keeps ps s t)
    (hs : ([.regs, .flt, .snr] : List Area).all (fun p => ps.contains p) = true) : Keeps ps s (snareRecord x1 x2 x3 x4 t) := by
  refine Keeps.step ?_ hs h
  unfold snareRecord
  try dsimp only
  repeat' with_reducible (first
    | exact Keeps.refl _ _ | assumption | decide | apply snrLose_keeps | apply Keeps.ite
    | (fail_if_no_progress refine Keeps.upd ?_ rfl (by intro p hp; cases p <;> first | (exact absurd hp (by decide)) | rfl)) | split)

theorem snareSig_keeps {ps : List Area} {s t : State} {x1 : Nat} {x2 : Nat} {x3 : Nat} {x4 : Nat} (h : Keeps ps s t)
    (hs : ([.regs, .flt, .snr] : List Area).all (fun p => ps.contains p) = true) : Keeps ps s (snareSig x1 x2 x3 x4 t) := by
  refine Keeps.step ?_ hs h
  unfold snareSig
  try dsimp only
  repeat' with_reducible (first
    | exact Keeps.refl _ _ | assumption | decide | apply snareRecord_keeps | apply Keeps.ite
    | (fail_if_no_progress refine Keeps.upd ?_ rfl (by intro p hp; cases p <;> first | (exact absurd hp (by decide)) | rfl)) | split)

theorem snareEvent_keeps {ps : List Area} {s t : State} {x1 : Nat} {x2 : Nat} {x3 : Nat} {x4 : Nat} (h : Keeps ps s t)
    (hs : ([.regs, .flt, .snr] : List Area).all (fun p => ps.contains p) = true) : Keeps ps s (snareEvent x1 x2 x3 x4 t) := by
  refine Keeps.step ?_ hs h
  unfold snareEvent
  try dsimp only
  repeat' with_reducible (first
    | exact Keeps.refl _ _ | assumption | decide | apply snareRecord_keeps | apply Keeps.ite
    | (fail_if_no_progress refine Keeps.upd ?_ rfl (by intro p hp; cases p <;> first | (exact absurd hp (by decide)) | rfl)) | split)

theorem snareTrigger_keeps {ps : List Area} {s t : State} {x1 : Nat} {x2 : U64} (h : Keeps ps s t)
    (hs : ([.regs, .snr] : List Area).all (fun p => ps.contains p) = true) : Keeps ps s (snareTrigger x1 x2 t) := by
  refine Keeps.step ?_ hs h
  unfold snareTrigger
  try dsimp only
  repeat' with_reducible (first
    | exact Keeps.refl _ _ | assumption | decide | apply setEvt_keeps | apply Keeps.ite
    | (refine Keeps.foldl ?_ (fun u y hu => ?_) <;> try dsimp only)
    | (fail_if_no_progress refine Keeps.upd ?_ rfl (by intro p hp; cases p <;> first | (exact absurd hp (by decide)) | rfl)) | split)

theorem snareEval_keeps {ps : List Area} {s t : State} (h : Keeps ps s t)
    (hs : ([.regs, .snr] : List Area).all (fun p => ps.contains p) = true) : Keeps ps s (snareEval t) := by
  refine Keeps.step ?_ hs h
  unfold snareEval
  try dsimp only
  repeat' with_reducible (first
    | exact Keeps.refl _ _ | assumption | decide | apply snareTrigger_keeps | apply setEvt_keeps | apply count_keeps | apply Keeps.ite
    | split | (fail_if_no_progress refine Keeps.upd ?_ rfl (by intro p hp; cases p <;> first | (exact absurd hp (by decide)) | rfl)))

theorem snareArmed_keeps {ps : List Area} {s t : State} {x1 : Nat} (h : Keeps ps s t)
    (hs : ([.snr] : List Area).all (fun p => ps.contains p) = true) : Keeps ps s (snareArmed x1 t) := by
  refine Keeps.step ?_ hs h
  unfold snareArmed
  try dsimp only
  repeat' with_reducible (first
    | exact Keeps.refl _ _ | assumption | apply Keeps.ite | split
    | (fail_if_no_progress refine Keeps.upd ?_ rfl (by intro p hp; cases p <;> first | (exact absurd hp (by decide)) | rfl)))

theorem dumpAbort_keeps {ps : List Area} {s t : State} (h : Keeps ps s t)
    (hs : ([.regs, .flt, .snr] : List Area).all (fun p => ps.contains p) = true) : Keeps ps s (dumpAbort t) := by
  refine Keeps.step ?_ hs h
  unfold dumpAbort
  try dsimp only
  repeat' with_reducible (first
    | exact Keeps.refl _ _ | assumption | decide | apply report_keeps | apply setEvt_keeps | apply Keeps.ite
    | (fail_if_no_progress refine Keeps.upd ?_ rfl (by intro p hp; cases p <;> first | (exact absurd hp (by decide)) | rfl)) | split)

theorem dumpWait_keeps {ps : List Area} {s t : State} (h : Keeps ps s t)
    (hs : ([.regs, .snr] : List Area).all (fun p => ps.contains p) = true) : Keeps ps s (dumpWait t) := by
  refine Keeps.step ?_ hs h
  unfold dumpWait
  try dsimp only
  repeat' with_reducible (first
    | exact Keeps.refl _ _ | assumption | decide | apply yieldCount_keeps | apply Keeps.ite
    | (fail_if_no_progress refine Keeps.upd ?_ rfl (by intro p hp; cases p <;> first | (exact absurd hp (by decide)) | rfl)) | split)

theorem snareDump_keeps {ps : List Area} {s t : State} (h : Keeps ps s t)
    (hs : ([.regs, .dma, .flt, .snr, .tly] : List Area).all (fun p => ps.contains p) = true) : Keeps ps s (snareDump t) := by
  refine Keeps.step ?_ hs h
  unfold snareDump
  try dsimp only
  repeat' with_reducible (first
    | exact Keeps.refl _ _ | assumption | decide | apply dumpAbort_keeps | apply dumpWait_keeps | apply dmaWrite_keeps | apply Keeps.ite
    | (fail_if_no_progress refine Keeps.upd ?_ rfl (by intro p hp; cases p <;> first | (exact absurd hp (by decide)) | rfl)) | split)

theorem snrStore_keeps {ps : List Area} {s t : State} {x1 : SnrRec} (h : Keeps ps s t)
    (hs : ([.regs, .dma, .flt, .snr, .tly] : List Area).all (fun p => ps.contains p) = true) : Keeps ps s (snrStore x1 t) := by
  refine Keeps.step ?_ hs h
  unfold snrStore
  try dsimp only
  repeat' with_reducible (first
    | exact Keeps.refl _ _ | assumption | decide | apply snareDump_keeps | apply Keeps.ite
    | (fail_if_no_progress refine Keeps.upd ?_ rfl (by intro p hp; cases p <;> first | (exact absurd hp (by decide)) | rfl)) | split)

theorem snareRecordWrite_keeps {ps : List Area} {s t : State} (h : Keeps ps s t)
    (hs : ([.regs, .dma, .flt, .snr, .tly] : List Area).all (fun p => ps.contains p) = true) : Keeps ps s (snareRecordWrite t) := by
  refine Keeps.step ?_ hs h
  unfold snareRecordWrite
  try dsimp only
  repeat' with_reducible (first
    | exact Keeps.refl _ _ | assumption | decide | apply snrStore_keeps | apply Keeps.ite | split
    | (fail_if_no_progress refine Keeps.upd ?_ rfl (by intro p hp; cases p <;> first | (exact absurd hp (by decide)) | rfl)))

theorem snareDrain_keeps {ps : List Area} {s t : State} {x1 : Nat} (h : Keeps ps s t)
    (hs : ([.regs, .dma, .flt, .snr, .tly] : List Area).all (fun p => ps.contains p) = true) : Keeps ps s (snareDrain x1 t) := by
  refine Keeps.step ?_ hs h
  unfold snareDrain
  try dsimp only
  repeat' with_reducible (first
    | exact Keeps.refl _ _ | assumption | decide | apply snareRecordWrite_keeps | apply Keeps.ite | split
    | (fail_if_no_progress refine Keeps.upd ?_ rfl (by intro p hp; cases p <;> first | (exact absurd hp (by decide)) | rfl)))

theorem snareFlush_keeps {ps : List Area} {s t : State} {x1 : Nat} (h : Keeps ps s t)
    (hs : ([.regs, .dma, .flt, .snr, .tly] : List Area).all (fun p => ps.contains p) = true) : Keeps ps s (snareFlush x1 t) := by
  refine Keeps.step ?_ hs h
  unfold snareFlush
  try dsimp only
  repeat' with_reducible (first
    | exact Keeps.refl _ _ | assumption | decide | apply snareDrain_keeps | apply Keeps.ite
    | (refine Keeps.foldl ?_ (fun u y hu => ?_) <;> try dsimp only) | split)

theorem snareGap_keeps {ps : List Area} {s t : State} (h : Keeps ps s t)
    (hs : ([.tick, .regs, .dma, .flt, .snr, .tly] : List Area).all (fun p => ps.contains p) = true) : Keeps ps s (snareGap t) := by
  refine Keeps.step ?_ hs h
  unfold snareGap
  try dsimp only
  repeat' with_reducible (first
    | exact Keeps.refl _ _ | assumption | decide | apply snrStore_keeps | apply advanceTo_keeps | apply Keeps.ite | split)

theorem snarePostEnd_keeps {ps : List Area} {s t : State} (h : Keeps ps s t)
    (hs : ([.tick, .regs, .dma, .flt, .snr, .tly] : List Area).all (fun p => ps.contains p) = true) : Keeps ps s (snarePostEnd t) := by
  refine Keeps.step ?_ hs h
  unfold snarePostEnd
  try dsimp only
  repeat' with_reducible (first
    | exact Keeps.refl _ _ | assumption | decide | apply snareFlush_keeps | apply advanceTo_keeps | apply snareDump_keeps
    | apply Keeps.ite
    | (fail_if_no_progress refine Keeps.upd ?_ rfl (by intro p hp; cases p <;> first | (exact absurd hp (by decide)) | rfl)) | split)

theorem snareDumpDone_keeps {ps : List Area} {s t : State} {x1 : List Nat} (h : Keeps ps s t)
    (hs : ([.regs, .dma, .flt, .snr, .tly] : List Area).all (fun p => ps.contains p) = true) : Keeps ps s (snareDumpDone x1 t) := by
  refine Keeps.step ?_ hs h
  unfold snareDumpDone
  try dsimp only
  repeat' with_reducible (first
    | exact Keeps.refl _ _ | assumption | decide | apply dumpWait_keeps | apply report_keeps | apply setEvt_keeps | apply wr_keeps
    | apply dmaWrite_keeps | apply Keeps.ite
    | (fail_if_no_progress refine Keeps.upd ?_ rfl (by intro p hp; cases p <;> first | (exact absurd hp (by decide)) | rfl)) | split)

theorem snareRearmEnd_keeps {ps : List Area} {s t : State} (h : Keeps ps s t)
    (hs : ([.tick, .regs, .snr, .tly] : List Area).all (fun p => ps.contains p) = true) : Keeps ps s (snareRearmEnd t) := by
  refine Keeps.step ?_ hs h
  unfold snareRearmEnd
  try dsimp only
  repeat' with_reducible (first
    | exact Keeps.refl _ _ | assumption | decide | apply advanceTo_keeps | apply snareEval_keeps | apply snareArmed_keeps
    | apply Keeps.ite | split)

theorem snareStop_keeps {ps : List Area} {s t : State} {x1 : Nat} (h : Keeps ps s t)
    (hs : ([.regs, .dma, .flt, .snr, .tly] : List Area).all (fun p => ps.contains p) = true) : Keeps ps s (snareStop x1 t) := by
  refine Keeps.step ?_ hs h
  unfold snareStop
  try dsimp only
  repeat' with_reducible (first
    | exact Keeps.refl _ _ | assumption | decide | apply snareFlush_keeps | apply snareDump_keeps | apply Keeps.ite
    | (fail_if_no_progress refine Keeps.upd ?_ rfl (by intro p hp; cases p <;> first | (exact absurd hp (by decide)) | rfl)) | split)

theorem snareAction_keeps {ps : List Area} {s t : State} {x1 : Nat} {x2 : Nat} (h : Keeps ps s t)
    (hs : ([.regs, .dma, .flt, .snr, .tly] : List Area).all (fun p => ps.contains p) = true) : Keeps ps s (snareAction x1 x2 t).1 := by
  refine Keeps.step ?_ hs h
  unfold snareAction
  try dsimp only
  repeat' with_reducible (first
    | exact Keeps.refl _ _ | assumption | decide | apply snareStop_keeps | apply snareArmed_keeps | apply Keeps.ite | split
    | (fail_if_no_progress refine Keeps.upd ?_ rfl (by intro p hp; cases p <;> first | (exact absurd hp (by decide)) | rfl)))

theorem snareAction_keeps' {ps : List Area} {s t : State} {x1 : Nat} {x2 : Nat} {y1 : Bool} {y0 : State} (h : Keeps ps s t)
    (hs : ([.regs, .dma, .flt, .snr, .tly] : List Area).all (fun p => ps.contains p) = true) (e : snareAction x1 x2 t = (y0, y1))
        : Keeps ps s y0 := by
  have k := snareAction_keeps (t := t) (x1 := x1) (x2 := x2) h hs
  rw [e] at k
  exact k

theorem swRecord_keeps {ps : List Area} {s t : State} {x1 : U32} (h : Keeps ps s t)
    (hs : ([.regs, .flt, .snr] : List Area).all (fun p => ps.contains p) = true) : Keeps ps s (swRecord x1 t) := by
  refine Keeps.step ?_ hs h
  unfold swRecord
  try dsimp only
  repeat' with_reducible (first
    | exact Keeps.refl _ _ | assumption | decide | apply snareEval_keeps | apply snareEvent_keeps | apply Keeps.ite | split)

theorem lineChange_keeps {ps : List Area} {s t : State} {x1 : Nat} {x2 : Bool} (h : Keeps ps s t)
    (hs : ([.regs, .flt, .snr] : List Area).all (fun p => ps.contains p) = true) : Keeps ps s (lineChange x1 x2 t) := by
  refine Keeps.step ?_ hs h
  unfold lineChange
  try dsimp only
  repeat' with_reducible (first
    | exact Keeps.refl _ _ | assumption | decide | apply snareSig_keeps | apply Keeps.ite
    | (fail_if_no_progress refine Keeps.upd ?_ rfl (by intro p hp; cases p <;> first | (exact absurd hp (by decide)) | rfl)) | split)

theorem trigAssert_keeps {ps : List Area} {s t : State} {x1 : Nat} (h : Keeps ps s t)
    (hs : ([.regs, .flt, .snr] : List Area).all (fun p => ps.contains p) = true) : Keeps ps s (trigAssert x1 t) := by
  refine Keeps.step ?_ hs h
  unfold trigAssert
  try dsimp only
  repeat' with_reducible (first
    | exact Keeps.refl _ _ | assumption | decide | apply snareEval_keeps | apply lineChange_keeps | apply wr_keeps | apply Keeps.ite
    | split)

theorem trigRelease_keeps {ps : List Area} {s t : State} {x1 : Nat} (h : Keeps ps s t)
    (hs : ([.regs, .flt, .snr] : List Area).all (fun p => ps.contains p) = true) : Keeps ps s (trigRelease x1 t) := by
  refine Keeps.step ?_ hs h
  unfold trigRelease
  try dsimp only
  repeat' with_reducible (first
    | exact Keeps.refl _ _ | assumption | decide | apply snareEval_keeps | apply lineChange_keeps | apply Keeps.ite | split)

theorem trigOutRelease_keeps {ps : List Area} {s t : State} (h : Keeps ps s t)
    (hs : ([.tick, .snr, .tly] : List Area).all (fun p => ps.contains p) = true) : Keeps ps s (trigOutRelease t) := by
  refine Keeps.step ?_ hs h
  unfold trigOutRelease
  try dsimp only
  repeat' with_reducible (first
    | exact Keeps.refl _ _ | assumption | decide | apply advanceTo_keeps | apply Keeps.ite | split
    | (fail_if_no_progress refine Keeps.upd ?_ rfl (by intro p hp; cases p <;> first | (exact absurd hp (by decide)) | rfl)))

end Sys2Proof.Machine
end

