-- ==== Sys2Proof/Laws/KeepsLoop.lean ====
section
/-! SUPPORT. What every operation of the loop engines, the AFE, the journal, TIM, the converter groups and Tocsin leaves as it was (Keeps): each lemma names the areas of
the state that the operation may change; the queue, core memory, the canonical forms, issued host writes, the free values drawn and REV_CNT
are kept by all. -/

set_option linter.unusedTactic false
set_option linter.unreachableTactic false

namespace Sys2Proof.Machine

theorem setLoop_keeps {ps : List Area} {s t : State} {x1 : Nat} {x2 : Loop} (h : Keeps ps s t)
    (hs : ([.lpe] : List Area).all (fun p => ps.contains p) = true) : Keeps ps s (setLoop t x1 x2) := by
  refine Keeps.step ?_ hs h
  unfold setLoop
  try dsimp only
  repeat' with_reducible (first
    | exact Keeps.refl _ _ | assumption | apply Keeps.ite
    | (fail_if_no_progress refine Keeps.upd ?_ rfl (by intro p hp; cases p <;> first | (exact absurd hp (by decide)) | rfl)) | split)

theorem lpeSample_keeps {ps : List Area} {s t : State} {x1 : LoopInputs} (h : Keeps ps s t)
    (hs : ([.regs, .flt, .lpe] : List Area).all (fun p => ps.contains p) = true) : Keeps ps s (lpeSample x1 t) := by
  refine Keeps.step ?_ hs h
  unfold lpeSample
  try dsimp only
  repeat' with_reducible (first
    | exact Keeps.refl _ _ | assumption | decide | apply setEvt_keeps | apply report_keeps | apply Keeps.ite
    | (refine Keeps.foldl ?_ (fun u y hu => ?_) <;> try dsimp only)
    | (fail_if_no_progress refine Keeps.upd ?_ rfl (by intro p hp; cases p <;> first | (exact absurd hp (by decide)) | rfl)) | split)

theorem loopSignals_keeps {ps : List Area} {s t : State} {x1 : Bool} (h : Keeps ps s t)
    (hs : ([.regs, .flt, .snr] : List Area).all (fun p => ps.contains p) = true) : Keeps ps s (loopSignals x1 t) := by
  refine Keeps.step ?_ hs h
  unfold loopSignals
  try dsimp only
  repeat' with_reducible (first
    | exact Keeps.refl _ _ | assumption | decide | apply snareSig_keeps | apply Keeps.ite
    | (refine Keeps.foldl ?_ (fun u y hu => ?_) <;> try dsimp only) | split)

theorem enginesDone_keeps {ps : List Area} {s t : State} {x1 : List Nat} (h : Keeps ps s t)
    (hs : ([.tick, .regs, .flt, .ints, .cores, .lpe, .snr, .tly] : List Area).all (fun p => ps.contains p) = true)
        : Keeps ps s (enginesDone x1 t) := by
  refine Keeps.step ?_ hs h
  unfold enginesDone
  try dsimp only
  repeat' with_reducible (first
    | exact Keeps.refl _ _ | assumption | decide | apply advanceTo_keeps | apply loopSignals_keeps | apply intEdge_keeps
    | apply count_keeps | apply Keeps.ite | (refine Keeps.foldl ?_ (fun u y hu => ?_) <;> try dsimp only) | split
    | (fail_if_no_progress refine Keeps.upd ?_ rfl (by intro p hp; cases p <;> first | (exact absurd hp (by decide)) | rfl)))

theorem loopDeadlineMiss_keeps {ps : List Area} {s t : State} {x1 : Nat} (h : Keeps ps s t)
    (hs : ([.tick, .regs, .flt, .lpe, .snr, .tly] : List Area).all (fun p => ps.contains p) = true)
        : Keeps ps s (loopDeadlineMiss x1 t) := by
  refine Keeps.step ?_ hs h
  unfold loopDeadlineMiss
  try dsimp only
  repeat' with_reducible (first
    | exact Keeps.refl _ _ | assumption | decide | apply advanceTo_keeps | apply count_keeps | apply loopSignals_keeps
    | apply report_keeps | apply setEvt_keeps | apply Keeps.ite | (refine Keeps.foldl ?_ (fun u y hu => ?_) <;> try dsimp only) | split
    | (fail_if_no_progress refine Keeps.upd ?_ rfl (by intro p hp; cases p <;> first | (exact absurd hp (by decide)) | rfl)))

theorem loopEcc_keeps {ps : List Area} {s t : State} {x1 : Nat} {x2 : Nat} (h : Keeps ps s t)
    (hs : ([.regs, .freeCtr, .flt, .lpe, .snr] : List Area).all (fun p => ps.contains p) = true) : Keeps ps s (loopEcc x1 x2 t) := by
  refine Keeps.step ?_ hs h
  unfold loopEcc
  try dsimp only
  repeat' with_reducible (first
    | exact Keeps.refl _ _ | assumption | decide | apply setLoop_keeps | refine draw_keeps' ?_ ?_ (by assumption) | apply draw_keeps
    | apply wr_keeps | apply loopSignals_keeps | apply report_keeps | apply setEvt_keeps | apply Keeps.ite | split
    | (fail_if_no_progress refine Keeps.upd ?_ rfl (by intro p hp; cases p <;> first | (exact absurd hp (by decide)) | rfl)))

theorem srcWrite_keeps {ps : List Area} {s t : State} {x1 : Nat} {x2 : Bool} {x3 : U32} (h : Keeps ps s t)
    (hs : ([.regs] : List Area).all (fun p => ps.contains p) = true) : Keeps ps s (srcWrite x1 x2 x3 t) := by
  refine Keeps.step ?_ hs h
  unfold srcWrite
  try dsimp only
  repeat' with_reducible (first
    | exact Keeps.refl _ _ | assumption | decide | apply wr_keeps | apply setEvt_keeps | apply Keeps.ite | split)

theorem dstWrite_keeps {ps : List Area} {s t : State} {x1 : Nat} {x2 : U32} (h : Keeps ps s t)
    (hs : ([.regs] : List Area).all (fun p => ps.contains p) = true) : Keeps ps s (dstWrite x1 x2 t) := by
  refine Keeps.step ?_ hs h
  unfold dstWrite
  try dsimp only
  repeat' with_reducible (first
    | exact Keeps.refl _ _ | assumption | decide | apply setEvt_keeps | apply wr_keeps | apply Keeps.ite | split)

theorem capWrite_keeps {ps : List Area} {s t : State} {x1 : U32} (h : Keeps ps s t)
    (hs : ([.regs, .lpe] : List Area).all (fun p => ps.contains p) = true) : Keeps ps s (capWrite x1 t) := by
  refine Keeps.step ?_ hs h
  unfold capWrite
  try dsimp only
  repeat' with_reducible (first
    | exact Keeps.refl _ _ | assumption | decide | apply wr_keeps | apply Keeps.ite
    | (fail_if_no_progress refine Keeps.upd ?_ rfl (by intro p hp; cases p <;> first | (exact absurd hp (by decide)) | rfl)) | split)

theorem setSeq_keeps {ps : List Area} {s t : State} {x1 : Nat} {x2 : Seq} (h : Keeps ps s t)
    (hs : ([.afe] : List Area).all (fun p => ps.contains p) = true) : Keeps ps s (setSeq t x1 x2) := by
  refine Keeps.step ?_ hs h
  unfold setSeq
  try dsimp only
  repeat' with_reducible (first
    | exact Keeps.refl _ _ | assumption | apply Keeps.ite
    | (fail_if_no_progress refine Keeps.upd ?_ rfl (by intro p hp; cases p <;> first | (exact absurd hp (by decide)) | rfl)) | split)

theorem setChan_keeps {ps : List Area} {s t : State} {x1 : Nat} {x2 : Chan} (h : Keeps ps s t)
    (hs : ([.afe] : List Area).all (fun p => ps.contains p) = true) : Keeps ps s (setChan t x1 x2) := by
  refine Keeps.step ?_ hs h
  unfold setChan
  try dsimp only
  repeat' with_reducible (first
    | exact Keeps.refl _ _ | assumption | apply Keeps.ite
    | (fail_if_no_progress refine Keeps.upd ?_ rfl (by intro p hp; cases p <;> first | (exact absurd hp (by decide)) | rfl)) | split)

theorem setCmp_keeps {ps : List Area} {s t : State} {x1 : Nat} {x2 : Cmp} (h : Keeps ps s t)
    (hs : ([.afe] : List Area).all (fun p => ps.contains p) = true) : Keeps ps s (setCmp t x1 x2) := by
  refine Keeps.step ?_ hs h
  unfold setCmp
  try dsimp only
  repeat' with_reducible (first
    | exact Keeps.refl _ _ | assumption | apply Keeps.ite
    | (fail_if_no_progress refine Keeps.upd ?_ rfl (by intro p hp; cases p <;> first | (exact absurd hp (by decide)) | rfl)) | split)

theorem startIgnored_keeps {ps : List Area} {s t : State} {x1 : Nat} (h : Keeps ps s t)
    (hs : ([.regs] : List Area).all (fun p => ps.contains p) = true) : Keeps ps s (startIgnored x1 t) := by
  refine Keeps.step ?_ hs h
  unfold startIgnored
  try dsimp only
  repeat' with_reducible (first
    | exact Keeps.refl _ _ | assumption | decide | apply setEvt_keeps | apply count_keeps | apply Keeps.ite | split)

theorem startEvent_keeps {ps : List Area} {s t : State} {x1 : Nat} (h : Keeps ps s t)
    (hs : ([.regs, .afe] : List Area).all (fun p => ps.contains p) = true) : Keeps ps s (startEvent x1 t) := by
  refine Keeps.step ?_ hs h
  unfold startEvent
  try dsimp only
  repeat' with_reducible (first
    | exact Keeps.refl _ _ | assumption | decide | apply setSeq_keeps | apply startIgnored_keeps | apply Keeps.ite
    | (fail_if_no_progress refine Keeps.upd ?_ rfl (by intro p hp; cases p <;> first | (exact absurd hp (by decide)) | rfl)) | split)

theorem startEvents_keeps {ps : List Area} {s t : State} {x1 : Nat} (h : Keeps ps s t)
    (hs : ([.regs, .afe] : List Area).all (fun p => ps.contains p) = true) : Keeps ps s (startEvents x1 t) := by
  refine Keeps.step ?_ hs h
  unfold startEvents
  try dsimp only
  repeat' with_reducible (first
    | exact Keeps.refl _ _ | assumption | decide | apply startEvent_keeps | apply Keeps.ite
    | (refine Keeps.foldl ?_ (fun u y hu => ?_) <;> try dsimp only) | split)

theorem seqGo_keeps {ps : List Area} {s t : State} {x1 : U32} (h : Keeps ps s t)
    (hs : ([.regs, .afe] : List Area).all (fun p => ps.contains p) = true) : Keeps ps s (seqGo x1 t) := by
  refine Keeps.step ?_ hs h
  unfold seqGo
  try dsimp only
  repeat' with_reducible (first
    | exact Keeps.refl _ _ | assumption | decide | apply startEvent_keeps | apply Keeps.ite
    | (refine Keeps.foldl ?_ (fun u y hu => ?_) <;> try dsimp only) | split)

theorem conversion_keeps {ps : List Area} {s t : State} {x1 : Nat} {x2 : Int} {x3 : Bool} (h : Keeps ps s t)
    (hs : ([.tick, .regs, .flt, .ints, .cores, .afe, .tly] : List Area).all (fun p => ps.contains p) = true)
        : Keeps ps s (conversion x1 x2 x3 t).1 := by
  refine Keeps.step ?_ hs h
  unfold conversion
  try dsimp only
  repeat' with_reducible (first
    | exact Keeps.refl _ _ | assumption | decide | apply advanceTo_keeps | apply setChan_keeps | apply setSeq_keeps | apply setEvt_keeps
    | apply count_keeps | apply report_keeps | apply intEdge_keeps | apply Keeps.ite | split
    | (fail_if_no_progress refine Keeps.upd ?_ rfl (by intro p hp; cases p <;> first | (exact absurd hp (by decide)) | rfl)))

theorem conversion_keeps' {ps : List Area} {s t : State} {x1 : Nat} {x2 : Int} {x3 : Bool} {y1 : Option (Nat × U32)}
    {y0 : State} (h : Keeps ps s t)
    (hs : ([.tick, .regs, .flt, .ints, .cores, .afe, .tly] : List Area).all
        (fun p => ps.contains p) = true) (e : conversion x1 x2 x3 t = (y0, y1)) : Keeps ps s y0 := by
  have k := conversion_keeps (t := t) (x1 := x1) (x2 := x2) (x3 := x3) h hs
  rw [e] at k
  exact k

theorem afeLatch_keeps {ps : List Area} {s t : State} {x1 : Nat} (h : Keeps ps s t)
    (hs : ([.afe] : List Area).all (fun p => ps.contains p) = true) : Keeps ps s (afeLatch x1 t) := by
  refine Keeps.step ?_ hs h
  unfold afeLatch
  try dsimp only
  repeat' with_reducible (first
    | exact Keeps.refl _ _ | assumption | apply Keeps.ite
    | (fail_if_no_progress refine Keeps.upd ?_ rfl (by intro p hp; cases p <;> first | (exact absurd hp (by decide)) | rfl)) | split)

theorem seqModeWrite_keeps {ps : List Area} {s t : State} {x1 : Nat} {x2 : U32} (h : Keeps ps s t)
    (hs : ([.regs, .afe] : List Area).all (fun p => ps.contains p) = true) : Keeps ps s (seqModeWrite x1 x2 t) := by
  refine Keeps.step ?_ hs h
  unfold seqModeWrite
  try dsimp only
  repeat' with_reducible (first
    | exact Keeps.refl _ _ | assumption | decide | apply plainWrite_keeps | apply setSeq_keeps | apply Keeps.ite
    | (fail_if_no_progress refine Keeps.upd ?_ rfl (by intro p hp; cases p <;> first | (exact absurd hp (by decide)) | rfl)) | split)

theorem entWrite_keeps {ps : List Area} {s t : State} {x1 : Nat} {x2 : Nat} {x3 : U32} (h : Keeps ps s t)
    (hs : ([.regs, .afe] : List Area).all (fun p => ps.contains p) = true) : Keeps ps s (entWrite x1 x2 x3 t) := by
  refine Keeps.step ?_ hs h
  unfold entWrite
  try dsimp only
  repeat' with_reducible (first
    | exact Keeps.refl _ _ | assumption | decide | apply setEvt_keeps | apply plainWrite_keeps | apply setSeq_keeps | apply Keeps.ite
    | (fail_if_no_progress refine Keeps.upd ?_ rfl (by intro p hp; cases p <;> first | (exact absurd hp (by decide)) | rfl)) | split)

theorem chCfgWrite_keeps {ps : List Area} {s t : State} {x1 : Nat} {x2 : U32} (h : Keeps ps s t)
    (hs : ([.regs, .afe] : List Area).all (fun p => ps.contains p) = true) : Keeps ps s (chCfgWrite x1 x2 t) := by
  refine Keeps.step ?_ hs h
  unfold chCfgWrite
  try dsimp only
  repeat' with_reducible (first
    | exact Keeps.refl _ _ | assumption | decide | apply plainWrite_keeps | apply setChan_keeps | apply Keeps.ite
    | (fail_if_no_progress refine Keeps.upd ?_ rfl (by intro p hp; cases p <;> first | (exact absurd hp (by decide)) | rfl)) | split)

theorem cmpCross_keeps {ps : List Area} {s t : State} {x1 : Nat} (h : Keeps ps s t)
    (hs : ([.regs, .flt, .ints, .cores, .afe] : List Area).all (fun p => ps.contains p) = true) : Keeps ps s (cmpCross x1 t) := by
  refine Keeps.step ?_ hs h
  unfold cmpCross
  try dsimp only
  repeat' with_reducible (first
    | exact Keeps.refl _ _ | assumption | decide | apply setCmp_keeps | apply setEvt_keeps | apply count_keeps | apply startEvent_keeps
    | apply intEdge_keeps | apply Keeps.ite | (refine Keeps.foldl ?_ (fun u y hu => ?_) <;> try dsimp only) | split)

theorem jnlDropped_keeps {ps : List Area} {s t : State} {x1 : Nat} (h : Keeps ps s t)
    (hs : ([.regs] : List Area).all (fun p => ps.contains p) = true) : Keeps ps s (jnlDropped x1 t) := by
  refine Keeps.step ?_ hs h
  unfold jnlDropped
  try dsimp only
  repeat' with_reducible (first
    | exact Keeps.refl _ _ | assumption | decide | apply setEvt_keeps | apply count_keeps | apply Keeps.ite | split)

theorem jnlPut_keeps {ps : List Area} {s t : State} {x1 : Nat} {x2 : List U64} (h : Keeps ps s t)
    (hs : ([.regs, .grn] : List Area).all (fun p => ps.contains p) = true) : Keeps ps s (jnlPut x1 x2 t) := by
  refine Keeps.step ?_ hs h
  unfold jnlPut
  try dsimp only
  repeat' with_reducible (first
    | exact Keeps.refl _ _ | assumption | decide | apply jnlDropped_keeps | apply Keeps.ite | split
    | (fail_if_no_progress refine Keeps.upd ?_ rfl (by intro p hp; cases p <;> first | (exact absurd hp (by decide)) | rfl)))

theorem jnlCommand_keeps {ps : List Area} {s t : State} {x1 : U64} {x2 : U64} {x3 : Nat} {x4 : U32} {x5 : Option Cpl} (h : Keeps ps s t)
    (hs : ([.regs, .grn] : List Area).all (fun p => ps.contains p) = true) : Keeps ps s (jnlCommand x1 x2 x3 x4 x5 t) := by
  refine Keeps.step ?_ hs h
  unfold jnlCommand
  try dsimp only
  repeat' with_reducible (first
    | exact Keeps.refl _ _ | assumption | decide | apply jnlPut_keeps | apply Keeps.ite | split
    | (fail_if_no_progress refine Keeps.upd ?_ rfl (by intro p hp; cases p <;> first | (exact absurd hp (by decide)) | rfl)))

theorem cplOut_keeps {ps : List Area} {s t : State} {x1 : Cpl} (h : Keeps ps s t)
    (hs : ([.regs, .hst, .cmd, .grn] : List Area).all (fun p => ps.contains p) = true) : Keeps ps s (cplOut x1 t) := by
  refine Keeps.step ?_ hs h
  unfold cplOut
  try dsimp only
  repeat' with_reducible (first
    | exact Keeps.refl _ _ | assumption | decide | apply jnlCommand_keeps | apply postCpl_keeps | apply Keeps.ite
    | (refine Keeps.foldl ?_ (fun u y hu => ?_) <;> try dsimp only) | split
    | (fail_if_no_progress refine Keeps.upd ?_ rfl (by intro p hp; cases p <;> first | (exact absurd hp (by decide)) | rfl)))

theorem journalWrite_keeps {ps : List Area} {s t : State} (h : Keeps ps s t)
    (hs : ([.regs, .std, .grn] : List Area).all (fun p => ps.contains p) = true) : Keeps ps s (journalWrite t) := by
  refine Keeps.step ?_ hs h
  unfold journalWrite
  try dsimp only
  repeat' with_reducible (first
    | exact Keeps.refl _ _ | assumption | decide | apply count_keeps | apply Keeps.ite
    | (refine Keeps.foldl ?_ (fun u y hu => ?_) <;> try dsimp only) | split
    | (fail_if_no_progress refine Keeps.upd ?_ rfl (by intro p hp; cases p <;> first | (exact absurd hp (by decide)) | rfl)))

theorem jnlLocate_keeps {ps : List Area} {s t : State} (h : Keeps ps s t)
    (hs : ([.grn] : List Area).all (fun p => ps.contains p) = true) : Keeps ps s (jnlLocate t) := by
  refine Keeps.step ?_ hs h
  unfold jnlLocate
  try dsimp only
  repeat' with_reducible (first
    | exact Keeps.refl _ _ | assumption | apply Keeps.ite | split
    | (fail_if_no_progress refine Keeps.upd ?_ rfl (by intro p hp; cases p <;> first | (exact absurd hp (by decide)) | rfl)))

theorem setEth_keeps {ps : List Area} {s t : State} {x1 : Nat} {x2 : EthPort} (h : Keeps ps s t)
    (hs : ([.tim] : List Area).all (fun p => ps.contains p) = true) : Keeps ps s (setEth t x1 x2) := by
  refine Keeps.step ?_ hs h
  unfold setEth
  try dsimp only
  repeat' with_reducible (first
    | exact Keeps.refl _ _ | assumption | apply Keeps.ite
    | (fail_if_no_progress refine Keeps.upd ?_ rfl (by intro p hp; cases p <;> first | (exact absurd hp (by decide)) | rfl)) | split)

theorem timeSignals_keeps {ps : List Area} {s t : State} (h : Keeps ps s t)
    (hs : ([.regs, .flt, .snr] : List Area).all (fun p => ps.contains p) = true) : Keeps ps s (timeSignals t) := by
  refine Keeps.step ?_ hs h
  unfold timeSignals
  try dsimp only
  repeat' with_reducible (first | exact Keeps.refl _ _ | assumption | decide | apply snareSig_keeps | apply Keeps.ite | split)

theorem servoY_keeps {ps : List Area} {s t : State} (h : Keeps ps s t)
    (hs : ([.freeCtr] : List Area).all (fun p => ps.contains p) = true) : Keeps ps s (servoY t).2.2 := by
  refine Keeps.step ?_ hs h
  unfold servoY
  try dsimp only
  repeat' with_reducible (first
    | exact Keeps.refl _ _ | assumption | decide | refine draw_keeps' ?_ ?_ (by assumption) | apply draw_keeps | apply Keeps.ite | split)

theorem servoY_keeps' {ps : List Area} {s t : State} {y0 : Int} {y1 : Bool} {y2 : State} (h : Keeps ps s t)
    (hs : ([.freeCtr] : List Area).all (fun p => ps.contains p) = true) (e : servoY t = (y0, y1, y2)) : Keeps ps s y2 := by
  have k := servoY_keeps (t := t) h hs
  rw [e] at k
  exact k

theorem syncLost_keeps {ps : List Area} {s t : State} (h : Keeps ps s t)
    (hs : ([.regs, .tim] : List Area).all (fun p => ps.contains p) = true) : Keeps ps s (syncLost t) := by
  refine Keeps.step ?_ hs h
  unfold syncLost
  try dsimp only
  repeat' with_reducible (first
    | exact Keeps.refl _ _ | assumption | decide | apply setEvt_keeps | apply Keeps.ite
    | (fail_if_no_progress refine Keeps.upd ?_ rfl (by intro p hp; cases p <;> first | (exact absurd hp (by decide)) | rfl)) | split)

theorem syncStep_keeps {ps : List Area} {s t : State} {x1 : Int} (h : Keeps ps s t)
    (hs : ([.regs, .tim] : List Area).all (fun p => ps.contains p) = true) : Keeps ps s (syncStep x1 t) := by
  refine Keeps.step ?_ hs h
  unfold syncStep
  try dsimp only
  repeat' with_reducible (first
    | exact Keeps.refl _ _ | assumption | decide | apply syncLost_keeps | apply Keeps.ite
    | (fail_if_no_progress refine Keeps.upd ?_ rfl (by intro p hp; cases p <;> first | (exact absurd hp (by decide)) | rfl)) | split)

theorem servoSlew_keeps {ps : List Area} {s t : State} {x1 : Int} (h : Keeps ps s t)
    (hs : ([.regs, .freeCtr, .flt, .tim] : List Area).all (fun p => ps.contains p) = true) : Keeps ps s (servoSlew x1 t) := by
  refine Keeps.step ?_ hs h
  unfold servoSlew
  try dsimp only
  repeat' with_reducible (first
    | exact Keeps.refl _ _ | assumption | decide | refine servoY_keeps' ?_ ?_ (by assumption) | apply servoY_keeps | apply report_keeps
    | apply syncStep_keeps | apply Keeps.ite | split
    | (fail_if_no_progress refine Keeps.upd ?_ rfl (by intro p hp; cases p <;> first | (exact absurd hp (by decide)) | rfl)))

theorem holdY_keeps {ps : List Area} {s t : State} (h : Keeps ps s t)
    (hs : ([.freeCtr, .tim] : List Area).all (fun p => ps.contains p) = true) : Keeps ps s (holdY t) := by
  refine Keeps.step ?_ hs h
  unfold holdY
  try dsimp only
  repeat' with_reducible (first
    | exact Keeps.refl _ _ | assumption | decide | refine draw_keeps' ?_ ?_ (by assumption) | apply draw_keeps | apply Keeps.ite | split
    | (fail_if_no_progress refine Keeps.upd ?_ rfl (by intro p hp; cases p <;> first | (exact absurd hp (by decide)) | rfl)))

theorem stepPending_keeps {ps : List Area} {s t : State} {x1 : Int} (h : Keeps ps s t)
    (hs : ([.regs, .freeCtr, .flt, .tim] : List Area).all (fun p => ps.contains p) = true) : Keeps ps s (stepPending x1 t) := by
  refine Keeps.step ?_ hs h
  unfold stepPending
  try dsimp only
  repeat' with_reducible (first
    | exact Keeps.refl _ _ | assumption | decide | apply syncStep_keeps | apply holdY_keeps | apply report_keeps | apply setEvt_keeps
    | apply Keeps.ite
    | (fail_if_no_progress refine Keeps.upd ?_ rfl (by intro p hp; cases p <;> first | (exact absurd hp (by decide)) | rfl)) | split)

theorem measCommit_keeps {ps : List Area} {s t : State} {x1 : U32} (h : Keeps ps s t)
    (hs : ([.regs, .freeCtr, .flt, .tim, .snr] : List Area).all (fun p => ps.contains p) = true) : Keeps ps s (measCommit x1 t) := by
  refine Keeps.step ?_ hs h
  unfold measCommit
  try dsimp only
  repeat' with_reducible (first
    | exact Keeps.refl _ _ | assumption | decide | apply count_keeps | apply servoSlew_keeps | apply stepPending_keeps
    | apply timeSignals_keeps | apply Keeps.ite
    | (fail_if_no_progress refine Keeps.upd ?_ rfl (by intro p hp; cases p <;> first | (exact absurd hp (by decide)) | rfl)) | split)

theorem holdoverTimeout_keeps {ps : List Area} {s t : State} (h : Keeps ps s t)
    (hs : ([.tick, .regs, .freeCtr, .flt, .tim, .snr, .tly] : List Area).all (fun p => ps.contains p) = true)
        : Keeps ps s (holdoverTimeout t) := by
  refine Keeps.step ?_ hs h
  unfold holdoverTimeout
  try dsimp only
  repeat' with_reducible (first
    | exact Keeps.refl _ _ | assumption | decide | apply syncLost_keeps | apply holdY_keeps | apply advanceTo_keeps
    | apply timeSignals_keeps | apply report_keeps | apply setEvt_keeps | apply Keeps.ite
    | (fail_if_no_progress refine Keeps.upd ?_ rfl (by intro p hp; cases p <;> first | (exact absurd hp (by decide)) | rfl)) | split)

theorem stepApply_keeps {ps : List Area} {s t : State} {x1 : Int} (h : Keeps ps s t)
    (hs : ([.regs, .flt, .tim, .snr] : List Area).all (fun p => ps.contains p) = true) : Keeps ps s (stepApply x1 t) := by
  refine Keeps.step ?_ hs h
  unfold stepApply
  try dsimp only
  repeat' with_reducible (first
    | exact Keeps.refl _ _ | assumption | decide | apply timeSignals_keeps | apply setEvt_keeps | apply Keeps.ite
    | (fail_if_no_progress refine Keeps.upd ?_ rfl (by intro p hp; cases p <;> first | (exact absurd hp (by decide)) | rfl)) | split)

theorem bootStepApply_keeps {ps : List Area} {s t : State} (h : Keeps ps s t)
    (hs : ([.regs, .tim] : List Area).all (fun p => ps.contains p) = true) : Keeps ps s (bootStepApply t) := by
  refine Keeps.step ?_ hs h
  unfold bootStepApply
  try dsimp only
  repeat' with_reducible (first
    | exact Keeps.refl _ _ | assumption | decide | apply setEvt_keeps | apply Keeps.ite | split
    | (fail_if_no_progress refine Keeps.upd ?_ rfl (by intro p hp; cases p <;> first | (exact absurd hp (by decide)) | rfl)))

theorem ptpFirstFrame_keeps {ps : List Area} {s t : State} (h : Keeps ps s t)
    (hs : ([.tim] : List Area).all (fun p => ps.contains p) = true) : Keeps ps s (ptpFirstFrame t) := by
  refine Keeps.step ?_ hs h
  unfold ptpFirstFrame
  try dsimp only
  repeat' with_reducible (first
    | exact Keeps.refl _ _ | assumption | apply Keeps.ite
    | (fail_if_no_progress refine Keeps.upd ?_ rfl (by intro p hp; cases p <;> first | (exact absurd hp (by decide)) | rfl)) | split)

theorem guardEnd_keeps {ps : List Area} {s t : State} (h : Keeps ps s t)
    (hs : ([.tick, .tim, .tly] : List Area).all (fun p => ps.contains p) = true) : Keeps ps s (guardEnd t) := by
  refine Keeps.step ?_ hs h
  unfold guardEnd
  try dsimp only
  repeat' with_reducible (first
    | exact Keeps.refl _ _ | assumption | decide | apply advanceTo_keeps | apply Keeps.ite | split
    | (fail_if_no_progress refine Keeps.upd ?_ rfl (by intro p hp; cases p <;> first | (exact absurd hp (by decide)) | rfl)))

theorem ptpSecond_keeps {ps : List Area} {s t : State} (h : Keeps ps s t)
    (hs : ([.tick, .std, .tly] : List Area).all (fun p => ps.contains p) = true) : Keeps ps s (ptpSecond t) := by
  refine Keeps.step ?_ hs h
  unfold ptpSecond
  try dsimp only
  repeat' with_reducible (first
    | exact Keeps.refl _ _ | assumption | decide | apply advanceTo_keeps | apply Keeps.ite
    | (fail_if_no_progress refine Keeps.upd ?_ rfl (by intro p hp; cases p <;> first | (exact absurd hp (by decide)) | rfl)) | split)

theorem ethReceive_keeps {ps : List Area} {s t : State} {x1 : Nat} {x2 : Bool} {x3 : Bytes} (h : Keeps ps s t)
    (hs : ([.regs, .flt, .tim] : List Area).all (fun p => ps.contains p) = true) : Keeps ps s (ethReceive x1 x2 x3 t) := by
  refine Keeps.step ?_ hs h
  unfold ethReceive
  try dsimp only
  repeat' with_reducible (first
    | exact Keeps.refl _ _ | assumption | decide | apply report_keeps | apply setEth_keeps | apply count_keeps | apply setEvt_keeps
    | apply Keeps.ite | split
    | (fail_if_no_progress refine Keeps.upd ?_ rfl (by intro p hp; cases p <;> first | (exact absurd hp (by decide)) | rfl)))

theorem rxPop_keeps {ps : List Area} {s t : State} {x1 : Bus} {x2 : Nat} (h : Keeps ps s t)
    (hs : ([.rdata, .tim] : List Area).all (fun p => ps.contains p) = true) : Keeps ps s (rxPop x1 x2 t) := by
  refine Keeps.step ?_ hs h
  unfold rxPop
  try dsimp only
  repeat' with_reducible (first
    | exact Keeps.refl _ _ | assumption | decide | apply setEth_keeps | apply Keeps.ite
    | (refine Keeps.foldl ?_ (fun u y hu => ?_) <;> try dsimp only) | split
    | (fail_if_no_progress refine Keeps.upd ?_ rfl (by intro p hp; cases p <;> first | (exact absurd hp (by decide)) | rfl)))

theorem rxRel_keeps {ps : List Area} {s t : State} {x1 : Nat} {x2 : U32} (h : Keeps ps s t)
    (hs : ([.tim] : List Area).all (fun p => ps.contains p) = true) : Keeps ps s (rxRel x1 x2 t) := by
  refine Keeps.step ?_ hs h
  unfold rxRel
  try dsimp only
  repeat' with_reducible (first
    | exact Keeps.refl _ _ | assumption | decide | apply setEth_keeps | apply Keeps.ite
    | (fail_if_no_progress refine Keeps.upd ?_ rfl (by intro p hp; cases p <;> first | (exact absurd hp (by decide)) | rfl)) | split)

theorem txCtl_keeps {ps : List Area} {s t : State} {x1 : Nat} {x2 : U32} (h : Keeps ps s t)
    (hs : ([.regs, .tim] : List Area).all (fun p => ps.contains p) = true) : Keeps ps s (txCtl x1 x2 t) := by
  refine Keeps.step ?_ hs h
  unfold txCtl
  try dsimp only
  repeat' with_reducible (first
    | exact Keeps.refl _ _ | assumption | decide | apply setEvt_keeps | apply setEth_keeps | apply Keeps.ite
    | (fail_if_no_progress refine Keeps.upd ?_ rfl (by intro p hp; cases p <;> first | (exact absurd hp (by decide)) | rfl)) | split)

theorem txDone_keeps {ps : List Area} {s t : State} {x1 : Nat} (h : Keeps ps s t)
    (hs : ([.regs, .flt, .tim] : List Area).all (fun p => ps.contains p) = true) : Keeps ps s (txDone x1 t) := by
  refine Keeps.step ?_ hs h
  unfold txDone
  try dsimp only
  repeat' with_reducible (first
    | exact Keeps.refl _ _ | assumption | decide | apply setEth_keeps | apply wr_keeps | apply count_keeps | apply report_keeps
    | apply setEvt_keeps | apply Keeps.ite
    | (fail_if_no_progress refine Keeps.upd ?_ rfl (by intro p hp; cases p <;> first | (exact absurd hp (by decide)) | rfl)) | split)

theorem txtsPop_keeps {ps : List Area} {s t : State} {x1 : Bus} {x2 : Nat} (h : Keeps ps s t)
    (hs : ([.regs, .rdata, .tim] : List Area).all (fun p => ps.contains p) = true) : Keeps ps s (txtsPop x1 x2 t) := by
  refine Keeps.step ?_ hs h
  unfold txtsPop
  try dsimp only
  repeat' with_reducible (first
    | exact Keeps.refl _ _ | assumption | decide | apply wr_keeps | apply setEth_keeps | apply Keeps.ite | split
    | (fail_if_no_progress refine Keeps.upd ?_ rfl (by intro p hp; cases p <;> first | (exact absurd hp (by decide)) | rfl)))

theorem ethLink_keeps {ps : List Area} {s t : State} {x1 : Nat} {x2 : Bool} (h : Keeps ps s t)
    (hs : ([.regs, .flt, .tim] : List Area).all (fun p => ps.contains p) = true) : Keeps ps s (ethLink x1 x2 t) := by
  refine Keeps.step ?_ hs h
  unfold ethLink
  try dsimp only
  repeat' with_reducible (first
    | exact Keeps.refl _ _ | assumption | decide | apply setEth_keeps | apply report_keeps | apply setEvt_keeps | apply Keeps.ite
    | (fail_if_no_progress refine Keeps.upd ?_ rfl (by intro p hp; cases p <;> first | (exact absurd hp (by decide)) | rfl)) | split)

theorem ethCfgWrite_keeps {ps : List Area} {s t : State} {x1 : Nat} {x2 : U32} (h : Keeps ps s t)
    (hs : ([.regs, .tim] : List Area).all (fun p => ps.contains p) = true) : Keeps ps s (ethCfgWrite x1 x2 t) := by
  refine Keeps.step ?_ hs h
  unfold ethCfgWrite
  try dsimp only
  repeat' with_reducible (first
    | exact Keeps.refl _ _ | assumption | decide | apply plainWrite_keeps | apply setEth_keeps | apply Keeps.ite
    | (fail_if_no_progress refine Keeps.upd ?_ rfl (by intro p hp; cases p <;> first | (exact absurd hp (by decide)) | rfl)) | split)

theorem setGroup_keeps {ps : List Area} {s t : State} {x1 : Nat} {x2 : Group} (h : Keeps ps s t)
    (hs : ([.cmd] : List Area).all (fun p => ps.contains p) = true) : Keeps ps s (setGroup t x1 x2) := by
  refine Keeps.step ?_ hs h
  unfold setGroup
  try dsimp only
  repeat' with_reducible (first
    | exact Keeps.refl _ _ | assumption | apply Keeps.ite
    | (fail_if_no_progress refine Keeps.upd ?_ rfl (by intro p hp; cases p <;> first | (exact absurd hp (by decide)) | rfl)) | split)

theorem setRing_keeps {ps : List Area} {s t : State} {x1 : Nat} {x2 : Ring} (h : Keeps ps s t)
    (hs : ([.fur] : List Area).all (fun p => ps.contains p) = true) : Keeps ps s (setRing t x1 x2) := by
  refine Keeps.step ?_ hs h
  unfold setRing
  try dsimp only
  repeat' with_reducible (first
    | exact Keeps.refl _ _ | assumption | apply Keeps.ite
    | (fail_if_no_progress refine Keeps.upd ?_ rfl (by intro p hp; cases p <;> first | (exact absurd hp (by decide)) | rfl)) | split)

theorem setArmLa_keeps {ps : List Area} {s t : State} {x1 : Nat} {x2 : ArmLa} (h : Keeps ps s t)
    (hs : ([.cmd] : List Area).all (fun p => ps.contains p) = true) : Keeps ps s (setArmLa t x1 x2) := by
  refine Keeps.step ?_ hs h
  unfold setArmLa
  try dsimp only
  repeat' with_reducible (first
    | exact Keeps.refl _ _ | assumption | apply Keeps.ite
    | (fail_if_no_progress refine Keeps.upd ?_ rfl (by intro p hp; cases p <;> first | (exact absurd hp (by decide)) | rfl)) | split)

theorem setTurn_keeps {ps : List Area} {s t : State} {x1 : Bool} {x2 : Nat} {x3 : Nat} {x4 : Nat} (h : Keeps ps s t)
    (hs : ([.cmd] : List Area).all (fun p => ps.contains p) = true) : Keeps ps s (setTurn x1 x2 x3 t x4) := by
  refine Keeps.step ?_ hs h
  unfold setTurn
  try dsimp only
  repeat' with_reducible (first
    | exact Keeps.refl _ _ | assumption | apply Keeps.ite
    | (fail_if_no_progress refine Keeps.upd ?_ rfl (by intro p hp; cases p <;> first | (exact absurd hp (by decide)) | rfl)) | split)

theorem jnlRetire_keeps {ps : List Area} {s t : State} {x1 : Nat} {x2 : Nat} {x3 : List Nat} {x4 : Bool} (h : Keeps ps s t)
    (hs : ([.regs, .grn] : List Area).all (fun p => ps.contains p) = true) : Keeps ps s (jnlRetire x1 x2 x3 x4 t) := by
  refine Keeps.step ?_ hs h
  unfold jnlRetire
  try dsimp only
  repeat' with_reducible (first
    | exact Keeps.refl _ _ | assumption | decide | apply jnlPut_keeps | apply Keeps.ite
    | (refine Keeps.foldl ?_ (fun u y hu => ?_) <;> try dsimp only) | split)

theorem linePush_keeps {ps : List Area} {s t : State} {x1 : Nat} {x2 : Turn} (h : Keeps ps s t)
    (hs : ([.cmd] : List Area).all (fun p => ps.contains p) = true) : Keeps ps s (linePush x1 x2 t) := by
  refine Keeps.step ?_ hs h
  unfold linePush
  try dsimp only
  repeat' with_reducible (first
    | exact Keeps.refl _ _ | assumption | decide | apply setGroup_keeps | apply Keeps.ite
    | (fail_if_no_progress refine Keeps.upd ?_ rfl (by intro p hp; cases p <;> first | (exact absurd hp (by decide)) | rfl)) | split)

theorem lineCancel_keeps {ps : List Area} {s t : State} {x1 : Eff} (h : Keeps ps s t)
    (hs : ([.cmd] : List Area).all (fun p => ps.contains p) = true) : Keeps ps s (lineCancel t x1) := by
  refine Keeps.step ?_ hs h
  unfold lineCancel
  try dsimp only
  repeat' with_reducible (first
    | exact Keeps.refl _ _ | assumption | decide | apply setGroup_keeps | apply Keeps.ite
    | (refine Keeps.foldl ?_ (fun u y hu => ?_) <;> try dsimp only)
    | (fail_if_no_progress refine Keeps.upd ?_ rfl (by intro p hp; cases p <;> first | (exact absurd hp (by decide)) | rfl)) | split)

theorem cancelDeblocks_keeps {ps : List Area} {s t : State} {x1 : Eff → Bool} {x2 : Nat} {x3 : Nat} (h : Keeps ps s t)
    (hs : ([.cmd] : List Area).all (fun p => ps.contains p) = true) : Keeps ps s (cancelDeblocks x1 x2 x3 t) := by
  refine Keeps.step ?_ hs h
  unfold cancelDeblocks
  try dsimp only
  repeat' with_reducible (first
    | exact Keeps.refl _ _ | assumption | decide | apply lineCancel_keeps | apply Keeps.ite
    | (refine Keeps.foldl ?_ (fun u y hu => ?_) <;> try dsimp only)
    | (fail_if_no_progress refine Keeps.upd ?_ rfl (by intro p hp; cases p <;> first | (exact absurd hp (by decide)) | rfl)) | split)

theorem blockGroups_keeps {ps : List Area} {s t : State} {x1 : Nat} {x2 : Nat} {x3 : Nat} (h : Keeps ps s t)
    (hs : ([.cmd] : List Area).all (fun p => ps.contains p) = true) : Keeps ps s (blockGroups x1 x2 x3 t).2 := by
  refine Keeps.step ?_ hs h
  unfold blockGroups
  try dsimp only
  repeat' with_reducible (first
    | exact Keeps.refl _ _ | assumption | decide | apply cancelDeblocks_keeps | apply linePush_keeps | apply Keeps.ite
    | (refine Keeps.foldl ?_ (fun u y hu => ?_) <;> try dsimp only) | split)

theorem blockGroups_keeps' {ps : List Area} {s t : State} {x1 : Nat} {x2 : Nat} {x3 : Nat} {y0 : Nat} {y1 : State} (h : Keeps ps s t)
    (hs : ([.cmd] : List Area).all (fun p => ps.contains p) = true) (e : blockGroups x1 x2 x3 t = (y0, y1)) : Keeps ps s y1 := by
  have k := blockGroups_keeps (t := t) (x1 := x1) (x2 := x2) (x3 := x3) h hs
  rw [e] at k
  exact k

theorem blockByDecision_keeps {ps : List Area} {s t : State} {x1 : Nat} (h : Keeps ps s t)
    (hs : ([.cmd, .hrw] : List Area).all (fun p => ps.contains p) = true) : Keeps ps s (blockByDecision x1 t) := by
  refine Keeps.step ?_ hs h
  unfold blockByDecision
  try dsimp only
  repeat' with_reducible (first
    | exact Keeps.refl _ _ | assumption | decide | apply cancelDeblocks_keeps | apply linePush_keeps | apply Keeps.ite
    | (refine Keeps.foldl ?_ (fun u y hu => ?_) <;> try dsimp only)
    | (fail_if_no_progress refine Keeps.upd ?_ rfl (by intro p hp; cases p <;> first | (exact absurd hp (by decide)) | rfl)) | split)

theorem retireCells_keeps {ps : List Area} {s t : State} {x1 : List Nat} (h : Keeps ps s t)
    (hs : ([.regs, .flt, .cmd, .grn] : List Area).all (fun p => ps.contains p) = true) : Keeps ps s (retireCells x1 t) := by
  refine Keeps.step ?_ hs h
  unfold retireCells
  try dsimp only
  repeat' with_reducible (first
    | exact Keeps.refl _ _ | assumption | decide | apply setTurn_keeps | apply jnlRetire_keeps | apply setEvt_keeps | apply report_keeps
    | apply Keeps.ite | (refine Keeps.foldl ?_ (fun u y hu => ?_) <;> try dsimp only) | split)

theorem moveEffect_keeps {ps : List Area} {s t : State} {x1 : Nat} {x2 : Eff} (h : Keeps ps s t)
    (hs : ([.cmd] : List Area).all (fun p => ps.contains p) = true) : Keeps ps s (moveEffect x1 t x2) := by
  refine Keeps.step ?_ hs h
  unfold moveEffect
  try dsimp only
  repeat' with_reducible (first
    | exact Keeps.refl _ _ | assumption | decide | apply setGroup_keeps | apply Keeps.ite
    | (refine Keeps.foldl ?_ (fun u y hu => ?_) <;> try dsimp only) | split
    | (fail_if_no_progress refine Keeps.upd ?_ rfl (by intro p hp; cases p <;> first | (exact absurd hp (by decide)) | rfl)))

theorem blockReached_keeps {ps : List Area} {s t : State} {x1 : Turn} (h : Keeps ps s t)
    (hs : ([.cmd] : List Area).all (fun p => ps.contains p) = true) : Keeps ps s (blockReached t x1) := by
  refine Keeps.step ?_ hs h
  unfold blockReached
  try dsimp only
  repeat' with_reducible (first
    | exact Keeps.refl _ _ | assumption | decide | apply setGroup_keeps | apply Keeps.ite
    | (refine Keeps.foldl ?_ (fun u y hu => ?_) <;> try dsimp only)
    | (fail_if_no_progress refine Keeps.upd ?_ rfl (by intro p hp; cases p <;> first | (exact absurd hp (by decide)) | rfl)) | split)

theorem stepUp_keeps {ps : List Area} {s t : State} {x1 : Nat} {x2 : Nat} {x3 : ArmLa} (h : Keeps ps s t)
    (hs : ([.cmd] : List Area).all (fun p => ps.contains p) = true) : Keeps ps s (stepUp x1 x2 x3 t) := by
  refine Keeps.step ?_ hs h
  unfold stepUp
  try dsimp only
  repeat' with_reducible (first
    | exact Keeps.refl _ _ | assumption | decide | apply blockReached_keeps | apply moveEffect_keeps | apply setArmLa_keeps
    | apply Keeps.ite | (refine Keeps.foldl ?_ (fun u y hu => ?_) <;> try dsimp only) | split)

theorem laStep_keeps {ps : List Area} {s t : State} {x1 : Nat} {x2 : Nat} (h : Keeps ps s t)
    (hs : ([.cmd] : List Area).all (fun p => ps.contains p) = true) : Keeps ps s (laStep x1 t x2) := by
  refine Keeps.step ?_ hs h
  unfold laStep
  try dsimp only
  repeat' with_reducible (first
    | exact Keeps.refl _ _ | assumption | decide | apply stepUp_keeps | apply setArmLa_keeps | apply Keeps.ite | split
    | (fail_if_no_progress refine Keeps.upd ?_ rfl (by intro p hp; cases p <;> first | (exact absurd hp (by decide)) | rfl)))

theorem setBucket_keeps {ps : List Area} {s t : State} {x1 : Nat} {x2 : Bkt} (h : Keeps ps s t)
    (hs : ([.flt] : List Area).all (fun p => ps.contains p) = true) : Keeps ps s (setBucket t x1 x2) := by
  refine Keeps.step ?_ hs h
  unfold setBucket
  try dsimp only
  repeat' with_reducible (first
    | exact Keeps.refl _ _ | assumption | apply Keeps.ite
    | (fail_if_no_progress refine Keeps.upd ?_ rfl (by intro p hp; cases p <;> first | (exact absurd hp (by decide)) | rfl)) | split)

theorem bucketFrame_keeps {ps : List Area} {s t : State} {x1 : Nat} {x2 : Nat} {x3 : Bool} (h : Keeps ps s t)
    (hs : ([.regs, .flt] : List Area).all (fun p => ps.contains p) = true) : Keeps ps s (bucketFrame x1 x2 x3 t).2 := by
  refine Keeps.step ?_ hs h
  unfold bucketFrame
  try dsimp only
  repeat' with_reducible (first
    | exact Keeps.refl _ _ | assumption | decide | apply setBucket_keeps | apply count_keeps | apply Keeps.ite | split)

theorem bucketFrame_keeps' {ps : List Area} {s t : State} {x1 : Nat} {x2 : Nat} {x3 : Bool} {y0 : Bool} {y1 : State} (h : Keeps ps s t)
    (hs : ([.regs, .flt] : List Area).all (fun p => ps.contains p) = true) (e : bucketFrame x1 x2 x3 t = (y0, y1)) : Keeps ps s y1 := by
  have k := bucketFrame_keeps (t := t) (x1 := x1) (x2 := x2) (x3 := x3) h hs
  rw [e] at k
  exact k

theorem bucketRestore_keeps {ps : List Area} {s t : State} {x1 : Nat} {x2 : Nat} (h : Keeps ps s t)
    (hs : ([.flt] : List Area).all (fun p => ps.contains p) = true) : Keeps ps s (bucketRestore x1 x2 t) := by
  refine Keeps.step ?_ hs h
  unfold bucketRestore
  try dsimp only
  repeat' with_reducible (first | exact Keeps.refl _ _ | assumption | decide | apply setBucket_keeps | apply Keeps.ite | split)

theorem setFltRec_keeps {ps : List Area} {s t : State} {x1 : Nat} {x2 : FltRec} (h : Keeps ps s t)
    (hs : ([.flt] : List Area).all (fun p => ps.contains p) = true) : Keeps ps s (setFltRec t x1 x2) := by
  refine Keeps.step ?_ hs h
  unfold setFltRec
  try dsimp only
  repeat' with_reducible (first
    | exact Keeps.refl _ _ | assumption | apply Keeps.ite
    | (fail_if_no_progress refine Keeps.upd ?_ rfl (by intro p hp; cases p <;> first | (exact absurd hp (by decide)) | rfl)) | split)

theorem markPermanent_keeps {ps : List Area} {s t : State} {x1 : U16} (h : Keeps ps s t)
    (hs : ([.flt] : List Area).all (fun p => ps.contains p) = true) : Keeps ps s (markPermanent x1 t) := by
  refine Keeps.step ?_ hs h
  unfold markPermanent
  try dsimp only
  repeat' with_reducible (first
    | exact Keeps.refl _ _ | assumption | apply Keeps.ite
    | (fail_if_no_progress refine Keeps.upd ?_ rfl (by intro p hp; cases p <;> first | (exact absurd hp (by decide)) | rfl)) | split)

theorem retireElement_keeps {ps : List Area} {s t : State} {x1 : U16} (h : Keeps ps s t)
    (hs : ([.regs, .flt] : List Area).all (fun p => ps.contains p) = true) : Keeps ps s (retireElement x1 t) := by
  refine Keeps.step ?_ hs h
  unfold retireElement
  try dsimp only
  repeat' with_reducible (first
    | exact Keeps.refl _ _ | assumption | decide | apply report_keeps | apply setEvt_keeps | apply markPermanent_keeps | apply Keeps.ite
    | split)

theorem tocsinRetire_keeps {ps : List Area} {s t : State} {x1 : List Nat} (h : Keeps ps s t)
    (hs : ([.regs, .flt, .cmd, .grn] : List Area).all (fun p => ps.contains p) = true) : Keeps ps s (tocsinRetire x1 t) := by
  refine Keeps.step ?_ hs h
  unfold tocsinRetire
  try dsimp only
  repeat' with_reducible (first
    | exact Keeps.refl _ _ | assumption | decide | apply retireCells_keeps | apply markPermanent_keeps | apply Keeps.ite
    | (refine Keeps.foldl ?_ (fun u y hu => ?_) <;> try dsimp only) | split)

theorem recLost_keeps {ps : List Area} {s t : State} {x1 : Bool} (h : Keeps ps s t)
    (hs : ([.regs, .flt] : List Area).all (fun p => ps.contains p) = true) : Keeps ps s (recLost x1 t) := by
  refine Keeps.step ?_ hs h
  unfold recLost
  try dsimp only
  repeat' with_reducible (first
    | exact Keeps.refl _ _ | assumption | decide | apply setEvt_keeps | apply count_keeps | apply Keeps.ite
    | (fail_if_no_progress refine Keeps.upd ?_ rfl (by intro p hp; cases p <;> first | (exact absurd hp (by decide)) | rfl)) | split)

theorem putRec_keeps {ps : List Area} {s t : State} {x1 : Nat} {x2 : FltRec} (h : Keeps ps s t)
    (hs : ([.regs, .flt, .snr] : List Area).all (fun p => ps.contains p) = true) : Keeps ps s (putRec x1 x2 t).2 := by
  refine Keeps.step ?_ hs h
  unfold putRec
  try dsimp only
  repeat' with_reducible (first
    | exact Keeps.refl _ _ | assumption | decide | apply setFltRec_keeps | apply snareEvent_keeps | apply setEvt_keeps | apply Keeps.ite
    | (fail_if_no_progress refine Keeps.upd ?_ rfl (by intro p hp; cases p <;> first | (exact absurd hp (by decide)) | rfl)) | split)

theorem putRec_keeps' {ps : List Area} {s t : State} {x1 : Nat} {x2 : FltRec} {y0 : FltRec} {y1 : State} (h : Keeps ps s t)
    (hs : ([.regs, .flt, .snr] : List Area).all (fun p => ps.contains p) = true) (e : putRec x1 x2 t = (y0, y1)) : Keeps ps s y1 := by
  have k := putRec_keeps (t := t) (x1 := x1) (x2 := x2) h hs
  rw [e] at k
  exact k

theorem storeRec_keeps {ps : List Area} {s t : State} {x1 : FltRec} (h : Keeps ps s t)
    (hs : ([.regs, .flt, .snr] : List Area).all (fun p => ps.contains p) = true) : Keeps ps s (storeRec x1 t).2 := by
  refine Keeps.step ?_ hs h
  unfold storeRec
  try dsimp only
  repeat' with_reducible (first
    | exact Keeps.refl _ _ | assumption | decide | refine putRec_keeps' ?_ ?_ (by assumption) | apply putRec_keeps | apply recLost_keeps
    | apply Keeps.ite | split
    | (fail_if_no_progress refine Keeps.upd ?_ rfl (by intro p hp; cases p <;> first | (exact absurd hp (by decide)) | rfl)))

theorem storeRec_keeps' {ps : List Area} {s t : State} {x1 : FltRec} {y0 : FltRec} {y1 : State} (h : Keeps ps s t)
    (hs : ([.regs, .flt, .snr] : List Area).all (fun p => ps.contains p) = true) (e : storeRec x1 t = (y0, y1)) : Keeps ps s y1 := by
  have k := storeRec_keeps (t := t) (x1 := x1) h hs
  rw [e] at k
  exact k

theorem firstFault_keeps {ps : List Area} {s t : State} {x1 : FltRec} {x2 : Bool} (h : Keeps ps s t)
    (hs : ([.regs, .flt, .grn] : List Area).all (fun p => ps.contains p) = true) : Keeps ps s (firstFault x1 x2 t) := by
  refine Keeps.step ?_ hs h
  unfold firstFault
  try dsimp only
  repeat' with_reducible (first
    | exact Keeps.refl _ _ | assumption | decide | apply jnlPut_keeps | apply Keeps.ite
    | (fail_if_no_progress refine Keeps.upd ?_ rfl (by intro p hp; cases p <;> first | (exact absurd hp (by decide)) | rfl)) | split)

theorem reportEvent_keeps {ps : List Area} {s t : State} {x1 : FltRec} (h : Keeps ps s t)
    (hs : ([.regs, .hst, .flt] : List Area).all (fun p => ps.contains p) = true) : Keeps ps s (reportEvent x1 t) := by
  refine Keeps.step ?_ hs h
  unfold reportEvent
  try dsimp only
  repeat' with_reducible (first
    | exact Keeps.refl _ _ | assumption | decide | apply raiseEvent_keeps | apply Keeps.ite | split
    | (fail_if_no_progress refine Keeps.upd ?_ rfl (by intro p hp; cases p <;> first | (exact absurd hp (by decide)) | rfl)))

theorem faultnCapture_keeps {ps : List Area} {s t : State} (h : Keeps ps s t)
    (hs : ([.flt] : List Area).all (fun p => ps.contains p) = true) : Keeps ps s (faultnCapture t) := by
  refine Keeps.step ?_ hs h
  unfold faultnCapture
  try dsimp only
  repeat' with_reducible (first
    | exact Keeps.refl _ _ | assumption | apply Keeps.ite
    | (fail_if_no_progress refine Keeps.upd ?_ rfl (by intro p hp; cases p <;> first | (exact absurd hp (by decide)) | rfl)) | split)

theorem faultnUpdate_keeps {ps : List Area} {s t : State} (h : Keeps ps s t)
    (hs : ([.flt] : List Area).all (fun p => ps.contains p) = true) : Keeps ps s (faultnUpdate t) := by
  refine Keeps.step ?_ hs h
  unfold faultnUpdate
  try dsimp only
  repeat' with_reducible (first
    | exact Keeps.refl _ _ | assumption | apply Keeps.ite
    | (fail_if_no_progress refine Keeps.upd ?_ rfl (by intro p hp; cases p <;> first | (exact absurd hp (by decide)) | rfl)) | split)

theorem faultnPulseEnd_keeps {ps : List Area} {s t : State} (h : Keeps ps s t)
    (hs : ([.tick, .flt, .tly] : List Area).all (fun p => ps.contains p) = true) : Keeps ps s (faultnPulseEnd t) := by
  refine Keeps.step ?_ hs h
  unfold faultnPulseEnd
  try dsimp only
  repeat' with_reducible (first
    | exact Keeps.refl _ _ | assumption | decide | apply advanceTo_keeps | apply faultnUpdate_keeps | apply Keeps.ite | split
    | (fail_if_no_progress refine Keeps.upd ?_ rfl (by intro p hp; cases p <;> first | (exact absurd hp (by decide)) | rfl)))

theorem reaction_keeps {ps : List Area} {s t : State} {x1 : FltRec} (h : Keeps ps s t)
    (hs : ([.regs, .flt, .cmd, .grn] : List Area).all (fun p => ps.contains p) = true) : Keeps ps s (reaction x1 t) := by
  refine Keeps.step ?_ hs h
  unfold reaction
  try dsimp only
  repeat' with_reducible (first
    | exact Keeps.refl _ _ | assumption | decide | apply tocsinRetire_keeps | refine blockGroups_keeps' ?_ ?_ (by assumption)
    | apply blockGroups_keeps | apply Keeps.ite
    | (fail_if_no_progress refine Keeps.upd ?_ rfl (by intro p hp; cases p <;> first | (exact absurd hp (by decide)) | rfl)) | split)

theorem captureOne_keeps {ps : List Area} {s t : State} {x1 : Nat} {x2 : Report} (h : Keeps ps s t)
    (hs : ([.regs, .hst, .flt, .cmd, .grn, .snr] : List Area).all (fun p => ps.contains p) = true) : Keeps ps s (captureOne x1 t x2) := by
  refine Keeps.step ?_ hs h
  unfold captureOne
  try dsimp only
  repeat' with_reducible (first
    | exact Keeps.refl _ _ | assumption | decide | apply count_keeps | apply snareEvent_keeps | apply setEvt_keeps
    | apply setFltRec_keeps | apply tocsinRetire_keeps | apply firstFault_keeps | refine storeRec_keeps' ?_ ?_ (by assumption)
    | apply storeRec_keeps | apply reportEvent_keeps | apply faultnCapture_keeps | apply reaction_keeps | apply Keeps.ite | split
    | (fail_if_no_progress refine Keeps.upd ?_ rfl (by intro p hp; cases p <;> first | (exact absurd hp (by decide)) | rfl)))

theorem captureCycle_keeps {ps : List Area} {s t : State} {x1 : Nat} (h : Keeps ps s t)
    (hs : ([.regs, .hst, .flt, .cmd, .grn, .snr] : List Area).all (fun p => ps.contains p) = true) : Keeps ps s (captureCycle x1 t).2 := by
  refine Keeps.step ?_ hs h
  unfold captureCycle
  try dsimp only
  repeat' with_reducible (first
    | exact Keeps.refl _ _ | assumption | decide | apply captureOne_keeps | apply snareEval_keeps | apply report_keeps | apply Keeps.ite
    | (refine Keeps.foldl ?_ (fun u y hu => ?_) <;> try dsimp only)
    | (fail_if_no_progress refine Keeps.upd ?_ rfl (by intro p hp; cases p <;> first | (exact absurd hp (by decide)) | rfl)) | split)

theorem captureCycle_keeps' {ps : List Area} {s t : State} {x1 : Nat} {y0 : List Report} {y1 : State} (h : Keeps ps s t)
    (hs : ([.regs, .hst, .flt, .cmd, .grn, .snr] : List Area).all (fun p => ps.contains p) = true)
        (e : captureCycle x1 t = (y0, y1)) : Keeps ps s y1 := by
  have k := captureCycle_keeps (t := t) (x1 := x1) h hs
  rw [e] at k
  exact k

theorem tocsinReport_keeps {ps : List Area} {s t : State} {x1 : Nat} (h : Keeps ps s t)
    (hs : ([.regs, .hst, .flt, .cmd, .grn, .snr] : List Area).all (fun p => ps.contains p) = true) : Keeps ps s (tocsinReport x1 t) := by
  refine Keeps.step ?_ hs h
  unfold tocsinReport
  try dsimp only
  repeat' with_reducible (first
    | exact Keeps.refl _ _ | assumption | decide | refine captureCycle_keeps' ?_ ?_ (by assumption) | apply captureCycle_keeps
    | apply Keeps.ite | split)

theorem clearRec_keeps {ps : List Area} {s t : State} {x1 : List Report} {x2 : Nat} (h : Keeps ps s t)
    (hs : ([.regs, .hst, .flt] : List Area).all (fun p => ps.contains p) = true) : Keeps ps s (clearRec x1 t x2) := by
  refine Keeps.step ?_ hs h
  unfold clearRec
  try dsimp only
  repeat' with_reducible (first
    | exact Keeps.refl _ _ | assumption | decide | apply setEvt_keeps | apply count_keeps | apply setFltRec_keeps
    | apply raiseEvent_keeps | apply Keeps.ite
    | (fail_if_no_progress refine Keeps.upd ?_ rfl (by intro p hp; cases p <;> first | (exact absurd hp (by decide)) | rfl)) | split)

theorem fltClear_keeps {ps : List Area} {s t : State} {x1 : U32} {x2 : Nat} (h : Keeps ps s t)
    (hs : ([.regs, .hst, .flt, .cmd, .grn, .snr] : List Area).all (fun p => ps.contains p) = true) : Keeps ps s (fltClear x1 x2 t) := by
  refine Keeps.step ?_ hs h
  unfold fltClear
  try dsimp only
  repeat' with_reducible (first
    | exact Keeps.refl _ _ | assumption | decide | refine captureCycle_keeps' ?_ ?_ (by assumption) | apply captureCycle_keeps
    | apply clearRec_keeps | apply faultnUpdate_keeps | apply Keeps.ite | (refine Keeps.foldl ?_ (fun u y hu => ?_) <;> try dsimp only)
    | split | (fail_if_no_progress refine Keeps.upd ?_ rfl (by intro p hp; cases p <;> first | (exact absurd hp (by decide)) | rfl)))

end Sys2Proof.Machine
end

