-- ==== Sys2Proof/Laws/KeepsRing.lean ====
section
/-! SUPPORT. What every operation of Furrow, Harrow, carriers, points and protection leaves as it was (Keeps): each lemma names the areas of
the state that the operation may change; the queue, core memory, the canonical forms, issued host writes, the free values drawn and REV_CNT
are kept by all. -/

set_option linter.unusedTactic false
set_option linter.unreachableTactic false

namespace Sys2Proof.Machine

theorem modRing_keeps {ps : List Area} {s t : State} {x1 : Nat} {x2 : Ring → Ring} (h : Keeps ps s t)
    (hs : ([.fur] : List Area).all (fun p => ps.contains p) = true) : Keeps ps s (modRing x1 x2 t) := by
  refine Keeps.step ?_ hs h
  unfold modRing
  try dsimp only
  repeat' with_reducible (first | exact Keeps.refl _ _ | assumption | decide | apply setRing_keeps | apply Keeps.ite | split)

theorem ringTo_keeps {ps : List Area} {s t : State} {x1 : Nat} {x2 : Nat} (h : Keeps ps s t)
    (hs : ([.regs, .flt, .ints, .cores, .fur, .snr] : List Area).all (fun p => ps.contains p) = true) : Keeps ps s (ringTo x1 x2 t) := by
  refine Keeps.step ?_ hs h
  unfold ringTo
  try dsimp only
  repeat' with_reducible (first
    | exact Keeps.refl _ _ | assumption | decide | apply snareSig_keeps | apply intEdge_keeps | apply setRing_keeps | apply Keeps.ite
    | (fail_if_no_progress refine Keeps.upd ?_ rfl (by intro p hp; cases p <;> first | (exact absurd hp (by decide)) | rfl)) | split)

theorem laFollow_keeps {ps : List Area} {s t : State} (h : Keeps ps s t)
    (hs : ([.cmd] : List Area).all (fun p => ps.contains p) = true) : Keeps ps s (laFollow t) := by
  refine Keeps.step ?_ hs h
  unfold laFollow
  try dsimp only
  repeat' with_reducible (first
    | exact Keeps.refl _ _ | assumption | decide | apply laStep_keeps | apply Keeps.ite
    | (refine Keeps.foldl ?_ (fun u y hu => ?_) <;> try dsimp only) | split)

theorem ringEnter_keeps {ps : List Area} {s t : State} {x1 : Nat} {x2 : Nat} (h : Keeps ps s t)
    (hs : ([.regs, .flt, .cmd, .ints, .cores, .fur, .snr] : List Area).all (fun p => ps.contains p) = true)
        : Keeps ps s (ringEnter x1 x2 t) := by
  refine Keeps.step ?_ hs h
  unfold ringEnter
  try dsimp only
  repeat' with_reducible (first
    | exact Keeps.refl _ _ | assumption | decide | apply laFollow_keeps | apply ringTo_keeps | apply Keeps.ite | split)

theorem setTx_keeps {ps : List Area} {s t : State} {x1 : Nat} {x2 : TxFrame} (h : Keeps ps s t)
    (hs : ([.fur] : List Area).all (fun p => ps.contains p) = true) : Keeps ps s (setTx x1 x2 t) := by
  refine Keeps.step ?_ hs h
  unfold setTx
  try dsimp only
  repeat' with_reducible (first
    | exact Keeps.refl _ _ | assumption | apply Keeps.ite
    | (fail_if_no_progress refine Keeps.upd ?_ rfl (by intro p hp; cases p <;> first | (exact absurd hp (by decide)) | rfl)) | split)

theorem cellSent_keeps {ps : List Area} {s t : State} {x1 : Nat} {x2 : Nat} {x3 : U32} (h : Keeps ps s t)
    (hs : ([.hrw] : List Area).all (fun p => ps.contains p) = true) : Keeps ps s (cellSent x1 x2 x3 t) := by
  refine Keeps.step ?_ hs h
  unfold cellSent
  try dsimp only
  repeat' with_reducible (first
    | exact Keeps.refl _ _ | assumption | apply Keeps.ite | split
    | (fail_if_no_progress refine Keeps.upd ?_ rfl (by intro p hp; cases p <;> first | (exact absurd hp (by decide)) | rfl)))

theorem launchCycle_keeps {ps : List Area} {s t : State} {x1 : Nat} {x2 : Nat} (h : Keeps ps s t)
    (hs : ([.regs, .flt, .fur, .hrw, .snr] : List Area).all (fun p => ps.contains p) = true) : Keeps ps s (launchCycle x1 x2 t) := by
  refine Keeps.step ?_ hs h
  unfold launchCycle
  try dsimp only
  repeat' with_reducible (first
    | exact Keeps.refl _ _ | assumption | decide | apply setTx_keeps | apply cellSent_keeps | apply snareSig_keeps | apply Keeps.ite
    | (refine Keeps.foldl ?_ (fun u y hu => ?_) <;> try dsimp only)
    | (fail_if_no_progress refine Keeps.upd ?_ rfl (by intro p hp; cases p <;> first | (exact absurd hp (by decide)) | rfl)) | split)

theorem pdRequests_keeps {ps : List Area} {s t : State} {x1 : Nat} {x2 : Nat} (h : Keeps ps s t)
    (hs : ([.fur] : List Area).all (fun p => ps.contains p) = true) : Keeps ps s (pdRequests x1 x2 t) := by
  refine Keeps.step ?_ hs h
  unfold pdRequests
  try dsimp only
  repeat' with_reducible (first | exact Keeps.refl _ _ | assumption | decide | apply setRing_keeps | apply Keeps.ite | split)

theorem ringCtlDone_keeps {ps : List Area} {s t : State} {x1 : Nat} {x2 : Nat} {x3 : Nat} {x4 : Nat} (h : Keeps ps s t)
    (hs : ([.cmd] : List Area).all (fun p => ps.contains p) = true) : Keeps ps s (ringCtlDone x1 x2 x3 x4 t) := by
  refine Keeps.step ?_ hs h
  unfold ringCtlDone
  try dsimp only
  repeat' with_reducible (first
    | exact Keeps.refl _ _ | assumption | apply Keeps.ite | split
    | (fail_if_no_progress refine Keeps.upd ?_ rfl (by intro p hp; cases p <;> first | (exact absurd hp (by decide)) | rfl)))

theorem wrapReport_keeps {ps : List Area} {s t : State} {x1 : Nat} (h : Keeps ps s t)
    (hs : ([.regs, .flt] : List Area).all (fun p => ps.contains p) = true) : Keeps ps s (wrapReport x1 t) := by
  refine Keeps.step ?_ hs h
  unfold wrapReport
  try dsimp only
  repeat' with_reducible (first
    | exact Keeps.refl _ _ | assumption | decide | apply report_keeps | apply setEvt_keeps | apply Keeps.ite | split)

theorem islandCheck_keeps {ps : List Area} {s t : State} {x1 : Nat} (h : Keeps ps s t)
    (hs : ([.regs, .flt, .cmd, .fur, .grn] : List Area).all (fun p => ps.contains p) = true) : Keeps ps s (islandCheck x1 t) := by
  refine Keeps.step ?_ hs h
  unfold islandCheck
  try dsimp only
  repeat' with_reducible (first
    | exact Keeps.refl _ _ | assumption | decide | apply report_keeps | apply setEvt_keeps | apply setRing_keeps
    | apply tocsinRetire_keeps | apply Keeps.ite
    | (fail_if_no_progress refine Keeps.upd ?_ rfl (by intro p hp; cases p <;> first | (exact absurd hp (by decide)) | rfl)) | split)

theorem ringBoundary_keeps {ps : List Area} {s t : State} {x1 : Nat} {x2 : Nat} (h : Keeps ps s t)
    (hs : ([.regs, .flt, .cmd, .ints, .cores, .fur, .grn, .snr] : List Area).all (fun p => ps.contains p) = true)
        : Keeps ps s (ringBoundary x1 x2 t) := by
  refine Keeps.step ?_ hs h
  unfold ringBoundary
  try dsimp only
  repeat' with_reducible (first
    | exact Keeps.refl _ _ | assumption | decide | apply ringEnter_keeps | apply setRing_keeps | apply modRing_keeps
    | apply ringCtlDone_keeps | apply islandCheck_keeps | apply wrapReport_keeps | apply Keeps.ite | split
    | (fail_if_no_progress refine Keeps.upd ?_ rfl (by intro p hp; cases p <;> first | (exact absurd hp (by decide)) | rfl)))

theorem ringLaunch_keeps {ps : List Area} {s t : State} {x1 : Nat} {x2 : Nat} (h : Keeps ps s t)
    (hs : ([.regs, .flt, .cmd, .ints, .cores, .fur, .grn, .hrw, .snr] : List Area).all (fun p => ps.contains p) = true)
        : Keeps ps s (ringLaunch x1 t x2) := by
  refine Keeps.step ?_ hs h
  unfold ringLaunch
  try dsimp only
  repeat' with_reducible (first
    | exact Keeps.refl _ _ | assumption | decide | apply pdRequests_keeps | apply ringBoundary_keeps | apply setRing_keeps
    | apply setTx_keeps | apply launchCycle_keeps | apply Keeps.ite | split
    | (fail_if_no_progress refine Keeps.upd ?_ rfl (by intro p hp; cases p <;> first | (exact absurd hp (by decide)) | rfl)))

theorem furLaunch_keeps {ps : List Area} {s t : State} {x1 : Nat} (h : Keeps ps s t)
    (hs : ([.regs, .flt, .cmd, .ints, .cores, .fur, .grn, .hrw, .snr] : List Area).all (fun p => ps.contains p) = true)
        : Keeps ps s (furLaunch x1 t) := by
  refine Keeps.step ?_ hs h
  unfold furLaunch
  try dsimp only
  repeat' with_reducible (first
    | exact Keeps.refl _ _ | assumption | decide | apply ringBoundary_keeps | apply yieldCount_keeps | apply ringLaunch_keeps
    | apply Keeps.ite | (refine Keeps.foldl ?_ (fun u y hu => ?_) <;> try dsimp only) | split
    | (fail_if_no_progress refine Keeps.upd ?_ rfl (by intro p hp; cases p <;> first | (exact absurd hp (by decide)) | rfl)))

theorem rxPut_keeps {ps : List Area} {s t : State} {x1 : Nat} {x2 : Part} (h : Keeps ps s t)
    (hs : ([.fur] : List Area).all (fun p => ps.contains p) = true) : Keeps ps s (rxPut x1 x2 t) := by
  refine Keeps.step ?_ hs h
  unfold rxPut
  try dsimp only
  repeat' with_reducible (first
    | exact Keeps.refl _ _ | assumption | decide | apply modRing_keeps | apply Keeps.ite
    | (fail_if_no_progress refine Keeps.upd ?_ rfl (by intro p hp; cases p <;> first | (exact absurd hp (by decide)) | rfl)) | split)

theorem declareWrap_keeps {ps : List Area} {s t : State} {x1 : Nat} (h : Keeps ps s t)
    (hs : ([.regs, .flt, .cmd, .ints, .cores, .fur, .snr] : List Area).all (fun p => ps.contains p) = true)
        : Keeps ps s (declareWrap x1 t) := by
  refine Keeps.step ?_ hs h
  unfold declareWrap
  try dsimp only
  repeat' with_reducible (first
    | exact Keeps.refl _ _ | assumption | decide | apply wrapReport_keeps | apply ringEnter_keeps | apply modRing_keeps | apply Keeps.ite
    | (fail_if_no_progress refine Keeps.upd ?_ rfl (by intro p hp; cases p <;> first | (exact absurd hp (by decide)) | rfl)) | split)

theorem frameLossOff_keeps {ps : List Area} {s t : State} {x1 : Nat} (h : Keeps ps s t)
    (hs : ([.regs, .flt, .fur, .snr] : List Area).all (fun p => ps.contains p) = true) : Keeps ps s (frameLossOff x1 t) := by
  refine Keeps.step ?_ hs h
  unfold frameLossOff
  try dsimp only
  repeat' with_reducible (first
    | exact Keeps.refl _ _ | assumption | decide | apply snareSig_keeps | apply setRing_keeps | apply Keeps.ite
    | (fail_if_no_progress refine Keeps.upd ?_ rfl (by intro p hp; cases p <;> first | (exact absurd hp (by decide)) | rfl)) | split)

theorem asymCheck_keeps {ps : List Area} {s t : State} {x1 : Nat} {x2 : Nat} {x3 : Nat} (h : Keeps ps s t)
    (hs : ([.regs, .flt, .fur] : List Area).all (fun p => ps.contains p) = true) : Keeps ps s (asymCheck x1 x2 x3 t) := by
  refine Keeps.step ?_ hs h
  unfold asymCheck
  try dsimp only
  repeat' with_reducible (first
    | exact Keeps.refl _ _ | assumption | decide | apply setRing_keeps | apply setEvt_keeps | apply report_keeps | apply Keeps.ite
    | (fail_if_no_progress refine Keeps.upd ?_ rfl (by intro p hp; cases p <;> first | (exact absurd hp (by decide)) | rfl)) | split)

theorem retireLane_keeps {ps : List Area} {s t : State} {x1 : Nat} {x2 : Lane} (h : Keeps ps s t)
    (hs : ([.regs, .flt, .fur] : List Area).all (fun p => ps.contains p) = true) : Keeps ps s (retireLane x1 x2 t) := by
  refine Keeps.step ?_ hs h
  unfold retireLane
  try dsimp only
  repeat' with_reducible (first
    | exact Keeps.refl _ _ | assumption | decide | apply modRing_keeps | apply retireElement_keeps | apply Keeps.ite | split
    | (fail_if_no_progress refine Keeps.upd ?_ rfl (by intro p hp; cases p <;> first | (exact absurd hp (by decide)) | rfl)))

theorem partReturn_keeps {ps : List Area} {s t : State} {x1 : Nat} {x2 : Lane} {x3 : Nat} {x4 : Nat} {x5 : Nat}
    {x6 : List Block} (h : Keeps ps s t)
    (hs : ([.regs, .flt, .fur, .snr] : List Area).all (fun p => ps.contains p) = true) : Keeps ps s (partReturn x1 x2 x3 x4 x5 x6 t) := by
  refine Keeps.step ?_ hs h
  unfold partReturn
  try dsimp only
  repeat' with_reducible (first
    | exact Keeps.refl _ _ | assumption | decide | apply rxPut_keeps | apply modRing_keeps | apply wr_keeps | apply frameLossOff_keeps
    | apply asymCheck_keeps | apply setEvt_keeps | apply count_keeps | apply report_keeps
    | refine bucketFrame_keeps' ?_ ?_ (by assumption) | apply bucketFrame_keeps | apply retireLane_keeps | apply Keeps.ite | split
    | (fail_if_no_progress refine Keeps.upd ?_ rfl (by intro p hp; cases p <;> first | (exact absurd hp (by decide)) | rfl)))

theorem partFragment_keeps {ps : List Area} {s t : State} {x1 : Nat} {x2 : Lane} {x3 : Nat} {x4 : List Block} (h : Keeps ps s t)
    (hs : ([.regs, .flt, .fur] : List Area).all (fun p => ps.contains p) = true) : Keeps ps s (partFragment x1 x2 x3 x4 t) := by
  refine Keeps.step ?_ hs h
  unfold partFragment
  try dsimp only
  repeat' with_reducible (first
    | exact Keeps.refl _ _ | assumption | decide | apply setEvt_keeps | apply count_keeps | apply report_keeps | apply rxPut_keeps
    | apply Keeps.ite | split)

theorem framePart_keeps {ps : List Area} {s t : State} {x1 : Nat} {x2 : Lane} {x3 : Nat} {x4 : Nat} {x5 : List Block} (h : Keeps ps s t)
    (hs : ([.tick, .regs, .flt, .cmd, .ints, .cores, .fur, .snr, .tly] : List Area).all (fun p => ps.contains p) = true)
        : Keeps ps s (framePart x1 x2 x3 x4 x5 t) := by
  refine Keeps.step ?_ hs h
  unfold framePart
  try dsimp only
  repeat' with_reducible (first
    | exact Keeps.refl _ _ | assumption | decide | apply modRing_keeps | apply advanceTo_keeps | apply declareWrap_keeps
    | apply count_keeps | apply partReturn_keeps | apply partFragment_keeps | apply Keeps.ite | split
    | (fail_if_no_progress refine Keeps.upd ?_ rfl (by intro p hp; cases p <;> first | (exact absurd hp (by decide)) | rfl)))

theorem inputLoss_keeps {ps : List Area} {s t : State} {x1 : Nat} {x2 : Lane} (h : Keeps ps s t)
    (hs : ([.regs, .flt, .cmd, .ints, .cores, .fur, .grn, .snr] : List Area).all (fun p => ps.contains p) = true)
        : Keeps ps s (inputLoss x1 x2 t) := by
  refine Keeps.step ?_ hs h
  unfold inputLoss
  try dsimp only
  repeat' with_reducible (first
    | exact Keeps.refl _ _ | assumption | decide | apply modRing_keeps | apply islandCheck_keeps | apply declareWrap_keeps
    | apply Keeps.ite | split
    | (fail_if_no_progress refine Keeps.upd ?_ rfl (by intro p hp; cases p <;> first | (exact absurd hp (by decide)) | rfl)))

theorem wrapAt_keeps {ps : List Area} {s t : State} {x1 : Nat} {x2 : Nat} {x3 : Bool} {x4 : Nat} (h : Keeps ps s t)
    (hs : ([.regs, .flt, .cmd, .ints, .cores, .fur, .grn, .snr] : List Area).all (fun p => ps.contains p) = true)
        : Keeps ps s (wrapAt x1 x2 x3 x4 t) := by
  refine Keeps.step ?_ hs h
  unfold wrapAt
  try dsimp only
  repeat' with_reducible (first
    | exact Keeps.refl _ _ | assumption | decide | apply modRing_keeps | apply islandCheck_keeps | apply declareWrap_keeps
    | apply Keeps.ite
    | (fail_if_no_progress refine Keeps.upd ?_ rfl (by intro p hp; cases p <;> first | (exact absurd hp (by decide)) | rfl)) | split)

theorem hopSend_keeps {ps : List Area} {s t : State} {x1 : Nat} {x2 : Lane} {x3 : Block} (h : Keeps ps s t)
    (hs : ([.fur] : List Area).all (fun p => ps.contains p) = true) : Keeps ps s (hopSend x1 x2 x3 t) := by
  refine Keeps.step ?_ hs h
  unfold hopSend
  try dsimp only
  repeat' with_reducible (first
    | exact Keeps.refl _ _ | assumption | decide | apply modRing_keeps | apply Keeps.ite | split
    | (fail_if_no_progress refine Keeps.upd ?_ rfl (by intro p hp; cases p <;> first | (exact absurd hp (by decide)) | rfl)))

theorem startTrain_keeps {ps : List Area} {s t : State} {x1 : Nat} (h : Keeps ps s t)
    (hs : ([.regs, .flt, .cmd, .ints, .cores, .fur, .snr] : List Area).all (fun p => ps.contains p) = true)
        : Keeps ps s (startTrain x1 t) := by
  refine Keeps.step ?_ hs h
  unfold startTrain
  try dsimp only
  repeat' with_reducible (first
    | exact Keeps.refl _ _ | assumption | decide | apply setRing_keeps | apply frameLossOff_keeps | apply ringEnter_keeps
    | apply setTx_keeps | apply Keeps.ite
    | (fail_if_no_progress refine Keeps.upd ?_ rfl (by intro p hp; cases p <;> first | (exact absurd hp (by decide)) | rfl)) | split)

theorem trainFail_keeps {ps : List Area} {s t : State} {x1 : Nat} {x2 : Nat} (h : Keeps ps s t)
    (hs : ([.regs, .flt, .cmd, .ints, .cores, .fur, .snr] : List Area).all (fun p => ps.contains p) = true)
        : Keeps ps s (trainFail x1 x2 t) := by
  refine Keeps.step ?_ hs h
  unfold trainFail
  try dsimp only
  repeat' with_reducible (first
    | exact Keeps.refl _ _ | assumption | decide | apply modRing_keeps | apply ringCtlDone_keeps | apply ringEnter_keeps
    | apply report_keeps | apply setEvt_keeps | apply setTx_keeps | apply Keeps.ite
    | (fail_if_no_progress refine Keeps.upd ?_ rfl (by intro p hp; cases p <;> first | (exact absurd hp (by decide)) | rfl)) | split)

theorem trainLock_keeps {ps : List Area} {s t : State} {x1 : Nat} {x2 : Bool} {x3 : Bool} (h : Keeps ps s t)
    (hs : ([.fur] : List Area).all (fun p => ps.contains p) = true) : Keeps ps s (trainLock x1 x2 x3 t) := by
  refine Keeps.step ?_ hs h
  unfold trainLock
  try dsimp only
  repeat' with_reducible (first
    | exact Keeps.refl _ _ | assumption | decide | apply modRing_keeps | apply setRing_keeps | apply Keeps.ite
    | (fail_if_no_progress refine Keeps.upd ?_ rfl (by intro p hp; cases p <;> first | (exact absurd hp (by decide)) | rfl)) | split)

theorem trainLockTimeout_keeps {ps : List Area} {s t : State} {x1 : Nat} (h : Keeps ps s t)
    (hs : ([.tick, .regs, .flt, .cmd, .ints, .cores, .fur, .snr, .tly] : List Area).all (fun p => ps.contains p) = true)
        : Keeps ps s (trainLockTimeout x1 t) := by
  refine Keeps.step ?_ hs h
  unfold trainLockTimeout
  try dsimp only
  repeat' with_reducible (first
    | exact Keeps.refl _ _ | assumption | decide | apply trainFail_keeps | apply advanceTo_keeps | apply Keeps.ite | split)

theorem trainRepeat_keeps {ps : List Area} {s t : State} {x1 : Nat} (h : Keeps ps s t)
    (hs : ([.regs, .flt, .cmd, .ints, .cores, .fur, .snr] : List Area).all (fun p => ps.contains p) = true)
        : Keeps ps s (trainRepeat x1 t) := by
  refine Keeps.step ?_ hs h
  unfold trainRepeat
  try dsimp only
  repeat' with_reducible (first
    | exact Keeps.refl _ _ | assumption | decide | apply setRing_keeps | apply trainFail_keeps | apply Keeps.ite
    | (fail_if_no_progress refine Keeps.upd ?_ rfl (by intro p hp; cases p <;> first | (exact absurd hp (by decide)) | rfl)) | split)

theorem discoverReturn_keeps {ps : List Area} {s t : State} {x1 : Nat} {x2 : DiscCopy} {x3 : DiscCopy} (h : Keeps ps s t)
    (hs : ([.regs, .flt, .cmd, .ints, .cores, .fur, .snr] : List Area).all (fun p => ps.contains p) = true)
        : Keeps ps s (discoverReturn x1 x2 x3 t) := by
  refine Keeps.step ?_ hs h
  unfold discoverReturn
  try dsimp only
  repeat' with_reducible (first
    | exact Keeps.refl _ _ | assumption | decide | apply trainRepeat_keeps | apply trainFail_keeps | apply setRing_keeps
    | apply Keeps.ite | split
    | (fail_if_no_progress refine Keeps.upd ?_ rfl (by intro p hp; cases p <;> first | (exact absurd hp (by decide)) | rfl)))

theorem measureReturn_keeps {ps : List Area} {s t : State} {x1 : Nat} {x2 : Bool} {x3 : Nat} {x4 : List U64} (h : Keeps ps s t)
    (hs : ([.regs, .flt, .cmd, .ints, .cores, .fur, .snr] : List Area).all (fun p => ps.contains p) = true)
        : Keeps ps s (measureReturn x1 x2 x3 x4 t) := by
  refine Keeps.step ?_ hs h
  unfold measureReturn
  try dsimp only
  repeat' with_reducible (first
    | exact Keeps.refl _ _ | assumption | decide | apply trainRepeat_keeps | apply trainFail_keeps | apply setRing_keeps
    | apply Keeps.ite
    | (fail_if_no_progress refine Keeps.upd ?_ rfl (by intro p hp; cases p <;> first | (exact absurd hp (by decide)) | rfl)) | split)

theorem ringDisableDone_keeps {ps : List Area} {s t : State} {x1 : Nat} (h : Keeps ps s t)
    (hs : ([.cmd] : List Area).all (fun p => ps.contains p) = true) : Keeps ps s (ringDisableDone x1 t) := by
  refine Keeps.step ?_ hs h
  unfold ringDisableDone
  try dsimp only
  repeat' with_reducible (first
    | exact Keeps.refl _ _ | assumption | apply Keeps.ite | split
    | (fail_if_no_progress refine Keeps.upd ?_ rfl (by intro p hp; cases p <;> first | (exact absurd hp (by decide)) | rfl)))

theorem ringClear_keeps {ps : List Area} {s t : State} {x1 : Nat} (h : Keeps ps s t)
    (hs : ([.regs, .flt, .cmd, .ints, .cores, .fur, .snr] : List Area).all (fun p => ps.contains p) = true)
        : Keeps ps s (ringClear x1 t) := by
  refine Keeps.step ?_ hs h
  unfold ringClear
  try dsimp only
  repeat' with_reducible (first
    | exact Keeps.refl _ _ | assumption | decide | apply ringDisableDone_keeps | apply ringCtlDone_keeps | apply modRing_keeps
    | apply frameLossOff_keeps | apply ringTo_keeps | apply setTx_keeps | apply Keeps.ite
    | (fail_if_no_progress refine Keeps.upd ?_ rfl (by intro p hp; cases p <;> first | (exact absurd hp (by decide)) | rfl)) | split)

theorem ringOff_keeps {ps : List Area} {s t : State} {x1 : Nat} (h : Keeps ps s t)
    (hs : ([.regs, .flt, .cmd, .ints, .cores, .fur, .snr] : List Area).all (fun p => ps.contains p) = true)
        : Keeps ps s (ringOff x1 t) := by
  refine Keeps.step ?_ hs h
  unfold ringOff
  try dsimp only
  repeat' with_reducible (first
    | exact Keeps.refl _ _ | assumption | decide | apply laFollow_keeps | apply ringClear_keeps | apply Keeps.ite | split)

theorem ringDrain_keeps {ps : List Area} {s t : State} {x1 : Nat} (h : Keeps ps s t)
    (hs : ([.regs, .flt, .cmd, .ints, .cores, .fur, .snr] : List Area).all (fun p => ps.contains p) = true)
        : Keeps ps s (ringDrain x1 t) := by
  refine Keeps.step ?_ hs h
  unfold ringDrain
  try dsimp only
  repeat' with_reducible (first
    | exact Keeps.refl _ _ | assumption | decide | apply setRing_keeps | apply ringOff_keeps | apply Keeps.ite
    | (fail_if_no_progress refine Keeps.upd ?_ rfl (by intro p hp; cases p <;> first | (exact absurd hp (by decide)) | rfl)) | split)

theorem furRingCfg_keeps {ps : List Area} {s t : State} {x1 : Nat} {x2 : U32} (h : Keeps ps s t)
    (hs : ([.regs, .flt, .cmd, .ints, .cores, .fur, .snr] : List Area).all (fun p => ps.contains p) = true)
        : Keeps ps s (furRingCfg x1 x2 t) := by
  refine Keeps.step ?_ hs h
  unfold furRingCfg
  try dsimp only
  repeat' with_reducible (first
    | exact Keeps.refl _ _ | assumption | decide | apply plainWrite_keeps | apply startTrain_keeps | apply ringDrain_keeps
    | apply Keeps.ite | split)

theorem drainEnd_keeps {ps : List Area} {s t : State} {x1 : Nat} (h : Keeps ps s t)
    (hs : ([.regs, .flt, .cmd, .ints, .cores, .fur, .snr] : List Area).all (fun p => ps.contains p) = true)
        : Keeps ps s (drainEnd x1 t) := by
  refine Keeps.step ?_ hs h
  unfold drainEnd
  try dsimp only
  repeat' with_reducible (first
    | exact Keeps.refl _ _ | assumption | decide | apply frameLossOff_keeps | apply startTrain_keeps | apply ringOff_keeps
    | apply Keeps.ite | split)

theorem burstStart_keeps {ps : List Area} {s t : State} (h : Keeps ps s t)
    (hs : ([.regs, .fur] : List Area).all (fun p => ps.contains p) = true) : Keeps ps s (burstStart t).2 := by
  refine Keeps.step ?_ hs h
  unfold burstStart
  try dsimp only
  repeat' with_reducible (first
    | exact Keeps.refl _ _ | assumption | decide | apply yieldCount_keeps | apply setEvt_keeps | apply count_keeps | apply Keeps.ite
    | (fail_if_no_progress refine Keeps.upd ?_ rfl (by intro p hp; cases p <;> first | (exact absurd hp (by decide)) | rfl)) | split)

theorem burstStart_keeps' {ps : List Area} {s t : State} {y0 : Bool} {y1 : State} (h : Keeps ps s t)
    (hs : ([.regs, .fur] : List Area).all (fun p => ps.contains p) = true) (e : burstStart t = (y0, y1)) : Keeps ps s y1 := by
  have k := burstStart_keeps (t := t) h hs
  rw [e] at k
  exact k

theorem setHCell_keeps {ps : List Area} {s t : State} {x1 : Nat} {x2 : HCell} (h : Keeps ps s t)
    (hs : ([.hrw] : List Area).all (fun p => ps.contains p) = true) : Keeps ps s (setHCell t x1 x2) := by
  refine Keeps.step ?_ hs h
  unfold setHCell
  try dsimp only
  repeat' with_reducible (first
    | exact Keeps.refl _ _ | assumption | apply Keeps.ite
    | (fail_if_no_progress refine Keeps.upd ?_ rfl (by intro p hp; cases p <;> first | (exact absurd hp (by decide)) | rfl)) | split)

theorem setHArm_keeps {ps : List Area} {s t : State} {x1 : Nat} {x2 : HArm} (h : Keeps ps s t)
    (hs : ([.hrw] : List Area).all (fun p => ps.contains p) = true) : Keeps ps s (setHArm t x1 x2) := by
  refine Keeps.step ?_ hs h
  unfold setHArm
  try dsimp only
  repeat' with_reducible (first
    | exact Keeps.refl _ _ | assumption | apply Keeps.ite
    | (fail_if_no_progress refine Keeps.upd ?_ rfl (by intro p hp; cases p <;> first | (exact absurd hp (by decide)) | rfl)) | split)

theorem takeSet_keeps {ps : List Area} {s t : State} {x1 : Nat} {x2 : Nat} (h : Keeps ps s t)
    (hs : ([.regs, .flt, .hrw] : List Area).all (fun p => ps.contains p) = true) : Keeps ps s (takeSet x1 x2 t) := by
  refine Keeps.step ?_ hs h
  unfold takeSet
  try dsimp only
  repeat' with_reducible (first
    | exact Keeps.refl _ _ | assumption | decide | apply setHArm_keeps | apply report_keeps | apply setEvt_keeps | apply Keeps.ite
    | split | (fail_if_no_progress refine Keeps.upd ?_ rfl (by intro p hp; cases p <;> first | (exact absurd hp (by decide)) | rfl)))

theorem refStep_keeps {ps : List Area} {s t : State} {x1 : Nat} {x2 : Nat} (h : Keeps ps s t)
    (hs : ([.regs, .flt, .hrw] : List Area).all (fun p => ps.contains p) = true) : Keeps ps s (refStep x1 x2 t) := by
  refine Keeps.step ?_ hs h
  unfold refStep
  try dsimp only
  repeat' with_reducible (first
    | exact Keeps.refl _ _ | assumption | decide | apply takeSet_keeps | apply setHArm_keeps | apply Keeps.ite
    | (fail_if_no_progress refine Keeps.upd ?_ rfl (by intro p hp; cases p <;> first | (exact absurd hp (by decide)) | rfl)) | split)

theorem holdCell_keeps {ps : List Area} {s t : State} {x1 : Nat} (h : Keeps ps s t)
    (hs : ([.hrw] : List Area).all (fun p => ps.contains p) = true) : Keeps ps s (holdCell t x1) := by
  refine Keeps.step ?_ hs h
  unfold holdCell
  try dsimp only
  repeat' with_reducible (first
    | exact Keeps.refl _ _ | assumption | decide | apply setHCell_keeps | apply Keeps.ite | split
    | (fail_if_no_progress refine Keeps.upd ?_ rfl (by intro p hp; cases p <;> first | (exact absurd hp (by decide)) | rfl)))

theorem admitStep_keeps {ps : List Area} {s t : State} {x1 : Nat} {x2 : Nat} {x3 : Bool} {x4 : Nat} (h : Keeps ps s t)
    (hs : ([.regs, .flt, .hrw] : List Area).all (fun p => ps.contains p) = true) : Keeps ps s (admitStep x1 x2 x3 t x4) := by
  refine Keeps.step ?_ hs h
  unfold admitStep
  try dsimp only
  repeat' with_reducible (first
    | exact Keeps.refl _ _ | assumption | decide | apply setHCell_keeps | apply setEvt_keeps | apply count_keeps | apply report_keeps
    | apply Keeps.ite
    | (fail_if_no_progress refine Keeps.upd ?_ rfl (by intro p hp; cases p <;> first | (exact absurd hp (by decide)) | rfl)) | split)

theorem admitLate_keeps {ps : List Area} {s t : State} {x1 : Nat} {x2 : Nat} (h : Keeps ps s t)
    (hs : ([.hrw] : List Area).all (fun p => ps.contains p) = true) : Keeps ps s (admitLate x1 x2 t) := by
  refine Keeps.step ?_ hs h
  unfold admitLate
  try dsimp only
  repeat' with_reducible (first
    | exact Keeps.refl _ _ | assumption | decide | apply setHCell_keeps | apply Keeps.ite
    | (refine Keeps.foldl ?_ (fun u y hu => ?_) <;> try dsimp only)
    | (fail_if_no_progress refine Keeps.upd ?_ rfl (by intro p hp; cases p <;> first | (exact absurd hp (by decide)) | rfl)) | split)

theorem finishBuild_keeps {ps : List Area} {s t : State} {x1 : Nat} {x2 : Nat} {x3 : Nat} {x4 : Nat} {x5 : Bool} (h : Keeps ps s t)
    (hs : ([.regs, .flt, .hrw] : List Area).all (fun p => ps.contains p) = true) : Keeps ps s (finishBuild x1 x2 x3 x4 x5 t) := by
  refine Keeps.step ?_ hs h
  unfold finishBuild
  try dsimp only
  repeat' with_reducible (first
    | exact Keeps.refl _ _ | assumption | decide | apply setHArm_keeps | apply count_keeps | apply setEvt_keeps | apply report_keeps
    | apply Keeps.ite | (refine Keeps.foldl ?_ (fun u y hu => ?_) <;> try dsimp only) | split
    | (fail_if_no_progress refine Keeps.upd ?_ rfl (by intro p hp; cases p <;> first | (exact absurd hp (by decide)) | rfl)))

theorem idleArm_keeps {ps : List Area} {s t : State} {x1 : Nat} {x2 : Nat} {x3 : Nat} {x4 : Nat} (h : Keeps ps s t)
    (hs : ([.hrw] : List Area).all (fun p => ps.contains p) = true) : Keeps ps s (idleArm x1 x2 x3 x4 t) := by
  refine Keeps.step ?_ hs h
  unfold idleArm
  try dsimp only
  repeat' with_reducible (first
    | exact Keeps.refl _ _ | assumption | decide | apply setHArm_keeps | apply Keeps.ite
    | (fail_if_no_progress refine Keeps.upd ?_ rfl (by intro p hp; cases p <;> first | (exact absurd hp (by decide)) | rfl)) | split)

theorem levelArm_keeps {ps : List Area} {s t : State} {x1 : Nat} {x2 : Nat} {x3 : Nat} (h : Keeps ps s t)
    (hs : ([.regs, .flt, .hrw] : List Area).all (fun p => ps.contains p) = true) : Keeps ps s (levelArm x1 x2 x3 t) := by
  refine Keeps.step ?_ hs h
  unfold levelArm
  try dsimp only
  repeat' with_reducible (first
    | exact Keeps.refl _ _ | assumption | decide | apply setHArm_keeps | apply setHCell_keeps | apply admitStep_keeps
    | apply admitLate_keeps | apply finishBuild_keeps | apply Keeps.ite | (refine Keeps.foldl ?_ (fun u y hu => ?_) <;> try dsimp only)
    | (fail_if_no_progress refine Keeps.upd ?_ rfl (by intro p hp; cases p <;> first | (exact absurd hp (by decide)) | rfl)) | split)

theorem selectionDone_keeps {ps : List Area} {s t : State} {x1 : Nat} {x2 : Nat} (h : Keeps ps s t)
    (hs : ([.tick, .regs, .hrw, .tly] : List Area).all (fun p => ps.contains p) = true) : Keeps ps s (selectionDone x1 x2 t) := by
  refine Keeps.step ?_ hs h
  unfold selectionDone
  try dsimp only
  repeat' with_reducible (first
    | exact Keeps.refl _ _ | assumption | decide | apply advanceTo_keeps | apply setHArm_keeps | apply wr_keeps | apply Keeps.ite
    | (fail_if_no_progress refine Keeps.upd ?_ rfl (by intro p hp; cases p <;> first | (exact absurd hp (by decide)) | rfl)) | split)

theorem handOff_keeps {ps : List Area} {s t : State} {x1 : Nat} {x2 : Nat} (h : Keeps ps s t)
    (hs : ([.regs, .flt, .hrw] : List Area).all (fun p => ps.contains p) = true) : Keeps ps s (handOff x1 t x2) := by
  refine Keeps.step ?_ hs h
  unfold handOff
  try dsimp only
  repeat' with_reducible (first
    | exact Keeps.refl _ _ | assumption | decide | apply setHArm_keeps | apply report_keeps | apply setEvt_keeps | apply count_keeps
    | apply Keeps.ite | split
    | (fail_if_no_progress refine Keeps.upd ?_ rfl (by intro p hp; cases p <;> first | (exact absurd hp (by decide)) | rfl)))

theorem setCar_keeps {ps : List Area} {s t : State} {x1 : Nat} {x2 : Carrier} (h : Keeps ps s t)
    (hs : ([.hrw] : List Area).all (fun p => ps.contains p) = true) : Keeps ps s (setCar t x1 x2) := by
  refine Keeps.step ?_ hs h
  unfold setCar
  try dsimp only
  repeat' with_reducible (first
    | exact Keeps.refl _ _ | assumption | decide | apply setHArm_keeps | apply Keeps.ite
    | (fail_if_no_progress refine Keeps.upd ?_ rfl (by intro p hp; cases p <;> first | (exact absurd hp (by decide)) | rfl)) | split)

theorem rankStep_keeps {ps : List Area} {s : State} {x1 : Bool} {x2 : Grid} {x3 x4 : Nat} {x5 : Bool} {x6 : State × Nat} {x7 : Nat × Nat}
    (h : Keeps ps s x6.1) (hs : ([.hrw] : List Area).all (fun p => ps.contains p) = true) : Keeps ps s (rankStep x1 x2 x3 x4 x5 x6 x7).1 :=
  setHCell_keeps h hs

theorem buildZero_keeps {ps : List Area} {s t : State} {x1 x2 : Nat} {x3 : Bool} {x4 : CmpCfg} {x5 : List Nat} (h : Keeps ps s t)
    (hs : ([.cmd, .hrw] : List Area).all (fun p => ps.contains p) = true) : Keeps ps s (buildZero x1 x2 x3 x4 x5 t).1 := by
  refine Keeps.step (t := t) ?_ hs h
  unfold buildZero
  dsimp only
  refine setCar_keeps ?_ (by decide)
  split
  · refine Keeps.foldl1 (x := (_, 0)) ?_ (fun _ _ hy => rankStep_keeps hy (by decide))
    exact Keeps.upd (Keeps.refl _ _) rfl (by intro p hp; cases p <;> first | (exact absurd hp (by decide)) | rfl)
  · exact Keeps.upd (Keeps.refl _ _) rfl (by intro p hp; cases p <;> first | (exact absurd hp (by decide)) | rfl)

theorem runCells_keeps {ps : List Area} {s : State} {x1 x2 : Nat} {x3 : Bool} {x4 : CmpCfg} {x5 : List Nat} {x6 : State × Nat}
    (h : Keeps ps s x6.1) (hs : ([.hrw] : List Area).all (fun p => ps.contains p) = true) : Keeps ps s (runCells x1 x2 x3 x4 x5 x6).1 :=
  Keeps.foldl1 h (fun _ _ hy => setHCell_keeps hy hs)

theorem runGrid_keeps {ps : List Area} {s : State} {x1 x2 : Nat} {x3 : Bool} {x4 : CmpCfg} {x5 : List Nat} {x6 : Nat} {x7 : State × Nat}
    (h : Keeps ps s x7.1) (hs : ([.cmd, .hrw] : List Area).all (fun p => ps.contains p) = true)
        : Keeps ps s (runGrid x1 x2 x3 x4 x5 x6 x7).1 := by
  induction x6 generalizing x7 with
  | zero => exact h
  | succ n ih =>
    have r := runCells_keeps (x1 := x1) (x2 := min (carOf x7.1 x1).bld.zero x2) (x3 := x3) (x4 := x4) (x5 := x5) h (sub_of hs (by decide))
    unfold runGrid
    dsimp only
    split
    · exact r
    · exact ih (buildZero_keeps r hs)

theorem carrierAdmit_keeps {ps : List Area} {s t : State} {x1 : Nat} {x2 : Nat} {x3 : Bool} (h : Keeps ps s t)
    (hs : ([.regs, .flt, .hrw] : List Area).all (fun p => ps.contains p) = true) : Keeps ps s (carrierAdmit x1 x2 x3 t) := by
  refine Keeps.step ?_ hs h
  unfold carrierAdmit
  try dsimp only
  repeat' with_reducible (first
    | exact Keeps.refl _ _ | assumption | decide | apply setHCell_keeps | apply admitStep_keeps | apply admitLate_keeps | apply Keeps.ite
    | (refine Keeps.foldl ?_ (fun u y hu => ?_) <;> try dsimp only)
    | (fail_if_no_progress refine Keeps.upd ?_ rfl (by intro p hp; cases p <;> first | (exact absurd hp (by decide)) | rfl)) | split)

theorem carrierRun_keeps {ps : List Area} {s t : State} {x1 x2 : Nat} {x3 : Bool} {x4 : List Nat} (h : Keeps ps s t)
    (hs : ([.cmd, .hrw] : List Area).all (fun p => ps.contains p) = true) : Keeps ps s (carrierRun x1 x2 x3 x4 t).1 :=
  runGrid_keeps (x7 := (_, 0)) (setHArm_keeps h (sub_of hs (by decide))) hs

theorem carrierCounts_keeps {ps : List Area} {s t : State} {x1 : Nat} {x2 : Counts} {x3 : Bool} {x4 : Bool} {x5 : Bool}
    {x6 : Nat} (h : Keeps ps s t)
    (hs : ([.regs, .flt] : List Area).all (fun p => ps.contains p) = true) : Keeps ps s (carrierCounts x1 x2 x3 x4 x5 x6 t) := by
  refine Keeps.step ?_ hs h
  unfold carrierCounts
  try dsimp only
  repeat' with_reducible (first
    | exact Keeps.refl _ _ | assumption | decide | apply count_keeps | apply setEvt_keeps | apply report_keeps | apply Keeps.ite | split)

theorem carrierLane_keeps {ps : List Area} {s t : State} {x1 : Nat} {x2 : Nat} {x3 : Nat} {x4 : Nat} {x5 : Bool} {x6 : Bool} {x7 : Nat}
    {x8 : Nat} {x9 : Tbl U32} {x10 : Counts} {x11 : Nat} {x12 : List Nat} (h : Keeps ps s t)
    (hs : ([.hrw] : List Area).all (fun p => ps.contains p) = true) : Keeps ps s
        (carrierLane x1 x2 x3 x4 x5 x6 x7 x8 x9 x10 x11 x12 t) := by
  refine Keeps.step ?_ hs h
  unfold carrierLane
  try dsimp only
  repeat' with_reducible (first
    | exact Keeps.refl _ _ | assumption | decide | apply setHArm_keeps | apply Keeps.ite
    | (fail_if_no_progress refine Keeps.upd ?_ rfl (by intro p hp; cases p <;> first | (exact absurd hp (by decide)) | rfl)) | split)

theorem carrierCell_keeps {ps : List Area} {s : State} {x1 : ShortCfg} {x2 x3 : Nat} {x4 : Nat → Option Nat} {x5 : CarrierAcc} {x6 : Nat}
    (h : Keeps ps s x5.1) (hs : ([.hrw] : List Area).all (fun p => ps.contains p) = true) : Keeps ps s (carrierCell x1 x2 x3 x4 x5 x6).1 :=
  setHCell_keeps h hs

theorem carrierArm_keeps {ps : List Area} {s t : State} {x1 x2 x3 : Nat} (h : Keeps ps s t)
    (hs : ([.regs, .flt, .cmd, .hrw] : List Area).all (fun p => ps.contains p) = true) : Keeps ps s (carrierArm x1 x2 x3 t) := by
  unfold carrierArm
  exact carrierCounts_keeps (carrierLane_keeps (Keeps.foldl (Keeps.foldl1 (x := (_, _)) (carrierRun_keeps (carrierAdmit_keeps h
    (sub_of hs (by decide))) (sub_of hs (by decide))) (fun _ _ hy => carrierCell_keeps hy (sub_of hs (by decide))))
    (fun _ _ hu => setHCell_keeps hu (sub_of hs (by decide)))) (sub_of hs (by decide))) (sub_of hs (by decide))

theorem idleGrid_keeps {ps : List Area} {s t : State} {x1 x2 : Nat} (h : Keeps ps s t) (hs :
    ([.cmd, .hrw] : List Area).all (fun p => ps.contains p) = true) : Keeps ps s (idleGrid x1 x2 t) := by
  unfold idleGrid
  dsimp only
  refine runGrid_keeps (x7 := (_, 0)) (setCar_keeps ?_ (sub_of hs (by decide))) hs
  split
  · exact Keeps.foldl h (fun _ _ hu => setHCell_keeps hu (sub_of hs (by decide)))
  · exact h

theorem frozenGrid_keeps {ps : List Area} {s t : State} {x1 x2 : Nat} (h : Keeps ps s t) (hs :
    ([.cmd, .hrw] : List Area).all (fun p => ps.contains p) = true) : Keeps ps s (frozenGrid x1 x2 t) := by
  unfold frozenGrid
  exact Keeps.foldl (runGrid_keeps (x7 := (_, 0)) h hs) (fun _ _ hu => setHCell_keeps hu (sub_of hs (by decide)))

theorem frozenArm_keeps {ps : List Area} {s t : State} {x1 : Nat} {x2 : Nat} {x3 : Nat} (h : Keeps ps s t)
    (hs : ([.hrw] : List Area).all (fun p => ps.contains p) = true) : Keeps ps s (frozenArm x1 x2 x3 t) := by
  refine Keeps.step ?_ hs h
  unfold frozenArm
  try dsimp only
  repeat' with_reducible (first
    | exact Keeps.refl _ _ | assumption | decide | apply setHArm_keeps | apply Keeps.ite
    | (fail_if_no_progress refine Keeps.upd ?_ rfl (by intro p hp; cases p <;> first | (exact absurd hp (by decide)) | rfl)) | split)

theorem armStart_keeps {ps : List Area} {s t : State} {x1 : Nat} {x2 : Nat} (h : Keeps ps s t)
    (hs : ([.regs, .flt, .cmd, .hrw] : List Area).all (fun p => ps.contains p) = true) : Keeps ps s (armStart x1 t x2) := by
  refine Keeps.step ?_ hs h
  unfold armStart
  try dsimp only
  repeat' with_reducible (first
    | exact Keeps.refl _ _ | assumption | decide | apply idleGrid_keeps | apply holdCell_keeps | apply refStep_keeps
    | apply setHArm_keeps | apply frozenGrid_keeps | apply frozenArm_keeps | apply idleArm_keeps | apply carrierArm_keeps
    | apply levelArm_keeps | apply Keeps.ite | (refine Keeps.foldl ?_ (fun u y hu => ?_) <;> try dsimp only) | split
    | (fail_if_no_progress refine Keeps.upd ?_ rfl (by intro p hp; cases p <;> first | (exact absurd hp (by decide)) | rfl)))

theorem harrowStart_keeps {ps : List Area} {s t : State} (h : Keeps ps s t)
    (hs : ([.tick, .regs, .flt, .cmd, .hrw, .tly] : List Area).all (fun p => ps.contains p) = true) : Keeps ps s (harrowStart t) := by
  refine Keeps.step ?_ hs h
  unfold harrowStart
  try dsimp only
  repeat' with_reducible (first
    | exact Keeps.refl _ _ | assumption | decide | apply advanceTo_keeps | apply armStart_keeps | apply laStep_keeps | apply Keeps.ite
    | (refine Keeps.foldl ?_ (fun u y hu => ?_) <;> try dsimp only) | split)

theorem carEvent_keeps {ps : List Area} {s t : State} {x1 : Nat} {x2 : Nat} (h : Keeps ps s t)
    (hs : ([.regs, .flt, .ints, .cores, .hrw] : List Area).all (fun p => ps.contains p) = true) : Keeps ps s (carEvent x1 x2 t) := by
  refine Keeps.step ?_ hs h
  unfold carEvent
  try dsimp only
  repeat' with_reducible (first
    | exact Keeps.refl _ _ | assumption | decide | apply setCar_keeps | apply intEdge_keeps | apply Keeps.ite
    | (fail_if_no_progress refine Keeps.upd ?_ rfl (by intro p hp; cases p <;> first | (exact absurd hp (by decide)) | rfl)) | split)

theorem carrierZero_keeps {ps : List Area} {s t : State} {x1 : Nat} (h : Keeps ps s t)
    (hs : ([.tick, .regs, .flt, .cmd, .ints, .cores, .hrw, .tly] : List Area).all (fun p => ps.contains p) = true)
        : Keeps ps s (carrierZero x1 t) := by
  refine Keeps.step ?_ hs h
  unfold carrierZero
  try dsimp only
  repeat' with_reducible (first
    | exact Keeps.refl _ _ | assumption | decide | apply advanceTo_keeps | apply setCar_keeps | apply setEvt_keeps | apply carEvent_keeps
    | apply Keeps.ite | (refine Keeps.foldl ?_ (fun u y hu => ?_) <;> try dsimp only)
    | (fail_if_no_progress refine Keeps.upd ?_ rfl (by intro p hp; cases p <;> first | (exact absurd hp (by decide)) | rfl)) | split)

theorem carrierApex_keeps {ps : List Area} {s t : State} {x1 : Nat} (h : Keeps ps s t)
    (hs : ([.tick, .regs, .flt, .ints, .cores, .hrw, .tly] : List Area).all (fun p => ps.contains p) = true)
        : Keeps ps s (carrierApex x1 t) := by
  refine Keeps.step ?_ hs h
  unfold carrierApex
  try dsimp only
  repeat' with_reducible (first
    | exact Keeps.refl _ _ | assumption | decide | apply carEvent_keeps | apply setCar_keeps | apply advanceTo_keeps | apply Keeps.ite
    | split | (fail_if_no_progress refine Keeps.upd ?_ rfl (by intro p hp; cases p <;> first | (exact absurd hp (by decide)) | rfl)))

theorem carrierCmp_keeps {ps : List Area} {s t : State} {x1 : Nat} (h : Keeps ps s t)
    (hs : ([.tick, .regs, .flt, .ints, .cores, .hrw, .tly] : List Area).all (fun p => ps.contains p) = true)
        : Keeps ps s (carrierCmp x1 t) := by
  refine Keeps.step ?_ hs h
  unfold carrierCmp
  try dsimp only
  repeat' with_reducible (first
    | exact Keeps.refl _ _ | assumption | decide | apply carEvent_keeps | apply setCar_keeps | apply advanceTo_keeps | apply Keeps.ite
    | split | (fail_if_no_progress refine Keeps.upd ?_ rfl (by intro p hp; cases p <;> first | (exact absurd hp (by decide)) | rfl)))

theorem carrierBoundary_keeps {ps : List Area} {s t : State} {x1 : Nat} {x2 : Nat} (h : Keeps ps s t)
    (hs : ([.regs, .hrw] : List Area).all (fun p => ps.contains p) = true) : Keeps ps s (carrierBoundary x1 t x2) := by
  refine Keeps.step ?_ hs h
  unfold carrierBoundary
  try dsimp only
  repeat' with_reducible (first
    | exact Keeps.refl _ _ | assumption | decide | apply setCar_keeps | apply setEvt_keeps | apply Keeps.ite | split
    | (fail_if_no_progress refine Keeps.upd ?_ rfl (by intro p hp; cases p <;> first | (exact absurd hp (by decide)) | rfl)))

theorem gridsBoundary_keeps {ps : List Area} {s t : State} {x1 : Nat} (h : Keeps ps s t)
    (hs : ([.regs, .hrw] : List Area).all (fun p => ps.contains p) = true) : Keeps ps s (gridsBoundary x1 t) := by
  refine Keeps.step ?_ hs h
  unfold gridsBoundary
  try dsimp only
  repeat' with_reducible (first
    | exact Keeps.refl _ _ | assumption | decide | apply carrierBoundary_keeps | apply Keeps.ite
    | (refine Keeps.foldl ?_ (fun u y hu => ?_) <;> try dsimp only)
    | (fail_if_no_progress refine Keeps.upd ?_ rfl (by intro p hp; cases p <;> first | (exact absurd hp (by decide)) | rfl)) | split)

theorem freeze_keeps {ps : List Area} {s t : State} {x1 : Bool} (h : Keeps ps s t)
    (hs : ([.regs, .flt, .hrw] : List Area).all (fun p => ps.contains p) = true) : Keeps ps s (freeze x1 t) := by
  refine Keeps.step ?_ hs h
  unfold freeze
  try dsimp only
  repeat' with_reducible (first
    | exact Keeps.refl _ _ | assumption | decide | apply report_keeps | apply setEvt_keeps | apply Keeps.ite
    | (fail_if_no_progress refine Keeps.upd ?_ rfl (by intro p hp; cases p <;> first | (exact absurd hp (by decide)) | rfl)) | split)

theorem carIrqWrite_keeps {ps : List Area} {s t : State} {x1 : Nat} {x2 : U32} (h : Keeps ps s t)
    (hs : ([.regs, .hrw] : List Area).all (fun p => ps.contains p) = true) : Keeps ps s (carIrqWrite x1 x2 t) := by
  refine Keeps.step ?_ hs h
  unfold carIrqWrite
  try dsimp only
  repeat' with_reducible (first
    | exact Keeps.refl _ _ | assumption | decide | apply setCar_keeps | apply plainWrite_keeps | apply Keeps.ite
    | (fail_if_no_progress refine Keeps.upd ?_ rfl (by intro p hp; cases p <;> first | (exact absurd hp (by decide)) | rfl)) | split)

theorem setChn_keeps {ps : List Area} {s t : State} {x1 : Nat} {x2 : Chn} (h : Keeps ps s t)
    (hs : ([.prt] : List Area).all (fun p => ps.contains p) = true) : Keeps ps s (setChn t x1 x2) := by
  refine Keeps.step ?_ hs h
  unfold setChn
  try dsimp only
  repeat' with_reducible (first
    | exact Keeps.refl _ _ | assumption | apply Keeps.ite
    | (fail_if_no_progress refine Keeps.upd ?_ rfl (by intro p hp; cases p <;> first | (exact absurd hp (by decide)) | rfl)) | split)

theorem decisionOut_keeps {ps : List Area} {s t : State} {x1 : Block} {x2 : Option Nat} (h : Keeps ps s t)
    (hs : ([.stk] : List Area).all (fun p => ps.contains p) = true) : Keeps ps s (decisionOut x1 x2 t) := by
  refine Keeps.step ?_ hs h
  unfold decisionOut
  try dsimp only
  repeat' with_reducible (first
    | exact Keeps.refl _ _ | assumption | apply Keeps.ite
    | (fail_if_no_progress refine Keeps.upd ?_ rfl (by intro p hp; cases p <;> first | (exact absurd hp (by decide)) | rfl)) | split)

theorem prtSync_keeps {ps : List Area} {s t : State} (h : Keeps ps s t)
    (hs : ([.regs, .flt, .snr, .stk] : List Area).all (fun p => ps.contains p) = true) : Keeps ps s (prtSync t) := by
  refine Keeps.step ?_ hs h
  unfold prtSync
  try dsimp only
  repeat' with_reducible (first
    | exact Keeps.refl _ _ | assumption | decide | apply snareSig_keeps | apply decisionOut_keeps | apply snareEval_keeps
    | apply Keeps.ite | (refine Keeps.foldl ?_ (fun u y hu => ?_) <;> try dsimp only) | split)

theorem countPass_keeps {ps : List Area} {s t : State} {x1 : Nat} (h : Keeps ps s t)
    (hs : ([.regs] : List Area).all (fun p => ps.contains p) = true) : Keeps ps s (countPass x1 t) := by
  refine Keeps.step ?_ hs h
  unfold countPass
  try dsimp only
  repeat' with_reducible (first | exact Keeps.refl _ _ | assumption | decide | apply wr_keeps | apply Keeps.ite | split)

theorem countSkip_keeps {ps : List Area} {s t : State} {x1 : Nat} (h : Keeps ps s t)
    (hs : ([.regs, .flt] : List Area).all (fun p => ps.contains p) = true) : Keeps ps s (countSkip x1 t) := by
  refine Keeps.step ?_ hs h
  unfold countSkip
  try dsimp only
  repeat' with_reducible (first
    | exact Keeps.refl _ _ | assumption | decide | apply wr_keeps | apply report_keeps | apply Keeps.ite | split)

theorem tripChan_keeps {ps : List Area} {s t : State} {x1 : U32} {x2 : Nat} (h : Keeps ps s t)
    (hs : ([.regs, .flt, .prt] : List Area).all (fun p => ps.contains p) = true) : Keeps ps s (tripChan x1 x2 t) := by
  refine Keeps.step ?_ hs h
  unfold tripChan
  try dsimp only
  repeat' with_reducible (first
    | exact Keeps.refl _ _ | assumption | decide | apply setEvt_keeps | apply countSkip_keeps | apply setChn_keeps | apply Keeps.ite
    | (fail_if_no_progress refine Keeps.upd ?_ rfl (by intro p hp; cases p <;> first | (exact absurd hp (by decide)) | rfl)) | split)

theorem holdChan_keeps {ps : List Area} {s t : State} {x1 : Nat} (h : Keeps ps s t)
    (hs : ([.prt] : List Area).all (fun p => ps.contains p) = true) : Keeps ps s (holdChan t x1) := by
  refine Keeps.step ?_ hs h
  unfold holdChan
  try dsimp only
  repeat' with_reducible (first
    | exact Keeps.refl _ _ | assumption | decide | apply setChn_keeps | apply Keeps.ite
    | (fail_if_no_progress refine Keeps.upd ?_ rfl (by intro p hp; cases p <;> first | (exact absurd hp (by decide)) | rfl)) | split)

theorem holdStart_keeps {ps : List Area} {s t : State} (h : Keeps ps s t)
    (hs : ([.prt] : List Area).all (fun p => ps.contains p) = true) : Keeps ps s (holdStart t) := by
  refine Keeps.step ?_ hs h
  unfold holdStart
  try dsimp only
  repeat' with_reducible (first
    | exact Keeps.refl _ _ | assumption | decide | apply holdChan_keeps | apply Keeps.ite
    | (refine Keeps.foldl ?_ (fun u y hu => ?_) <;> try dsimp only) | split)

theorem failChan_keeps {ps : List Area} {s t : State} {x1 : Nat} (h : Keeps ps s t)
    (hs : ([.regs, .flt, .prt] : List Area).all (fun p => ps.contains p) = true) : Keeps ps s (failChan x1 t) := by
  refine Keeps.step ?_ hs h
  unfold failChan
  try dsimp only
  repeat' with_reducible (first
    | exact Keeps.refl _ _ | assumption | decide | apply setChn_keeps | apply report_keeps | apply setEvt_keeps | apply Keeps.ite
    | (fail_if_no_progress refine Keeps.upd ?_ rfl (by intro p hp; cases p <;> first | (exact absurd hp (by decide)) | rfl)) | split)

theorem loseChan_keeps {ps : List Area} {s t : State} {x1 : Nat} {x2 : Nat} {x3 : Nat} (h : Keeps ps s t)
    (hs : ([.regs, .flt, .prt] : List Area).all (fun p => ps.contains p) = true) : Keeps ps s (loseChan x1 x2 x3 t) := by
  refine Keeps.step ?_ hs h
  unfold loseChan
  try dsimp only
  repeat' with_reducible (first
    | exact Keeps.refl _ _ | assumption | decide | apply holdStart_keeps | apply report_keeps | apply setEvt_keeps | apply tripChan_keeps
    | apply Keeps.ite | split)

theorem protDecide_keeps {ps : List Area} {s t : State} (h : Keeps ps s t)
    (hs : ([.regs, .flt, .cmd, .fur, .grn, .hrw, .snr] : List Area).all (fun p => ps.contains p) = true) : Keeps ps s (protDecide t) := by
  refine Keeps.step ?_ hs h
  unfold protDecide
  try dsimp only
  repeat' with_reducible (first
    | exact Keeps.refl _ _ | assumption | decide | apply count_keeps | apply jnlPut_keeps
    | refine burstStart_keeps' ?_ ?_ (by assumption) | apply burstStart_keeps | apply setEvt_keeps | apply blockByDecision_keeps
    | apply snareEvent_keeps | apply Keeps.ite
    | (fail_if_no_progress refine Keeps.upd ?_ rfl (by intro p hp; cases p <;> first | (exact absurd hp (by decide)) | rfl)) | split)

theorem decision_keeps {ps : List Area} {s t : State} (h : Keeps ps s t)
    (hs : ([.regs, .flt, .cmd, .fur, .grn, .hrw, .snr, .stk] : List Area).all (fun p => ps.contains p) = true)
        : Keeps ps s (decision t) := by
  refine Keeps.step ?_ hs h
  unfold decision
  try dsimp only
  repeat' with_reducible (first
    | exact Keeps.refl _ _ | assumption | decide | apply protDecide_keeps | apply decisionOut_keeps | apply Keeps.ite | split)

theorem firstCause_keeps {ps : List Area} {s t : State} {x1 : U32} (h : Keeps ps s t)
    (hs : ([.prt] : List Area).all (fun p => ps.contains p) = true) : Keeps ps s (firstCause x1 t) := by
  refine Keeps.step ?_ hs h
  unfold firstCause
  try dsimp only
  repeat' with_reducible (first
    | exact Keeps.refl _ _ | assumption | apply Keeps.ite
    | (fail_if_no_progress refine Keeps.upd ?_ rfl (by intro p hp; cases p <;> first | (exact absurd hp (by decide)) | rfl)) | split)

theorem clapAssert_keeps {ps : List Area} {s t : State} {x1 : Nat} (h : Keeps ps s t)
    (hs : ([.prt] : List Area).all (fun p => ps.contains p) = true) : Keeps ps s (clapAssert x1 t) := by
  refine Keeps.step ?_ hs h
  unfold clapAssert
  try dsimp only
  repeat' with_reducible (first
    | exact Keeps.refl _ _ | assumption | apply Keeps.ite
    | (fail_if_no_progress refine Keeps.upd ?_ rfl (by intro p hp; cases p <;> first | (exact absurd hp (by decide)) | rfl)) | split)

theorem clapLatch_keeps {ps : List Area} {s t : State} {x1 : Nat} (h : Keeps ps s t)
    (hs : ([.regs, .flt, .cmd, .fur, .grn, .hrw, .prt, .snr, .stk] : List Area).all (fun p => ps.contains p) = true)
        : Keeps ps s (clapLatch x1 t) := by
  refine Keeps.step ?_ hs h
  unfold clapLatch
  try dsimp only
  repeat' with_reducible (first
    | exact Keeps.refl _ _ | assumption | decide | apply firstCause_keeps | apply setEvt_keeps | apply tripChan_keeps
    | apply report_keeps | apply decision_keeps | apply prtSync_keeps | apply Keeps.ite
    | (refine Keeps.foldl ?_ (fun u y hu => ?_) <;> try dsimp only)
    | (fail_if_no_progress refine Keeps.upd ?_ rfl (by intro p hp; cases p <;> first | (exact absurd hp (by decide)) | rfl)) | split)

theorem clapClear_keeps {ps : List Area} {s t : State} {x1 : Nat} (h : Keeps ps s t)
    (hs : ([.regs, .flt, .prt, .snr, .stk] : List Area).all (fun p => ps.contains p) = true) : Keeps ps s (clapClear x1 t) := by
  refine Keeps.step ?_ hs h
  unfold clapClear
  try dsimp only
  repeat' with_reducible (first
    | exact Keeps.refl _ _ | assumption | decide | apply prtSync_keeps | apply holdStart_keeps | apply Keeps.ite
    | (fail_if_no_progress refine Keeps.upd ?_ rfl (by intro p hp; cases p <;> first | (exact absurd hp (by decide)) | rfl)) | split)

theorem prtSetupDone_keeps {ps : List Area} {s t : State} (h : Keeps ps s t)
    (hs : ([.regs, .flt, .prt, .snr, .stk] : List Area).all (fun p => ps.contains p) = true) : Keeps ps s (prtSetupDone t) := by
  refine Keeps.step ?_ hs h
  unfold prtSetupDone
  try dsimp only
  repeat' with_reducible (first
    | exact Keeps.refl _ _ | assumption | decide | apply tripChan_keeps | apply prtSync_keeps | apply holdStart_keeps | apply Keeps.ite
    | (refine Keeps.foldl ?_ (fun u y hu => ?_) <;> try dsimp only)
    | (fail_if_no_progress refine Keeps.upd ?_ rfl (by intro p hp; cases p <;> first | (exact absurd hp (by decide)) | rfl)) | split)

theorem prtReopen_keeps {ps : List Area} {s t : State} (h : Keeps ps s t)
    (hs : ([.regs, .flt, .prt, .snr, .stk] : List Area).all (fun p => ps.contains p) = true) : Keeps ps s (prtReopen t) := by
  refine Keeps.step ?_ hs h
  unfold prtReopen
  try dsimp only
  repeat' with_reducible (first
    | exact Keeps.refl _ _ | assumption | decide | apply prtSync_keeps | apply tripChan_keeps | apply Keeps.ite
    | (refine Keeps.foldl ?_ (fun u y hu => ?_) <;> try dsimp only)
    | (fail_if_no_progress refine Keeps.upd ?_ rfl (by intro p hp; cases p <;> first | (exact absurd hp (by decide)) | rfl)) | split)

theorem crcCheck_keeps {ps : List Area} {s t : State} {x1 : U32} (h : Keeps ps s t)
    (hs : ([.regs, .prt] : List Area).all (fun p => ps.contains p) = true) : Keeps ps s (crcCheck x1 t) := by
  refine Keeps.step ?_ hs h
  unfold crcCheck
  try dsimp only
  repeat' with_reducible (first
    | exact Keeps.refl _ _ | assumption | decide | apply clapAssert_keeps | apply setEvt_keeps | apply Keeps.ite | split)

theorem spFailure_keeps {ps : List Area} {s t : State} (h : Keeps ps s t)
    (hs : ([.regs, .prt] : List Area).all (fun p => ps.contains p) = true) : Keeps ps s (spFailure t) := by
  refine Keeps.step ?_ hs h
  unfold spFailure
  try dsimp only
  repeat' with_reducible (first
    | exact Keeps.refl _ _ | assumption | decide | apply clapAssert_keeps | apply setEvt_keeps | apply Keeps.ite
    | (fail_if_no_progress refine Keeps.upd ?_ rfl (by intro p hp; cases p <;> first | (exact absurd hp (by decide)) | rfl)) | split)

theorem hbLoss_keeps {ps : List Area} {s t : State} (h : Keeps ps s t)
    (hs : ([.regs, .prt] : List Area).all (fun p => ps.contains p) = true) : Keeps ps s (hbLoss t) := by
  refine Keeps.step ?_ hs h
  unfold hbLoss
  try dsimp only
  repeat' with_reducible (first
    | exact Keeps.refl _ _ | assumption | decide | apply clapAssert_keeps | apply setEvt_keeps | apply Keeps.ite
    | (fail_if_no_progress refine Keeps.upd ?_ rfl (by intro p hp; cases p <;> first | (exact absurd hp (by decide)) | rfl)) | split)

theorem heartbeat_keeps {ps : List Area} {s t : State} {x1 : U32} {x2 : Nat} (h : Keeps ps s t)
    (hs : ([.regs, .prt] : List Area).all (fun p => ps.contains p) = true) : Keeps ps s (heartbeat x1 x2 t) := by
  refine Keeps.step ?_ hs h
  unfold heartbeat
  try dsimp only
  repeat' with_reducible (first
    | exact Keeps.refl _ _ | assumption | decide | apply hbLoss_keeps | apply Keeps.ite
    | (fail_if_no_progress refine Keeps.upd ?_ rfl (by intro p hp; cases p <;> first | (exact absurd hp (by decide)) | rfl)) | split)

theorem hbTimeout_keeps {ps : List Area} {s t : State} (h : Keeps ps s t)
    (hs : ([.tick, .regs, .prt, .tly] : List Area).all (fun p => ps.contains p) = true) : Keeps ps s (hbTimeout t) := by
  refine Keeps.step ?_ hs h
  unfold hbTimeout
  try dsimp only
  repeat' with_reducible (first
    | exact Keeps.refl _ _ | assumption | decide | apply hbLoss_keeps | apply advanceTo_keeps | apply Keeps.ite | split)

theorem spCmd_keeps {ps : List Area} {s t : State} {x1 : U8} {x2 : U8} {x3 : Bool} {x4 : Nat} (h : Keeps ps s t)
    (hs : ([.regs, .flt, .cmd, .fur, .grn, .hrw, .prt, .snr, .stk] : List Area).all (fun p => ps.contains p) = true)
        : Keeps ps s (spCmd x1 x2 x3 x4 t) := by
  refine Keeps.step ?_ hs h
  unfold spCmd
  try dsimp only
  repeat' with_reducible (first
    | exact Keeps.refl _ _ | assumption | decide | apply firstCause_keeps | apply report_keeps | apply setEvt_keeps
    | apply tripChan_keeps | apply holdStart_keeps | apply decision_keeps | apply prtSync_keeps | apply Keeps.ite
    | (refine Keeps.foldl ?_ (fun u y hu => ?_) <;> try dsimp only)
    | (fail_if_no_progress refine Keeps.upd ?_ rfl (by intro p hp; cases p <;> first | (exact absurd hp (by decide)) | rfl)) | split)

theorem imageStep_keeps {ps : List Area} {s t : State} {x1 : Bool} {x2 : State → Nat} {x3 : State → State} (h
    : Keeps ps s t) (hs : ([.regs, .flt, .cmd, .fur, .grn, .hrw, .prt, .snr, .stk] : List Area).all (fun p => ps.contains p) = true)
    (hf : ∀ u, Keeps ps s u → Keeps ps s (x3 u)) : Keeps ps s (imageStep x1 x2 x3 t) := by
  unfold imageStep
  try dsimp only
  repeat' with_reducible (first | assumption | apply hf | apply spCmd_keeps | exact sub_of hs (by decide) | apply Keeps.ite | split)

theorem cmpCopy_keeps {ps : List Area} {s t : State} {x1 : Nat} {x2 : Bool} (h : Keeps ps s t)
    (hs : ([.regs, .flt, .cmd, .fur, .grn, .hrw, .prt, .snr, .stk] : List Area).all (fun p => ps.contains p) = true)
        : Keeps ps s (cmpCopy x1 x2 t) := by
  refine Keeps.step ?_ hs h
  unfold cmpCopy
  try dsimp only
  repeat' with_reducible (first
    | exact Keeps.refl _ _ | assumption | decide | apply imageStep_keeps | apply Keeps.ite | (intro u hu; try dsimp only)
    | (fail_if_no_progress refine Keeps.upd ?_ rfl (by intro p hp; cases p <;> first | (exact absurd hp (by decide)) | rfl)) | split)

theorem safetyEval_keeps {ps : List Area} {s t : State} (h : Keeps ps s t)
    (hs : ([.regs, .flt, .cmd, .fur, .grn, .hrw, .prt, .snr, .stk] : List Area).all (fun p => ps.contains p) = true)
        : Keeps ps s (safetyEval t) := by
  refine Keeps.step ?_ hs h
  unfold safetyEval
  try dsimp only
  repeat' with_reducible (first
    | exact Keeps.refl _ _ | assumption | decide | apply imageStep_keeps | apply Keeps.ite | (intro u hu; try dsimp only) | split
    | (fail_if_no_progress refine Keeps.upd ?_ rfl (by intro p hp; cases p <;> first | (exact absurd hp (by decide)) | rfl)))

theorem commitWatchdog_keeps {ps : List Area} {s t : State} (h : Keeps ps s t)
    (hs : ([.regs, .flt, .cmd, .fur, .grn, .hrw, .prt, .snr, .stk] : List Area).all (fun p => ps.contains p) = true)
        : Keeps ps s (commitWatchdog t) := by
  refine Keeps.step ?_ hs h
  unfold commitWatchdog
  try dsimp only
  repeat' with_reducible (first
    | exact Keeps.refl _ _ | assumption | decide | apply imageStep_keeps | apply Keeps.ite | (intro u hu; try dsimp only)
    | (fail_if_no_progress refine Keeps.upd ?_ rfl (by intro p hp; cases p <;> first | (exact absurd hp (by decide)) | rfl)) | split)

theorem permitEnable_keeps {ps : List Area} {s t : State} {x1 : Nat} (h : Keeps ps s t)
    (hs : ([.tick, .regs, .flt, .prt, .snr, .stk, .tly] : List Area).all (fun p => ps.contains p) = true)
        : Keeps ps s (permitEnable x1 t) := by
  refine Keeps.step ?_ hs h
  unfold permitEnable
  try dsimp only
  repeat' with_reducible (first
    | exact Keeps.refl _ _ | assumption | decide | apply prtSync_keeps | apply setChn_keeps | apply advanceTo_keeps | apply Keeps.ite
    | split | (fail_if_no_progress refine Keeps.upd ?_ rfl (by intro p hp; cases p <;> first | (exact absurd hp (by decide)) | rfl)))

theorem checkLDone_keeps {ps : List Area} {s t : State} {x1 : Nat} (h : Keeps ps s t)
    (hs : ([.tick, .regs, .flt, .prt, .snr, .stk, .tly] : List Area).all (fun p => ps.contains p) = true)
        : Keeps ps s (checkLDone x1 t) := by
  refine Keeps.step ?_ hs h
  unfold checkLDone
  try dsimp only
  repeat' with_reducible (first
    | exact Keeps.refl _ _ | assumption | decide | apply advanceTo_keeps | apply prtSync_keeps | apply setChn_keeps | apply Keeps.ite
    | (fail_if_no_progress refine Keeps.upd ?_ rfl (by intro p hp; cases p <;> first | (exact absurd hp (by decide)) | rfl)) | split)

theorem pulsePass_keeps {ps : List Area} {s t : State} {x1 : Nat} (h : Keeps ps s t)
    (hs : ([.regs, .prt] : List Area).all (fun p => ps.contains p) = true) : Keeps ps s (pulsePass x1 t) := by
  refine Keeps.step ?_ hs h
  unfold pulsePass
  try dsimp only
  repeat' with_reducible (first
    | exact Keeps.refl _ _ | assumption | decide | apply countPass_keeps | apply setChn_keeps | apply Keeps.ite
    | (fail_if_no_progress refine Keeps.upd ?_ rfl (by intro p hp; cases p <;> first | (exact absurd hp (by decide)) | rfl)) | split)

theorem prbChange_keeps {ps : List Area} {s t : State} {x1 : Nat} {x2 : Bool} (h : Keeps ps s t)
    (hs : ([.regs, .flt, .prt, .snr, .stk] : List Area).all (fun p => ps.contains p) = true) : Keeps ps s (prbChange x1 x2 t) := by
  refine Keeps.step ?_ hs h
  unfold prbChange
  try dsimp only
  repeat' with_reducible (first
    | exact Keeps.refl _ _ | assumption | decide | apply setChn_keeps | apply failChan_keeps | apply loseChan_keeps
    | apply pulsePass_keeps | apply prtSync_keeps | apply Keeps.ite
    | (fail_if_no_progress refine Keeps.upd ?_ rfl (by intro p hp; cases p <;> first | (exact absurd hp (by decide)) | rfl)) | split)

theorem retTimeout_keeps {ps : List Area} {s t : State} {x1 : Nat} (h : Keeps ps s t)
    (hs : ([.tick, .regs, .flt, .prt, .snr, .stk, .tly] : List Area).all (fun p => ps.contains p) = true)
        : Keeps ps s (retTimeout x1 t) := by
  refine Keeps.step ?_ hs h
  unfold retTimeout
  try dsimp only
  repeat' with_reducible (first
    | exact Keeps.refl _ _ | assumption | decide | apply advanceTo_keeps | apply setChn_keeps | apply prtSync_keeps | apply report_keeps
    | apply setEvt_keeps | apply holdStart_keeps | apply Keeps.ite
    | (fail_if_no_progress refine Keeps.upd ?_ rfl (by intro p hp; cases p <;> first | (exact absurd hp (by decide)) | rfl)) | split)

theorem offChkExpire_keeps {ps : List Area} {s t : State} {x1 : Nat} (h : Keeps ps s t)
    (hs : ([.tick, .regs, .flt, .prt, .snr, .stk, .tly] : List Area).all (fun p => ps.contains p) = true)
        : Keeps ps s (offChkExpire x1 t) := by
  refine Keeps.step ?_ hs h
  unfold offChkExpire
  try dsimp only
  repeat' with_reducible (first
    | exact Keeps.refl _ _ | assumption | decide | apply prtSync_keeps | apply failChan_keeps | apply advanceTo_keeps | apply Keeps.ite
    | split)

theorem offPulseStart_keeps {ps : List Area} {s t : State} {x1 : Nat} (h : Keeps ps s t)
    (hs : ([.regs, .flt, .prt, .snr, .stk] : List Area).all (fun p => ps.contains p) = true) : Keeps ps s (offPulseStart x1 t) := by
  refine Keeps.step ?_ hs h
  unfold offPulseStart
  try dsimp only
  repeat' with_reducible (first
    | exact Keeps.refl _ _ | assumption | decide | apply prtSync_keeps | apply setChn_keeps | apply countSkip_keeps | apply Keeps.ite
    | (fail_if_no_progress refine Keeps.upd ?_ rfl (by intro p hp; cases p <;> first | (exact absurd hp (by decide)) | rfl)) | split)

theorem offPulseCheck_keeps {ps : List Area} {s t : State} {x1 : Nat} (h : Keeps ps s t)
    (hs : ([.tick, .regs, .flt, .prt, .snr, .stk, .tly] : List Area).all (fun p => ps.contains p) = true)
        : Keeps ps s (offPulseCheck x1 t) := by
  refine Keeps.step ?_ hs h
  unfold offPulseCheck
  try dsimp only
  repeat' with_reducible (first
    | exact Keeps.refl _ _ | assumption | decide | apply advanceTo_keeps | apply prtSync_keeps | apply failChan_keeps | apply Keeps.ite
    | split)

theorem offPulseEnd_keeps {ps : List Area} {s t : State} {x1 : Nat} (h : Keeps ps s t)
    (hs : ([.tick, .regs, .flt, .prt, .snr, .stk, .tly] : List Area).all (fun p => ps.contains p) = true)
        : Keeps ps s (offPulseEnd x1 t) := by
  refine Keeps.step ?_ hs h
  unfold offPulseEnd
  try dsimp only
  repeat' with_reducible (first
    | exact Keeps.refl _ _ | assumption | decide | apply advanceTo_keeps | apply setChn_keeps | apply prtSync_keeps
    | apply pulsePass_keeps | apply Keeps.ite
    | (fail_if_no_progress refine Keeps.upd ?_ rfl (by intro p hp; cases p <;> first | (exact absurd hp (by decide)) | rfl)) | split)

theorem afeConversion_keeps {ps : List Area} {s t : State} {x1 : Nat} {x2 : Int} {x3 : Bool} (h : Keeps ps s t)
    (hs : ([.tick, .regs, .flt, .ints, .cores, .afe, .snr, .tly] : List Area).all (fun p => ps.contains p) = true)
        : Keeps ps s (afeConversion x1 x2 x3 t) := by
  refine Keeps.step ?_ hs h
  unfold afeConversion
  try dsimp only
  repeat' with_reducible (first
    | exact Keeps.refl _ _ | assumption | decide | refine conversion_keeps' ?_ ?_ (by assumption) | apply conversion_keeps
    | apply snareEval_keeps | apply snareSig_keeps | apply Keeps.ite | split
    | (fail_if_no_progress refine Keeps.upd ?_ rfl (by intro p hp; cases p <;> first | (exact absurd hp (by decide)) | rfl)))

theorem comparatorCrossing_keeps {ps : List Area} {s t : State} {x1 : Nat} (h : Keeps ps s t)
    (hs :
        ([.regs, .flt, .cmd, .ints, .cores, .afe, .fur, .grn, .hrw, .prt, .snr, .stk] : List Area).all (fun p => ps.contains p) = true) :
        Keeps ps s (comparatorCrossing x1 t) := by
  refine Keeps.step ?_ hs h
  unfold comparatorCrossing
  try dsimp only
  repeat' with_reducible (first
    | exact Keeps.refl _ _ | assumption | decide | apply snareSig_keeps | apply cmpCross_keeps | apply cmpCopy_keeps
    | apply clapAssert_keeps | apply snareEval_keeps | apply Keeps.ite | split)

theorem comparatorRearm_keeps {ps : List Area} {s t : State} {x1 : Nat} (h : Keeps ps s t)
    (hs : ([.regs, .flt, .cmd, .afe, .fur, .grn, .hrw, .prt, .snr, .stk] : List Area).all (fun p => ps.contains p) = true)
        : Keeps ps s (comparatorRearm x1 t) := by
  refine Keeps.step ?_ hs h
  unfold comparatorRearm
  try dsimp only
  repeat' with_reducible (first
    | exact Keeps.refl _ _ | assumption | decide | apply setCmp_keeps | apply snareEval_keeps | apply cmpCopy_keeps
    | apply snareSig_keeps | apply Keeps.ite | split)

end Sys2Proof.Machine
end

