-- ==== Sys2Proof/Laws/KeepsImage.lean ====
section
/-! SUPPORT. What every operation of Granary, the endpoints and the stack leaves as it was (Keeps): each lemma names the areas of
the state that the operation may change; the queue, core memory, the canonical forms, issued host writes, the free values drawn and REV_CNT
are kept by all. -/

set_option linter.unusedTactic false
set_option linter.unreachableTactic false

namespace Sys2Proof.Machine

theorem pubSkip_keeps {ps : List Area} {s t : State} (h : Keeps ps s t)
    (hs : ([.regs] : List Area).all (fun p => ps.contains p) = true) : Keeps ps s (pubSkip t) := by
  refine Keeps.step ?_ hs h
  unfold pubSkip
  try dsimp only
  repeat' with_reducible (first
    | exact Keeps.refl _ _ | assumption | decide | apply yieldCount_keeps | apply setEvt_keeps | apply count_keeps | apply Keeps.ite
    | split)

theorem pubTake_keeps {ps : List Area} {s : State} {x1 : Nat} {x2 : Bool} {x3 : Image} {x4 : Nat} {x5 : State × List SnapDesc}
    (h : Keeps ps s x5.1) (hs : ([.regs, .dma, .grn, .tly] : List Area).all (fun p => ps.contains p) = true)
        : Keeps ps s (pubTake x1 x2 x3 x4 x5).1 := by
  obtain ⟨t, l⟩ := x5
  refine Keeps.step (t := t) ?_ hs h
  unfold pubTake
  try dsimp only
  repeat' with_reducible (first
    | exact Keeps.refl _ _ | assumption | decide | apply yieldCount_keeps | apply count_keeps | apply dmaWrite_keeps | apply Keeps.ite
    | split | (fail_if_no_progress refine Keeps.upd ?_ rfl (by intro p hp; cases p <;> first | (exact absurd hp (by decide)) | rfl)))

theorem publish_keeps {ps : List Area} {s t : State} {x1 : Nat} {x2 : Bool} {x3 : Image} {x4 : List SnapDesc} (h : Keeps ps s t)
    (hs : ([.regs, .dma, .grn, .tly] : List Area).all (fun p => ps.contains p) = true) : Keeps ps s (publish x1 x2 x3 x4 t) := by
  unfold publish
  try dsimp only
  repeat' with_reducible (first
    | assumption | exact sub_of hs (by decide) | (refine Keeps.foldl1 ?_ (fun y a hy => pubTake_keeps hy (sub_of hs (by decide))))
    | apply pubTake_keeps | apply pubSkip_keeps | (refine Keeps.foldl ?_ (fun u y hu => ?_) <;> try dsimp only) | apply Keeps.ite
    | split)

theorem descBack_keeps {ps : List Area} {s t : State} {x1 : Pubn} {x2 : Nat} {x3 : Nat} (h : Keeps ps s t)
    (hs : ([.dma, .hst, .tly] : List Area).all (fun p => ps.contains p) = true) : Keeps ps s (descBack x1 x2 x3 t) := by
  refine Keeps.step ?_ hs h
  unfold descBack
  try dsimp only
  repeat' with_reducible (first
    | exact Keeps.refl _ _ | assumption | decide | apply dmaWrite_keeps | apply Keeps.ite
    | (fail_if_no_progress refine Keeps.upd ?_ rfl (by intro p hp; cases p <;> first | (exact absurd hp (by decide)) | rfl)) | split)

theorem pubAbandon_keeps {ps : List Area} {s t : State} {x1 : Pubn} {x2 : List Pubn} (h : Keeps ps s t)
    (hs : ([.regs, .dma, .freeCtr, .hst, .grn, .tly] : List Area).all (fun p => ps.contains p) = true)
        : Keeps ps s (pubAbandon x1 x2 t) := by
  refine Keeps.step ?_ hs h
  unfold pubAbandon
  try dsimp only
  repeat' with_reducible (first
    | exact Keeps.refl _ _ | assumption | decide | refine draw_keeps' ?_ ?_ (by assumption) | apply draw_keeps | apply yieldCount_keeps
    | apply setEvt_keeps | apply count_keeps | apply descBack_keeps | apply Keeps.ite | split
    | (fail_if_no_progress refine Keeps.upd ?_ rfl (by intro p hp; cases p <;> first | (exact absurd hp (by decide)) | rfl)))

theorem pubComplete_keeps {ps : List Area} {s t : State} {x1 : Bool} (h : Keeps ps s t)
    (hs : ([.regs, .dma, .freeCtr, .hst, .flt, .grn, .tly] : List Area).all (fun p => ps.contains p) = true)
        : Keeps ps s (pubComplete x1 t) := by
  refine Keeps.step ?_ hs h
  unfold pubComplete
  try dsimp only
  repeat' with_reducible (first
    | exact Keeps.refl _ _ | assumption | decide | apply descBack_keeps | apply report_keeps | apply pubAbandon_keeps
    | apply setEvt_keeps | apply dmaWrite_keeps | apply Keeps.ite | split
    | (fail_if_no_progress refine Keeps.upd ?_ rfl (by intro p hp; cases p <;> first | (exact absurd hp (by decide)) | rfl)))

theorem closureDeadline_keeps {ps : List Area} {s t : State} {x1 : Nat} (h : Keeps ps s t)
    (hs : ([.tick, .regs, .tly] : List Area).all (fun p => ps.contains p) = true) : Keeps ps s (closureDeadline x1 t) := by
  refine Keeps.step ?_ hs h
  unfold closureDeadline
  try dsimp only
  repeat' with_reducible (first
    | exact Keeps.refl _ _ | assumption | decide | apply setEvt_keeps | apply advanceTo_keeps | apply Keeps.ite | split
    | (fail_if_no_progress refine Keeps.upd ?_ rfl (by intro p hp; cases p <;> first | (exact absurd hp (by decide)) | rfl)))

theorem cellClosed_keeps {ps : List Area} {s t : State} {x1 : Nat} {x2 : Image} {x3 : Nat} (h : Keeps ps s t)
    (hs : ([.regs, .flt, .cmd, .grn] : List Area).all (fun p => ps.contains p) = true) : Keeps ps s (cellClosed x1 x2 t x3) := by
  refine Keeps.step ?_ hs h
  unfold cellClosed
  try dsimp only
  repeat' with_reducible (first
    | exact Keeps.refl _ _ | assumption | decide | apply report_keeps | refine bucketFrame_keeps' ?_ ?_ (by assumption)
    | apply bucketFrame_keeps | apply tocsinRetire_keeps | apply Keeps.ite | split)

theorem ringClosed_keeps {ps : List Area} {s t : State} {x1 : Nat} {x2 : Nat} (h : Keeps ps s t)
    (hs : ([.regs, .flt, .fur, .prt, .snr] : List Area).all (fun p => ps.contains p) = true) : Keeps ps s (ringClosed x1 t x2) := by
  refine Keeps.step ?_ hs h
  unfold ringClosed
  try dsimp only
  repeat' with_reducible (first
    | exact Keeps.refl _ _ | assumption | decide | apply setEvt_keeps | apply setRing_keeps | apply report_keeps | apply snareSig_keeps
    | apply clapAssert_keeps | apply Keeps.ite
    | (fail_if_no_progress refine Keeps.upd ?_ rfl (by intro p hp; cases p <;> first | (exact absurd hp (by decide)) | rfl)) | split)

theorem closeRings_keeps {ps : List Area} {s t : State} {x1 : Nat} (h : Keeps ps s t)
    (hs : ([.regs, .flt, .cmd, .ints, .cores, .fur, .prt, .snr] : List Area).all (fun p => ps.contains p) = true)
        : Keeps ps s (closeRings x1 t) := by
  refine Keeps.step ?_ hs h
  unfold closeRings
  try dsimp only
  repeat' with_reducible (first
    | exact Keeps.refl _ _ | assumption | decide | apply ringClosed_keeps | apply drainEnd_keeps | apply Keeps.ite
    | (refine Keeps.foldl ?_ (fun u y hu => ?_) <;> try dsimp only) | split
    | (fail_if_no_progress refine Keeps.upd ?_ rfl (by intro p hp; cases p <;> first | (exact absurd hp (by decide)) | rfl)))

theorem epochMissed_keeps {ps : List Area} {s t : State} {x1 : Nat} {x2 : List SnapDesc} (h : Keeps ps s t)
    (hs : ([.regs, .dma, .flt, .ints, .cores, .grn, .tly] : List Area).all (fun p => ps.contains p) = true)
        : Keeps ps s (epochMissed x1 x2 t) := by
  refine Keeps.step ?_ hs h
  unfold epochMissed
  try dsimp only
  repeat' with_reducible (first
    | exact Keeps.refl _ _ | assumption | decide | apply yieldCount_keeps | apply setEvt_keeps | apply count_keeps | apply report_keeps
    | apply jnlPut_keeps | apply publish_keeps | apply intEdge_keeps | apply Keeps.ite
    | (fail_if_no_progress refine Keeps.upd ?_ rfl (by intro p hp; cases p <;> first | (exact absurd hp (by decide)) | rfl)) | split)

theorem epochClose_keeps {ps : List Area} {s t : State} {x1 : Bool} {x2 : Nat} {x3 : List SnapDesc} (h : Keeps ps s t)
    (hs : ([.regs, .dma, .flt, .cmd, .ints, .cores, .fur, .grn, .prt, .snr, .tly] : List Area).all
        (fun p => ps.contains p) = true) : Keeps ps s (epochClose x1 x2 x3 t) := by
  refine Keeps.step ?_ hs h
  unfold epochClose
  try dsimp only
  repeat' with_reducible (first
    | exact Keeps.refl _ _ | assumption | decide | apply count_keeps | apply cellClosed_keeps | apply closeRings_keeps
    | apply epochMissed_keeps | apply setEvt_keeps | apply snareEval_keeps | apply Keeps.ite
    | (refine Keeps.foldl ?_ (fun u y hu => ?_) <;> try dsimp only) | split
    | (fail_if_no_progress refine Keeps.upd ?_ rfl (by intro p hp; cases p <;> first | (exact absurd hp (by decide)) | rfl)))

theorem snareCommit_keeps {ps : List Area} {s t : State} {x1 : Image} (h : Keeps ps s t)
    (hs : ([.regs, .flt, .snr] : List Area).all (fun p => ps.contains p) = true) : Keeps ps s (snareCommit x1 t) := by
  refine Keeps.step ?_ hs h
  unfold snareCommit
  try dsimp only
  repeat' with_reducible (first
    | exact Keeps.refl _ _ | assumption | decide | apply snareSig_keeps | apply Keeps.ite
    | (refine Keeps.foldl ?_ (fun u y hu => ?_) <;> try dsimp only) | split)

theorem commitRecords_keeps {ps : List Area} {s t : State} {x1 : Image} (h : Keeps ps s t)
    (hs : ([.regs, .grn] : List Area).all (fun p => ps.contains p) = true) : Keeps ps s (commitRecords x1 t) := by
  refine Keeps.step ?_ hs h
  unfold commitRecords
  try dsimp only
  repeat' with_reducible (first
    | exact Keeps.refl _ _ | assumption | decide | apply jnlPut_keeps | apply Keeps.ite
    | (fail_if_no_progress refine Keeps.upd ?_ rfl (by intro p hp; cases p <;> first | (exact absurd hp (by decide)) | rfl)) | split)

theorem epochCommit_keeps {ps : List Area} {s t : State} {x1 : Nat} {x2 : List SnapDesc} (h : Keeps ps s t)
    (hs :
        ([.tick, .regs, .dma, .flt, .cmd, .ints, .cores, .fur, .grn, .hrw, .prt, .snr, .stk, .tly] : List Area).all (fun p => ps.contains
        p) = true) : Keeps ps s (epochCommit x1 x2 t) := by
  refine Keeps.step ?_ hs h
  unfold epochCommit
  try dsimp only
  repeat' with_reducible (first
    | exact Keeps.refl _ _ | assumption | decide | apply advanceTo_keeps | apply commitRecords_keeps | apply publish_keeps
    | apply safetyEval_keeps | apply snareCommit_keeps | apply snareEval_keeps | apply intEdge_keeps | apply Keeps.ite | split
    | (fail_if_no_progress refine Keeps.upd ?_ rfl (by intro p hp; cases p <;> first | (exact absurd hp (by decide)) | rfl)))

theorem setEp_keeps {ps : List Area} {s t : State} {x1 : Nat} {x2 : Ep} (h : Keeps ps s t)
    (hs : ([.eps] : List Area).all (fun p => ps.contains p) = true) : Keeps ps s (setEp t x1 x2) := by
  refine Keeps.step ?_ hs h
  unfold setEp
  try dsimp only
  repeat' with_reducible (first
    | exact Keeps.refl _ _ | assumption | apply Keeps.ite
    | (fail_if_no_progress refine Keeps.upd ?_ rfl (by intro p hp; cases p <;> first | (exact absurd hp (by decide)) | rfl)) | split)

theorem setSport_keeps {ps : List Area} {s t : State} {x1 : Nat} {x2 : StkPort} (h : Keeps ps s t)
    (hs : ([.stk] : List Area).all (fun p => ps.contains p) = true) : Keeps ps s (setSport t x1 x2) := by
  refine Keeps.step ?_ hs h
  unfold setSport
  try dsimp only
  repeat' with_reducible (first
    | exact Keeps.refl _ _ | assumption | apply Keeps.ite
    | (fail_if_no_progress refine Keeps.upd ?_ rfl (by intro p hp; cases p <;> first | (exact absurd hp (by decide)) | rfl)) | split)

theorem portState_keeps {ps : List Area} {s t : State} {x1 : Nat} {x2 : Nat} (h : Keeps ps s t)
    (hs : ([.regs, .flt, .snr, .stk] : List Area).all (fun p => ps.contains p) = true) : Keeps ps s (portState x1 x2 t) := by
  refine Keeps.step ?_ hs h
  unfold portState
  try dsimp only
  repeat' with_reducible (first
    | exact Keeps.refl _ _ | assumption | decide | apply snareSig_keeps | apply setSport_keeps | apply Keeps.ite | split
    | (fail_if_no_progress refine Keeps.upd ?_ rfl (by intro p hp; cases p <;> first | (exact absurd hp (by decide)) | rfl)))

theorem setRole_keeps {ps : List Area} {s t : State} {x1 : Nat} (h : Keeps ps s t)
    (hs : ([.regs, .flt, .snr, .stk] : List Area).all (fun p => ps.contains p) = true) : Keeps ps s (setRole x1 t) := by
  refine Keeps.step ?_ hs h
  unfold setRole
  try dsimp only
  repeat' with_reducible (first
    | exact Keeps.refl _ _ | assumption | decide | apply snareSig_keeps | apply Keeps.ite
    | (fail_if_no_progress refine Keeps.upd ?_ rfl (by intro p hp; cases p <;> first | (exact absurd hp (by decide)) | rfl)) | split)

theorem toShadow_keeps {ps : List Area} {s t : State} (h : Keeps ps s t)
    (hs : ([.regs, .flt, .grn, .snr, .stk] : List Area).all (fun p => ps.contains p) = true) : Keeps ps s (toShadow t) := by
  refine Keeps.step ?_ hs h
  unfold toShadow
  try dsimp only
  repeat' with_reducible (first
    | exact Keeps.refl _ _ | assumption | decide | apply setRole_keeps | apply Keeps.ite
    | (fail_if_no_progress refine Keeps.upd ?_ rfl (by intro p hp; cases p <;> first | (exact absurd hp (by decide)) | rfl)) | split)

theorem stkPut_keeps {ps : List Area} {s t : State} {x1 : Nat} {x2 : Nat} {x3 : List U64} (h : Keeps ps s t)
    (hs : ([.stk] : List Area).all (fun p => ps.contains p) = true) : Keeps ps s (stkPut x1 x2 x3 t) := by
  refine Keeps.step ?_ hs h
  unfold stkPut
  try dsimp only
  repeat' with_reducible (first
    | exact Keeps.refl _ _ | assumption | apply Keeps.ite
    | (fail_if_no_progress refine Keeps.upd ?_ rfl (by intro p hp; cases p <;> first | (exact absurd hp (by decide)) | rfl)) | split)

theorem stkSend_keeps {ps : List Area} {s t : State} {x1 : Nat} {x2 : Nat} {x3 : List U64} (h : Keeps ps s t)
    (hs : ([.stk] : List Area).all (fun p => ps.contains p) = true) : Keeps ps s (stkSend x1 x2 x3 t) := by
  refine Keeps.step ?_ hs h
  unfold stkSend
  try dsimp only
  repeat' with_reducible (first | exact Keeps.refl _ _ | assumption | decide | apply stkPut_keeps | apply Keeps.ite | split)

theorem firstCopy_keeps {ps : List Area} {s t : State} {x1 : Nat} {x2 : Nat} {x3 : Nat} (h : Keeps ps s t)
    (hs : ([.stk] : List Area).all (fun p => ps.contains p) = true) : Keeps ps s (firstCopy x1 x2 x3 t).2 := by
  refine Keeps.step ?_ hs h
  unfold firstCopy
  try dsimp only
  repeat' with_reducible (first
    | exact Keeps.refl _ _ | assumption | decide | apply setSport_keeps | apply Keeps.ite
    | (fail_if_no_progress refine Keeps.upd ?_ rfl (by intro p hp; cases p <;> first | (exact absurd hp (by decide)) | rfl)) | split)

theorem firstCopy_keeps' {ps : List Area} {s t : State} {x1 : Nat} {x2 : Nat} {x3 : Nat} {y0 : Bool} {y1 : State} (h : Keeps ps s t)
    (hs : ([.stk] : List Area).all (fun p => ps.contains p) = true) (e : firstCopy x1 x2 x3 t = (y0, y1)) : Keeps ps s y1 := by
  have k := firstCopy_keeps (t := t) (x1 := x1) (x2 := x2) (x3 := x3) h hs
  rw [e] at k
  exact k

theorem helloSend_keeps {ps : List Area} {s t : State} (h : Keeps ps s t)
    (hs : ([.stk] : List Area).all (fun p => ps.contains p) = true) : Keeps ps s (helloSend t) := by
  refine Keeps.step ?_ hs h
  unfold helloSend
  try dsimp only
  repeat' with_reducible (first
    | exact Keeps.refl _ _ | assumption | decide | apply stkPut_keeps | apply Keeps.ite
    | (fail_if_no_progress refine Keeps.upd ?_ rfl (by intro p hp; cases p <;> first | (exact absurd hp (by decide)) | rfl)) | split)

theorem readyStep_keeps {ps : List Area} {s t : State} (h : Keeps ps s t)
    (hs : ([.regs, .flt, .snr, .stk] : List Area).all (fun p => ps.contains p) = true) : Keeps ps s (readyStep t) := by
  refine Keeps.step ?_ hs h
  unfold readyStep
  try dsimp only
  repeat' with_reducible (first
    | exact Keeps.refl _ _ | assumption | decide | apply snareSig_keeps | apply setEvt_keeps | apply Keeps.ite
    | (fail_if_no_progress refine Keeps.upd ?_ rfl (by intro p hp; cases p <;> first | (exact absurd hp (by decide)) | rfl)) | split)

theorem ackRelease_keeps {ps : List Area} {s t : State} {x1 : Bool} {x2 : AckWait} (h : Keeps ps s t)
    (hs : ([.regs, .hst, .cmd, .grn] : List Area).all (fun p => ps.contains p) = true) : Keeps ps s (ackRelease x1 x2 t) := by
  refine Keeps.step ?_ hs h
  unfold ackRelease
  try dsimp only
  repeat' with_reducible (first
    | exact Keeps.refl _ _ | assumption | decide | apply cplOut_keeps | apply Keeps.ite
    | (fail_if_no_progress refine Keeps.upd ?_ rfl (by intro p hp; cases p <;> first | (exact absurd hp (by decide)) | rfl)) | split)

theorem partnerReadyIs_keeps {ps : List Area} {s t : State} {x1 : Nat} (h : Keeps ps s t)
    (hs : ([.regs, .hst, .flt, .cmd, .grn, .stk] : List Area).all (fun p => ps.contains p) = true) : Keeps ps s (partnerReadyIs x1 t) := by
  refine Keeps.step ?_ hs h
  unfold partnerReadyIs
  try dsimp only
  repeat' with_reducible (first
    | exact Keeps.refl _ _ | assumption | decide | apply setEvt_keeps | apply report_keeps | apply ackRelease_keeps | apply Keeps.ite
    | (refine Keeps.foldl ?_ (fun u y hu => ?_) <;> try dsimp only)
    | (fail_if_no_progress refine Keeps.upd ?_ rfl (by intro p hp; cases p <;> first | (exact absurd hp (by decide)) | rfl)) | split)

theorem followIs_keeps {ps : List Area} {s t : State} {x1 : U8} (h : Keeps ps s t)
    (hs : ([.regs, .flt, .prt, .snr, .stk] : List Area).all (fun p => ps.contains p) = true) : Keeps ps s (followIs x1 t) := by
  refine Keeps.step ?_ hs h
  unfold followIs
  try dsimp only
  repeat' with_reducible (first
    | exact Keeps.refl _ _ | assumption | decide | apply setEvt_keeps | apply prtSync_keeps | apply holdStart_keeps
    | apply tripChan_keeps | apply Keeps.ite | (refine Keeps.foldl ?_ (fun u y hu => ?_) <;> try dsimp only)
    | (fail_if_no_progress refine Keeps.upd ?_ rfl (by intro p hp; cases p <;> first | (exact absurd hp (by decide)) | rfl)) | split)

theorem takeRings_keeps {ps : List Area} {s t : State} {x1 : Nat} (h : Keeps ps s t)
    (hs : ([.regs, .flt, .fur, .snr] : List Area).all (fun p => ps.contains p) = true) : Keeps ps s (takeRings x1 t) := by
  refine Keeps.step ?_ hs h
  unfold takeRings
  try dsimp only
  repeat' with_reducible (first
    | exact Keeps.refl _ _ | assumption | decide | apply setTx_keeps | apply snareSig_keeps | apply setRing_keeps | apply Keeps.ite
    | (refine Keeps.foldl ?_ (fun u y hu => ?_) <;> try dsimp only)
    | (fail_if_no_progress refine Keeps.upd ?_ rfl (by intro p hp; cases p <;> first | (exact absurd hp (by decide)) | rfl)) | split)

theorem takeMissed_keeps {ps : List Area} {s t : State} {x1 : Nat} (h : Keeps ps s t)
    (hs : ([.regs, .flt, .grn] : List Area).all (fun p => ps.contains p) = true) : Keeps ps s (takeMissed x1 t) := by
  refine Keeps.step ?_ hs h
  unfold takeMissed
  try dsimp only
  repeat' with_reducible (first
    | exact Keeps.refl _ _ | assumption | decide | apply setEvt_keeps | apply count_keeps | apply jnlPut_keeps | apply report_keeps
    | apply Keeps.ite | (refine Keeps.foldl ?_ (fun u y hu => ?_) <;> try dsimp only)
    | (fail_if_no_progress refine Keeps.upd ?_ rfl (by intro p hp; cases p <;> first | (exact absurd hp (by decide)) | rfl)) | split)

theorem takeover_keeps {ps : List Area} {s t : State} (h : Keeps ps s t)
    (hs : ([.regs, .flt, .cmd, .lpe, .fur, .grn, .hrw, .snr, .stk] : List Area).all (fun p => ps.contains p) = true)
        : Keeps ps s (takeover t) := by
  refine Keeps.step ?_ hs h
  unfold takeover
  try dsimp only
  repeat' with_reducible (first
    | exact Keeps.refl _ _ | assumption | decide | apply setRole_keeps | apply takeMissed_keeps | apply takeRings_keeps
    | apply setHArm_keeps | apply moveEffect_keeps | apply blockByDecision_keeps | apply jnlPut_keeps | apply report_keeps
    | apply setEvt_keeps | apply count_keeps | apply Keeps.ite | (refine Keeps.foldl ?_ (fun u y hu => ?_) <;> try dsimp only) | split
    | (fail_if_no_progress refine Keeps.upd ?_ rfl (by intro p hp; cases p <;> first | (exact absurd hp (by decide)) | rfl)))

theorem takeoverFrame_keeps {ps : List Area} {s t : State} {x1 : Nat} (h : Keeps ps s t)
    (hs : ([.regs, .flt, .snr, .stk] : List Area).all (fun p => ps.contains p) = true) : Keeps ps s (takeoverFrame x1 t) := by
  refine Keeps.step ?_ hs h
  unfold takeoverFrame
  try dsimp only
  repeat' with_reducible (first
    | exact Keeps.refl _ _ | assumption | decide | apply setRole_keeps | apply snareSig_keeps | apply Keeps.ite
    | (fail_if_no_progress refine Keeps.upd ?_ rfl (by intro p hp; cases p <;> first | (exact absurd hp (by decide)) | rfl)) | split)

theorem partnerLost_keeps {ps : List Area} {s t : State} (h : Keeps ps s t)
    (hs : ([.regs, .hst, .flt, .cmd, .lpe, .fur, .grn, .hrw, .prt, .snr, .stk] : List Area).all (fun p => ps.contains p) = true)
        : Keeps ps s (partnerLost t) := by
  refine Keeps.step ?_ hs h
  unfold partnerLost
  try dsimp only
  repeat' with_reducible (first
    | exact Keeps.refl _ _ | assumption | decide | apply followIs_keeps | apply partnerReadyIs_keeps | apply report_keeps
    | apply setEvt_keeps | apply takeover_keeps | apply Keeps.ite
    | (fail_if_no_progress refine Keeps.upd ?_ rfl (by intro p hp; cases p <;> first | (exact absurd hp (by decide)) | rfl)) | split)

theorem portDown_keeps {ps : List Area} {s t : State} {x1 : Nat} (h : Keeps ps s t)
    (hs : ([.regs, .hst, .flt, .cmd, .lpe, .fur, .grn, .hrw, .prt, .snr, .stk] : List Area).all (fun p => ps.contains p) = true)
        : Keeps ps s (portDown x1 t) := by
  refine Keeps.step ?_ hs h
  unfold portDown
  try dsimp only
  repeat' with_reducible (first
    | exact Keeps.refl _ _ | assumption | decide | apply portState_keeps | apply setSport_keeps | apply readyStep_keeps
    | apply partnerLost_keeps | apply report_keeps | apply setEvt_keeps | apply Keeps.ite
    | (fail_if_no_progress refine Keeps.upd ?_ rfl (by intro p hp; cases p <;> first | (exact absurd hp (by decide)) | rfl)) | split)

theorem portTrain_keeps {ps : List Area} {s t : State} {x1 : Nat} (h : Keeps ps s t)
    (hs : ([.regs, .flt, .snr, .stk] : List Area).all (fun p => ps.contains p) = true) : Keeps ps s (portTrain x1 t) := by
  refine Keeps.step ?_ hs h
  unfold portTrain
  try dsimp only
  repeat' with_reducible (first
    | exact Keeps.refl _ _ | assumption | decide | apply bucketRestore_keeps | apply helloSend_keeps | apply portState_keeps
    | apply setSport_keeps | apply Keeps.ite | (refine Keeps.foldl ?_ (fun u y hu => ?_) <;> try dsimp only)
    | (fail_if_no_progress refine Keeps.upd ?_ rfl (by intro p hp; cases p <;> first | (exact absurd hp (by decide)) | rfl)) | split)

theorem clockLoss_keeps {ps : List Area} {s t : State} {x1 : Nat} (h : Keeps ps s t)
    (hs : ([.regs, .hst, .flt, .cmd, .lpe, .fur, .grn, .hrw, .prt, .snr, .stk] : List Area).all (fun p => ps.contains p) = true)
        : Keeps ps s (clockLoss x1 t) := by
  refine Keeps.step ?_ hs h
  unfold clockLoss
  try dsimp only
  repeat' with_reducible (first
    | exact Keeps.refl _ _ | assumption | decide | apply portDown_keeps | apply setSport_keeps | apply report_keeps | apply setEvt_keeps
    | apply Keeps.ite
    | (fail_if_no_progress refine Keeps.upd ?_ rfl (by intro p hp; cases p <;> first | (exact absurd hp (by decide)) | rfl)) | split)

theorem clockReturn_keeps {ps : List Area} {s t : State} {x1 : Nat} (h : Keeps ps s t)
    (hs : ([.regs, .flt, .snr, .stk] : List Area).all (fun p => ps.contains p) = true) : Keeps ps s (clockReturn x1 t) := by
  refine Keeps.step ?_ hs h
  unfold clockReturn
  try dsimp only
  repeat' with_reducible (first
    | exact Keeps.refl _ _ | assumption | decide | apply portTrain_keeps | apply setSport_keeps | apply Keeps.ite
    | (fail_if_no_progress refine Keeps.upd ?_ rfl (by intro p hp; cases p <;> first | (exact absurd hp (by decide)) | rfl)) | split)

theorem fstartMiss_keeps {ps : List Area} {s t : State} {x1 : Nat} (h : Keeps ps s t)
    (hs : ([.regs, .hst, .flt, .cmd, .lpe, .fur, .grn, .hrw, .prt, .snr, .stk] : List Area).all (fun p => ps.contains p) = true)
        : Keeps ps s (fstartMiss x1 t) := by
  refine Keeps.step ?_ hs h
  unfold fstartMiss
  try dsimp only
  repeat' with_reducible (first | exact Keeps.refl _ _ | assumption | decide | apply portDown_keeps | apply Keeps.ite | split)

theorem laneLoss_keeps {ps : List Area} {s t : State} {x1 : Nat} {x2 : Nat} (h : Keeps ps s t)
    (hs : ([.regs, .hst, .flt, .cmd, .lpe, .fur, .grn, .hrw, .prt, .snr, .stk] : List Area).all (fun p => ps.contains p) = true)
        : Keeps ps s (laneLoss x1 x2 t) := by
  refine Keeps.step ?_ hs h
  unfold laneLoss
  try dsimp only
  repeat' with_reducible (first
    | exact Keeps.refl _ _ | assumption | decide | apply setSport_keeps | apply report_keeps | apply count_keeps | apply portDown_keeps
    | apply Keeps.ite
    | (fail_if_no_progress refine Keeps.upd ?_ rfl (by intro p hp; cases p <;> first | (exact absurd hp (by decide)) | rfl)) | split)

theorem laneLive_keeps {ps : List Area} {s t : State} {x1 : Nat} {x2 : Nat} {x3 : Nat} {x4 : Nat} (h : Keeps ps s t)
    (hs : ([.regs, .flt, .snr, .stk] : List Area).all (fun p => ps.contains p) = true) : Keeps ps s (laneLive x1 x2 x3 x4 t) := by
  refine Keeps.step ?_ hs h
  unfold laneLive
  try dsimp only
  repeat' with_reducible (first
    | exact Keeps.refl _ _ | assumption | decide | apply portTrain_keeps | apply setSport_keeps | apply Keeps.ite
    | (fail_if_no_progress refine Keeps.upd ?_ rfl (by intro p hp; cases p <;> first | (exact absurd hp (by decide)) | rfl)) | split)

theorem stkRetrain_keeps {ps : List Area} {s t : State} {x1 : U32} (h : Keeps ps s t)
    (hs : ([.regs, .flt, .snr, .stk] : List Area).all (fun p => ps.contains p) = true) : Keeps ps s (stkRetrain x1 t) := by
  refine Keeps.step ?_ hs h
  unfold stkRetrain
  try dsimp only
  repeat' with_reducible (first
    | exact Keeps.refl _ _ | assumption | decide | apply bucketRestore_keeps | apply helloSend_keeps | apply portState_keeps
    | apply setSport_keeps | apply Keeps.ite | (refine Keeps.foldl ?_ (fun u y hu => ?_) <;> try dsimp only)
    | (fail_if_no_progress refine Keeps.upd ?_ rfl (by intro p hp; cases p <;> first | (exact absurd hp (by decide)) | rfl)) | split)

theorem tickSet_keeps {ps : List Area} {s t : State} {x1 : Nat} (h : Keeps ps s t)
    (hs : ([.tick, .stk] : List Area).all (fun p => ps.contains p) = true) : Keeps ps s (tickSet x1 t) := by
  refine Keeps.step ?_ hs h
  unfold tickSet
  try dsimp only
  repeat' with_reducible (first
    | exact Keeps.refl _ _ | assumption | apply Keeps.ite | split
    | (fail_if_no_progress refine Keeps.upd ?_ rfl (by intro p hp; cases p <;> first | (exact absurd hp (by decide)) | rfl)))

theorem effectSend_keeps {ps : List Area} {s t : State} {x1 : Eff} (h : Keeps ps s t)
    (hs : ([.cmd, .stk] : List Area).all (fun p => ps.contains p) = true) : Keeps ps s (effectSend x1 t) := by
  refine Keeps.step ?_ hs h
  unfold effectSend
  try dsimp only
  repeat' with_reducible (first
    | exact Keeps.refl _ _ | assumption | decide | apply stkSend_keeps | apply Keeps.ite
    | (fail_if_no_progress refine Keeps.upd ?_ rfl (by intro p hp; cases p <;> first | (exact absurd hp (by decide)) | rfl)) | split)

theorem resync_keeps {ps : List Area} {s t : State} (h : Keeps ps s t)
    (hs : ([.cmd, .stk] : List Area).all (fun p => ps.contains p) = true) : Keeps ps s (resync t) := by
  refine Keeps.step ?_ hs h
  unfold resync
  try dsimp only
  repeat' with_reducible (first
    | exact Keeps.refl _ _ | assumption | decide | apply effectSend_keeps | apply Keeps.ite
    | (refine Keeps.foldl ?_ (fun u y hu => ?_) <;> try dsimp only)
    | (fail_if_no_progress refine Keeps.upd ?_ rfl (by intro p hp; cases p <;> first | (exact absurd hp (by decide)) | rfl)) | split)

theorem roleStep_keeps {ps : List Area} {s t : State} {x1 : Nat} (h : Keeps ps s t)
    (hs : ([.regs, .flt, .grn, .snr, .stk] : List Area).all (fun p => ps.contains p) = true) : Keeps ps s (roleStep x1 t) := by
  refine Keeps.step ?_ hs h
  unfold roleStep
  try dsimp only
  repeat' with_reducible (first | exact Keeps.refl _ _ | assumption | decide | apply toShadow_keeps | apply Keeps.ite | split)

theorem mirrorApply_keeps {ps : List Area} {s t : State} {x1 : MirrorMsg} (h : Keeps ps s t)
    (hs : ([.stk] : List Area).all (fun p => ps.contains p) = true) : Keeps ps s (mirrorApply x1 t) := by
  refine Keeps.step ?_ hs h
  unfold mirrorApply
  try dsimp only
  repeat' with_reducible (first
    | exact Keeps.refl _ _ | assumption | apply Keeps.ite | (refine Keeps.foldl ?_ (fun u y hu => ?_) <;> try dsimp only)
    | (fail_if_no_progress refine Keeps.upd ?_ rfl (by intro p hp; cases p <;> first | (exact absurd hp (by decide)) | rfl)) | split)

theorem fstartReceive_keeps {ps : List Area} {s t : State} {x1 : Nat} {x2 : Nat} {x3 : Nat} {x4 : Nat} {x5 : Nat} (h : Keeps ps s t)
    (hs :
        ([.tick, .regs, .hst, .flt, .cmd, .lpe, .fur, .grn, .hrw, .prt, .snr, .stk] : List Area).all (fun p => ps.contains p) = true) :
        Keeps ps s (fstartReceive x1 x2 x3 x4 x5 t) := by
  refine Keeps.step ?_ hs h
  unfold fstartReceive
  try dsimp only
  repeat' with_reducible (first
    | exact Keeps.refl _ _ | assumption | decide | apply setSport_keeps | apply tickSet_keeps | apply roleStep_keeps
    | apply partnerReadyIs_keeps | apply partnerLost_keeps | apply resync_keeps | apply safetyEval_keeps | apply mirrorApply_keeps
    | apply readyStep_keeps | apply Keeps.ite | (refine Keeps.foldl ?_ (fun u y hu => ?_) <;> try dsimp only)
    | (fail_if_no_progress refine Keeps.upd ?_ rfl (by intro p hp; cases p <;> first | (exact absurd hp (by decide)) | rfl)) | split)

theorem decisionReceive_keeps {ps : List Area} {s t : State} {x1 : Nat} {x2 : U8} {x3 : U8} {x4 : U8} {x5 : Bool} (h : Keeps ps s t)
    (hs : ([.regs, .flt, .cmd, .fur, .grn, .hrw, .prt, .snr, .stk] : List Area).all (fun p => ps.contains p) = true)
        : Keeps ps s (decisionReceive x1 x2 x3 x4 x5 t) := by
  refine Keeps.step ?_ hs h
  unfold decisionReceive
  try dsimp only
  repeat' with_reducible (first
    | exact Keeps.refl _ _ | assumption | decide | apply setSport_keeps | apply followIs_keeps | apply prtSync_keeps
    | apply protDecide_keeps | apply decisionOut_keeps | apply Keeps.ite
    | (fail_if_no_progress refine Keeps.upd ?_ rfl (by intro p hp; cases p <;> first | (exact absurd hp (by decide)) | rfl)) | split)

theorem helloNote_keeps {ps : List Area} {s t : State} {x1 : Nat} {x2 : Nat} {x3 : U32} {x4 : U16} (h : Keeps ps s t)
    (hs : ([.stk] : List Area).all (fun p => ps.contains p) = true) : Keeps ps s (helloNote x1 x2 x3 x4 t) := by
  refine Keeps.step ?_ hs h
  unfold helloNote
  try dsimp only
  repeat' with_reducible (first
    | exact Keeps.refl _ _ | assumption | decide | refine firstCopy_keeps' ?_ ?_ (by assumption) | apply firstCopy_keeps
    | apply setSport_keeps | apply Keeps.ite
    | (fail_if_no_progress refine Keeps.upd ?_ rfl (by intro p hp; cases p <;> first | (exact absurd hp (by decide)) | rfl)) | split)

theorem helloReceive_keeps {ps : List Area} {s t : State} {x1 : Nat} {x2 : Nat} {x3 : U32} {x4 : Nat} {x5 : Nat} {x6 : U32}
    {x7 : U16} (h : Keeps ps s t)
    (hs :
        ([.tick, .regs, .hst, .flt, .cmd, .lpe, .fur, .grn, .hrw, .prt, .snr, .stk] : List Area).all (fun p => ps.contains p) = true) :
        Keeps ps s (helloReceive x1 x2 x3 x4 x5 x6 x7 t) := by
  refine Keeps.step ?_ hs h
  unfold helloReceive
  try dsimp only
  repeat' with_reducible (first
    | exact Keeps.refl _ _ | assumption | decide | apply helloNote_keeps | apply report_keeps | apply setEvt_keeps | apply setSport_keeps
    | apply helloSend_keeps | apply portState_keeps | apply partnerLost_keeps | apply readyStep_keeps | apply tickSet_keeps
    | apply roleStep_keeps | apply Keeps.ite | split
    | (fail_if_no_progress refine Keeps.upd ?_ rfl (by intro p hp; cases p <;> first | (exact absurd hp (by decide)) | rfl)))

theorem roleMasterTimer_keeps {ps : List Area} {s t : State} (h : Keeps ps s t)
    (hs : ([.tick, .regs, .flt, .snr, .stk, .tly] : List Area).all (fun p => ps.contains p) = true) : Keeps ps s (roleMasterTimer t) := by
  refine Keeps.step ?_ hs h
  unfold roleMasterTimer
  try dsimp only
  repeat' with_reducible (first
    | exact Keeps.refl _ _ | assumption | decide | apply setRole_keeps | apply advanceTo_keeps | apply Keeps.ite | split
    | (fail_if_no_progress refine Keeps.upd ?_ rfl (by intro p hp; cases p <;> first | (exact absurd hp (by decide)) | rfl)))

theorem bootWaitExpire_keeps {ps : List Area} {s t : State} (h : Keeps ps s t)
    (hs : ([.tick, .regs, .flt, .snr, .stk] : List Area).all (fun p => ps.contains p) = true) : Keeps ps s (bootWaitExpire t) := by
  refine Keeps.step ?_ hs h
  unfold bootWaitExpire
  try dsimp only
  repeat' with_reducible (first
    | exact Keeps.refl _ _ | assumption | decide | apply setRole_keeps | apply tickSet_keeps | apply Keeps.ite
    | (fail_if_no_progress refine Keeps.upd ?_ rfl (by intro p hp; cases p <;> first | (exact absurd hp (by decide)) | rfl)) | split)

theorem laneBuckets_keeps {ps : List Area} {s t : State} {x1 : Nat} (h : Keeps ps s t)
    (hs : ([.regs, .hst, .flt, .cmd, .lpe, .fur, .grn, .hrw, .prt, .snr, .stk] : List Area).all (fun p => ps.contains p) = true)
        : Keeps ps s (laneBuckets x1 t) := by
  refine Keeps.step ?_ hs h
  unfold laneBuckets
  try dsimp only
  repeat' with_reducible (first
    | exact Keeps.refl _ _ | assumption | decide | apply setSport_keeps | refine bucketFrame_keeps' ?_ ?_ (by assumption)
    | apply bucketFrame_keeps | apply retireElement_keeps | apply setEvt_keeps | apply portDown_keeps | apply Keeps.ite
    | (refine Keeps.foldl ?_ (fun u y hu => ?_) <;> try dsimp only)
    | (fail_if_no_progress refine Keeps.upd ?_ rfl (by intro p hp; cases p <;> first | (exact absurd hp (by decide)) | rfl)) | split)

theorem replicate_keeps {ps : List Area} {s t : State} {x1 : Nat} (h : Keeps ps s t)
    (hs : ([.regs, .grn, .stk] : List Area).all (fun p => ps.contains p) = true) : Keeps ps s (replicate x1 t) := by
  refine Keeps.step ?_ hs h
  unfold replicate
  try dsimp only
  repeat' with_reducible (first
    | exact Keeps.refl _ _ | assumption | decide | apply stkSend_keeps | apply yieldCount_keeps | apply Keeps.ite
    | (fail_if_no_progress refine Keeps.upd ?_ rfl (by intro p hp; cases p <;> first | (exact absurd hp (by decide)) | rfl)) | split)

theorem mirrorSend_keeps {ps : List Area} {s t : State} {x1 : Nat} (h : Keeps ps s t)
    (hs : ([.stk] : List Area).all (fun p => ps.contains p) = true) : Keeps ps s (mirrorSend x1 t) := by
  refine Keeps.step ?_ hs h
  unfold mirrorSend
  try dsimp only
  repeat' with_reducible (first
    | exact Keeps.refl _ _ | assumption | decide | apply stkSend_keeps | apply Keeps.ite
    | (refine Keeps.foldl ?_ (fun u y hu => ?_) <;> try dsimp only)
    | (fail_if_no_progress refine Keeps.upd ?_ rfl (by intro p hp; cases p <;> first | (exact absurd hp (by decide)) | rfl)) | split)

theorem replStep_keeps {ps : List Area} {s t : State} (h : Keeps ps s t)
    (hs : ([.regs, .grn] : List Area).all (fun p => ps.contains p) = true) : Keeps ps s (replStep t) := by
  refine Keeps.step ?_ hs h
  unfold replStep
  try dsimp only
  repeat' with_reducible (first
    | exact Keeps.refl _ _ | assumption | decide | apply setEvt_keeps | apply Keeps.ite
    | (fail_if_no_progress refine Keeps.upd ?_ rfl (by intro p hp; cases p <;> first | (exact absurd hp (by decide)) | rfl)) | split)

theorem stkBlocks_keeps {ps : List Area} {s t : State} (h : Keeps ps s t)
    (hs : ([.stk] : List Area).all (fun p => ps.contains p) = true) : Keeps ps s (stkBlocks t) := by
  refine Keeps.step ?_ hs h
  unfold stkBlocks
  try dsimp only
  repeat' with_reducible (first
    | exact Keeps.refl _ _ | assumption | apply Keeps.ite
    | (fail_if_no_progress refine Keeps.upd ?_ rfl (by intro p hp; cases p <;> first | (exact absurd hp (by decide)) | rfl)) | split)

theorem stkBoundary_keeps {ps : List Area} {s t : State} {x1 : Nat} (h : Keeps ps s t)
    (hs : ([.regs, .hst, .flt, .cmd, .lpe, .fur, .grn, .hrw, .prt, .snr, .stk] : List Area).all (fun p => ps.contains p) = true)
        : Keeps ps s (stkBoundary x1 t) := by
  refine Keeps.step ?_ hs h
  unfold stkBoundary
  try dsimp only
  repeat' with_reducible (first
    | exact Keeps.refl _ _ | assumption | decide | apply stkBlocks_keeps | apply laneBuckets_keeps | apply helloSend_keeps
    | apply readyStep_keeps | apply replStep_keeps | apply mirrorSend_keeps | apply replicate_keeps | apply Keeps.ite | split)

end Sys2Proof.Machine
end

