-- ==== Sys2Proof/Laws/KeepsCommand.lean ====
section
/-! SUPPORT. What every operation of the command catalogue, replication, the cores and the debug port leaves as it was (Keeps): each lemma names the areas of
the state that the operation may change; the queue, core memory, the canonical forms, issued host writes, the free values drawn and REV_CNT
are kept by all. -/

set_option linter.unusedTactic false
set_option linter.unreachableTactic false

namespace Sys2Proof.Machine

theorem cmdRefuse_keeps {ps : List Area} {s t : State} {x1 : CmdId} {x2 : Nat} {x3 : Nat} (h : Keeps ps s t)
    (hs : ([.regs, .hst, .cmd, .grn] : List Area).all (fun p => ps.contains p) = true) : Keeps ps s (cmdRefuse x1 x2 x3 t) := by
  refine Keeps.step ?_ hs h
  unfold cmdRefuse
  try dsimp only
  repeat' with_reducible (first | exact Keeps.refl _ _ | assumption | decide | apply cplOut_keeps | apply Keeps.ite | split)

theorem cmdNoChange_keeps {ps : List Area} {s t : State} {x1 : CmdId} {x2 : Nat} {x3 : U32} (h : Keeps ps s t)
    (hs : ([.regs, .hst, .cmd, .grn] : List Area).all (fun p => ps.contains p) = true) : Keeps ps s (cmdNoChange x1 x2 x3 t) := by
  refine Keeps.step ?_ hs h
  unfold cmdNoChange
  try dsimp only
  repeat' with_reducible (first | exact Keeps.refl _ _ | assumption | decide | apply cplOut_keeps | apply Keeps.ite | split)

theorem modEff_keeps {ps : List Area} {s t : State} {x1 : Nat} {x2 : Eff → Eff} (h : Keeps ps s t)
    (hs : ([.cmd] : List Area).all (fun p => ps.contains p) = true) : Keeps ps s (modEff x1 x2 t) := by
  refine Keeps.step ?_ hs h
  unfold modEff
  try dsimp only
  repeat' with_reducible (first
    | exact Keeps.refl _ _ | assumption | apply Keeps.ite
    | (fail_if_no_progress refine Keeps.upd ?_ rfl (by intro p hp; cases p <;> first | (exact absurd hp (by decide)) | rfl)) | split)

theorem ringRestore_keeps {ps : List Area} {s t : State} {x1 : Nat} (h : Keeps ps s t)
    (hs : ([.flt, .fur] : List Area).all (fun p => ps.contains p) = true) : Keeps ps s (ringRestore x1 t) := by
  refine Keeps.step ?_ hs h
  unfold ringRestore
  try dsimp only
  repeat' with_reducible (first
    | exact Keeps.refl _ _ | assumption | decide | apply bucketRestore_keeps | apply setRing_keeps | apply Keeps.ite
    | (refine Keeps.foldl ?_ (fun u y hu => ?_) <;> try dsimp only)
    | (fail_if_no_progress refine Keeps.upd ?_ rfl (by intro p hp; cases p <;> first | (exact absurd hp (by decide)) | rfl)) | split)

theorem ringAccept_keeps {ps : List Area} {s t : State} {x1 : Eff} {x2 : Nat} {x3 : Nat} (h : Keeps ps s t)
    (hs : ([.regs, .flt, .cmd, .ints, .cores, .fur, .snr] : List Area).all (fun p => ps.contains p) = true)
        : Keeps ps s (ringAccept x1 x2 x3 t) := by
  refine Keeps.step ?_ hs h
  unfold ringAccept
  try dsimp only
  repeat' with_reducible (first
    | exact Keeps.refl _ _ | assumption | decide | apply modEff_keeps | apply setRing_keeps | apply startTrain_keeps
    | apply ringRestore_keeps | apply Keeps.ite
    | (fail_if_no_progress refine Keeps.upd ?_ rfl (by intro p hp; cases p <;> first | (exact absurd hp (by decide)) | rfl)) | split)

theorem decide1_keeps {ps : List Area} {s t : State} {x1 : Eff} (h : Keeps ps s t)
    (hs : ([.regs, .flt, .cmd, .ints, .cores, .tim, .fur, .snr] : List Area).all (fun p => ps.contains p) = true)
        : Keeps ps s (decide1 x1 t) := by
  refine Keeps.step ?_ hs h
  unfold decide1
  try dsimp only
  repeat' with_reducible (first
    | exact Keeps.refl _ _ | assumption | decide | apply linePush_keeps | apply cancelDeblocks_keeps | apply setTurn_keeps
    | apply ringAccept_keeps | apply Keeps.ite | (refine Keeps.foldl ?_ (fun u y hu => ?_) <;> try dsimp only) | split
    | (fail_if_no_progress refine Keeps.upd ?_ rfl (by intro p hp; cases p <;> first | (exact absurd hp (by decide)) | rfl)))

theorem replicateEff_keeps {ps : List Area} {s t : State} {x1 : Eff} (h : Keeps ps s t)
    (hs : ([.cmd, .stk] : List Area).all (fun p => ps.contains p) = true) : Keeps ps s (replicateEff x1 t) := by
  refine Keeps.step ?_ hs h
  unfold replicateEff
  try dsimp only
  repeat' with_reducible (first
    | exact Keeps.refl _ _ | assumption | decide | apply effectSend_keeps | apply Keeps.ite
    | (fail_if_no_progress refine Keeps.upd ?_ rfl (by intro p hp; cases p <;> first | (exact absurd hp (by decide)) | rfl)) | split)

theorem enqueue_keeps {ps : List Area} {s t : State} {x1 : Eff} (h : Keeps ps s t)
    (hs : ([.regs, .flt, .cmd, .ints, .cores, .tim, .fur, .snr, .stk] : List Area).all (fun p => ps.contains p) = true)
        : Keeps ps s (enqueue x1 t) := by
  refine Keeps.step ?_ hs h
  unfold enqueue
  try dsimp only
  repeat' with_reducible (first
    | exact Keeps.refl _ _ | assumption | decide | apply replicateEff_keeps | apply decide1_keeps | apply Keeps.ite
    | (fail_if_no_progress refine Keeps.upd ?_ rfl (by intro p hp; cases p <;> first | (exact absurd hp (by decide)) | rfl)) | split)

theorem accept_keeps {ps : List Area} {s t : State} {x1 : CmdId} {x2 : Nat} {x3 : Payload} {x4 : Bytes} {x5 : Option U32}
    {x6 : Nat} (h : Keeps ps s t)
    (hs : ([.regs, .flt, .cmd, .ints, .cores, .tim, .fur, .snr, .stk] : List Area).all (fun p => ps.contains p) = true)
        : Keeps ps s (accept x1 x2 x3 x4 x5 x6 t) := by
  refine Keeps.step ?_ hs h
  unfold accept
  try dsimp only
  repeat' with_reducible (first | exact Keeps.refl _ _ | assumption | decide | apply enqueue_keeps | apply Keeps.ite | split)

theorem cmdTimed_keeps {ps : List Area} {s t : State} {x1 : CmdId} {x2 : Nat} {x3 : Payload} {x4 : Bytes} {x5 : Option U32} (h
    : Keeps ps s t)
    (hs : ([.regs, .hst, .flt, .cmd, .ints, .cores, .tim, .fur, .grn, .snr, .stk] : List Area).all
        (fun p => ps.contains p) = true) : Keeps ps s (cmdTimed x1 x2 x3 x4 x5 t) := by
  refine Keeps.step ?_ hs h
  unfold cmdTimed
  try dsimp only
  repeat' with_reducible (first
    | exact Keeps.refl _ _ | assumption | decide | apply cmdRefuse_keeps | apply cmdNoChange_keeps | apply accept_keeps | apply Keeps.ite
    | split | (fail_if_no_progress refine Keeps.upd ?_ rfl (by intro p hp; cases p <;> first | (exact absurd hp (by decide)) | rfl)))

theorem cmdDone_keeps {ps : List Area} {s t : State} {x1 : CmdId} {x2 : Nat} {x3 : U32} (h : Keeps ps s t)
    (hs : ([.regs, .hst, .cmd, .grn] : List Area).all (fun p => ps.contains p) = true) : Keeps ps s (cmdDone x1 x2 x3 t) := by
  refine Keeps.step ?_ hs h
  unfold cmdDone
  try dsimp only
  repeat' with_reducible (first | exact Keeps.refl _ _ | assumption | decide | apply cplOut_keeps | apply Keeps.ite | split)

theorem akeyInstall_keeps {ps : List Area} {s t : State} {x1 : CmdId} {x2 : Option U32} {x3 : Nat} {x4 : Nat} {x5 : Bytes} (h
    : Keeps ps s t)
    (hs : ([.regs, .std, .hst, .cmd, .grn] : List Area).all (fun p => ps.contains p) = true)
        : Keeps ps s (akeyInstall x1 x2 x3 x4 x5 t) := by
  refine Keeps.step ?_ hs h
  unfold akeyInstall
  try dsimp only
  repeat' with_reducible (first
    | exact Keeps.refl _ _ | assumption | decide | apply cmdRefuse_keeps | apply cmdDone_keeps | apply setKeySlot_keeps | apply Keeps.ite
    | (with_unfolding_all exact Nat.le_refl _) | (with_unfolding_all exact Nat.le_succ _)
    | (fail_if_no_progress refine Keeps.upd ?_ rfl (by intro p hp; cases p <;> first | (exact absurd hp (by decide)) | rfl)) | split)

theorem akeyRevoke_keeps {ps : List Area} {s t : State} {x1 : CmdId} {x2 : Option U32} {x3 : Nat} (h : Keeps ps s t)
    (hs : ([.regs, .std, .hst, .aut, .cmd, .grn] : List Area).all (fun p => ps.contains p) = true)
        : Keeps ps s (akeyRevoke x1 x2 x3 t) := by
  refine Keeps.step ?_ hs h
  unfold akeyRevoke
  try dsimp only
  repeat' with_reducible (first
    | exact Keeps.refl _ _ | assumption | decide | apply cmdRefuse_keeps | apply closeGranted_keeps | apply cmdDone_keeps
    | apply setKeySlot_keeps | apply Keeps.ite | (with_unfolding_all exact Nat.le_refl _) | (with_unfolding_all exact Nat.le_succ _)
    | (fail_if_no_progress refine Keeps.upd ?_ rfl (by intro p hp; cases p <;> first | (exact absurd hp (by decide)) | rfl)) | split)

theorem akeyReplace_keeps {ps : List Area} {s t : State} {x1 : CmdId} {x2 : Option U32} {x3 : Nat} {x4 : Nat} {x5 : Bytes} (h
    : Keeps ps s t)
    (hs : ([.regs, .std, .hst, .aut, .cmd, .grn] : List Area).all (fun p => ps.contains p) = true)
        : Keeps ps s (akeyReplace x1 x2 x3 x4 x5 t) := by
  refine Keeps.step ?_ hs h
  unfold akeyReplace
  try dsimp only
  repeat' with_reducible (first
    | exact Keeps.refl _ _ | assumption | decide | apply cmdRefuse_keeps | apply closeGranted_keeps | apply cmdDone_keeps
    | apply setKeySlot_keeps | apply Keeps.ite | (with_unfolding_all exact Nat.le_refl _) | (with_unfolding_all exact Nat.le_succ _)
    | split)

theorem setupReopen_keeps {ps : List Area} {s t : State} {x1 : CmdId} {x2 : Option U32} (h : Keeps ps s t)
    (hs : ([.regs, .sys, .hst, .flt, .cmd, .grn, .prt, .snr, .stk] : List Area).all (fun p => ps.contains p) = true)
        : Keeps ps s (setupReopen x1 x2 t) := by
  refine Keeps.step ?_ hs h
  unfold setupReopen
  try dsimp only
  repeat' with_reducible (first
    | exact Keeps.refl _ _ | assumption | decide | apply cmdRefuse_keeps | apply cmdDone_keeps | apply prtReopen_keeps | apply Keeps.ite
    | (fail_if_no_progress refine Keeps.upd ?_ rfl (by intro p hp; cases p <;> first | (exact absurd hp (by decide)) | rfl)) | split)

theorem sessionKill_keeps {ps : List Area} {s t : State} {x1 : CmdId} {x2 : Option U32} {x3 : Nat} (h : Keeps ps s t)
    (hs : ([.regs, .hst, .aut, .cmd, .grn] : List Area).all (fun p => ps.contains p) = true) : Keeps ps s (sessionKill x1 x2 x3 t) := by
  refine Keeps.step ?_ hs h
  unfold sessionKill
  try dsimp only
  repeat' with_reducible (first
    | exact Keeps.refl _ _ | assumption | decide | apply cmdRefuse_keeps | apply cmdDone_keeps | apply Keeps.ite | split
    | (fail_if_no_progress refine Keeps.upd ?_ rfl (by intro p hp; cases p <;> first | (exact absurd hp (by decide)) | rfl)))

theorem cmdImmediate_keeps {ps : List Area} {s t : State} {x1 : CmdId} {x2 : Nat} {x3 : Payload} {x4 : Option U32} (h : Keeps ps s t)
    (hs : ([.regs, .sys, .std, .hst, .flt, .aut, .cmd, .grn, .prt, .snr, .stk] : List Area).all (fun p => ps.contains p) = true)
        : Keeps ps s (cmdImmediate x1 x2 x3 x4 t) := by
  refine Keeps.step ?_ hs h
  unfold cmdImmediate
  try dsimp only
  repeat' with_reducible (first
    | exact Keeps.refl _ _ | assumption | decide | apply cplOut_keeps | apply cmdDone_keeps | apply wr_keeps | apply akeyInstall_keeps
    | apply akeyRevoke_keeps | apply akeyReplace_keeps | apply setupReopen_keeps | apply sessionKill_keeps | apply Keeps.ite | split
    | (fail_if_no_progress refine Keeps.upd ?_ rfl (by intro p hp; cases p <;> first | (exact absurd hp (by decide)) | rfl)))

theorem flowEnter_keeps {ps : List Area} {s t : State} {x1 : CmdId} {x2 : Nat} (h : Keeps ps s t)
    (hs : ([.regs, .flt, .cmd, .snr] : List Area).all (fun p => ps.contains p) = true) : Keeps ps s (flowEnter x1 x2 t) := by
  refine Keeps.step ?_ hs h
  unfold flowEnter
  try dsimp only
  repeat' with_reducible (first
    | exact Keeps.refl _ _ | assumption | decide | apply snareEvent_keeps | apply Keeps.ite
    | (fail_if_no_progress refine Keeps.upd ?_ rfl (by intro p hp; cases p <;> first | (exact absurd hp (by decide)) | rfl)) | split)

theorem cmdRun_keeps {ps : List Area} {s t : State} {x1 : CmdId} {x2 : Nat} {x3 : Bytes} {x4 : Option U32} (h : Keeps ps s t)
    (hs :
        ([.regs, .sys, .std, .hst, .flt, .aut, .cmd, .ints, .cores, .tim, .fur, .grn, .prt, .snr, .stk] : List Area).all (fun p =>
        ps.contains p) = true) : Keeps ps s (cmdRun x1 x2 x3 x4 t) := by
  refine Keeps.step ?_ hs h
  unfold cmdRun
  try dsimp only
  repeat' with_reducible (first
    | exact Keeps.refl _ _ | assumption | decide | apply flowEnter_keeps | apply cmdRefuse_keeps | apply cmdImmediate_keeps
    | apply cmdTimed_keeps | apply Keeps.ite | split
    | (fail_if_no_progress refine Keeps.upd ?_ rfl (by intro p hp; cases p <;> first | (exact absurd hp (by decide)) | rfl)))

theorem setBank_keeps {ps : List Area} {s t : State} {x1 : Nat} {x2 : Bank} (h : Keeps ps s t)
    (hs : ([.std] : List Area).all (fun p => ps.contains p) = true) : Keeps ps s (setBank x1 x2 t) := by
  refine Keeps.step ?_ hs h
  unfold setBank
  try dsimp only
  repeat' with_reducible (first
    | exact Keeps.refl _ _ | assumption | apply Keeps.ite
    | (fail_if_no_progress refine Keeps.upd ?_ rfl (by intro p hp; cases p <;> first | (exact absurd hp (by decide)) | rfl)) | split)

theorem fwUpdate_keeps {ps : List Area} {s t : State} {x1 : CmdId} {x2 : Bytes} (h : Keeps ps s t)
    (hs : ([.regs, .std, .hst, .flt, .cmd, .grn, .snr] : List Area).all (fun p => ps.contains p) = true)
        : Keeps ps s (fwUpdate x1 x2 t) := by
  refine Keeps.step ?_ hs h
  unfold fwUpdate
  try dsimp only
  repeat' with_reducible (first
    | exact Keeps.refl _ _ | assumption | decide | apply flowEnter_keeps | apply cmdRefuse_keeps | apply setBank_keeps | apply Keeps.ite
    | (fail_if_no_progress refine Keeps.upd ?_ rfl (by intro p hp; cases p <;> first | (exact absurd hp (by decide)) | rfl)) | split)

theorem cmdRow_keeps {ps : List Area} {s t : State} {x1 : CmdSrc} {x2 : Nat} {x3 : Bytes} (h : Keeps ps s t)
    (hs :
        ([.regs, .sys, .std, .hst, .flt, .aut, .cmd, .ints, .cores, .tim, .fur, .grn, .prt, .snr, .stk] : List Area).all (fun p =>
        ps.contains p) = true) : Keeps ps s (cmdRow x1 x2 x3 t) := by
  refine Keeps.step ?_ hs h
  unfold cmdRow
  try dsimp only
  repeat' with_reducible (first
    | exact Keeps.refl _ _ | assumption | decide | apply snareEval_keeps | apply cmdRun_keeps | apply Keeps.ite
    | (fail_if_no_progress refine Keeps.upd ?_ rfl (by intro p hp; cases p <;> first | (exact absurd hp (by decide)) | rfl)) | split)

theorem fwComplete_keeps {ps : List Area} {s t : State} {x1 : Option Bytes} {x2 : Bool} (h : Keeps ps s t)
    (hs : ([.regs, .std, .hst, .cmd, .grn] : List Area).all (fun p => ps.contains p) = true) : Keeps ps s (fwComplete x1 x2 t) := by
  refine Keeps.step ?_ hs h
  unfold fwComplete
  try dsimp only
  repeat' with_reducible (first
    | exact Keeps.refl _ _ | assumption | decide | apply setBank_keeps | apply cplOut_keeps | apply cmdDone_keeps | apply Keeps.ite
    | split | (fail_if_no_progress refine Keeps.upd ?_ rfl (by intro p hp; cases p <;> first | (exact absurd hp (by decide)) | rfl)))

theorem modeApply_keeps {ps : List Area} {s t : State} {x1 : Nat} {x2 : Nat} {x3 : BitVec 128} {x4 : BitVec 128} (h : Keeps ps s t)
    (hs : ([.cmd, .lpe] : List Area).all (fun p => ps.contains p) = true) : Keeps ps s (modeApply x1 x2 x3 x4 t) := by
  refine Keeps.step ?_ hs h
  unfold modeApply
  try dsimp only
  repeat' with_reducible (first
    | exact Keeps.refl _ _ | assumption | decide | apply setGroup_keeps | apply setLoop_keeps | apply Keeps.ite
    | (refine Keeps.foldl ?_ (fun u y hu => ?_) <;> try dsimp only)
    | (fail_if_no_progress refine Keeps.upd ?_ rfl (by intro p hp; cases p <;> first | (exact absurd hp (by decide)) | rfl)) | split)

theorem coefApply_keeps {ps : List Area} {s t : State} {x1 : Nat} {x2 : Eff} {x3 : Nat} {x4 : List (Nat × U32)} (h : Keeps ps s t)
    (hs : ([.regs, .cmd, .lpe] : List Area).all (fun p => ps.contains p) = true) : Keeps ps s (coefApply x1 x2 x3 x4 t) := by
  refine Keeps.step ?_ hs h
  unfold coefApply
  try dsimp only
  repeat' with_reducible (first
    | exact Keeps.refl _ _ | assumption | decide | apply wr_keeps | apply setLoop_keeps | apply modEff_keeps | apply Keeps.ite | split
    | (fail_if_no_progress refine Keeps.upd ?_ rfl (by intro p hp; cases p <;> first | (exact absurd hp (by decide)) | rfl)))

theorem ringApply_keeps {ps : List Area} {s t : State} {x1 : Eff} {x2 : Nat} {x3 : Nat} (h : Keeps ps s t)
    (hs : ([.regs, .flt, .cmd, .ints, .cores, .fur, .snr] : List Area).all (fun p => ps.contains p) = true)
        : Keeps ps s (ringApply x1 x2 x3 t) := by
  refine Keeps.step ?_ hs h
  unfold ringApply
  try dsimp only
  repeat' with_reducible (first
    | exact Keeps.refl _ _ | assumption | decide | apply modEff_keeps | apply ringDrain_keeps | apply ringAccept_keeps
    | apply ringOff_keeps | apply ringRestore_keeps | apply startTrain_keeps | apply setRing_keeps | apply Keeps.ite
    | (fail_if_no_progress refine Keeps.upd ?_ rfl (by intro p hp; cases p <;> first | (exact absurd hp (by decide)) | rfl)) | split)

theorem effForce_keeps {ps : List Area} {s t : State} {x1 : Nat} {x2 : Eff} (h : Keeps ps s t)
    (hs :
        ([.regs, .dma, .flt, .cmd, .ints, .cores, .lpe, .tim, .fur, .grn, .snr, .stk, .tly] : List Area).all (fun p => ps.contains p) =
        true) : Keeps ps s (effForce x1 x2 t) := by
  refine Keeps.step ?_ hs h
  unfold effForce
  try dsimp only
  repeat' with_reducible (first
    | exact Keeps.refl _ _ | assumption | decide | apply modEff_keeps | apply count_keeps
    | refine snareAction_keeps' ?_ ?_ (by assumption) | apply snareAction_keeps | apply wr_keeps | apply modeApply_keeps
    | apply coefApply_keeps | apply ringApply_keeps | apply stepApply_keeps | apply bucketRestore_keeps | apply jnlRetire_keeps
    | apply Keeps.ite | (refine Keeps.foldl ?_ (fun u y hu => ?_) <;> try dsimp only) | split
    | (fail_if_no_progress refine Keeps.upd ?_ rfl (by intro p hp; cases p <;> first | (exact absurd hp (by decide)) | rfl)))

theorem forceAll_keeps {ps : List Area} {s t : State} {x1 : Nat} {x2 : Eff → Bool} (h : Keeps ps s t)
    (hs :
        ([.regs, .dma, .flt, .cmd, .ints, .cores, .lpe, .tim, .fur, .grn, .snr, .stk, .tly] : List Area).all (fun p => ps.contains p) =
        true) : Keeps ps s (forceAll x1 x2 t) := by
  refine Keeps.step ?_ hs h
  unfold forceAll
  try dsimp only
  repeat' with_reducible (first
    | exact Keeps.refl _ _ | assumption | decide | apply effForce_keeps | apply Keeps.ite
    | (refine Keeps.foldl ?_ (fun u y hu => ?_) <;> try dsimp only) | split)

theorem boundaryEffects_keeps {ps : List Area} {s t : State} {x1 : Nat} {x2 : Bool} (h : Keeps ps s t)
    (hs :
        ([.regs, .dma, .flt, .cmd, .ints, .cores, .lpe, .tim, .fur, .grn, .snr, .stk, .tly] : List Area).all (fun p => ps.contains p) =
        true) : Keeps ps s (boundaryEffects x1 x2 t) := by
  refine Keeps.step ?_ hs h
  unfold boundaryEffects
  try dsimp only
  repeat' with_reducible (first | exact Keeps.refl _ _ | assumption | decide | apply forceAll_keeps | apply Keeps.ite | split)

theorem effFinish_keeps {ps : List Area} {s t : State} {x1 : Eff} (h : Keeps ps s t)
    (hs : ([.regs, .hst, .cmd, .grn, .stk] : List Area).all (fun p => ps.contains p) = true) : Keeps ps s (effFinish x1 t) := by
  refine Keeps.step ?_ hs h
  unfold effFinish
  try dsimp only
  repeat' with_reducible (first
    | exact Keeps.refl _ _ | assumption | decide | apply jnlCommand_keeps | apply cplOut_keeps | apply yieldCount_keeps | apply Keeps.ite
    | split | (fail_if_no_progress refine Keeps.upd ?_ rfl (by intro p hp; cases p <;> first | (exact absurd hp (by decide)) | rfl)))

theorem effectApply_keeps {ps : List Area} {s t : State} (h : Keeps ps s t)
    (hs :
        ([.regs, .dma, .hst, .flt, .cmd, .ints, .cores, .lpe, .tim, .fur, .grn, .snr, .stk, .tly] : List Area).all (fun p => ps.contains
        p) = true) : Keeps ps s (effectApply t) := by
  refine Keeps.step ?_ hs h
  unfold effectApply
  try dsimp only
  repeat' with_reducible (first
    | exact Keeps.refl _ _ | assumption | decide | apply effForce_keeps | apply effFinish_keeps | apply Keeps.ite | split
    | (fail_if_no_progress refine Keeps.upd ?_ rfl (by intro p hp; cases p <;> first | (exact absurd hp (by decide)) | rfl)))

theorem itemLeave_keeps {ps : List Area} {s t : State} {x1 : Nat} {x2 : Item} (h : Keeps ps s t)
    (hs : ([.regs, .flt, .ints, .cores, .tsk, .tly] : List Area).all (fun p => ps.contains p) = true) : Keeps ps s (itemLeave x1 x2 t) := by
  refine Keeps.step ?_ hs h
  unfold itemLeave
  try dsimp only
  repeat' with_reducible (first
    | exact Keeps.refl _ _ | assumption | decide | apply tlyDev_keeps | apply setFlow_keeps | apply takeableWake_keeps | apply Keeps.ite
    | (fail_if_no_progress refine Keeps.upd ?_ rfl (by intro p hp; cases p <;> first | (exact absurd hp (by decide)) | rfl)) | split)

theorem itemRelease_keeps {ps : List Area} {s t : State} {x1 : Nat} {x2 : Bool} (h : Keeps ps s t)
    (hs :
        ([.regs, .sys, .std, .hst, .flt, .aut, .cmd, .ints, .cores, .tsk, .tim, .fur, .grn, .prt, .snr, .stk, .tly] : List Area).all (fun
        p => ps.contains p) = true) : Keeps ps s (itemRelease x1 x2 t) := by
  refine Keeps.step ?_ hs h
  unfold itemRelease
  try dsimp only
  repeat' with_reducible (first
    | exact Keeps.refl _ _ | assumption | decide | apply cplOut_keeps | apply report_keeps | apply setEvt_keeps | apply itemLeave_keeps
    | apply fwUpdate_keeps | apply cmdRun_keeps | apply Keeps.ite | split
    | (fail_if_no_progress refine Keeps.upd ?_ rfl (by intro p hp; cases p <;> first | (exact absurd hp (by decide)) | rfl)))

theorem stkTake_keeps {ps : List Area} {s t : State} {x1 : Nat} {x2 : Nat} {x3 : U8} {x4 : State → State} (h
    : Keeps ps s t) (hs : ([.stk] : List Area).all (fun p => ps.contains p) = true)
    (hf : ∀ u, Keeps ps s u → Keeps ps s (x4 u)) : Keeps ps s (stkTake x1 x2 x3 x4 t) := by
  unfold stkTake
  try dsimp only
  repeat' with_reducible (first | assumption | apply hf | apply firstCopy_keeps | exact sub_of hs (by decide) | apply Keeps.ite | split)

theorem stationReceive_keeps {ps : List Area} {s t : State} {x1 : Nat} {x2 : List U64} (h : Keeps ps s t)
    (hs : ([.tim, .grn] : List Area).all (fun p => ps.contains p) = true) : Keeps ps s (stationReceive x1 x2 t) := by
  refine Keeps.step ?_ hs h
  unfold stationReceive
  try dsimp only
  repeat' with_reducible (first
    | exact Keeps.refl _ _ | assumption | apply Keeps.ite
    | (fail_if_no_progress refine Keeps.upd ?_ rfl (by intro p hp; cases p <;> first | (exact absurd hp (by decide)) | rfl)) | split)

theorem cellsReceive_keeps {ps : List Area} {s t : State} {x1 : Nat} {x2 : List U64} (h : Keeps ps s t)
    (hs : ([.grn] : List Area).all (fun p => ps.contains p) = true) : Keeps ps s (cellsReceive x1 x2 t) := by
  refine Keeps.step ?_ hs h
  unfold cellsReceive
  try dsimp only
  repeat' with_reducible (first
    | exact Keeps.refl _ _ | assumption | apply Keeps.ite | (refine Keeps.foldl ?_ (fun u y hu => ?_) <;> try dsimp only)
    | (fail_if_no_progress refine Keeps.upd ?_ rfl (by intro p hp; cases p <;> first | (exact absurd hp (by decide)) | rfl)) | split)

theorem effectReceive_keeps {ps : List Area} {s t : State} {x1 : Nat} {x2 : Nat} {x3 : Bytes} (h : Keeps ps s t)
    (hs : ([.regs, .flt, .cmd, .ints, .cores, .tim, .fur, .snr, .stk] : List Area).all (fun p => ps.contains p) = true)
        : Keeps ps s (effectReceive x1 x2 x3 t) := by
  refine Keeps.step ?_ hs h
  unfold effectReceive
  try dsimp only
  repeat' with_reducible (first
    | exact Keeps.refl _ _ | assumption | decide | apply stkSend_keeps | apply enqueue_keeps | apply Keeps.ite | split
    | (fail_if_no_progress refine Keeps.upd ?_ rfl (by intro p hp; cases p <;> first | (exact absurd hp (by decide)) | rfl)))

theorem ackReceive_keeps {ps : List Area} {s t : State} {x1 : Nat} (h : Keeps ps s t)
    (hs : ([.regs, .hst, .cmd, .grn, .stk] : List Area).all (fun p => ps.contains p) = true) : Keeps ps s (ackReceive x1 t) := by
  refine Keeps.step ?_ hs h
  unfold ackReceive
  try dsimp only
  repeat' with_reducible (first
    | exact Keeps.refl _ _ | assumption | decide | apply ackRelease_keeps | apply Keeps.ite
    | (refine Keeps.foldl ?_ (fun u y hu => ?_) <;> try dsimp only)
    | (fail_if_no_progress refine Keeps.upd ?_ rfl (by intro p hp; cases p <;> first | (exact absurd hp (by decide)) | rfl)) | split)

theorem ackTimeout_keeps {ps : List Area} {s t : State} (h : Keeps ps s t)
    (hs : ([.regs, .hst, .cmd, .grn, .stk] : List Area).all (fun p => ps.contains p) = true) : Keeps ps s (ackTimeout t) := by
  refine Keeps.step ?_ hs h
  unfold ackTimeout
  try dsimp only
  repeat' with_reducible (first
    | exact Keeps.refl _ _ | assumption | decide | apply ackRelease_keeps | apply Keeps.ite
    | (refine Keeps.foldl ?_ (fun u y hu => ?_) <;> try dsimp only)
    | (fail_if_no_progress refine Keeps.upd ?_ rfl (by intro p hp; cases p <;> first | (exact absurd hp (by decide)) | rfl)) | split)

theorem harrowMsg_keeps {ps : List Area} {s t : State} {x1 : Bool} {x2 : List HarrowRec} (h : Keeps ps s t)
    (hs : ([.regs, .stk] : List Area).all (fun p => ps.contains p) = true) : Keeps ps s (harrowMsg x1 x2 t) := by
  refine Keeps.step ?_ hs h
  unfold harrowMsg
  try dsimp only
  repeat' with_reducible (first
    | exact Keeps.refl _ _ | assumption | decide | apply setEvt_keeps | apply count_keeps | apply Keeps.ite
    | (refine Keeps.foldl ?_ (fun u y hu => ?_) <;> try dsimp only)
    | (fail_if_no_progress refine Keeps.upd ?_ rfl (by intro p hp; cases p <;> first | (exact absurd hp (by decide)) | rfl)) | split)

theorem ringMsg_keeps {ps : List Area} {s t : State} {x1 : Nat} {x2 : Nat} {x3 : Nat} {x4 : U32} (h : Keeps ps s t)
    (hs : ([.stk] : List Area).all (fun p => ps.contains p) = true) : Keeps ps s (ringMsg x1 x2 x3 x4 t) := by
  refine Keeps.step ?_ hs h
  unfold ringMsg
  try dsimp only
  repeat' with_reducible (first
    | exact Keeps.refl _ _ | assumption | apply Keeps.ite
    | (fail_if_no_progress refine Keeps.upd ?_ rfl (by intro p hp; cases p <;> first | (exact absurd hp (by decide)) | rfl)) | split)

theorem ptpMsg_keeps {ps : List Area} {s t : State} {x1 : Nat} {x2 : Int} (h : Keeps ps s t)
    (hs : ([.tim] : List Area).all (fun p => ps.contains p) = true) : Keeps ps s (ptpMsg x1 x2 t) := by
  refine Keeps.step ?_ hs h
  unfold ptpMsg
  try dsimp only
  repeat' with_reducible (first
    | exact Keeps.refl _ _ | assumption | apply Keeps.ite
    | (fail_if_no_progress refine Keeps.upd ?_ rfl (by intro p hp; cases p <;> first | (exact absurd hp (by decide)) | rfl)) | split)

theorem coreAccessFault_keeps {ps : List Area} {s t : State} {x1 : Nat} {x2 : U64} {x3 : Nat} (h : Keeps ps s t)
    (hs : ([.regs, .dma, .freeCtr, .flt, .ints, .cores, .tly] : List Area).all (fun p => ps.contains p) = true)
        : Keeps ps s (coreAccessFault x1 x2 x3 t) := by
  refine Keeps.step ?_ hs h
  unfold coreAccessFault
  try dsimp only
  repeat' with_reducible (first | exact Keeps.refl _ _ | assumption | decide | apply coreTrap_keeps | apply Keeps.ite | split)

theorem coreEcc_keeps {ps : List Area} {s t : State} {x1 : Nat} {x2 : Bool} {x3 : Nat} {x4 : U64} {x5 : Nat} (h : Keeps ps s t)
    (hs : ([.regs, .dma, .freeCtr, .flt, .ints, .cores, .tly] : List Area).all (fun p => ps.contains p) = true)
        : Keeps ps s (coreEcc x1 x2 x3 x4 x5 t) := by
  refine Keeps.step ?_ hs h
  unfold coreEcc
  try dsimp only
  repeat' with_reducible (first
    | exact Keeps.refl _ _ | assumption | decide | apply count_keeps | apply intEdge_keeps | apply report_keeps | apply setEvt_keeps
    | apply coreTrap_keeps | apply Keeps.ite | split)

theorem granaryLoad_keeps {ps : List Area} {s t : State} {x1 : Nat} (h : Keeps ps s t)
    (hs : ([.rdata] : List Area).all (fun p => ps.contains p) = true) : Keeps ps s (granaryLoad x1 t) := by
  refine Keeps.step ?_ hs h
  unfold granaryLoad
  try dsimp only
  repeat' with_reducible (first
    | exact Keeps.refl _ _ | assumption | apply Keeps.ite
    | (fail_if_no_progress refine Keeps.upd ?_ rfl (by intro p hp; cases p <;> first | (exact absurd hp (by decide)) | rfl)) | split)

theorem fwStore_keeps {ps : List Area} {s t : State} {x1 : Nat} {x2 : U32} (h : Keeps ps s t)
    (hs : ([.grn] : List Area).all (fun p => ps.contains p) = true) : Keeps ps s (fwStore x1 x2 t) := by
  refine Keeps.step ?_ hs h
  unfold fwStore
  try dsimp only
  repeat' with_reducible (first
    | exact Keeps.refl _ _ | assumption | apply Keeps.ite
    | (fail_if_no_progress refine Keeps.upd ?_ rfl (by intro p hp; cases p <;> first | (exact absurd hp (by decide)) | rfl)) | split)

theorem fwCommit_keeps {ps : List Area} {s t : State} (h : Keeps ps s t)
    (hs : ([.grn] : List Area).all (fun p => ps.contains p) = true) : Keeps ps s (fwCommit t) := by
  refine Keeps.step ?_ hs h
  unfold fwCommit
  try dsimp only
  repeat' with_reducible (first
    | exact Keeps.refl _ _ | assumption | apply Keeps.ite
    | (fail_if_no_progress refine Keeps.upd ?_ rfl (by intro p hp; cases p <;> first | (exact absurd hp (by decide)) | rfl)) | split)

theorem jnlSubmit_keeps {ps : List Area} {s t : State} {x1 : Nat} {x2 : U32} (h : Keeps ps s t)
    (hs : ([.regs, .cores, .grn] : List Area).all (fun p => ps.contains p) = true) : Keeps ps s (jnlSubmit x1 x2 t) := by
  refine Keeps.step ?_ hs h
  unfold jnlSubmit
  try dsimp only
  repeat' with_reducible (first
    | exact Keeps.refl _ _ | assumption | decide | apply setCore_keeps | apply jnlPut_keeps | apply Keeps.ite
    | (fail_if_no_progress refine Keeps.upd ?_ rfl (by intro p hp; cases p <;> first | (exact absurd hp (by decide)) | rfl)) | split)

theorem jnlFill_keeps {ps : List Area} {s t : State} {x1 : Nat} {x2 : List U64} (h : Keeps ps s t)
    (hs : ([.cores] : List Area).all (fun p => ps.contains p) = true) : Keeps ps s (jnlFill x1 x2 t) := by
  refine Keeps.step ?_ hs h
  unfold jnlFill
  try dsimp only
  repeat' with_reducible (first
    | exact Keeps.refl _ _ | assumption | decide | apply setCore_keeps | apply Keeps.ite
    | (refine Keeps.foldl ?_ (fun u y hu => ?_) <;> try dsimp only)
    | (fail_if_no_progress refine Keeps.upd ?_ rfl (by intro p hp; cases p <;> first | (exact absurd hp (by decide)) | rfl)) | split)

theorem dcopWrite_keeps {ps : List Area} {s t : State} {x1 : Nat} {x2 : U64} (h : Keeps ps s t)
    (hs : ([.freeCtr, .cores] : List Area).all (fun p => ps.contains p) = true) : Keeps ps s (dcopWrite x1 x2 t) := by
  refine Keeps.step ?_ hs h
  unfold dcopWrite
  try dsimp only
  repeat' with_reducible (first
    | exact Keeps.refl _ _ | assumption | decide | refine draw_keeps' ?_ ?_ (by assumption) | apply draw_keeps | apply setCore_keeps
    | apply Keeps.ite | split
    | (fail_if_no_progress refine Keeps.upd ?_ rfl (by intro p hp; cases p <;> first | (exact absurd hp (by decide)) | rfl)))

theorem coreRun_keeps {ps : List Area} {s t : State} {x1 : U32} (h : Keeps ps s t)
    (hs : ([.cores] : List Area).all (fun p => ps.contains p) = true) : Keeps ps s (coreRun x1 t) := by
  refine Keeps.step ?_ hs h
  unfold coreRun
  try dsimp only
  repeat' with_reducible (first
    | exact Keeps.refl _ _ | assumption | decide | apply setCore_keeps | apply Keeps.ite
    | (refine Keeps.foldl ?_ (fun u y hu => ?_) <;> try dsimp only)
    | (fail_if_no_progress refine Keeps.upd ?_ rfl (by intro p hp; cases p <;> first | (exact absurd hp (by decide)) | rfl)) | split)

theorem csrWrite_keeps {ps : List Area} {s t : State} {x1 : Nat} {x2 : Nat} {x3 : U64} (h : Keeps ps s t)
    (hs : ([.regs, .freeCtr, .flt, .ints, .cores, .tly] : List Area).all (fun p => ps.contains p) = true)
        : Keeps ps s (csrWrite x1 x2 x3 t) := by
  refine Keeps.step ?_ hs h
  unfold csrWrite
  try dsimp only
  repeat' with_reducible (first
    | exact Keeps.refl _ _ | assumption | decide | apply complete_keeps | apply latchCore_keeps | apply setCore_keeps
    | apply timecmpWrite_keeps | apply dcopWrite_keeps | apply lset_keeps | apply ovfClear_keeps | apply smplWrite_keeps
    | apply setTlyCore_keeps | apply tlySet_keeps | apply tlySelect_keeps | apply Keeps.ite
    | (fail_if_no_progress refine Keeps.upd ?_ rfl (by intro p hp; cases p <;> first | (exact absurd hp (by decide)) | rfl)) | split)

theorem setAck_keeps {ps : List Area} {s t : State} {x1 : Nat} (h : Keeps ps s t)
    (hs : ([.dbg] : List Area).all (fun p => ps.contains p) = true) : Keeps ps s (setAck x1 t) := by
  refine Keeps.step ?_ hs h
  unfold setAck
  try dsimp only
  repeat' with_reducible (first
    | exact Keeps.refl _ _ | assumption | apply Keeps.ite
    | (fail_if_no_progress refine Keeps.upd ?_ rfl (by intro p hp; cases p <;> first | (exact absurd hp (by decide)) | rfl)) | split)

theorem dpBegin_keeps {ps : List Area} {s t : State} (h : Keeps ps s t)
    (hs : ([.dbg] : List Area).all (fun p => ps.contains p) = true) : Keeps ps s (dpBegin t) := by
  refine Keeps.step ?_ hs h
  unfold dpBegin
  try dsimp only
  repeat' with_reducible (first
    | exact Keeps.refl _ _ | assumption | apply Keeps.ite
    | (fail_if_no_progress refine Keeps.upd ?_ rfl (by intro p hp; cases p <;> first | (exact absurd hp (by decide)) | rfl)) | split)

theorem dpWrite_keeps {ps : List Area} {s t : State} {x1 : Nat} {x2 : State → State} (h
    : Keeps ps s t) (hs : ([.dbg] : List Area).all (fun p => ps.contains p) = true)
    (hf : ∀ u, Keeps ps s u → Keeps ps s (x2 u)) : Keeps ps s (dpWrite x1 x2 t) := by
  unfold dpWrite
  try dsimp only
  repeat' with_reducible (first
    | assumption | apply hf | apply dpBegin_keeps | apply setAck_keeps | exact sub_of hs (by decide) | apply Keeps.ite | split)

theorem resumeCore_keeps {ps : List Area} {s t : State} {x1 : Nat} (h : Keeps ps s t)
    (hs : ([.cores] : List Area).all (fun p => ps.contains p) = true) : Keeps ps s (resumeCore x1 t) := by
  refine Keeps.step ?_ hs h
  unfold resumeCore
  try dsimp only
  repeat' with_reducible (first
    | exact Keeps.refl _ _ | assumption | decide | apply setCore_keeps | apply Keeps.ite
    | (fail_if_no_progress refine Keeps.upd ?_ rfl (by intro p hp; cases p <;> first | (exact absurd hp (by decide)) | rfl)) | split)

theorem haltCore_keeps {ps : List Area} {s t : State} {x1 : Nat} (h : Keeps ps s t)
    (hs : ([.cores] : List Area).all (fun p => ps.contains p) = true) : Keeps ps s (haltCore x1 t) := by
  refine Keeps.step ?_ hs h
  unfold haltCore
  try dsimp only
  repeat' with_reducible (first
    | exact Keeps.refl _ _ | assumption | decide | apply setCore_keeps | apply Keeps.ite
    | (fail_if_no_progress refine Keeps.upd ?_ rfl (by intro p hp; cases p <;> first | (exact absurd hp (by decide)) | rfl)) | split)

theorem haltNoted_keeps {ps : List Area} {s t : State} (h : Keeps ps s t)
    (hs : ([.regs, .flt] : List Area).all (fun p => ps.contains p) = true) : Keeps ps s (haltNoted t) := by
  refine Keeps.step ?_ hs h
  unfold haltNoted
  try dsimp only
  repeat' with_reducible (first
    | exact Keeps.refl _ _ | assumption | decide | apply report_keeps | apply setEvt_keeps | apply Keeps.ite | split)

theorem unlockEnd_keeps {ps : List Area} {s t : State} (h : Keeps ps s t)
    (hs : ([.regs, .flt, .cores, .hrw, .dbg] : List Area).all (fun p => ps.contains p) = true) : Keeps ps s (unlockEnd t) := by
  refine Keeps.step ?_ hs h
  unfold unlockEnd
  try dsimp only
  repeat' with_reducible (first
    | exact Keeps.refl _ _ | assumption | decide | apply freeze_keeps | apply resumeCore_keeps | apply Keeps.ite
    | (refine Keeps.foldl ?_ (fun u y hu => ?_) <;> try dsimp only)
    | (fail_if_no_progress refine Keeps.upd ?_ rfl (by intro p hp; cases p <;> first | (exact absurd hp (by decide)) | rfl)) | split)

theorem dbgEnLow_keeps {ps : List Area} {s t : State} (h : Keeps ps s t)
    (hs : ([.regs, .flt, .cores, .hrw, .dbg] : List Area).all (fun p => ps.contains p) = true) : Keeps ps s (dbgEnLow t) := by
  refine Keeps.step ?_ hs h
  unfold dbgEnLow
  try dsimp only
  repeat' with_reducible (first
    | exact Keeps.refl _ _ | assumption | decide | apply unlockEnd_keeps | apply Keeps.ite
    | (fail_if_no_progress refine Keeps.upd ?_ rfl (by intro p hp; cases p <;> first | (exact absurd hp (by decide)) | rfl)) | split)

theorem unlockGo_keeps {ps : List Area} {s t : State} (h : Keeps ps s t)
    (hs : ([.dbg] : List Area).all (fun p => ps.contains p) = true) : Keeps ps s (unlockGo t) := by
  refine Keeps.step ?_ hs h
  unfold unlockGo
  try dsimp only
  repeat' with_reducible (first
    | exact Keeps.refl _ _ | assumption | apply Keeps.ite
    | (fail_if_no_progress refine Keeps.upd ?_ rfl (by intro p hp; cases p <;> first | (exact absurd hp (by decide)) | rfl)) | split)

theorem unlockDone_keeps {ps : List Area} {s t : State} (h : Keeps ps s t)
    (hs : ([.regs, .freeCtr, .flt, .dbg] : List Area).all (fun p => ps.contains p) = true) : Keeps ps s (unlockDone t) := by
  refine Keeps.step ?_ hs h
  unfold unlockDone
  try dsimp only
  repeat' with_reducible (first
    | exact Keeps.refl _ _ | assumption | decide | refine draw_keeps' ?_ ?_ (by assumption) | apply draw_keeps | apply report_keeps
    | apply setEvt_keeps | apply count_keeps | apply Keeps.ite | split
    | (fail_if_no_progress refine Keeps.upd ?_ rfl (by intro p hp; cases p <;> first | (exact absurd hp (by decide)) | rfl)))

theorem unlockExpire_keeps {ps : List Area} {s t : State} (h : Keeps ps s t)
    (hs : ([.regs, .std, .flt, .cores, .hrw, .dbg] : List Area).all (fun p => ps.contains p) = true) : Keeps ps s (unlockExpire t) := by
  refine Keeps.step ?_ hs h
  unfold unlockExpire
  try dsimp only
  repeat' with_reducible (first
    | exact Keeps.refl _ _ | assumption | decide | apply unlockEnd_keeps | apply Keeps.ite | split
    | (fail_if_no_progress refine Keeps.upd ?_ rfl (by intro p hp; cases p <;> first | (exact absurd hp (by decide)) | rfl)))

theorem haltCores_keeps {ps : List Area} {s t : State} {x1 : U16} (h : Keeps ps s t)
    (hs : ([.regs, .flt, .cores] : List Area).all (fun p => ps.contains p) = true) : Keeps ps s (haltCores x1 t) := by
  refine Keeps.step ?_ hs h
  unfold haltCores
  try dsimp only
  repeat' with_reducible (first
    | exact Keeps.refl _ _ | assumption | decide | apply haltCore_keeps | apply haltNoted_keeps | apply Keeps.ite
    | (refine Keeps.foldl ?_ (fun u y hu => ?_) <;> try dsimp only) | split)

theorem coreReg_keeps {ps : List Area} {s t : State} {x1 : Nat} {x2 : Nat} {x3 : U64} (h : Keeps ps s t)
    (hs : ([.cores] : List Area).all (fun p => ps.contains p) = true) : Keeps ps s (coreReg x1 x2 x3 t) := by
  refine Keeps.step ?_ hs h
  unfold coreReg
  try dsimp only
  repeat' with_reducible (first
    | exact Keeps.refl _ _ | assumption | decide | apply setCore_keeps | apply Keeps.ite
    | (fail_if_no_progress refine Keeps.upd ?_ rfl (by intro p hp; cases p <;> first | (exact absurd hp (by decide)) | rfl)) | split)

theorem stepCore_keeps {ps : List Area} {s t : State} {x1 : U64} {x2 : Option (Fin 64 × U64)} (h : Keeps ps s t)
    (hs : ([.regs, .dma, .freeCtr, .flt, .ints, .cores, .tly] : List Area).all (fun p => ps.contains p) = true)
        : Keeps ps s (stepCore x1 x2 t) := by
  refine Keeps.step ?_ hs h
  unfold stepCore
  try dsimp only
  repeat' with_reducible (first
    | exact Keeps.refl _ _ | assumption | decide | apply irqTrap_keeps | apply coreReg_keeps | apply Keeps.ite | split
    | (fail_if_no_progress refine Keeps.upd ?_ rfl (by intro p hp; cases p <;> first | (exact absurd hp (by decide)) | rfl)))

theorem bpHit_keeps {ps : List Area} {s t : State} {x1 : Nat} {x2 : Nat} (h : Keeps ps s t)
    (hs : ([.regs, .dma, .freeCtr, .flt, .ints, .cores, .tly] : List Area).all (fun p => ps.contains p) = true)
        : Keeps ps s (bpHit x1 x2 t) := by
  refine Keeps.step ?_ hs h
  unfold bpHit
  try dsimp only
  repeat' with_reducible (first
    | exact Keeps.refl _ _ | assumption | decide | apply setCore_keeps | apply tlyCount_keeps | apply haltNoted_keeps
    | apply haltCore_keeps | apply Keeps.ite
    | (fail_if_no_progress refine Keeps.upd ?_ rfl (by intro p hp; cases p <;> first | (exact absurd hp (by decide)) | rfl)) | split)

theorem wpHit_keeps {ps : List Area} {s t : State} {x1 : Nat} {x2 : Nat} {x3 : U64} {x4 : U64} {x5 : Bool} (h : Keeps ps s t)
    (hs : ([.regs, .dma, .freeCtr, .flt, .ints, .cores, .tly] : List Area).all (fun p => ps.contains p) = true)
        : Keeps ps s (wpHit x1 x2 x3 x4 x5 t) := by
  refine Keeps.step ?_ hs h
  unfold wpHit
  try dsimp only
  repeat' with_reducible (first
    | exact Keeps.refl _ _ | assumption | decide | apply bpHit_keeps | apply setCore_keeps | apply tlyCount_keeps | apply haltNoted_keeps
    | apply haltCore_keeps | apply Keeps.ite | split
    | (fail_if_no_progress refine Keeps.upd ?_ rfl (by intro p hp; cases p <;> first | (exact absurd hp (by decide)) | rfl)))

theorem regSel_keeps {ps : List Area} {s t : State} {x1 : U32} (h : Keeps ps s t)
    (hs : ([.regs, .freeCtr, .flt, .ints, .cores, .tly, .dbg] : List Area).all (fun p => ps.contains p) = true)
        : Keeps ps s (regSel x1 t) := by
  refine Keeps.step ?_ hs h
  unfold regSel
  try dsimp only
  repeat' with_reducible (first
    | exact Keeps.refl _ _ | assumption | decide | apply setAck_keeps | apply regHi_keeps | apply Keeps.ite
    | (fail_if_no_progress refine Keeps.upd ?_ rfl (by intro p hp; cases p <;> first | (exact absurd hp (by decide)) | rfl)) | split)

theorem regHi_keeps {ps : List Area} {s t : State} {x1 : U32} (h : Keeps ps s t)
    (hs : ([.regs, .freeCtr, .flt, .ints, .cores, .tly, .dbg] : List Area).all (fun p => ps.contains p) = true)
        : Keeps ps s (regHi x1 t) := by
  refine Keeps.step ?_ hs h
  unfold regHi
  try dsimp only
  repeat' with_reducible (first
    | exact Keeps.refl _ _ | assumption | decide | apply setAck_keeps | apply csrWrite_keeps | apply coreReg_keeps | apply Keeps.ite
    | (fail_if_no_progress refine Keeps.upd ?_ rfl (by intro p hp; cases p <;> first | (exact absurd hp (by decide)) | rfl)) | split)

theorem dpStore_keeps {ps : List Area} {s t : State} {x1 : Nat} {x2 : U32} (h : Keeps ps s t)
    (hs : ([.regs, .freeCtr, .flt, .ints, .cores, .hrw, .tly, .dbg] : List Area).all (fun p => ps.contains p) = true)
        : Keeps ps s (dpStore x1 x2 t) := by
  refine Keeps.step ?_ hs h
  unfold dpStore
  try dsimp only
  repeat' with_reducible (first
    | exact Keeps.refl _ _ | assumption | decide | apply unlockEnd_keeps | apply unlockGo_keeps | apply haltCores_keeps
    | apply resumeCore_keeps | apply regSel_keeps | apply regHi_keeps | apply freeze_keeps | apply Keeps.ite
    | (refine Keeps.foldl ?_ (fun u y hu => ?_) <;> try dsimp only)
    | (fail_if_no_progress refine Keeps.upd ?_ rfl (by intro p hp; cases p <;> first | (exact absurd hp (by decide)) | rfl)) | split)

end Sys2Proof.Machine
end

