-- ==== Sys2Proof/Laws/KeepsBoot.lean ====
section
/-! SUPPORT. What every operation of resets and boot, the frame boundary, the register space and debug memory access leaves as it was (Keeps): each lemma names the areas of
the state that the operation may change; the queue, core memory, the canonical forms, issued host writes, the free values drawn and REV_CNT
are kept by all. -/

set_option linter.unusedTactic false
set_option linter.unreachableTactic false

namespace Sys2Proof.Machine

theorem resetCore_keeps {ps : List Area} {s t : State} (h : Keeps ps s t)
    (hs :
        ([.tick, .regs, .sys, .hst, .flt, .aut, .cmd, .ints, .cores, .tsk, .lpe, .afe, .tim, .fur, .grn, .hrw, .prt, .snr, .stk, .tly,
        .dbg] : List Area).all (fun p => ps.contains p) = true) : Keeps ps s (resetCore t true) :=
  Keeps.step (t := t) ⟨by intro p hp; cases p <;> first | (exact absurd hp (by decide)) | rfl, rfl, rfl, fun _ => rfl, List.prefix_refl _,
    Nat.le_refl _, fun w => ⟨w, fun _ => Nat.le_refl _⟩⟩ hs h

theorem resetKeep_keeps {ps : List Area} {s t : State} (h : Keeps ps s t)
    (hs :
        ([.tick, .regs, .sys, .hst, .flt, .aut, .cmd, .ints, .cores, .tsk, .lpe, .afe, .tim, .fur, .grn, .hrw, .prt, .snr, .stk, .tly,
        .dbg] : List Area).all (fun p => ps.contains p) = true) : Keeps ps s (resetKeep t) := by
  refine Keeps.step ?_ hs h
  unfold resetKeep
  try dsimp only
  repeat' with_reducible (first
    | exact Keeps.refl _ _ | assumption | decide | apply wr_keeps | apply resetCore_keeps | apply Keeps.ite
    | (fail_if_no_progress refine Keeps.upd ?_ rfl (by intro p hp; cases p <;> first | (exact absurd hp (by decide)) | rfl)) | split)

theorem powerUpVault_keeps {ps : List Area} {s t : State} (h : Keeps ps s t)
    (hs : ([.regs, .std] : List Area).all (fun p => ps.contains p) = true) : Keeps ps s (powerUpVault t) := by
  refine Keeps.step ?_ hs h
  unfold powerUpVault
  try dsimp only
  repeat' with_reducible (first
    | exact Keeps.refl _ _ | assumption | decide | apply setEvt_keeps | apply Keeps.ite
    | (fail_if_no_progress refine Keeps.upd ?_ rfl (by intro p hp; cases p <;> first | (exact absurd hp (by decide)) | rfl)) | split)

theorem newDeviceKey_keeps {ps : List Area} {s t : State} (h : Keeps ps s t)
    (hs : ([.freeCtr, .std] : List Area).all (fun p => ps.contains p) = true) : Keeps ps s (newDeviceKey t) := by
  refine Keeps.step (t := t) ?_ hs h
  unfold newDeviceKey
  split
  · have hd := draw_keeps (x1 := Config.deviceKey) (Keeps.refl [.freeCtr, .std] t) (by decide)
    revert hd
    generalize draw Config.deviceKey t = q
    obtain ⟨y, u⟩ := q
    intro hd
    have hd : Keeps [.freeCtr, .std] t u := hd
    dsimp only
    refine ⟨fun p hp => ?_, hd.pending, hd.mem, hd.regs, hd.dma, hd.freeCtr, fun w => ?_⟩
    · have := hd.only p hp
      cases p <;> first | exact absurd hp (by decide) | exact this
    have w' := (hd.rev w).1
    simp only [slotsWf, tblWf, Bool.and_eq_true] at w'
    refine ⟨?_, fun k => Nat.le_trans ((hd.rev w).2 k) ?_⟩
    · refine tblWf_filter_default ?_
      split
      · exact tblRising_map (fun v : KeySlot => if slotState v = 3 then v else { v with key := none, ceil := 0, gen := 0 }) w'.1
      · exact w'.1
    · split
      · have e := tget_filter (d := ({} : KeySlot)) k
          (tblRising_map (fun v : KeySlot => if slotState v = 3 then v else { v with key := none, ceil := 0, gen := 0 }) w'.1)
        simp only [revOf]
        rw [e, tget_map (d := ({} : KeySlot)) (g := fun v : KeySlot => if slotState v = 3 then v else
            { v with key := none, ceil := 0, gen := 0 }) (by decide)]
        split
        · exact Nat.le_refl _
        · exact Nat.le_refl _
      · simp only [revOf]
        rw [tget_filter k w'.1]
  · exact Keeps.refl _ _

theorem resetCause_keeps {ps : List Area} {s t : State} {x1 : Nat} (h : Keeps ps s t)
    (hs : ([.regs, .std] : List Area).all (fun p => ps.contains p) = true) : Keeps ps s (resetCause x1 t) := by
  refine Keeps.step ?_ hs h
  unfold resetCause
  try dsimp only
  repeat' with_reducible (first
    | exact Keeps.refl _ _ | assumption | decide | apply wr_keeps | apply Keeps.ite
    | (fail_if_no_progress refine Keeps.upd ?_ rfl (by intro p hp; cases p <;> first | (exact absurd hp (by decide)) | rfl)) | split)

theorem standbyPairs_keeps {ps : List Area} {s t : State} (h : Keeps ps s t)
    (hs : ([.regs] : List Area).all (fun p => ps.contains p) = true) : Keeps ps s (standbyPairs t) := by
  refine Keeps.step ?_ hs h
  unfold standbyPairs
  try dsimp only
  repeat' with_reducible (first | exact Keeps.refl _ _ | assumption | decide | apply wr_keeps | apply Keeps.ite | split)

theorem resetRelease_keeps {ps : List Area} {s t : State} {x1 : Nat} {x2 : Nat} (h : Keeps ps s t)
    (hs : ([.regs, .freeCtr, .sys, .std, .aut, .stk, .dbg] : List Area).all (fun p => ps.contains p) = true)
        : Keeps ps s (resetRelease x1 x2 t) := by
  refine Keeps.step ?_ hs h
  unfold resetRelease
  try dsimp only
  repeat' with_reducible (first
    | exact Keeps.refl _ _ | assumption | decide | apply newDeviceKey_keeps | apply powerUpVault_keeps
    | refine draw_keeps' ?_ ?_ (by assumption) | apply draw_keeps | apply standbyPairs_keeps | apply resetCause_keeps | apply Keeps.ite
    | split | (fail_if_no_progress refine Keeps.upd ?_ rfl (by intro p hp; cases p <;> first | (exact absurd hp (by decide)) | rfl)))

theorem pinAssert_keeps {ps : List Area} {s t : State} (h : Keeps ps s t)
    (hs :
        ([.tick, .regs, .sys, .hst, .flt, .aut, .cmd, .ints, .cores, .tsk, .lpe, .afe, .tim, .fur, .grn, .hrw, .prt, .snr, .stk, .tly,
        .dbg] : List Area).all (fun p => ps.contains p) = true) : Keeps ps s (pinAssert t) := by
  refine Keeps.step ?_ hs h
  unfold pinAssert
  try dsimp only
  repeat' with_reducible (first
    | exact Keeps.refl _ _ | assumption | decide | apply resetKeep_keeps | apply Keeps.ite
    | (fail_if_no_progress refine Keeps.upd ?_ rfl (by intro p hp; cases p <;> first | (exact absurd hp (by decide)) | rfl)) | split)

theorem pinRelease_keeps {ps : List Area} {s t : State} {x1 : Nat} {x2 : Nat} (h : Keeps ps s t)
    (hs : ([.regs, .freeCtr, .sys, .std, .aut, .stk, .dbg] : List Area).all (fun p => ps.contains p) = true)
        : Keeps ps s (pinRelease x1 x2 t) := by
  refine Keeps.step ?_ hs h
  unfold pinRelease
  try dsimp only
  repeat' with_reducible (first
    | exact Keeps.refl _ _ | assumption | decide | apply resetRelease_keeps | apply Keeps.ite
    | (fail_if_no_progress refine Keeps.upd ?_ rfl (by intro p hp; cases p <;> first | (exact absurd hp (by decide)) | rfl)) | split)

theorem softAssert_keeps {ps : List Area} {s t : State} (h : Keeps ps s t)
    (hs :
        ([.tick, .regs, .sys, .hst, .flt, .aut, .cmd, .ints, .cores, .tsk, .lpe, .afe, .tim, .fur, .grn, .hrw, .prt, .snr, .stk, .tly,
        .dbg] : List Area).all (fun p => ps.contains p) = true) : Keeps ps s (softAssert t) := by
  refine Keeps.step ?_ hs h
  unfold softAssert
  try dsimp only
  repeat' with_reducible (first
    | exact Keeps.refl _ _ | assumption | decide | apply resetKeep_keeps | apply Keeps.ite
    | (fail_if_no_progress refine Keeps.upd ?_ rfl (by intro p hp; cases p <;> first | (exact absurd hp (by decide)) | rfl)) | split)

theorem frameStateReset_keeps {ps : List Area} {s t : State} (h : Keeps ps s t)
    (hs :
        ([.regs, .flt, .cmd, .ints, .cores, .lpe, .afe, .fur, .grn, .hrw, .snr, .stk] : List Area).all (fun p => ps.contains p) = true) :
        Keeps ps s (frameStateReset t) := by
  refine Keeps.step ?_ hs h
  unfold frameStateReset
  try dsimp only
  repeat' with_reducible (first
    | exact Keeps.refl _ _ | assumption | decide | apply ringClear_keeps | apply Keeps.ite
    | (refine Keeps.foldl ?_ (fun u y hu => ?_) <;> try dsimp only)
    | (fail_if_no_progress refine Keeps.upd ?_ rfl (by intro p hp; cases p <;> first | (exact absurd hp (by decide)) | rfl)) | split)

theorem frameReset_keeps {ps : List Area} {s t : State} (h : Keeps ps s t)
    (hs :
        ([.tick, .regs, .sys, .flt, .cmd, .ints, .cores, .lpe, .afe, .fur, .grn, .hrw, .snr, .stk, .tly] : List Area).all (fun p =>
        ps.contains p) = true) : Keeps ps s (frameReset t) := by
  refine Keeps.step ?_ hs h
  unfold frameReset
  try dsimp only
  repeat' with_reducible (first
    | exact Keeps.refl _ _ | assumption | decide | apply advanceTo_keeps | apply frameStateReset_keeps | apply wr_keeps | apply Keeps.ite
    | (fail_if_no_progress refine Keeps.upd ?_ rfl (by intro p hp; cases p <;> first | (exact absurd hp (by decide)) | rfl)) | split)

theorem snareLinkDown_keeps {ps : List Area} {s t : State} (h : Keeps ps s t)
    (hs : ([.regs, .flt, .snr] : List Area).all (fun p => ps.contains p) = true) : Keeps ps s (snareLinkDown t) := by
  refine Keeps.step ?_ hs h
  unfold snareLinkDown
  try dsimp only
  repeat' with_reducible (first | exact Keeps.refl _ _ | assumption | decide | apply dumpAbort_keeps | apply Keeps.ite | split)

theorem clockLost_keeps {ps : List Area} {s t : State} {x1 : Bool} (h : Keeps ps s t)
    (hs : ([.regs, .sys, .flt, .prt] : List Area).all (fun p => ps.contains p) = true) : Keeps ps s (clockLost x1 t) := by
  refine Keeps.step ?_ hs h
  unfold clockLost
  try dsimp only
  repeat' with_reducible (first
    | exact Keeps.refl _ _ | assumption | decide | apply clapAssert_keeps | apply report_keeps | apply setEvt_keeps | apply Keeps.ite
    | (fail_if_no_progress refine Keeps.upd ?_ rfl (by intro p hp; cases p <;> first | (exact absurd hp (by decide)) | rfl)) | split)

theorem clocksOn_keeps {ps : List Area} {s t : State} (h : Keeps ps s t)
    (hs : ([.sys] : List Area).all (fun p => ps.contains p) = true) : Keeps ps s (clocksOn t) := by
  refine Keeps.step ?_ hs h
  unfold clocksOn
  try dsimp only
  repeat' with_reducible (first
    | exact Keeps.refl _ _ | assumption | apply Keeps.ite
    | (fail_if_no_progress refine Keeps.upd ?_ rfl (by intro p hp; cases p <;> first | (exact absurd hp (by decide)) | rfl)) | split)

theorem pllLocked_keeps {ps : List Area} {s t : State} (h : Keeps ps s t)
    (hs : ([.sys, .cores] : List Area).all (fun p => ps.contains p) = true) : Keeps ps s (pllLocked t) := by
  refine Keeps.step ?_ hs h
  unfold pllLocked
  try dsimp only
  repeat' with_reducible (first
    | exact Keeps.refl _ _ | assumption | decide | apply setCore_keeps | apply clocksOn_keeps | apply Keeps.ite
    | (fail_if_no_progress refine Keeps.upd ?_ rfl (by intro p hp; cases p <;> first | (exact absurd hp (by decide)) | rfl)) | split)

theorem clockRecovered_keeps {ps : List Area} {s t : State} (h : Keeps ps s t)
    (hs : ([.regs, .sys, .hst, .flt, .cmd, .grn, .snr] : List Area).all (fun p => ps.contains p) = true)
        : Keeps ps s (clockRecovered t) := by
  refine Keeps.step ?_ hs h
  unfold clockRecovered
  try dsimp only
  repeat' with_reducible (first
    | exact Keeps.refl _ _ | assumption | decide | apply tocsinReport_keeps | apply clocksOn_keeps | apply Keeps.ite | split)

theorem devkeyReady_keeps {ps : List Area} {s t : State} (h : Keeps ps s t)
    (hs : ([.freeCtr, .std, .aut] : List Area).all (fun p => ps.contains p) = true) : Keeps ps s (devkeyReady t) := by
  refine Keeps.step ?_ hs h
  unfold devkeyReady
  try dsimp only
  repeat' with_reducible (first
    | exact Keeps.refl _ _ | assumption | decide | apply newDeviceKey_keeps | apply Keeps.ite
    | (fail_if_no_progress refine Keeps.upd ?_ rfl (by intro p hp; cases p <;> first | (exact absurd hp (by decide)) | rfl)) | split)

theorem bankHandOver_keeps {ps : List Area} {s t : State} {x1 : Nat} (h : Keeps ps s t)
    (hs : ([.std] : List Area).all (fun p => ps.contains p) = true) : Keeps ps s (bankHandOver x1 t) := by
  refine Keeps.step ?_ hs h
  unfold bankHandOver
  try dsimp only
  repeat' with_reducible (first
    | exact Keeps.refl _ _ | assumption | decide | apply setBank_keeps | apply Keeps.ite
    | (fail_if_no_progress refine Keeps.upd ?_ rfl (by intro p hp; cases p <;> first | (exact absurd hp (by decide)) | rfl)) | split)

theorem bootFail_keeps {ps : List Area} {s t : State} {x1 : Nat} (h : Keeps ps s t)
    (hs : ([.regs] : List Area).all (fun p => ps.contains p) = true) : Keeps ps s (bootFail x1 t) := by
  refine Keeps.step ?_ hs h
  unfold bootFail
  try dsimp only
  repeat' with_reducible (first | exact Keeps.refl _ _ | assumption | decide | apply wr_keeps | apply Keeps.ite | split)

theorem safetyImageStart_keeps {ps : List Area} {s t : State} {x1 : Bool} (h : Keeps ps s t)
    (hs : ([.regs, .sys, .std, .prt] : List Area).all (fun p => ps.contains p) = true) : Keeps ps s (safetyImageStart x1 t) := by
  refine Keeps.step ?_ hs h
  unfold safetyImageStart
  try dsimp only
  repeat' with_reducible (first
    | exact Keeps.refl _ _ | assumption | decide | apply clapAssert_keeps | apply setEvt_keeps | apply bootFail_keeps
    | apply bankHandOver_keeps | apply wr_keeps | apply Keeps.ite | split
    | (fail_if_no_progress refine Keeps.upd ?_ rfl (by intro p hp; cases p <;> first | (exact absurd hp (by decide)) | rfl)))

theorem rollbackAdvance_keeps {ps : List Area} {s t : State} (h : Keeps ps s t)
    (hs : ([.std] : List Area).all (fun p => ps.contains p) = true) : Keeps ps s (rollbackAdvance t) := by
  refine Keeps.step ?_ hs h
  unfold rollbackAdvance
  try dsimp only
  repeat' with_reducible (first
    | exact Keeps.refl _ _ | assumption | decide | apply setBank_keeps | apply Keeps.ite
    | (fail_if_no_progress refine Keeps.upd ?_ rfl (by intro p hp; cases p <;> first | (exact absurd hp (by decide)) | rfl)) | split)

theorem setupDoneWrite_keeps {ps : List Area} {s t : State} {x1 : U32} (h : Keeps ps s t)
    (hs : ([.regs, .sys, .std, .flt, .hrw, .prt, .snr, .stk] : List Area).all (fun p => ps.contains p) = true)
        : Keeps ps s (setupDoneWrite x1 t) := by
  refine Keeps.step ?_ hs h
  unfold setupDoneWrite
  try dsimp only
  repeat' with_reducible (first
    | exact Keeps.refl _ _ | assumption | decide | apply rollbackAdvance_keeps | apply prtSetupDone_keeps | apply Keeps.ite
    | (fail_if_no_progress refine Keeps.upd ?_ rfl (by intro p hp; cases p <;> first | (exact absurd hp (by decide)) | rfl)) | split)

theorem frameStart_keeps {ps : List Area} {s t : State} {x1 : U32} (h : Keeps ps s t)
    (hs : ([.sys, .cmd] : List Area).all (fun p => ps.contains p) = true) : Keeps ps s (frameStart x1 t) := by
  refine Keeps.step ?_ hs h
  unfold frameStart
  try dsimp only
  repeat' with_reducible (first
    | exact Keeps.refl _ _ | assumption | apply Keeps.ite
    | (fail_if_no_progress refine Keeps.upd ?_ rfl (by intro p hp; cases p <;> first | (exact absurd hp (by decide)) | rfl)) | split)

theorem headerPush_keeps {ps : List Area} {s t : State} {x1 : Nat} (h : Keeps ps s t)
    (hs : ([.grn] : List Area).all (fun p => ps.contains p) = true) : Keeps ps s (headerPush x1 t) := by
  refine Keeps.step ?_ hs h
  unfold headerPush
  try dsimp only
  repeat' with_reducible (first
    | exact Keeps.refl _ _ | assumption | apply Keeps.ite | (refine Keeps.foldl ?_ (fun u y hu => ?_) <;> try dsimp only)
    | (fail_if_no_progress refine Keeps.upd ?_ rfl (by intro p hp; cases p <;> first | (exact absurd hp (by decide)) | rfl)) | split)

theorem samplePush_keeps {ps : List Area} {s t : State} {x1 : Nat} (h : Keeps ps s t)
    (hs : ([.grn] : List Area).all (fun p => ps.contains p) = true) : Keeps ps s (samplePush x1 t) := by
  refine Keeps.step ?_ hs h
  unfold samplePush
  try dsimp only
  repeat' with_reducible (first
    | exact Keeps.refl _ _ | assumption | apply Keeps.ite
    | (fail_if_no_progress refine Keeps.upd ?_ rfl (by intro p hp; cases p <;> first | (exact absurd hp (by decide)) | rfl)) | split)

theorem periodBoundary_keeps {ps : List Area} {s t : State} {x1 : Nat} (h : Keeps ps s t)
    (hs : ([.regs, .flt, .ints, .cores, .lpe, .afe, .snr] : List Area).all (fun p => ps.contains p) = true)
        : Keeps ps s (periodBoundary x1 t) := by
  refine Keeps.step ?_ hs h
  unfold periodBoundary
  try dsimp only
  repeat' with_reducible (first
    | exact Keeps.refl _ _ | assumption | decide | apply startEvents_keeps | apply afeLatch_keeps | apply loopSignals_keeps
    | apply lpeSample_keeps | apply intEdge_keeps | apply Keeps.ite | split)

theorem ethBuckets_keeps {ps : List Area} {s t : State} {x1 : Nat} (h : Keeps ps s t)
    (hs : ([.regs, .flt, .tim] : List Area).all (fun p => ps.contains p) = true) : Keeps ps s (ethBuckets x1 t) := by
  refine Keeps.step ?_ hs h
  unfold ethBuckets
  try dsimp only
  repeat' with_reducible (first
    | exact Keeps.refl _ _ | assumption | decide | refine bucketFrame_keeps' ?_ ?_ (by assumption) | apply bucketFrame_keeps
    | apply setEth_keeps | apply retireElement_keeps | apply setEvt_keeps | apply Keeps.ite
    | (fail_if_no_progress refine Keeps.upd ?_ rfl (by intro p hp; cases p <;> first | (exact absurd hp (by decide)) | rfl)) | split)

theorem armSignals_keeps {ps : List Area} {s t : State} {x1 : Nat} (h : Keeps ps s t)
    (hs : ([.regs, .flt, .snr] : List Area).all (fun p => ps.contains p) = true) : Keeps ps s (armSignals x1 t) := by
  refine Keeps.step ?_ hs h
  unfold armSignals
  try dsimp only
  repeat' with_reducible (first
    | exact Keeps.refl _ _ | assumption | decide | apply snareSig_keeps | apply Keeps.ite
    | (refine Keeps.foldl ?_ (fun u y hu => ?_) <;> try dsimp only) | split)

theorem granaryBoundary_keeps {ps : List Area} {s t : State} {x1 : Nat} (h : Keeps ps s t)
    (hs : ([.grn, .prt] : List Area).all (fun p => ps.contains p) = true) : Keeps ps s (granaryBoundary x1 t) := by
  refine Keeps.step ?_ hs h
  unfold granaryBoundary
  try dsimp only
  repeat' with_reducible (first
    | exact Keeps.refl _ _ | assumption | apply Keeps.ite
    | (fail_if_no_progress refine Keeps.upd ?_ rfl (by intro p hp; cases p <;> first | (exact absurd hp (by decide)) | rfl)) | split)

theorem frameAt_keeps {ps : List Area} {s t : State} {x1 : Nat} (h : Keeps ps s t)
    (hs :
        ([.regs, .dma, .hst, .flt, .cmd, .ints, .cores, .lpe, .afe, .tim, .fur, .grn, .hrw, .prt, .snr, .stk, .tly] : List Area).all (fun
        p => ps.contains p) = true) : Keeps ps s (frameAt x1 t) := by
  refine Keeps.step ?_ hs h
  unfold frameAt
  try dsimp only
  repeat' with_reducible (first
    | exact Keeps.refl _ _ | assumption | decide | apply takeoverFrame_keeps | apply bootStepApply_keeps | apply ptpFirstFrame_keeps
    | apply handOff_keeps | apply gridsBoundary_keeps | apply headerPush_keeps | apply boundaryEffects_keeps | apply samplePush_keeps
    | apply furLaunch_keeps | apply startEvents_keeps | apply granaryBoundary_keeps | apply periodBoundary_keeps
    | apply stkBoundary_keeps | apply ethBuckets_keeps | apply armSignals_keeps | apply snareEvent_keeps | apply tlyDev_keeps
    | apply intEdge_keeps | apply Keeps.ite | (refine Keeps.foldl ?_ (fun u y hu => ?_) <;> try dsimp only) | split)

theorem frameBoundary_keeps {ps : List Area} {s t : State} (h : Keeps ps s t)
    (hs :
        ([.tick, .regs, .dma, .sys, .hst, .flt, .cmd, .ints, .cores, .lpe, .afe, .tim, .fur, .grn, .hrw, .prt, .snr, .stk, .tly] : List
        Area).all (fun p => ps.contains p) = true) : Keeps ps s (frameBoundary t) := by
  refine Keeps.step ?_ hs h
  unfold frameBoundary
  try dsimp only
  repeat' with_reducible (first
    | exact Keeps.refl _ _ | assumption | decide | apply frameAt_keeps | apply advanceTo_keeps | apply Keeps.ite
    | (fail_if_no_progress refine Keeps.upd ?_ rfl (by intro p hp; cases p <;> first | (exact absurd hp (by decide)) | rfl)) | split)

theorem latchPair_keeps {ps : List Area} {s t : State} {x1 : Nat} (h : Keeps ps s t)
    (hs : ([.regs] : List Area).all (fun p => ps.contains p) = true) : Keeps ps s (latchPair x1 t) := by
  refine Keeps.step ?_ hs h
  unfold latchPair
  try dsimp only
  repeat' with_reducible (first
    | exact Keeps.refl _ _ | assumption | decide | apply wr_keeps | apply Keeps.ite
    | (refine Keeps.foldl ?_ (fun u y hu => ?_) <;> try dsimp only) | split)

theorem pairRead_keeps {ps : List Area} {s t : State} {x1 : Bus} {x2 : Nat} (h : Keeps ps s t)
    (hs : ([.regs, .rdata] : List Area).all (fun p => ps.contains p) = true) : Keeps ps s (pairRead x1 x2 t) := by
  refine Keeps.step ?_ hs h
  unfold pairRead
  try dsimp only
  repeat' with_reducible (first
    | exact Keeps.refl _ _ | assumption | decide | apply latchPair_keeps | apply Keeps.ite
    | (fail_if_no_progress refine Keeps.upd ?_ rfl (by intro p hp; cases p <;> first | (exact absurd hp (by decide)) | rfl)) | split)

theorem rcRead_keeps {ps : List Area} {s t : State} {x1 : Bus} {x2 : Nat} (h : Keeps ps s t)
    (hs : ([.regs, .rdata, .tsk, .tim] : List Area).all (fun p => ps.contains p) = true) : Keeps ps s (rcRead x1 x2 t) := by
  refine Keeps.step ?_ hs h
  unfold rcRead
  try dsimp only
  repeat' with_reducible (first
    | exact Keeps.refl _ _ | assumption | decide | apply rxPop_keeps | apply txtsPop_keeps | apply pairRead_keeps | apply setPort_keeps
    | apply wr_keeps | apply Keeps.ite | split
    | (fail_if_no_progress refine Keeps.upd ?_ rfl (by intro p hp; cases p <;> first | (exact absurd hp (by decide)) | rfl)))

theorem dpReadReg_keeps {ps : List Area} {s t : State} {x1 : Nat} (h : Keeps ps s t)
    (hs : ([.rdata, .dbg] : List Area).all (fun p => ps.contains p) = true) : Keeps ps s (dpReadReg x1 t) := by
  refine Keeps.step ?_ hs h
  unfold dpReadReg
  try dsimp only
  repeat' with_reducible (first
    | exact Keeps.refl _ _ | assumption | decide | apply dpBegin_keeps | apply setAck_keeps | apply Keeps.ite
    | (fail_if_no_progress refine Keeps.upd ?_ rfl (by intro p hp; cases p <;> first | (exact absurd hp (by decide)) | rfl)) | split)

theorem wideRead_keeps {ps : List Area} {s t : State} {x1 : Nat → State → State} {x2 : Nat} (h : Keeps ps s t)
    (hf : ∀ o u, Keeps ps s u → Keeps ps s (x1 o u)) (hs : ([.rdata] : List Area).all (fun p => ps.contains p) = true) :
    Keeps ps s (wideRead x1 x2 t) := by
  unfold wideRead
  exact Keeps.step (Keeps.upd (ps := [.rdata]) (Keeps.refl _ _) rfl
    (by intro p hp; cases p <;> first | (exact absurd hp (by decide)) | rfl)) hs (hf _ _ (hf _ _ h))

theorem readAcc_keeps {ps : List Area} {s t : State} {x1 : Bus} {x2 : Nat} {x3 : Bool} (h : Keeps ps s t)
    (hs : ([.regs, .rdata, .flt, .tsk, .tim] : List Area).all (fun p => ps.contains p) = true) : Keeps ps s (readAcc x1 x2 x3 t) := by
  refine Keeps.step ?_ hs h
  unfold readAcc
  repeat' with_reducible (first
    | exact Keeps.refl _ _ | assumption | decide | (refine wideRead_keeps ?_ (fun o u hu => rcRead_keeps hu (by decide)) (by decide))
    | apply rcRead_keeps | apply badAccess_keeps | apply Keeps.ite
    | (fail_if_no_progress refine Keeps.upd ?_ rfl (by intro p hp; cases p <;> first | (exact absurd hp (by decide)) | rfl)) | split)

theorem latchAll_keeps {ps : List Area} {s t : State} (h : Keeps ps s t)
    (hs : ([.cores] : List Area).all (fun p => ps.contains p) = true) : Keeps ps s (latchAll t) := by
  refine Keeps.step ?_ hs h
  unfold latchAll
  try dsimp only
  repeat' with_reducible (first
    | exact Keeps.refl _ _ | assumption | decide | apply latchCore_keeps | apply Keeps.ite
    | (refine Keeps.foldl ?_ (fun u y hu => ?_) <;> try dsimp only) | split)

theorem w1c_keeps {ps : List Area} {s t : State} {x1 : Nat} {x2 : U32} (h : Keeps ps s t)
    (hs : ([.regs, .cores] : List Area).all (fun p => ps.contains p) = true) : Keeps ps s (w1c x1 x2 t) := by
  refine Keeps.step ?_ hs h
  unfold w1c
  try dsimp only
  repeat' with_reducible (first
    | exact Keeps.refl _ _ | assumption | decide | apply latchAll_keeps | apply wr_keeps | apply Keeps.ite | split)

theorem rstCtl_keeps {ps : List Area} {s t : State} {x1 : U32} (h : Keeps ps s t)
    (hs :
        ([.tick, .regs, .sys, .hst, .flt, .aut, .cmd, .ints, .cores, .tsk, .lpe, .afe, .tim, .fur, .grn, .hrw, .prt, .snr, .stk, .tly,
        .dbg] : List Area).all (fun p => ps.contains p) = true) : Keeps ps s (rstCtl x1 t) := by
  refine Keeps.step ?_ hs h
  unfold rstCtl
  try dsimp only
  repeat' with_reducible (first
    | exact Keeps.refl _ _ | assumption | decide | apply softAssert_keeps | apply frameReset_keeps | apply Keeps.ite | split)

theorem tskPortWrite_keeps {ps : List Area} {s t : State} {x1 : Nat} {x2 : Nat} {x3 : U32} (h : Keeps ps s t)
    (hs : ([.regs, .flt, .ints, .cores, .tsk] : List Area).all (fun p => ps.contains p) = true) : Keeps ps s (tskPortWrite x1 x2 x3 t) := by
  refine Keeps.step ?_ hs h
  unfold tskPortWrite
  try dsimp only
  repeat' with_reducible (first
    | exact Keeps.refl _ _ | assumption | decide | apply tskOp_keeps | apply setPort_keeps | apply Keeps.ite
    | (fail_if_no_progress refine Keeps.upd ?_ rfl (by intro p hp; cases p <;> first | (exact absurd hp (by decide)) | rfl)) | split)

theorem ethCfg_keeps {ps : List Area} {s t : State} {x1 : Nat} {x2 : U32} (h : Keeps ps s t)
    (hs : ([.regs, .flt, .tim] : List Area).all (fun p => ps.contains p) = true) : Keeps ps s (ethCfg x1 x2 t) := by
  refine Keeps.step ?_ hs h
  unfold ethCfg
  try dsimp only
  repeat' with_reducible (first
    | exact Keeps.refl _ _ | assumption | decide | apply ethCfgWrite_keeps | apply bucketRestore_keeps | apply Keeps.ite | split)

theorem txWord_keeps {ps : List Area} {s t : State} {x1 : Nat} {x2 : Nat} {x3 : U32} (h : Keeps ps s t)
    (hs : ([.tim] : List Area).all (fun p => ps.contains p) = true) : Keeps ps s (txWord x1 x2 x3 t) := by
  refine Keeps.step ?_ hs h
  unfold txWord
  try dsimp only
  repeat' with_reducible (first
    | exact Keeps.refl _ _ | assumption | decide | apply setEth_keeps | apply Keeps.ite
    | (fail_if_no_progress refine Keeps.upd ?_ rfl (by intro p hp; cases p <;> first | (exact absurd hp (by decide)) | rfl)) | split)

theorem writeEffect_keeps {ps : List Area} {s t : State} {x1 : Bus} {x2 : Nat} {x3 : U32} (h : Keeps ps s t)
    (hs :
        ([.tick, .regs, .freeCtr, .sys, .std, .hst, .flt, .aut, .cmd, .ints, .cores, .tsk, .lpe, .afe, .tim, .fur, .grn, .hrw, .prt,
        .snr, .stk, .tly, .dbg] : List Area).all (fun p => ps.contains p) = true) : Keeps ps s (writeEffect x1 x2 x3 t) := by
  refine Keeps.step ?_ hs h
  unfold writeEffect
  try dsimp only
  repeat' with_reducible (first
    | exact Keeps.refl _ _ | assumption | decide | apply frameStart_keeps | apply setupDoneWrite_keeps | apply rstCtl_keeps
    | apply coreRun_keeps | apply plainWrite_keeps | apply hstRestart_keeps | apply ringCfgWrite_keeps | apply ringBaseWrite_keeps
    | apply akeyCommit_keeps | apply tampCfgWrite_keeps | apply tskPortWrite_keeps | apply sset_keeps | apply swi_keeps
    | apply latchAll_keeps | apply capWrite_keeps | apply srcWrite_keeps | apply dstWrite_keeps | apply carIrqWrite_keeps
    | apply snareEval_keeps | apply furRingCfg_keeps | apply seqGo_keeps | apply seqModeWrite_keeps | apply entWrite_keeps
    | apply chCfgWrite_keeps | apply readyStep_keeps | apply stkRetrain_keeps | apply measCommit_keeps | apply ethCfg_keeps
    | apply txCtl_keeps | apply rxRel_keeps | apply txWord_keeps | apply fltClear_keeps | apply swRecord_keeps | apply devCfgWrite_keeps
    | apply Keeps.ite | split
    | (fail_if_no_progress refine Keeps.upd ?_ rfl (by intro p hp; cases p <;> first | (exact absurd hp (by decide)) | rfl)))

theorem sharedCount_keeps {ps : List Area} {s t : State} {x1 : Region} (h : Keeps ps s t)
    (hs : ([.tly] : List Area).all (fun p => ps.contains p) = true) : Keeps ps s (sharedCount x1 t) := by
  refine Keeps.step ?_ hs h
  unfold sharedCount
  try dsimp only
  repeat' with_reducible (first
    | exact Keeps.refl _ _ | assumption | decide | apply tlyDev_keeps | apply Keeps.ite | split
    | (fail_if_no_progress refine Keeps.upd ?_ rfl (by intro p hp; cases p <;> first | (exact absurd hp (by decide)) | rfl)))

theorem mapRead_keeps {ps : List Area} {s t : State} {x1 : Nat} {x2 : Region} {x3 : Nat} (h : Keeps ps s t)
    (hs : ([.regs, .freeCtr] : List Area).all (fun p => ps.contains p) = true) : Keeps ps s (mapRead x1 x2 x3 t).2 := by
  refine Keeps.step ?_ hs h
  unfold mapRead
  try dsimp only
  repeat' with_reducible (first
    | exact Keeps.refl _ _ | assumption | decide | apply latchPair_keeps | refine draw_keeps' ?_ ?_ (by assumption) | apply draw_keeps
    | apply Keeps.ite | split
    | (fail_if_no_progress refine Keeps.upd ?_ rfl (by intro p hp; cases p <;> first | (exact absurd hp (by decide)) | rfl)))

theorem mapRead_keeps' {ps : List Area} {s t : State} {x1 : Nat} {x2 : Region} {x3 : Nat} {y0 : U32} {y1 : State} (h : Keeps ps s t)
    (hs : ([.regs, .freeCtr] : List Area).all (fun p => ps.contains p) = true) (e : mapRead x1 x2 x3 t = (y0, y1)) : Keeps ps s y1 := by
  have k := mapRead_keeps (t := t) (x1 := x1) (x2 := x2) (x3 := x3) h hs
  rw [e] at k
  exact k

theorem jnlHalf_keeps {ps : List Area} {s t : State} {x1 : Nat} {x2 : Nat} {x3 : U32} (h : Keeps ps s t)
    (hs : ([.cores] : List Area).all (fun p => ps.contains p) = true) : Keeps ps s (jnlHalf x1 x2 x3 t) := by
  refine Keeps.step ?_ hs h
  unfold jnlHalf
  try dsimp only
  repeat' with_reducible (first
    | exact Keeps.refl _ _ | assumption | decide | apply setCore_keeps | apply Keeps.ite
    | (fail_if_no_progress refine Keeps.upd ?_ rfl (by intro p hp; cases p <;> first | (exact absurd hp (by decide)) | rfl)) | split)

theorem memDone_keeps {ps : List Area} {s t : State} (h : Keeps ps s t)
    (hs : ([.dbg] : List Area).all (fun p => ps.contains p) = true) : Keeps ps s (memDone t) := by
  refine Keeps.step ?_ hs h
  unfold memDone
  try dsimp only
  repeat' with_reducible (first
    | exact Keeps.refl _ _ | assumption | decide | apply setAck_keeps | apply Keeps.ite
    | (fail_if_no_progress refine Keeps.upd ?_ rfl (by intro p hp; cases p <;> first | (exact absurd hp (by decide)) | rfl)) | split)

end Sys2Proof.Machine
end

