-- ==== Sys2Proof/Laws/KeepsExec.lean ====
section
/-! SUPPORT. What each command leaves as it was, one lemma per command. -/

set_option linter.unusedTactic false
set_option linter.unreachableTactic false

namespace Sys2Proof.Machine

theorem execBar2BadAccess_keeps {t u : State} {x1 : Bool} (e : execBar2BadAccess x1 t = .next u) : Keeps [.rdata, .flt] t u := by
  unfold execBar2BadAccess at e
  injection e with e
  subst e
  repeat' with_reducible (first | exact Keeps.refl _ _ | assumption | decide | apply badAccess_keeps | apply Keeps.ite | split)

theorem execBar0BadAccess_keeps {t u : State} {x1 : Bool} (e : execBar0BadAccess x1 t = .next u) : Keeps [.rdata, .flt] t u := by
  unfold execBar0BadAccess at e
  injection e with e
  subst e
  repeat' with_reducible (first | exact Keeps.refl _ _ | assumption | decide | apply badAccess_keeps | apply Keeps.ite | split)

theorem execHstRingCfgWrite_keeps {t u : State} {x1 : Bus} {x2 : Fin 10} {x3 : U32} (e : execHstRingCfgWrite x1 x2 x3 t = .next u) : Keeps
    [.regs, .hst, .grn] t u := by
  unfold execHstRingCfgWrite at e
  refine guardWrite_next (Keeps.refl _ _) ?_ e
  repeat' with_reducible (first | exact Keeps.refl _ _ | assumption | decide | apply ringCfgWrite_keeps | apply Keeps.ite | split)

theorem execFetchComplete_keeps {t u : State} {x1 : Fin 4} {x2 : Bytes} (e : execFetchComplete x1 x2 t = .next u) : Keeps [.hst, .tly] t u
    := by
  unfold execFetchComplete at e
  injection e with e
  subst e
  repeat' with_reducible (first | exact Keeps.refl _ _ | assumption | decide | apply fetchDone_keeps | apply Keeps.ite | split)

theorem execFetchFail_keeps {t u : State} {x1 : Fin 4} {x2 : Fin 3} (e : execFetchFail x1 x2 t = .next u) : Keeps [.regs, .hst, .flt] t u
    := by
  unfold execFetchFail at e
  injection e with e
  subst e
  repeat' with_reducible (first | exact Keeps.refl _ _ | assumption | decide | apply fetchFail_keeps | apply Keeps.ite | split)

theorem execFetchTimeout_keeps {t u : State} {x1 : Fin 4} (e : execFetchTimeout x1 t = .next u) : Keeps [.regs, .hst, .flt] t u := by
  unfold execFetchTimeout at e
  injection e with e
  subst e
  repeat' with_reducible (first | exact Keeps.refl _ _ | assumption | decide | apply fetchFail_keeps | apply Keeps.ite | split)

theorem execHstRestartWrite_keeps {t u : State} {x1 : Bus} {x2 : U32} (e : execHstRestartWrite x1 x2 t = .next u) : Keeps [.hst] t u := by
  unfold execHstRestartWrite at e
  refine guardWrite_next (Keeps.refl _ _) ?_ e
  repeat' with_reducible (first | exact Keeps.refl _ _ | assumption | decide | apply hstRestart_keeps | apply Keeps.ite | split)

theorem execCompletionWrite_keeps {t u : State} {x1 : Fin 4} (e : execCompletionWrite x1 t = .next u) : Keeps [.regs, .dma, .hst, .aut,
    .tly] t u := by
  unfold execCompletionWrite at e
  injection e with e
  subst e
  repeat' with_reducible (first | exact Keeps.refl _ _ | assumption | decide | apply completionWrite_keeps | apply Keeps.ite | split)

theorem execEventWrite_keeps {t u : State}  (e : execEventWrite t = .next u) : Keeps [.regs, .dma, .hst, .tly] t u := by
  unfold execEventWrite at e
  injection e with e
  subst e
  repeat' with_reducible (first | exact Keeps.refl _ _ | assumption | decide | apply eventWrite_keeps | apply Keeps.ite | split)

theorem execIndexBlockWrite_keeps {t u : State}  (e : execIndexBlockWrite t = .next u) : Keeps [.dma, .hst, .tly] t u := by
  unfold execIndexBlockWrite at e
  injection e with e
  subst e
  repeat' with_reducible (first | exact Keeps.refl _ _ | assumption | decide | apply indexBlockWrite_keeps | apply Keeps.ite | split)

theorem execLinkUp_keeps {t u : State} {x1 : Fin 4} {x2 : Fin 4} (e : execLinkUp x1 x2 t = .next u) : Keeps [.regs, .hst, .flt] t u := by
  unfold execLinkUp at e
  injection e with e
  subst e
  repeat' with_reducible (first | exact Keeps.refl _ _ | assumption | decide | apply linkUp_keeps | apply Keeps.ite | split)

theorem execSampleBufferClear_keeps {t u : State} {x1 : Fin 16} {x2 : BitVec 3} (e : execSampleBufferClear x1 x2 t = .next u) : Keeps
    [.tly] t u := by
  unfold execSampleBufferClear at e
  injection e with e
  subst e
  repeat' with_reducible (first | exact Keeps.refl _ _ | assumption | decide | apply smplWrite_keeps | apply Keeps.ite | split)

theorem execTlyDevCfgWrite_keeps {t u : State} {x1 : Bus} {x2 : Fin 8} {x3 : U32} (e : execTlyDevCfgWrite x1 x2 x3 t = .next u) : Keeps
    [.regs, .tly] t u := by
  unfold execTlyDevCfgWrite at e
  refine guardWrite_next (Keeps.refl _ _) ?_ e
  repeat' with_reducible (first | exact Keeps.refl _ _ | assumption | decide | apply devCfgWrite_keeps | apply Keeps.ite | split)

theorem execIntClaim_keeps {t u : State} {x1 : Fin 16} (e : execIntClaim x1 t = .next u) : Keeps [.regs, .rdata, .dma, .freeCtr, .flt,
    .ints, .cores, .tly] t u := by
  unfold execIntClaim at e
  injection e with e
  subst e
  repeat' with_reducible (first | exact Keeps.refl _ _ | assumption | decide | apply claim_keeps | apply Keeps.ite | split)

theorem execIntComplete_keeps {t u : State} {x1 : Fin 16} {x2 : U64} (e : execIntComplete x1 x2 t = .next u) : Keeps [.regs, .flt, .ints,
    .cores] t u := by
  unfold execIntComplete at e
  injection e with e
  subst e
  repeat' with_reducible (first | exact Keeps.refl _ _ | assumption | decide | apply complete_keeps | apply Keeps.ite | split)

theorem execIntSourceEvent_keeps {t u : State} {x1 : Fin 16} {x2 : Fin 1088} (e : execIntSourceEvent x1 x2 t = .next u) : Keeps [.regs,
    .flt, .ints, .cores] t u := by
  unfold execIntSourceEvent at e
  injection e with e
  subst e
  repeat' with_reducible (first | exact Keeps.refl _ _ | assumption | decide | apply sourceEvent_keeps | apply Keeps.ite | split)

theorem execModHoldExpire_keeps {t u : State} {x1 : Fin 16} {x2 : Fin 1088} (e : execModHoldExpire x1 x2 t = .next u) : Keeps [.tick,
    .ints, .cores, .tly] t u := by
  unfold execModHoldExpire at e
  injection e with e
  subst e
  repeat' with_reducible (first | exact Keeps.refl _ _ | assumption | decide | apply holdExpire_keeps | apply Keeps.ite | split)

theorem execGxtimecmpWrite_keeps {t u : State} {x1 : Fin 16} {x2 : U64} (e : execGxtimecmpWrite x1 x2 t = .next u) : Keeps [.cores] t u :=
    by
  unfold execGxtimecmpWrite at e
  injection e with e
  subst e
  repeat' with_reducible (first | exact Keeps.refl _ _ | assumption | decide | apply timecmpWrite_keeps | apply Keeps.ite | split)

theorem execTimerExpire_keeps {t u : State} {x1 : Fin 16} (e : execTimerExpire x1 t = .next u) : Keeps [.tick, .cores, .tly] t u := by
  unfold execTimerExpire at e
  injection e with e
  subst e
  repeat' with_reducible (first
    | exact Keeps.refl _ _ | assumption | decide | apply latchCore_keeps | apply advanceTo_keeps | apply Keeps.ite | split)

theorem execGxlsetWrite_keeps {t u : State} {x1 : Fin 16} {x2 : U64} (e : execGxlsetWrite x1 x2 t = .next u) : Keeps [.regs, .flt, .ints,
    .cores] t u := by
  unfold execGxlsetWrite at e
  injection e with e
  subst e
  repeat' with_reducible (first | exact Keeps.refl _ _ | assumption | decide | apply lset_keeps | apply Keeps.ite | split)

theorem execIntSsetWrite_keeps {t u : State} {x1 : Bus} {x2 : U32} (e : execIntSsetWrite x1 x2 t = .next u) : Keeps [.regs, .flt, .ints,
    .cores] t u := by
  unfold execIntSsetWrite at e
  refine coreOnlyWrite_next (Keeps.refl _ _) ?_ e
  repeat' with_reducible (first | exact Keeps.refl _ _ | assumption | decide | apply sset_keeps | apply Keeps.ite | split)

theorem execIntSwiWrite_keeps {t u : State} {x1 : Bus} {x2 : U32} (e : execIntSwiWrite x1 x2 t = .next u) : Keeps [.regs, .flt, .ints,
    .cores] t u := by
  unfold execIntSwiWrite at e
  refine coreOnlyWrite_next (Keeps.refl _ _) ?_ e
  repeat' with_reducible (first | exact Keeps.refl _ _ | assumption | decide | apply swi_keeps | apply Keeps.ite | split)

theorem execWfi_keeps {t u : State} {x1 : Fin 16} (e : execWfi x1 t = .next u) : Keeps [.ints, .cores] t u := by
  unfold execWfi at e
  injection e with e
  subst e
  repeat' with_reducible (first | exact Keeps.refl _ _ | assumption | decide | apply wfi_keeps | apply Keeps.ite | split)

theorem execCoreWake_keeps {t u : State} {x1 : Fin 16} (e : execCoreWake x1 t = .next u) :
    Keeps [.regs, .dma, .freeCtr, .flt, .ints, .cores, .tly] t u := by
  unfold execCoreWake at e
  injection e with e
  subst e
  repeat' with_reducible (first | exact Keeps.refl _ _ | assumption | decide | apply coreWake_keeps | apply Keeps.ite | split)

theorem execTskAlloc_keeps {t u : State} {x1 : Fin 16} {x2 : Fin 64} {x3 : U32} {x4 : U32} (e : execTskAlloc x1 x2 x3 x4 t = .next u) :
    Keeps [.regs, .flt, .tsk] t u := by
  unfold execTskAlloc at e
  injection e with e
  subst e
  repeat' with_reducible (first
    | exact Keeps.refl _ _ | assumption | decide | apply opAlloc_keeps | apply withArg_keeps | apply Keeps.ite
    | (fail_if_no_progress refine Keeps.upd ?_ rfl (by intro p hp; cases p <;> first | (exact absurd hp (by decide)) | rfl)) | split)

theorem execTskFree_keeps {t u : State} {x1 : Fin 16} {x2 : Fin 4096} (e : execTskFree x1 x2 t = .next u) : Keeps [.regs, .flt, .tsk] t u
    := by
  unfold execTskFree at e
  injection e with e
  subst e
  repeat' with_reducible (first | exact Keeps.refl _ _ | assumption | decide | apply opFree_keeps | apply Keeps.ite | split)

theorem execTskWake_keeps {t u : State} {x1 : Fin 16} {x2 : Fin 4096} (e : execTskWake x1 x2 t = .next u) : Keeps [.regs, .flt, .ints,
    .cores, .tsk] t u := by
  unfold execTskWake at e
  injection e with e
  subst e
  repeat' with_reducible (first | exact Keeps.refl _ _ | assumption | decide | apply opWake_keeps | apply Keeps.ite | split)

theorem execTskSwitch_keeps {t u : State} {x1 : Fin 16} {x2 : Fin 4} {x3 : Option (Fin 4096)} (e : execTskSwitch x1 x2 x3 t = .next u) :
    Keeps [.regs, .flt, .ints, .cores, .tsk] t u := by
  unfold execTskSwitch at e
  injection e with e
  subst e
  repeat' with_reducible (first
    | exact Keeps.refl _ _ | assumption | decide | apply opSwitch_keeps | apply tcbBad_keeps | apply Keeps.ite | split)

theorem execTskNext_keeps {t u : State} {x1 : Fin 16} {x2 : Option (Fin 4096)} (e : execTskNext x1 x2 t = .next u) : Keeps [.regs, .flt,
    .tsk] t u := by
  unfold execTskNext at e
  injection e with e
  subst e
  repeat' with_reducible (first
    | exact Keeps.refl _ _ | assumption | decide | apply opNext_keeps | apply tcbBad_keeps | apply Keeps.ite | split)

theorem execTskSetPrio_keeps {t u : State} {x1 : Fin 16} {x2 : Fin 4096} {x3 : Fin 64} (e : execTskSetPrio x1 x2 x3 t = .next u) : Keeps
    [.regs, .flt, .ints, .cores, .tsk] t u := by
  unfold execTskSetPrio at e
  injection e with e
  subst e
  repeat' with_reducible (first | exact Keeps.refl _ _ | assumption | decide | apply opSetPrio_keeps | apply Keeps.ite | split)

theorem execTskSetAff_keeps {t u : State} {x1 : Fin 16} {x2 : Fin 4096} {x3 : U32} (e : execTskSetAff x1 x2 x3 t = .next u) : Keeps [.regs,
    .flt, .tsk] t u := by
  unfold execTskSetAff at e
  injection e with e
  subst e
  repeat' with_reducible (first
    | exact Keeps.refl _ _ | assumption | decide | apply opSetAff_keeps | apply withArg_keeps | apply Keeps.ite
    | (fail_if_no_progress refine Keeps.upd ?_ rfl (by intro p hp; cases p <;> first | (exact absurd hp (by decide)) | rfl)) | split)

theorem execTskTake_keeps {t u : State} {x1 : Fin 16} (e : execTskTake x1 t = .next u) : Keeps [.tsk] t u := by
  unfold execTskTake at e
  injection e with e
  subst e
  repeat' with_reducible (first | exact Keeps.refl _ _ | assumption | decide | apply opTake_keeps | apply Keeps.ite | split)

theorem execTskRelease_keeps {t u : State} {x1 : Fin 16} {x2 : Fin 4096} {x3 : Fin 4} {x4 : U32} {x5 : U32} (e : execTskRelease x1 x2 x3 x4
    x5 t = .next u) : Keeps [.regs, .flt, .tsk] t u := by
  unfold execTskRelease at e
  injection e with e
  subst e
  repeat' with_reducible (first
    | exact Keeps.refl _ _ | assumption | decide | apply opRelease_keeps | apply withArg_keeps | apply Keeps.ite
    | (fail_if_no_progress refine Keeps.upd ?_ rfl (by intro p hp; cases p <;> first | (exact absurd hp (by decide)) | rfl)) | split)

theorem execTskTokenHi_keeps {t u : State} {x1 : Fin 16} {x2 : Fin 4096} (e : execTskTokenHi x1 x2 t = .next u) : Keeps [.tsk] t u := by
  unfold execTskTokenHi at e
  injection e with e
  subst e
  repeat' with_reducible (first | exact Keeps.refl _ _ | assumption | decide | apply opTokenHi_keeps | apply Keeps.ite | split)

theorem execTskBadOp_keeps {t u : State} {x1 : Fin 16} {x2 : Fin 16} {x3 : Fin 4096} (e : execTskBadOp x1 x2 x3 t = .next u) : Keeps
    [.regs, .flt, .ints, .cores, .tsk] t u := by
  unfold execTskBadOp at e
  injection e with e
  subst e
  repeat' with_reducible (first | exact Keeps.refl _ _ | assumption | decide | apply tskOp_keeps | apply Keeps.ite | split)

theorem execRelTimeout_keeps {t u : State} {x1 : Fin 1024} (e : execRelTimeout x1 t = .next u) : Keeps [.tick, .regs, .flt, .tsk, .tly] t u
    := by
  unfold execRelTimeout at e
  injection e with e
  subst e
  repeat' with_reducible (first | exact Keeps.refl _ _ | assumption | decide | apply relTimeout_keeps | apply Keeps.ite | split)

theorem execEnvelopeVerify_keeps {t u : State}  (e : execEnvelopeVerify t = .next u) : Keeps [.regs, .hst, .flt, .aut, .cmd, .ints, .cores,
    .tsk, .tly] t u := by
  unfold execEnvelopeVerify at e
  injection e with e
  subst e
  repeat' with_reducible (first | exact Keeps.refl _ _ | assumption | decide | apply envelopeVerify_keeps | apply Keeps.ite | split)

theorem execSessionOpenVerify_keeps {t u : State}  (e : execSessionOpenVerify t = .next u) : Keeps [.regs, .freeCtr, .hst, .flt, .aut,
    .tly] t u := by
  unfold execSessionOpenVerify at e
  injection e with e
  subst e
  repeat' with_reducible (first | exact Keeps.refl _ _ | assumption | decide | apply sessionOpenVerify_keeps | apply Keeps.ite | split)

theorem execFirmwareEnvelopeVerify_keeps {t u : State}  (e : execFirmwareEnvelopeVerify t = .next u) : Keeps [.regs, .hst, .flt, .aut,
    .cmd, .ints, .cores, .tsk, .tly] t u := by
  unfold execFirmwareEnvelopeVerify at e
  injection e with e
  subst e
  repeat' with_reducible (first | exact Keeps.refl _ _ | assumption | decide | apply firmwareVerify_keeps | apply Keeps.ite | split)

theorem execSessionExpire_keeps {t u : State} {x1 : Fin 16} (e : execSessionExpire x1 t = .next u) : Keeps [.regs, .std, .aut] t u := by
  unfold execSessionExpire at e
  injection e with e
  subst e
  repeat' with_reducible (first | exact Keeps.refl _ _ | assumption | decide | apply sessionExpire_keeps | apply Keeps.ite | split)

theorem execAkeyCommitWrite_keeps {t u : State} {x1 : Bus} {x2 : U32} (e : execAkeyCommitWrite x1 x2 t = .next u) : Keeps [.aut] t u := by
  unfold execAkeyCommitWrite at e
  refine guardWrite_next (Keeps.refl _ _) ?_ e
  repeat' with_reducible (first | exact Keeps.refl _ _ | assumption | decide | apply akeyCommit_keeps | apply Keeps.ite | split)

theorem execKeyInstallComplete_keeps {t u : State} {x1 : Bool} (e : execKeyInstallComplete x1 t = .next u) : Keeps [.std, .aut] t u := by
  unfold execKeyInstallComplete at e
  injection e with e
  subst e
  repeat' with_reducible (first | exact Keeps.refl _ _ | assumption | decide | apply installDone_keeps | apply Keeps.ite | split)

theorem execVbatLoss_keeps {t u : State}  (e : execVbatLoss t = .next u) : Keeps [.freeCtr, .std] t u := by
  unfold execVbatLoss at e
  injection e with e
  subst e
  repeat' with_reducible (first | exact Keeps.refl _ _ | assumption | decide | apply vbatLoss_keeps | apply Keeps.ite | split)

theorem execVaultIntegrityFail_keeps {t u : State}  (e : execVaultIntegrityFail t = .next u) : Keeps [.regs, .std, .flt, .aut] t u := by
  unfold execVaultIntegrityFail at e
  injection e with e
  subst e
  repeat' with_reducible (first
    | exact Keeps.refl _ _ | assumption | decide | apply report_keeps | apply setEvt_keeps | apply vaultEnter_keeps | apply Keeps.ite
    | split)

theorem execSnareRecordWrite_keeps {t u : State}  (e : execSnareRecordWrite t = .next u) : Keeps [.regs, .dma, .flt, .snr, .tly] t u := by
  unfold execSnareRecordWrite at e
  injection e with e
  subst e
  repeat' with_reducible (first | exact Keeps.refl _ _ | assumption | decide | apply snareRecordWrite_keeps | apply Keeps.ite | split)

theorem execSnareGap_keeps {t u : State}  (e : execSnareGap t = .next u) : Keeps [.tick, .regs, .dma, .flt, .snr, .tly] t u := by
  unfold execSnareGap at e
  injection e with e
  subst e
  repeat' with_reducible (first | exact Keeps.refl _ _ | assumption | decide | apply snareGap_keeps | apply Keeps.ite | split)

theorem execSnarePostEnd_keeps {t u : State}  (e : execSnarePostEnd t = .next u) : Keeps [.tick, .regs, .dma, .flt, .snr, .tly] t u := by
  unfold execSnarePostEnd at e
  injection e with e
  subst e
  repeat' with_reducible (first | exact Keeps.refl _ _ | assumption | decide | apply snarePostEnd_keeps | apply Keeps.ite | split)

theorem execSnareDumpDone_keeps {t u : State} {x1 : List Nat} (e : execSnareDumpDone x1 t = .next u) : Keeps [.regs, .dma, .flt, .snr,
    .tly] t u := by
  unfold execSnareDumpDone at e
  injection e with e
  subst e
  repeat' with_reducible (first | exact Keeps.refl _ _ | assumption | decide | apply snareDumpDone_keeps | apply Keeps.ite | split)

theorem execSnareRearmEnd_keeps {t u : State}  (e : execSnareRearmEnd t = .next u) : Keeps [.tick, .regs, .snr, .tly] t u := by
  unfold execSnareRearmEnd at e
  injection e with e
  subst e
  repeat' with_reducible (first | exact Keeps.refl _ _ | assumption | decide | apply snareRearmEnd_keeps | apply Keeps.ite | split)

theorem execSnrSwWrite_keeps {t u : State} {x1 : Bus} {x2 : U32} (e : execSnrSwWrite x1 x2 t = .next u) : Keeps [.regs, .flt, .snr] t u :=
    by
  unfold execSnrSwWrite at e
  refine coreOnlyWrite_next (Keeps.refl _ _) ?_ e
  repeat' with_reducible (first | exact Keeps.refl _ _ | assumption | decide | apply swRecord_keeps | apply Keeps.ite | split)

theorem execTrigLineAssert_keeps {t u : State} {x1 : Fin 4} (e : execTrigLineAssert x1 t = .next u) : Keeps [.regs, .flt, .snr] t u := by
  unfold execTrigLineAssert at e
  injection e with e
  subst e
  repeat' with_reducible (first | exact Keeps.refl _ _ | assumption | decide | apply trigAssert_keeps | apply Keeps.ite | split)

theorem execTrigLineRelease_keeps {t u : State} {x1 : Fin 4} (e : execTrigLineRelease x1 t = .next u) : Keeps [.regs, .flt, .snr] t u := by
  unfold execTrigLineRelease at e
  injection e with e
  subst e
  repeat' with_reducible (first | exact Keeps.refl _ _ | assumption | decide | apply trigRelease_keeps | apply Keeps.ite | split)

theorem execTrigOutRelease_keeps {t u : State}  (e : execTrigOutRelease t = .next u) : Keeps [.tick, .snr, .tly] t u := by
  unfold execTrigOutRelease at e
  injection e with e
  subst e
  repeat' with_reducible (first | exact Keeps.refl _ _ | assumption | decide | apply trigOutRelease_keeps | apply Keeps.ite | split)

theorem execEnginesDone_keeps {t u : State} {x1 : List Nat} (e : execEnginesDone x1 t = .next u) : Keeps [.tick, .regs, .flt, .ints,
    .cores, .lpe, .snr, .tly] t u := by
  unfold execEnginesDone at e
  injection e with e
  subst e
  repeat' with_reducible (first
    | exact Keeps.refl _ _ | assumption | decide | apply snareEval_keeps | apply enginesDone_keeps | apply Keeps.ite | split)

theorem execLoopDeadlineMiss_keeps {t u : State} {x1 : Fin 8} (e : execLoopDeadlineMiss x1 t = .next u) : Keeps [.tick, .regs, .flt, .lpe,
    .snr, .tly] t u := by
  unfold execLoopDeadlineMiss at e
  injection e with e
  subst e
  repeat' with_reducible (first
    | exact Keeps.refl _ _ | assumption | decide | apply snareEval_keeps | apply loopDeadlineMiss_keeps | apply Keeps.ite | split)

theorem execLoopEccUncorr_keeps {t u : State} {x1 : Fin 128} {x2 : Fin 24} (e : execLoopEccUncorr x1 x2 t = .next u) : Keeps [.regs,
    .freeCtr, .flt, .lpe, .snr] t u := by
  unfold execLoopEccUncorr at e
  injection e with e
  subst e
  repeat' with_reducible (first
    | exact Keeps.refl _ _ | assumption | decide | apply snareEval_keeps | apply loopEcc_keeps | apply Keeps.ite | split)

theorem execLpeSrcWrite_keeps {t u : State} {x1 : Bus} {x2 : Fin 128} {x3 : Bool} {x4 : U32} (e : execLpeSrcWrite x1 x2 x3 x4 t = .next u)
    : Keeps [.regs] t u := by
  unfold execLpeSrcWrite at e
  refine guardWrite_next (Keeps.refl _ _) ?_ e
  repeat' with_reducible (first | exact Keeps.refl _ _ | assumption | decide | apply srcWrite_keeps | apply Keeps.ite | split)

theorem execLpeDstWrite_keeps {t u : State} {x1 : Bus} {x2 : Fin 128} {x3 : U32} (e : execLpeDstWrite x1 x2 x3 t = .next u) : Keeps [.regs]
    t u := by
  unfold execLpeDstWrite at e
  refine guardWrite_next (Keeps.refl _ _) ?_ e
  repeat' with_reducible (first | exact Keeps.refl _ _ | assumption | decide | apply dstWrite_keeps | apply Keeps.ite | split)

theorem execLpeCapArm_keeps {t u : State} {x1 : Bus} {x2 : U32} (e : execLpeCapArm x1 x2 t = .next u) : Keeps [.regs, .lpe] t u := by
  unfold execLpeCapArm at e
  refine guardWrite_next (Keeps.refl _ _) ?_ e
  repeat' with_reducible (first | exact Keeps.refl _ _ | assumption | decide | apply capWrite_keeps | apply Keeps.ite | split)

theorem execAfeSeqGo_keeps {t u : State} {x1 : Bus} {x2 : U32} (e : execAfeSeqGo x1 x2 t = .next u) : Keeps [.regs, .afe] t u := by
  unfold execAfeSeqGo at e
  refine guardWrite_next (Keeps.refl _ _) ?_ e
  repeat' with_reducible (first | exact Keeps.refl _ _ | assumption | decide | apply seqGo_keeps | apply Keeps.ite | split)

theorem execAfeSeqModeWrite_keeps {t u : State} {x1 : Bus} {x2 : Fin 4} {x3 : U32} (e : execAfeSeqModeWrite x1 x2 x3 t = .next u) : Keeps
    [.regs, .afe] t u := by
  unfold execAfeSeqModeWrite at e
  refine guardWrite_next (Keeps.refl _ _) ?_ e
  repeat' with_reducible (first | exact Keeps.refl _ _ | assumption | decide | apply seqModeWrite_keeps | apply Keeps.ite | split)

theorem execAfeChCfgWrite_keeps {t u : State} {x1 : Bus} {x2 : Fin 32} {x3 : U32} (e : execAfeChCfgWrite x1 x2 x3 t = .next u) : Keeps
    [.regs, .afe] t u := by
  unfold execAfeChCfgWrite at e
  refine guardWrite_next (Keeps.refl _ _) ?_ e
  repeat' with_reducible (first | exact Keeps.refl _ _ | assumption | decide | apply chCfgWrite_keeps | apply Keeps.ite | split)

theorem execJournalWrite_keeps {t u : State}  (e : execJournalWrite t = .next u) : Keeps [.regs, .std, .grn] t u := by
  unfold execJournalWrite at e
  injection e with e
  subst e
  repeat' with_reducible (first | exact Keeps.refl _ _ | assumption | decide | apply journalWrite_keeps | apply Keeps.ite | split)

theorem execJnlReady_keeps {t u : State}  (e : execJnlReady t = .next u) : Keeps [.grn] t u := by
  unfold execJnlReady at e
  injection e with e
  subst e
  repeat' with_reducible (first | exact Keeps.refl _ _ | assumption | decide | apply jnlLocate_keeps | apply Keeps.ite | split)

theorem execHoldoverTimeout_keeps {t u : State}  (e : execHoldoverTimeout t = .next u) : Keeps [.tick, .regs, .freeCtr, .flt, .tim, .snr,
    .tly] t u := by
  unfold execHoldoverTimeout at e
  injection e with e
  subst e
  repeat' with_reducible (first
    | exact Keeps.refl _ _ | assumption | decide | apply snareEval_keeps | apply holdoverTimeout_keeps | apply Keeps.ite | split)

theorem execStepGuardEnd_keeps {t u : State}  (e : execStepGuardEnd t = .next u) : Keeps [.tick, .tim, .tly] t u := by
  unfold execStepGuardEnd at e
  injection e with e
  subst e
  repeat' with_reducible (first | exact Keeps.refl _ _ | assumption | decide | apply guardEnd_keeps | apply Keeps.ite | split)

theorem execEthFrameReceive_keeps {t u : State} {x1 : Fin 2} {x2 : Bool} {x3 : Bytes} (e : execEthFrameReceive x1 x2 x3 t = .next u) :
    Keeps [.regs, .flt, .tim] t u := by
  unfold execEthFrameReceive at e
  injection e with e
  subst e
  repeat' with_reducible (first | exact Keeps.refl _ _ | assumption | decide | apply ethReceive_keeps | apply Keeps.ite | split)

theorem execEthRxPop_keeps {t u : State} {x1 : Bus} {x2 : Fin 2} (e : execEthRxPop x1 x2 t = .next u) :
    Keeps [.regs, .rdata, .dma, .freeCtr, .flt, .ints, .cores, .tim, .tly] t u := by
  unfold execEthRxPop at e
  injection e with e
  subst e
  repeat' with_reducible (first | exact Keeps.refl _ _ | assumption | decide | apply busLoad_keeps | apply rxPop_keeps | apply Keeps.ite | split)

theorem execEthRxRel_keeps {t u : State} {x1 : Bus} {x2 : Fin 2} {x3 : U32} (e : execEthRxRel x1 x2 x3 t = .next u) : Keeps [.tim] t u := by
  unfold execEthRxRel at e
  refine guardWrite_next (Keeps.refl _ _) ?_ e
  repeat' with_reducible (first | exact Keeps.refl _ _ | assumption | decide | apply rxRel_keeps | apply Keeps.ite | split)

theorem execEthTxCtlWrite_keeps {t u : State} {x1 : Bus} {x2 : Fin 2} {x3 : U32} (e : execEthTxCtlWrite x1 x2 x3 t = .next u) : Keeps
    [.regs, .tim] t u := by
  unfold execEthTxCtlWrite at e
  refine guardWrite_next (Keeps.refl _ _) ?_ e
  repeat' with_reducible (first | exact Keeps.refl _ _ | assumption | decide | apply txCtl_keeps | apply Keeps.ite | split)

theorem execEthTxDone_keeps {t u : State} {x1 : Fin 2} (e : execEthTxDone x1 t = .next u) : Keeps [.regs, .flt, .tim] t u := by
  unfold execEthTxDone at e
  injection e with e
  subst e
  repeat' with_reducible (first | exact Keeps.refl _ _ | assumption | decide | apply txDone_keeps | apply Keeps.ite | split)

theorem execTxtsPop_keeps {t u : State} {x1 : Bus} {x2 : Fin 2} (e : execTxtsPop x1 x2 t = .next u) :
    Keeps [.regs, .rdata, .dma, .freeCtr, .flt, .ints, .cores, .tim, .tly] t u := by
  unfold execTxtsPop at e
  injection e with e
  subst e
  repeat' with_reducible (first | exact Keeps.refl _ _ | assumption | decide | apply busLoad_keeps | apply txtsPop_keeps | apply Keeps.ite | split)

theorem execEthLinkChange_keeps {t u : State} {x1 : Fin 2} {x2 : Bool} (e : execEthLinkChange x1 x2 t = .next u) : Keeps [.regs, .flt,
    .tim] t u := by
  unfold execEthLinkChange at e
  injection e with e
  subst e
  repeat' with_reducible (first | exact Keeps.refl _ _ | assumption | decide | apply ethLink_keeps | apply Keeps.ite | split)

theorem execFaultnPulseEnd_keeps {t u : State}  (e : execFaultnPulseEnd t = .next u) : Keeps [.tick, .flt, .tly] t u := by
  unfold execFaultnPulseEnd at e
  injection e with e
  subst e
  repeat' with_reducible (first | exact Keeps.refl _ _ | assumption | decide | apply faultnPulseEnd_keeps | apply Keeps.ite | split)

theorem execTocsinReport_keeps {t u : State} {x1 : Nat} (e : execTocsinReport x1 t = .next u) : Keeps [.regs, .hst, .flt, .cmd, .grn, .snr]
    t u := by
  unfold execTocsinReport at e
  injection e with e
  subst e
  repeat' with_reducible (first | exact Keeps.refl _ _ | assumption | decide | apply tocsinReport_keeps | apply Keeps.ite | split)

theorem execFltClearOne_keeps {t u : State} {x1 : Bus} {x2 : Fin 64} {x3 : Nat} (e : execFltClearOne x1 x2 x3 t = .next u) : Keeps [.regs,
    .hst, .flt, .cmd, .grn, .snr] t u := by
  unfold execFltClearOne at e
  refine guardWrite_next (Keeps.refl _ _) ?_ e
  repeat' with_reducible (first | exact Keeps.refl _ _ | assumption | decide | apply fltClear_keeps | apply Keeps.ite | split)

theorem execFltClearAll_keeps {t u : State} {x1 : Bus} {x2 : Nat} (e : execFltClearAll x1 x2 t = .next u) : Keeps [.regs, .hst, .flt, .cmd,
    .grn, .snr] t u := by
  unfold execFltClearAll at e
  refine guardWrite_next (Keeps.refl _ _) ?_ e
  repeat' with_reducible (first | exact Keeps.refl _ _ | assumption | decide | apply fltClear_keeps | apply Keeps.ite | split)

theorem execFltClearFirst_keeps {t u : State} {x1 : Bus} {x2 : Nat} (e : execFltClearFirst x1 x2 t = .next u) : Keeps [.regs, .hst, .flt,
    .cmd, .grn, .snr] t u := by
  unfold execFltClearFirst at e
  refine guardWrite_next (Keeps.refl _ _) ?_ e
  repeat' with_reducible (first | exact Keeps.refl _ _ | assumption | decide | apply fltClear_keeps | apply Keeps.ite | split)

theorem execFramePartReceive_keeps {t u : State} {x1 : Fin 64} {x2 : Lane} {x3 : Nat} {x4 : Nat} {x5 : List Block} (e :
    execFramePartReceive x1 x2 x3 x4 x5 t = .next u) : Keeps [.tick, .regs, .flt, .cmd, .ints, .cores, .fur, .snr, .tly] t u := by
  unfold execFramePartReceive at e
  injection e with e
  subst e
  repeat' with_reducible (first
    | exact Keeps.refl _ _ | assumption | decide | apply snareEval_keeps | apply framePart_keeps | apply Keeps.ite | split)

theorem execRxInputLoss_keeps {t u : State} {x1 : Fin 64} {x2 : Lane} {x3 : BitVec 32} (e : execRxInputLoss x1 x2 x3 t = .next u) : Keeps
    [.regs, .flt, .cmd, .ints, .cores, .fur, .grn, .snr] t u := by
  unfold execRxInputLoss at e
  injection e with e
  subst e
  repeat' with_reducible (first
    | exact Keeps.refl _ _ | assumption | decide | apply snareEval_keeps | apply inputLoss_keeps | apply Keeps.ite | split)

theorem execWrapAtReceive_keeps {t u : State} {x1 : Fin 64} {x2 : U8} {x3 : Bool} {x4 : BitVec 40} (e : execWrapAtReceive x1 x2 x3 x4 t =
    .next u) : Keeps [.regs, .flt, .cmd, .ints, .cores, .fur, .grn, .snr] t u := by
  unfold execWrapAtReceive at e
  injection e with e
  subst e
  repeat' with_reducible (first
    | exact Keeps.refl _ _ | assumption | decide | apply snareEval_keeps | apply wrapAt_keeps | apply Keeps.ite | split)

theorem execPdReqReceive_keeps {t u : State} {x1 : Fin 64} {x2 : Lane} {x3 : U8} {x4 : BitVec 24} (e : execPdReqReceive x1 x2 x3 x4 t =
    .next u) : Keeps [.fur] t u := by
  unfold execPdReqReceive at e
  injection e with e
  subst e
  repeat' with_reducible (first | exact Keeps.refl _ _ | assumption | decide | apply hopSend_keeps | apply Keeps.ite | split)

theorem execPdRespReceive_keeps {t u : State} {x1 : Fin 64} {x2 : Lane} {x3 : BitVec 24} {x4 : BitVec 24} (e : execPdRespReceive x1 x2 x3
    x4 t = .next u) : Keeps [.fur] t u := by
  unfold execPdRespReceive at e
  dsimp only at e
  injection e with e
  subst e
  repeat' with_reducible (first
    | exact Keeps.refl _ _ | assumption | decide | apply modRing_keeps | apply Keeps.ite | split
    | (fail_if_no_progress refine Keeps.upd ?_ rfl (by intro p hp; cases p <;> first | (exact absurd hp (by decide)) | rfl)))

theorem execTrainLock_keeps {t u : State} {x1 : Fin 64} {x2 : Bool} {x3 : Bool} (e : execTrainLock x1 x2 x3 t = .next u) : Keeps [.fur] t u
    := by
  unfold execTrainLock at e
  injection e with e
  subst e
  repeat' with_reducible (first | exact Keeps.refl _ _ | assumption | decide | apply trainLock_keeps | apply Keeps.ite | split)

theorem execTrainLockTimeout_keeps {t u : State} {x1 : Fin 64} (e : execTrainLockTimeout x1 t = .next u) : Keeps [.tick, .regs, .flt, .cmd,
    .ints, .cores, .fur, .snr, .tly] t u := by
  unfold execTrainLockTimeout at e
  injection e with e
  subst e
  repeat' with_reducible (first
    | exact Keeps.refl _ _ | assumption | decide | apply snareEval_keeps | apply trainLockTimeout_keeps | apply Keeps.ite | split)

theorem execDiscoverReturn_keeps {t u : State} {x1 : Fin 64} {x2 : DiscCopy} {x3 : DiscCopy} (e : execDiscoverReturn x1 x2 x3 t = .next u)
    : Keeps [.regs, .flt, .cmd, .ints, .cores, .fur, .snr] t u := by
  unfold execDiscoverReturn at e
  injection e with e
  subst e
  repeat' with_reducible (first
    | exact Keeps.refl _ _ | assumption | decide | apply snareEval_keeps | apply discoverReturn_keeps | apply Keeps.ite | split)

theorem execMeasureReturn_keeps {t u : State} {x1 : Fin 64} {x2 : Bool} {x3 : Nat} {x4 : List U64} (e : execMeasureReturn x1 x2 x3 x4 t =
    .next u) : Keeps [.regs, .flt, .cmd, .ints, .cores, .fur, .snr] t u := by
  unfold execMeasureReturn at e
  injection e with e
  subst e
  repeat' with_reducible (first
    | exact Keeps.refl _ _ | assumption | decide | apply snareEval_keeps | apply measureReturn_keeps | apply Keeps.ite | split)

theorem execHarrowSelectionDone_keeps {t u : State} {x1 : Fin 12} {x2 : Nat} (e : execHarrowSelectionDone x1 x2 t = .next u) : Keeps
    [.tick, .regs, .hrw, .tly] t u := by
  unfold execHarrowSelectionDone at e
  injection e with e
  subst e
  repeat' with_reducible (first | exact Keeps.refl _ _ | assumption | decide | apply selectionDone_keeps | apply Keeps.ite | split)

theorem execHarrowStart_keeps {t u : State}  (e : execHarrowStart t = .next u) : Keeps [.tick, .regs, .flt, .cmd, .hrw, .tly] t u := by
  unfold execHarrowStart at e
  injection e with e
  subst e
  repeat' with_reducible (first | exact Keeps.refl _ _ | assumption | decide | apply harrowStart_keeps | apply Keeps.ite | split)

theorem execCarrierZero_keeps {t u : State} {x1 : Fin 12} (e : execCarrierZero x1 t = .next u) : Keeps [.tick, .regs, .flt, .cmd, .ints,
    .cores, .hrw, .tly] t u := by
  unfold execCarrierZero at e
  injection e with e
  subst e
  repeat' with_reducible (first | exact Keeps.refl _ _ | assumption | decide | apply carrierZero_keeps | apply Keeps.ite | split)

theorem execCarrierApex_keeps {t u : State} {x1 : Fin 12} (e : execCarrierApex x1 t = .next u) : Keeps [.tick, .regs, .flt, .ints, .cores,
    .hrw, .tly] t u := by
  unfold execCarrierApex at e
  injection e with e
  subst e
  repeat' with_reducible (first | exact Keeps.refl _ _ | assumption | decide | apply carrierApex_keeps | apply Keeps.ite | split)

theorem execCarrierCmpEvent_keeps {t u : State} {x1 : Fin 12} (e : execCarrierCmpEvent x1 t = .next u) : Keeps [.tick, .regs, .flt, .ints,
    .cores, .hrw, .tly] t u := by
  unfold execCarrierCmpEvent at e
  injection e with e
  subst e
  repeat' with_reducible (first | exact Keeps.refl _ _ | assumption | decide | apply carrierCmp_keeps | apply Keeps.ite | split)

theorem execClapperCauseLatch_keeps {t u : State} {x1 : Fin 16} (e : execClapperCauseLatch x1 t = .next u) : Keeps [.regs, .flt, .cmd,
    .fur, .grn, .hrw, .prt, .snr, .stk] t u := by
  unfold execClapperCauseLatch at e
  injection e with e
  subst e
  repeat' with_reducible (first | exact Keeps.refl _ _ | assumption | decide | apply clapLatch_keeps | apply Keeps.ite | split)

theorem execClapperCauseClear_keeps {t u : State} {x1 : Fin 16} (e : execClapperCauseClear x1 t = .next u) : Keeps [.regs, .flt, .prt,
    .snr, .stk] t u := by
  unfold execClapperCauseClear at e
  injection e with e
  subst e
  repeat' with_reducible (first | exact Keeps.refl _ _ | assumption | decide | apply clapClear_keeps | apply Keeps.ite | split)

theorem execConfigCrcCheck_keeps {t u : State} {x1 : U32} (e : execConfigCrcCheck x1 t = .next u) : Keeps [.regs, .prt] t u := by
  unfold execConfigCrcCheck at e
  injection e with e
  subst e
  repeat' with_reducible (first | exact Keeps.refl _ _ | assumption | decide | apply crcCheck_keeps | apply Keeps.ite | split)

theorem execSpFailure_keeps {t u : State}  (e : execSpFailure t = .next u) : Keeps [.regs, .prt] t u := by
  unfold execSpFailure at e
  injection e with e
  subst e
  repeat' with_reducible (first | exact Keeps.refl _ _ | assumption | decide | apply spFailure_keeps | apply Keeps.ite | split)

theorem execHeartbeatWrite_keeps {t u : State} {x1 : U32} {x2 : U32} (e : execHeartbeatWrite x1 x2 t = .next u) : Keeps [.regs, .prt] t u
    := by
  unfold execHeartbeatWrite at e
  injection e with e
  subst e
  repeat' with_reducible (first | exact Keeps.refl _ _ | assumption | decide | apply heartbeat_keeps | apply Keeps.ite | split)

theorem execHeartbeatTimeout_keeps {t u : State}  (e : execHeartbeatTimeout t = .next u) : Keeps [.tick, .regs, .prt, .tly] t u := by
  unfold execHeartbeatTimeout at e
  injection e with e
  subst e
  repeat' with_reducible (first | exact Keeps.refl _ _ | assumption | decide | apply hbTimeout_keeps | apply Keeps.ite | split)

theorem execSpCmdWrite_keeps {t u : State} {x1 : U8} {x2 : U8} {x3 : Bool} (e : execSpCmdWrite x1 x2 x3 t = .next u) : Keeps [.regs, .flt,
    .cmd, .fur, .grn, .hrw, .prt, .snr, .stk] t u := by
  unfold execSpCmdWrite at e
  injection e with e
  subst e
  repeat' with_reducible (first | exact Keeps.refl _ _ | assumption | decide | apply spCmd_keeps | apply Keeps.ite | split)

theorem execCommitWatchdog_keeps {t u : State}  (e : execCommitWatchdog t = .next u) : Keeps [.regs, .flt, .cmd, .fur, .grn, .hrw, .prt,
    .snr, .stk] t u := by
  unfold execCommitWatchdog at e
  injection e with e
  subst e
  repeat' with_reducible (first | exact Keeps.refl _ _ | assumption | decide | apply commitWatchdog_keeps | apply Keeps.ite | split)

theorem execPermitEnable_keeps {t u : State} {x1 : Fin 8} (e : execPermitEnable x1 t = .next u) : Keeps [.tick, .regs, .flt, .prt, .snr,
    .stk, .tly] t u := by
  unfold execPermitEnable at e
  injection e with e
  subst e
  repeat' with_reducible (first | exact Keeps.refl _ _ | assumption | decide | apply permitEnable_keeps | apply Keeps.ite | split)

theorem execPermitCheckLDone_keeps {t u : State} {x1 : Fin 8} (e : execPermitCheckLDone x1 t = .next u) : Keeps [.tick, .regs, .flt, .prt,
    .snr, .stk, .tly] t u := by
  unfold execPermitCheckLDone at e
  injection e with e
  subst e
  repeat' with_reducible (first | exact Keeps.refl _ _ | assumption | decide | apply checkLDone_keeps | apply Keeps.ite | split)

theorem execPrbChange_keeps {t u : State} {x1 : Fin 8} {x2 : Bool} (e : execPrbChange x1 x2 t = .next u) : Keeps [.regs, .flt, .prt, .snr,
    .stk] t u := by
  unfold execPrbChange at e
  injection e with e
  subst e
  repeat' with_reducible (first | exact Keeps.refl _ _ | assumption | decide | apply prbChange_keeps | apply Keeps.ite | split)

theorem execPermitRetTimeout_keeps {t u : State} {x1 : Fin 8} (e : execPermitRetTimeout x1 t = .next u) : Keeps [.tick, .regs, .flt, .prt,
    .snr, .stk, .tly] t u := by
  unfold execPermitRetTimeout at e
  injection e with e
  subst e
  repeat' with_reducible (first | exact Keeps.refl _ _ | assumption | decide | apply retTimeout_keeps | apply Keeps.ite | split)

theorem execPermitOffChkExpire_keeps {t u : State} {x1 : Fin 8} (e : execPermitOffChkExpire x1 t = .next u) : Keeps [.tick, .regs, .flt,
    .prt, .snr, .stk, .tly] t u := by
  unfold execPermitOffChkExpire at e
  injection e with e
  subst e
  repeat' with_reducible (first | exact Keeps.refl _ _ | assumption | decide | apply offChkExpire_keeps | apply Keeps.ite | split)

theorem execOffPulseStart_keeps {t u : State} {x1 : Fin 8} (e : execOffPulseStart x1 t = .next u) : Keeps [.regs, .flt, .prt, .snr, .stk] t
    u := by
  unfold execOffPulseStart at e
  injection e with e
  subst e
  repeat' with_reducible (first | exact Keeps.refl _ _ | assumption | decide | apply offPulseStart_keeps | apply Keeps.ite | split)

theorem execOffPulseCheck_keeps {t u : State} {x1 : Fin 8} (e : execOffPulseCheck x1 t = .next u) : Keeps [.tick, .regs, .flt, .prt, .snr,
    .stk, .tly] t u := by
  unfold execOffPulseCheck at e
  injection e with e
  subst e
  repeat' with_reducible (first | exact Keeps.refl _ _ | assumption | decide | apply offPulseCheck_keeps | apply Keeps.ite | split)

theorem execOffPulseEnd_keeps {t u : State} {x1 : Fin 8} (e : execOffPulseEnd x1 t = .next u) : Keeps [.tick, .regs, .flt, .prt, .snr,
    .stk, .tly] t u := by
  unfold execOffPulseEnd at e
  injection e with e
  subst e
  repeat' with_reducible (first | exact Keeps.refl _ _ | assumption | decide | apply offPulseEnd_keeps | apply Keeps.ite | split)

theorem execAfeConversion_keeps {t u : State} {x1 : Fin 4} {x2 : BitVec 32} {x3 : Bool} (e : execAfeConversion x1 x2 x3 t = .next u) :
    Keeps [.tick, .regs, .flt, .ints, .cores, .afe, .snr, .tly] t u := by
  unfold execAfeConversion at e
  injection e with e
  subst e
  repeat' with_reducible (first | exact Keeps.refl _ _ | assumption | decide | apply afeConversion_keeps | apply Keeps.ite | split)

theorem execComparatorCrossing_keeps {t u : State} {x1 : Fin 8} (e : execComparatorCrossing x1 t = .next u) : Keeps [.regs, .flt, .cmd,
    .ints, .cores, .afe, .fur, .grn, .hrw, .prt, .snr, .stk] t u := by
  unfold execComparatorCrossing at e
  injection e with e
  subst e
  repeat' with_reducible (first | exact Keeps.refl _ _ | assumption | decide | apply comparatorCrossing_keeps | apply Keeps.ite | split)

theorem execComparatorRearm_keeps {t u : State} {x1 : Fin 8} (e : execComparatorRearm x1 t = .next u) : Keeps [.regs, .flt, .cmd, .afe,
    .fur, .grn, .hrw, .prt, .snr, .stk] t u := by
  unfold execComparatorRearm at e
  injection e with e
  subst e
  repeat' with_reducible (first | exact Keeps.refl _ _ | assumption | decide | apply comparatorRearm_keeps | apply Keeps.ite | split)

theorem execPublicationComplete_keeps {t u : State} {x1 : Bool} (e : execPublicationComplete x1 t = .next u) : Keeps [.regs, .dma,
    .freeCtr, .hst, .flt, .grn, .tly] t u := by
  unfold execPublicationComplete at e
  injection e with e
  subst e
  repeat' with_reducible (first | exact Keeps.refl _ _ | assumption | decide | apply pubComplete_keeps | apply Keeps.ite | split)

theorem execPublicationAbandon_keeps {t u : State}  (e : execPublicationAbandon t = .next u) : Keeps [.regs, .dma, .freeCtr, .hst, .grn,
    .tly] t u := by
  unfold execPublicationAbandon at e
  injection e with e
  subst e
  repeat' with_reducible (first
    | exact Keeps.refl _ _ | assumption | decide | apply pubAbandon_keeps | apply Keeps.ite | split
    | (fail_if_no_progress refine Keeps.upd ?_ rfl (by intro p hp; cases p <;> first | (exact absurd hp (by decide)) | rfl)))

theorem execClosureDeadline_keeps {t u : State} {x1 : Fin 64} (e : execClosureDeadline x1 t = .next u) : Keeps [.tick, .regs, .tly] t u :=
    by
  unfold execClosureDeadline at e
  injection e with e
  subst e
  repeat' with_reducible (first | exact Keeps.refl _ _ | assumption | decide | apply closureDeadline_keeps | apply Keeps.ite | split)

theorem execEpochClose_keeps {t u : State} {x1 : Bool} {x2 : U32} {x3 : List SnapDesc} (e : execEpochClose x1 x2 x3 t = .next u) : Keeps
    [.regs, .dma, .flt, .cmd, .ints, .cores, .fur, .grn, .prt, .snr, .tly] t u := by
  unfold execEpochClose at e
  injection e with e
  subst e
  repeat' with_reducible (first | exact Keeps.refl _ _ | assumption | decide | apply epochClose_keeps | apply Keeps.ite | split)

theorem execEpochCommit_keeps {t u : State} {x1 : Fin 129} {x2 : List SnapDesc} (e : execEpochCommit x1 x2 t = .next u) : Keeps [.tick,
    .regs, .dma, .flt, .cmd, .ints, .cores, .fur, .grn, .hrw, .prt, .snr, .stk, .tly] t u := by
  unfold execEpochCommit at e
  injection e with e
  subst e
  repeat' with_reducible (first | exact Keeps.refl _ _ | assumption | decide | apply epochCommit_keeps | apply Keeps.ite | split)

theorem execEndpointFrameAccept_keeps {t u : State} {x1 : Fin 16384} {x2 : Lane} {x3 : U64} {x4 : U16} {x5 : U16} {x6 : U16} {x7 : Gap} {x8
    : List Block} (e : execEndpointFrameAccept x1 x2 x3 x4 x5 x6 x7 x8 t = .next u) : Keeps [.eps] t u := by
  unfold execEndpointFrameAccept at e
  injection e with e
  subst e
  repeat' with_reducible (first | exact Keeps.refl _ _ | assumption | decide | apply setEp_keeps | apply Keeps.ite | split)

theorem execEndpointDiscover_keeps {t u : State} {x1 : Fin 16384} {x2 : Lane} {x3 : U64} {x4 : U16} {x5 : U16} {x6 : U16} {x7 : EpMaint}
    {x8 : Gap} {x9 : List Block} (e : execEndpointDiscover x1 x2 x3 x4 x5 x6 x7 x8 x9 t = .next u) : Keeps [.eps] t u := by
  unfold execEndpointDiscover at e
  injection e with e
  subst e
  repeat' with_reducible (first | exact Keeps.refl _ _ | assumption | decide | apply setEp_keeps | apply Keeps.ite | split)

theorem execEndpointEffectInstant_keeps {t u : State} {x1 : Fin 16384} (e : execEndpointEffectInstant x1 t = .next u) : Keeps [.eps] t u :=
    by
  unfold execEndpointEffectInstant at e
  injection e with e
  subst e
  repeat' with_reducible (first | exact Keeps.refl _ _ | assumption | decide | apply setEp_keeps | apply Keeps.ite | split)

theorem execEndpointBlksymReceive_keeps {t u : State} {x1 : Fin 16384} {x2 : U64} {x3 : BitVec 56} {x4 : Bool} (e :
    execEndpointBlksymReceive x1 x2 x3 x4 t = .next u) : Keeps [.eps] t u := by
  unfold execEndpointBlksymReceive at e
  injection e with e
  subst e
  repeat' with_reducible (first | exact Keeps.refl _ _ | assumption | decide | apply setEp_keeps | apply Keeps.ite | split)

theorem execEndpointSelfBlock_keeps {t u : State} {x1 : Fin 16384} (e : execEndpointSelfBlock x1 t = .next u) : Keeps [.eps] t u := by
  unfold execEndpointSelfBlock at e
  injection e with e
  subst e
  repeat' with_reducible (first | exact Keeps.refl _ _ | assumption | decide | apply setEp_keeps | apply Keeps.ite | split)

theorem execEndpointLocalFault_keeps {t u : State} {x1 : Fin 16384} {x2 : U64} {x3 : U16} {x4 : Bool} {x5 : Bool} {x6 : Bool} (e :
    execEndpointLocalFault x1 x2 x3 x4 x5 x6 t = .next u) : Keeps [.eps] t u := by
  unfold execEndpointLocalFault at e
  injection e with e
  subst e
  repeat' with_reducible (first | exact Keeps.refl _ _ | assumption | decide | apply setEp_keeps | apply Keeps.ite | split)

theorem execEndpointFaultClear_keeps {t u : State} {x1 : Fin 16384} {x2 : U64} (e : execEndpointFaultClear x1 x2 t = .next u) : Keeps
    [.eps] t u := by
  unfold execEndpointFaultClear at e
  injection e with e
  subst e
  repeat' with_reducible (first | exact Keeps.refl _ _ | assumption | decide | apply setEp_keeps | apply Keeps.ite | split)

theorem execEndpointInputLoss_keeps {t u : State} {x1 : Fin 16384} {x2 : Lane} {x3 : U64} {x4 : BitVec 32} (e : execEndpointInputLoss x1 x2
    x3 x4 t = .next u) : Keeps [.eps] t u := by
  unfold execEndpointInputLoss at e
  injection e with e
  subst e
  repeat' with_reducible (first | exact Keeps.refl _ _ | assumption | decide | apply setEp_keeps | apply Keeps.ite | split)

theorem execEndpointUnloop_keeps {t u : State} {x1 : Fin 16384} {x2 : Lane} {x3 : Bool} {x4 : U64} (e : execEndpointUnloop x1 x2 x3 x4 t =
    .next u) : Keeps [.eps] t u := by
  unfold execEndpointUnloop at e
  injection e with e
  subst e
  repeat' with_reducible (first | exact Keeps.refl _ _ | assumption | decide | apply setEp_keeps | apply Keeps.ite | split)

theorem execStkClockLoss_keeps {t u : State} {x1 : Fin 2} (e : execStkClockLoss x1 t = .next u) : Keeps [.regs, .hst, .flt, .cmd, .lpe,
    .fur, .grn, .hrw, .prt, .snr, .stk] t u := by
  unfold execStkClockLoss at e
  injection e with e
  subst e
  repeat' with_reducible (first
    | exact Keeps.refl _ _ | assumption | decide | apply snareEval_keeps | apply clockLoss_keeps | apply Keeps.ite | split)

theorem execForwardedClockReturn_keeps {t u : State} {x1 : Fin 2} (e : execForwardedClockReturn x1 t = .next u) : Keeps [.regs, .flt, .snr,
    .stk] t u := by
  unfold execForwardedClockReturn at e
  injection e with e
  subst e
  repeat' with_reducible (first
    | exact Keeps.refl _ _ | assumption | decide | apply snareEval_keeps | apply readyStep_keeps | apply clockReturn_keeps
    | apply Keeps.ite | split)

theorem execFstartMiss_keeps {t u : State} {x1 : Fin 2} (e : execFstartMiss x1 t = .next u) : Keeps [.regs, .hst, .flt, .cmd, .lpe, .fur,
    .grn, .hrw, .prt, .snr, .stk] t u := by
  unfold execFstartMiss at e
  injection e with e
  subst e
  repeat' with_reducible (first
    | exact Keeps.refl _ _ | assumption | decide | apply snareEval_keeps | apply fstartMiss_keeps | apply Keeps.ite | split)

theorem execStkLaneLoss_keeps {t u : State} {x1 : Fin 2} {x2 : Fin 16} (e : execStkLaneLoss x1 x2 t = .next u) : Keeps [.regs, .hst, .flt,
    .cmd, .lpe, .fur, .grn, .hrw, .prt, .snr, .stk] t u := by
  unfold execStkLaneLoss at e
  injection e with e
  subst e
  repeat' with_reducible (first
    | exact Keeps.refl _ _ | assumption | decide | apply snareEval_keeps | apply laneLoss_keeps | apply Keeps.ite | split)

theorem execStkLaneLive_keeps {t u : State} {x1 : Fin 2} {x2 : Fin 16} {x3 : BitVec 3} {x4 : U8} (e : execStkLaneLive x1 x2 x3 x4 t = .next
    u) : Keeps [.regs, .flt, .snr, .stk] t u := by
  unfold execStkLaneLive at e
  injection e with e
  subst e
  repeat' with_reducible (first
    | exact Keeps.refl _ _ | assumption | decide | apply snareEval_keeps | apply readyStep_keeps | apply laneLive_keeps
    | apply Keeps.ite | split)

theorem execDlyReqReceive_keeps {t u : State} {x1 : Fin 2} {x2 : U8} {x3 : BitVec 24} (e : execDlyReqReceive x1 x2 x3 t = .next u) : Keeps
    [.stk] t u := by
  unfold execDlyReqReceive at e
  injection e with e
  subst e
  repeat' with_reducible (first
    | exact Keeps.refl _ _ | assumption | decide | apply setSport_keeps | apply Keeps.ite
    | (fail_if_no_progress refine Keeps.upd ?_ rfl (by intro p hp; cases p <;> first | (exact absurd hp (by decide)) | rfl)) | split)

theorem execDlyRespReceive_keeps {t u : State} {x1 : Fin 2} {x2 : BitVec 24} {x3 : BitVec 24} (e : execDlyRespReceive x1 x2 x3 t = .next u)
    : Keeps [.stk] t u := by
  unfold execDlyRespReceive at e
  injection e with e
  subst e
  repeat' with_reducible (first
    | exact Keeps.refl _ _ | assumption | decide | apply setSport_keeps | apply Keeps.ite
    | (fail_if_no_progress refine Keeps.upd ?_ rfl (by intro p hp; cases p <;> first | (exact absurd hp (by decide)) | rfl)) | split)

theorem execFstartReceive_keeps {t u : State} {x1 : Fin 2} {x2 : BitVec 40} {x3 : BitVec 2} {x4 : BitVec 2} {x5 : U8} (e :
    execFstartReceive x1 x2 x3 x4 x5 t = .next u) : Keeps [.tick, .regs, .hst, .flt, .cmd, .lpe, .fur, .grn, .hrw, .prt, .snr, .stk] t u :=
    by
  unfold execFstartReceive at e
  injection e with e
  subst e
  repeat' with_reducible (first
    | exact Keeps.refl _ _ | assumption | decide | apply snareEval_keeps | apply fstartReceive_keeps | apply Keeps.ite | split)

theorem execDecisionReceive_keeps {t u : State} {x1 : Fin 2} {x2 : U8} {x3 : U8} {x4 : U8} {x5 : Bool} (e : execDecisionReceive x1 x2 x3 x4
    x5 t = .next u) : Keeps [.regs, .flt, .cmd, .fur, .grn, .hrw, .prt, .snr, .stk] t u := by
  unfold execDecisionReceive at e
  injection e with e
  subst e
  repeat' with_reducible (first
    | exact Keeps.refl _ _ | assumption | decide | apply snareEval_keeps | apply decisionReceive_keeps | apply Keeps.ite | split)

theorem execHelloReceive_keeps {t u : State} {x1 : Fin 2} {x2 : U8} {x3 : U32} {x4 : BitVec 2} {x5 : BitVec 3} {x6 : U32} {x7 : U16}
    (e : execHelloReceive x1 x2 x3 x4 x5 x6 x7 t = .next u) : Keeps [.tick, .regs, .hst, .flt, .cmd, .lpe, .fur, .grn, .hrw, .prt, .snr, .stk] t u
    := by
  unfold execHelloReceive at e
  injection e with e
  subst e
  repeat' with_reducible (first
    | exact Keeps.refl _ _ | assumption | decide | apply snareEval_keeps | apply helloReceive_keeps | apply Keeps.ite | split)

theorem execRoleMasterTimer_keeps {t u : State}  (e : execRoleMasterTimer t = .next u) : Keeps [.tick, .regs, .flt, .snr, .stk, .tly] t u
    := by
  unfold execRoleMasterTimer at e
  injection e with e
  subst e
  repeat' with_reducible (first
    | exact Keeps.refl _ _ | assumption | decide | apply snareEval_keeps | apply roleMasterTimer_keeps | apply Keeps.ite | split)

theorem execBootWaitExpire_keeps {t u : State}  (e : execBootWaitExpire t = .next u) : Keeps [.tick, .regs, .flt, .snr, .stk] t u := by
  unfold execBootWaitExpire at e
  injection e with e
  subst e
  repeat' with_reducible (first
    | exact Keeps.refl _ _ | assumption | decide | apply snareEval_keeps | apply bootWaitExpire_keeps | apply Keeps.ite | split)

theorem execNop_keeps {t u : State} {x1 : CmdSrc} {x2 : Bytes} (e : execNop x1 x2 t = .next u) : Keeps [.regs, .sys, .std, .hst, .flt,
    .aut, .cmd, .ints, .cores, .tim, .fur, .grn, .prt, .snr, .stk] t u := by
  unfold execNop at e
  injection e with e
  subst e
  repeat' with_reducible (first | exact Keeps.refl _ _ | assumption | decide | apply cmdRow_keeps | apply Keeps.ite | split)

theorem execSessionClose_keeps {t u : State} {x1 : CmdSrc} {x2 : Bytes} (e : execSessionClose x1 x2 t = .next u) : Keeps [.regs, .sys,
    .std, .hst, .flt, .aut, .cmd, .ints, .cores, .tim, .fur, .grn, .prt, .snr, .stk] t u := by
  unfold execSessionClose at e
  injection e with e
  subst e
  repeat' with_reducible (first | exact Keeps.refl _ _ | assumption | decide | apply cmdRow_keeps | apply Keeps.ite | split)

theorem execSnapCfg_keeps {t u : State} {x1 : CmdSrc} {x2 : Bytes} (e : execSnapCfg x1 x2 t = .next u) : Keeps [.regs, .sys, .std, .hst,
    .flt, .aut, .cmd, .ints, .cores, .tim, .fur, .grn, .prt, .snr, .stk] t u := by
  unfold execSnapCfg at e
  injection e with e
  subst e
  repeat' with_reducible (first | exact Keeps.refl _ _ | assumption | decide | apply cmdRow_keeps | apply Keeps.ite | split)

theorem execSnareArm_keeps {t u : State} {x1 : CmdSrc} {x2 : Bytes} (e : execSnareArm x1 x2 t = .next u) : Keeps [.regs, .sys, .std, .hst,
    .flt, .aut, .cmd, .ints, .cores, .tim, .fur, .grn, .prt, .snr, .stk] t u := by
  unfold execSnareArm at e
  injection e with e
  subst e
  repeat' with_reducible (first | exact Keeps.refl _ _ | assumption | decide | apply cmdRow_keeps | apply Keeps.ite | split)

theorem execSetpoint_keeps {t u : State} {x1 : CmdSrc} {x2 : Bytes} (e : execSetpoint x1 x2 t = .next u) : Keeps [.regs, .sys, .std, .hst,
    .flt, .aut, .cmd, .ints, .cores, .tim, .fur, .grn, .prt, .snr, .stk] t u := by
  unfold execSetpoint at e
  injection e with e
  subst e
  repeat' with_reducible (first | exact Keeps.refl _ _ | assumption | decide | apply cmdRow_keeps | apply Keeps.ite | split)

theorem execBlock_keeps {t u : State} {x1 : CmdSrc} {x2 : Bytes} (e : execBlock x1 x2 t = .next u) : Keeps [.regs, .sys, .std, .hst, .flt,
    .aut, .cmd, .ints, .cores, .tim, .fur, .grn, .prt, .snr, .stk] t u := by
  unfold execBlock at e
  injection e with e
  subst e
  repeat' with_reducible (first | exact Keeps.refl _ _ | assumption | decide | apply cmdRow_keeps | apply Keeps.ite | split)

theorem execDeblock_keeps {t u : State} {x1 : CmdSrc} {x2 : Bytes} (e : execDeblock x1 x2 t = .next u) : Keeps [.regs, .sys, .std, .hst,
    .flt, .aut, .cmd, .ints, .cores, .tim, .fur, .grn, .prt, .snr, .stk] t u := by
  unfold execDeblock at e
  injection e with e
  subst e
  repeat' with_reducible (first | exact Keeps.refl _ _ | assumption | decide | apply cmdRow_keeps | apply Keeps.ite | split)

theorem execMode_keeps {t u : State} {x1 : CmdSrc} {x2 : Bytes} (e : execMode x1 x2 t = .next u) : Keeps [.regs, .sys, .std, .hst, .flt,
    .aut, .cmd, .ints, .cores, .tim, .fur, .grn, .prt, .snr, .stk] t u := by
  unfold execMode at e
  injection e with e
  subst e
  repeat' with_reducible (first | exact Keeps.refl _ _ | assumption | decide | apply cmdRow_keeps | apply Keeps.ite | split)

theorem execCellRetire_keeps {t u : State} {x1 : CmdSrc} {x2 : Bytes} (e : execCellRetire x1 x2 t = .next u) : Keeps [.regs, .sys, .std,
    .hst, .flt, .aut, .cmd, .ints, .cores, .tim, .fur, .grn, .prt, .snr, .stk] t u := by
  unfold execCellRetire at e
  injection e with e
  subst e
  repeat' with_reducible (first | exact Keeps.refl _ _ | assumption | decide | apply cmdRow_keeps | apply Keeps.ite | split)

theorem execCellRestore_keeps {t u : State} {x1 : CmdSrc} {x2 : Bytes} (e : execCellRestore x1 x2 t = .next u) : Keeps [.regs, .sys, .std,
    .hst, .flt, .aut, .cmd, .ints, .cores, .tim, .fur, .grn, .prt, .snr, .stk] t u := by
  unfold execCellRestore at e
  injection e with e
  subst e
  repeat' with_reducible (first | exact Keeps.refl _ _ | assumption | decide | apply cmdRow_keeps | apply Keeps.ite | split)

theorem execArmMap_keeps {t u : State} {x1 : CmdSrc} {x2 : Bytes} (e : execArmMap x1 x2 t = .next u) : Keeps [.regs, .sys, .std, .hst,
    .flt, .aut, .cmd, .ints, .cores, .tim, .fur, .grn, .prt, .snr, .stk] t u := by
  unfold execArmMap at e
  injection e with e
  subst e
  repeat' with_reducible (first | exact Keeps.refl _ _ | assumption | decide | apply cmdRow_keeps | apply Keeps.ite | split)

theorem execCoefWrite_keeps {t u : State} {x1 : CmdSrc} {x2 : Bytes} (e : execCoefWrite x1 x2 t = .next u) : Keeps [.regs, .sys, .std,
    .hst, .flt, .aut, .cmd, .ints, .cores, .tim, .fur, .grn, .prt, .snr, .stk] t u := by
  unfold execCoefWrite at e
  injection e with e
  subst e
  repeat' with_reducible (first | exact Keeps.refl _ _ | assumption | decide | apply cmdRow_keeps | apply Keeps.ite | split)

theorem execCarrierSet_keeps {t u : State} {x1 : CmdSrc} {x2 : Bytes} (e : execCarrierSet x1 x2 t = .next u) : Keeps [.regs, .sys, .std,
    .hst, .flt, .aut, .cmd, .ints, .cores, .tim, .fur, .grn, .prt, .snr, .stk] t u := by
  unfold execCarrierSet at e
  injection e with e
  subst e
  repeat' with_reducible (first | exact Keeps.refl _ _ | assumption | decide | apply cmdRow_keeps | apply Keeps.ite | split)

theorem execCalSet_keeps {t u : State} {x1 : CmdSrc} {x2 : Bytes} (e : execCalSet x1 x2 t = .next u) : Keeps [.regs, .sys, .std, .hst,
    .flt, .aut, .cmd, .ints, .cores, .tim, .fur, .grn, .prt, .snr, .stk] t u := by
  unfold execCalSet at e
  injection e with e
  subst e
  repeat' with_reducible (first | exact Keeps.refl _ _ | assumption | decide | apply cmdRow_keeps | apply Keeps.ite | split)

theorem execRingCtl_keeps {t u : State} {x1 : CmdSrc} {x2 : Bytes} (e : execRingCtl x1 x2 t = .next u) : Keeps [.regs, .sys, .std, .hst,
    .flt, .aut, .cmd, .ints, .cores, .tim, .fur, .grn, .prt, .snr, .stk] t u := by
  unfold execRingCtl at e
  injection e with e
  subst e
  repeat' with_reducible (first | exact Keeps.refl _ _ | assumption | decide | apply cmdRow_keeps | apply Keeps.ite | split)

theorem execTimeAccept_keeps {t u : State} {x1 : CmdSrc} {x2 : Bytes} (e : execTimeAccept x1 x2 t = .next u) : Keeps [.regs, .sys, .std,
    .hst, .flt, .aut, .cmd, .ints, .cores, .tim, .fur, .grn, .prt, .snr, .stk] t u := by
  unfold execTimeAccept at e
  injection e with e
  subst e
  repeat' with_reducible (first | exact Keeps.refl _ _ | assumption | decide | apply cmdRow_keeps | apply Keeps.ite | split)

theorem execTimeCfg_keeps {t u : State} {x1 : CmdSrc} {x2 : Bytes} (e : execTimeCfg x1 x2 t = .next u) : Keeps [.regs, .sys, .std, .hst,
    .flt, .aut, .cmd, .ints, .cores, .tim, .fur, .grn, .prt, .snr, .stk] t u := by
  unfold execTimeCfg at e
  injection e with e
  subst e
  repeat' with_reducible (first | exact Keeps.refl _ _ | assumption | decide | apply cmdRow_keeps | apply Keeps.ite | split)

theorem execAkeyInstall_keeps {t u : State} {x1 : CmdSrc} {x2 : Bytes} (e : execAkeyInstall x1 x2 t = .next u) : Keeps [.regs, .sys, .std,
    .hst, .flt, .aut, .cmd, .ints, .cores, .tim, .fur, .grn, .prt, .snr, .stk] t u := by
  unfold execAkeyInstall at e
  injection e with e
  subst e
  repeat' with_reducible (first | exact Keeps.refl _ _ | assumption | decide | apply cmdRow_keeps | apply Keeps.ite | split)

theorem execAkeyRevoke_keeps {t u : State} {x1 : CmdSrc} {x2 : Bytes} (e : execAkeyRevoke x1 x2 t = .next u) : Keeps [.regs, .sys, .std,
    .hst, .flt, .aut, .cmd, .ints, .cores, .tim, .fur, .grn, .prt, .snr, .stk] t u := by
  unfold execAkeyRevoke at e
  injection e with e
  subst e
  repeat' with_reducible (first | exact Keeps.refl _ _ | assumption | decide | apply cmdRow_keeps | apply Keeps.ite | split)

theorem execAkeyReplace_keeps {t u : State} {x1 : CmdSrc} {x2 : Bytes} (e : execAkeyReplace x1 x2 t = .next u) : Keeps [.regs, .sys, .std,
    .hst, .flt, .aut, .cmd, .ints, .cores, .tim, .fur, .grn, .prt, .snr, .stk] t u := by
  unfold execAkeyReplace at e
  injection e with e
  subst e
  repeat' with_reducible (first | exact Keeps.refl _ _ | assumption | decide | apply cmdRow_keeps | apply Keeps.ite | split)

theorem execSetupReopen_keeps {t u : State} {x1 : CmdSrc} {x2 : Bytes} (e : execSetupReopen x1 x2 t = .next u) : Keeps [.regs, .sys, .std,
    .hst, .flt, .aut, .cmd, .ints, .cores, .tim, .fur, .grn, .prt, .snr, .stk] t u := by
  unfold execSetupReopen at e
  injection e with e
  subst e
  repeat' with_reducible (first | exact Keeps.refl _ _ | assumption | decide | apply cmdRow_keeps | apply Keeps.ite | split)

theorem execSessionKill_keeps {t u : State} {x1 : CmdSrc} {x2 : Bytes} (e : execSessionKill x1 x2 t = .next u) : Keeps [.regs, .sys, .std,
    .hst, .flt, .aut, .cmd, .ints, .cores, .tim, .fur, .grn, .prt, .snr, .stk] t u := by
  unfold execSessionKill at e
  injection e with e
  subst e
  repeat' with_reducible (first | exact Keeps.refl _ _ | assumption | decide | apply cmdRow_keeps | apply Keeps.ite | split)

theorem execFwUpdate_keeps {t u : State} {x1 : CmdSrc} {x2 : Bytes} (e : execFwUpdate x1 x2 t = .next u) : Keeps [.regs, .std, .hst, .flt,
    .cmd, .grn, .snr] t u := by
  unfold execFwUpdate at e
  injection e with e
  subst e
  repeat' with_reducible (first
    | exact Keeps.refl _ _ | assumption | decide | apply snareEval_keeps | apply fwUpdate_keeps | apply Keeps.ite
    | (fail_if_no_progress refine Keeps.upd ?_ rfl (by intro p hp; cases p <;> first | (exact absurd hp (by decide)) | rfl)) | split)

theorem execFwUpdateComplete_keeps {t u : State} {x1 : Option Bytes} {x2 : Bool} (e : execFwUpdateComplete x1 x2 t = .next u) : Keeps
    [.regs, .std, .hst, .cmd, .grn] t u := by
  unfold execFwUpdateComplete at e
  injection e with e
  subst e
  repeat' with_reducible (first | exact Keeps.refl _ _ | assumption | decide | apply fwComplete_keeps | apply Keeps.ite | split)

theorem execEffectApply_keeps {t u : State}  (e : execEffectApply t = .next u) : Keeps [.regs, .dma, .hst, .flt, .cmd, .ints, .cores, .lpe,
    .tim, .fur, .grn, .snr, .stk, .tly] t u := by
  unfold execEffectApply at e
  injection e with e
  subst e
  repeat' with_reducible (first
    | exact Keeps.refl _ _ | assumption | decide | apply snareEval_keeps | apply effectApply_keeps | apply Keeps.ite | split)

theorem execItemRelease_keeps {t u : State} {x1 : Fin 64} {x2 : Bool} (e : execItemRelease x1 x2 t = .next u) : Keeps [.regs, .sys, .std,
    .hst, .flt, .aut, .cmd, .ints, .cores, .tsk, .tim, .fur, .grn, .prt, .snr, .stk, .tly] t u := by
  unfold execItemRelease at e
  injection e with e
  subst e
  repeat' with_reducible (first
    | exact Keeps.refl _ _ | assumption | decide | apply snareEval_keeps | apply itemRelease_keeps | apply Keeps.ite | split)

theorem execStationReceive_keeps {t u : State} {x1 : Fin 2} {x2 : U8} {x3 : U32} {x4 : List U64} (e : execStationReceive x1 x2 x3 x4 t =
    .next u) : Keeps [.regs, .flt, .tim, .grn, .snr, .stk] t u := by
  unfold execStationReceive at e
  injection e with e
  subst e
  repeat' with_reducible (first
    | exact Keeps.refl _ _ | assumption | decide | apply snareEval_keeps | apply readyStep_keeps | apply stkTake_keeps
    | apply stationReceive_keeps | apply Keeps.ite | (intro u hu; try dsimp only) | split)

theorem execCellsReceive_keeps {t u : State} {x1 : Fin 2} {x2 : U8} {x3 : Fin 16384} {x4 : List U64} (e : execCellsReceive x1 x2 x3 x4 t =
    .next u) : Keeps [.regs, .flt, .grn, .snr, .stk] t u := by
  unfold execCellsReceive at e
  injection e with e
  subst e
  repeat' with_reducible (first
    | exact Keeps.refl _ _ | assumption | decide | apply snareEval_keeps | apply readyStep_keeps | apply stkTake_keeps
    | apply cellsReceive_keeps | apply Keeps.ite | (intro u hu; try dsimp only) | split)

theorem execEffectReceive_keeps {t u : State} {x1 : Fin 2} {x2 : U8} {x3 : U64} {x4 : Bytes} (e : execEffectReceive x1 x2 x3 x4 t = .next
    u) : Keeps [.regs, .flt, .cmd, .ints, .cores, .tim, .fur, .snr, .stk] t u := by
  unfold execEffectReceive at e
  injection e with e
  subst e
  repeat' with_reducible (first
    | exact Keeps.refl _ _ | assumption | decide | apply snareEval_keeps | apply stkTake_keeps | apply effectReceive_keeps
    | apply Keeps.ite | (intro u hu; try dsimp only) | split)

theorem execAckReceive_keeps {t u : State} {x1 : Fin 2} {x2 : U8} {x3 : U8} (e : execAckReceive x1 x2 x3 t = .next u) : Keeps [.regs, .hst,
    .cmd, .grn, .snr, .stk] t u := by
  unfold execAckReceive at e
  injection e with e
  subst e
  repeat' with_reducible (first
    | exact Keeps.refl _ _ | assumption | decide | apply snareEval_keeps | apply stkTake_keeps | apply ackReceive_keeps
    | apply Keeps.ite | (intro u hu; try dsimp only) | split)

theorem execAckTimeout_keeps {t u : State}  (e : execAckTimeout t = .next u) : Keeps [.regs, .hst, .cmd, .grn, .snr, .stk] t u := by
  unfold execAckTimeout at e
  injection e with e
  subst e
  repeat' with_reducible (first
    | exact Keeps.refl _ _ | assumption | decide | apply snareEval_keeps | apply ackTimeout_keeps | apply Keeps.ite | split)

theorem execHarrowMsgReceive_keeps {t u : State} {x1 : Fin 2} {x2 : U8} {x3 : Bool} {x4 : List HarrowRec} (e : execHarrowMsgReceive x1 x2
    x3 x4 t = .next u) : Keeps [.regs, .flt, .snr, .stk] t u := by
  unfold execHarrowMsgReceive at e
  injection e with e
  subst e
  repeat' with_reducible (first
    | exact Keeps.refl _ _ | assumption | decide | apply snareEval_keeps | apply readyStep_keeps | apply stkTake_keeps
    | apply harrowMsg_keeps | apply Keeps.ite | (intro u hu; try dsimp only) | split)

theorem execRingMsgReceive_keeps {t u : State} {x1 : Fin 2} {x2 : U8} {x3 : Fin 64} {x4 : BitVec 3} {x5 : Fin 257} {x6 : BitVec 20} (e :
    execRingMsgReceive x1 x2 x3 x4 x5 x6 t = .next u) : Keeps [.regs, .flt, .snr, .stk] t u := by
  unfold execRingMsgReceive at e
  injection e with e
  subst e
  repeat' with_reducible (first
    | exact Keeps.refl _ _ | assumption | decide | apply snareEval_keeps | apply readyStep_keeps | apply stkTake_keeps
    | apply ringMsg_keeps | apply Keeps.ite | (intro u hu; try dsimp only) | split)

theorem execPtpMsgReceive_keeps {t u : State} {x1 : Fin 2} {x2 : U8} {x3 : BitVec 48} {x4 : U32} {x5 : U16} (e : execPtpMsgReceive x1 x2 x3
    x4 x5 t = .next u) : Keeps [.tim, .stk] t u := by
  unfold execPtpMsgReceive at e
  injection e with e
  subst e
  repeat' with_reducible (first
    | exact Keeps.refl _ _ | assumption | decide | apply stkTake_keeps | apply ptpMsg_keeps | apply Keeps.ite
    | (intro u hu; try dsimp only) | split)

theorem execPtpSecond_keeps {t u : State}  (e : execPtpSecond t = .next u) : Keeps [.tick, .std, .stk, .tly] t u := by
  unfold execPtpSecond at e
  dsimp only at e
  injection e with e
  subst e
  repeat' with_reducible (first
    | exact Keeps.refl _ _ | assumption | decide | apply ptpSecond_keeps | apply stkSend_keeps | apply Keeps.ite | split)

theorem execStkMessageCrcFail_keeps {t u : State} {x1 : Fin 2} (e : execStkMessageCrcFail x1 t = .next u) : Keeps [.regs] t u := by
  unfold execStkMessageCrcFail at e
  injection e with e
  subst e
  repeat' with_reducible (first | exact Keeps.refl _ _ | assumption | decide | apply count_keeps | apply Keeps.ite | split)

theorem execCoreAccessFault_keeps {t u : State} {x1 : Fin 16} {x2 : U64} {x3 : Fin 4} (e : execCoreAccessFault x1 x2 x3 t = .next u) :
    Keeps [.regs, .dma, .freeCtr, .flt, .ints, .cores, .tly] t u := by
  unfold execCoreAccessFault at e
  injection e with e
  subst e
  repeat' with_reducible (first | exact Keeps.refl _ _ | assumption | decide | apply coreAccessFault_keeps | apply Keeps.ite | split)

theorem execGranaryPortLoad_keeps {t u : State} {x1 : Fin 16} {x2 : Fin 1064960} (e : execGranaryPortLoad x1 x2 t = .next u) :
    Keeps [.regs, .rdata, .dma, .freeCtr, .flt, .ints, .cores, .tly] t u := by
  unfold execGranaryPortLoad at e
  injection e with e
  subst e
  repeat' with_reducible (first | exact Keeps.refl _ _ | assumption | decide | apply busLoad_keeps | apply granaryLoad_keeps | apply Keeps.ite | split)

theorem execFwPointStore_keeps {t u : State} {x1 : Fin 16} {x2 : Fin 8192} {x3 : U32} (e : execFwPointStore x1 x2 x3 t = .next u) : Keeps
    [.grn] t u := by
  unfold execFwPointStore at e
  injection e with e
  subst e
  repeat' with_reducible (first | exact Keeps.refl _ _ | assumption | decide | apply fwStore_keeps | apply Keeps.ite | split)

theorem execFwPointCommit_keeps {t u : State} {x1 : Fin 16} (e : execFwPointCommit x1 t = .next u) : Keeps [.grn] t u := by
  unfold execFwPointCommit at e
  injection e with e
  subst e
  repeat' with_reducible (first | exact Keeps.refl _ _ | assumption | decide | apply fwCommit_keeps | apply Keeps.ite | split)

theorem execJournalPortSubmit_keeps {t u : State} {x1 : Fin 16} {x2 : List U64} {x3 : U32} (e : execJournalPortSubmit x1 x2 x3 t = .next u)
    : Keeps [.regs, .cores, .grn] t u := by
  unfold execJournalPortSubmit at e
  injection e with e
  subst e
  repeat' with_reducible (first
    | exact Keeps.refl _ _ | assumption | decide | apply jnlSubmit_keeps | apply jnlFill_keeps | apply Keeps.ite | split)

theorem execGxdcopWrite_keeps {t u : State} {x1 : Fin 16} {x2 : U64} (e : execGxdcopWrite x1 x2 t = .next u) : Keeps [.freeCtr, .cores] t u
    := by
  unfold execGxdcopWrite at e
  injection e with e
  subst e
  repeat' with_reducible (first | exact Keeps.refl _ _ | assumption | decide | apply dcopWrite_keeps | apply Keeps.ite | split)

theorem execSysCoreRunWrite_keeps {t u : State} {x1 : Bus} {x2 : U32} (e : execSysCoreRunWrite x1 x2 t = .next u) : Keeps [.cores] t u := by
  unfold execSysCoreRunWrite at e
  refine coreOnlyWrite_next (Keeps.refl _ _) ?_ e
  repeat' with_reducible (first | exact Keeps.refl _ _ | assumption | decide | apply coreRun_keeps | apply Keeps.ite | split)

theorem execDbgEnLow_keeps {t u : State}  (e : execDbgEnLow t = .next u) : Keeps [.regs, .flt, .cores, .hrw, .dbg] t u := by
  unfold execDbgEnLow at e
  injection e with e
  subst e
  repeat' with_reducible (first | exact Keeps.refl _ _ | assumption | decide | apply dbgEnLow_keeps | apply Keeps.ite | split)

theorem execDpParityError_keeps {t u : State}  (e : execDpParityError t = .next u) : Keeps [.dbg] t u := by
  unfold execDpParityError at e
  injection e with e
  subst e
  repeat' with_reducible (first
    | exact Keeps.refl _ _ | assumption | decide | apply setAck_keeps | apply dpBegin_keeps | apply Keeps.ite
    | (fail_if_no_progress refine Keeps.upd ?_ rfl (by intro p hp; cases p <;> first | (exact absurd hp (by decide)) | rfl)) | split)

theorem execDpUnlockGo_keeps {t u : State}  (e : execDpUnlockGo t = .next u) : Keeps [.dbg] t u := by
  unfold execDpUnlockGo at e
  injection e with e
  subst e
  repeat' with_reducible (first
    | exact Keeps.refl _ _ | assumption | decide | apply dpWrite_keeps | apply unlockGo_keeps | apply Keeps.ite
    | (intro u hu; try dsimp only) | split)

theorem execDpUnlockDone_keeps {t u : State}  (e : execDpUnlockDone t = .next u) : Keeps [.regs, .freeCtr, .flt, .dbg] t u := by
  unfold execDpUnlockDone at e
  injection e with e
  subst e
  repeat' with_reducible (first | exact Keeps.refl _ _ | assumption | decide | apply unlockDone_keeps | apply Keeps.ite | split)

theorem execDpRelock_keeps {t u : State}  (e : execDpRelock t = .next u) : Keeps [.regs, .flt, .cores, .hrw, .dbg] t u := by
  unfold execDpRelock at e
  injection e with e
  subst e
  repeat' with_reducible (first
    | exact Keeps.refl _ _ | assumption | decide | apply dpWrite_keeps | apply unlockEnd_keeps | apply Keeps.ite
    | (intro u hu; try dsimp only) | split)

theorem execDpUnlockExpire_keeps {t u : State}  (e : execDpUnlockExpire t = .next u) : Keeps [.regs, .std, .flt, .cores, .hrw, .dbg] t u :=
    by
  unfold execDpUnlockExpire at e
  injection e with e
  subst e
  repeat' with_reducible (first | exact Keeps.refl _ _ | assumption | decide | apply unlockExpire_keeps | apply Keeps.ite | split)

theorem execDpHalt_keeps {t u : State} {x1 : U16} (e : execDpHalt x1 t = .next u) : Keeps [.regs, .flt, .cores, .dbg] t u := by
  unfold execDpHalt at e
  injection e with e
  subst e
  repeat' with_reducible (first
    | exact Keeps.refl _ _ | assumption | decide | apply dpWrite_keeps | apply haltCores_keeps | apply Keeps.ite
    | (intro u hu; try dsimp only) | split)

theorem execDpResume_keeps {t u : State} {x1 : U16} (e : execDpResume x1 t = .next u) : Keeps [.cores, .dbg] t u := by
  unfold execDpResume at e
  injection e with e
  subst e
  repeat' with_reducible (first
    | exact Keeps.refl _ _ | assumption | decide | apply dpWrite_keeps | apply resumeCore_keeps | apply Keeps.ite
    | (refine Keeps.foldl ?_ (fun u y hu => ?_) <;> try dsimp only) | (intro u hu; try dsimp only) | split)

theorem execDpStep_keeps {t u : State} {x1 : U64} {x2 : Option (Fin 64 × U64)} (e : execDpStep x1 x2 t = .next u) : Keeps [.regs, .dma,
    .freeCtr, .flt, .ints, .cores, .tly, .dbg] t u := by
  unfold execDpStep at e
  injection e with e
  subst e
  repeat' with_reducible (first
    | exact Keeps.refl _ _ | assumption | decide | apply dpWrite_keeps | apply stepCore_keeps | apply Keeps.ite
    | (intro u hu; try dsimp only) | split)

theorem execBreakpointHit_keeps {t u : State} {x1 : Fin 16} {x2 : Fin 4} (e : execBreakpointHit x1 x2 t = .next u) : Keeps [.regs, .dma,
    .freeCtr, .flt, .ints, .cores, .tly] t u := by
  unfold execBreakpointHit at e
  injection e with e
  subst e
  repeat' with_reducible (first | exact Keeps.refl _ _ | assumption | decide | apply bpHit_keeps | apply Keeps.ite | split)

theorem execWatchpointHit_keeps {t u : State} {x1 : Fin 16} {x2 : Fin 2} {x3 : U64} {x4 : U64} {x5 : Bool} (e : execWatchpointHit x1 x2 x3
    x4 x5 t = .next u) : Keeps [.regs, .dma, .freeCtr, .flt, .ints, .cores, .tly] t u := by
  unfold execWatchpointHit at e
  injection e with e
  subst e
  repeat' with_reducible (first | exact Keeps.refl _ _ | assumption | decide | apply wpHit_keeps | apply Keeps.ite | split)

theorem execDpRegSelWrite_keeps {t u : State} {x1 : U32} (e : execDpRegSelWrite x1 t = .next u) : Keeps [.regs, .freeCtr, .flt, .ints,
    .cores, .tly, .dbg] t u := by
  unfold execDpRegSelWrite at e
  injection e with e
  subst e
  repeat' with_reducible (first
    | exact Keeps.refl _ _ | assumption | decide | apply dpWrite_keeps | apply regSel_keeps | apply Keeps.ite
    | (intro u hu; try dsimp only) | split)

theorem execDpFreezeWrite_keeps {t u : State} {x1 : U32} (e : execDpFreezeWrite x1 t = .next u) : Keeps [.regs, .flt, .hrw, .dbg] t u := by
  unfold execDpFreezeWrite at e
  injection e with e
  subst e
  repeat' with_reducible (first
    | exact Keeps.refl _ _ | assumption | decide | apply dpWrite_keeps | apply freeze_keeps | apply Keeps.ite
    | (intro u hu; try dsimp only) | split)

theorem execTamperLatch_keeps {t u : State} {x1 : Fin 2} {x2 : BitVec 2} (e : execTamperLatch x1 x2 t = .next u) : Keeps [.regs, .std,
    .flt, .aut, .cores, .hrw, .dbg] t u := by
  unfold execTamperLatch at e
  dsimp only at e
  injection e with e
  subst e
  repeat' with_reducible (first
    | exact Keeps.refl _ _ | assumption | decide | apply tamperLatch_keeps | apply unlockEnd_keeps | apply Keeps.ite | split)

theorem execPorRelease_keeps {t u : State} {x1 : BitVec 3} (e : execPorRelease x1 t = .next u) : Keeps [.regs, .freeCtr, .sys, .std, .aut,
    .stk, .dbg] t u := by
  unfold execPorRelease at e
  injection e with e
  subst e
  repeat' with_reducible (first | exact Keeps.refl _ _ | assumption | decide | apply resetRelease_keeps | apply Keeps.ite | split)

theorem execRstNLow_keeps {t u : State}  (e : execRstNLow t = .next u) : Keeps [.tick, .regs, .sys, .hst, .flt, .aut, .cmd, .ints, .cores,
    .tsk, .lpe, .afe, .tim, .fur, .grn, .hrw, .prt, .snr, .stk, .tly, .dbg] t u := by
  unfold execRstNLow at e
  injection e with e
  subst e
  repeat' with_reducible (first | exact Keeps.refl _ _ | assumption | decide | apply pinAssert_keeps | apply Keeps.ite | split)

theorem execRstNRelease_keeps {t u : State} {x1 : Nat} {x2 : BitVec 3} (e : execRstNRelease x1 x2 t = .next u) : Keeps [.regs, .freeCtr,
    .sys, .std, .aut, .stk, .dbg] t u := by
  unfold execRstNRelease at e
  injection e with e
  subst e
  repeat' with_reducible (first | exact Keeps.refl _ _ | assumption | decide | apply pinRelease_keeps | apply Keeps.ite | split)

theorem execLongResetLatch_keeps {t u : State}  (e : execLongResetLatch t = .next u) : Keeps [.std] t u := by
  unfold execLongResetLatch at e
  injection e with e
  subst e
  repeat' with_reducible (first
    | exact Keeps.refl _ _ | assumption | apply Keeps.ite
    | (fail_if_no_progress refine Keeps.upd ?_ rfl (by intro p hp; cases p <;> first | (exact absurd hp (by decide)) | rfl)) | split)

theorem execSoftReset_keeps {t u : State} {x1 : Bus} (e : execSoftReset x1 t = .next u) : Keeps [.tick, .regs, .sys, .hst, .flt, .aut,
    .cmd, .ints, .cores, .tsk, .lpe, .afe, .tim, .fur, .grn, .hrw, .prt, .snr, .stk, .tly, .dbg] t u := by
  unfold execSoftReset at e
  refine guardWrite_next (Keeps.refl _ _) ?_ e
  repeat' with_reducible (first | exact Keeps.refl _ _ | assumption | decide | apply softAssert_keeps | apply Keeps.ite | split)

theorem execSoftResetRelease_keeps {t u : State} {x1 : BitVec 3} (e : execSoftResetRelease x1 t = .next u) : Keeps [.regs, .freeCtr, .sys,
    .std, .aut, .stk, .dbg] t u := by
  unfold execSoftResetRelease at e
  injection e with e
  subst e
  repeat' with_reducible (first | exact Keeps.refl _ _ | assumption | decide | apply resetRelease_keeps | apply Keeps.ite | split)

theorem execFrameReset_keeps {t u : State} {x1 : Bus} (e : execFrameReset x1 t = .next u) : Keeps [.tick, .regs, .sys, .flt, .cmd, .ints,
    .cores, .lpe, .afe, .fur, .grn, .hrw, .snr, .stk, .tly] t u := by
  unfold execFrameReset at e
  refine guardWrite_next (Keeps.refl _ _) ?_ e
  repeat' with_reducible (first | exact Keeps.refl _ _ | assumption | decide | apply frameReset_keeps | apply Keeps.ite | split)

theorem execLinkDown_keeps {t u : State}  (e : execLinkDown t = .next u) : Keeps [.regs, .hst, .flt, .snr] t u := by
  unfold execLinkDown at e
  injection e with e
  subst e
  repeat' with_reducible (first
    | exact Keeps.refl _ _ | assumption | decide | apply snareLinkDown_keeps | apply linkDown_keeps | apply Keeps.ite | split)

theorem execHotReset_keeps {t u : State}  (e : execHotReset t = .next u) : Keeps [.regs, .hst, .flt, .grn] t u := by
  unfold execHotReset at e
  injection e with e
  subst e
  repeat' with_reducible (first | exact Keeps.refl _ _ | assumption | decide | apply hotReset_keeps | apply Keeps.ite | split)

theorem execRefclkLost_keeps {t u : State}  (e : execRefclkLost t = .next u) : Keeps [.regs, .sys, .flt, .prt] t u := by
  unfold execRefclkLost at e
  injection e with e
  subst e
  repeat' with_reducible (first | exact Keeps.refl _ _ | assumption | decide | apply clockLost_keeps | apply Keeps.ite | split)

theorem execPllUnlock_keeps {t u : State}  (e : execPllUnlock t = .next u) : Keeps [.regs, .sys, .flt, .prt] t u := by
  unfold execPllUnlock at e
  injection e with e
  subst e
  repeat' with_reducible (first | exact Keeps.refl _ _ | assumption | decide | apply clockLost_keeps | apply Keeps.ite | split)

theorem execPllLock_keeps {t u : State}  (e : execPllLock t = .next u) : Keeps [.sys, .cores] t u := by
  unfold execPllLock at e
  injection e with e
  subst e
  repeat' with_reducible (first | exact Keeps.refl _ _ | assumption | decide | apply pllLocked_keeps | apply Keeps.ite | split)

theorem execClockRecovered_keeps {t u : State}  (e : execClockRecovered t = .next u) : Keeps [.regs, .sys, .hst, .flt, .cmd, .grn, .snr] t
    u := by
  unfold execClockRecovered at e
  injection e with e
  subst e
  repeat' with_reducible (first
    | exact Keeps.refl _ _ | assumption | decide | apply snareEval_keeps | apply clockRecovered_keeps | apply Keeps.ite | split)

theorem execDevkeyOk_keeps {t u : State}  (e : execDevkeyOk t = .next u) : Keeps [.freeCtr, .std, .aut] t u := by
  unfold execDevkeyOk at e
  injection e with e
  subst e
  repeat' with_reducible (first | exact Keeps.refl _ _ | assumption | decide | apply devkeyReady_keeps | apply Keeps.ite | split)

theorem execSafetyImageStart_keeps {t u : State} {x1 : Bool} (e : execSafetyImageStart x1 t = .next u) : Keeps [.regs, .sys, .std, .prt] t
    u := by
  unfold execSafetyImageStart at e
  injection e with e
  subst e
  repeat' with_reducible (first | exact Keeps.refl _ _ | assumption | decide | apply safetyImageStart_keeps | apply Keeps.ite | split)

theorem execSetUpDoneWrite_keeps {t u : State} {x1 : Bus} {x2 : U32} (e : execSetUpDoneWrite x1 x2 t = .next u) : Keeps [.regs, .sys, .std,
    .flt, .hrw, .prt, .snr, .stk] t u := by
  unfold execSetUpDoneWrite at e
  refine guardWrite_next (Keeps.refl _ _) ?_ e
  repeat' with_reducible (first | exact Keeps.refl _ _ | assumption | decide | apply setupDoneWrite_keeps | apply Keeps.ite | split)

theorem execFrameStartWrite_keeps {t u : State} {x1 : Bus} {x2 : U32} (e : execFrameStartWrite x1 x2 t = .next u) : Keeps [.sys, .cmd] t u
    := by
  unfold execFrameStartWrite at e
  refine guardWrite_next (Keeps.refl _ _) ?_ e
  repeat' with_reducible (first | exact Keeps.refl _ _ | assumption | decide | apply frameStart_keeps | apply Keeps.ite | split)

theorem execFrameBoundary_keeps {t u : State}  (e : execFrameBoundary t = .next u) : Keeps [.tick, .regs, .dma, .sys, .hst, .flt, .cmd,
    .ints, .cores, .lpe, .afe, .tim, .fur, .grn, .hrw, .prt, .snr, .stk, .tly] t u := by
  unfold execFrameBoundary at e
  injection e with e
  subst e
  repeat' with_reducible (first
    | exact Keeps.refl _ _ | assumption | decide | apply snareEval_keeps | apply frameBoundary_keeps | apply Keeps.ite | split)

theorem execDoorbellWrite_keeps {t u : State} {x1 : Fin 65536} {x2 : U32} (e : execDoorbellWrite x1 x2 t = .next u) :
    Keeps [.regs, .hst, .flt] t u := by
  unfold execDoorbellWrite at e
  injection e with e
  subst e
  exact bar2Write_keeps (Keeps.refl _ _) (by decide)

theorem execCommandFetch_keeps {t u : State} {x1 : BitVec 4} (e : execCommandFetch x1 t = .next u) : Keeps [.hst] t u := by
  unfold execCommandFetch at e
  split at e <;> injection e with e <;> subst e
  · exact Keeps.refl _ _
  · exact setCmdRing_keeps (Keeps.refl _ _) (by decide)

theorem execCounterWrap_keeps {t u : State} {x1 : Fin 16} {x2 : Fin 8} {x3 x4 : U64} {x5 : Bool} {x6 : Fin 4} {x7 : U32} {x8 : Bool}
    (e : execCounterWrap x1 x2 x3 x4 x5 x6 x7 x8 t = .next u) : Keeps [.regs, .dma, .flt, .ints, .cores, .tly] t u := by
  unfold execCounterWrap at e
  split at e <;> injection e with e <;> subst e
  · exact Keeps.refl _ _
  · exact counterWrap_keeps (Keeps.refl _ _) (by decide)

theorem execGxtlyovfClear_keeps {t u : State} {x1 : Fin 16} {x2 : U64} (e : execGxtlyovfClear x1 x2 t = .next u) : Keeps [.tly] t u := by
  unfold execGxtlyovfClear at e
  split at e
  · cases e
  · injection e with e
    subst e
    exact ovfClear_keeps (Keeps.refl _ _) (by decide)

theorem execMeasurementCommit_keeps {t u : State} {x1 : Bus} {x2 : U32} (e : execMeasurementCommit x1 x2 t = .next u) :
    Keeps [.regs, .freeCtr, .flt, .tim, .snr] t u := by
  unfold execMeasurementCommit at e
  split at e
  · next v g =>
    injection e with e
    subst e
    exact snareEval_keeps (guardWrite_next (Keeps.refl _ _) (measCommit_keeps (Keeps.refl _ _) (by decide)) g) (by decide)
  · next g => exact absurd e (g u)

theorem execFurRingCfgWrite_keeps {t u : State} {x1 : Bus} {x2 : Fin 64} {x3 : U32} (e : execFurRingCfgWrite x1 x2 x3 t = .next u) :
    Keeps [.regs, .flt, .cmd, .ints, .cores, .fur, .snr] t u := by
  unfold execFurRingCfgWrite at e
  split at e
  · next v g =>
    injection e with e
    subst e
    exact snareEval_keeps (guardWrite_next (Keeps.refl _ _) (furRingCfg_keeps (Keeps.refl _ _) (by decide)) g) (by decide)
  · next g => exact absurd e (g u)

theorem execStkRetrainWrite_keeps {t u : State} {x1 : Bus} {x2 : U32} (e : execStkRetrainWrite x1 x2 t = .next u) :
    Keeps [.regs, .flt, .snr, .stk] t u := by
  unfold execStkRetrainWrite at e
  split at e
  · next v g =>
    injection e with e
    subst e
    exact snareEval_keeps (readyStep_keeps (guardWrite_next (Keeps.refl _ _) (stkRetrain_keeps (Keeps.refl _ _) (by decide)) g)
      (by decide)) (by decide)
  · next g => exact absurd e (g u)

theorem execCoreEccError_keeps {t u : State} {x1 : Fin 16} {x2 : Bool} {x3 : Fin 3} {x4 : U64} {x5 : Fin 4}
    (e : execCoreEccError x1 x2 x3 x4 x5 t = .next u) : Keeps [.regs, .dma, .freeCtr, .flt, .ints, .cores, .tly] t u := by
  unfold execCoreEccError at e
  split at e <;> injection e with e <;> subst e
  · exact Keeps.refl _ _
  · exact coreEcc_keeps (Keeps.refl _ _) (by decide)

theorem execDpRegHiWrite_keeps {t u : State} {x1 : U32} (e : execDpRegHiWrite x1 t = .next u) : Keeps [.regs, .freeCtr, .flt, .ints,
    .cores, .tly, .dbg] t u := by
  unfold execDpRegHiWrite at e
  dsimp only at e
  split at e
  · cases e
  · injection e with e
    subst e
    exact dpWrite_keeps (Keeps.refl _ _) (by decide) (fun u hu => regHi_keeps hu (by decide))

theorem execRcRead_keeps {t u : State} {x1 : Bus} {x2 : Fin 0x2010000} {x3 : Bool} (e : execRcRead x1 x2 x3 t = .next u) :
    Keeps [.regs, .rdata, .dma, .freeCtr, .flt, .ints, .cores, .tsk, .tim, .tly, .dbg] t u := by
  unfold execRcRead at e
  split at e <;> injection e with e <;> subst e
  · exact Keeps.ite (dpReadReg_keeps (Keeps.refl _ _) (by decide)) (rcRead_keeps (Keeps.refl _ _) (by decide))
  · exact busLoad_keeps (readAcc_keeps (Keeps.refl _ _) (by decide)) (by decide)

theorem execLatchedPairRead_keeps {t u : State} {x1 : Bus} {x2 : Fin 0x2000000} {x3 : Bool}
    (e : execLatchedPairRead x1 x2 x3 t = .next u) : Keeps [.regs, .rdata, .dma, .freeCtr, .flt, .ints, .cores, .tly] t u := by
  unfold execLatchedPairRead at e
  injection e with e
  subst e
  exact busLoad_keeps (Keeps.ite (wideRead_keeps (Keeps.refl _ _) (fun o u hu => pairRead_keeps hu (by decide)) (by decide))
    (pairRead_keeps (Keeps.refl _ _) (by decide))) (by decide)

theorem execW1cWrite_keeps {t u : State} {x1 : Bus} {x2 : Fin 0x2000000} {x3 : U32} (e : execW1cWrite x1 x2 x3 t = .next u) :
    Keeps [.regs, .cores] t u := by
  unfold execW1cWrite at e
  split at e
  · split at e
    · exact guardWrite_next (Keeps.refl _ _) (w1c_keeps (Keeps.refl _ _) (by decide)) e
    · injection e with e
      exact e ▸ Keeps.refl _ _
  · injection e with e
    exact e ▸ Keeps.refl _ _

/-! ### The commands that change core memory -/

theorem writeBytes_wf {m : List Host.Cell} (a : Nat) (bs : Bytes) (h : Memory.wf m = true) : Memory.wf (writeBytes m a bs) = true := by
  induction bs generalizing m a with
  | nil => exact h
  | cons b bs ih => exact ih (a + 1) (tblWf_tset (d := fun _ => memDefault) a b h)

/-- `t` comes from `s` by an operation that `Keeps` describes and a change of core memory that keeps its canonical form. -/
def KeepsMem (ps : List Area) (s t : State) : Prop :=
  ∃ u m, Keeps ps s u ∧ t = { u with mem := m } ∧ (Memory.wf s.mem = true → Memory.wf m = true)

theorem Keeps.mem_self {ps : List Area} {s t : State} (h : Keeps ps s t) : KeepsMem ps s t := ⟨t, t.mem, h, rfl, fun w => h.mem ▸ w⟩

theorem execPorAssert_keeps {t u : State} {x1 : Nat} (e : execPorAssert x1 t = .next u) : KeepsMem [.tick, .regs, .mem, .sys, .std, .hst,
    .flt, .aut, .cmd, .ints, .cores, .tsk, .lpe, .afe, .tim, .fur, .grn, .hrw, .prt, .snr, .stk, .tly, .dbg] t u := by
  unfold execPorAssert at e
  injection e with e
  subst e
  refine ⟨{ porAssert x1 t with mem := t.mem }, [], ⟨?_, rfl, rfl, fun _ => rfl, List.prefix_refl _, Nat.le_refl _,
    fun w => ⟨w, fun _ => Nat.le_refl _⟩⟩, rfl, fun _ => rfl⟩
  intro p hp
  cases p <;> first | exact absurd hp (by decide) | rfl

theorem execCoreImageStart_keeps {t u : State} {x1 : Bool} (e : execCoreImageStart x1 t = .next u) :
    KeepsMem [.regs, .mem, .sys, .std, .cores] t u := by
  unfold execCoreImageStart at e
  injection e with e
  subst e
  unfold coreImageStart
  dsimp only
  split
  · exact (Keeps.refl _ _).mem_self
  · split
    · exact (bootFail_keeps (Keeps.refl _ _) (by decide)).mem_self
    · split
      · exact (bootFail_keeps (Keeps.refl _ _) (by decide)).mem_self
      · next i fb g =>
        generalize pack [(0, i), (1, b2n fb), (2, b2n (rd (bank t i).env 34 1 = 0xFF)), (6, 1)] = w
        have k : Keeps [.regs, .mem, .sys, .std, .cores] t (wr (bankHandOver i t) rSYS_BOOT_STAT (rg (bankHandOver i t) rSYS_BOOT_STAT |||
            w)) :=
          wr_keeps (bankHandOver_keeps (Keeps.refl _ _) (by decide)) (by decide)
        generalize wr (bankHandOver i t) rSYS_BOOT_STAT (rg (bankHandOver i t) rSYS_BOOT_STAT ||| w) = v at k ⊢
        refine ⟨setCore { v with sys := { v.sys with cver := u64 (rd (bank t i).env 48 8) } } 0
          { coreTick v (core v 0) with pc := 0x40000000, priv := 3, released := true }, _,
          setCore_keeps (Keeps.upd k rfl ?_) (by decide), rfl, fun w => writeBytes_wf _ _ (k.mem ▸ w)⟩
        intro p hp
        cases p <;> first | exact absurd hp (by decide) | rfl

theorem busWrite_keeps {ps : List Area} {s t u : State} {b : Bus} {o : Nat} {v : U32} (h : Keeps ps s t)
    (hs : ([.tick, .regs, .freeCtr, .sys, .std, .hst, .flt, .aut, .cmd, .ints, .cores, .tsk, .lpe, .afe, .tim, .fur, .grn, .hrw, .prt,
        .snr, .stk, .tly, .dbg] : List Area).all (fun p => ps.contains p) = true) (e : busWrite b o v t = .next u) : Keeps ps s u := by
  unfold busWrite at e
  split at e
  · injection e with e
    exact e ▸ h
  · split at e
    · injection e with e
      exact e ▸ h
    · exact guardWrite_next h (by
        split
        · exact w1c_keeps h (sub_of hs (by decide))
        · exact writeEffect_keeps h (sub_of hs (by decide))) e

theorem mapWrite_keeps {ps : List Area} {s t u : State} {c : Nat} {r : Region} {a : Nat} {v : U32} (h : Keeps ps s t)
    (hs : ([.tick, .regs, .freeCtr, .sys, .std, .hst, .flt, .aut, .cmd, .ints, .cores, .tsk, .lpe, .afe, .tim, .fur, .grn, .hrw, .prt,
        .snr, .stk, .tly, .dbg] : List Area).all (fun p => ps.contains p) = true)
    (e : mapWrite c r a v t = .next u) : KeepsMem ps s u := by
  unfold mapWrite at e
  split at e
  case h_7 => exact (busWrite_keeps h (sub_of hs (by decide)) e).mem_self
  all_goals
    injection e with e
    subst e
    first
      | exact h.mem_self
      | exact ⟨t, _, h, rfl, fun w => writeBytes_wf _ _ (h.mem ▸ w)⟩
      | exact (Keeps.ite (fwStore_keeps h (sub_of hs (by decide))) (fwCommit_keeps h (sub_of hs (by decide)))).mem_self
      | exact (Keeps.ite (jnlHalf_keeps h (sub_of hs (by decide)))
          (Keeps.ite (jnlSubmit_keeps h (sub_of hs (by decide))) h)).mem_self

theorem dpMem_keeps {ps : List Area} {t u : State} {w : Bool} {v : U32}
    (hs : ([.tick, .regs, .mem, .rdata, .freeCtr, .sys, .std, .hst, .flt, .aut, .cmd, .ints, .cores, .tsk, .lpe, .afe, .tim, .fur, .grn,
        .hrw, .prt, .snr, .stk, .tly, .dbg] : List Area).all (fun p => ps.contains p) = true)
    (e : dpMem w v t = .next u) : KeepsMem ps t u := by
  have k : Keeps ps t (dpBegin t) := dpBegin_keeps (Keeps.refl _ _) (sub_of hs (by decide))
  unfold dpMem at e
  dsimp only at e
  generalize dpBegin t = t1 at e k
  have hf (f : Nat) : KeepsMem ps t (setAck f t1) := (setAck_keeps k (sub_of hs (by decide))).mem_self
  have k2 (r : Region) : Keeps ps t (sharedCount r (memDone t1)) :=
    sharedCount_keeps (memDone_keeps k (sub_of hs (by decide))) (sub_of hs (by decide))
  cases w <;> simp only [Bool.false_eq_true, if_false, if_true, Bool.false_and, Bool.true_and] at e
  · split at e
    · exact Host.Outcome.next.inj e ▸ hf _
    · split at e
      · exact Host.Outcome.next.inj e ▸ hf _
      · next r _ =>
        split at e
        · exact Host.Outcome.next.inj e ▸ hf _
        · injection e with e
          subst e
          exact (Keeps.upd (mapRead_keeps (k2 r) (sub_of hs (by decide))) rfl
            (by intro p hp
                cases p <;> first | (exact absurd hp (by rw [List.all_eq_true.1 hs .rdata (by decide)]; decide)) | rfl)).mem_self
  · split at e
    · exact Host.Outcome.next.inj e ▸ hf _
    · split at e
      · exact Host.Outcome.next.inj e ▸ hf _
      · split at e
        · exact Host.Outcome.next.inj e ▸ hf _
        · next r _ =>
          split at e
          · exact Host.Outcome.next.inj e ▸ hf _
          · exact mapWrite_keeps (k2 r) (sub_of hs (by decide)) e

theorem execDpMemDataAccess_keeps {t u : State} {x1 : Bool} {x2 : U32} (e : execDpMemDataAccess x1 x2 t = .next u) :
    KeepsMem [.tick, .regs, .mem, .rdata, .freeCtr, .sys, .std, .hst, .flt, .aut, .cmd, .ints, .cores, .tsk, .lpe, .afe, .tim, .fur, .grn,
        .hrw, .prt, .snr, .stk, .tly, .dbg] t u := dpMem_keeps (by decide) e

theorem busWriteWide_keeps {ps : List Area} {s t u : State} {b : Bus} {o : Nat} {v : U32} {w : Option U32} (h : Keeps ps s t)
    (hs : ([.tick, .regs, .freeCtr, .sys, .std, .hst, .flt, .aut, .cmd, .ints, .cores, .tsk, .lpe, .afe, .tim, .fur, .grn, .hrw, .prt,
        .snr, .stk, .tly, .dbg] : List Area).all (fun p => ps.contains p) = true) (e : busWriteWide b o v w t = .next u) : Keeps ps s u :=
        by
  unfold busWriteWide at e
  split at e
  · exact busWrite_keeps h hs e
  · split at e
    · next x g => exact busWrite_keeps (busWrite_keeps h hs g) hs e
    · next g => exact absurd e (g u)

theorem execRegisterWrite_keeps {t u : State} {x1 : Bus} {x2 : Fin 0x2000000} {x3 : U32} {x4 : Option U32}
    (e : execRegisterWrite x1 x2 x3 x4 t = .next u) :
    KeepsMem [.tick, .regs, .mem, .rdata, .freeCtr, .sys, .std, .hst, .flt, .aut, .cmd, .ints, .cores, .tsk, .lpe, .afe, .tim, .fur, .grn,
        .hrw, .prt, .snr, .stk, .tly, .dbg] t u := by
  unfold execRegisterWrite at e
  split at e
  · split at e
    · unfold dpRegWrite at e
      split at e
      · exact dpMem_keeps (by decide) e
      · split at e
        · exact ((execDpRegHiWrite_keeps e).mono (by decide)).mem_self
        · split at e
          · cases e
          · injection e with e
            subst e
            exact (dpWrite_keeps (Keeps.refl _ _) (by decide) (fun u hu => dpStore_keeps hu (by decide))).mem_self
    · exact (busWrite_keeps (Keeps.refl _ _) (by decide) e).mem_self
  · exact (busWriteWide_keeps (Keeps.refl _ _) (by decide) e).mem_self

end Sys2Proof.Machine
end

