-- ==== Sys2Proof/Machine/Lane.lean ====
section
/-! DEFINITION. The line code of the ring and stack lanes (R185, R187): sync headers, scrambler and block lock, as functions of the blocks
that State holds. [PRESUMED: notes/assumptions/60] -/

namespace Sys2Proof.Machine

/-! ### The scrambler x^58 + x^39 + 1 (R185) -/

/-- A payload bit with the bits 39 and 58 places back in what the lane carried; `st` holds the last 58, the newest in bit 0. -/
def scrBit (st : BitVec 58) (d : Bool) : Bool := Bool.xor d (Bool.xor (st.getLsbD 38) (st.getLsbD 57))

def scrPush (st : BitVec 58) (b : Bool) : BitVec 58 := st <<< 1 ||| BitVec.ofNat 58 (b2n b)

def scramble : BitVec 58 → List Bool → List Bool
  | _, [] => []
  | st, d :: ds => scrBit st d :: scramble (scrPush st (scrBit st d)) ds

/-- What a receiver makes of scrambled bits. -/
def descramble : BitVec 58 → List Bool → List Bool
  | _, [] => []
  | st, b :: bs => scrBit st b :: descramble (scrPush st b) bs

/-- The sync header of a block, the bit sent first at the head: 10 for control, 01 for data. -/
def syncHeader (b : Block) : List Bool := [b.ctl, !b.ctl]

/-- The bits that a lane carries for its blocks: the header as it is, the payload scrambled, bit 0 first. -/
def laneBits (st : BitVec 58) : List Block → List Bool
  | [] => []
  | b :: bs =>
    let p := scramble st ((List.range 64).map b.data.getLsbD)
    syncHeader b ++ p ++ laneBits (p.foldl scrPush st) bs

/-- The bits on the TX lanes of ring `r` for what Furrow sends, from a scrambler state on. -/
def txBits (s : State) (r : Nat) (l : Lane) (st : BitVec 58) : List Bool :=
  let f := tget {} s.fur.tx r
  laneBits st (match l with | .a => f.a | .b => f.b)

/-! ### Block lock (R187) -/

/-- The lock state machine of Clause 49: headers tested and invalid ones among them, and whether the receiver is locked. -/
structure LockState where
  tested : Nat := 0
  invalid : Nat := 0
  locked : Bool := false
  deriving DecidableEq, Repr

/-- A sync header is tested: 64 valid ones lock, 16 invalid ones of 64, or one before lock, lose it and slip a bit. -/
def lockHeader (valid : Bool) (x : LockState) : LockState :=
  let n := x.tested + 1
  let bad := x.invalid + b2n (!valid)
  if !valid && (decide (16 ≤ bad) || !x.locked) then {}
  else if 64 ≤ n then { locked := x.locked || decide (bad = 0) }
  else { x with tested := n, invalid := bad }

end Sys2Proof.Machine
end

