-- ==== Sys2Proof/Laws/Lane.lean ====
section
/-! SUPPORT. The line code: a receiver in step gets back what was sent, and block lock holds while headers are valid. -/

namespace Sys2Proof.Laws

open Sys2Proof.Machine

theorem scrBit_scrBit (st : BitVec 58) (d : Bool) : scrBit st (scrBit st d) = d := by
  unfold scrBit
  cases d <;> cases st.getLsbD 38 <;> cases st.getLsbD 57 <;> rfl

theorem descramble_scramble (st : BitVec 58) (ds : List Bool) : descramble st (scramble st ds) = ds := by
  induction ds generalizing st with
  | nil => rfl
  | cons d ds ih => simp only [scramble, descramble, scrBit_scrBit, ih]

theorem scramble_length (st : BitVec 58) (ds : List Bool) : (scramble st ds).length = ds.length := by
  induction ds generalizing st with
  | nil => rfl
  | cons d ds ih => simp only [scramble, List.length_cons, ih]

/-- A block takes 66 bits of the lane. -/
theorem laneBits_length (st : BitVec 58) (bs : List Block) : (laneBits st bs).length = 66 * bs.length := by
  induction bs generalizing st with
  | nil => rfl
  | cons b bs ih =>
    simp only [laneBits, List.length_append, syncHeader, List.length_cons, List.length_nil, scramble_length, List.length_map, List.length_range, ih]
    omega

/-- A valid header never costs the lock. -/
theorem lockHeader_valid (x : LockState) (h : x.locked = true) : (lockHeader true x).locked = true := by
  simp only [lockHeader, Bool.not_true, Bool.false_and, Bool.false_eq_true, if_false]
  split <;> simp [h]

end Sys2Proof.Laws
end

