-- ==== Sys2Proof/Laws/State.lean ====
section
/-! SUPPORT. What a register, a table entry and each area of the state read after each basic update. -/

namespace Sys2Proof.Machine

/-- A register reads what was last stored in it. -/
@[simp] theorem rg_wr_same (s : State) (off : Nat) (v : U32) : rg (wr s off v) off = v := tget_tset_same _ _ _ _

/-- A store leaves every other register. -/
theorem rg_wr_ne (s : State) (off : Nat) (v : U32) (o : Nat) (h : o ≠ off) : rg (wr s off v) o = rg s o := tget_tset_ne h

@[simp] theorem rg_setEvt_same (s : State) (off : Nat) (m : U32) : rg (setEvt s off m) off = rg s off ||| m := rg_wr_same _ _ _
@[simp] theorem rg_count_same (s : State) (off n : Nat) : rg (count s off n) off = satInc (rg s off) n := rg_wr_same _ _ _
@[simp] theorem rg_report (s : State) (a : U16) (c o : Nat) : rg (report s a c) o = rg s o := rfl
@[simp] theorem rg_postCpl (s : State) (c : Cpl) (o : Nat) : rg (postCpl s c) o = rg s o := rfl

/-- A guarded write that takes effect has it. -/
theorem guardWrite_ok {s : State} {bus : Bus} {off : Nat} {v : U32} {f : State → State} (h : WriteOk s bus off v) :
    guardWrite s bus off v f = .next (f s) := by
  obtain ⟨hh, row, hr, hw, hz⟩ := h
  simp [guardWrite, hr, hw, hh, hz]

@[simp] theorem wr_tick (s : State) (off : Nat) (v : U32) : (wr s off v).tick = s.tick := rfl
@[simp] theorem wr_mem (s : State) (off : Nat) (v : U32) : (wr s off v).mem = s.mem := rfl
@[simp] theorem wr_pending (s : State) (off : Nat) (v : U32) : (wr s off v).pending = s.pending := rfl
@[simp] theorem wr_rdata (s : State) (off : Nat) (v : U32) : (wr s off v).rdata = s.rdata := rfl
@[simp] theorem wr_dma (s : State) (off : Nat) (v : U32) : (wr s off v).dma = s.dma := rfl
@[simp] theorem wr_freeCtr (s : State) (off : Nat) (v : U32) : (wr s off v).freeCtr = s.freeCtr := rfl
@[simp] theorem wr_sys (s : State) (off : Nat) (v : U32) : (wr s off v).sys = s.sys := rfl
@[simp] theorem wr_std (s : State) (off : Nat) (v : U32) : (wr s off v).std = s.std := rfl
@[simp] theorem wr_hst (s : State) (off : Nat) (v : U32) : (wr s off v).hst = s.hst := rfl
@[simp] theorem wr_flt (s : State) (off : Nat) (v : U32) : (wr s off v).flt = s.flt := rfl
@[simp] theorem wr_aut (s : State) (off : Nat) (v : U32) : (wr s off v).aut = s.aut := rfl
@[simp] theorem wr_cmd (s : State) (off : Nat) (v : U32) : (wr s off v).cmd = s.cmd := rfl
@[simp] theorem wr_ints (s : State) (off : Nat) (v : U32) : (wr s off v).ints = s.ints := rfl
@[simp] theorem wr_cores (s : State) (off : Nat) (v : U32) : (wr s off v).cores = s.cores := rfl
@[simp] theorem wr_tsk (s : State) (off : Nat) (v : U32) : (wr s off v).tsk = s.tsk := rfl
@[simp] theorem wr_lpe (s : State) (off : Nat) (v : U32) : (wr s off v).lpe = s.lpe := rfl
@[simp] theorem wr_afe (s : State) (off : Nat) (v : U32) : (wr s off v).afe = s.afe := rfl
@[simp] theorem wr_tim (s : State) (off : Nat) (v : U32) : (wr s off v).tim = s.tim := rfl
@[simp] theorem wr_fur (s : State) (off : Nat) (v : U32) : (wr s off v).fur = s.fur := rfl
@[simp] theorem wr_grn (s : State) (off : Nat) (v : U32) : (wr s off v).grn = s.grn := rfl
@[simp] theorem wr_hrw (s : State) (off : Nat) (v : U32) : (wr s off v).hrw = s.hrw := rfl
@[simp] theorem wr_prt (s : State) (off : Nat) (v : U32) : (wr s off v).prt = s.prt := rfl
@[simp] theorem wr_snr (s : State) (off : Nat) (v : U32) : (wr s off v).snr = s.snr := rfl
@[simp] theorem wr_stk (s : State) (off : Nat) (v : U32) : (wr s off v).stk = s.stk := rfl
@[simp] theorem wr_tly (s : State) (off : Nat) (v : U32) : (wr s off v).tly = s.tly := rfl
@[simp] theorem wr_dbg (s : State) (off : Nat) (v : U32) : (wr s off v).dbg = s.dbg := rfl
@[simp] theorem wr_eps (s : State) (off : Nat) (v : U32) : (wr s off v).eps = s.eps := rfl
@[simp] theorem setEvt_tick (s : State) (off : Nat) (m : U32) : (setEvt s off m).tick = s.tick := rfl
@[simp] theorem setEvt_mem (s : State) (off : Nat) (m : U32) : (setEvt s off m).mem = s.mem := rfl
@[simp] theorem setEvt_pending (s : State) (off : Nat) (m : U32) : (setEvt s off m).pending = s.pending := rfl
@[simp] theorem setEvt_rdata (s : State) (off : Nat) (m : U32) : (setEvt s off m).rdata = s.rdata := rfl
@[simp] theorem setEvt_dma (s : State) (off : Nat) (m : U32) : (setEvt s off m).dma = s.dma := rfl
@[simp] theorem setEvt_freeCtr (s : State) (off : Nat) (m : U32) : (setEvt s off m).freeCtr = s.freeCtr := rfl
@[simp] theorem setEvt_sys (s : State) (off : Nat) (m : U32) : (setEvt s off m).sys = s.sys := rfl
@[simp] theorem setEvt_std (s : State) (off : Nat) (m : U32) : (setEvt s off m).std = s.std := rfl
@[simp] theorem setEvt_hst (s : State) (off : Nat) (m : U32) : (setEvt s off m).hst = s.hst := rfl
@[simp] theorem setEvt_flt (s : State) (off : Nat) (m : U32) : (setEvt s off m).flt = s.flt := rfl
@[simp] theorem setEvt_aut (s : State) (off : Nat) (m : U32) : (setEvt s off m).aut = s.aut := rfl
@[simp] theorem setEvt_cmd (s : State) (off : Nat) (m : U32) : (setEvt s off m).cmd = s.cmd := rfl
@[simp] theorem setEvt_ints (s : State) (off : Nat) (m : U32) : (setEvt s off m).ints = s.ints := rfl
@[simp] theorem setEvt_cores (s : State) (off : Nat) (m : U32) : (setEvt s off m).cores = s.cores := rfl
@[simp] theorem setEvt_tsk (s : State) (off : Nat) (m : U32) : (setEvt s off m).tsk = s.tsk := rfl
@[simp] theorem setEvt_lpe (s : State) (off : Nat) (m : U32) : (setEvt s off m).lpe = s.lpe := rfl
@[simp] theorem setEvt_afe (s : State) (off : Nat) (m : U32) : (setEvt s off m).afe = s.afe := rfl
@[simp] theorem setEvt_tim (s : State) (off : Nat) (m : U32) : (setEvt s off m).tim = s.tim := rfl
@[simp] theorem setEvt_fur (s : State) (off : Nat) (m : U32) : (setEvt s off m).fur = s.fur := rfl
@[simp] theorem setEvt_grn (s : State) (off : Nat) (m : U32) : (setEvt s off m).grn = s.grn := rfl
@[simp] theorem setEvt_hrw (s : State) (off : Nat) (m : U32) : (setEvt s off m).hrw = s.hrw := rfl
@[simp] theorem setEvt_prt (s : State) (off : Nat) (m : U32) : (setEvt s off m).prt = s.prt := rfl
@[simp] theorem setEvt_snr (s : State) (off : Nat) (m : U32) : (setEvt s off m).snr = s.snr := rfl
@[simp] theorem setEvt_stk (s : State) (off : Nat) (m : U32) : (setEvt s off m).stk = s.stk := rfl
@[simp] theorem setEvt_tly (s : State) (off : Nat) (m : U32) : (setEvt s off m).tly = s.tly := rfl
@[simp] theorem setEvt_dbg (s : State) (off : Nat) (m : U32) : (setEvt s off m).dbg = s.dbg := rfl
@[simp] theorem setEvt_eps (s : State) (off : Nat) (m : U32) : (setEvt s off m).eps = s.eps := rfl
@[simp] theorem count_tick (s : State) (off n : Nat) : (count s off n).tick = s.tick := rfl
@[simp] theorem count_mem (s : State) (off n : Nat) : (count s off n).mem = s.mem := rfl
@[simp] theorem count_pending (s : State) (off n : Nat) : (count s off n).pending = s.pending := rfl
@[simp] theorem count_rdata (s : State) (off n : Nat) : (count s off n).rdata = s.rdata := rfl
@[simp] theorem count_dma (s : State) (off n : Nat) : (count s off n).dma = s.dma := rfl
@[simp] theorem count_freeCtr (s : State) (off n : Nat) : (count s off n).freeCtr = s.freeCtr := rfl
@[simp] theorem count_sys (s : State) (off n : Nat) : (count s off n).sys = s.sys := rfl
@[simp] theorem count_std (s : State) (off n : Nat) : (count s off n).std = s.std := rfl
@[simp] theorem count_hst (s : State) (off n : Nat) : (count s off n).hst = s.hst := rfl
@[simp] theorem count_flt (s : State) (off n : Nat) : (count s off n).flt = s.flt := rfl
@[simp] theorem count_aut (s : State) (off n : Nat) : (count s off n).aut = s.aut := rfl
@[simp] theorem count_cmd (s : State) (off n : Nat) : (count s off n).cmd = s.cmd := rfl
@[simp] theorem count_ints (s : State) (off n : Nat) : (count s off n).ints = s.ints := rfl
@[simp] theorem count_cores (s : State) (off n : Nat) : (count s off n).cores = s.cores := rfl
@[simp] theorem count_tsk (s : State) (off n : Nat) : (count s off n).tsk = s.tsk := rfl
@[simp] theorem count_lpe (s : State) (off n : Nat) : (count s off n).lpe = s.lpe := rfl
@[simp] theorem count_afe (s : State) (off n : Nat) : (count s off n).afe = s.afe := rfl
@[simp] theorem count_tim (s : State) (off n : Nat) : (count s off n).tim = s.tim := rfl
@[simp] theorem count_fur (s : State) (off n : Nat) : (count s off n).fur = s.fur := rfl
@[simp] theorem count_grn (s : State) (off n : Nat) : (count s off n).grn = s.grn := rfl
@[simp] theorem count_hrw (s : State) (off n : Nat) : (count s off n).hrw = s.hrw := rfl
@[simp] theorem count_prt (s : State) (off n : Nat) : (count s off n).prt = s.prt := rfl
@[simp] theorem count_snr (s : State) (off n : Nat) : (count s off n).snr = s.snr := rfl
@[simp] theorem count_stk (s : State) (off n : Nat) : (count s off n).stk = s.stk := rfl
@[simp] theorem count_tly (s : State) (off n : Nat) : (count s off n).tly = s.tly := rfl
@[simp] theorem count_dbg (s : State) (off n : Nat) : (count s off n).dbg = s.dbg := rfl
@[simp] theorem count_eps (s : State) (off n : Nat) : (count s off n).eps = s.eps := rfl
@[simp] theorem report_tick (s : State) (a : U16) (c : Nat) : (report s a c).tick = s.tick := rfl
@[simp] theorem report_regs (s : State) (a : U16) (c : Nat) : (report s a c).regs = s.regs := rfl
@[simp] theorem report_mem (s : State) (a : U16) (c : Nat) : (report s a c).mem = s.mem := rfl
@[simp] theorem report_pending (s : State) (a : U16) (c : Nat) : (report s a c).pending = s.pending := rfl
@[simp] theorem report_rdata (s : State) (a : U16) (c : Nat) : (report s a c).rdata = s.rdata := rfl
@[simp] theorem report_dma (s : State) (a : U16) (c : Nat) : (report s a c).dma = s.dma := rfl
@[simp] theorem report_freeCtr (s : State) (a : U16) (c : Nat) : (report s a c).freeCtr = s.freeCtr := rfl
@[simp] theorem report_sys (s : State) (a : U16) (c : Nat) : (report s a c).sys = s.sys := rfl
@[simp] theorem report_std (s : State) (a : U16) (c : Nat) : (report s a c).std = s.std := rfl
@[simp] theorem report_hst (s : State) (a : U16) (c : Nat) : (report s a c).hst = s.hst := rfl
@[simp] theorem report_aut (s : State) (a : U16) (c : Nat) : (report s a c).aut = s.aut := rfl
@[simp] theorem report_cmd (s : State) (a : U16) (c : Nat) : (report s a c).cmd = s.cmd := rfl
@[simp] theorem report_ints (s : State) (a : U16) (c : Nat) : (report s a c).ints = s.ints := rfl
@[simp] theorem report_cores (s : State) (a : U16) (c : Nat) : (report s a c).cores = s.cores := rfl
@[simp] theorem report_tsk (s : State) (a : U16) (c : Nat) : (report s a c).tsk = s.tsk := rfl
@[simp] theorem report_lpe (s : State) (a : U16) (c : Nat) : (report s a c).lpe = s.lpe := rfl
@[simp] theorem report_afe (s : State) (a : U16) (c : Nat) : (report s a c).afe = s.afe := rfl
@[simp] theorem report_tim (s : State) (a : U16) (c : Nat) : (report s a c).tim = s.tim := rfl
@[simp] theorem report_fur (s : State) (a : U16) (c : Nat) : (report s a c).fur = s.fur := rfl
@[simp] theorem report_grn (s : State) (a : U16) (c : Nat) : (report s a c).grn = s.grn := rfl
@[simp] theorem report_hrw (s : State) (a : U16) (c : Nat) : (report s a c).hrw = s.hrw := rfl
@[simp] theorem report_prt (s : State) (a : U16) (c : Nat) : (report s a c).prt = s.prt := rfl
@[simp] theorem report_snr (s : State) (a : U16) (c : Nat) : (report s a c).snr = s.snr := rfl
@[simp] theorem report_stk (s : State) (a : U16) (c : Nat) : (report s a c).stk = s.stk := rfl
@[simp] theorem report_tly (s : State) (a : U16) (c : Nat) : (report s a c).tly = s.tly := rfl
@[simp] theorem report_dbg (s : State) (a : U16) (c : Nat) : (report s a c).dbg = s.dbg := rfl
@[simp] theorem report_eps (s : State) (a : U16) (c : Nat) : (report s a c).eps = s.eps := rfl
@[simp] theorem postCpl_tick (s : State) (c : Cpl) : (postCpl s c).tick = s.tick := rfl
@[simp] theorem postCpl_regs (s : State) (c : Cpl) : (postCpl s c).regs = s.regs := rfl
@[simp] theorem postCpl_mem (s : State) (c : Cpl) : (postCpl s c).mem = s.mem := rfl
@[simp] theorem postCpl_pending (s : State) (c : Cpl) : (postCpl s c).pending = s.pending := rfl
@[simp] theorem postCpl_rdata (s : State) (c : Cpl) : (postCpl s c).rdata = s.rdata := rfl
@[simp] theorem postCpl_dma (s : State) (c : Cpl) : (postCpl s c).dma = s.dma := rfl
@[simp] theorem postCpl_freeCtr (s : State) (c : Cpl) : (postCpl s c).freeCtr = s.freeCtr := rfl
@[simp] theorem postCpl_sys (s : State) (c : Cpl) : (postCpl s c).sys = s.sys := rfl
@[simp] theorem postCpl_std (s : State) (c : Cpl) : (postCpl s c).std = s.std := rfl
@[simp] theorem postCpl_flt (s : State) (c : Cpl) : (postCpl s c).flt = s.flt := rfl
@[simp] theorem postCpl_aut (s : State) (c : Cpl) : (postCpl s c).aut = s.aut := rfl
@[simp] theorem postCpl_cmd (s : State) (c : Cpl) : (postCpl s c).cmd = s.cmd := rfl
@[simp] theorem postCpl_ints (s : State) (c : Cpl) : (postCpl s c).ints = s.ints := rfl
@[simp] theorem postCpl_cores (s : State) (c : Cpl) : (postCpl s c).cores = s.cores := rfl
@[simp] theorem postCpl_tsk (s : State) (c : Cpl) : (postCpl s c).tsk = s.tsk := rfl
@[simp] theorem postCpl_lpe (s : State) (c : Cpl) : (postCpl s c).lpe = s.lpe := rfl
@[simp] theorem postCpl_afe (s : State) (c : Cpl) : (postCpl s c).afe = s.afe := rfl
@[simp] theorem postCpl_tim (s : State) (c : Cpl) : (postCpl s c).tim = s.tim := rfl
@[simp] theorem postCpl_fur (s : State) (c : Cpl) : (postCpl s c).fur = s.fur := rfl
@[simp] theorem postCpl_grn (s : State) (c : Cpl) : (postCpl s c).grn = s.grn := rfl
@[simp] theorem postCpl_hrw (s : State) (c : Cpl) : (postCpl s c).hrw = s.hrw := rfl
@[simp] theorem postCpl_prt (s : State) (c : Cpl) : (postCpl s c).prt = s.prt := rfl
@[simp] theorem postCpl_snr (s : State) (c : Cpl) : (postCpl s c).snr = s.snr := rfl
@[simp] theorem postCpl_stk (s : State) (c : Cpl) : (postCpl s c).stk = s.stk := rfl
@[simp] theorem postCpl_tly (s : State) (c : Cpl) : (postCpl s c).tly = s.tly := rfl
@[simp] theorem postCpl_dbg (s : State) (c : Cpl) : (postCpl s c).dbg = s.dbg := rfl
@[simp] theorem postCpl_eps (s : State) (c : Cpl) : (postCpl s c).eps = s.eps := rfl
@[simp] theorem setCmdRing_tick (s : State) (r : Nat) (v : CmdRing) : (setCmdRing s r v).tick = s.tick := rfl
@[simp] theorem setCmdRing_regs (s : State) (r : Nat) (v : CmdRing) : (setCmdRing s r v).regs = s.regs := rfl
@[simp] theorem setCmdRing_mem (s : State) (r : Nat) (v : CmdRing) : (setCmdRing s r v).mem = s.mem := rfl
@[simp] theorem setCmdRing_pending (s : State) (r : Nat) (v : CmdRing) : (setCmdRing s r v).pending = s.pending := rfl
@[simp] theorem setCmdRing_rdata (s : State) (r : Nat) (v : CmdRing) : (setCmdRing s r v).rdata = s.rdata := rfl
@[simp] theorem setCmdRing_dma (s : State) (r : Nat) (v : CmdRing) : (setCmdRing s r v).dma = s.dma := rfl
@[simp] theorem setCmdRing_freeCtr (s : State) (r : Nat) (v : CmdRing) : (setCmdRing s r v).freeCtr = s.freeCtr := rfl
@[simp] theorem setCmdRing_sys (s : State) (r : Nat) (v : CmdRing) : (setCmdRing s r v).sys = s.sys := rfl
@[simp] theorem setCmdRing_std (s : State) (r : Nat) (v : CmdRing) : (setCmdRing s r v).std = s.std := rfl
@[simp] theorem setCmdRing_flt (s : State) (r : Nat) (v : CmdRing) : (setCmdRing s r v).flt = s.flt := rfl
@[simp] theorem setCmdRing_aut (s : State) (r : Nat) (v : CmdRing) : (setCmdRing s r v).aut = s.aut := rfl
@[simp] theorem setCmdRing_cmd (s : State) (r : Nat) (v : CmdRing) : (setCmdRing s r v).cmd = s.cmd := rfl
@[simp] theorem setCmdRing_ints (s : State) (r : Nat) (v : CmdRing) : (setCmdRing s r v).ints = s.ints := rfl
@[simp] theorem setCmdRing_cores (s : State) (r : Nat) (v : CmdRing) : (setCmdRing s r v).cores = s.cores := rfl
@[simp] theorem setCmdRing_tsk (s : State) (r : Nat) (v : CmdRing) : (setCmdRing s r v).tsk = s.tsk := rfl
@[simp] theorem setCmdRing_lpe (s : State) (r : Nat) (v : CmdRing) : (setCmdRing s r v).lpe = s.lpe := rfl
@[simp] theorem setCmdRing_afe (s : State) (r : Nat) (v : CmdRing) : (setCmdRing s r v).afe = s.afe := rfl
@[simp] theorem setCmdRing_tim (s : State) (r : Nat) (v : CmdRing) : (setCmdRing s r v).tim = s.tim := rfl
@[simp] theorem setCmdRing_fur (s : State) (r : Nat) (v : CmdRing) : (setCmdRing s r v).fur = s.fur := rfl
@[simp] theorem setCmdRing_grn (s : State) (r : Nat) (v : CmdRing) : (setCmdRing s r v).grn = s.grn := rfl
@[simp] theorem setCmdRing_hrw (s : State) (r : Nat) (v : CmdRing) : (setCmdRing s r v).hrw = s.hrw := rfl
@[simp] theorem setCmdRing_prt (s : State) (r : Nat) (v : CmdRing) : (setCmdRing s r v).prt = s.prt := rfl
@[simp] theorem setCmdRing_snr (s : State) (r : Nat) (v : CmdRing) : (setCmdRing s r v).snr = s.snr := rfl
@[simp] theorem setCmdRing_stk (s : State) (r : Nat) (v : CmdRing) : (setCmdRing s r v).stk = s.stk := rfl
@[simp] theorem setCmdRing_tly (s : State) (r : Nat) (v : CmdRing) : (setCmdRing s r v).tly = s.tly := rfl
@[simp] theorem setCmdRing_dbg (s : State) (r : Nat) (v : CmdRing) : (setCmdRing s r v).dbg = s.dbg := rfl
@[simp] theorem setCmdRing_eps (s : State) (r : Nat) (v : CmdRing) : (setCmdRing s r v).eps = s.eps := rfl
@[simp] theorem setCplRing_tick (s : State) (r : Nat) (v : CplRing) : (setCplRing s r v).tick = s.tick := rfl
@[simp] theorem setCplRing_regs (s : State) (r : Nat) (v : CplRing) : (setCplRing s r v).regs = s.regs := rfl
@[simp] theorem setCplRing_mem (s : State) (r : Nat) (v : CplRing) : (setCplRing s r v).mem = s.mem := rfl
@[simp] theorem setCplRing_pending (s : State) (r : Nat) (v : CplRing) : (setCplRing s r v).pending = s.pending := rfl
@[simp] theorem setCplRing_rdata (s : State) (r : Nat) (v : CplRing) : (setCplRing s r v).rdata = s.rdata := rfl
@[simp] theorem setCplRing_dma (s : State) (r : Nat) (v : CplRing) : (setCplRing s r v).dma = s.dma := rfl
@[simp] theorem setCplRing_freeCtr (s : State) (r : Nat) (v : CplRing) : (setCplRing s r v).freeCtr = s.freeCtr := rfl
@[simp] theorem setCplRing_sys (s : State) (r : Nat) (v : CplRing) : (setCplRing s r v).sys = s.sys := rfl
@[simp] theorem setCplRing_std (s : State) (r : Nat) (v : CplRing) : (setCplRing s r v).std = s.std := rfl
@[simp] theorem setCplRing_flt (s : State) (r : Nat) (v : CplRing) : (setCplRing s r v).flt = s.flt := rfl
@[simp] theorem setCplRing_aut (s : State) (r : Nat) (v : CplRing) : (setCplRing s r v).aut = s.aut := rfl
@[simp] theorem setCplRing_cmd (s : State) (r : Nat) (v : CplRing) : (setCplRing s r v).cmd = s.cmd := rfl
@[simp] theorem setCplRing_ints (s : State) (r : Nat) (v : CplRing) : (setCplRing s r v).ints = s.ints := rfl
@[simp] theorem setCplRing_cores (s : State) (r : Nat) (v : CplRing) : (setCplRing s r v).cores = s.cores := rfl
@[simp] theorem setCplRing_tsk (s : State) (r : Nat) (v : CplRing) : (setCplRing s r v).tsk = s.tsk := rfl
@[simp] theorem setCplRing_lpe (s : State) (r : Nat) (v : CplRing) : (setCplRing s r v).lpe = s.lpe := rfl
@[simp] theorem setCplRing_afe (s : State) (r : Nat) (v : CplRing) : (setCplRing s r v).afe = s.afe := rfl
@[simp] theorem setCplRing_tim (s : State) (r : Nat) (v : CplRing) : (setCplRing s r v).tim = s.tim := rfl
@[simp] theorem setCplRing_fur (s : State) (r : Nat) (v : CplRing) : (setCplRing s r v).fur = s.fur := rfl
@[simp] theorem setCplRing_grn (s : State) (r : Nat) (v : CplRing) : (setCplRing s r v).grn = s.grn := rfl
@[simp] theorem setCplRing_hrw (s : State) (r : Nat) (v : CplRing) : (setCplRing s r v).hrw = s.hrw := rfl
@[simp] theorem setCplRing_prt (s : State) (r : Nat) (v : CplRing) : (setCplRing s r v).prt = s.prt := rfl
@[simp] theorem setCplRing_snr (s : State) (r : Nat) (v : CplRing) : (setCplRing s r v).snr = s.snr := rfl
@[simp] theorem setCplRing_stk (s : State) (r : Nat) (v : CplRing) : (setCplRing s r v).stk = s.stk := rfl
@[simp] theorem setCplRing_tly (s : State) (r : Nat) (v : CplRing) : (setCplRing s r v).tly = s.tly := rfl
@[simp] theorem setCplRing_dbg (s : State) (r : Nat) (v : CplRing) : (setCplRing s r v).dbg = s.dbg := rfl
@[simp] theorem setCplRing_eps (s : State) (r : Nat) (v : CplRing) : (setCplRing s r v).eps = s.eps := rfl
@[simp] theorem setAck_tick (n : Nat) (s : State) : (setAck n s).tick = s.tick := rfl
@[simp] theorem setAck_regs (n : Nat) (s : State) : (setAck n s).regs = s.regs := rfl
@[simp] theorem setAck_mem (n : Nat) (s : State) : (setAck n s).mem = s.mem := rfl
@[simp] theorem setAck_pending (n : Nat) (s : State) : (setAck n s).pending = s.pending := rfl
@[simp] theorem setAck_rdata (n : Nat) (s : State) : (setAck n s).rdata = s.rdata := rfl
@[simp] theorem setAck_dma (n : Nat) (s : State) : (setAck n s).dma = s.dma := rfl
@[simp] theorem setAck_freeCtr (n : Nat) (s : State) : (setAck n s).freeCtr = s.freeCtr := rfl
@[simp] theorem setAck_sys (n : Nat) (s : State) : (setAck n s).sys = s.sys := rfl
@[simp] theorem setAck_std (n : Nat) (s : State) : (setAck n s).std = s.std := rfl
@[simp] theorem setAck_hst (n : Nat) (s : State) : (setAck n s).hst = s.hst := rfl
@[simp] theorem setAck_flt (n : Nat) (s : State) : (setAck n s).flt = s.flt := rfl
@[simp] theorem setAck_aut (n : Nat) (s : State) : (setAck n s).aut = s.aut := rfl
@[simp] theorem setAck_cmd (n : Nat) (s : State) : (setAck n s).cmd = s.cmd := rfl
@[simp] theorem setAck_ints (n : Nat) (s : State) : (setAck n s).ints = s.ints := rfl
@[simp] theorem setAck_cores (n : Nat) (s : State) : (setAck n s).cores = s.cores := rfl
@[simp] theorem setAck_tsk (n : Nat) (s : State) : (setAck n s).tsk = s.tsk := rfl
@[simp] theorem setAck_lpe (n : Nat) (s : State) : (setAck n s).lpe = s.lpe := rfl
@[simp] theorem setAck_afe (n : Nat) (s : State) : (setAck n s).afe = s.afe := rfl
@[simp] theorem setAck_tim (n : Nat) (s : State) : (setAck n s).tim = s.tim := rfl
@[simp] theorem setAck_fur (n : Nat) (s : State) : (setAck n s).fur = s.fur := rfl
@[simp] theorem setAck_grn (n : Nat) (s : State) : (setAck n s).grn = s.grn := rfl
@[simp] theorem setAck_hrw (n : Nat) (s : State) : (setAck n s).hrw = s.hrw := rfl
@[simp] theorem setAck_prt (n : Nat) (s : State) : (setAck n s).prt = s.prt := rfl
@[simp] theorem setAck_snr (n : Nat) (s : State) : (setAck n s).snr = s.snr := rfl
@[simp] theorem setAck_stk (n : Nat) (s : State) : (setAck n s).stk = s.stk := rfl
@[simp] theorem setAck_tly (n : Nat) (s : State) : (setAck n s).tly = s.tly := rfl
@[simp] theorem setAck_eps (n : Nat) (s : State) : (setAck n s).eps = s.eps := rfl
@[simp] theorem setSeq_tick (s : State) (i : Nat) (v : Seq) : (setSeq s i v).tick = s.tick := rfl
@[simp] theorem setSeq_regs (s : State) (i : Nat) (v : Seq) : (setSeq s i v).regs = s.regs := rfl
@[simp] theorem setSeq_mem (s : State) (i : Nat) (v : Seq) : (setSeq s i v).mem = s.mem := rfl
@[simp] theorem setSeq_pending (s : State) (i : Nat) (v : Seq) : (setSeq s i v).pending = s.pending := rfl
@[simp] theorem setSeq_rdata (s : State) (i : Nat) (v : Seq) : (setSeq s i v).rdata = s.rdata := rfl
@[simp] theorem setSeq_dma (s : State) (i : Nat) (v : Seq) : (setSeq s i v).dma = s.dma := rfl
@[simp] theorem setSeq_freeCtr (s : State) (i : Nat) (v : Seq) : (setSeq s i v).freeCtr = s.freeCtr := rfl
@[simp] theorem setSeq_sys (s : State) (i : Nat) (v : Seq) : (setSeq s i v).sys = s.sys := rfl
@[simp] theorem setSeq_std (s : State) (i : Nat) (v : Seq) : (setSeq s i v).std = s.std := rfl
@[simp] theorem setSeq_hst (s : State) (i : Nat) (v : Seq) : (setSeq s i v).hst = s.hst := rfl
@[simp] theorem setSeq_flt (s : State) (i : Nat) (v : Seq) : (setSeq s i v).flt = s.flt := rfl
@[simp] theorem setSeq_aut (s : State) (i : Nat) (v : Seq) : (setSeq s i v).aut = s.aut := rfl
@[simp] theorem setSeq_cmd (s : State) (i : Nat) (v : Seq) : (setSeq s i v).cmd = s.cmd := rfl
@[simp] theorem setSeq_ints (s : State) (i : Nat) (v : Seq) : (setSeq s i v).ints = s.ints := rfl
@[simp] theorem setSeq_cores (s : State) (i : Nat) (v : Seq) : (setSeq s i v).cores = s.cores := rfl
@[simp] theorem setSeq_tsk (s : State) (i : Nat) (v : Seq) : (setSeq s i v).tsk = s.tsk := rfl
@[simp] theorem setSeq_lpe (s : State) (i : Nat) (v : Seq) : (setSeq s i v).lpe = s.lpe := rfl
@[simp] theorem setSeq_tim (s : State) (i : Nat) (v : Seq) : (setSeq s i v).tim = s.tim := rfl
@[simp] theorem setSeq_fur (s : State) (i : Nat) (v : Seq) : (setSeq s i v).fur = s.fur := rfl
@[simp] theorem setSeq_grn (s : State) (i : Nat) (v : Seq) : (setSeq s i v).grn = s.grn := rfl
@[simp] theorem setSeq_hrw (s : State) (i : Nat) (v : Seq) : (setSeq s i v).hrw = s.hrw := rfl
@[simp] theorem setSeq_prt (s : State) (i : Nat) (v : Seq) : (setSeq s i v).prt = s.prt := rfl
@[simp] theorem setSeq_snr (s : State) (i : Nat) (v : Seq) : (setSeq s i v).snr = s.snr := rfl
@[simp] theorem setSeq_stk (s : State) (i : Nat) (v : Seq) : (setSeq s i v).stk = s.stk := rfl
@[simp] theorem setSeq_tly (s : State) (i : Nat) (v : Seq) : (setSeq s i v).tly = s.tly := rfl
@[simp] theorem setSeq_dbg (s : State) (i : Nat) (v : Seq) : (setSeq s i v).dbg = s.dbg := rfl
@[simp] theorem setSeq_eps (s : State) (i : Nat) (v : Seq) : (setSeq s i v).eps = s.eps := rfl
@[simp] theorem setSeq_same (s : State) (i : Nat) (v : Seq) : seq (setSeq s i v) i = v := tget_tset_same _ _ _ _
theorem setSeq_ne (s : State) (i : Nat) (v : Seq) (k : Nat) (h : k ≠ i) : seq (setSeq s i v) k = seq s k := tget_tset_ne h
@[simp] theorem setChan_tick (s : State) (i : Nat) (v : Chan) : (setChan s i v).tick = s.tick := rfl
@[simp] theorem setChan_regs (s : State) (i : Nat) (v : Chan) : (setChan s i v).regs = s.regs := rfl
@[simp] theorem setChan_mem (s : State) (i : Nat) (v : Chan) : (setChan s i v).mem = s.mem := rfl
@[simp] theorem setChan_pending (s : State) (i : Nat) (v : Chan) : (setChan s i v).pending = s.pending := rfl
@[simp] theorem setChan_rdata (s : State) (i : Nat) (v : Chan) : (setChan s i v).rdata = s.rdata := rfl
@[simp] theorem setChan_dma (s : State) (i : Nat) (v : Chan) : (setChan s i v).dma = s.dma := rfl
@[simp] theorem setChan_freeCtr (s : State) (i : Nat) (v : Chan) : (setChan s i v).freeCtr = s.freeCtr := rfl
@[simp] theorem setChan_sys (s : State) (i : Nat) (v : Chan) : (setChan s i v).sys = s.sys := rfl
@[simp] theorem setChan_std (s : State) (i : Nat) (v : Chan) : (setChan s i v).std = s.std := rfl
@[simp] theorem setChan_hst (s : State) (i : Nat) (v : Chan) : (setChan s i v).hst = s.hst := rfl
@[simp] theorem setChan_flt (s : State) (i : Nat) (v : Chan) : (setChan s i v).flt = s.flt := rfl
@[simp] theorem setChan_aut (s : State) (i : Nat) (v : Chan) : (setChan s i v).aut = s.aut := rfl
@[simp] theorem setChan_cmd (s : State) (i : Nat) (v : Chan) : (setChan s i v).cmd = s.cmd := rfl
@[simp] theorem setChan_ints (s : State) (i : Nat) (v : Chan) : (setChan s i v).ints = s.ints := rfl
@[simp] theorem setChan_cores (s : State) (i : Nat) (v : Chan) : (setChan s i v).cores = s.cores := rfl
@[simp] theorem setChan_tsk (s : State) (i : Nat) (v : Chan) : (setChan s i v).tsk = s.tsk := rfl
@[simp] theorem setChan_lpe (s : State) (i : Nat) (v : Chan) : (setChan s i v).lpe = s.lpe := rfl
@[simp] theorem setChan_tim (s : State) (i : Nat) (v : Chan) : (setChan s i v).tim = s.tim := rfl
@[simp] theorem setChan_fur (s : State) (i : Nat) (v : Chan) : (setChan s i v).fur = s.fur := rfl
@[simp] theorem setChan_grn (s : State) (i : Nat) (v : Chan) : (setChan s i v).grn = s.grn := rfl
@[simp] theorem setChan_hrw (s : State) (i : Nat) (v : Chan) : (setChan s i v).hrw = s.hrw := rfl
@[simp] theorem setChan_prt (s : State) (i : Nat) (v : Chan) : (setChan s i v).prt = s.prt := rfl
@[simp] theorem setChan_snr (s : State) (i : Nat) (v : Chan) : (setChan s i v).snr = s.snr := rfl
@[simp] theorem setChan_stk (s : State) (i : Nat) (v : Chan) : (setChan s i v).stk = s.stk := rfl
@[simp] theorem setChan_tly (s : State) (i : Nat) (v : Chan) : (setChan s i v).tly = s.tly := rfl
@[simp] theorem setChan_dbg (s : State) (i : Nat) (v : Chan) : (setChan s i v).dbg = s.dbg := rfl
@[simp] theorem setChan_eps (s : State) (i : Nat) (v : Chan) : (setChan s i v).eps = s.eps := rfl
@[simp] theorem setChan_same (s : State) (i : Nat) (v : Chan) : chan (setChan s i v) i = v := tget_tset_same _ _ _ _
theorem setChan_ne (s : State) (i : Nat) (v : Chan) (k : Nat) (h : k ≠ i) : chan (setChan s i v) k = chan s k := tget_tset_ne h
@[simp] theorem setCmp_tick (s : State) (i : Nat) (v : Cmp) : (setCmp s i v).tick = s.tick := rfl
@[simp] theorem setCmp_regs (s : State) (i : Nat) (v : Cmp) : (setCmp s i v).regs = s.regs := rfl
@[simp] theorem setCmp_mem (s : State) (i : Nat) (v : Cmp) : (setCmp s i v).mem = s.mem := rfl
@[simp] theorem setCmp_pending (s : State) (i : Nat) (v : Cmp) : (setCmp s i v).pending = s.pending := rfl
@[simp] theorem setCmp_rdata (s : State) (i : Nat) (v : Cmp) : (setCmp s i v).rdata = s.rdata := rfl
@[simp] theorem setCmp_dma (s : State) (i : Nat) (v : Cmp) : (setCmp s i v).dma = s.dma := rfl
@[simp] theorem setCmp_freeCtr (s : State) (i : Nat) (v : Cmp) : (setCmp s i v).freeCtr = s.freeCtr := rfl
@[simp] theorem setCmp_sys (s : State) (i : Nat) (v : Cmp) : (setCmp s i v).sys = s.sys := rfl
@[simp] theorem setCmp_std (s : State) (i : Nat) (v : Cmp) : (setCmp s i v).std = s.std := rfl
@[simp] theorem setCmp_hst (s : State) (i : Nat) (v : Cmp) : (setCmp s i v).hst = s.hst := rfl
@[simp] theorem setCmp_flt (s : State) (i : Nat) (v : Cmp) : (setCmp s i v).flt = s.flt := rfl
@[simp] theorem setCmp_aut (s : State) (i : Nat) (v : Cmp) : (setCmp s i v).aut = s.aut := rfl
@[simp] theorem setCmp_cmd (s : State) (i : Nat) (v : Cmp) : (setCmp s i v).cmd = s.cmd := rfl
@[simp] theorem setCmp_ints (s : State) (i : Nat) (v : Cmp) : (setCmp s i v).ints = s.ints := rfl
@[simp] theorem setCmp_cores (s : State) (i : Nat) (v : Cmp) : (setCmp s i v).cores = s.cores := rfl
@[simp] theorem setCmp_tsk (s : State) (i : Nat) (v : Cmp) : (setCmp s i v).tsk = s.tsk := rfl
@[simp] theorem setCmp_lpe (s : State) (i : Nat) (v : Cmp) : (setCmp s i v).lpe = s.lpe := rfl
@[simp] theorem setCmp_tim (s : State) (i : Nat) (v : Cmp) : (setCmp s i v).tim = s.tim := rfl
@[simp] theorem setCmp_fur (s : State) (i : Nat) (v : Cmp) : (setCmp s i v).fur = s.fur := rfl
@[simp] theorem setCmp_grn (s : State) (i : Nat) (v : Cmp) : (setCmp s i v).grn = s.grn := rfl
@[simp] theorem setCmp_hrw (s : State) (i : Nat) (v : Cmp) : (setCmp s i v).hrw = s.hrw := rfl
@[simp] theorem setCmp_prt (s : State) (i : Nat) (v : Cmp) : (setCmp s i v).prt = s.prt := rfl
@[simp] theorem setCmp_snr (s : State) (i : Nat) (v : Cmp) : (setCmp s i v).snr = s.snr := rfl
@[simp] theorem setCmp_stk (s : State) (i : Nat) (v : Cmp) : (setCmp s i v).stk = s.stk := rfl
@[simp] theorem setCmp_tly (s : State) (i : Nat) (v : Cmp) : (setCmp s i v).tly = s.tly := rfl
@[simp] theorem setCmp_dbg (s : State) (i : Nat) (v : Cmp) : (setCmp s i v).dbg = s.dbg := rfl
@[simp] theorem setCmp_eps (s : State) (i : Nat) (v : Cmp) : (setCmp s i v).eps = s.eps := rfl
@[simp] theorem setCmp_same (s : State) (i : Nat) (v : Cmp) : cmpr (setCmp s i v) i = v := tget_tset_same _ _ _ _
theorem setCmp_ne (s : State) (i : Nat) (v : Cmp) (k : Nat) (h : k ≠ i) : cmpr (setCmp s i v) k = cmpr s k := tget_tset_ne h
@[simp] theorem setKeySlot_tick (s : State) (i : Nat) (v : KeySlot) : (setKeySlot s i v).tick = s.tick := rfl
@[simp] theorem setKeySlot_regs (s : State) (i : Nat) (v : KeySlot) : (setKeySlot s i v).regs = s.regs := rfl
@[simp] theorem setKeySlot_mem (s : State) (i : Nat) (v : KeySlot) : (setKeySlot s i v).mem = s.mem := rfl
@[simp] theorem setKeySlot_pending (s : State) (i : Nat) (v : KeySlot) : (setKeySlot s i v).pending = s.pending := rfl
@[simp] theorem setKeySlot_rdata (s : State) (i : Nat) (v : KeySlot) : (setKeySlot s i v).rdata = s.rdata := rfl
@[simp] theorem setKeySlot_dma (s : State) (i : Nat) (v : KeySlot) : (setKeySlot s i v).dma = s.dma := rfl
@[simp] theorem setKeySlot_freeCtr (s : State) (i : Nat) (v : KeySlot) : (setKeySlot s i v).freeCtr = s.freeCtr := rfl
@[simp] theorem setKeySlot_sys (s : State) (i : Nat) (v : KeySlot) : (setKeySlot s i v).sys = s.sys := rfl
@[simp] theorem setKeySlot_hst (s : State) (i : Nat) (v : KeySlot) : (setKeySlot s i v).hst = s.hst := rfl
@[simp] theorem setKeySlot_flt (s : State) (i : Nat) (v : KeySlot) : (setKeySlot s i v).flt = s.flt := rfl
@[simp] theorem setKeySlot_aut (s : State) (i : Nat) (v : KeySlot) : (setKeySlot s i v).aut = s.aut := rfl
@[simp] theorem setKeySlot_cmd (s : State) (i : Nat) (v : KeySlot) : (setKeySlot s i v).cmd = s.cmd := rfl
@[simp] theorem setKeySlot_ints (s : State) (i : Nat) (v : KeySlot) : (setKeySlot s i v).ints = s.ints := rfl
@[simp] theorem setKeySlot_cores (s : State) (i : Nat) (v : KeySlot) : (setKeySlot s i v).cores = s.cores := rfl
@[simp] theorem setKeySlot_tsk (s : State) (i : Nat) (v : KeySlot) : (setKeySlot s i v).tsk = s.tsk := rfl
@[simp] theorem setKeySlot_lpe (s : State) (i : Nat) (v : KeySlot) : (setKeySlot s i v).lpe = s.lpe := rfl
@[simp] theorem setKeySlot_afe (s : State) (i : Nat) (v : KeySlot) : (setKeySlot s i v).afe = s.afe := rfl
@[simp] theorem setKeySlot_tim (s : State) (i : Nat) (v : KeySlot) : (setKeySlot s i v).tim = s.tim := rfl
@[simp] theorem setKeySlot_fur (s : State) (i : Nat) (v : KeySlot) : (setKeySlot s i v).fur = s.fur := rfl
@[simp] theorem setKeySlot_grn (s : State) (i : Nat) (v : KeySlot) : (setKeySlot s i v).grn = s.grn := rfl
@[simp] theorem setKeySlot_hrw (s : State) (i : Nat) (v : KeySlot) : (setKeySlot s i v).hrw = s.hrw := rfl
@[simp] theorem setKeySlot_prt (s : State) (i : Nat) (v : KeySlot) : (setKeySlot s i v).prt = s.prt := rfl
@[simp] theorem setKeySlot_snr (s : State) (i : Nat) (v : KeySlot) : (setKeySlot s i v).snr = s.snr := rfl
@[simp] theorem setKeySlot_stk (s : State) (i : Nat) (v : KeySlot) : (setKeySlot s i v).stk = s.stk := rfl
@[simp] theorem setKeySlot_tly (s : State) (i : Nat) (v : KeySlot) : (setKeySlot s i v).tly = s.tly := rfl
@[simp] theorem setKeySlot_dbg (s : State) (i : Nat) (v : KeySlot) : (setKeySlot s i v).dbg = s.dbg := rfl
@[simp] theorem setKeySlot_eps (s : State) (i : Nat) (v : KeySlot) : (setKeySlot s i v).eps = s.eps := rfl
@[simp] theorem setKeySlot_same (s : State) (i : Nat) (v : KeySlot) : keySlot (setKeySlot s i v) i = v := tget_tset_same _ _ _ _
theorem setKeySlot_ne (s : State) (i : Nat) (v : KeySlot) (k : Nat) (h : k ≠ i) : keySlot (setKeySlot s i v) k = keySlot s k := tget_tset_ne h
@[simp] theorem setSession_tick (s : State) (i : Nat) (v : Session) : (setSession s i v).tick = s.tick := rfl
@[simp] theorem setSession_regs (s : State) (i : Nat) (v : Session) : (setSession s i v).regs = s.regs := rfl
@[simp] theorem setSession_mem (s : State) (i : Nat) (v : Session) : (setSession s i v).mem = s.mem := rfl
@[simp] theorem setSession_pending (s : State) (i : Nat) (v : Session) : (setSession s i v).pending = s.pending := rfl
@[simp] theorem setSession_rdata (s : State) (i : Nat) (v : Session) : (setSession s i v).rdata = s.rdata := rfl
@[simp] theorem setSession_dma (s : State) (i : Nat) (v : Session) : (setSession s i v).dma = s.dma := rfl
@[simp] theorem setSession_freeCtr (s : State) (i : Nat) (v : Session) : (setSession s i v).freeCtr = s.freeCtr := rfl
@[simp] theorem setSession_sys (s : State) (i : Nat) (v : Session) : (setSession s i v).sys = s.sys := rfl
@[simp] theorem setSession_std (s : State) (i : Nat) (v : Session) : (setSession s i v).std = s.std := rfl
@[simp] theorem setSession_hst (s : State) (i : Nat) (v : Session) : (setSession s i v).hst = s.hst := rfl
@[simp] theorem setSession_flt (s : State) (i : Nat) (v : Session) : (setSession s i v).flt = s.flt := rfl
@[simp] theorem setSession_cmd (s : State) (i : Nat) (v : Session) : (setSession s i v).cmd = s.cmd := rfl
@[simp] theorem setSession_ints (s : State) (i : Nat) (v : Session) : (setSession s i v).ints = s.ints := rfl
@[simp] theorem setSession_cores (s : State) (i : Nat) (v : Session) : (setSession s i v).cores = s.cores := rfl
@[simp] theorem setSession_tsk (s : State) (i : Nat) (v : Session) : (setSession s i v).tsk = s.tsk := rfl
@[simp] theorem setSession_lpe (s : State) (i : Nat) (v : Session) : (setSession s i v).lpe = s.lpe := rfl
@[simp] theorem setSession_afe (s : State) (i : Nat) (v : Session) : (setSession s i v).afe = s.afe := rfl
@[simp] theorem setSession_tim (s : State) (i : Nat) (v : Session) : (setSession s i v).tim = s.tim := rfl
@[simp] theorem setSession_fur (s : State) (i : Nat) (v : Session) : (setSession s i v).fur = s.fur := rfl
@[simp] theorem setSession_grn (s : State) (i : Nat) (v : Session) : (setSession s i v).grn = s.grn := rfl
@[simp] theorem setSession_hrw (s : State) (i : Nat) (v : Session) : (setSession s i v).hrw = s.hrw := rfl
@[simp] theorem setSession_prt (s : State) (i : Nat) (v : Session) : (setSession s i v).prt = s.prt := rfl
@[simp] theorem setSession_snr (s : State) (i : Nat) (v : Session) : (setSession s i v).snr = s.snr := rfl
@[simp] theorem setSession_stk (s : State) (i : Nat) (v : Session) : (setSession s i v).stk = s.stk := rfl
@[simp] theorem setSession_tly (s : State) (i : Nat) (v : Session) : (setSession s i v).tly = s.tly := rfl
@[simp] theorem setSession_dbg (s : State) (i : Nat) (v : Session) : (setSession s i v).dbg = s.dbg := rfl
@[simp] theorem setSession_eps (s : State) (i : Nat) (v : Session) : (setSession s i v).eps = s.eps := rfl
@[simp] theorem setSession_same (s : State) (i : Nat) (v : Session) : tget {} (setSession s i v).aut.sess i = v := tget_tset_same _ _ _ _
theorem setSession_ne (s : State) (i : Nat) (v : Session) (k : Nat) (h : k ≠ i) : tget {} (setSession s i v).aut.sess k = tget {} s.aut.sess k := tget_tset_ne h
@[simp] theorem setGroup_tick (s : State) (i : Nat) (v : Group) : (setGroup s i v).tick = s.tick := rfl
@[simp] theorem setGroup_regs (s : State) (i : Nat) (v : Group) : (setGroup s i v).regs = s.regs := rfl
@[simp] theorem setGroup_mem (s : State) (i : Nat) (v : Group) : (setGroup s i v).mem = s.mem := rfl
@[simp] theorem setGroup_pending (s : State) (i : Nat) (v : Group) : (setGroup s i v).pending = s.pending := rfl
@[simp] theorem setGroup_rdata (s : State) (i : Nat) (v : Group) : (setGroup s i v).rdata = s.rdata := rfl
@[simp] theorem setGroup_dma (s : State) (i : Nat) (v : Group) : (setGroup s i v).dma = s.dma := rfl
@[simp] theorem setGroup_freeCtr (s : State) (i : Nat) (v : Group) : (setGroup s i v).freeCtr = s.freeCtr := rfl
@[simp] theorem setGroup_sys (s : State) (i : Nat) (v : Group) : (setGroup s i v).sys = s.sys := rfl
@[simp] theorem setGroup_std (s : State) (i : Nat) (v : Group) : (setGroup s i v).std = s.std := rfl
@[simp] theorem setGroup_hst (s : State) (i : Nat) (v : Group) : (setGroup s i v).hst = s.hst := rfl
@[simp] theorem setGroup_flt (s : State) (i : Nat) (v : Group) : (setGroup s i v).flt = s.flt := rfl
@[simp] theorem setGroup_aut (s : State) (i : Nat) (v : Group) : (setGroup s i v).aut = s.aut := rfl
@[simp] theorem setGroup_ints (s : State) (i : Nat) (v : Group) : (setGroup s i v).ints = s.ints := rfl
@[simp] theorem setGroup_cores (s : State) (i : Nat) (v : Group) : (setGroup s i v).cores = s.cores := rfl
@[simp] theorem setGroup_tsk (s : State) (i : Nat) (v : Group) : (setGroup s i v).tsk = s.tsk := rfl
@[simp] theorem setGroup_lpe (s : State) (i : Nat) (v : Group) : (setGroup s i v).lpe = s.lpe := rfl
@[simp] theorem setGroup_afe (s : State) (i : Nat) (v : Group) : (setGroup s i v).afe = s.afe := rfl
@[simp] theorem setGroup_tim (s : State) (i : Nat) (v : Group) : (setGroup s i v).tim = s.tim := rfl
@[simp] theorem setGroup_fur (s : State) (i : Nat) (v : Group) : (setGroup s i v).fur = s.fur := rfl
@[simp] theorem setGroup_grn (s : State) (i : Nat) (v : Group) : (setGroup s i v).grn = s.grn := rfl
@[simp] theorem setGroup_hrw (s : State) (i : Nat) (v : Group) : (setGroup s i v).hrw = s.hrw := rfl
@[simp] theorem setGroup_prt (s : State) (i : Nat) (v : Group) : (setGroup s i v).prt = s.prt := rfl
@[simp] theorem setGroup_snr (s : State) (i : Nat) (v : Group) : (setGroup s i v).snr = s.snr := rfl
@[simp] theorem setGroup_stk (s : State) (i : Nat) (v : Group) : (setGroup s i v).stk = s.stk := rfl
@[simp] theorem setGroup_tly (s : State) (i : Nat) (v : Group) : (setGroup s i v).tly = s.tly := rfl
@[simp] theorem setGroup_dbg (s : State) (i : Nat) (v : Group) : (setGroup s i v).dbg = s.dbg := rfl
@[simp] theorem setGroup_eps (s : State) (i : Nat) (v : Group) : (setGroup s i v).eps = s.eps := rfl
@[simp] theorem setGroup_same (s : State) (i : Nat) (v : Group) : group (setGroup s i v) i = v := tget_tset_same _ _ _ _
theorem setGroup_ne (s : State) (i : Nat) (v : Group) (k : Nat) (h : k ≠ i) : group (setGroup s i v) k = group s k := tget_tset_ne h
@[simp] theorem setRing_tick (s : State) (i : Nat) (v : Ring) : (setRing s i v).tick = s.tick := rfl
@[simp] theorem setRing_regs (s : State) (i : Nat) (v : Ring) : (setRing s i v).regs = s.regs := rfl
@[simp] theorem setRing_mem (s : State) (i : Nat) (v : Ring) : (setRing s i v).mem = s.mem := rfl
@[simp] theorem setRing_pending (s : State) (i : Nat) (v : Ring) : (setRing s i v).pending = s.pending := rfl
@[simp] theorem setRing_rdata (s : State) (i : Nat) (v : Ring) : (setRing s i v).rdata = s.rdata := rfl
@[simp] theorem setRing_dma (s : State) (i : Nat) (v : Ring) : (setRing s i v).dma = s.dma := rfl
@[simp] theorem setRing_freeCtr (s : State) (i : Nat) (v : Ring) : (setRing s i v).freeCtr = s.freeCtr := rfl
@[simp] theorem setRing_sys (s : State) (i : Nat) (v : Ring) : (setRing s i v).sys = s.sys := rfl
@[simp] theorem setRing_std (s : State) (i : Nat) (v : Ring) : (setRing s i v).std = s.std := rfl
@[simp] theorem setRing_hst (s : State) (i : Nat) (v : Ring) : (setRing s i v).hst = s.hst := rfl
@[simp] theorem setRing_flt (s : State) (i : Nat) (v : Ring) : (setRing s i v).flt = s.flt := rfl
@[simp] theorem setRing_aut (s : State) (i : Nat) (v : Ring) : (setRing s i v).aut = s.aut := rfl
@[simp] theorem setRing_cmd (s : State) (i : Nat) (v : Ring) : (setRing s i v).cmd = s.cmd := rfl
@[simp] theorem setRing_ints (s : State) (i : Nat) (v : Ring) : (setRing s i v).ints = s.ints := rfl
@[simp] theorem setRing_cores (s : State) (i : Nat) (v : Ring) : (setRing s i v).cores = s.cores := rfl
@[simp] theorem setRing_tsk (s : State) (i : Nat) (v : Ring) : (setRing s i v).tsk = s.tsk := rfl
@[simp] theorem setRing_lpe (s : State) (i : Nat) (v : Ring) : (setRing s i v).lpe = s.lpe := rfl
@[simp] theorem setRing_afe (s : State) (i : Nat) (v : Ring) : (setRing s i v).afe = s.afe := rfl
@[simp] theorem setRing_tim (s : State) (i : Nat) (v : Ring) : (setRing s i v).tim = s.tim := rfl
@[simp] theorem setRing_grn (s : State) (i : Nat) (v : Ring) : (setRing s i v).grn = s.grn := rfl
@[simp] theorem setRing_hrw (s : State) (i : Nat) (v : Ring) : (setRing s i v).hrw = s.hrw := rfl
@[simp] theorem setRing_prt (s : State) (i : Nat) (v : Ring) : (setRing s i v).prt = s.prt := rfl
@[simp] theorem setRing_snr (s : State) (i : Nat) (v : Ring) : (setRing s i v).snr = s.snr := rfl
@[simp] theorem setRing_stk (s : State) (i : Nat) (v : Ring) : (setRing s i v).stk = s.stk := rfl
@[simp] theorem setRing_tly (s : State) (i : Nat) (v : Ring) : (setRing s i v).tly = s.tly := rfl
@[simp] theorem setRing_dbg (s : State) (i : Nat) (v : Ring) : (setRing s i v).dbg = s.dbg := rfl
@[simp] theorem setRing_eps (s : State) (i : Nat) (v : Ring) : (setRing s i v).eps = s.eps := rfl
@[simp] theorem setRing_same (s : State) (i : Nat) (v : Ring) : ring (setRing s i v) i = v := tget_tset_same _ _ _ _
theorem setRing_ne (s : State) (i : Nat) (v : Ring) (k : Nat) (h : k ≠ i) : ring (setRing s i v) k = ring s k := tget_tset_ne h
@[simp] theorem setHCell_tick (s : State) (i : Nat) (v : HCell) : (setHCell s i v).tick = s.tick := rfl
@[simp] theorem setHCell_regs (s : State) (i : Nat) (v : HCell) : (setHCell s i v).regs = s.regs := rfl
@[simp] theorem setHCell_mem (s : State) (i : Nat) (v : HCell) : (setHCell s i v).mem = s.mem := rfl
@[simp] theorem setHCell_pending (s : State) (i : Nat) (v : HCell) : (setHCell s i v).pending = s.pending := rfl
@[simp] theorem setHCell_rdata (s : State) (i : Nat) (v : HCell) : (setHCell s i v).rdata = s.rdata := rfl
@[simp] theorem setHCell_dma (s : State) (i : Nat) (v : HCell) : (setHCell s i v).dma = s.dma := rfl
@[simp] theorem setHCell_freeCtr (s : State) (i : Nat) (v : HCell) : (setHCell s i v).freeCtr = s.freeCtr := rfl
@[simp] theorem setHCell_sys (s : State) (i : Nat) (v : HCell) : (setHCell s i v).sys = s.sys := rfl
@[simp] theorem setHCell_std (s : State) (i : Nat) (v : HCell) : (setHCell s i v).std = s.std := rfl
@[simp] theorem setHCell_hst (s : State) (i : Nat) (v : HCell) : (setHCell s i v).hst = s.hst := rfl
@[simp] theorem setHCell_flt (s : State) (i : Nat) (v : HCell) : (setHCell s i v).flt = s.flt := rfl
@[simp] theorem setHCell_aut (s : State) (i : Nat) (v : HCell) : (setHCell s i v).aut = s.aut := rfl
@[simp] theorem setHCell_cmd (s : State) (i : Nat) (v : HCell) : (setHCell s i v).cmd = s.cmd := rfl
@[simp] theorem setHCell_ints (s : State) (i : Nat) (v : HCell) : (setHCell s i v).ints = s.ints := rfl
@[simp] theorem setHCell_cores (s : State) (i : Nat) (v : HCell) : (setHCell s i v).cores = s.cores := rfl
@[simp] theorem setHCell_tsk (s : State) (i : Nat) (v : HCell) : (setHCell s i v).tsk = s.tsk := rfl
@[simp] theorem setHCell_lpe (s : State) (i : Nat) (v : HCell) : (setHCell s i v).lpe = s.lpe := rfl
@[simp] theorem setHCell_afe (s : State) (i : Nat) (v : HCell) : (setHCell s i v).afe = s.afe := rfl
@[simp] theorem setHCell_tim (s : State) (i : Nat) (v : HCell) : (setHCell s i v).tim = s.tim := rfl
@[simp] theorem setHCell_fur (s : State) (i : Nat) (v : HCell) : (setHCell s i v).fur = s.fur := rfl
@[simp] theorem setHCell_grn (s : State) (i : Nat) (v : HCell) : (setHCell s i v).grn = s.grn := rfl
@[simp] theorem setHCell_prt (s : State) (i : Nat) (v : HCell) : (setHCell s i v).prt = s.prt := rfl
@[simp] theorem setHCell_snr (s : State) (i : Nat) (v : HCell) : (setHCell s i v).snr = s.snr := rfl
@[simp] theorem setHCell_stk (s : State) (i : Nat) (v : HCell) : (setHCell s i v).stk = s.stk := rfl
@[simp] theorem setHCell_tly (s : State) (i : Nat) (v : HCell) : (setHCell s i v).tly = s.tly := rfl
@[simp] theorem setHCell_dbg (s : State) (i : Nat) (v : HCell) : (setHCell s i v).dbg = s.dbg := rfl
@[simp] theorem setHCell_eps (s : State) (i : Nat) (v : HCell) : (setHCell s i v).eps = s.eps := rfl
@[simp] theorem setHCell_same (s : State) (i : Nat) (v : HCell) : hcell (setHCell s i v) i = v := tget_tset_same _ _ _ _
theorem setHCell_ne (s : State) (i : Nat) (v : HCell) (k : Nat) (h : k ≠ i) : hcell (setHCell s i v) k = hcell s k := tget_tset_ne h
@[simp] theorem setHArm_tick (s : State) (i : Nat) (v : HArm) : (setHArm s i v).tick = s.tick := rfl
@[simp] theorem setHArm_regs (s : State) (i : Nat) (v : HArm) : (setHArm s i v).regs = s.regs := rfl
@[simp] theorem setHArm_mem (s : State) (i : Nat) (v : HArm) : (setHArm s i v).mem = s.mem := rfl
@[simp] theorem setHArm_pending (s : State) (i : Nat) (v : HArm) : (setHArm s i v).pending = s.pending := rfl
@[simp] theorem setHArm_rdata (s : State) (i : Nat) (v : HArm) : (setHArm s i v).rdata = s.rdata := rfl
@[simp] theorem setHArm_dma (s : State) (i : Nat) (v : HArm) : (setHArm s i v).dma = s.dma := rfl
@[simp] theorem setHArm_freeCtr (s : State) (i : Nat) (v : HArm) : (setHArm s i v).freeCtr = s.freeCtr := rfl
@[simp] theorem setHArm_sys (s : State) (i : Nat) (v : HArm) : (setHArm s i v).sys = s.sys := rfl
@[simp] theorem setHArm_std (s : State) (i : Nat) (v : HArm) : (setHArm s i v).std = s.std := rfl
@[simp] theorem setHArm_hst (s : State) (i : Nat) (v : HArm) : (setHArm s i v).hst = s.hst := rfl
@[simp] theorem setHArm_flt (s : State) (i : Nat) (v : HArm) : (setHArm s i v).flt = s.flt := rfl
@[simp] theorem setHArm_aut (s : State) (i : Nat) (v : HArm) : (setHArm s i v).aut = s.aut := rfl
@[simp] theorem setHArm_cmd (s : State) (i : Nat) (v : HArm) : (setHArm s i v).cmd = s.cmd := rfl
@[simp] theorem setHArm_ints (s : State) (i : Nat) (v : HArm) : (setHArm s i v).ints = s.ints := rfl
@[simp] theorem setHArm_cores (s : State) (i : Nat) (v : HArm) : (setHArm s i v).cores = s.cores := rfl
@[simp] theorem setHArm_tsk (s : State) (i : Nat) (v : HArm) : (setHArm s i v).tsk = s.tsk := rfl
@[simp] theorem setHArm_lpe (s : State) (i : Nat) (v : HArm) : (setHArm s i v).lpe = s.lpe := rfl
@[simp] theorem setHArm_afe (s : State) (i : Nat) (v : HArm) : (setHArm s i v).afe = s.afe := rfl
@[simp] theorem setHArm_tim (s : State) (i : Nat) (v : HArm) : (setHArm s i v).tim = s.tim := rfl
@[simp] theorem setHArm_fur (s : State) (i : Nat) (v : HArm) : (setHArm s i v).fur = s.fur := rfl
@[simp] theorem setHArm_grn (s : State) (i : Nat) (v : HArm) : (setHArm s i v).grn = s.grn := rfl
@[simp] theorem setHArm_prt (s : State) (i : Nat) (v : HArm) : (setHArm s i v).prt = s.prt := rfl
@[simp] theorem setHArm_snr (s : State) (i : Nat) (v : HArm) : (setHArm s i v).snr = s.snr := rfl
@[simp] theorem setHArm_stk (s : State) (i : Nat) (v : HArm) : (setHArm s i v).stk = s.stk := rfl
@[simp] theorem setHArm_tly (s : State) (i : Nat) (v : HArm) : (setHArm s i v).tly = s.tly := rfl
@[simp] theorem setHArm_dbg (s : State) (i : Nat) (v : HArm) : (setHArm s i v).dbg = s.dbg := rfl
@[simp] theorem setHArm_eps (s : State) (i : Nat) (v : HArm) : (setHArm s i v).eps = s.eps := rfl
@[simp] theorem setHArm_same (s : State) (i : Nat) (v : HArm) : harm (setHArm s i v) i = v := tget_tset_same _ _ _ _
theorem setHArm_ne (s : State) (i : Nat) (v : HArm) (k : Nat) (h : k ≠ i) : harm (setHArm s i v) k = harm s k := tget_tset_ne h
@[simp] theorem setCore_tick (s : State) (i : Nat) (v : Core) : (setCore s i v).tick = s.tick := rfl
@[simp] theorem setCore_regs (s : State) (i : Nat) (v : Core) : (setCore s i v).regs = s.regs := rfl
@[simp] theorem setCore_mem (s : State) (i : Nat) (v : Core) : (setCore s i v).mem = s.mem := rfl
@[simp] theorem setCore_pending (s : State) (i : Nat) (v : Core) : (setCore s i v).pending = s.pending := rfl
@[simp] theorem setCore_rdata (s : State) (i : Nat) (v : Core) : (setCore s i v).rdata = s.rdata := rfl
@[simp] theorem setCore_dma (s : State) (i : Nat) (v : Core) : (setCore s i v).dma = s.dma := rfl
@[simp] theorem setCore_freeCtr (s : State) (i : Nat) (v : Core) : (setCore s i v).freeCtr = s.freeCtr := rfl
@[simp] theorem setCore_sys (s : State) (i : Nat) (v : Core) : (setCore s i v).sys = s.sys := rfl
@[simp] theorem setCore_std (s : State) (i : Nat) (v : Core) : (setCore s i v).std = s.std := rfl
@[simp] theorem setCore_hst (s : State) (i : Nat) (v : Core) : (setCore s i v).hst = s.hst := rfl
@[simp] theorem setCore_flt (s : State) (i : Nat) (v : Core) : (setCore s i v).flt = s.flt := rfl
@[simp] theorem setCore_aut (s : State) (i : Nat) (v : Core) : (setCore s i v).aut = s.aut := rfl
@[simp] theorem setCore_cmd (s : State) (i : Nat) (v : Core) : (setCore s i v).cmd = s.cmd := rfl
@[simp] theorem setCore_ints (s : State) (i : Nat) (v : Core) : (setCore s i v).ints = s.ints := rfl
@[simp] theorem setCore_tsk (s : State) (i : Nat) (v : Core) : (setCore s i v).tsk = s.tsk := rfl
@[simp] theorem setCore_lpe (s : State) (i : Nat) (v : Core) : (setCore s i v).lpe = s.lpe := rfl
@[simp] theorem setCore_afe (s : State) (i : Nat) (v : Core) : (setCore s i v).afe = s.afe := rfl
@[simp] theorem setCore_tim (s : State) (i : Nat) (v : Core) : (setCore s i v).tim = s.tim := rfl
@[simp] theorem setCore_fur (s : State) (i : Nat) (v : Core) : (setCore s i v).fur = s.fur := rfl
@[simp] theorem setCore_grn (s : State) (i : Nat) (v : Core) : (setCore s i v).grn = s.grn := rfl
@[simp] theorem setCore_hrw (s : State) (i : Nat) (v : Core) : (setCore s i v).hrw = s.hrw := rfl
@[simp] theorem setCore_prt (s : State) (i : Nat) (v : Core) : (setCore s i v).prt = s.prt := rfl
@[simp] theorem setCore_snr (s : State) (i : Nat) (v : Core) : (setCore s i v).snr = s.snr := rfl
@[simp] theorem setCore_stk (s : State) (i : Nat) (v : Core) : (setCore s i v).stk = s.stk := rfl
@[simp] theorem setCore_tly (s : State) (i : Nat) (v : Core) : (setCore s i v).tly = s.tly := rfl
@[simp] theorem setCore_dbg (s : State) (i : Nat) (v : Core) : (setCore s i v).dbg = s.dbg := rfl
@[simp] theorem setCore_eps (s : State) (i : Nat) (v : Core) : (setCore s i v).eps = s.eps := rfl
@[simp] theorem setCore_same (s : State) (i : Nat) (v : Core) : core (setCore s i v) i = v := tget_tset_same _ _ _ _
theorem setCore_ne (s : State) (i : Nat) (v : Core) (k : Nat) (h : k ≠ i) : core (setCore s i v) k = core s k := tget_tset_ne h
@[simp] theorem setIntSrc_tick (s : State) (i : Nat) (v : IntSrc) : (setIntSrc s i v).tick = s.tick := rfl
@[simp] theorem setIntSrc_regs (s : State) (i : Nat) (v : IntSrc) : (setIntSrc s i v).regs = s.regs := rfl
@[simp] theorem setIntSrc_mem (s : State) (i : Nat) (v : IntSrc) : (setIntSrc s i v).mem = s.mem := rfl
@[simp] theorem setIntSrc_pending (s : State) (i : Nat) (v : IntSrc) : (setIntSrc s i v).pending = s.pending := rfl
@[simp] theorem setIntSrc_rdata (s : State) (i : Nat) (v : IntSrc) : (setIntSrc s i v).rdata = s.rdata := rfl
@[simp] theorem setIntSrc_dma (s : State) (i : Nat) (v : IntSrc) : (setIntSrc s i v).dma = s.dma := rfl
@[simp] theorem setIntSrc_freeCtr (s : State) (i : Nat) (v : IntSrc) : (setIntSrc s i v).freeCtr = s.freeCtr := rfl
@[simp] theorem setIntSrc_sys (s : State) (i : Nat) (v : IntSrc) : (setIntSrc s i v).sys = s.sys := rfl
@[simp] theorem setIntSrc_std (s : State) (i : Nat) (v : IntSrc) : (setIntSrc s i v).std = s.std := rfl
@[simp] theorem setIntSrc_hst (s : State) (i : Nat) (v : IntSrc) : (setIntSrc s i v).hst = s.hst := rfl
@[simp] theorem setIntSrc_flt (s : State) (i : Nat) (v : IntSrc) : (setIntSrc s i v).flt = s.flt := rfl
@[simp] theorem setIntSrc_aut (s : State) (i : Nat) (v : IntSrc) : (setIntSrc s i v).aut = s.aut := rfl
@[simp] theorem setIntSrc_cmd (s : State) (i : Nat) (v : IntSrc) : (setIntSrc s i v).cmd = s.cmd := rfl
@[simp] theorem setIntSrc_cores (s : State) (i : Nat) (v : IntSrc) : (setIntSrc s i v).cores = s.cores := rfl
@[simp] theorem setIntSrc_tsk (s : State) (i : Nat) (v : IntSrc) : (setIntSrc s i v).tsk = s.tsk := rfl
@[simp] theorem setIntSrc_lpe (s : State) (i : Nat) (v : IntSrc) : (setIntSrc s i v).lpe = s.lpe := rfl
@[simp] theorem setIntSrc_afe (s : State) (i : Nat) (v : IntSrc) : (setIntSrc s i v).afe = s.afe := rfl
@[simp] theorem setIntSrc_tim (s : State) (i : Nat) (v : IntSrc) : (setIntSrc s i v).tim = s.tim := rfl
@[simp] theorem setIntSrc_fur (s : State) (i : Nat) (v : IntSrc) : (setIntSrc s i v).fur = s.fur := rfl
@[simp] theorem setIntSrc_grn (s : State) (i : Nat) (v : IntSrc) : (setIntSrc s i v).grn = s.grn := rfl
@[simp] theorem setIntSrc_hrw (s : State) (i : Nat) (v : IntSrc) : (setIntSrc s i v).hrw = s.hrw := rfl
@[simp] theorem setIntSrc_prt (s : State) (i : Nat) (v : IntSrc) : (setIntSrc s i v).prt = s.prt := rfl
@[simp] theorem setIntSrc_snr (s : State) (i : Nat) (v : IntSrc) : (setIntSrc s i v).snr = s.snr := rfl
@[simp] theorem setIntSrc_stk (s : State) (i : Nat) (v : IntSrc) : (setIntSrc s i v).stk = s.stk := rfl
@[simp] theorem setIntSrc_tly (s : State) (i : Nat) (v : IntSrc) : (setIntSrc s i v).tly = s.tly := rfl
@[simp] theorem setIntSrc_dbg (s : State) (i : Nat) (v : IntSrc) : (setIntSrc s i v).dbg = s.dbg := rfl
@[simp] theorem setIntSrc_eps (s : State) (i : Nat) (v : IntSrc) : (setIntSrc s i v).eps = s.eps := rfl
@[simp] theorem setIntSrc_same (s : State) (i : Nat) (v : IntSrc) : intSrc (setIntSrc s i v) i = v := tget_tset_same _ _ _ _
theorem setIntSrc_ne (s : State) (i : Nat) (v : IntSrc) (k : Nat) (h : k ≠ i) : intSrc (setIntSrc s i v) k = intSrc s k := tget_tset_ne h
@[simp] theorem setLoop_tick (s : State) (i : Nat) (v : Loop) : (setLoop s i v).tick = s.tick := rfl
@[simp] theorem setLoop_regs (s : State) (i : Nat) (v : Loop) : (setLoop s i v).regs = s.regs := rfl
@[simp] theorem setLoop_mem (s : State) (i : Nat) (v : Loop) : (setLoop s i v).mem = s.mem := rfl
@[simp] theorem setLoop_pending (s : State) (i : Nat) (v : Loop) : (setLoop s i v).pending = s.pending := rfl
@[simp] theorem setLoop_rdata (s : State) (i : Nat) (v : Loop) : (setLoop s i v).rdata = s.rdata := rfl
@[simp] theorem setLoop_dma (s : State) (i : Nat) (v : Loop) : (setLoop s i v).dma = s.dma := rfl
@[simp] theorem setLoop_freeCtr (s : State) (i : Nat) (v : Loop) : (setLoop s i v).freeCtr = s.freeCtr := rfl
@[simp] theorem setLoop_sys (s : State) (i : Nat) (v : Loop) : (setLoop s i v).sys = s.sys := rfl
@[simp] theorem setLoop_std (s : State) (i : Nat) (v : Loop) : (setLoop s i v).std = s.std := rfl
@[simp] theorem setLoop_hst (s : State) (i : Nat) (v : Loop) : (setLoop s i v).hst = s.hst := rfl
@[simp] theorem setLoop_flt (s : State) (i : Nat) (v : Loop) : (setLoop s i v).flt = s.flt := rfl
@[simp] theorem setLoop_aut (s : State) (i : Nat) (v : Loop) : (setLoop s i v).aut = s.aut := rfl
@[simp] theorem setLoop_cmd (s : State) (i : Nat) (v : Loop) : (setLoop s i v).cmd = s.cmd := rfl
@[simp] theorem setLoop_ints (s : State) (i : Nat) (v : Loop) : (setLoop s i v).ints = s.ints := rfl
@[simp] theorem setLoop_cores (s : State) (i : Nat) (v : Loop) : (setLoop s i v).cores = s.cores := rfl
@[simp] theorem setLoop_tsk (s : State) (i : Nat) (v : Loop) : (setLoop s i v).tsk = s.tsk := rfl
@[simp] theorem setLoop_afe (s : State) (i : Nat) (v : Loop) : (setLoop s i v).afe = s.afe := rfl
@[simp] theorem setLoop_tim (s : State) (i : Nat) (v : Loop) : (setLoop s i v).tim = s.tim := rfl
@[simp] theorem setLoop_fur (s : State) (i : Nat) (v : Loop) : (setLoop s i v).fur = s.fur := rfl
@[simp] theorem setLoop_grn (s : State) (i : Nat) (v : Loop) : (setLoop s i v).grn = s.grn := rfl
@[simp] theorem setLoop_hrw (s : State) (i : Nat) (v : Loop) : (setLoop s i v).hrw = s.hrw := rfl
@[simp] theorem setLoop_prt (s : State) (i : Nat) (v : Loop) : (setLoop s i v).prt = s.prt := rfl
@[simp] theorem setLoop_snr (s : State) (i : Nat) (v : Loop) : (setLoop s i v).snr = s.snr := rfl
@[simp] theorem setLoop_stk (s : State) (i : Nat) (v : Loop) : (setLoop s i v).stk = s.stk := rfl
@[simp] theorem setLoop_tly (s : State) (i : Nat) (v : Loop) : (setLoop s i v).tly = s.tly := rfl
@[simp] theorem setLoop_dbg (s : State) (i : Nat) (v : Loop) : (setLoop s i v).dbg = s.dbg := rfl
@[simp] theorem setLoop_eps (s : State) (i : Nat) (v : Loop) : (setLoop s i v).eps = s.eps := rfl
@[simp] theorem setLoop_same (s : State) (i : Nat) (v : Loop) : loop (setLoop s i v) i = v := tget_tset_same _ _ _ _
theorem setLoop_ne (s : State) (i : Nat) (v : Loop) (k : Nat) (h : k ≠ i) : loop (setLoop s i v) k = loop s k := tget_tset_ne h
@[simp] theorem setChn_tick (s : State) (i : Nat) (v : Chn) : (setChn s i v).tick = s.tick := rfl
@[simp] theorem setChn_regs (s : State) (i : Nat) (v : Chn) : (setChn s i v).regs = s.regs := rfl
@[simp] theorem setChn_mem (s : State) (i : Nat) (v : Chn) : (setChn s i v).mem = s.mem := rfl
@[simp] theorem setChn_pending (s : State) (i : Nat) (v : Chn) : (setChn s i v).pending = s.pending := rfl
@[simp] theorem setChn_rdata (s : State) (i : Nat) (v : Chn) : (setChn s i v).rdata = s.rdata := rfl
@[simp] theorem setChn_dma (s : State) (i : Nat) (v : Chn) : (setChn s i v).dma = s.dma := rfl
@[simp] theorem setChn_freeCtr (s : State) (i : Nat) (v : Chn) : (setChn s i v).freeCtr = s.freeCtr := rfl
@[simp] theorem setChn_sys (s : State) (i : Nat) (v : Chn) : (setChn s i v).sys = s.sys := rfl
@[simp] theorem setChn_std (s : State) (i : Nat) (v : Chn) : (setChn s i v).std = s.std := rfl
@[simp] theorem setChn_hst (s : State) (i : Nat) (v : Chn) : (setChn s i v).hst = s.hst := rfl
@[simp] theorem setChn_flt (s : State) (i : Nat) (v : Chn) : (setChn s i v).flt = s.flt := rfl
@[simp] theorem setChn_aut (s : State) (i : Nat) (v : Chn) : (setChn s i v).aut = s.aut := rfl
@[simp] theorem setChn_cmd (s : State) (i : Nat) (v : Chn) : (setChn s i v).cmd = s.cmd := rfl
@[simp] theorem setChn_ints (s : State) (i : Nat) (v : Chn) : (setChn s i v).ints = s.ints := rfl
@[simp] theorem setChn_cores (s : State) (i : Nat) (v : Chn) : (setChn s i v).cores = s.cores := rfl
@[simp] theorem setChn_tsk (s : State) (i : Nat) (v : Chn) : (setChn s i v).tsk = s.tsk := rfl
@[simp] theorem setChn_lpe (s : State) (i : Nat) (v : Chn) : (setChn s i v).lpe = s.lpe := rfl
@[simp] theorem setChn_afe (s : State) (i : Nat) (v : Chn) : (setChn s i v).afe = s.afe := rfl
@[simp] theorem setChn_tim (s : State) (i : Nat) (v : Chn) : (setChn s i v).tim = s.tim := rfl
@[simp] theorem setChn_fur (s : State) (i : Nat) (v : Chn) : (setChn s i v).fur = s.fur := rfl
@[simp] theorem setChn_grn (s : State) (i : Nat) (v : Chn) : (setChn s i v).grn = s.grn := rfl
@[simp] theorem setChn_hrw (s : State) (i : Nat) (v : Chn) : (setChn s i v).hrw = s.hrw := rfl
@[simp] theorem setChn_snr (s : State) (i : Nat) (v : Chn) : (setChn s i v).snr = s.snr := rfl
@[simp] theorem setChn_stk (s : State) (i : Nat) (v : Chn) : (setChn s i v).stk = s.stk := rfl
@[simp] theorem setChn_tly (s : State) (i : Nat) (v : Chn) : (setChn s i v).tly = s.tly := rfl
@[simp] theorem setChn_dbg (s : State) (i : Nat) (v : Chn) : (setChn s i v).dbg = s.dbg := rfl
@[simp] theorem setChn_eps (s : State) (i : Nat) (v : Chn) : (setChn s i v).eps = s.eps := rfl
@[simp] theorem setChn_same (s : State) (i : Nat) (v : Chn) : chn (setChn s i v) i = v := tget_tset_same _ _ _ _
theorem setChn_ne (s : State) (i : Nat) (v : Chn) (k : Nat) (h : k ≠ i) : chn (setChn s i v) k = chn s k := tget_tset_ne h
@[simp] theorem setSport_tick (s : State) (i : Nat) (v : StkPort) : (setSport s i v).tick = s.tick := rfl
@[simp] theorem setSport_regs (s : State) (i : Nat) (v : StkPort) : (setSport s i v).regs = s.regs := rfl
@[simp] theorem setSport_mem (s : State) (i : Nat) (v : StkPort) : (setSport s i v).mem = s.mem := rfl
@[simp] theorem setSport_pending (s : State) (i : Nat) (v : StkPort) : (setSport s i v).pending = s.pending := rfl
@[simp] theorem setSport_rdata (s : State) (i : Nat) (v : StkPort) : (setSport s i v).rdata = s.rdata := rfl
@[simp] theorem setSport_dma (s : State) (i : Nat) (v : StkPort) : (setSport s i v).dma = s.dma := rfl
@[simp] theorem setSport_freeCtr (s : State) (i : Nat) (v : StkPort) : (setSport s i v).freeCtr = s.freeCtr := rfl
@[simp] theorem setSport_sys (s : State) (i : Nat) (v : StkPort) : (setSport s i v).sys = s.sys := rfl
@[simp] theorem setSport_std (s : State) (i : Nat) (v : StkPort) : (setSport s i v).std = s.std := rfl
@[simp] theorem setSport_hst (s : State) (i : Nat) (v : StkPort) : (setSport s i v).hst = s.hst := rfl
@[simp] theorem setSport_flt (s : State) (i : Nat) (v : StkPort) : (setSport s i v).flt = s.flt := rfl
@[simp] theorem setSport_aut (s : State) (i : Nat) (v : StkPort) : (setSport s i v).aut = s.aut := rfl
@[simp] theorem setSport_cmd (s : State) (i : Nat) (v : StkPort) : (setSport s i v).cmd = s.cmd := rfl
@[simp] theorem setSport_ints (s : State) (i : Nat) (v : StkPort) : (setSport s i v).ints = s.ints := rfl
@[simp] theorem setSport_cores (s : State) (i : Nat) (v : StkPort) : (setSport s i v).cores = s.cores := rfl
@[simp] theorem setSport_tsk (s : State) (i : Nat) (v : StkPort) : (setSport s i v).tsk = s.tsk := rfl
@[simp] theorem setSport_lpe (s : State) (i : Nat) (v : StkPort) : (setSport s i v).lpe = s.lpe := rfl
@[simp] theorem setSport_afe (s : State) (i : Nat) (v : StkPort) : (setSport s i v).afe = s.afe := rfl
@[simp] theorem setSport_tim (s : State) (i : Nat) (v : StkPort) : (setSport s i v).tim = s.tim := rfl
@[simp] theorem setSport_fur (s : State) (i : Nat) (v : StkPort) : (setSport s i v).fur = s.fur := rfl
@[simp] theorem setSport_grn (s : State) (i : Nat) (v : StkPort) : (setSport s i v).grn = s.grn := rfl
@[simp] theorem setSport_hrw (s : State) (i : Nat) (v : StkPort) : (setSport s i v).hrw = s.hrw := rfl
@[simp] theorem setSport_prt (s : State) (i : Nat) (v : StkPort) : (setSport s i v).prt = s.prt := rfl
@[simp] theorem setSport_snr (s : State) (i : Nat) (v : StkPort) : (setSport s i v).snr = s.snr := rfl
@[simp] theorem setSport_tly (s : State) (i : Nat) (v : StkPort) : (setSport s i v).tly = s.tly := rfl
@[simp] theorem setSport_dbg (s : State) (i : Nat) (v : StkPort) : (setSport s i v).dbg = s.dbg := rfl
@[simp] theorem setSport_eps (s : State) (i : Nat) (v : StkPort) : (setSport s i v).eps = s.eps := rfl
@[simp] theorem setSport_same (s : State) (i : Nat) (v : StkPort) : sport (setSport s i v) i = v := tget_tset_same _ _ _ _
theorem setSport_ne (s : State) (i : Nat) (v : StkPort) (k : Nat) (h : k ≠ i) : sport (setSport s i v) k = sport s k := tget_tset_ne h
@[simp] theorem setTlyCore_tick (s : State) (i : Nat) (v : TlyCore) : (setTlyCore s i v).tick = s.tick := rfl
@[simp] theorem setTlyCore_regs (s : State) (i : Nat) (v : TlyCore) : (setTlyCore s i v).regs = s.regs := rfl
@[simp] theorem setTlyCore_mem (s : State) (i : Nat) (v : TlyCore) : (setTlyCore s i v).mem = s.mem := rfl
@[simp] theorem setTlyCore_pending (s : State) (i : Nat) (v : TlyCore) : (setTlyCore s i v).pending = s.pending := rfl
@[simp] theorem setTlyCore_rdata (s : State) (i : Nat) (v : TlyCore) : (setTlyCore s i v).rdata = s.rdata := rfl
@[simp] theorem setTlyCore_dma (s : State) (i : Nat) (v : TlyCore) : (setTlyCore s i v).dma = s.dma := rfl
@[simp] theorem setTlyCore_freeCtr (s : State) (i : Nat) (v : TlyCore) : (setTlyCore s i v).freeCtr = s.freeCtr := rfl
@[simp] theorem setTlyCore_sys (s : State) (i : Nat) (v : TlyCore) : (setTlyCore s i v).sys = s.sys := rfl
@[simp] theorem setTlyCore_std (s : State) (i : Nat) (v : TlyCore) : (setTlyCore s i v).std = s.std := rfl
@[simp] theorem setTlyCore_hst (s : State) (i : Nat) (v : TlyCore) : (setTlyCore s i v).hst = s.hst := rfl
@[simp] theorem setTlyCore_flt (s : State) (i : Nat) (v : TlyCore) : (setTlyCore s i v).flt = s.flt := rfl
@[simp] theorem setTlyCore_aut (s : State) (i : Nat) (v : TlyCore) : (setTlyCore s i v).aut = s.aut := rfl
@[simp] theorem setTlyCore_cmd (s : State) (i : Nat) (v : TlyCore) : (setTlyCore s i v).cmd = s.cmd := rfl
@[simp] theorem setTlyCore_ints (s : State) (i : Nat) (v : TlyCore) : (setTlyCore s i v).ints = s.ints := rfl
@[simp] theorem setTlyCore_cores (s : State) (i : Nat) (v : TlyCore) : (setTlyCore s i v).cores = s.cores := rfl
@[simp] theorem setTlyCore_tsk (s : State) (i : Nat) (v : TlyCore) : (setTlyCore s i v).tsk = s.tsk := rfl
@[simp] theorem setTlyCore_lpe (s : State) (i : Nat) (v : TlyCore) : (setTlyCore s i v).lpe = s.lpe := rfl
@[simp] theorem setTlyCore_afe (s : State) (i : Nat) (v : TlyCore) : (setTlyCore s i v).afe = s.afe := rfl
@[simp] theorem setTlyCore_tim (s : State) (i : Nat) (v : TlyCore) : (setTlyCore s i v).tim = s.tim := rfl
@[simp] theorem setTlyCore_fur (s : State) (i : Nat) (v : TlyCore) : (setTlyCore s i v).fur = s.fur := rfl
@[simp] theorem setTlyCore_grn (s : State) (i : Nat) (v : TlyCore) : (setTlyCore s i v).grn = s.grn := rfl
@[simp] theorem setTlyCore_hrw (s : State) (i : Nat) (v : TlyCore) : (setTlyCore s i v).hrw = s.hrw := rfl
@[simp] theorem setTlyCore_prt (s : State) (i : Nat) (v : TlyCore) : (setTlyCore s i v).prt = s.prt := rfl
@[simp] theorem setTlyCore_snr (s : State) (i : Nat) (v : TlyCore) : (setTlyCore s i v).snr = s.snr := rfl
@[simp] theorem setTlyCore_stk (s : State) (i : Nat) (v : TlyCore) : (setTlyCore s i v).stk = s.stk := rfl
@[simp] theorem setTlyCore_dbg (s : State) (i : Nat) (v : TlyCore) : (setTlyCore s i v).dbg = s.dbg := rfl
@[simp] theorem setTlyCore_eps (s : State) (i : Nat) (v : TlyCore) : (setTlyCore s i v).eps = s.eps := rfl
@[simp] theorem setTlyCore_same (s : State) (i : Nat) (v : TlyCore) : tlyCore (setTlyCore s i v) i = v := tget_tset_same _ _ _ _
theorem setTlyCore_ne (s : State) (i : Nat) (v : TlyCore) (k : Nat) (h : k ≠ i) : tlyCore (setTlyCore s i v) k = tlyCore s k := tget_tset_ne h
@[simp] theorem setEth_tick (s : State) (i : Nat) (v : EthPort) : (setEth s i v).tick = s.tick := rfl
@[simp] theorem setEth_regs (s : State) (i : Nat) (v : EthPort) : (setEth s i v).regs = s.regs := rfl
@[simp] theorem setEth_mem (s : State) (i : Nat) (v : EthPort) : (setEth s i v).mem = s.mem := rfl
@[simp] theorem setEth_pending (s : State) (i : Nat) (v : EthPort) : (setEth s i v).pending = s.pending := rfl
@[simp] theorem setEth_rdata (s : State) (i : Nat) (v : EthPort) : (setEth s i v).rdata = s.rdata := rfl
@[simp] theorem setEth_dma (s : State) (i : Nat) (v : EthPort) : (setEth s i v).dma = s.dma := rfl
@[simp] theorem setEth_freeCtr (s : State) (i : Nat) (v : EthPort) : (setEth s i v).freeCtr = s.freeCtr := rfl
@[simp] theorem setEth_sys (s : State) (i : Nat) (v : EthPort) : (setEth s i v).sys = s.sys := rfl
@[simp] theorem setEth_std (s : State) (i : Nat) (v : EthPort) : (setEth s i v).std = s.std := rfl
@[simp] theorem setEth_hst (s : State) (i : Nat) (v : EthPort) : (setEth s i v).hst = s.hst := rfl
@[simp] theorem setEth_flt (s : State) (i : Nat) (v : EthPort) : (setEth s i v).flt = s.flt := rfl
@[simp] theorem setEth_aut (s : State) (i : Nat) (v : EthPort) : (setEth s i v).aut = s.aut := rfl
@[simp] theorem setEth_cmd (s : State) (i : Nat) (v : EthPort) : (setEth s i v).cmd = s.cmd := rfl
@[simp] theorem setEth_ints (s : State) (i : Nat) (v : EthPort) : (setEth s i v).ints = s.ints := rfl
@[simp] theorem setEth_cores (s : State) (i : Nat) (v : EthPort) : (setEth s i v).cores = s.cores := rfl
@[simp] theorem setEth_tsk (s : State) (i : Nat) (v : EthPort) : (setEth s i v).tsk = s.tsk := rfl
@[simp] theorem setEth_lpe (s : State) (i : Nat) (v : EthPort) : (setEth s i v).lpe = s.lpe := rfl
@[simp] theorem setEth_afe (s : State) (i : Nat) (v : EthPort) : (setEth s i v).afe = s.afe := rfl
@[simp] theorem setEth_fur (s : State) (i : Nat) (v : EthPort) : (setEth s i v).fur = s.fur := rfl
@[simp] theorem setEth_grn (s : State) (i : Nat) (v : EthPort) : (setEth s i v).grn = s.grn := rfl
@[simp] theorem setEth_hrw (s : State) (i : Nat) (v : EthPort) : (setEth s i v).hrw = s.hrw := rfl
@[simp] theorem setEth_prt (s : State) (i : Nat) (v : EthPort) : (setEth s i v).prt = s.prt := rfl
@[simp] theorem setEth_snr (s : State) (i : Nat) (v : EthPort) : (setEth s i v).snr = s.snr := rfl
@[simp] theorem setEth_stk (s : State) (i : Nat) (v : EthPort) : (setEth s i v).stk = s.stk := rfl
@[simp] theorem setEth_tly (s : State) (i : Nat) (v : EthPort) : (setEth s i v).tly = s.tly := rfl
@[simp] theorem setEth_dbg (s : State) (i : Nat) (v : EthPort) : (setEth s i v).dbg = s.dbg := rfl
@[simp] theorem setEth_eps (s : State) (i : Nat) (v : EthPort) : (setEth s i v).eps = s.eps := rfl
@[simp] theorem setEth_same (s : State) (i : Nat) (v : EthPort) : eth (setEth s i v) i = v := tget_tset_same _ _ _ _
theorem setEth_ne (s : State) (i : Nat) (v : EthPort) (k : Nat) (h : k ≠ i) : eth (setEth s i v) k = eth s k := tget_tset_ne h
@[simp] theorem setTcb_tick (s : State) (i : Nat) (v : Tcb) : (setTcb s i v).tick = s.tick := rfl
@[simp] theorem setTcb_regs (s : State) (i : Nat) (v : Tcb) : (setTcb s i v).regs = s.regs := rfl
@[simp] theorem setTcb_mem (s : State) (i : Nat) (v : Tcb) : (setTcb s i v).mem = s.mem := rfl
@[simp] theorem setTcb_pending (s : State) (i : Nat) (v : Tcb) : (setTcb s i v).pending = s.pending := rfl
@[simp] theorem setTcb_rdata (s : State) (i : Nat) (v : Tcb) : (setTcb s i v).rdata = s.rdata := rfl
@[simp] theorem setTcb_dma (s : State) (i : Nat) (v : Tcb) : (setTcb s i v).dma = s.dma := rfl
@[simp] theorem setTcb_freeCtr (s : State) (i : Nat) (v : Tcb) : (setTcb s i v).freeCtr = s.freeCtr := rfl
@[simp] theorem setTcb_sys (s : State) (i : Nat) (v : Tcb) : (setTcb s i v).sys = s.sys := rfl
@[simp] theorem setTcb_std (s : State) (i : Nat) (v : Tcb) : (setTcb s i v).std = s.std := rfl
@[simp] theorem setTcb_hst (s : State) (i : Nat) (v : Tcb) : (setTcb s i v).hst = s.hst := rfl
@[simp] theorem setTcb_flt (s : State) (i : Nat) (v : Tcb) : (setTcb s i v).flt = s.flt := rfl
@[simp] theorem setTcb_aut (s : State) (i : Nat) (v : Tcb) : (setTcb s i v).aut = s.aut := rfl
@[simp] theorem setTcb_cmd (s : State) (i : Nat) (v : Tcb) : (setTcb s i v).cmd = s.cmd := rfl
@[simp] theorem setTcb_ints (s : State) (i : Nat) (v : Tcb) : (setTcb s i v).ints = s.ints := rfl
@[simp] theorem setTcb_cores (s : State) (i : Nat) (v : Tcb) : (setTcb s i v).cores = s.cores := rfl
@[simp] theorem setTcb_lpe (s : State) (i : Nat) (v : Tcb) : (setTcb s i v).lpe = s.lpe := rfl
@[simp] theorem setTcb_afe (s : State) (i : Nat) (v : Tcb) : (setTcb s i v).afe = s.afe := rfl
@[simp] theorem setTcb_tim (s : State) (i : Nat) (v : Tcb) : (setTcb s i v).tim = s.tim := rfl
@[simp] theorem setTcb_fur (s : State) (i : Nat) (v : Tcb) : (setTcb s i v).fur = s.fur := rfl
@[simp] theorem setTcb_grn (s : State) (i : Nat) (v : Tcb) : (setTcb s i v).grn = s.grn := rfl
@[simp] theorem setTcb_hrw (s : State) (i : Nat) (v : Tcb) : (setTcb s i v).hrw = s.hrw := rfl
@[simp] theorem setTcb_prt (s : State) (i : Nat) (v : Tcb) : (setTcb s i v).prt = s.prt := rfl
@[simp] theorem setTcb_snr (s : State) (i : Nat) (v : Tcb) : (setTcb s i v).snr = s.snr := rfl
@[simp] theorem setTcb_stk (s : State) (i : Nat) (v : Tcb) : (setTcb s i v).stk = s.stk := rfl
@[simp] theorem setTcb_tly (s : State) (i : Nat) (v : Tcb) : (setTcb s i v).tly = s.tly := rfl
@[simp] theorem setTcb_dbg (s : State) (i : Nat) (v : Tcb) : (setTcb s i v).dbg = s.dbg := rfl
@[simp] theorem setTcb_eps (s : State) (i : Nat) (v : Tcb) : (setTcb s i v).eps = s.eps := rfl
@[simp] theorem setTcb_same (s : State) (i : Nat) (v : Tcb) : tcb (setTcb s i v) i = v := tget_tset_same _ _ _ _
theorem setTcb_ne (s : State) (i : Nat) (v : Tcb) (k : Nat) (h : k ≠ i) : tcb (setTcb s i v) k = tcb s k := tget_tset_ne h
@[simp] theorem setPort_tick (s : State) (i : Nat) (v : TskPort) : (setPort s i v).tick = s.tick := rfl
@[simp] theorem setPort_regs (s : State) (i : Nat) (v : TskPort) : (setPort s i v).regs = s.regs := rfl
@[simp] theorem setPort_mem (s : State) (i : Nat) (v : TskPort) : (setPort s i v).mem = s.mem := rfl
@[simp] theorem setPort_pending (s : State) (i : Nat) (v : TskPort) : (setPort s i v).pending = s.pending := rfl
@[simp] theorem setPort_rdata (s : State) (i : Nat) (v : TskPort) : (setPort s i v).rdata = s.rdata := rfl
@[simp] theorem setPort_dma (s : State) (i : Nat) (v : TskPort) : (setPort s i v).dma = s.dma := rfl
@[simp] theorem setPort_freeCtr (s : State) (i : Nat) (v : TskPort) : (setPort s i v).freeCtr = s.freeCtr := rfl
@[simp] theorem setPort_sys (s : State) (i : Nat) (v : TskPort) : (setPort s i v).sys = s.sys := rfl
@[simp] theorem setPort_std (s : State) (i : Nat) (v : TskPort) : (setPort s i v).std = s.std := rfl
@[simp] theorem setPort_hst (s : State) (i : Nat) (v : TskPort) : (setPort s i v).hst = s.hst := rfl
@[simp] theorem setPort_flt (s : State) (i : Nat) (v : TskPort) : (setPort s i v).flt = s.flt := rfl
@[simp] theorem setPort_aut (s : State) (i : Nat) (v : TskPort) : (setPort s i v).aut = s.aut := rfl
@[simp] theorem setPort_cmd (s : State) (i : Nat) (v : TskPort) : (setPort s i v).cmd = s.cmd := rfl
@[simp] theorem setPort_ints (s : State) (i : Nat) (v : TskPort) : (setPort s i v).ints = s.ints := rfl
@[simp] theorem setPort_cores (s : State) (i : Nat) (v : TskPort) : (setPort s i v).cores = s.cores := rfl
@[simp] theorem setPort_lpe (s : State) (i : Nat) (v : TskPort) : (setPort s i v).lpe = s.lpe := rfl
@[simp] theorem setPort_afe (s : State) (i : Nat) (v : TskPort) : (setPort s i v).afe = s.afe := rfl
@[simp] theorem setPort_tim (s : State) (i : Nat) (v : TskPort) : (setPort s i v).tim = s.tim := rfl
@[simp] theorem setPort_fur (s : State) (i : Nat) (v : TskPort) : (setPort s i v).fur = s.fur := rfl
@[simp] theorem setPort_grn (s : State) (i : Nat) (v : TskPort) : (setPort s i v).grn = s.grn := rfl
@[simp] theorem setPort_hrw (s : State) (i : Nat) (v : TskPort) : (setPort s i v).hrw = s.hrw := rfl
@[simp] theorem setPort_prt (s : State) (i : Nat) (v : TskPort) : (setPort s i v).prt = s.prt := rfl
@[simp] theorem setPort_snr (s : State) (i : Nat) (v : TskPort) : (setPort s i v).snr = s.snr := rfl
@[simp] theorem setPort_stk (s : State) (i : Nat) (v : TskPort) : (setPort s i v).stk = s.stk := rfl
@[simp] theorem setPort_tly (s : State) (i : Nat) (v : TskPort) : (setPort s i v).tly = s.tly := rfl
@[simp] theorem setPort_dbg (s : State) (i : Nat) (v : TskPort) : (setPort s i v).dbg = s.dbg := rfl
@[simp] theorem setPort_eps (s : State) (i : Nat) (v : TskPort) : (setPort s i v).eps = s.eps := rfl
@[simp] theorem setPort_same (s : State) (i : Nat) (v : TskPort) : port (setPort s i v) i = v := tget_tset_same _ _ _ _
theorem setPort_ne (s : State) (i : Nat) (v : TskPort) (k : Nat) (h : k ≠ i) : port (setPort s i v) k = port s k := tget_tset_ne h
@[simp] theorem setItem_tick (s : State) (i : Nat) (v : Item) : (setItem s i v).tick = s.tick := rfl
@[simp] theorem setItem_regs (s : State) (i : Nat) (v : Item) : (setItem s i v).regs = s.regs := rfl
@[simp] theorem setItem_mem (s : State) (i : Nat) (v : Item) : (setItem s i v).mem = s.mem := rfl
@[simp] theorem setItem_pending (s : State) (i : Nat) (v : Item) : (setItem s i v).pending = s.pending := rfl
@[simp] theorem setItem_rdata (s : State) (i : Nat) (v : Item) : (setItem s i v).rdata = s.rdata := rfl
@[simp] theorem setItem_dma (s : State) (i : Nat) (v : Item) : (setItem s i v).dma = s.dma := rfl
@[simp] theorem setItem_freeCtr (s : State) (i : Nat) (v : Item) : (setItem s i v).freeCtr = s.freeCtr := rfl
@[simp] theorem setItem_sys (s : State) (i : Nat) (v : Item) : (setItem s i v).sys = s.sys := rfl
@[simp] theorem setItem_std (s : State) (i : Nat) (v : Item) : (setItem s i v).std = s.std := rfl
@[simp] theorem setItem_hst (s : State) (i : Nat) (v : Item) : (setItem s i v).hst = s.hst := rfl
@[simp] theorem setItem_flt (s : State) (i : Nat) (v : Item) : (setItem s i v).flt = s.flt := rfl
@[simp] theorem setItem_aut (s : State) (i : Nat) (v : Item) : (setItem s i v).aut = s.aut := rfl
@[simp] theorem setItem_cmd (s : State) (i : Nat) (v : Item) : (setItem s i v).cmd = s.cmd := rfl
@[simp] theorem setItem_ints (s : State) (i : Nat) (v : Item) : (setItem s i v).ints = s.ints := rfl
@[simp] theorem setItem_cores (s : State) (i : Nat) (v : Item) : (setItem s i v).cores = s.cores := rfl
@[simp] theorem setItem_lpe (s : State) (i : Nat) (v : Item) : (setItem s i v).lpe = s.lpe := rfl
@[simp] theorem setItem_afe (s : State) (i : Nat) (v : Item) : (setItem s i v).afe = s.afe := rfl
@[simp] theorem setItem_tim (s : State) (i : Nat) (v : Item) : (setItem s i v).tim = s.tim := rfl
@[simp] theorem setItem_fur (s : State) (i : Nat) (v : Item) : (setItem s i v).fur = s.fur := rfl
@[simp] theorem setItem_grn (s : State) (i : Nat) (v : Item) : (setItem s i v).grn = s.grn := rfl
@[simp] theorem setItem_hrw (s : State) (i : Nat) (v : Item) : (setItem s i v).hrw = s.hrw := rfl
@[simp] theorem setItem_prt (s : State) (i : Nat) (v : Item) : (setItem s i v).prt = s.prt := rfl
@[simp] theorem setItem_snr (s : State) (i : Nat) (v : Item) : (setItem s i v).snr = s.snr := rfl
@[simp] theorem setItem_stk (s : State) (i : Nat) (v : Item) : (setItem s i v).stk = s.stk := rfl
@[simp] theorem setItem_tly (s : State) (i : Nat) (v : Item) : (setItem s i v).tly = s.tly := rfl
@[simp] theorem setItem_dbg (s : State) (i : Nat) (v : Item) : (setItem s i v).dbg = s.dbg := rfl
@[simp] theorem setItem_eps (s : State) (i : Nat) (v : Item) : (setItem s i v).eps = s.eps := rfl
@[simp] theorem setItem_same (s : State) (i : Nat) (v : Item) : item (setItem s i v) i = v := tget_tset_same _ _ _ _
theorem setItem_ne (s : State) (i : Nat) (v : Item) (k : Nat) (h : k ≠ i) : item (setItem s i v) k = item s k := tget_tset_ne h
@[simp] theorem setFlow_tick (s : State) (i : Nat) (v : Flow) : (setFlow s i v).tick = s.tick := rfl
@[simp] theorem setFlow_regs (s : State) (i : Nat) (v : Flow) : (setFlow s i v).regs = s.regs := rfl
@[simp] theorem setFlow_mem (s : State) (i : Nat) (v : Flow) : (setFlow s i v).mem = s.mem := rfl
@[simp] theorem setFlow_pending (s : State) (i : Nat) (v : Flow) : (setFlow s i v).pending = s.pending := rfl
@[simp] theorem setFlow_rdata (s : State) (i : Nat) (v : Flow) : (setFlow s i v).rdata = s.rdata := rfl
@[simp] theorem setFlow_dma (s : State) (i : Nat) (v : Flow) : (setFlow s i v).dma = s.dma := rfl
@[simp] theorem setFlow_freeCtr (s : State) (i : Nat) (v : Flow) : (setFlow s i v).freeCtr = s.freeCtr := rfl
@[simp] theorem setFlow_sys (s : State) (i : Nat) (v : Flow) : (setFlow s i v).sys = s.sys := rfl
@[simp] theorem setFlow_std (s : State) (i : Nat) (v : Flow) : (setFlow s i v).std = s.std := rfl
@[simp] theorem setFlow_hst (s : State) (i : Nat) (v : Flow) : (setFlow s i v).hst = s.hst := rfl
@[simp] theorem setFlow_flt (s : State) (i : Nat) (v : Flow) : (setFlow s i v).flt = s.flt := rfl
@[simp] theorem setFlow_aut (s : State) (i : Nat) (v : Flow) : (setFlow s i v).aut = s.aut := rfl
@[simp] theorem setFlow_cmd (s : State) (i : Nat) (v : Flow) : (setFlow s i v).cmd = s.cmd := rfl
@[simp] theorem setFlow_ints (s : State) (i : Nat) (v : Flow) : (setFlow s i v).ints = s.ints := rfl
@[simp] theorem setFlow_cores (s : State) (i : Nat) (v : Flow) : (setFlow s i v).cores = s.cores := rfl
@[simp] theorem setFlow_lpe (s : State) (i : Nat) (v : Flow) : (setFlow s i v).lpe = s.lpe := rfl
@[simp] theorem setFlow_afe (s : State) (i : Nat) (v : Flow) : (setFlow s i v).afe = s.afe := rfl
@[simp] theorem setFlow_tim (s : State) (i : Nat) (v : Flow) : (setFlow s i v).tim = s.tim := rfl
@[simp] theorem setFlow_fur (s : State) (i : Nat) (v : Flow) : (setFlow s i v).fur = s.fur := rfl
@[simp] theorem setFlow_grn (s : State) (i : Nat) (v : Flow) : (setFlow s i v).grn = s.grn := rfl
@[simp] theorem setFlow_hrw (s : State) (i : Nat) (v : Flow) : (setFlow s i v).hrw = s.hrw := rfl
@[simp] theorem setFlow_prt (s : State) (i : Nat) (v : Flow) : (setFlow s i v).prt = s.prt := rfl
@[simp] theorem setFlow_snr (s : State) (i : Nat) (v : Flow) : (setFlow s i v).snr = s.snr := rfl
@[simp] theorem setFlow_stk (s : State) (i : Nat) (v : Flow) : (setFlow s i v).stk = s.stk := rfl
@[simp] theorem setFlow_tly (s : State) (i : Nat) (v : Flow) : (setFlow s i v).tly = s.tly := rfl
@[simp] theorem setFlow_dbg (s : State) (i : Nat) (v : Flow) : (setFlow s i v).dbg = s.dbg := rfl
@[simp] theorem setFlow_eps (s : State) (i : Nat) (v : Flow) : (setFlow s i v).eps = s.eps := rfl
@[simp] theorem setFlow_same (s : State) (i : Nat) (v : Flow) : flow (setFlow s i v) i = v := tget_tset_same _ _ _ _
theorem setFlow_ne (s : State) (i : Nat) (v : Flow) (k : Nat) (h : k ≠ i) : flow (setFlow s i v) k = flow s k := tget_tset_ne h
@[simp] theorem setEp_tick (s : State) (i : Nat) (v : Ep) : (setEp s i v).tick = s.tick := rfl
@[simp] theorem setEp_regs (s : State) (i : Nat) (v : Ep) : (setEp s i v).regs = s.regs := rfl
@[simp] theorem setEp_mem (s : State) (i : Nat) (v : Ep) : (setEp s i v).mem = s.mem := rfl
@[simp] theorem setEp_pending (s : State) (i : Nat) (v : Ep) : (setEp s i v).pending = s.pending := rfl
@[simp] theorem setEp_rdata (s : State) (i : Nat) (v : Ep) : (setEp s i v).rdata = s.rdata := rfl
@[simp] theorem setEp_dma (s : State) (i : Nat) (v : Ep) : (setEp s i v).dma = s.dma := rfl
@[simp] theorem setEp_freeCtr (s : State) (i : Nat) (v : Ep) : (setEp s i v).freeCtr = s.freeCtr := rfl
@[simp] theorem setEp_sys (s : State) (i : Nat) (v : Ep) : (setEp s i v).sys = s.sys := rfl
@[simp] theorem setEp_std (s : State) (i : Nat) (v : Ep) : (setEp s i v).std = s.std := rfl
@[simp] theorem setEp_hst (s : State) (i : Nat) (v : Ep) : (setEp s i v).hst = s.hst := rfl
@[simp] theorem setEp_flt (s : State) (i : Nat) (v : Ep) : (setEp s i v).flt = s.flt := rfl
@[simp] theorem setEp_aut (s : State) (i : Nat) (v : Ep) : (setEp s i v).aut = s.aut := rfl
@[simp] theorem setEp_cmd (s : State) (i : Nat) (v : Ep) : (setEp s i v).cmd = s.cmd := rfl
@[simp] theorem setEp_ints (s : State) (i : Nat) (v : Ep) : (setEp s i v).ints = s.ints := rfl
@[simp] theorem setEp_cores (s : State) (i : Nat) (v : Ep) : (setEp s i v).cores = s.cores := rfl
@[simp] theorem setEp_tsk (s : State) (i : Nat) (v : Ep) : (setEp s i v).tsk = s.tsk := rfl
@[simp] theorem setEp_lpe (s : State) (i : Nat) (v : Ep) : (setEp s i v).lpe = s.lpe := rfl
@[simp] theorem setEp_afe (s : State) (i : Nat) (v : Ep) : (setEp s i v).afe = s.afe := rfl
@[simp] theorem setEp_tim (s : State) (i : Nat) (v : Ep) : (setEp s i v).tim = s.tim := rfl
@[simp] theorem setEp_fur (s : State) (i : Nat) (v : Ep) : (setEp s i v).fur = s.fur := rfl
@[simp] theorem setEp_grn (s : State) (i : Nat) (v : Ep) : (setEp s i v).grn = s.grn := rfl
@[simp] theorem setEp_hrw (s : State) (i : Nat) (v : Ep) : (setEp s i v).hrw = s.hrw := rfl
@[simp] theorem setEp_prt (s : State) (i : Nat) (v : Ep) : (setEp s i v).prt = s.prt := rfl
@[simp] theorem setEp_snr (s : State) (i : Nat) (v : Ep) : (setEp s i v).snr = s.snr := rfl
@[simp] theorem setEp_stk (s : State) (i : Nat) (v : Ep) : (setEp s i v).stk = s.stk := rfl
@[simp] theorem setEp_tly (s : State) (i : Nat) (v : Ep) : (setEp s i v).tly = s.tly := rfl
@[simp] theorem setEp_dbg (s : State) (i : Nat) (v : Ep) : (setEp s i v).dbg = s.dbg := rfl
@[simp] theorem setEp_same (s : State) (i : Nat) (v : Ep) : ep (setEp s i v) i = v := tget_tset_same _ _ _ _
theorem setEp_ne (s : State) (i : Nat) (v : Ep) (k : Nat) (h : k ≠ i) : ep (setEp s i v) k = ep s k := tget_tset_ne h
@[simp] theorem setArmLa_tick (s : State) (i : Nat) (v : ArmLa) : (setArmLa s i v).tick = s.tick := rfl
@[simp] theorem setArmLa_regs (s : State) (i : Nat) (v : ArmLa) : (setArmLa s i v).regs = s.regs := rfl
@[simp] theorem setArmLa_mem (s : State) (i : Nat) (v : ArmLa) : (setArmLa s i v).mem = s.mem := rfl
@[simp] theorem setArmLa_pending (s : State) (i : Nat) (v : ArmLa) : (setArmLa s i v).pending = s.pending := rfl
@[simp] theorem setArmLa_rdata (s : State) (i : Nat) (v : ArmLa) : (setArmLa s i v).rdata = s.rdata := rfl
@[simp] theorem setArmLa_dma (s : State) (i : Nat) (v : ArmLa) : (setArmLa s i v).dma = s.dma := rfl
@[simp] theorem setArmLa_freeCtr (s : State) (i : Nat) (v : ArmLa) : (setArmLa s i v).freeCtr = s.freeCtr := rfl
@[simp] theorem setArmLa_sys (s : State) (i : Nat) (v : ArmLa) : (setArmLa s i v).sys = s.sys := rfl
@[simp] theorem setArmLa_std (s : State) (i : Nat) (v : ArmLa) : (setArmLa s i v).std = s.std := rfl
@[simp] theorem setArmLa_hst (s : State) (i : Nat) (v : ArmLa) : (setArmLa s i v).hst = s.hst := rfl
@[simp] theorem setArmLa_flt (s : State) (i : Nat) (v : ArmLa) : (setArmLa s i v).flt = s.flt := rfl
@[simp] theorem setArmLa_aut (s : State) (i : Nat) (v : ArmLa) : (setArmLa s i v).aut = s.aut := rfl
@[simp] theorem setArmLa_ints (s : State) (i : Nat) (v : ArmLa) : (setArmLa s i v).ints = s.ints := rfl
@[simp] theorem setArmLa_cores (s : State) (i : Nat) (v : ArmLa) : (setArmLa s i v).cores = s.cores := rfl
@[simp] theorem setArmLa_tsk (s : State) (i : Nat) (v : ArmLa) : (setArmLa s i v).tsk = s.tsk := rfl
@[simp] theorem setArmLa_lpe (s : State) (i : Nat) (v : ArmLa) : (setArmLa s i v).lpe = s.lpe := rfl
@[simp] theorem setArmLa_afe (s : State) (i : Nat) (v : ArmLa) : (setArmLa s i v).afe = s.afe := rfl
@[simp] theorem setArmLa_tim (s : State) (i : Nat) (v : ArmLa) : (setArmLa s i v).tim = s.tim := rfl
@[simp] theorem setArmLa_fur (s : State) (i : Nat) (v : ArmLa) : (setArmLa s i v).fur = s.fur := rfl
@[simp] theorem setArmLa_grn (s : State) (i : Nat) (v : ArmLa) : (setArmLa s i v).grn = s.grn := rfl
@[simp] theorem setArmLa_hrw (s : State) (i : Nat) (v : ArmLa) : (setArmLa s i v).hrw = s.hrw := rfl
@[simp] theorem setArmLa_prt (s : State) (i : Nat) (v : ArmLa) : (setArmLa s i v).prt = s.prt := rfl
@[simp] theorem setArmLa_snr (s : State) (i : Nat) (v : ArmLa) : (setArmLa s i v).snr = s.snr := rfl
@[simp] theorem setArmLa_stk (s : State) (i : Nat) (v : ArmLa) : (setArmLa s i v).stk = s.stk := rfl
@[simp] theorem setArmLa_tly (s : State) (i : Nat) (v : ArmLa) : (setArmLa s i v).tly = s.tly := rfl
@[simp] theorem setArmLa_dbg (s : State) (i : Nat) (v : ArmLa) : (setArmLa s i v).dbg = s.dbg := rfl
@[simp] theorem setArmLa_eps (s : State) (i : Nat) (v : ArmLa) : (setArmLa s i v).eps = s.eps := rfl
@[simp] theorem setArmLa_same (s : State) (i : Nat) (v : ArmLa) : armLa (setArmLa s i v) i = v := tget_tset_same _ _ _ _
theorem setArmLa_ne (s : State) (i : Nat) (v : ArmLa) (k : Nat) (h : k ≠ i) : armLa (setArmLa s i v) k = armLa s k := tget_tset_ne h
@[simp] theorem setBucket_tick (s : State) (i : Nat) (v : Bkt) : (setBucket s i v).tick = s.tick := rfl
@[simp] theorem setBucket_regs (s : State) (i : Nat) (v : Bkt) : (setBucket s i v).regs = s.regs := rfl
@[simp] theorem setBucket_mem (s : State) (i : Nat) (v : Bkt) : (setBucket s i v).mem = s.mem := rfl
@[simp] theorem setBucket_pending (s : State) (i : Nat) (v : Bkt) : (setBucket s i v).pending = s.pending := rfl
@[simp] theorem setBucket_rdata (s : State) (i : Nat) (v : Bkt) : (setBucket s i v).rdata = s.rdata := rfl
@[simp] theorem setBucket_dma (s : State) (i : Nat) (v : Bkt) : (setBucket s i v).dma = s.dma := rfl
@[simp] theorem setBucket_freeCtr (s : State) (i : Nat) (v : Bkt) : (setBucket s i v).freeCtr = s.freeCtr := rfl
@[simp] theorem setBucket_sys (s : State) (i : Nat) (v : Bkt) : (setBucket s i v).sys = s.sys := rfl
@[simp] theorem setBucket_std (s : State) (i : Nat) (v : Bkt) : (setBucket s i v).std = s.std := rfl
@[simp] theorem setBucket_hst (s : State) (i : Nat) (v : Bkt) : (setBucket s i v).hst = s.hst := rfl
@[simp] theorem setBucket_aut (s : State) (i : Nat) (v : Bkt) : (setBucket s i v).aut = s.aut := rfl
@[simp] theorem setBucket_cmd (s : State) (i : Nat) (v : Bkt) : (setBucket s i v).cmd = s.cmd := rfl
@[simp] theorem setBucket_ints (s : State) (i : Nat) (v : Bkt) : (setBucket s i v).ints = s.ints := rfl
@[simp] theorem setBucket_cores (s : State) (i : Nat) (v : Bkt) : (setBucket s i v).cores = s.cores := rfl
@[simp] theorem setBucket_tsk (s : State) (i : Nat) (v : Bkt) : (setBucket s i v).tsk = s.tsk := rfl
@[simp] theorem setBucket_lpe (s : State) (i : Nat) (v : Bkt) : (setBucket s i v).lpe = s.lpe := rfl
@[simp] theorem setBucket_afe (s : State) (i : Nat) (v : Bkt) : (setBucket s i v).afe = s.afe := rfl
@[simp] theorem setBucket_tim (s : State) (i : Nat) (v : Bkt) : (setBucket s i v).tim = s.tim := rfl
@[simp] theorem setBucket_fur (s : State) (i : Nat) (v : Bkt) : (setBucket s i v).fur = s.fur := rfl
@[simp] theorem setBucket_grn (s : State) (i : Nat) (v : Bkt) : (setBucket s i v).grn = s.grn := rfl
@[simp] theorem setBucket_hrw (s : State) (i : Nat) (v : Bkt) : (setBucket s i v).hrw = s.hrw := rfl
@[simp] theorem setBucket_prt (s : State) (i : Nat) (v : Bkt) : (setBucket s i v).prt = s.prt := rfl
@[simp] theorem setBucket_snr (s : State) (i : Nat) (v : Bkt) : (setBucket s i v).snr = s.snr := rfl
@[simp] theorem setBucket_stk (s : State) (i : Nat) (v : Bkt) : (setBucket s i v).stk = s.stk := rfl
@[simp] theorem setBucket_tly (s : State) (i : Nat) (v : Bkt) : (setBucket s i v).tly = s.tly := rfl
@[simp] theorem setBucket_dbg (s : State) (i : Nat) (v : Bkt) : (setBucket s i v).dbg = s.dbg := rfl
@[simp] theorem setBucket_eps (s : State) (i : Nat) (v : Bkt) : (setBucket s i v).eps = s.eps := rfl
@[simp] theorem setBucket_same (s : State) (i : Nat) (v : Bkt) : bucket (setBucket s i v) i = v := tget_tset_same _ _ _ _
theorem setBucket_ne (s : State) (i : Nat) (v : Bkt) (k : Nat) (h : k ≠ i) : bucket (setBucket s i v) k = bucket s k := tget_tset_ne h
@[simp] theorem setFltRec_tick (s : State) (i : Nat) (v : FltRec) : (setFltRec s i v).tick = s.tick := rfl
@[simp] theorem setFltRec_regs (s : State) (i : Nat) (v : FltRec) : (setFltRec s i v).regs = s.regs := rfl
@[simp] theorem setFltRec_mem (s : State) (i : Nat) (v : FltRec) : (setFltRec s i v).mem = s.mem := rfl
@[simp] theorem setFltRec_pending (s : State) (i : Nat) (v : FltRec) : (setFltRec s i v).pending = s.pending := rfl
@[simp] theorem setFltRec_rdata (s : State) (i : Nat) (v : FltRec) : (setFltRec s i v).rdata = s.rdata := rfl
@[simp] theorem setFltRec_dma (s : State) (i : Nat) (v : FltRec) : (setFltRec s i v).dma = s.dma := rfl
@[simp] theorem setFltRec_freeCtr (s : State) (i : Nat) (v : FltRec) : (setFltRec s i v).freeCtr = s.freeCtr := rfl
@[simp] theorem setFltRec_sys (s : State) (i : Nat) (v : FltRec) : (setFltRec s i v).sys = s.sys := rfl
@[simp] theorem setFltRec_std (s : State) (i : Nat) (v : FltRec) : (setFltRec s i v).std = s.std := rfl
@[simp] theorem setFltRec_hst (s : State) (i : Nat) (v : FltRec) : (setFltRec s i v).hst = s.hst := rfl
@[simp] theorem setFltRec_aut (s : State) (i : Nat) (v : FltRec) : (setFltRec s i v).aut = s.aut := rfl
@[simp] theorem setFltRec_cmd (s : State) (i : Nat) (v : FltRec) : (setFltRec s i v).cmd = s.cmd := rfl
@[simp] theorem setFltRec_ints (s : State) (i : Nat) (v : FltRec) : (setFltRec s i v).ints = s.ints := rfl
@[simp] theorem setFltRec_cores (s : State) (i : Nat) (v : FltRec) : (setFltRec s i v).cores = s.cores := rfl
@[simp] theorem setFltRec_tsk (s : State) (i : Nat) (v : FltRec) : (setFltRec s i v).tsk = s.tsk := rfl
@[simp] theorem setFltRec_lpe (s : State) (i : Nat) (v : FltRec) : (setFltRec s i v).lpe = s.lpe := rfl
@[simp] theorem setFltRec_afe (s : State) (i : Nat) (v : FltRec) : (setFltRec s i v).afe = s.afe := rfl
@[simp] theorem setFltRec_tim (s : State) (i : Nat) (v : FltRec) : (setFltRec s i v).tim = s.tim := rfl
@[simp] theorem setFltRec_fur (s : State) (i : Nat) (v : FltRec) : (setFltRec s i v).fur = s.fur := rfl
@[simp] theorem setFltRec_grn (s : State) (i : Nat) (v : FltRec) : (setFltRec s i v).grn = s.grn := rfl
@[simp] theorem setFltRec_hrw (s : State) (i : Nat) (v : FltRec) : (setFltRec s i v).hrw = s.hrw := rfl
@[simp] theorem setFltRec_prt (s : State) (i : Nat) (v : FltRec) : (setFltRec s i v).prt = s.prt := rfl
@[simp] theorem setFltRec_snr (s : State) (i : Nat) (v : FltRec) : (setFltRec s i v).snr = s.snr := rfl
@[simp] theorem setFltRec_stk (s : State) (i : Nat) (v : FltRec) : (setFltRec s i v).stk = s.stk := rfl
@[simp] theorem setFltRec_tly (s : State) (i : Nat) (v : FltRec) : (setFltRec s i v).tly = s.tly := rfl
@[simp] theorem setFltRec_dbg (s : State) (i : Nat) (v : FltRec) : (setFltRec s i v).dbg = s.dbg := rfl
@[simp] theorem setFltRec_eps (s : State) (i : Nat) (v : FltRec) : (setFltRec s i v).eps = s.eps := rfl
@[simp] theorem setFltRec_same (s : State) (i : Nat) (v : FltRec) : fltRec (setFltRec s i v) i = v := tget_tset_same _ _ _ _
theorem setFltRec_ne (s : State) (i : Nat) (v : FltRec) (k : Nat) (h : k ≠ i) : fltRec (setFltRec s i v) k = fltRec s k := tget_tset_ne h
@[simp] theorem setCmdRing_same (s : State) (i : Nat) (v : CmdRing) : cmdRing (setCmdRing s i v) i = v := tget_tset_same _ _ _ _
theorem setCmdRing_ne (s : State) (i : Nat) (v : CmdRing) (k : Nat) (h : k ≠ i) : cmdRing (setCmdRing s i v) k = cmdRing s k := tget_tset_ne h
@[simp] theorem setCplRing_same (s : State) (i : Nat) (v : CplRing) : cplRing (setCplRing s i v) i = v := tget_tset_same _ _ _ _
theorem setCplRing_ne (s : State) (i : Nat) (v : CplRing) (k : Nat) (h : k ≠ i) : cplRing (setCplRing s i v) k = cplRing s k := tget_tset_ne h

end Sys2Proof.Machine
end

