-- ==== Sys2Proof/Tests/Slice0.lean ====
section
/-! SUPPORT. Tests: the ill-formed commands that each check of WellFormed refuses, single steps on small states with results taken
from the spec's rules, and for each statement a witness that its hypotheses can hold together. -/

namespace Sys2Proof.Tests

open Sys2Proof.Machine
set_option Elab.async false

/-! ### Helpers -/

/-- What `f` reads in the state that `c` gives at `s`; none where it gives none. -/
def after {α : Type} (c : Instr) (s : State) (f : State → α) : Option α :=
  match exec c s with
  | .next t => some (f t)
  | _ => none

/-- Does a write of `v` take effect at the register at `off`. -/
def takes (s : State) (bus : Bus) (off : Nat) (v : U32) : Bool :=
  match rowOf off with
  | some row => !held s && writeReaches s bus row && decide (v &&& u32 row.rsv = 0)
  | none => false

/-- `takes` decides `WriteOk`. -/
theorem writeOk_iff (s : State) (bus : Bus) (off : Nat) (v : U32) : WriteOk s bus off v ↔ takes s bus off v = true := by
  unfold WriteOk takes
  cases h : rowOf off with
  | none => simp
  | some row => simp [and_assoc]

/-- The device right after reset. -/
def fresh : State := State.reset

/-- Core 0 is halted by the debug port. -/
def halted0 : State := { fresh with cores := [(0, { halted := true })] }

/-- The device with some registers at other values than their Reset column. -/
def withRegs (s : State) (rs : List (Nat × U32)) : State := rs.foldl (fun u q => wr u q.1 q.2) s

/-- The clocks run, no frames yet. -/
def clocked : State := { fresh with sys := { refclkOk := true, pllLock := true, clkRun := true } }

/-- Frames run at FRAME_LEN 1 (L = 800): the tick count stands 100 ticks into epoch 10. -/
def framed : State := { clocked with tick := 8100, sys := { clocked.sys with running := true, nextJ := 11 } }

/-- Where commands of the catalogue come from: ring 0, session 7, flow 1, no EPOCH_REQ. -/
def src : CmdSrc := { ring := 0, slot := 3, seq := 9, session := 7, flow := 1, epochReq := 0 }

/-! ### Well-formed commands -/

theorem test_wf_refuses_long_payload : (Instr.nop src (List.replicate 193 0)).wf = false := by decide +kernel
theorem test_wf_refuses_session_zero : (Instr.nop { src with session := 0 } []).wf = false := by decide +kernel
theorem test_wf_refuses_short_firmware_envelope : (Instr.fwUpdate src (List.replicate 511 0)).wf = false := by decide +kernel
theorem test_wf_refuses_firmware_session_zero : (Instr.fwUpdate { src with session := 0 } (List.replicate 512 0)).wf = false := by
  decide +kernel
theorem test_wf_refuses_partial_fetch : (Instr.fetchComplete 0 (List.replicate 300 0)).wf = false := by decide +kernel
theorem test_wf_refuses_long_effect : (Instr.effectReceive 0 1 2 (List.replicate 513 0)).wf = false := by decide +kernel
theorem test_wf_refuses_long_frame : (Instr.ethFrameReceive 0 true (List.replicate 2033 0)).wf = false := by decide +kernel
theorem test_wf_refuses_long_journal_record : (Instr.journalPortSubmit 0 (List.replicate 4097 0) 0).wf = false := by decide +kernel
theorem test_wf_refuses_nine_engines : (Instr.enginesDone (List.replicate 9 0)).wf = false := by decide +kernel
theorem test_wf_refuses_long_discovery :
    (Instr.discoverReturn 0 ⟨true, false, List.replicate 257 0⟩ ⟨true, false, []⟩).wf = false ∧
    (Instr.discoverReturn 0 ⟨true, false, []⟩ ⟨true, false, List.replicate 257 0⟩).wf = false := by decide +kernel
theorem test_wf_refuses_long_measurement : (Instr.measureReturn 0 true 0 (List.replicate 257 0)).wf = false := by decide +kernel
theorem test_wf_refuses_unaligned_offset :
    (Instr.registerWrite .host 0x112 0 none).wf = false ∧ (Instr.w1cWrite .host 0x0122 0).wf = false ∧ (Instr.rcRead .host 0x9 false).wf = false ∧
    (Instr.latchedPairRead .host 0x9 false).wf = false := by decide +kernel
theorem test_wf_refuses_unaligned_wide :
    (Instr.registerWrite .host 0x114 0 (some 0)).wf = false ∧ (Instr.rcRead .host 0x124 true).wf = false ∧
    (Instr.latchedPairRead .debug 0x0120 true).wf = false := by decide +kernel
theorem test_wf_refuses_doorbells_to_a_core :
    (Instr.rcRead (.core 2) 0x2000004 false).wf = false ∧ (Instr.rcRead .host 0x2000008 true).wf = false ∧
    (Instr.rcRead .host 0x2000004 false).wf = true := by decide +kernel
theorem test_wf_accepts_debug_port_address : (Instr.registerWrite .debug 0x44 0 none).wf = true := by decide +kernel
theorem test_wf_refuses_wrong_register_type :
    (Instr.w1cWrite .host 0x0110 0).wf = false ∧ (Instr.latchedPairRead .host 0x0110 false).wf = false := by
  decide +kernel
theorem test_wf_accepts : (Instr.nop src []).wf = true ∧ (Instr.w1cWrite .host 0x0104 1).wf = true ∧
    (Instr.latchedPairRead .host 0x0120 false).wf = true := by decide +kernel

/-! ### The queue, the clock and reset -/

theorem witness_StepRunsTheFrontCommand : { fresh with pending := [.hotReset, .linkDown] }.pending = .hotReset :: [.linkDown] := rfl

theorem witness_EmptyQueueLetsOneTickPass :
    fresh.pending = [] ∧ fresh.sys.clkRun = false ∧ clocked.pending = [] ∧ clocked.sys.clkRun = true ∧
    { clocked with tick := 0xFFFFFFFFFFFFFFFE }.tick.toNat + 1 < 2 ^ 64 := by decide +kernel

theorem test_idle_tick : step clocked = .next { clocked with tick := 1 } := by
  have h : (idle clocked) = { clocked with tick := 1 } := by rfl
  show Host.Outcome.next (idle clocked) = _
  rw [h]

/-- A canonical state with a queue, a byte of core memory, a register and an authority slot. -/
def canon : State :=
  { fresh with pending := [.hotReset], mem := [(0x10000000, 7)], regs := [(rSYS_FRAME_CFG, 2)],
               std := { fresh.std with slots := [(3, { revCnt := 15 })] } }

theorem witness_EveryStepKeepsTheCanonicalForms : (∃ t, step canon = .next t) ∧ Canonical canon = true ∧ Canonical fresh = true :=
  ⟨⟨_, rfl⟩, by decide +kernel, by decide +kernel⟩

theorem witness_RevCntNeverFalls : slotsWf canon.std = true ∧ (∃ t, step canon = .next t) ∧ revOf canon.std 3 = 15 :=
  ⟨by decide +kernel, ⟨_, rfl⟩, by decide +kernel⟩

theorem witness_PostedWritesStayInOrder : ∃ t, step { canon with dma := [⟨0, [1]⟩] } = .next t := ⟨_, rfl⟩

theorem witness_CommandsChangeOnlyTheirAreas :
    (∃ t, exec .hotReset canon = .next t) ∧ (areas .hotReset).contains .mem = false := ⟨⟨_, rfl⟩, by decide⟩

/-! ### Register access -/

theorem witness_ReservedOffsetsReadZeroAndIgnoreWrites :
    rowOf 0x1200000 = none ∧ rowOf 0x1FFFFFF = none ∧ rowOf 0x108 = none ∧ (Bus.host = .debug → 0x100 ≤ 0x108) := by decide +kernel

/-- The window is closed. -/
def shut : State := { fresh with sys := { fresh.sys with setupDone := true } }

theorem witness_ReservedFieldsStopTheWrite :
    (∃ row, rowOf rSYS_FRAME_CFG = some row ∧ writeReaches fresh .host row = true ∧ held fresh = false ∧ 0x00100000 &&& u32 row.rsv ≠ 0) ∧
    (∃ row, rowOf rSYS_FRAME_CFG = some row ∧ writeReaches shut .host row = false) ∧ held { fresh with sys := { pin := true } } = true ∧
    (∃ row, rowOf rSYS_FRAME_CFG = some row ∧ 0x00080502 &&& u32 row.rsv = 0) ∧
    coreRegs rSYS_FRAME_CFG = false ∧ coreRegs rINT_SSET = true ∧ (∃ up : Fin 0x2000000, up.val = rSYS_FRAME_CFG + 4) ∧ Bus.host ≠ .debug :=
  ⟨⟨_, rfl, by decide +kernel⟩, ⟨_, rfl, by decide +kernel⟩, by decide +kernel, ⟨_, rfl, by decide +kernel⟩, by decide +kernel, by decide +kernel,
   ⟨⟨0x114, by decide⟩, rfl⟩, by decide⟩

theorem test_reserved_field_stops :
    (match exec (.registerWrite .host ⟨0x110, by decide⟩ 0x00100000 none) fresh with
     | .fault (.reservedFieldSet o) => decide (o = 0x110) | _ => false) = true := by decide +kernel

theorem witness_RegisterTypesHold :
    (∃ row, rowOf rSYS_CLK_STAT = some row ∧ row.ty = .ro) ∧ (∃ row, rowOf rCPU_ECC_CNT = some row ∧ row.ty = .rc) ∧
    (∃ row, rowOf rSYS_FRAME_CFG = some row ∧ row.ty = .rwl ∧ shut.sys.setupDone = true) ∧
    (∃ row, rowOf rSYS_SETUP_DONE = some row ∧ row.ty = .wo) ∧
    (WriteOk fresh .host rSYS_CLK_EVT 3 ∧ (rowOf rSYS_CLK_EVT).map RegRow.ty = some .w1c) ∧
    ((rowOf rCPU_ECC_CNT).map RegRow.ty = some .rc ∧
      rCPU_ECC_CNT ∉ [rTSK_WHY, rTIM_ETH_RX_POP 0, rTIM_ETH_RX_POP 1, rTIM_ETH_TXTS_ID 0, rTIM_ETH_TXTS_ID 1]) :=
  ⟨⟨_, rfl, rfl⟩, ⟨_, rfl, rfl⟩, ⟨_, rfl, rfl, rfl⟩, ⟨_, rfl, rfl⟩, ⟨(writeOk_iff ..).2 (by decide +kernel), by decide +kernel⟩,
   by decide +kernel⟩

/-- R12: a bit written 0 stays, a bit written 1 clears. -/
theorem test_w1c :
    after (.w1cWrite .host ⟨rHST_EVT, by decide⟩ 6) (withRegs fresh [(rHST_EVT, 0x0F)]) (fun t => rg t rHST_EVT) = some 0x09 := by
  decide +kernel
/-- R12, R382: LINK_DOWN sets again while the link is down. -/
theorem test_w1c_cause_present :
    after (.w1cWrite .host ⟨rHST_EVT, by decide⟩ 3) (withRegs fresh [(rHST_EVT, 3)]) (fun t => rg t rHST_EVT) = some 1 := by decide +kernel
theorem test_rc_clears_once :
    after (.rcRead .host ⟨rCPU_ECC_CNT, by decide⟩ false) (withRegs fresh [(rCPU_ECC_CNT, 9)]) (fun t => (t.rdata, rg t rCPU_ECC_CNT)) = some (9, 0) := by
  decide +kernel
theorem test_debug_read_clears_nothing :
    after (.rcRead .debug ⟨rCPU_ECC_CNT, by decide⟩ false) (withRegs fresh [(rCPU_ECC_CNT, 9)]) (fun t => (t.rdata, rg t rCPU_ECC_CNT)) = some (9, 9) := by
  decide +kernel

theorem witness_PlainRegistersStoreWhatIsWritten :
    WriteOk fresh .host rSYS_FRAME_CFG 0x00080502 ∧ WriteOk fresh (.core 3) rTSK_CFG 1 ∧ rSYS_FRAME_CFG < 0x2000000 ∧
    rTSK_CFG < 0x2000000 := by
  simp only [writeOk_iff]; decide +kernel

theorem test_register_write :
    after (.registerWrite .host ⟨rSYS_FRAME_CFG, by decide⟩ 0x00080502 none) fresh (fun t => rg t rSYS_FRAME_CFG) = some 0x00080502 := by
  decide +kernel

theorem witness_LowWordsLatchTheirHighWords : rSYS_EPOCH_LO < 0x2000000 ∧ rSTK_TAKE_EPOCH_LO < 0x2000000 := by decide

/-- R39: the read of the low word latches the high one. -/
theorem test_latched_pair :
    after (.latchedPairRead .host ⟨rGRN_MISS_LAST_LO, by decide⟩ false) { fresh with grn := { missLast := 0x0000000500000006 } }
      (fun t => (t.rdata, busRead t .host rGRN_MISS_LAST_HI)) = some (6, 5) := by decide +kernel
/-- R10, R39: a 64-bit read gives both halves. -/
theorem test_latched_pair_wide :
    after (.latchedPairRead .host ⟨rGRN_MISS_LAST_LO, by decide⟩ true) { fresh with grn := { missLast := 0x0000000500000006 } }
      (fun t => t.rdata) = some 0x0000000500000006 := by decide +kernel
/-- R10: a 64-bit write is two writes, the lower offset first. -/
theorem test_wide_write :
    after (.registerWrite .host ⟨rHST_SNP_BASE_LO, by decide⟩ 0x11111000 (some 0x22222222)) fresh
      (fun t => (rg t rHST_SNP_BASE_LO, rg t rHST_SNP_BASE_HI)) = some (0x11111000, 0x22222222) := by decide +kernel

/-! ### Keys and envelopes

The private keys are 777 (authority) and 5 (device), the session key is the bytes 1 to 32. The signatures, MACs and the wrapped key follow
R78, R82, R91, R92 and R522, and were computed from FIPS 180-4, 186-5, 197, 198-1 and SP 800-38D by a script of this package's author. -/

/-- The authority key of slot 0. -/
def adminKey : Bytes := beBytes 64 0x572c77284c06125140282034d3c7530d1627b131a7fc852418a79cf5a7b7861f637702db11da4e8d44fc208560e035fd0a1f9dbfb91aa47d722520eed6fd7c95 ++
  beBytes 32 0x960edf8439674b260784b122e78a2c5a5e04abc4e24f262b9756e3a026fda093

/-- The session key. -/
def sessKey : Bytes := beBytes 32 0x0102030405060708090a0b0c0d0e0f101112131415161718191a1b1c1d1e1f20

/-- A NOP envelope of session 7 with SEQ 9. -/
def nopEnvelope : Bytes := beBytes 64 0x01000101000001000900000000000000070000000000000000000000000000000000000000000000000000000000000000000000000000000000000000000000 ++
  List.replicate 128 0 ++
  beBytes 64 0x0000000000000000000000000000000000000000000000000000000000000000478dd1e1820a3aedc7f0a2668b3dd0e70364add67304e1a185b17be4ada3db54

/-- An envelope of session 7 with SEQ 9 and an opcode that does not exist. -/
def unknownEnvelope : Bytes := beBytes 64 0x01009909000001000900000000000000070000000000000000000000000000000000000000000000000000000000000000000000000000000000000000000000 ++
  List.replicate 128 0 ++
  beBytes 64 0x0000000000000000000000000000000000000000000000000000000000000000514a30742519cef6e4292dc46373976bb4a0e8b7aae328de786082d7972c42db

/-- A BLOCK envelope of session 7 with SEQ 9 for group 0. -/
def blockEnvelope : Bytes := beBytes 64 0x01000202040001000900000000000000070000000000000000000000000000000100000000000000000000000000000000000000000000000000000000000000 ++
  List.replicate 128 0 ++
  beBytes 64 0x0000000000000000000000000000000000000000000000000000000000000000b2b9f6e33c90f41cf2cfddbb8d50c4c88c99e63a3972590f2e8707c293f058a3

/-- A session-open of session 7 under slot 0, PRIV_MAX ADMIN, challenge 0x42, SEQ 3. -/
def openEnvelope : Bytes := beBytes 64 0x01010000600101000300000000000000070000000000000000000000000000000100000307000000420000000000000000000000000000000000000000000000 ++
  beBytes 64 0x00000000000000003966d6c7e6a199e21807f0f8347406aa40aa59c18578b061c2bcafb3da86b24ecd4da2100402993d56c9b5e1f6b0f369f4ea25efa6a75343 ++
  beBytes 64 0xb90c5575e4bd629e7e43e63715b3820925fc2e66e0a3340ed89572d1eb499437cb28285dc9abe400a0443850fd2bb67dfd43b25e02476c65924a7b054208565b ++
  beBytes 64 0xd1fc9203456912dcb7040a3314f6bb3155145378b0146c8a000102030405060708090a0ba66691bdddaf86e3a209de5358f2502aa0270a725395d154075a2e23 ++
  beBytes 64 0x290048cfb3c7316ee2a2cfddca80843ee8403ba30000000000000000000000000000000000000000000000000000000000000000000000000000000000000000 ++
  List.replicate 64 0 ++
  beBytes 64 0x46fa665be07f909eaf450c7f6b1b3b7f1ed007505e552bccb659c3f4f57471e072d76d77ab977069499b660a3b1287bdb30a07e2e5c1c0db1eaf654079982e5f ++
  beBytes 64 0xce39ff487f4d68b7942e56f7119a8c832392d9c81597656e25c446c59a33205afaa48ee642014b1a7f57daaad97a998fba01206a22a210f59457f2149476b83f

/-- A firmware envelope for the core image of version 6 whose content is the four bytes 13 00 00 00. -/
def coreEnvelope : Bytes := beBytes 64 0x0102040460010100090000000000000007000000000000000000000000000000010000010400000000000000000000000600000000000000ad3d82636dcfc976 ++
  beBytes 64 0xfb33c00104245d203af0ed339e4083c35ab9c6628e3ab6e45a346d1aaa1d7dba6c8281f9e326cba2000000000000000000000000000000000000000000000000 ++
  List.replicate 256 0 ++
  beBytes 64 0x4f2040f3771c6a255986aa94a9c7a255a47db29427b1fd3c7f6729b6315fa43a1d5a12d3d08ec557b95f569d0bbc2c6a65577327a71163a6a026dd9dbb0fce6e ++
  beBytes 64 0xe32a7bd4d8c82032a7ac5b673f21b7d73505aae9a9993e096b8edfd46b40db098c9b4fdfb5105c07a1aa72b4a157af57d3b37b9d73f8732097031ebcff78a074

/-- A firmware envelope for the safety image, likewise. -/
def safetyEnvelope : Bytes := beBytes 64 0x0102040460010100090000000000000007000000000000000000000000000000010000020400000000000000000000000600000000000000ad3d82636dcfc976 ++
  beBytes 64 0xfb33c00104245d203af0ed339e4083c35ab9c6628e3ab6e45a346d1aaa1d7dba6c8281f9e326cba2000000000000000000000000000000000000000000000000 ++
  List.replicate 256 0 ++
  beBytes 64 0x9ebb96c3575b06a6fe4f9eda9783a8ff8b076b559ec571784d9108dc6c9146a74885a0dd403214df43a745fea65ac1b835660d144abeaa393d244b4729d41937 ++
  beBytes 64 0xa182f83dc12656543b8629d89d14cd9a2830a5293dee08ed351f1bccfcdbed77e43e8e038712682013250c280e2ef2eeb93ce37d3947cca5c0fb0d7dcf808351

/-- The words of an unlock block for LEVEL 2 under slot 0 and challenge 0x42. -/
def unlockWords : List (Nat × U32) :=
  [(0, 0x2D52545A), (1, 0x00474244), (2, 0x00000002), (4, 0x00000042), (8, 0xC7D66639), (9, 0xE299A1E6), (10, 0xF8F00718), (11,
   0xAA067434), (12, 0xC159AA40), (13, 0x61B07885), (14, 0xB3AFBCC2), (15, 0x4EB286DA), (16, 0x10A24DCD), (17, 0x3D990204), (18,
   0xE1B5C956), (19, 0x69F3B0F6)]

/-- The words of its signature. -/
def unlockSigWords : List (Nat × U32) :=
  [(0, 0x11910DAA), (1, 0x215544D8), (2, 0x35D85F37), (3, 0xCD247895), (4, 0x264BE6F9), (5, 0x60A44853), (6, 0xF8019030), (7,
   0x3B9378C0), (8, 0xA24A0383), (9, 0xF4054D1D), (10, 0x4C1FA3CE), (11, 0x93D247B4), (12, 0x1FDE924C), (13, 0x043F62AD), (14,
   0x63C7EA92), (15, 0xB81D5275), (16, 0xBC054914), (17, 0x56D0871C), (18, 0x8D993F7B), (19, 0x87D05D5A), (20, 0x5DB674D3), (21,
   0x81CB29C4), (22, 0x0A580A18), (23, 0xA26FD176)]

/-- The key-protection storage of the tests. -/
def store : Bytes := List.replicate 256 0x5A

/-- A provisioned device: slot 0 holds the authority key with ceiling ADMIN, session 7 is open on ring 0, the clocks run. -/
def keyed : State :=
  { clocked with
    std := { clocked.std with vault := 1, keyProt := store, devPriv := some ⟨store, 5⟩, slots := [(0, { key := some adminKey, ceil := 3 })] }
    aut := { chal := 0x42, devkeyOk := true, sess := [(0, { used := true, id := 7, key := sessKey, priv := 3 })] }
    dbg := { chal := 0x42 } }

/-- The same with signed images in the banks core A and safety A. -/
def bootable : State :=
  { keyed with std := { keyed.std with banks := [(0, { env := coreEnvelope, mark := 0x5A5AA5A5, image := [0x13, 0, 0, 0] }),
                                                 (2, { env := safetyEnvelope, mark := 0x5A5AA5A5, image := [0x13, 0, 0, 0] })] } }

/-- Command ring 0 and completion ring 0 enabled with 64 entries. -/
def ringed (s : State) : State := withRegs s [(ringCfg 0, 0x106), (ringCfg 4, 0x106)]

/-! ### Resets, clocks and boot -/

theorem witness_ResetsReturnEveryBlock :
    fresh.sys.por = false ∧ { fresh with sys := { por := true } }.sys.por = true ∧ { fresh with sys := { pin := true } }.sys.pin = true ∧
    { fresh with sys := { soft := true } }.sys.soft = true ∧ WriteOk fresh .host rSYS_RST_CTL 1 ∧ WriteOk framed .host rSYS_RST_CTL 2 := by
  simp only [writeOk_iff]; decide +kernel

theorem test_por_clears_core_memory :
    after (.porAssert 1) { framed with mem := [(0x10000000, 7)] } (fun t => (readByte t.mem 0x10000000, t.tick, t.sys.running)) =
      some (0, 0, false) := by decide +kernel
theorem test_por_release_records_cause :
    after (.porRelease 2) { fresh with sys := { por := true } } (fun t => (rg t rSYS_RST_CAUSE, t.stk.id, held t)) = some (1, 2, false) := by
  decide +kernel
theorem test_long_release :
    after (.rstNRelease 12 0) { fresh with sys := { pin := true }, std := { fresh.std with longLatch := true } }
      (fun t => (rg t rSYS_RST_CAUSE, t.std.longCnt)) = some (0x12, 1) := by decide +kernel
theorem test_rst_n_keeps_memory :
    after .rstNLow { framed with mem := [(0x10000000, 7)] } (fun t => (readByte t.mem 0x10000000, t.tick, t.sys.pin)) = some (7, 0, true) := by
  decide +kernel
theorem test_long_latch :
    after .longResetLatch { fresh with sys := { pin := true } } (fun t => t.std.longLatch) = some true := by decide +kernel
theorem test_soft_reset :
    after (.softReset .host) (withRegs framed [(rSYS_FRAME_CFG, 2)]) (fun t => (rg t rSYS_FRAME_CFG, t.sys.soft)) = some (0x00040401, true) := by
  decide +kernel
theorem test_soft_release :
    after (.softResetRelease 0) { fresh with sys := { soft := true } } (fun t => rg t rSYS_RST_CAUSE) = some 3 := by decide +kernel
theorem test_frame_reset_keeps_configuration :
    after (.frameReset .host) (withRegs framed [(rSYS_FRAME_CFG, 0x00060402)]) (fun t => (rg t rSYS_FRAME_CFG, t.sys.running)) =
      some (0x00060402, false) := by decide +kernel

theorem witness_ClockLossAndRecovery :
    clocked.sys.refclkOk = true ∧ clocked.sys.pllLock = true ∧ held fresh = false ∧ fresh.sys.clkRun = false ∧
    clapEn (withRegs clocked [(rPRT_CLAP_CFG 11, 0x201)]) 11 = true := by decide +kernel

theorem test_refclk_lost :
    after .refclkLost clocked (fun t => (rg t rSYS_CLK_EVT, t.sys.clkRun, t.flt.inbox.length)) = some (1, false, 1) := by decide +kernel
theorem test_pll_unlock : after .pllUnlock clocked (fun t => (rg t rSYS_CLK_EVT, t.sys.pllLock)) = some (2, false) := by decide +kernel
theorem test_pll_lock : after .pllLock fresh (fun t => (t.sys.clkRun, (Machine.core t 0).released)) = some (true, true) := by decide +kernel

theorem witness_BootStartsTheImages :
    held bootable = false ∧ bootable.std.devNeed = false ∧ bootable.std.devPriv.isSome = true ∧ bootable.sys.pllLock = true ∧
    bit (rg bootable rSYS_BOOT_STAT) 6 = false ∧ bit (rg bootable rSYS_BOOT_STAT) 7 = false ∧ fld (rg bootable rSYS_BOOT_STAT) 10 8 = 0 ∧
    bankPick keyed 1 = none := by decide +kernel
theorem witness_core_bank : bankPick bootable 1 = some (0, false) := by decide +kernel
theorem witness_safety_bank : bankPick bootable 2 = some (2, false) := by decide +kernel

theorem test_core_image :
    after (.coreImageStart true) bootable (fun t => ((Machine.core t 0).pc, readByte t.mem 0x40000000, t.sys.cver)) =
      some (0x40000000, 0x13, 6) := by decide +kernel
theorem test_no_bank : after (.coreImageStart true) keyed (fun t => fld (rg t rSYS_BOOT_STAT) 10 8) = some 1 := by decide +kernel

theorem witness_SetupDoneClosesTheWindow :
    WriteOk (ringed keyed) .host rSYS_SETUP_DONE 1 ∧ WriteOk fresh .host rSYS_SETUP_DONE 2 ∧ (ringed keyed).sys.setupDone = false ∧
    (List.range 8).any (slotActive (ringed keyed)) = true ∧ ringEn (ringed keyed) 0 = true ∧ ringEn (ringed keyed) 4 = true ∧
    (List.range 8).any (slotActive fresh) = false ∧ ringEn keyed 0 = false ∧ WriteOk shut .host rSYS_SETUP_DONE 1 ∧ shut.sys.setupDone = true := by
  simp only [writeOk_iff]; decide +kernel

theorem test_window_closes : after (.setUpDoneWrite .host 1) (ringed keyed) (fun t => (t.sys.setupDone, t.std.vault)) = some (true, 2) := by
  decide +kernel
theorem test_window_refused :
    after (.setUpDoneWrite .host 1) keyed (fun t => (t.sys.setupDone, busRead t .host rSYS_SETUP_STAT)) = some (false, 0x1A) := by decide +kernel

theorem witness_StartFollowsTheFrameConfiguration :
    WriteOk clocked .host rSYS_FRAME_CTL 1 ∧ WriteOk framed .host rSYS_FRAME_CTL 1 ∧ bit (1 : U32) 0 = true ∧ framed.sys.running = true ∧
    clocked.sys.running = false ∧ fresh.sys.pllLock = false ∧
    fld (rg clocked rSYS_FRAME_CFG) 1 0 ≠ 3 ∧ 2 ≤ fld (rg clocked rSYS_FRAME_CFG) 13 8 ∧ fld (rg clocked rSYS_FRAME_CFG) 13 8 ≤ 40 ∧
    4 ≤ fld (rg clocked rSYS_FRAME_CFG) 19 16 ∧ fld (rg clocked rSYS_FRAME_CFG) 19 16 ≤ 8 ∧ clocked.sys.pllLock = true ∧
    tickReady clocked = true := by
  simp only [writeOk_iff]; decide +kernel

theorem test_start :
    after (.frameStartWrite .host 1) { clocked with tick := 800 } (fun t => (t.sys.running, t.sys.nextJ)) = some (true, 2) := by decide +kernel
theorem test_start_refused :
    after (.frameStartWrite .host 1) (withRegs clocked [(rSYS_FRAME_CFG, 0x00040403)]) (fun t => (t.sys.running, t.sys.cfgErr)) =
      some (false, true) := by decide +kernel

theorem witness_FrameBoundariesFollowEachOther :
    framed.sys.running = true ∧ framed.sys.clkRun = true ∧ framed.tick.toNat ≤ framed.sys.nextJ * lTicks framed ∧
    framed.sys.nextJ * lTicks framed < 2 ^ 64 := by decide +kernel

theorem test_frame_boundary : after .frameBoundary framed (fun t => (t.tick, t.sys.nextJ)) = some (8800, 12) := by decide +kernel
theorem test_clock_recovered :
    after .clockRecovered { fresh with flt := { inbox := [{ source := 0, code := 0 }] } } (fun t => (t.sys.clkRun, t.flt.inbox)) =
      some (true, []) := by decide +kernel
theorem test_devkey_ok : after .devkeyOk keyed (fun t => t.aut.devkeyOk) = some true := by decide +kernel
theorem test_safety_image : after (.safetyImageStart true) bootable (fun t => (t.sys.sver, t.prt.sp)) = some (6, true) := by decide +kernel

/-! ### Cores, their ports and the journal -/

theorem witness_CoreAccessFaultsTrap :
    (Machine.core fresh 0).halted = false ∧ accessOk 0 0 = false ∧ accessOk 0x1FFFF 2 = false ∧ accessOk 0x10000000 1 = true ∧
    (Machine.core halted0 0).halted = true := by decide +kernel

/-- R405: a store into the boot ROM raises the store access fault with the address in mtval. -/
theorem test_access_fault :
    after (.coreAccessFault 0 0x10004 2) { fresh with cores := [(0, { pc := 0x40000010, csr := [(0x305, 0x40000100)] })] }
      (fun t => ((Machine.core t 0).pc, tget 0 (Machine.core t 0).csr 0x341, tget 0 (Machine.core t 0).csr 0x342, tget 0 (Machine.core t 0).csr 0x343)) =
      some (0x40000100, 0x40000010, 7, 0x10004) := by decide +kernel
theorem test_corrected_ecc_counts : after (.coreEccError 0 true 0 0 0) fresh (fun t => rg t rCPU_ECC_CNT) = some 1 := by decide +kernel
theorem test_uncorrected_ecc_reports :
    after (.coreEccError 2 false 0 0x10000000 1) fresh (fun t => t.flt.inbox.contains { source := srcBlk 3 2, code := 0x00C0 }) = some true := by
  decide +kernel

theorem witness_CorePortsReadAndWritePoints : WriteOk fresh (.core 0) rSYS_CORE_RUN 0x0002 := by simp only [writeOk_iff]; decide +kernel

theorem test_core_run :
    after (.sysCoreRunWrite (.core 0) 0x0002) fresh (fun t => (Machine.core t 1).released && !(Machine.core t 2).released) = some true := by
  decide +kernel
theorem test_fw_point_store : after (.fwPointStore 3 5 0x3F800000) fresh (fun t => (tget stale t.grn.fwStage 5, tget stale t.grn.fwCur 5)) =
    some (0x3F800000, stale) := by decide +kernel
theorem test_fw_point_commit : after (.fwPointCommit 3) { fresh with grn := { fwStage := [(5, 1)] } } (fun t => tget stale t.grn.fwCur 5) =
    some 1 := by decide +kernel
theorem test_granary_load_epoch : after (.granaryPortLoad 0 0x100000) { fresh with grn := { commit := { k := 9 } } } (fun t => t.rdata) = some 9 := by
  decide +kernel

theorem witness_CacheOperationsMakeGxdcopBusy :
    fld (0x40000000 : U64) 1 0 = 0 ∧ bit (1 : U64) 2 = false ∧ regionOf (fld (1 : U64) 63 6 * 64) ≠ some .cached ∧
    fld (0x40000001 : U64) 1 0 ≠ 0 ∧ regionOf (fld (0x40000001 : U64) 63 6 * 64) = some .cached ∧ bit (7 : U64) 2 = true ∧
    fld (7 : U64) 1 0 ≠ 0 := by decide +kernel

theorem test_dcop_no_operation : after (.gxdcopWrite 0 0x40000000) fresh (fun t => (t.freeCtr, (Machine.core t 0).dcopEnd)) = some (3, 0) := by
  decide +kernel

/-- The journal queue holds one record that leaves one word of its 2,048. -/
def jnlFull : State := { fresh with grn := { jnlQ := [{ ty := 0x8000, words := List.replicate 2045 0 }] } }

theorem witness_JournalPortSubmits :
    ([1, 2] : List U64).length ≤ 4096 ∧ 0x8000 ≤ fld (0x00028000 : U32) 15 0 ∧ fld (0x00028000 : U32) 31 16 = ([1, 2] : List U64).length ∧
    jnlUsed fresh.grn.jnlQ + 2 + 2 ≤ 2048 ∧ 2048 < jnlUsed jnlFull.grn.jnlQ + 2 + 2 ∧ fld (0x00027FFF : U32) 15 0 < 0x8000 ∧
    fresh.grn.jnlReady = false ∧ { fresh with std := { fresh.std with jnl := [⟨0, 3, 8⟩] } }.std.jnl.getLast? = some ⟨0, 3, 8⟩ ∧
    { fresh with grn := { jnlReady := true } }.grn.jnlReady = true ∧ { fresh with grn := { jnlReady := true } }.grn.jnlQ = [] ∧
    ([5] : List U64).length ≤ 4096 ∧ (1048575 : Nat) < 1048576 := by decide +kernel

theorem test_journal_submit :
    after (.journalPortSubmit 1 [10, 11] 0x00028001) fresh (fun t => t.grn.jnlQ) = some [{ ty := 0x8001, words := [10, 11] }] := by decide +kernel
/-- R179: the header word holds TYPE, LEN and RSEQ; the record wraps at the end of the array. -/
theorem test_journal_write :
    after .journalWrite { fresh with grn := { jnlReady := true, jnlHead := 1048575, jnlSeq := 4, jnlQ := [{ ty := 0x8001, words := [10] }] } }
      (fun t => (tget 0 t.std.jnlMem 1048575, tget 0 t.std.jnlMem 0, t.grn.jnlHead, t.grn.jnlSeq)) =
      some (0x0000000400018001, 10, 2, 5) := by decide +kernel
theorem test_jnl_ready :
    after .jnlReady { fresh with std := { fresh.std with jnl := [⟨100, 3, 8⟩] } } (fun t => (t.grn.jnlReady, t.grn.jnlHead, t.grn.jnlSeq)) =
      some (true, 105, 9) := by decide +kernel

/-! ### The host port -/

/-- The link is up, ring 0, its completion ring and the event ring are enabled, and one slot of ring 0 is full. -/
def linked : State :=
  { withRegs (ringed keyed) [(ringCfg 8, 0x106)] with hst := { linkUp := true, cmd := [(0, { pi := 1 })], idxDirty := true } }

theorem witness_DoorbellsCheckTheirIndex :
    2 % 4 ≠ 0 ∧ 0x28 ≤ 0x28 ∧ held { fresh with sys := { pin := true } } = true ∧ held linked = false ∧ ringEn linked 0 = true ∧
    ((64 : U32) - dbOther linked 0).toNat ≤ ringN linked 0 ∧ (dbMine linked 0 - dbOther linked 0).toNat ≤ ((64 : U32) - dbOther linked 0).toNat ∧
    ringN linked 0 < ((65 : U32) - dbOther linked 0).toNat ∧
    ((0 : U32) - dbMine linked 4).toNat ≤ (dbOther linked 4 - dbMine linked 4).toNat ∧
    ¬ ((1 : U32) - dbMine linked 4).toNat ≤ (dbOther linked 4 - dbMine linked 4).toNat ∧
    WriteOk linked .host (ringCfg 0) 0x110 ∧ WriteOk linked .host (ringCfg 0) 0x006 ∧ WriteOk fresh .host (ringCfg 9) 0x110 ∧
    WriteOk fresh .host (ringCfg 9) 0x111 ∧ ringEn fresh 9 = false ∧ 6 ≤ fld (0x110 : U32) 4 0 ∧ fld (0x110 : U32) 4 0 ≤ 16 ∧
    16 < fld (0x111 : U32) 4 0 ∧ fld (0x105 : U32) 4 0 < 6 ∧ bit (0x110 : U32) 8 = true ∧ bit (0x006 : U32) 8 = false ∧
    WriteOk fresh .host (ringCfg 9) 0x006 ∧ Bus.host ≠ .debug ∧ 0x2000000 ≤ 0x2000004 := by
  simp only [writeOk_iff]; decide +kernel

theorem test_doorbell_accepts_n : after (.doorbellWrite 0 64) linked (fun t => (dbMine t 0, rg t rHST_DBERR_CNT)) = some (64, 0) := by
  decide +kernel
theorem test_doorbell_refuses_more : after (.doorbellWrite 0 65) linked (fun t => (dbMine t 0, rg t rHST_DBERR_CNT, rg t rHST_DBERR_LAST)) =
    some (1, 1, 0x410) := by decide +kernel
/-- R11, R56: a doorbell off a 4-byte offset is reported. -/
theorem test_doorbell_misaligned : after (.doorbellWrite 2 64) linked (fun t => (dbMine t 0, t.flt.inbox)) =
    some (1, [{ source := 0x0200, code := 0x0040 }]) := by decide +kernel
/-- R55: a read of BAR2 gives the last index accepted. -/
theorem test_doorbell_read : (after (.rcRead .host 0x2000000 false) linked (fun t => t.rdata), after (.rcRead .host 0x2000028 false) linked (fun t => t.rdata)) =
    (some 1, some 0) := by decide +kernel
theorem test_ring_geometry_stands : after (.hstRingCfgWrite .host 0 0x110) linked (fun t => ringN t 0) = some 64 := by decide +kernel
theorem test_ring_disable : after (.hstRingCfgWrite .host 0 0x006) linked (fun t => (ringEn t 0, dbMine t 0)) = some (false, 0) := by
  decide +kernel

theorem witness_LinkEventsReachTheRingsOnly : linked.hst.linkUp = true ∧ fresh.hst.linkUp = false := by decide +kernel

theorem test_bar0_bad_read : after (.bar0BadAccess true) { fresh with rdata := 5 } (fun t => (t.rdata, t.flt.inbox)) =
    some (0, [{ source := 0x0200, code := 0x0040 }]) := by decide +kernel
theorem test_bar2_bad_write : after (.bar2BadAccess false) { fresh with rdata := 5 } (fun t => (t.rdata, t.flt.inbox.length)) = some (5, 1) := by
  decide +kernel
theorem test_link_down : after .linkDown linked (fun t => (t.hst.linkUp, bit (rg t rHST_EVT) 0)) = some (false, true) := by decide +kernel
theorem test_hot_reset_keeps_enable : after .hotReset linked (fun t => (dbMine t 0, ringEn t 0, t.aut.sess.length)) = some (0, true, 1) := by
  decide +kernel
theorem test_link_up : after (.linkUp 3 2) fresh (fun t => (t.hst.speed, t.hst.width)) = some (4, 4) := by decide +kernel

/-- A fetch of one slot is in flight on ring 0. -/
def fetching : State := { linked with hst := { linked.hst with cmd := [(0, { pi := 1, fetch := some 1 })] } }

theorem witness_FetchesFollowTheRings :
    fetchRing linked 0 = some 0 ∧ fetchRing fresh 0 = none ∧ (cmdRing fetching 0).fetch = some 1 ∧ rd nopEnvelope 1 1 = 0 ∧
    rd openEnvelope 1 1 = 1 ∧ (cmdRing fetching 1).fetch = none ∧
    WriteOk linked .host rHST_RESTART 1 := by
  simp only [writeOk_iff]; decide +kernel

theorem test_command_fetch : after (.commandFetch 0) linked (fun t => (cmdRing t 0).fetch) = some (some 1) := by decide +kernel
theorem test_fetch_complete : after (.fetchComplete 0 nopEnvelope) fetching (fun t => ((cmdRing t 0).ci, t.hst.stage.length)) = some (1, 1) := by
  decide +kernel
/-- R59: a session-open takes two slots, and the second one is not there yet. -/
theorem test_fetch_waits : after (.fetchComplete 0 (openEnvelope.take 256)) fetching (fun t => ((cmdRing t 0).ci, (cmdRing t 0).fetch, t.hst.stage.length)) =
    some (0, none, 0) := by decide +kernel
theorem test_fetch_fail : after (.fetchFail 0 2) fetching (fun t => ((cmdRing t 0).err, (cmdRing t 0).ci, t.hst.cplDue.map (·.status))) =
    some (true, 0, [4]) := by decide +kernel
theorem test_fetch_timeout : after (.fetchTimeout 0) fetching (fun t => ((cmdRing t 0).err, t.hst.cplDue.map (·.status))) = some (true, [2]) := by
  decide +kernel
theorem test_restart :
    after (.hstRestartWrite .host 1) { linked with hst := { linked.hst with cmd := [(0, { err := true }), (1, { err := true })] } }
      (fun t => ((cmdRing t 0).err, (cmdRing t 1).err)) = some (false, true) := by decide +kernel

/-- A completion of ring 0 and an event are due. -/
def due : State :=
  { linked with hst := { linked.hst with cplDue := [{ ring := 0, seq := 9, status := 0 }],
                                         evtDue := [{ epoch := 3, tick := 2400, source := 0, code := 0, cls := 1, seqno := 0 }] } }

theorem witness_RingEntriesAreWrittenAtTheirIndex :
    takeCpl 0 [] due.hst.cplDue = some ({ ring := 0, seq := 9, status := 0 }, []) ∧ takeCpl 1 [] due.hst.cplDue = none ∧ due.hst.linkUp = true ∧
    ringEn due 4 = true ∧ (cplRing due 0).gen = 0 ∧ due.hst.evtDue.length = 1 ∧ ringEn due 8 = true ∧
    (due.hst.evtPi - due.hst.evtCi).toNat < ringN due 8 ∧ bit (rg (withRegs due [(rHST_IDX_CTL, 1)]) rHST_IDX_CTL) 0 = true ∧
    due.hst.idxDirty = true ∧ ringEn { due with regs := [] } 4 = false ∧ ringEn { due with regs := [] } 8 = false := by decide +kernel

/-- R65: 28 bytes, then 4 whose last holds PHASE, 1 on the first pass and 0 on the second. -/
theorem test_completion_write :
    after (.completionWrite 0) { due with hst := { due.hst with cpl := [(0, { pi := 65 })] } }
      (fun t => t.dma.map (fun w => (w.addr, w.bytes.length, w.bytes.getLast?))) = some [(32, 28, some 0), (60, 4, some 0)] := by decide +kernel
/-- R63: a completion of a flow waits for those of its flow on another ring. -/
theorem test_completions_of_a_flow_keep_order :
    takeCpl 1 [] [{ ring := 0, seq := 9, status := 0, flow := some 3 }, { ring := 1, seq := 4, status := 0, flow := some 3 }] = none ∧
    takeCpl 1 [] [{ ring := 0, seq := 9, status := 0, flow := some 2 }, { ring := 1, seq := 4, status := 0, flow := some 3 }] =
      some ({ ring := 1, seq := 4, status := 0, flow := some 3 }, [{ ring := 0, seq := 9, status := 0, flow := some 2 }]) := by decide +kernel
theorem test_completion_discarded : after (.completionWrite 0) { due with regs := [] } (fun t => (t.dma.length, rg t rHST_CPL_DISCARD)) =
    some (0, 1) := by decide +kernel
theorem test_event_write :
    after .eventWrite due (fun t => (t.dma.map (fun w => (w.addr, w.bytes.length, w.bytes.getLast?)), t.hst.evtPi)) =
      some ([(0, 60, some 0), (60, 4, some 1)], 1) := by decide +kernel
theorem test_index_block :
    after .indexBlockWrite (withRegs due [(rHST_IDX_CTL, 1), (rHST_IDX_BASE_LO, 0x1000)]) (fun t => t.dma.map (fun w => (w.addr, w.bytes.length))) =
      some [(0x1000, 64)] := by decide +kernel

/-! ### Zetur authentication -/

/-- One envelope is staged on ring 0. -/
def staged (b : Bytes) (s : State) : State := { s with hst := { s.hst with stage := [{ ring := 0, slot := 0, bytes := b }] } }

/-- Session 7 with other fields. -/
def sess (v : Session) (s : State) : State := { s with aut := { s.aut with sess := [(0, { v with used := true, id := 7, key := sessKey })] } }

theorem witness_EnvelopesPassTheirChecksInOrder :
    eKind nopEnvelope ≠ 1 ∧ eKind nopEnvelope ≠ 2 ∧ storeIsFull keyed = false ∧ commandFormat [] = false ∧ commandFormat nopEnvelope = true ∧
    vaultUsable fresh = false ∧ vaultUsable keyed = true ∧ findSession { keyed with aut := {} } (eSid nopEnvelope) = none ∧
    findSession keyed (eSid nopEnvelope) = some (0, { used := true, id := 7, key := sessKey, priv := 3 }) ∧
    sessExpired keyed { expired := true } = true ∧ sessExpired keyed {} = false ∧ ({ ring := 1 } : Session).ring ≠ 0 ∧
    hmacSha256 sessKey (slice nopEnvelope 0 224) = slice nopEnvelope 224 32 ∧ hmacSha256 [] (slice nopEnvelope 0 224) ≠ slice nopEnvelope 224 32 ∧
    (0 : U64).toNat < (eSeq nopEnvelope).toNat ∧ ¬ (9 : U64).toNat < (eSeq nopEnvelope).toNat ∧
    hmacSha256 sessKey (slice unknownEnvelope 0 224) = slice unknownEnvelope 224 32 ∧ opcodeClass (eOp unknownEnvelope) = none ∧
    hmacSha256 sessKey (slice blockEnvelope 0 224) = slice blockEnvelope 224 32 ∧ opcodeClass (eOp blockEnvelope) = some 1 ∧
    eOp blockEnvelope ≠ 0x0404 ∧ (List.range 1024).find? (fun i => !(item keyed i).used) = some 0 := by decide +kernel

/-- The refusals of R96 in their order: BAD_FORMAT, VAULT_NOT_READY, NO_SESSION, SESSION_EXPIRED, WRONG_RING, BAD_MAC, SEQ_OLD. -/
theorem test_refusals :
    after .envelopeVerify (staged [] keyed) (fun t => t.hst.cplDue.map (·.status)) = some [BitVec.ofNat 16 rfBadFormat] ∧
    after .envelopeVerify (staged nopEnvelope fresh) (fun t => t.hst.cplDue.map (·.status)) = some [BitVec.ofNat 16 rfVault] ∧
    after .envelopeVerify (staged nopEnvelope { keyed with aut := {} }) (fun t => t.hst.cplDue.map (·.status)) = some [BitVec.ofNat 16 rfNoSession] ∧
    after .envelopeVerify (staged nopEnvelope (sess { expired := true } keyed)) (fun t => t.hst.cplDue.map (·.status)) =
      some [BitVec.ofNat 16 rfExpired] ∧
    after .envelopeVerify (staged nopEnvelope (sess { ring := 1 } keyed)) (fun t => t.hst.cplDue.map (·.status)) =
      some [BitVec.ofNat 16 rfWrongRing] ∧
    after .envelopeVerify (staged nopEnvelope (sess { lastSeq := 9 } keyed)) (fun t => t.hst.cplDue.map (·.status)) =
      some [BitVec.ofNat 16 rfSeqOld] ∧
    after .envelopeVerify (staged blockEnvelope (sess { priv := 0 } keyed)) (fun t => (t.hst.cplDue.map (·.status), (tget {} t.aut.sess 0).lastSeq)) =
      some ([BitVec.ofNat 16 rfPriv], 9) := by decide +kernel
theorem test_envelope_enters_store :
    after .envelopeVerify (staged nopEnvelope keyed) (fun t => ((item t 0).op, (item t 0).arr, t.hst.stage, (tget {} t.aut.sess 0).lastSeq)) =
      some (0x0101, 0, [], 9) := by decide +kernel

/-- No session is open. -/
def unopened : State := { keyed with aut := { keyed.aut with sess := [] } }

theorem witness_SessionsOpenOnlyOnProof :
    (staged openEnvelope unopened).hst.stage.find? (fun e => eKind e.bytes == 1) = some { ring := 0, slot := 0, bytes := openEnvelope } ∧
    { unopened with aut := {} }.aut.devkeyOk = false ∧ unopened.aut.devkeyOk = true ∧
    commandWaits [] = false ∧ commandWaits [{ ring := 0, slot := 1, bytes := nopEnvelope }] = true ∧
    openChecks { unopened with aut := { devkeyOk := true, chal := 1 } } { ring := 0, slot := 0, bytes := openEnvelope } = .inl rfChallenge := by
  decide +kernel
/-- The key-encryption key of R92 for this session-open, its round keys, and the cipher blocks that GCM needs. -/
def kek : Bytes := beBytes 32 0x60d63768b0ecd47fa81cbd71ba11bd48c2b569e30eb5e3036140abbe06ac52c1
def kekRounds : List (List Nat) :=
  [[96, 214, 55, 104, 176, 236, 212, 127, 168, 28, 189, 113, 186, 17, 189, 72],
   [194, 181, 105, 227, 14, 181, 227, 3, 97, 64, 171, 190, 6, 172, 82, 193],
   [240, 214, 79, 7, 64, 58, 155, 120, 232, 38, 38, 9, 82, 55, 155, 65],
   [194, 47, 125, 96, 204, 154, 158, 99, 173, 218, 53, 221, 171, 118, 103, 28],
   [202, 83, 211, 101, 138, 105, 72, 29, 98, 79, 110, 20, 48, 120, 245, 85],
   [198, 147, 155, 156, 10, 9, 5, 255, 167, 211, 48, 34, 12, 165, 87, 62],
   [200, 8, 97, 155, 66, 97, 41, 134, 32, 46, 71, 146, 16, 86, 178, 199],
   [12, 34, 172, 90, 6, 43, 169, 165, 161, 248, 153, 135, 173, 93, 206, 185],
   [140, 131, 55, 14, 206, 226, 30, 136, 238, 204, 89, 26, 254, 154, 235, 221],
   [183, 154, 69, 155, 177, 177, 236, 62, 16, 73, 117, 185, 189, 20, 187, 0],
   [102, 105, 84, 116, 168, 139, 74, 252, 70, 71, 19, 230, 184, 221, 248, 59],
   [219, 91, 4, 121, 106, 234, 232, 71, 122, 163, 157, 254, 199, 183, 38, 254],
   [239, 158, 239, 178, 71, 21, 165, 78, 1, 82, 182, 168, 185, 143, 78, 147],
   [141, 40, 43, 165, 231, 194, 195, 226, 157, 97, 94, 28, 90, 214, 120, 226],
   [89, 34, 119, 12, 30, 55, 210, 66, 31, 101, 100, 234, 166, 234, 42, 121]]
def cipher (x : Nat) : Nat := (aesBlock kekRounds ((beBytes 16 x).map BitVec.toNat)).foldl (fun a d => a * 256 + d) 0
def hashKey : Nat := 0xefa177ef7e19fcf30f6b489115b6e001
def maskBlock : Nat := 0xcf1ee5199244cb887083ff38f64981f7
def stream1 : Nat := 0xa76492b9d8a981ebab03d55f55fc5f3a
def stream2 : Nat := 0xb13519664683c64c1e40353f341e57ef
def counter0 : Nat := 0x000102030405060708090a0b00000001

theorem kek_rounds : aesKeys kek = kekRounds := by decide +kernel
theorem cipher_hashKey : cipher 0 = hashKey := by decide +kernel
theorem cipher_maskBlock : cipher counter0 = maskBlock := by decide +kernel
theorem cipher_stream1 : cipher (counter0 + 1) = stream1 := by decide +kernel
theorem cipher_stream2 : cipher (counter0 + 2) = stream2 := by decide +kernel
theorem kek_derived :
    hkdfSha384 (slice openEnvelope 40 16) ((ecdhX 5 (slice openEnvelope 120 96)).getD []) ([0x5A, 0x54, 0x52, 0x2D, 0x4B, 0x45, 0x4B, 0x00] ++ slice openEnvelope 36 4) 32 =
      kek ∧ (ecdhX 5 (slice openEnvelope 120 96)).isSome = true := by decide +kernel
theorem tag_holds :
    beBytes 16 (ghash hashKey (pad16 (slice openEnvelope 0 120) ++ pad16 (slice openEnvelope 228 32) ++ beBytes 8 (8 * 120) ++ beBytes 8 (8 * 32)) ^^^
      maskBlock) = slice openEnvelope 260 16 := by decide +kernel
theorem key_decrypts :
    ((slice openEnvelope 228 32).zip (beBytes 16 stream1 ++ beBytes 16 stream2)).map (fun q => q.1 ^^^ q.2) = sessKey := by decide +kernel
theorem lengths : (slice openEnvelope 0 120).length = 120 ∧ (slice openEnvelope 228 32).length = 32 ∧
    beNat (fit 12 (slice openEnvelope 216 12)) * 2 ^ 32 + 1 = counter0 := by decide +kernel

theorem gcm_opens :
    gcmDecrypt kek (slice openEnvelope 216 12) (slice openEnvelope 0 120) (slice openEnvelope 228 32) (slice openEnvelope 260 16) = some sessKey := by
  have e (x : Nat) : (aesBlock kekRounds ((beBytes 16 x).map BitVec.toNat)).foldl (fun a d => a * 256 + d) 0 = cipher x := rfl
  have r : List.range ((32 + 15) / 16) = [0, 1] := rfl
  unfold gcmDecrypt
  simp only [kek_rounds, e, lengths, cipher_hashKey, cipher_maskBlock, tag_holds, r, if_true, List.flatMap_cons, List.flatMap_nil, List.append_nil,
    Nat.add_zero, cipher_stream1, cipher_stream2, key_decrypts]
theorem key_unwraps (s : State) (h : devKey s = some 5) : unwrapKey s openEnvelope = some sessKey := by
  obtain ⟨h1, h2⟩ := kek_derived
  obtain ⟨z, hz⟩ := Option.isSome_iff_exists.1 h2
  rw [hz] at h1
  unfold unwrapKey
  rw [h]; dsimp only; rw [hz]; dsimp only
  rw [show hkdfSha384 _ z _ 32 = kek from h1]
  exact gcm_opens
theorem open_checks_but_the_key :
    openFormat openEnvelope = true ∧ vaultUsable unopened = true ∧ slotActive unopened (rd openEnvelope 34 1) = true ∧
    sha384 (devPub unopened) = slice openEnvelope 72 48 ∧ leBytes 16 unopened.aut.chal.toNat = slice openEnvelope 40 16 ∧
    ecdsaVerify ((keySlot unopened (rd openEnvelope 34 1)).key.getD []) (slice openEnvelope 0 384) (slice openEnvelope 384 96) = true ∧
    ¬ (keySlot unopened (rd openEnvelope 34 1)).ceil < rd openEnvelope 35 1 ∧ rd openEnvelope 56 8 = 0 ∧ rd openEnvelope 64 8 = 0 ∧
    findSession unopened (eSid openEnvelope) = none ∧ sessionSlot unopened = some 0 ∧
    hmacSha256 sessKey (slice openEnvelope 0 480) = slice openEnvelope 480 32 := by decide +kernel
theorem opens_where_every_check_passes (s : State) (e : Staged) (i : Nat) (k : Bytes)
    (h1 : openFormat e.bytes = true) (h2 : vaultUsable s = true) (h3 : slotActive s (rd e.bytes 34 1) = true)
    (h4 : sha384 (devPub s) = slice e.bytes 72 48) (h5 : leBytes 16 s.aut.chal.toNat = slice e.bytes 40 16)
    (h6 : ecdsaVerify ((keySlot s (rd e.bytes 34 1)).key.getD []) (slice e.bytes 0 384) (slice e.bytes 384 96) = true)
    (h7 : ¬ (keySlot s (rd e.bytes 34 1)).ceil < rd e.bytes 35 1) (h8 : rd e.bytes 56 8 = 0) (h9 : rd e.bytes 64 8 = 0)
    (h10 : findSession s (eSid e.bytes) = none) (h11 : sessionSlot s = some i) (hk : unwrapKey s e.bytes = some k)
    (h12 : hmacSha256 k (slice e.bytes 0 480) = slice e.bytes 480 32) : openChecks s e = .inr (i, k) := by
  unfold openChecks
  simp [h1, h2, h3, h4, h5, h6, h7, h8, h9, h10, h11, hk, h12]
theorem witness_session_opens : openChecks unopened { ring := 0, slot := 0, bytes := openEnvelope } = .inr (0, sessKey) := by
  obtain ⟨h1, h2, h3, h4, h5, h6, h7, h8, h9, h10, h11, h12⟩ := open_checks_but_the_key
  exact opens_where_every_check_passes _ _ _ _ h1 h2 h3 h4 h5 h6 h7 h8 h9 h10 h11 (key_unwraps unopened (by decide +kernel)) h12

theorem witness_firmware_envelope :
    eKind coreEnvelope = 2 ∧ firmwareBody keyed 3 (keySlot keyed 0) coreEnvelope = 0 ∧ firmwareBody keyed 2 (keySlot keyed 0) coreEnvelope ≠ 0 ∧
    rd coreEnvelope 34 1 = 0 ∧ storeIsFull keyed = false ∧ (staged coreEnvelope keyed).hst.stage.head?.map (·.begun) = some none ∧
    ({ ring := 0, slot := 0, bytes := coreEnvelope, begun := some 0 } : Staged).begun = some 0 := by
  decide +kernel

/-- An install of the authority key in slot 1 is in progress. -/
def installing : State := { fresh with aut := { install := some { slot := 1, ceil := 3, key := adminKey } } }

theorem witness_KeyInstallsFillASlot :
    WriteOk fresh .host rAUT_AKEY_CMD 1 ∧ bit (1 : U32) 0 = true ∧ fresh.aut.install = none ∧ installing.aut.install ≠ none ∧
    bit (0 : U32) 0 = false ∧ WriteOk fresh .host rAUT_AKEY_CMD 0 ∧
    installErr { installing with std := { vault := 2 } } { slot := 1, ceil := 3, key := adminKey } true ≠ 0 ∧
    installErr installing { slot := 1, ceil := 3, key := adminKey } false = 5 ∧ p384On (keyPoint adminKey) = true ∧ installing.std.vault = 0 ∧
    slotState (keySlot installing 1) = 0 ∧ slotState { key := some [], gen := 0, revCnt := 1 } = 2 ∧ tampActive installing = false ∧
    (tget {} (sess { notAfter := some 60 } keyed).aut.sess 0).used = true ∧ (60 : Nat) + 1 < 2 ^ 48 := by
  simp only [writeOk_iff]; decide +kernel

theorem test_akey_commit :
    after (.akeyCommitWrite .host 1) (withRegs fresh [(rAUT_AKEY_SEL, 0x31), (rAUT_AKEY_DATA 0, 0x04030201)])
      (fun t => t.aut.install.map (fun k => (k.slot, k.ceil, k.key.take 4))) = some (some (1, 3, [1, 2, 3, 4])) := by decide +kernel
theorem test_key_install :
    after (.keyInstallComplete true) installing (fun t => (slotState (keySlot t 1), (keySlot t 1).ceil, t.std.vault)) = some (1, 3, 1) := by
  decide +kernel
theorem test_session_expires :
    after (.sessionExpire 0) (sess { notAfter := some 60 } keyed) (fun t => ((tget {} t.aut.sess 0).expired, t.std.rtcSec)) = some (true, 61) := by
  decide +kernel

/-- An enabled input 1, active at a high level. -/
def guarded (s : State) : State := { s with std := { s.std with tampCfg := 0x0A } }

theorem witness_TamperEndsEverySession :
    bit fresh.std.tampCfg 0 = false ∧ bit (guarded keyed).std.tampCfg 1 = true ∧ (2 : BitVec 2).getLsbD 1 = bit (guarded keyed).std.tampCfg 3 ∧
    (0 : BitVec 2).getLsbD 1 ≠ bit (guarded keyed).std.tampCfg 3 ∧ keyed.std.latch1 = false ∧ keyed.std.latch0 = false ∧
    ({ latch1 := true } : Std).latch1 = true ∧
    keyed.sys.por = false ∧ { keyed with sys := { por := true } }.sys.por = true := by decide +kernel

theorem test_tamper :
    after (.tamperLatch 1 2) (guarded keyed)
      (fun t => (t.std.keyProt, t.std.latch1, t.std.vault, t.aut.sess.length, t.std.tampCnt)) = some (List.replicate 256 0, true, 3, 0, 1) := by
  decide +kernel
/-- R106: an input that is latched does not latch again. -/
theorem test_tamper_once :
    after (.tamperLatch 1 2) { guarded keyed with std := { (guarded keyed).std with latch1 := true } } (fun t => (t.std.tampCnt, t.std.vault)) =
      some (0, 1) := by decide +kernel
theorem test_vault_fails : after .vaultIntegrityFail keyed (fun t => (t.std.vault, t.aut.sess.length)) = some (4, 0) := by decide +kernel
theorem test_vbat_loss :
    after .vbatLoss { keyed with sys := { por := true }, std := { keyed.std with rtcValid := true } }
      (fun t => (t.std.keyProt, t.std.rtcValid)) = some (List.replicate 256 0, false) := by decide +kernel

/-! ### The command set -/

/-- Frames run with the window closed; arm 0 maps cells 0 to 3 to group 0 and needs one, all four reported live sixteen times in a row;
loop 5 runs, a time step waits, the Snare dump fits and no effect is pending. -/
def mapped : State :=
  { withRegs framed [(rSNR_DUMP_LEN, 16777280)] with
    sys := { framed.sys with setupDone := true }
    cmd := { arms := [(0, { group := 0, nNeed := 1, ranges := [(0, 4)] })] }
    grn := { commit := { k := 9, cells := (List.range 4).map (fun c => (c, { report := 0, streak := 16 })) } }
    lpe := { loops := [(5, { enabled := true })] }
    tim := { stepPend := some 5000 } }

/-- What the checks of a command with an effect epoch answer: none for one that waits, else the STATUS of its refusal. -/
def answer (s : State) (x : CmdSrc) (op : Nat) (p : Bytes) : Option Nat :=
  let u := flowEnter (cmdIdOf x s) op { s with cmd := { s.cmd with ord := s.cmd.ord + 1 } }
  match parsePayload op p with
  | none => some stBadPayload
  | some pl =>
    match epochOf u op pl x.epochReq.toNat with
    | .inl st => some st
    | .inr _ => if 256 ≤ entries u then some stQueueFull else match stateCheck u op pl with
      | .refuse st => some st
      | .noChange => some stNoChange
      | .go => none

/-- Group 0 runs in carrier mode. -/
def carried_ : State := { mapped with cmd := { mapped.cmd with groups := [(0, { carrier := true })] } }

/-- Cell 2 is retired since epoch 5. -/
def retired2 : State := { mapped with cmd := { mapped.cmd with cells := [(2, [{ e := 5, on := true }])] } }

/-- Ring 0 is in DRAIN. -/
def draining : State := { mapped with fur := { rings := [(0, { st := 6, retrain := true })] } }

/-- 256 entries are taken. -/
def fullQueue : State :=
  { mapped with cmd := { mapped.cmd with pend := (List.range 256).map (fun i => { id := { ord := i }, op := 0x0306, epoch := 500, payload := .cal 0 0 0 }) } }

/-- Every opcode with an effect epoch has a payload that waits, and each refusal of R113, R114, R119 and R121 is met. -/
theorem witness_TimedCommandsWaitForTheirEpoch :
    mapped.cmd.flowQ = [] ∧
    answer mapped src 0x0103 [1, 0, 1, 0, 0, 0, 0, 0, 16, 0, 0, 0] = none ∧
    answer mapped src 0x0104 ([1, 4, 0, 0, 1, 0, 0, 0] ++ List.replicate 16 0) = none ∧
    answer mapped src 0x0201 [1, 0, 0, 0, 5, 0, 0, 0, 0, 0, 0x80, 0x3F] = none ∧
    answer mapped src 0x0203 [1, 0, 0, 0] = none ∧
    answer mapped src 0x0204 ([0, 1, 0, 0] ++ [1] ++ List.replicate 31 0) = none ∧
    answer mapped src 0x0301 [1, 0, 0, 0, 2, 0] = none ∧
    answer retired2 src 0x0302 [1, 0, 0, 0, 2, 0] = none ∧
    answer mapped src 0x0303 [1, 1, 1, 0, 1, 0, 0, 0, 0, 1, 4, 0] = none ∧
    answer mapped src 0x0304 [0, 1, 0, 0, 0, 0, 0, 0, 0, 0, 0x80, 0x3F] = none ∧
    answer carried_ src 0x0305 [0, 8, 1, 0, 0, 0, 0, 0, 0, 0, 0, 0] = none ∧
    answer mapped src 0x0306 [3, 0, 0, 0, 0, 0, 0x80, 0x3F, 0, 0, 0, 0] = none ∧
    answer mapped src 0x0307 [0, 2, 0, 0] = none ∧ (ring mapped 0).st = 0 ∧
    answer draining src 0x0307 [0, 1, 0, 0] = none ∧ (ring draining 0).st = 6 ∧
    answer mapped src 0x0308 ([0x88, 0x13] ++ List.replicate 6 0 ++ [1, 0, 0, 0]) = none ∧
    answer mapped src 0x0306 [] = some stBadPayload ∧
    answer mapped { src with epochReq := 3 } 0x0203 [1, 0, 0, 0] = some stEpochPast ∧
    answer mapped { src with epochReq := 0x2000000 } 0x0203 [1, 0, 0, 0] = some stEpochFar ∧
    answer mapped { src with epochReq := 41 } 0x0306 [3, 0, 0, 0, 0, 0, 0x80, 0x3F, 0, 0, 0, 0] = some stEpochAlign ∧
    answer fullQueue src 0x0306 [3, 0, 0, 0, 0, 0, 0x80, 0x3F, 0, 0, 0, 0] = some stQueueFull ∧
    answer mapped src 0x0302 [1, 0, 0, 0, 2, 0] = some stCellState := by decide +kernel

/-- R112: at tick 8100 the first frame whose Harrow start has not passed is frame 11, and with LA 4 a class C command takes epoch 15. -/
theorem test_deblock_epoch : after (.deblock src [1, 0, 0, 0]) mapped (fun t => t.cmd.pend.map (fun e => (e.op, e.epoch))) = some [(0x0203, 15)] := by
  decide +kernel
/-- R112: class P takes the next control period of 4 epochs, class F the next epoch whose Harrow start has not passed. -/
theorem test_class_p_epoch :
    after (.calSet src [3, 0, 0, 0, 0, 0, 0x80, 0x3F, 0, 0, 0, 0]) mapped (fun t => t.cmd.pend.map (·.epoch)) = some [12] := by decide +kernel
theorem test_class_f_epoch : after (.ringCtl src [0, 2, 0, 0]) mapped (fun t => t.cmd.pend.map (·.epoch)) = some [11] := by decide +kernel
/-- R207: a RING_CTL that enables a ring in OFF starts training at its acceptance. -/
theorem test_ring_ctl_trains : after (.ringCtl src [0, 2, 0, 0]) mapped (fun t => (ring t 0).st) = some 1 := by decide +kernel
/-- R220: a DISABLE that finds its ring in DRAIN keeps it from training again. -/
theorem test_ring_ctl_drains : after (.ringCtl src [0, 1, 0, 0]) draining (fun t => ((ring t 0).st, (ring t 0).retrain)) = some (6, false) := by
  decide +kernel
theorem test_deblock_refused : after (.deblock { src with epochReq := 14 } [1, 0, 0, 0]) mapped (fun t => t.hst.cplDue.map (·.status)) =
    some [BitVec.ofNat 16 stEpochPast] := by decide +kernel
theorem test_set_point_waits :
    after (.setpoint src [1, 0, 0, 0, 5, 0, 0, 0, 0, 0, 0x80, 0x3F]) mapped (fun t => t.cmd.pend.map (·.payload)) =
      some [.setpoint [(5, 0x3F800000)]] := by decide +kernel

/-- Group 0 is deblocked since epoch 6. -/
def handed : State := { mapped with cmd := { mapped.cmd with groups := [(0, { line := [{ e := 6, j := 2, on := false }] })] } }

theorem witness_BlockAndRetireDecideAtOnce :
    parsePayload 0x0202 [1, 0, 0, 0] = some (.groupMask 1) ∧ answer handed src 0x0202 [1, 0, 0, 0] = none ∧
    parsePayload 0x0301 [1, 0, 0, 0, 2, 0] = some (.cells [2]) ∧ answer mapped src 0x0301 [1, 0, 0, 0, 2, 0] = none ∧
    parsePayload 0x0302 [1, 0, 0, 0, 2, 0] = some (.cells [2]) ∧ answer retired2 src 0x0302 [1, 0, 0, 0, 2, 0] = none := by decide +kernel

/-- R127: the first boundary from tick 8132 on is that of frame 11, and the block takes effect LA = 4 frames later. -/
theorem test_block :
    after (.block src [1, 0, 0, 0]) handed (fun t => (group t 0).line.getLast?) = some (some { e := 15, j := 11, on := true }) := by decide +kernel
theorem test_retire : after (.cellRetire src [1, 0, 0, 0, 2, 0]) mapped (fun t => (cellTurns t 2, cellTurns t 1)) =
    some ([{ e := 15, on := true }], []) := by
  decide +kernel

theorem witness_ImmediateCommandsActAtTheirCommit :
    mapped.cmd.flowQ = [] ∧ 100 ≤ rd [100, 0, 0, 0] 0 4 ∧ rd [100, 0, 0, 0] 0 4 ≤ 1000000000 ∧
    parsePayload 0x0401 ([1, 3, 0, 0] ++ adminKey) = some (.key 1 3 adminKey) ∧ slotState (keySlot keyed 1) = 0 ∧ p384On (keyPoint adminKey) = true ∧
    parsePayload 0x0402 [1, 0, 0, 0] = some (.slot 1) ∧ slotState { key := some adminKey } = 1 ∧
    lastAdmin { keyed with std := { keyed.std with slots := [(0, { key := some adminKey, ceil := 3 }), (1, { key := some adminKey, ceil := 1 })] } } 1 =
      false ∧
    parsePayload 0x0403 ([0, 3, 0, 0] ++ adminKey) = some (.key 0 3 adminKey) ∧ slotState (keySlot keyed 0) = 1 ∧ (keySlot keyed 0).revCnt ≠ 15 ∧
    convBlocked keyed = true ∧ parsePayload 0x0406 [7, 0, 0, 0] = some (.session 7) ∧ (findSession keyed 7).map (·.1) = some 0 ∧
    sessExpired keyed { used := true, id := 7, key := sessKey, priv := 3 } = false ∧ keyed.cmd.fw = none := by decide +kernel

theorem test_nop : after (.nop src []) mapped (fun t => t.hst.cplDue.map (fun c => (c.status, c.result, c.epoch))) = some [(0, 10, 0)] := by
  decide +kernel
theorem test_time_cfg : after (.timeCfg src [100, 0, 0, 0]) mapped (fun t => rg t rTIM_STEP_THR) = some 100 := by decide +kernel
theorem test_session_kill : after (.sessionKill src [7, 0, 0, 0]) keyed (fun t => (tget {} t.aut.sess 0).used) = some false := by decide +kernel
theorem test_akey_replace :
    after (.akeyReplace src ([0, 3, 0, 0] ++ adminKey)) keyed (fun t => ((keySlot t 0).revCnt, (keySlot t 0).gen, t.aut.sess)) = some (1, 1, []) := by
  decide +kernel
theorem test_last_admin_key : after (.akeyRevoke src [0, 0, 0, 0]) keyed (fun t => (t.hst.cplDue.map (·.status), (keySlot t 0).revCnt)) =
    some ([BitVec.ofNat 16 stLastAdminKey], 0) := by decide +kernel
theorem test_session_close : after (.sessionClose src []) keyed (fun t => t.hst.cplDue.map (·.closes)) = some [some 7] := by decide +kernel
theorem test_setup_reopen : after (.setupReopen src []) mapped (fun t => (t.sys.setupDone, t.sys.reopened)) = some (false, true) := by
  decide +kernel
/-- R144, R538: the core bank A runs, so bank B takes the update and is invalid first. -/
theorem test_fw_update_marks_bank :
    after (.fwUpdate src coreEnvelope) (setBank 1 { mark := 0x5A5AA5A5 } bootable) (fun t => ((bank t 0).mark, (bank t 1).mark)) =
      some (0x5A5AA5A5, 0xFFFFFFFF) := by decide +kernel

/-- An effect of this opcode and payload is due. -/
def dueEff (op : Nat) (pl : Payload) : State :=
  { mapped with cmd := { mapped.cmd with pend := [{ id := { ord := 4, flow := 1 }, op := op, epoch := 10, payload := pl }],
                                         flowQ := [{ ord := 4, flow := 1 }] } }

/-- An update of the bank core B waits for its image. -/
def updating : State := { bootable with cmd := { fw := some ({ ord := 4, flow := 1 }, coreEnvelope), flowQ := [{ ord := 4, flow := 1 }] } }

/-- The oldest item of flow 1 is done with this disposition. -/
def itemDone (d : Nat) : State :=
  { mapped with tsk := { items := [(2, { used := true, id := { ord := 4, flow := 1 }, op := 0x0306, owner := some 0,
                                         done := some (d, if d = 1 then 0x10F else 0x200, 0) })] } }

theorem witness_EffectsComeIntoForceAndComplete :
    mapped.sys.running = true ∧ (10 : Nat) ≤ epochNow mapped ∧
    ([(5, 0x3F800000), (6, 0)] : List (Nat × U32)).map (·.1) = [5, 6] ∧ [5, 6].Nodup ∧ (3 : Nat) < 32 ∧
    sha384 (fit (rd coreEnvelope 36 4) [0x13, 0, 0, 0]) = slice coreEnvelope 56 48 ∧
    sha384 (fit (rd coreEnvelope 36 4) [0x14, 0, 0, 0]) ≠ slice coreEnvelope 56 48 ∧
    (itemDone 1).tsk.items.find? (fun q => q.2.used && q.2.id.flow == 1 && q.2.arr == (flow (itemDone 1) 1).oldest) =
      some (2, { used := true, id := { ord := 4, flow := 1 }, op := 0x0306, owner := some 0, done := some (1, 0x10F, 0) }) ∧
    (itemDone 2).tsk.items.find? (fun q => q.2.used && q.2.id.flow == 1 && q.2.arr == (flow (itemDone 2) 1).oldest) =
      some (2, { used := true, id := { ord := 4, flow := 1 }, op := 0x0306, owner := some 0, done := some (2, 0x200, 0) }) := by decide +kernel

theorem test_set_point_applies :
    after .effectApply (dueEff 0x0201 (.setpoint [(5, 0x3F800000), (6, 2)])) (fun t => (rg t (rLPE_LOOP_SP 5), rg t (rLPE_LOOP_SP 6), t.cmd.pend)) =
      some (0x3F800000, 2, []) := by decide +kernel
theorem test_calibration_applies :
    after .effectApply (dueEff 0x0306 (.cal 3 0x3F000000 0x40000000)) (fun t => (rg t (rAFE_CH_GAIN 3), t.hst.cplDue.map (·.epoch))) =
      some (0x3F000000, [10]) := by decide +kernel
theorem test_firmware_complete :
    after (.fwUpdateComplete (some [0x13, 0, 0, 0]) true) updating (fun t => (t.hst.cplDue.map (·.status), t.cmd.fw)) = some ([0], none) := by
  decide +kernel
theorem test_firmware_hash :
    after (.fwUpdateComplete (some [0x14, 0, 0, 0]) true) updating (fun t => t.hst.cplDue.map (·.status)) = some [BitVec.ofNat 16 stFwHash] := by
  decide +kernel
theorem test_item_refused :
    after (.itemRelease 1 false) (itemDone 1) (fun t => (t.hst.cplDue.map (fun c => (c.cls, c.status)), t.tsk.items)) =
      some ([(cRefused, 0x10F)], []) := by decide +kernel
theorem test_item_ecc :
    after (.itemRelease 1 true) (itemDone 1) (fun t => (t.hst.cplDue.map (·.status), (flow t 1).oldest)) = some ([BitVec.ofNat 16 stInternal], 1) := by
  decide +kernel

/-! ### The debug port -/

/-- An unlock block for LEVEL 2 is written and its check runs. -/
def checking : State := { keyed with dbg := { keyed.dbg with busy := true, ublk := unlockWords, usig := unlockSigWords } }

theorem witness_unlock_granted : checking.dbg.busy = true ∧ unlockGranted checking = true := by decide +kernel

theorem witness_DebugUnlocksAreGrantedAndEnd :
    dpWritable 0 0x40 = false ∧ dpWritable 0 0x38 = true ∧ dpWritable 1 0x40 = false ∧ dpWritable 2 0x60 = true ∧ keyed.dbg.busy = false ∧
    { keyed with dbg := { busy := true } }.dbg.busy = true ∧ unlockGranted { keyed with dbg := { busy := true } } = false ∧
    (8 : Nat) ≤ 7 + 1 ∧ ({ level := 2, notAfter := some 9 } : Dbg).notAfter = some 9 ∧ (9 : Nat) + 1 < 2 ^ 48 ∧ fresh.dbg.notAfter = none := by decide +kernel

theorem test_unlock_takes_level : after .dpUnlockDone checking (fun t => (t.dbg.level, t.dbg.fails, t.dbg.busy)) = some (2, 0, false) := by
  decide +kernel
theorem test_eighth_failure_locks_out :
    after .dpUnlockDone { keyed with dbg := { busy := true, fails := 7 } } (fun t => (t.dbg.lockout, t.dbg.fails, t.dbg.level)) = some (true, 8, 0) := by
  decide +kernel
theorem test_halt_needs_level_2 : after (.dpHalt 1) keyed (fun t => (t.dbg.ack, (Machine.core t 0).halted)) = some (4, false) := by decide +kernel
theorem test_go_locked_out :
    after .dpUnlockGo { keyed with dbg := { lockout := true } } (fun t => (t.dbg.busy, t.dbg.ack)) = some (false, 1) := by decide +kernel
theorem test_parity : after .dpParityError keyed (fun t => (t.dbg.perr, t.dbg.ack)) = some (true, 0) := by decide +kernel
theorem test_dbg_en_low :
    after .dbgEnLow { halted0 with dbg := { level := 2, fails := 3 } } (fun t => (t.dbg.level, t.dbg.fails, (Machine.core t 0).halted)) =
      some (0, 3, false) := by decide +kernel
theorem test_unlock_expires :
    after .dpUnlockExpire { fresh with dbg := { level := 2, notAfter := some 9 } } (fun t => (t.dbg.level, t.std.rtcSec)) = some (0, 10) := by
  decide +kernel
theorem test_relock : after .dpRelock { fresh with dbg := { level := 1 } } (fun t => (t.dbg.level, t.dbg.ack)) = some (0, 1) := by decide +kernel

/-- The port is unlocked at LEVEL 2, core 0 is halted with 42 in register 5; breakpoint 1 of core 1 is at 0x40000010, watchpoint 0 of core 1
watches stores to the 16 bytes at 0x10000000. -/
def debugging : State :=
  { fresh with cores := [(0, { halted := true, gpr := [(5, 42)] })], mem := [(0x20000001, 0xAB)]
               dbg := { level := 2, memAddr := 0x20000000, bp := [(5, 0x40000011)], wpAddr := [(2, 0x10000000)], wpCfg := [(2, 0x184)] } }

theorem witness_DebugPortDrivesTheCores :
    debugging.dbg.level = 2 ∧ debugging.dbg.busy = false ∧ (Machine.core debugging (coreSel debugging)).halted = true ∧
    (bit debugging.dbg.ctl 4 && irqTaken debugging (coreSel debugging)) = false ∧ regSelOk 5 = true ∧ regSelOk 0x41 = false ∧
    (Machine.core { debugging with cores := [] } 0).halted = false ∧ bit ({ regSel := 5 } : Dbg).regSel 12 = false ∧
    0 < fld ({ regSel := 5 } : Dbg).regSel 11 0 ∧ fld ({ regSel := 5 } : Dbg).regSel 11 0 < 32 ∧
    bit (bpWord debugging 1 1) 0 = true ∧ (Machine.core debugging 1).halted = false ∧ bit (tget 0 debugging.dbg.bpctl 1) 1 = false ∧
    bpAt debugging 1 0x40000014 = none ∧ wpMatches debugging 1 0 0x1000000F true = true ∧ wpMatches debugging 1 0 0x10000010 true = false ∧
    wpMatches debugging 1 0 0x10000000 false = false ∧ bit (tget 0 debugging.dbg.wpCfg 2) 9 = false ∧ fresh.dbg.level < 1 ∧
    regionOf 0x30000000 = none ∧ regionOf 0x20000000 = some .tcm := by decide +kernel

theorem test_halt : after (.dpHalt 6) debugging (fun t => (List.range 4).map (fun c => (Machine.core t c).halted)) = some [true, true, true, false] := by
  decide +kernel
theorem test_resume : after (.dpResume 1) debugging (fun t => (Machine.core t 0).halted) = some false := by decide +kernel
theorem test_step_one :
    after (.dpStep 0x104 (some (6, 7))) debugging (fun t => ((Machine.core t 0).pc, tget 0 (Machine.core t 0).gpr 6, tget 0 (Machine.core t 0).gpr 5)) =
      some (0x104, 7, 42) := by decide +kernel
theorem test_reg_sel : after (.dpRegSelWrite 5) debugging (fun t => (t.dbg.regLo, t.dbg.ack)) = some (42, 1) := by decide +kernel
theorem test_reg_hi :
    after (.dpRegHiWrite 1) { debugging with dbg := { debugging.dbg with regSel := 6, regLo := 2 } } (fun t => tget 0 (Machine.core t 0).gpr 6) =
      some 0x100000002 := by decide +kernel
theorem test_freeze : after (.dpFreezeWrite 1) debugging (fun t => t.hrw.frozen) = some true := by decide +kernel
theorem test_breakpoint : after (.breakpointHit 1 1) debugging (fun t => ((Machine.core t 1).pc, (Machine.core t 1).halted)) =
    some (0x40000010, true) := by decide +kernel
theorem test_watchpoint : after (.watchpointHit 1 0 0x40000014 0x1000000F true) debugging (fun t => ((Machine.core t 1).pc, (Machine.core t 1).halted)) =
    some (0x40000014, true) := by decide +kernel
theorem test_memory_read : after (.dpMemDataAccess false 0) debugging (fun t => (t.rdata, t.dbg.ack)) = some (0xAB00, 1) := by decide +kernel
theorem test_memory_write :
    after (.dpMemDataAccess true 0x04030201) debugging (fun t => readBytes t.mem 0x1FFFFFFF 6) = some [0, 1, 2, 3, 4, 0] := by decide +kernel

/-! ### The interrupt controller -/

/-- Source 96 (EN, PRIO 5, MOD 2, core 3) has counted twice; the TSK source of core 1 is enabled with PRIO 1. -/
def pending96 : State :=
  { withRegs fresh [(rINT_SRC_CFG 32, 0x00020315), (rINT_PRV_CFG 1 2, 0x11), (rINT_PRV_CFG 1 20, 0x11), (rINT_PRV_CFG 1 0, 0x11), (rINT_SRC_CFG 448, 0x11)]
    with ints := [(96, { cnt := 2 })] }

/-- The deadline source of core 3 is enabled and latched though its input has gone. -/
def latched3 : State := { withRegs fresh [(rINT_PRV_CFG 3 1, 0x11)] with cores := [(3, { latched := some (prvKey 3 1) })] }

/-- Core 3 has claimed source 96. -/
def claimed96 : State := { pending96 with ints := [(96, { active := true })], cores := [(3, { stack := [(96, 5)] })] }

theorem witness_ClaimsAndCompletionsFollowTheStack :
    presented fresh 0 = none ∧ latchedFor fresh 0 = none ∧ (Machine.core halted0 0).halted = true ∧ presented pending96 3 = some 96 ∧
    latchedFor pending96 3 = none ∧ latchedFor { pending96 with cores := [(3, { latched := some 96 })] } 3 = some 96 ∧
    (Machine.core claimed96 3).stack = [((96 : U64).toNat, 5)] ∧ ((Machine.core claimed96 3).stack.head?.map (·.1)) ≠ some (97 : U64).toNat ∧
    (intSrc { fresh with ints := [(96, { hold := some 9 })] } (keyOf 3 96)).hold = some 9 ∧ (intSrc fresh (keyOf 3 5)).hold = none ∧
    presented { pending96 with cores := [(3, { latched := some 100 })] } 3 = some 96 ∧ before pending96 96 100 = true ∧
    before pending96 100 96 = false ∧ presented latched3 3 = none ∧ latchedFor latched3 3 = some (prvKey 3 1) ∧
    srcLevel (prvKey 3 1) = true ∧ srcInput latched3 (prvKey 3 1) = false ∧ (Machine.core latched3 3).halted = false := by decide +kernel

/-- R417: ID, COUNT and PRIO of the claimed source; two events were counted. -/
theorem test_claim :
    after (.intClaim 3) pending96 (fun t => (t.rdata, (Machine.core t 3).stack, (intSrc t 96).cnt, (intSrc t 96).active)) =
      some (0x0000000500020060, [(96, 5)], 0, true) := by decide +kernel
/-- R417: a level source that was latched and whose input has gone is claimed, and counted as spurious. -/
theorem test_claim_spurious :
    after (.intClaim 3) latched3 (fun t => ((Machine.core t 3).stack, rg t rINT_SPUR_CNT)) = some ([(1, 1)], 1) := by decide +kernel
/-- R416: a source latched while it was enabled is not presented once its EN is cleared. -/
theorem test_claim_disabled :
    after (.intClaim 3) { fresh with cores := [(3, { latched := some (prvKey 3 1) })] } (fun t => (t.rdata, rg t rINT_SPUR_CNT)) =
      some (0x7FF, 0) := by decide +kernel
theorem test_claim_nothing : after (.intClaim 2) pending96 (fun t => t.rdata) = some 0x7FF := by decide +kernel
/-- R420: MOD 2 holds the source for 512 ticks. -/
theorem test_complete :
    after (.intComplete 3 96) claimed96 (fun t => ((Machine.core t 3).stack, (intSrc t 96).active, (intSrc t 96).hold)) = some ([], false, some 512) := by
  decide +kernel
theorem test_complete_out_of_order :
    after (.intComplete 3 97) claimed96 (fun t => (rg t rINT_OOO_CNT, rg t rINT_OOO_LAST, (Machine.core t 3).stack)) = some (1, 0x00603061, [(96, 5)]) := by
  decide +kernel
theorem test_hold_ends :
    after (.modHoldExpire 3 96) { fresh with ints := [(96, { hold := some 9 })] } (fun t => (t.tick, t.ints)) = some (9, []) := by decide +kernel

/-- Source 96 wakes the idle core 3, which takes the external interrupt or not; its mtvec is vectored. -/
def waking (mie : U64) : State :=
  { pending96 with cores := [(3, { idle := true, pc := 0x80, priv := 3, csr := [(0x300, 8), (0x304, mie), (0x305, 0x401)] })] }

theorem witness_EdgeEventsAreCounted :
    (16 ≤ (20 : U64).toNat ∧ (20 : U64).toNat ≤ 63) ∧ WriteOk pending96 (.core 1) rINT_SSET 512 ∧ 512 ≤ fld (512 : U32) 10 0 ∧
    WriteOk pending96 (.core 1) rINT_SSET 1088 ∧ 1087 < fld (1088 : U32) 10 0 ∧ WriteOk pending96 (.core 1) rINT_SWI 6 ∧
    srcLevel 96 = false ∧ srcLevel (prvKey 1 20) = false ∧ srcLevel 512 = false ∧ srcListed 96 = true ∧ srcEn pending96 96 = true ∧
    srcEn fresh 96 = false ∧ srcListed 100 = false ∧ srcListed (prvKey 1 20) = true ∧ srcEn pending96 (prvKey 1 20) = true ∧ srcEn pending96 512 = true ∧
    (intSrc pending96 96).cnt < 255 ∧ 255 ≤ (intSrc { pending96 with ints := [(96, { cnt := 255 })] } 96).cnt ∧
    (latchedFor latched3 3).isSome = true ∧
    (Machine.core (waking 0x800) 3).idle = true ∧ wakeCond (waking 0x800) 3 = true ∧ irqTaken (awake 3 (waking 0x800)) 3 = true ∧
    irqTaken (awake 3 (waking 0)) 3 = false ∧
    wakeCond pending96 3 = true ∧ wakeCond fresh 3 = false ∧ (Machine.core { fresh with cores := [(3, { idle := true, tskWake := true })] } 3).idle = true ∧
    wakeCond { fresh with cores := [(3, { idle := true, tskWake := true })] } 3 = true ∧ (Machine.core fresh 3).idle = false := by
  simp only [writeOk_iff]; decide +kernel

theorem test_source_event : after (.intSourceEvent 3 96) pending96 (fun t => (intSrc t 96).cnt) = some 3 := by decide +kernel
theorem test_source_saturates :
    after (.intSourceEvent 3 96) { pending96 with ints := [(96, { cnt := 255 })] } (fun t => ((intSrc t 96).cnt, (intSrc t 96).sat)) = some (255, true) := by
  decide +kernel
theorem test_gxlset : after (.gxlsetWrite 1 20) pending96 (fun t => (intSrc t (prvKey 1 20)).cnt) = some 1 := by decide +kernel
theorem test_sset : after (.intSsetWrite (.core 0) 512) pending96 (fun t => (intSrc t 512).cnt) = some 1 := by decide +kernel
theorem test_swi :
    after (.intSwiWrite (.core 0) 6) pending96 (fun t => ((intSrc t (prvKey 1 0)).cnt, (intSrc t (prvKey 2 0)).cnt)) = some (1, 0) := by decide +kernel
theorem test_timecmp : after (.gxtimecmpWrite 1 7) fresh (fun t => (Machine.core t 1).timecmp) = some 7 := by decide +kernel
theorem test_timer : after (.timerExpire 1) { fresh with cores := [(1, { timecmp := 7 })] } (fun t => t.tick) = some 7 := by decide +kernel
theorem test_wfi : after (.wfi 1) { fresh with cores := [(1, { deepCfg := true })] } (fun t => ((Machine.core t 1).idle, (Machine.core t 1).deep)) =
    some (true, true) := by decide +kernel
/-- R420: the hold of a source that the core would take ends. -/
theorem test_wfi_ends_holds :
    after (.wfi 3) { pending96 with ints := [(96, { hold := some 9 })] } (fun t => ((Machine.core t 3).idle, (intSrc t 96).hold)) =
      some (true, none) := by decide +kernel
theorem test_wake_takes_interrupt :
    after (.coreWake 3) (waking 0x800) (fun t => ((Machine.core t 3).idle, (Machine.core t 3).pc, tget 0 (Machine.core t 3).csr 0x341)) =
      some (false, 0x42C, 0x80) := by decide +kernel
theorem test_wake : after (.coreWake 3) { fresh with cores := [(3, { idle := true, tskWake := true })] } (fun t => (Machine.core t 3).idle) = some false := by
  decide +kernel

/-! ### The task scheduler -/

/-- Thread 7 runs on core 2 with a wake pending, thread 3 is ready, thread 5 is blocked, thread 6 is dead. -/
def threads : State :=
  { fresh with tsk := { tcbs := [(3, { st := 2, prio := 9, aff := 0xFFFF, token := 0x500000006 }), (5, { st := 1, prio := 4, aff := 0xFFFF }),
                                 (6, { st := 1, dead := true }), (7, { st := 3, prio := 4, aff := 0xFFFF, last := 2, wakePend := true })],
                        ready := [3], ports := [(2, { cur := some 7 })] } }

theorem tget_map_const {α : Type} (d v : α) (l : List Nat) (k : Nat) (h : k ∈ l) : tget d (l.map (fun i => (i, v))) k = v := by
  induction l with
  | nil => cases h
  | cons x xs ih =>
    simp only [List.map_cons, tget]
    split
    · rfl
    · next hx => exact ih ((List.mem_cons.1 h).resolve_left (Ne.symm hx))

theorem no_thread_free (n : Nat) :
    (List.range n).find? (fun i => (tcb { fresh with tsk := { tcbs := (List.range n).map (fun i => (i, { st := 1 })) } } i).st == 0) = none := by
  rw [List.find?_eq_none]
  intro i hi
  simp only [tcb]
  rw [tget_map_const _ _ _ _ hi]
  decide

/-- Every thread is taken. -/
theorem witness_no_thread_free : ∃ s : State, (List.range 4096).find? (fun i => (tcb s i).st == 0) = none := ⟨_, no_thread_free 4096⟩

theorem witness_ThreadOperationsFollowTheTable :
    (List.range 4096).find? (fun i => (tcb threads i).st == 0) = some 0 ∧ (tcb threads 5).st = 1 ∧ (tcb threads 3).st ≠ 1 ∧
    (tcb threads 6).dead = true ∧ (tcb threads 0).st = 0 ∧ (tcb threads 5).dead = false ∧ 2 ≤ (tcb threads 7).st ∧ (tcb threads 7).dead = false ∧
    (3 : U32).setWidth 16 ≠ (0 : U16) ∧ (0x10000 : U32).setWidth 16 = (0 : U16) ∧ (port threads 2).cur = some 7 ∧ (port threads 0).cur = none ∧
    dispatchPick fresh 0 = none ∧ dispatchPick threads 0 = some 3 ∧ (10 : Nat) < 11 := by decide +kernel

theorem test_alloc :
    after (.tskAlloc 1 5 6 7) threads (fun t => ((tcb t 0).st, (tcb t 0).prio, (tcb t 0).aff, (tcb t 0).token)) =
      some (1, 5, 0xFFFF, 0x700000006) := by decide +kernel
theorem test_free : after (.tskFree 1 5) threads (fun t => (tcb t 5).st) = some 0 := by decide +kernel
theorem test_free_bad_state : after (.tskFree 1 3) threads (fun t => ((tcb t 3).st, rg t rTSK_ERR_LAST)) = some (2, 0x3123) := by decide +kernel
theorem test_wake_thread : after (.tskWake 1 5) threads (fun t => (t.tsk.ready, (tcb t 5).st)) = some ([3, 5], 2) := by decide +kernel
theorem test_wake_dead : after (.tskWake 1 6) threads (fun t => (port t 1).resLo) = some 3 := by decide +kernel
/-- R430: a thread that blocks with a wake pending is ready again, and the core takes the ready thread of the higher PRIO. -/
theorem test_switch : after (.tskSwitch 2 1 none) threads (fun t => (t.tsk.ready, (port t 2).cur, (port t 2).resLo, (port t 2).resHi)) =
    some ([7], some 3, 0x00090030, 6) := by decide +kernel
/-- R441: a thread whose TCB met an uncorrectable error stays BLOCKED. -/
theorem test_switch_dead :
    after (.tskSwitch 2 0 none) { threads with tsk := { threads.tsk with tcbs := [(7, { st := 1, dead := true })], ready := [] } } (fun t => ((tcb t 7).st, t.tsk.ready)) =
      some (1, []) := by decide +kernel
theorem test_next : after (.tskNext 0 none) threads (fun t => ((port t 0).cur, t.tsk.ready)) = some (some 3, []) := by decide +kernel
theorem test_next_bad_tcb : after (.tskNext 0 (some 3)) threads (fun t => ((port t 0).cur, (tcb t 3).dead, (port t 0).resLo)) = some (none, true, 1) := by
  decide +kernel
theorem test_set_prio : after (.tskSetPrio 1 5 40) threads (fun t => (tcb t 5).prio) = some 40 := by decide +kernel
theorem test_set_aff : after (.tskSetAff 1 5 0x30003) threads (fun t => (tcb t 5).aff) = some 3 := by decide +kernel
theorem test_set_aff_empty : after (.tskSetAff 1 5 0x30000) threads (fun t => ((tcb t 5).aff, (port t 1).resLo)) = some (0xFFFF, 5) := by
  decide +kernel
theorem test_token_hi : after (.tskTokenHi 1 3) threads (fun t => (port t 1).resHi) = some 5 := by decide +kernel
theorem test_bad_op : after (.tskBadOp 1 11 5) threads (fun t => ((port t 1).resLo, rg t rTSK_ERR_CNT)) = some (7, 1) := by decide +kernel

/-- Cores 0 and 1 may take commands; two items wait, that of ring 0 verified later, and core 0 has taken a third. -/
def items : State :=
  { withRegs clocked [(rTSK_CFG, 0x00010003)] with
    tsk := { items := [(2, { used := true, id := { ring := 1, flow := 4, ord := 1 } }), (3, { used := true, id := { ring := 0, flow := 5, ord := 2 } }),
                       (4, { used := true, id := { ring := 0, flow := 6, ord := 3 }, owner := some 0, takenAt := 10 })] } }

theorem witness_ItemsAreTakenAndReleasedByTheirOwner :
    (∀ q ∈ fresh.tsk.items, takeable fresh 0 q.2 = false) ∧ (3, item items 3) ∈ items.tsk.items ∧ takeable items 0 (item items 3) = true ∧
    (∀ q ∈ items.tsk.items, takeable items 0 q.2 = true → q ≠ (3, item items 3) →
      (item items 3).id.ring < q.2.id.ring ∨ (item items 3).id.ring = q.2.id.ring ∧ (item items 3).id.ord < q.2.id.ord) ∧
    (item items 4).used = true ∧ (item items 4).owner = some 0 ∧ (item items 4).done = none ∧ (item items 4).timedOut = false ∧
    ({ used := true, owner := some 0, done := some (1, 0, 0) } : Item).done ≠ none ∧
    (item items 9).used = false ∧ 1024 ≤ (1024 : Fin 4096).val := by decide +kernel

theorem test_take : after (.tskTake 1) items (fun t => ((item t 3).owner, (item t 2).owner, (port t 1).resLo, (port t 1).resHi)) =
    some (some 1, none, 0x30, 5) := by decide +kernel
theorem test_release : after (.tskRelease 0 4 1 0x10F 9) items (fun t => ((item t 4).done, (port t 0).resLo)) = some (some (1, 0x10F, 9), 0) := by
  decide +kernel
/-- R438: a done item is BAD_STATE to its owner and NOT_OWNER to another core. -/
theorem test_release_done :
    ([0, 1].map fun c => after (.tskRelease c 4 1 0x10F 9) { items with tsk := { items.tsk with items := [(4, { used := true, owner := some 0, done := some (1, 0, 0) })] } }
      (fun t => (port t c).resLo)) = [some 3, some 6] := by decide +kernel
theorem test_release_not_owner : after (.tskRelease 1 4 1 0x10F 9) items (fun t => ((item t 4).done, (port t 1).resLo)) = some (none, 6) := by
  decide +kernel
/-- R437: REL_MAX of 1 µs is 312.5 ticks; the item was taken at tick 10. -/
theorem test_rel_timeout : after (.relTimeout 4) items (fun t => (t.tick, (item t 4).timedOut)) = some (323, true) := by decide +kernel

/-! ### Tally -/

/-- Counter 2 of core 1 interrupts at its wrap; counter 3 samples into the core's buffer, which wraps; both count executed instructions. -/
def tallied : State :=
  { withRegs clocked [(rINT_PRV_CFG 1 3, 0x11), (rTLY_HBUF_LEN, 0x1000)] with
    tly := { cores := [(1, { evt := [(2, 0xB00), (3, 0x700)], cnt := [(2, 7)], en := true, wrap := true, rld := 5 })] }
    hst := { linkUp := true } }

/-- The same with a full buffer. -/
def fullBuffer (wrap : Bool) : State :=
  { tallied with tly := { cores := [(1, { evt := [(3, 0x700)], en := true, wrap := wrap, buf := List.replicate 4096 (0, 0, 0, 0) })] } }

/-- The same with samples going to the host. -/
def hosted : State := { tallied with tly := { cores := [(1, { evt := [(3, 0x700)], en := true, host := true })] } }

theorem witness_CountersWrapAndSample :
    (Machine.core halted0 0).halted = true ∧ (Machine.core tallied 1).halted = false ∧ bit (tget 0 (tlyCore tallied 1).evt 2) 10 = false ∧
    bit (tget 0 (tlyCore tallied 1).evt 2) 11 = true ∧ bit (tget 0 (tlyCore tallied 1).evt 3) 10 = true ∧ bit (tget 0 (tlyCore tallied 1).evt 3) 11 = false ∧
    bit (tget 0 (tlyCore tallied 1).evt 0) 10 = false ∧ bit (tget 0 (tlyCore tallied 1).evt 0) 11 = false ∧ (tlyCore tallied 1).en = true ∧
    (tlyCore tallied 1).host = false ∧ (tlyCore tallied 1).buf.length = 0 ∧ (tlyCore hosted 1).host = true ∧ 0 < (rg hosted rTLY_HBUF_LEN).toNat ∧
    hosted.hst.linkUp = true ∧ (0xFF : U64).toNat < 0x100 ∧ (∀ k, k < 8 → tget 0 (tlyCore tallied 1).cnt k ≠ 0xFFFFFFFFFFFF) ∧ 0x100 ≤ (0x100 : U64).toNat ∧ WriteOk fresh .host (rTLY_DEV_CFG 3) 0x101 := by
  simp only [writeOk_iff]; decide +kernel
theorem witness_full_buffer (wrap : Bool) : 4096 ≤ (tlyCore (fullBuffer wrap) 1).buf.length ∧ (tlyCore (fullBuffer wrap) 1).wrap = wrap :=
  ⟨Nat.le_of_eq List.length_replicate.symm, rfl⟩

theorem test_counter_wraps :
    after (.counterWrap 1 2 0 0 true 0 0 false) tallied (fun t => (tget 0 (tlyCore t 1).cnt 2, (tlyCore t 1).ovf, (intSrc t (prvKey 1 3)).cnt)) =
      some (0, 4, 1) := by decide +kernel
theorem test_counter_samples :
    after (.counterWrap 1 3 0x104 0x200 true 2 9 false) tallied (fun t => ((tlyCore t 1).buf, tget 0 (tlyCore t 1).cnt 3, (tlyCore t 1).seqno)) =
      some ([(0x104, 0x200, 0, 0x0000000000095100)], 5, 1) := by decide +kernel
/-- R512: a load from the Granary port counts UNC_LOAD in machine mode, as counter 4 asks; the host's read counts nothing. -/
theorem test_uncached_load :
    ([Instr.granaryPortLoad 1 0x100000, .rcRead (.core 1) ⟨rCPU_ECC_CNT, by decide⟩ false, .rcRead .host ⟨rCPU_ECC_CNT, by decide⟩ false].map fun i =>
      after i { fresh with cores := [(1, { priv := 3 })], tly := { cores := [(1, { evt := [(4, 0x213), (5, 0x113)] })] } }
        (fun t => (tget 0 (tlyCore t 1).cnt 4, tget 0 (tlyCore t 1).cnt 5))) = [some (1, 0), some (1, 0), some (0, 0)] := by decide +kernel
theorem test_buffer_clear :
    after (.sampleBufferClear 1 1) (fullBuffer true) (fun t => ((tlyCore t 1).buf.length, (tlyCore t 1).en, (tlyCore t 1).wrap)) =
      some (0, true, false) := by decide +kernel
theorem test_ovf_clear :
    after (.gxtlyovfClear 1 4) { tallied with tly := { cores := [(1, { ovf := 5 })] } } (fun t => (tlyCore t 1).ovf) = some 1 := by decide +kernel
theorem test_device_counter :
    after (.tlyDevCfgWrite .host 3 0x146) { fresh with tly := { dev := [(3, 9)] } } (fun t => (rg t (rTLY_DEV_CFG 3), t.tly.dev)) = some (0x146, []) := by
  decide +kernel

/-! ### Snare -/

/-- Snare is armed on TRIG line 0, whose delay is 9 ticks; group 15 is recorded. -/
def armed : State :=
  { withRegs framed [(rSNR_TSEL 0, 0x00700000), (rSNR_TRIG_DLY 0, 9), (rSNR_POST_MS, 2)] with
    snr := { st := 1, groups := 0x8000, tval := 1, tmask := 1 }, hst := { linkUp := true } }

/-- Its queue is full. -/
def snareFull : State := { armed with snr := { armed.snr with queue := List.replicate 8192 { tick := 8000, id := 0, value := 0 } } }

/-- The device, at tick 8100, drives TRIG line 2 until tick `e`, or did so. -/
def driving (e : Nat) : State := { armed with snr := { armed.snr with toutLine := 2, toutEnd := e } }

theorem witness_SnareEvaluatesItsTrigger :
    armed.snr.lines.getLsbD 0 = false ∧ fresh.snr.st = 0 ∧ armed.snr.st = 1 ∧
    decide ((trigVec armed ^^^ armed.snr.tval) &&& armed.snr.tmask = 0) = false ∧
    decide ((trigVec { armed with snr := { armed.snr with tval := 0 } } ^^^ 0) &&& armed.snr.tmask = 0) = true ∧
    2 ≤ { armed with snr := { armed.snr with tval := 0, st := 2 } }.snr.st ∧ bit (rg armed rSNR_CFG) 0 = false ∧ armed.snr.matched = false ∧
    WriteOk armed (.core 1) rSNR_SW 0x00070003 ∧ bit armed.snr.groups 15 = true ∧ armed.snr.armTick ≤ now armed ∧
    armed.snr.queue.length < snrQueueCap ∧ fresh.snr.tout = none ∧ ({ tout := some 70 } : Snr).tout = some 70 ∧
    trigMasked 0 armed = false ∧ trigMasked 2 (driving 8164) = true ∧ trigMasked 2 (driving 8165) = false ∧
    trigMasked 2 (driving 8085) = true ∧ trigMasked 2 (driving 8084) = false ∧ trigMasked 1 (driving 8164) = false ∧
    trigMasked 3 { armed with snr := { armed.snr with lines := 8 } } = false ∧ (8 : BitVec 4).getLsbD 3 = true := by
  simp only [writeOk_iff]; decide +kernel
theorem witness_snare_full : snrQueueCap ≤ snareFull.snr.queue.length := Nat.le_of_eq List.length_replicate.symm

/-- R469, and the example of the chapter: the delay of the line sets TRIG_TICK back. -/
theorem test_trig_line :
    after (.trigLineAssert 0) armed (fun t => (t.snr.st, t.snr.trigTick, t.snr.bus, rg t (rSNR_TRIG_LAST 0))) = some (2, 8091, true, 8100) := by
  decide +kernel
theorem test_trig_release :
    after (.trigLineRelease 0) { armed with snr := { armed.snr with st := 0, lines := 1 } } (fun t => t.snr.lines) = some 0 := by decide +kernel
/-- R560: the line that the device drives is not heard, and a line that is low already records no second edge. -/
theorem test_trig_own_line : after (.trigLineAssert 2) (driving 8150) (fun t => (t.snr.lines, rg t (rSNR_TRIG_LAST 2))) = some (0, 0) := by
  decide +kernel
theorem test_trig_second_edge :
    after (.trigLineAssert 0) { armed with snr := { armed.snr with lines := 1 } } (fun t => (t.snr.st, rg t (rSNR_TRIG_LAST 0))) = some (1, 0) := by
  decide +kernel
theorem test_software_record :
    after (.snrSwWrite (.core 1) 0x00070003) armed (fun t => t.snr.queue) = some [{ tick := 8100, id := 0x780003, value := 7 }] := by decide +kernel
theorem test_trig_out : after .trigOutRelease { armed with snr := { st := 2, tout := some 8170 } } (fun t => (t.tick, t.snr.tout)) =
    some (8170, none) := by decide +kernel

/-- Snare holds one record, and one waits behind `n` lost ones; it triggered at tick 8000. -/
def acquiring (st n : Nat) : State :=
  { armed with snr := { armed.snr with st := st, triggered := true, trigTick := 8000, lostN := n, recs := [{ tick := 7000, id := 5, value := 1 }],
                                       queue := [{ tick := 8050, id := 6, value := 2 }] } }

/-- The same with a publication in flight, which goes before the dump. -/
def busyLink (st : Nat) : State := { acquiring st 0 with grn := { pubs := [{ region := 0, epoch := 9, first := 0, count := 1, addr := 0, len := 64, desc := 0, img := {} }] } }

theorem witness_SnareRecordsAreStoredAndDumped :
    armed.snr.queue = [] ∧ (acquiring 1 0).snr.queue = [{ tick := 8050, id := 6, value := 2 }] ∧ (acquiring 1 0).snr.recs.length + 1 < snrCap ∧
    (8000 : Nat) ≤ 8050 ∧ 0 + 1 < (16 - 0) * snrSixteenth ∧ (16 - 0) * snrSixteenth ≤ 2097151 + 1 ∧ (acquiring 2 0).hst.linkUp = true ∧
    linkBusy (acquiring 2 0) = false ∧ linkBusy (busyLink 2) = true ∧ linkBusy (busyLink 3) = true ∧ (busyLink 3).snr.st = 3 ∧
    (busyLink 2).snr.queue = [{ tick := 8050, id := 6, value := 2 }] ∧ (busyLink 2).hst.linkUp = true ∧ fld (rg (acquiring 2 0) rSNR_POST_MS) 15 0 ≠ 0 ∧ (acquiring 2 0).snr.triggered = true ∧
    (∀ r ∈ ([{ tick := 700000, id := 6, value := 2 }] : List SnrRec).head?, 8000 + fld (rg (acquiring 2 0) rSNR_POST_MS) 15 0 * 312500 ≤ r.tick) ∧
    (acquiring 3 0).snr.st = 3 ∧ (acquiring 4 0).snr.st = 4 := by decide +kernel
theorem witness_snare_store_full : ∃ s : State, s.snr.st = 1 ∧ snrCap ≤ s.snr.recs.length :=
  ⟨{ armed with snr := { armed.snr with recs := List.replicate snrCap { tick := 0, id := 0, value := 0 } } }, rfl, Nat.le_of_eq List.length_replicate.symm⟩

/-- R466: a DROP marker with the number lost goes ahead of the record. -/
theorem test_record_write :
    after .snareRecordWrite (acquiring 1 3) (fun t => (t.snr.recs.map (fun r => (r.tick, r.id, r.value)), t.snr.lostN)) =
      some ([(7000, 5, 1), (8050, 0xFFFFFE, 3), (8050, 6, 2)], 0) := by decide +kernel
theorem test_gap :
    after .snareGap { acquiring 1 0 with snr := { (acquiring 1 0).snr with queue := [], lastTick := 7000 } } (fun t => (t.tick, t.snr.lastTick)) =
      some (0x1001B57, 0x1001B57) := by decide +kernel
/-- R66, R477: a dump that cannot begin yields once and waits. -/
theorem test_dump_waits : after (.snareDumpDone []) (busyLink 3) (fun t => (t.snr.st, t.snr.waited, rg t (rSYS_YIELD_CNT 6), t.dma)) =
    some (3, true, 1, []) := by decide +kernel
/-- R473: POST_MS of 2 ms is 625,000 ticks. -/
theorem test_post_end : after .snarePostEnd (acquiring 2 0) (fun t => (t.tick, t.snr.st, t.snr.acq, t.dma.map (fun w => w.bytes))) =
    some (633000, 3, 1, [List.replicate 8 0xFF]) := by decide +kernel
/-- R473: the record that waits from before the limit is stored; PRE is 0, so the pre-history goes. -/
theorem test_post_end_stores : after .snarePostEnd (acquiring 2 0) (fun t => (t.snr.queue.length, t.snr.recs.map (·.id))) = some (0, [6]) := by decide +kernel
theorem test_dump_done : after (.snareDumpDone []) (acquiring 3 0) (fun t => (t.snr.st, t.dma.map (fun w => (w.addr, w.bytes.length)))) =
    some (0, [(8, 64), (0, 8)]) := by decide +kernel
theorem test_rearm_end : after .snareRearmEnd { acquiring 4 0 with snr := { (acquiring 4 0).snr with rearmAt := 9000 } } (fun t => (t.tick, t.snr.st, t.snr.recs)) =
    some (9000, 1, []) := by decide +kernel

/-! ### Tocsin -/

/-- The two reports of the chapter's example: a Clapper trip of input 2, and a fault of cell 0x0590, in one cycle. -/
def reported : State :=
  { mapped with flt := { inbox := [{ source := 0xC590, code := 0x0380 }, { source := 0x1A02, code := 0x0340 }] }, prt := { latched := 4 } }

/-- A wrap of ring 0 is recorded in record 0, and the ring no longer is wrapped. -/
def recorded : State :=
  { mapped with flt := { recs := [(0, { source := 0x1000, code := 0x0200, cls := 1, isOpen := true })], nextAge := 1,
                         inbox := [{ source := 0x1000, code := 0x0200 }] } }

/-- The same with the ring still wrapped. -/
def stillWrapped : State := { recorded with fur := { rings := [(0, { st := 5 })] } }

theorem witness_ReportsAreCapturedAndReact :
    fresh.sys.clkRun = false ∧ reported.sys.clkRun = true ∧ openRec recorded 0x1000 0x0200 = some (0, fltRec recorded 0) ∧
    openRec mapped 0x1A02 0x0340 = none ∧ codeClass mapped 0x0340 = 3 ∧ (List.range 64).find? (fun i => !(fltRec mapped i).isOpen) = some 0 ∧
    (0x0340 : U16) ≠ 0x0380 ∧ mapped.flt.first = none ∧ fld (rg mapped rFLT_CFG) 3 2 ≤ 3 ∧ fld (rg mapped rFLT_CFG) 5 4 ≤ 3 ∧
    (faultScope mapped 3 0x1A02).testBit 0 = true ∧ fld (rg mapped rFLT_CFG) 1 0 ≤ codeClass mapped 0x0200 ∧ codeClass mapped 0x0200 < 2 := by
  decide +kernel

/-- The example of the chapter: the TRIP goes first, and FIRST is its record. -/
theorem test_example_capture :
    after (.tocsinReport 1) reported (fun t =>
      ((fltRec t 0).source, recWord (fltRec t 0) true 1, (fltRec t 0).cause, (fltRec t 1).source)) = some (0x1A02, 0x0001000F, 4, 0xC590) ∧
    after (.tocsinReport 1) reported (fun t => (t.flt.first.map (·.index), retireDecided t 0x590)) = some (some 0, true) := by
  decide +kernel
theorem test_merge : after (.tocsinReport 0) recorded (fun t => ((fltRec t 0).mergeCnt, t.flt.inbox)) = some (1, []) := by decide +kernel

theorem witness_ClearingNeedsTheCauseGone :
    WriteOk recorded .host rFLT_CLEAR (bitv 8 ||| u32 (0 : Fin 64)) ∧ WriteOk recorded .host rFLT_CLEAR (bitv 9) ∧ WriteOk recorded .host rFLT_CLEAR (bitv 10) ∧
    (fltRec recorded 0).isOpen = true ∧ (fltRec recorded 1).isOpen = false ∧ clearable recorded (fltRec recorded 0) = true ∧
    clearable stillWrapped (fltRec stillWrapped 0) = false ∧
    ((captureCycle 0 recorded).1.any (fun q => q.source == (fltRec recorded 0).source && q.code == (fltRec recorded 0).code)) = false ∧
    ((captureCycle 1 recorded).1.any (fun q => q.source == (fltRec recorded 0).source && q.code == (fltRec recorded 0).code)) = true ∧
    fresh.flt.pulse = none ∧ ({ pulse := some 9 } : Flt).pulse = some 9 := by
  simp only [writeOk_iff]; decide +kernel

theorem test_clear_one : after (.fltClearOne .host 0 0) recorded (fun t => (fltRec t 0).isOpen) = some false := by decide +kernel
/-- R394: a report of the cycle of the write keeps the record open. -/
theorem test_clear_one_hit : after (.fltClearOne .host 0 1) recorded (fun t => ((fltRec t 0).isOpen, rg t rFLT_CLR_REFUSE)) = some (true, 1) := by
  decide +kernel
theorem test_clear_all : after (.fltClearAll .host 0) stillWrapped (fun t => ((fltRec t 0).isOpen, rg t rFLT_CLR_REFUSE)) = some (true, 1) := by
  decide +kernel
theorem test_clear_first : after (.fltClearFirst .host 0) { recorded with flt := { first := some {} } } (fun t => t.flt.first) = some none := by
  decide +kernel
theorem test_faultn_pulse_end :
    after .faultnPulseEnd { fresh with flt := { pulse := some 3125, faultn := true } } (fun t => (t.tick, t.flt.faultn, t.flt.pulse)) =
      some (3125, false, none) := by decide +kernel

/-! ### Cell endpoints -/

/-- Frame 11 of ring 0 with four slots; that of position 0 asks for the insertion at offset 100 of epoch 15. -/
def frame11 : List Block := cycleFrame framed 0 11 false false [mkSlot 1 100 15 0, mkSlot 4 0 15 0, mkSlot 0 0 15 0, mkSlot 0 0 15 0]

/-- A DISCOVER frame of ring 0 with room for four, as it goes out and as it comes round. -/
def discoverFrame : List Block := trainFrame framed 0 1 2 4 false
def discoverBack : List Block := discoverFrame.set 0 (ctl (0x78 + 0x02 * 2 ^ 8 + 2 ^ 16))

/-- Endpoint 5 has position 0 and accepted frame 10; lane A reaches it over a span of 1 ns. -/
def placed : Ep := { pos := some 0, lastJ := some 10, fj := 9795120, selfBlk := false, lastBgen := 3, spanA := 16 }
def placedAt (x : Ep) : State := { framed with eps := [(5, x)] }

/-- A command of state `st` is held for epoch `e`. -/
def holding (st e : Nat) (x : Ep) : Ep := { x with held := [{ epoch := e, slot := mkSlot st 0 e 0 }] }

/-- The endpoint accepted frame 12 before a copy of frame 11 came. -/
def ahead : Ep := { placed with lastJ := some 12, fj := 10204720 }

/-- It has seen a copy of frame 11, which passed or not. -/
def sawFrame11 (ok : Bool) : Ep := { placed with seen := [⟨11, 9999920, 1, ok⟩] }

theorem witness_EndpointsAcceptFrames :
    frame11 ≠ [] ∧ copyCmdOk frame11 = true ∧ blkFld frame11 3 55 48 ≤ 2 ∧ (0 : Nat) < blkFld frame11 3 47 32 ∧
    copyCmdOk (frame11.set 5 {}) = false ∧ copyFcrcBad frame11 = false ∧ copyFcrcBad (frame11.set 5 {}) = true ∧
    epTaken 11 1 9999920 (sawFrame11 true) = true ∧ epTaken 11 1 9999920 placed = false ∧ epTaken 11 1 9999920 ahead = false ∧
    (frame11.getD 1 {}).data.toNat = 11 ∧ blkFld frame11 3 55 48 = 1 ∧ (10000000 : Int) - 5 * ((blkFld frame11 4 23 0 + epSpan placed .a : Nat) : Int) = 9999920 ∧
    placed.fj < 9999920 ∧ ahead.lastJ ≠ none ∧ 9999920 ≤ ahead.fj ∧ ({} : Ep).lastJ = none ∧ placed.latched = false ∧
    slotE 11 (mkSlot 1 100 15 0) = some 15 ∧ fld (mkSlot 1 100 15 0) 3 0 ≠ 15 ∧ lo32 (frame11.getD 5 {}).data = mkSlot 1 100 15 0 ∧
    ((sawFrame11 false).seen.find? (fun c => c.j == 11 && sameFrame 1 c.f 9999920)) = some ⟨11, 9999920, 1, false⟩ ∧ placed.seen.length < 16 ∧
    copyLooped frame11 = false ∧ placed.rpts = [] ∧
    ({ placed with rpts := [⟨11, 9795120, 7, 0⟩] } : Ep).rpts.find? (fun r => r.j == 11 && sameFrame 1 r.f 9795120) = some ⟨11, 9795120, 7, 0⟩ ∧
    ({} : Ep).pos = none ∧ fld (discoverFrame.getD 0 {}).data 15 8 = 2 ∧ copyLooped discoverFrame = false ∧ copyLooped discoverBack = true ∧
    ({ discA := some 1 } : Ep).discA = some (discoverFrame.getD 1 {}).data.toNat ∧ ({} : EpMaint).banks = [] := by decide +kernel

theorem witness_EndpointsCarryOutFrames :
    placed.moved = none ∧ placed.held = [] ∧ ({ placed with moved := some (10000000, 1) } : Ep).moved = some (10000000, 1) ∧
    heldAt (holding 1 15 placed) { epoch := 15, slot := mkSlot 1 0 15 0 } = 10819120 ∧ selfBlockAt placed = 11758128 ∧
    heldAt (holding 1 20 placed) { epoch := 20, slot := mkSlot 1 0 20 0 } = 11843120 ∧ fld (mkSlot 1 0 15 0) 3 0 = 1 ∧ fld (mkSlot 4 0 15 0) 3 0 = 4 ∧
    epObeys (holding 1 15 placed) 1 = true ∧ epObeys (holding 1 15 {}) 1 = false ∧ epObeys placed 4 = true ∧
    epBank placed.toEpView (fld (mkSlot 1 0 15 0) 27 24) = some (0, 0) ∧ placed.pat = 3 ∧ placed.legX = {} ∧ placed.lastTrans = none ∧
    epBank { placed.toEpView with banks := [(0, some (0, 2))] } 0 = some (0, 2) ∧ (10819120 : Int) < 10810000 + 6400 * 2 ∧
    (10000000 : Int) + 6400 * 2 ≤ 10819120 := by decide +kernel

theorem witness_EndpointsBlockAndLoop :
    fld (0xA55AA55AA55A07 : BitVec 56) 55 8 = 0xA55AA55AA55A ∧ fld (0xA55AA55AA55B07 : BitVec 56) 55 8 ≠ 0xA55AA55AA55A ∧ placed.latched = false ∧
    placed.lastJ ≠ none ∧ ({} : Ep).lastJ = none ∧ placed.selfBlk = false ∧ ({} : Ep).selfBlk = true ∧
    (0 : Int) + epL 1 ≤ ((204800 : U64).toNat : Int) ∧ ((204799 : U64).toNat : Int) < 0 + epL 1 ∧
    ((List.range 32).filter (fun i => bit (0x7F : BitVec 32) i)).length < 8 ∧ 8 ≤ ((List.range 32).filter (fun i => bit (0xFF : BitVec 32) i)).length ∧
    placed.looped = false ∧ ({ placed with looped := true, side := true } : Ep).looped = true := by decide +kernel

/-- R194, R228: F_11 is 5 × 16 units before the arrival; the instant lies four frames and 100 firing units later. -/
theorem test_frame_accept :
    after (.endpointFrameAccept 5 .a 10000000 16 32 7 {} frame11) (placedAt placed) (fun t =>
      ((ep t 5).lastJ, (ep t 5).fj, (ep t 5).held.map (fun h => (h.epoch, heldAt (ep t 5) h)), (ep t 5).crcA)) =
      some (some 11, 9999920, [(15, 10822320)], 0) := by decide +kernel
/-- R238: VCAP, STATUS with SELFBLK and ACT 3 at F_10, and index 0, the temperature. -/
theorem test_report :
    after (.endpointFrameAccept 5 .a 10000000 16 32 7 {} frame11) (placedAt placed) (fun t => (ep t 5).rpts.map (fun r => (r.j, r.f, r.val))) =
      some [(11, 9795120, 0x0000000700130020)] := by decide +kernel
theorem test_frame_bad_crc :
    after (.endpointFrameAccept 5 .a 10000000 16 32 0 {} (frame11.set 5 {})) (placedAt placed) (fun t => ((ep t 5).lastJ, (ep t 5).crcA, (ep t 5).held)) =
      some (some 10, 1, []) := by decide +kernel
/-- R225: the second copy of frame 11 fails as the first did. -/
theorem test_frame_missed :
    after (.endpointFrameAccept 5 .b 9999920 16 32 0 {} (frame11.set 5 {})) (placedAt (sawFrame11 false)) (fun t => ((ep t 5).crcB, (ep t 5).cmdMiss)) =
      some (1, 1) := by decide +kernel
/-- R189: frame 11 is taken from its second copy though frame 12 came first; frame 12 keeps the time. -/
theorem test_frame_late_copy :
    after (.endpointFrameAccept 5 .a 10000000 16 32 0 {} frame11) (placedAt ahead) (fun t => ((ep t 5).lastJ, (ep t 5).fj, (ep t 5).held.map (·.epoch))) =
      some (some 12, 10204720, [15]) := by decide +kernel
/-- R200: a PD_RESP of turn-round 40 after 100 gives the span 30. -/
theorem test_span_delay :
    after (.endpointFrameAccept 5 .b 0 0 0 0 { blocks := [ctl (0xAA + 3 * 2 ^ 8 + 40 * 2 ^ 16)], rtt := 100 } []) (placedAt placed) (fun t => (ep t 5).spanB) =
      some 30 := by decide +kernel
/-- R200: a PD_REQ on lane A is answered on the B output. -/
theorem test_pd_answer :
    after (.endpointFrameAccept 5 .a 0 0 0 0 { blocks := [ctl (0x99 + 9 * 2 ^ 8)], turn := 50 } []) (placedAt placed) (fun t =>
      ((ep t 5).respB.map (·.data), (ep t 5).outA)) = some (some 0x3209AA, [idleBlock]) := by decide +kernel
/-- R224: position and identity. -/
theorem test_discover :
    after (.endpointDiscover 5 .a 0x10007 8 10 11 {} {} discoverFrame) (placedAt {}) (fun t =>
      ((ep t 5).pos, ((ep t 5).outA.getD 5 {}).data, ((ep t 5).outA.getD 4 {}).data)) = some (some 0, 0x10007, 0x01000008) := by decide +kernel
/-- R233: a bank is written while no frames are accepted, and not while they are. -/
theorem test_bank :
    ([{}, placed].map fun x => after (.endpointDiscover 5 .a 0 8 10 11 { banks := [(1, some (40, 2))] } {} []) (placedAt x) (fun t =>
      epBank (ep t 5).toEpView 1)) = [some (some (40, 2)), some none] := by decide +kernel
theorem test_effect_instant :
    after (.endpointEffectInstant 5) (placedAt (holding 1 15 placed)) (fun t => ((ep t 5).pat, (ep t 5).lastTrans, (ep t 5).sw, (ep t 5).legX)) =
      some (0, some 10819120, 1, { on := 1 }) := by decide +kernel
/-- R231: in the leg that goes from the lower to the upper switch, the upper one waits for the DEAD_TIME of 40 × 0.4 ns. -/
theorem test_dead_time :
    after (.endpointEffectInstant 5) (placedAt (holding 2 15 { placed with pat := 0, legX := { on := 1 }, banks := [(0, some (40, 0))] })) (fun t =>
      ((ep t 5).pat, (ep t 5).legX)) = some (1, { on := 0, next := some (10820400, 2) }) := by decide +kernel
/-- R232: MIN_DWELL of 2 × 80 ns after the transition at 10810000. -/
theorem test_min_dwell :
    after (.endpointEffectInstant 5) (placedAt (holding 2 15 { placed with banks := [(0, some (0, 2))], lastTrans := some 10810000 }))
      (fun t => ((ep t 5).pat, (ep t 5).moved, (ep t 5).dwellAdj)) = some (3, some (10822800, 1), 1) := by decide +kernel
/-- R244: an instant at or after the self-block instant waits for it. -/
theorem test_instant_past_self_block :
    after (.endpointEffectInstant 5) (placedAt (holding 1 20 placed)) (fun t => ((ep t 5).pat, (ep t 5).held.length)) = some (3, 1) := by decide +kernel
theorem test_blksym :
    after (.endpointBlksymReceive 5 900 0xA55AA55AA55A07 true) (placedAt (holding 1 15 { placed with pat := 0 })) (fun t =>
      ((ep t 5).pat, (ep t 5).latched, (ep t 5).latchBgen, (ep t 5).held.length, (ep t 5).outB.map (·.data))) =
      some (3, true, 7, 0, [0xA55AA55AA55A07D2]) := by decide +kernel
theorem test_self_block :
    after (.endpointSelfBlock 5) (placedAt { placed with pat := 0 }) (fun t => ((ep t 5).pat, (ep t 5).selfBlk, (ep t 5).sbCnt)) = some (3, true, 1) := by
  decide +kernel
theorem test_self_block_keeps_bypass :
    after (.endpointSelfBlock 5) (placedAt { placed with pat := 4 }) (fun t => ((ep t 5).pat, (ep t 5).selfBlk)) = some (4, true) := by decide +kernel
/-- R243: the mechanical bypass closes where the BYP pattern is not usable. -/
theorem test_local_fault :
    after (.endpointLocalFault 5 900 4 false true false) (placedAt { placed with pat := 1 }) (fun t => ((ep t 5).pat, (ep t 5).fault, (ep t 5).cause)) =
      some (3, true, 0x24) := by decide +kernel
theorem test_fault_clear :
    after (.endpointFaultClear 5 204800) (placedAt { placed with pat := 4, fault := true, cause := 0x24, retiredFrom := some 0 }) (fun t =>
      ((ep t 5).fault, (ep t 5).cause)) = some (false, 0x20) := by decide +kernel
/-- R210: SIDE 1 for a loss on lane A, whose neighbour no longer hears the B output. -/
theorem test_input_loss :
    after (.endpointInputLoss 5 .a 0x1234 0xFF) (placedAt { placed with outB := [idleBlock] }) (fun t =>
      ((ep t 5).looped, (ep t 5).side, (ep t 5).lockA, (ep t 5).loopTick, (ep t 5).outB)) = some (true, true, false, 0x12, []) := by decide +kernel
/-- R211: POS 0, SIDE 1 and the tick, in every gap while the endpoint is looped. -/
theorem test_endpoint_wrap_at :
    after (.endpointFrameAccept 5 .b 0 0 0 0 { blocks := [idleBlock] } []) (placedAt { placed with looped := true, side := true, loopTick := 0x12 })
      (fun t => ((ep t 5).outA.map (·.data), (ep t 5).outB)) = some ([0x120100C3], []) := by decide +kernel
theorem test_unloop :
    after (.endpointUnloop 5 .b true 0) (placedAt { placed with looped := true, side := true, lockA := false }) (fun t =>
      ((ep t 5).looped, (ep t 5).lockA, (ep t 5).outB.map (·.data))) = some (false, true, [0x55]) := by decide +kernel

/-! ### The stack -/

/-- Device 1 of a pair: SHADOW, with port 0 UP. -/
def shadowed : State := { withRegs framed [(rSTK_CFG, 0x101)] with stk := { id := 1, role := 1, ports := [(0, { st := 2, live := 1, clk := true, watched := true })] } }

/-- Device 0 of a pair: no role yet, with port 1 UP since tick 100. -/
def undecided : State :=
  { withRegs clocked [(rSTK_CFG, 0x101)] with stk := { ports := [(1, { st := 2, live := 1, clk := true })], upAt := some 100 } }

/-- Device 2 of a group of more than two, with port 0 UP. -/
def grouped (id : Nat) : State := { withRegs clocked [(rSTK_CFG, 0x10A)] with stk := { id := id, ports := [(0, { st := 2 })] } }

/-- A DEBLOCK of group 0 in an EFFECT message. -/
def effectBytes : Bytes := [1, 0, 3, 2, 4, 0, 1, 0, 9, 0, 0, 0, 0, 0, 0, 0, 7] ++ List.replicate 15 0 ++ [1] ++ List.replicate 191 0

/-- Effect 4 waits for its acknowledgement since frame 6. -/
def waiting : State :=
  { framed with stk := { ports := [(0, { st := 2 })], waits := [{ seqno := 4, cpl := { ring := 0 }, frame := 6 }] }
                cmd := { pend := [{ id := {}, op := 0x0203, epoch := 30, payload := .groupMask 1, ack := some 4, sent := 6 }] } }

theorem witness_MessagesReachTheShadow :
    (sport shadowed 0).st = 2 ∧ (∀ q, q < 2 → q ≠ 0 → (sport shadowed q).st = 2 → tget none (sport shadowed q).seqs 2 ≠ some 5) ∧
    stkMode shadowed = 1 ∧ shadowed.stk.role = 1 ∧ (unpair [1, 2]).length ≤ 16384 ∧ carried (eOp effectBytes) = true ∧
    parsePayload (eOp effectBytes) (slice effectBytes 32 (eLen effectBytes)) = some (.groupMask 1) ∧ (sport waiting 0).st = 2 ∧
    waiting.stk.waits.map (fun w => decide (w.frame + 4 ≤ epochNow waiting)) = [true] ∧ 0 + 0 ≤ 32768 ∧
    stkMode (grouped 1) = 2 ∧ (grouped 1).stk.id ≠ 0 ∧ stkMode (grouped 0) = 2 ∧ upPorts (grouped 0) ≠ [] ∧ stkTxOn shadowed = true ∧ stkTxOn (grouped 0) = true ∧ stkTxOn fresh = false ∧
    (sport { framed with stk := { ports := [(0, { st := 2, seqs := [(2, some 5)] }), (1, { st := 2 })] } } 1).st = 2 := by decide +kernel
theorem witness_mirror_full : ∃ recs : List HarrowRec, 32768 < 0 + recs.length :=
  ⟨List.replicate 32769 { cell := 0, endSt := 0, last := none, held := 0, heldAt := none, admitted := false, wait := 0 }, by rw [List.length_replicate]; decide⟩

theorem test_station_of_master : after (.stationReceive 0 5 10 [1]) waiting (fun t => t.grn.repl.station) = some [] := by decide +kernel
theorem test_effect_acknowledged :
    after (.effectReceive 0 5 33 effectBytes) shadowed (fun t => (t.cmd.pend.map (fun e => (e.op, e.epoch, e.repl)), t.stk.out.map (fun m => (m.kind, m.words)))) =
      some ([(0x0203, 33, true)], [(5, [5])]) := by decide +kernel
theorem test_ack : after (.ackReceive 0 5 4) waiting (fun t => (t.stk.waits, t.cmd.pend.map (·.ack))) = some ([], [none]) := by decide +kernel
theorem test_ack_timeout : after .ackTimeout waiting (fun t => (t.stk.waits, t.cmd.pend.map (·.notRepl))) = some ([], [true]) := by decide +kernel
theorem test_ptp_message :
    after (.ptpMsgReceive 0 5 2 3 4) (grouped 1) (fun t => (t.tim.base, t.tim.based)) = some (2 * ptpSecUnit + 3 * ptpNsUnit + 20, true) := by decide +kernel
theorem test_ptp_second :
    after .ptpSecond { grouped 0 with tim := { base := 5 * ptpSecUnit + 1, sync := true } } (fun t => (t.std.rtcSec, t.std.rtcValid, t.stk.out.map (·.kind))) =
      some (6, true, [8]) := by decide +kernel
theorem test_message_crc :
    after (.stkMessageCrcFail 0) shadowed (fun t => rg t (rSTK_PORT_ERR 0)) = some 1 := by decide +kernel

/-- Device 2 of a chain, whose UP port is trained and whose time is the chain's. -/
def splitting : State := { grouped 2 with stk := { (grouped 2).stk with tickSet := true, ports := [(0, { st := 2, clk := true })] } }

theorem witness_PortsFollowTheirLink :
    (sport fresh 0).st = 0 ∧ (sport shadowed 0).st ≠ 0 ∧ shadowed.stk.partnerLost = false ∧
    (∀ q, q < 2 → q ≠ 0 → cabled shadowed q = true → (sport shadowed q).st = 0) ∧ 1 ≤ { shadowed with stk := { shadowed.stk with ready := 2 } }.stk.ready ∧
    (sport shadowed 0).watched = true ∧ (sport undecided 1).watched = false ∧ bit (sport shadowed 0).live 0 = true ∧ bit (sport shadowed 0).live 1 = false ∧
    laneMin shadowed ≤ liveLanes { live := 3 } ∧ liveLanes { live := 0 } < laneMin shadowed ∧ cabled shadowed 0 = true ∧
    bit ({ retired := 1 } : StkPort).retired 0 = true ∧ 64 < (65 : U8).toNat ∧ WriteOk (grouped 0) .host rSTK_RETRAIN 1 ∧ bit (1 : U32) 0 = true ∧
    (sport (grouped 0) 0).st = 2 ∧ stkMode (grouped 0) ≠ 1 ∧ stkMode splitting = 2 ∧ splitting.stk.id ≠ 0 ∧ (sport splitting 0).clk = true := by
  simp only [writeOk_iff]; decide +kernel

/-- R493: the device goes on with its own time. -/
theorem test_clock_loss_splits :
    after (.stkClockLoss 0) splitting (fun t => (t.stk.timeSplit, (sport t 0).st, bit (rg t rSTK_EVT) 10)) = some (true, 0, true) := by decide +kernel
theorem test_fstart_miss :
    after (.fstartMiss 1) { undecided with stk := { undecided.stk with ports := [(1, { st := 2, watched := true })] } } (fun t =>
      ((sport t 1).st, t.stk.partnerLost)) = some (0, true) := by
  decide +kernel
theorem test_lane_loss : after (.stkLaneLoss 1 0) undecided (fun t => ((sport t 1).st, (sport t 1).live, t.stk.partnerLost)) = some (0, 0, true) := by decide +kernel
theorem test_clock_return :
    after (.forwardedClockReturn 1) { undecided with stk := { ports := [(1, { live := 1 })] } } (fun t => (sport t 1).st) = some 1 := by
  decide +kernel
theorem test_lane_live :
    after (.stkLaneLive 1 3 0 64) { undecided with stk := { ports := [(1, { clk := true })] } } (fun t =>
      ((sport t 1).st, (sport t 1).live, (sport t 1).skew)) = some (1, 8, 64) := by decide +kernel
theorem test_retrain : after (.stkRetrainWrite .host 1) (grouped 0) (fun t => (sport t 0).st) = some 1 := by decide +kernel
theorem test_dly_req : after (.dlyReqReceive 0 5 6) shadowed (fun t => (sport t 0).reply.map (·.data)) = some (some 0x6058E) := by decide +kernel
theorem test_dly_resp : after (.dlyRespReceive 0 1001 200) shadowed (fun t => (sport t 0).dly) = some 400 := by decide +kernel

theorem witness_PairMessagesDecideTheRoles :
    rg shadowed rSYS_FRAME_CFG = 0x00040401 ∧ (0x00040402 : U32) ≠ rg shadowed rSYS_FRAME_CFG ∧ (sport shadowed 0).st = 2 ∧ stkMode shadowed = (1 : BitVec 2).toNat ∧ (0 : BitVec 3).toNat ≠ shadowed.stk.id ∧
    (1 : BitVec 3).toNat = shadowed.stk.id ∧ (sport { shadowed with stk := { shadowed.stk with ports := [(0, { st := 1 })] } } 0).st = 1 ∧
    2 ≤ (sport shadowed 0).st ∧ (sport fresh 0).st = 0 ∧ shadowed.stk.tickSet = false ∧ shadowed.sys.running = true ∧ undecided.sys.running = false ∧
    stkMode undecided = 1 ∧ undecided.stk.role = 0 ∧ undecided.stk.id = 0 ∧ undecided.stk.upAt = some 100 ∧
    (∀ q, q < 2 → (sport undecided q).st = 2 → (sport undecided q).peerRole ≠ 2) ∧ fresh.stk.upAt = none ∧
    { undecided with stk := {} }.stk.upAt = none ∧ bit (rg (grouped 0) rSTK_CFG) 3 = true ∧ stkTxOn (grouped 0) = true := by decide +kernel

theorem test_hello_brings_up :
    after (.helloReceive 1 5 0x00040401 1 1 7 3) { undecided with stk := { ports := [(1, { st := 1 })] } } (fun t =>
      ((sport t 1).st, t.stk.partnerCrc, (sport t 1).txLive)) = some (2, 7, 3) := by decide +kernel
theorem test_hello_mismatch :
    after (.helloReceive 1 5 0x00040402 1 1 7 3) { undecided with stk := { ports := [(1, { st := 1 })] } } (fun t =>
      ((sport t 1).st, bit (rg t rSTK_EVT) 6)) = some (1, true) := by decide +kernel
/-- R492: the tick counter is set once from the announced tick and the delay; 400 units of 1/16 ns are 25 ns, 7.8 ticks. -/
theorem test_fstart_sets_tick :
    after (.fstartReceive 0 5000 0 0 0) { grouped 1 with stk := { id := 1, ports := [(0, { st := 2, dly := 400 })] } } (fun t => (t.tick, t.stk.tickSet)) =
      some (5007, true) := by decide +kernel
theorem test_decision_followed : after (.decisionReceive 1 5 3 0 false) undecided (fun t => (t.stk.follow, (sport t 1).trip)) = some (3, 3) := by decide +kernel
/-- R478: a NEW decision goes on through the other port of a chain. -/
theorem test_decision_forwarded :
    after (.decisionReceive 0 1 5 3 true) (grouped 1) (fun t => (t.grn.tripDue, t.stk.decTo, t.stk.decOut.data)) =
      some (true, some 1, 0x103050133) := by decide +kernel
/-- R491: MASTER_WAIT is 1 ms, 312,500 ticks. -/
theorem test_role_timer : after .roleMasterTimer undecided (fun t => (t.stk.role, t.tick)) = some (2, 312600) := by decide +kernel
theorem test_boot_wait : after .bootWaitExpire { undecided with stk := {} } (fun t => (t.stk.role, t.stk.tickSet)) = some (2, true) := by decide +kernel

/-! ### The time base and the station network -/

/-- Port 0 is enabled and linked; slot 3 holds a frame and slot 2 a later one; one timestamp waits. -/
def wired : State :=
  { withRegs clocked [(rTIM_ETH_CFG 0, 1)] with
    tim := { ports := [(0, { link := true, arr := 2, tsq := [{ id := 0x1234, time := 5 * ptpSecUnit + 7 * ptpNsUnit, lost := true }],
                             slots := [(2, { full := true, arr := 1 }), (3, { full := true, arr := 0 })] })] } }

/-- A PTP frame to 01-1B-19-00-00-00. -/
def ptpFrame : Bytes := [1, 0x1B, 0x19, 0, 0, 0, 9, 9, 9, 9, 9, 9, 0x88, 0xF7, 2, 0]

/-- Port 0 sends a frame with a timestamp; `n` timestamps wait. -/
def sending (n : Nat) : State :=
  { wired with tim := { ports := [(0, { link := true, busy := true, txCtl := 0xABCD0840, tsq := List.replicate n { id := 0, time := 0, lost := false } })] } }

theorem witness_StationPortsKeepFrames :
    ethEn fresh 0 = false ∧ (eth fresh 0).link = false ∧ ethEn wired 0 = true ∧ (eth wired 0).link = true ∧ (ethAccept wired 0 ptpFrame).1 = true ∧
    (ethAccept wired 0 (ptpFrame.set 12 0)).1 = false ∧ (tget {} (eth wired 0).slots 0).full = false ∧ (tget {} (eth wired 0).slots 0).handed = false ∧
    (∀ q ∈ (eth wired 0).slots, q.2.full = true → q.2.handed = false → q = (3, { full := true, arr := 0 }) ∨ 0 < q.2.arr) ∧
    (∀ q ∈ (eth fresh 0).slots, q.2.full = false ∨ q.2.handed = true) ∧ WriteOk wired (.core 1) (rTIM_ETH_RX_REL 0) 3 ∧
    WriteOk wired (.core 1) (rTIM_ETH_TX_CTL 0) 64 ∧ (eth wired 0).busy = false ∧ (eth (sending 0) 0).busy = true ∧ bit (eth (sending 0) 0).txCtl 11 = true ∧
    (eth (sending 16) 0).tsq.length = 16 ∧ (eth fresh 0).tsq = [] ∧
    (eth wired 0).tsq = { id := 0x1234, time := 5 * ptpSecUnit + 7 * ptpNsUnit, lost := true } :: [] := by
  simp only [writeOk_iff]; decide +kernel
theorem witness_slots_full :
    ∃ s : State, ethEn s 0 = true ∧ (eth s 0).link = true ∧
      (∀ k, k < 16 → ¬ ((tget {} (eth s 0).slots k).full = false ∧ (tget {} (eth s 0).slots k).handed = false)) :=
  ⟨{ wired with tim := { ports := [(0, { link := true, slots := (List.range 16).map (fun k => (k, { full := true })) })] } }, by decide +kernel⟩

theorem test_frame_receive :
    after (.ethFrameReceive 0 true ptpFrame) wired (fun t => ((tget {} (eth t 0).slots 0).full, (tget {} (eth t 0).slots 0).bytes.take 2, (eth t 0).arr)) =
      some (true, [16, 0], 3) := by decide +kernel
theorem test_frame_fcs : after (.ethFrameReceive 0 false ptpFrame) wired (fun t => (rg t (rTIM_ETH_FCS_CNT 0), (eth t 0).error)) = some (1, true) := by
  decide +kernel
theorem test_rx_pop_oldest : after (.ethRxPop (.core 1) 0) wired (fun t => (t.rdata, (tget {} (eth t 0).slots 3).handed)) = some (19, true) := by
  decide +kernel
theorem test_rx_pop_host : after (.ethRxPop .host 0) wired (fun t => (t.rdata, (eth t 0).slots.length)) = some (0, 2) := by decide +kernel
theorem test_rx_release : after (.ethRxRel (.core 1) 0 3) wired (fun t => (eth t 0).slots.map (·.1)) = some [2] := by decide +kernel
theorem test_tx_start : after (.ethTxCtlWrite (.core 1) 0 64) wired (fun t => ((eth t 0).busy, (eth t 0).txCtl)) = some (true, 64) := by decide +kernel
theorem test_tx_done_stamps : after (.ethTxDone 0) (sending 0) (fun t => ((eth t 0).busy, (eth t 0).tsq.map (·.id))) = some (false, [0xABCD]) := by
  decide +kernel
theorem test_tx_done_full : after (.ethTxDone 0) (sending 16) (fun t => ((eth t 0).lostNext, rg t (rTIM_ETH_TXTS_LOSTID 0))) = some (true, 0xABCD) := by
  decide +kernel
theorem test_txts_pop :
    after (.txtsPop .host 0) wired (fun t => (t.rdata, rg t (rTIM_ETH_TXTS_NS 0), rg t (rTIM_ETH_TXTS_SEC_LO 0), (eth t 0).tsq)) =
      some (0x31234, 7, 5, []) := by decide +kernel
theorem test_link_down_reports : after (.ethLinkChange 0 false) wired (fun t => (bit (rg t rTIM_EVT) 6, t.flt.inbox.map (·.code))) =
    some (true, [0x0304, 0x0303]) := by decide +kernel

/-- The RTC is not valid, a first measurement has come, and the offset in MEAS is `n` units of 1/16 ns. -/
def measured (n : U32) : State := { withRegs clocked [(rTIM_MEAS_LO, n)] with tim := { seen := true, sync := true } }

theorem witness_MeasurementsDisciplineTime :
    WriteOk (measured 32) (.core 1) rTIM_MEAS_CTL 1 ∧ timShadow (grouped 1) = true ∧ timShadow (measured 32) = false ∧
    ({ accepted := true } : Tim).accepted = true ∧ (measured 32).tim.accepted = false ∧ (measured 32).tim.guard = none ∧
    fresh.tim.seen = false ∧ fresh.std.rtcValid = false ∧
    bit (rg (withRegs clocked [(rTIM_CFG, 0x1000)]) rTIM_CFG) 12 = true ∧ bit (rg fresh rTIM_CFG) 12 = true ∧
    (32 : Int).natAbs ≤ 16 * (rg (measured 32) rTIM_STEP_THR).toNat ∧ (32 : Int).natAbs ≤ 16 * (rg (measured 32) rTIM_SYNC_TOL).toNat ∧
    16 * (rg (measured 0x7FFFFFFF) rTIM_STEP_THR).toNat < (0x7FFFFFFF : Int).natAbs ∧ -freqMax (measured 32) ≤ (measured 32).tim.y ∧
    (measured 32).tim.holdover = false ∧ ({ holdover := true } : Tim).holdover = true ∧ ({ guard := some 9 } : Tim).guard = some 9 ∧
    now { fresh with tim := { guard := some 9 } } < 9 ∧ { measured 32 with tim := { holdover := true } }.tim.holdover = true := by
  simp only [writeOk_iff]; decide +kernel

theorem test_measurement_steps :
    after (.measurementCommit (.core 1) 0) (measured 0x7FFFFFFF) (fun t => (t.tim.stepPend, t.tim.holdover, t.tim.sync)) =
      some (some 134217728, true, false) := by decide +kernel
theorem test_measurement_ignored :
    after (.measurementCommit (.core 1) 0) { measured 32 with tim := { accepted := true } } (fun t => (t.tim.good, rg t rTIM_MEAS_IGN)) = some (0, 1) := by
  decide +kernel
/-- R455: the guard has ended by its time, and the measurement counts. -/
theorem test_measurement_after_guard :
    after (.measurementCommit (.core 1) 0) { measured 0x7FFFFFFF with tick := 9, tim := { seen := true, holdover := true, guard := some 9, y := 5 } }
      (fun t => (t.tim.stepPend, t.tim.y, rg t rTIM_MEAS_IGN)) = some (some 134217728, 5, 0) := by decide +kernel
theorem test_holdover : after .holdoverTimeout (measured 0) (fun t => (t.tim.holdover, t.tim.sync)) = some (true, false) := by decide +kernel
theorem test_guard_end : after .stepGuardEnd { fresh with tim := { guard := some 9 } } (fun t => (t.tick, t.tim.guard)) = some (9, none) := by decide +kernel

/-! ### Granary -/

/-- Epoch 9 is to close; ring 0 carries frame 10 since frame 4 and has not returned it. -/
def closing : State := { framed with grn := { next := some 9 }, fur := { rings := [(0, { st := 4, first := 4, n := 4, aLock := true, bLock := true })] } }

/-- A publication of region 1 for epoch 8 is in hand, with this STATUS. -/
def publishing (st : Nat) : State :=
  { withRegs framed [(ringCfg 9, 0x106)] with
    hst := { linkUp := true }
    grn := { commit := { k := 9 }, build := some { k := 9 }, next := some 9,
             pubs := [{ region := 1, epoch := 8, first := 0, count := 2, addr := 0x4000, len := 72, desc := 0, status := st, img := {} }] } }

theorem witness_EpochsCloseCommitAndPublish :
    closing.grn.next = some 9 ∧ ringIn (ring closing 0) 10 = true ∧ frameReturned closing (ring closing 0) 10 = false ∧ 9 + 1 ≤ epochNow closing ∧
    fresh.grn.next = none ∧ closable fresh = none ∧ closable { closing with fur := {} } = some 9 ∧ fresh.grn.build = none ∧
    (publishing 0).grn.build.isSome = true ∧ (∀ r, r < 16 → snapDue (publishing 0) 9 r = false) ∧ fresh.grn.pubs = [] ∧
    (publishing 0).grn.pubs.length = 1 ∧ (publishing 0).hst.linkUp = true ∧ (publishing 2).grn.pubs.map (·.status) = [2] ∧
    { publishing 0 with stk := { role := 1 } }.stk.role = 1 ∧ (publishing 0).stk.role ≠ 1 ∧
    { publishing 0 with hst := { linkUp := true, idxDirty := true } }.hst.linkUp = true ∧ (publishing 0).hst.cplDue = [] ∧ (publishing 0).hst.evtDue = [] ∧
    (publishing 0).hst.idxDirty = false ∧ bit (rg (withRegs (publishing 0) [(rHST_IDX_CTL, 1)]) rHST_IDX_CTL) 0 = true ∧
    8 + pubWin (withRegs (publishing 0) [(rGRN_PUB_CFG, 1)]) ≤ (publishing 0).grn.commit.k ∧ ¬ 8 + pubWin (publishing 0) ≤ (publishing 0).grn.commit.k := by
  decide +kernel

/-- R159: T_CLOSE of the reset value after F_10. -/
theorem test_closure_deadline :
    after (.closureDeadline 0) closing (fun t => (bit (rg t rGRN_EVT) 1, t.tick.toNat - 8000)) = some (true, fld (rg fresh rGRN_CLOSE_CFG) 15 0) := by
  decide +kernel
theorem test_epoch_close :
    after (.epochClose false 0 []) { closing with fur := {} } (fun t => (t.grn.next, t.grn.build.map (·.k), t.grn.missCnt)) = some (some 10, some 9, 0) := by
  decide +kernel
theorem test_epoch_missed :
    after (.epochClose true 0 []) { closing with fur := {} } (fun t => (t.grn.next, t.grn.build.isSome, t.grn.missCnt, t.grn.missLast)) =
      some (some 10, false, 1, 9) := by decide +kernel
theorem test_epoch_commit : after (.epochCommit 0 []) (publishing 0) (fun t => (t.grn.commit.k, t.grn.valid, t.grn.build.isSome)) =
    some (9, true, false) := by decide +kernel
theorem test_publication :
    after (.publicationComplete false) (publishing 0) (fun t => (t.dma.map (fun w => (w.addr, w.bytes.length)), t.grn.pubs.length)) =
      some ([(0x4008, 64), (0x4000, 8), (16, 12), (28, 4)], 0) := by decide +kernel
/-- R66: an index block that is due goes first. -/
theorem test_publication_yields :
    after (.publicationComplete false) { withRegs (publishing 0) [(rHST_IDX_CTL, 1)] with hst := { linkUp := true, idxDirty := true } } (fun t =>
      (t.dma.length, t.grn.pubs.length)) = some (0, 1) := by decide +kernel
/-- R174: a shadow commits nothing. -/
theorem test_shadow_commits_nothing :
    after (.epochCommit 0 []) { publishing 0 with stk := { role := 1 } } (fun t => (t.grn.commit.k, t.grn.valid, t.grn.build.isSome)) =
      some (9, false, false) := by decide +kernel
theorem test_publication_abandoned :
    after .publicationAbandon (withRegs (publishing 0) [(rGRN_PUB_CFG, 1)]) (fun t => (t.grn.pubs.length, rg t rGRN_PUB_ABANDON)) = some (0, 1) := by
  decide +kernel

/-! ### Furrow -/

/-- Ring 3 in a state of training. -/
def ringed3 (x : Ring) : State := { withRegs clocked [(rFUR_RING_CFG 3, 1)] with fur := { rings := [(3, x)] } }

/-- Four cells, each with its identity. -/
def copyA : DiscCopy := ⟨true, false, [11, 12, 13, 14]⟩
def copyB : DiscCopy := ⟨true, false, [14, 13, 12, 11]⟩

/-- A ring of four cells runs and waits for frame 11. -/
def returning : State :=
  { closing with tick := 8800, grn := { next := some 10 }
                 fur := { rings := [(0, { st := 4, first := 4, n := 4, aLock := true, bLock := true })], sent := [{ frame := 11, ring := 0, slots := [] }] } }

theorem witness_RingsTrainStepByStep :
    WriteOk (ringed3 {}) .host (rFUR_RING_CFG 3) 1 ∧ WriteOk (ringed3 {}) .host (rFUR_RING_CFG 3) 0 ∧ bit (rg (ringed3 {}) (rFUR_RING_CFG 3)) 0 = true ∧
    bit (rg fresh (rFUR_RING_CFG 3)) 0 = false ∧ (ring (ringed3 { st := 2, asked := true }) 3).asked = true ∧ copyA.ids = copyB.ids.reverse ∧
    copyA.ids.length ≤ ringCells clocked ∧ fld (rg (ringed3 {}) (rFUR_RING_CFG 3)) 16 8 = 0 ∧
    fld (rg (withRegs fresh [(rFUR_RING_CFG 3, 0x02000A03)]) (rFUR_RING_CFG 3)) 16 8 = 10 ∧
    bit (rg (withRegs fresh [(rFUR_RING_CFG 3, 0x02000A03)]) (rFUR_RING_CFG 3)) 1 = true ∧
    4 + 4 + fld (rg (withRegs fresh [(rFUR_RING_CFG 3, 0x02000A03)]) (rFUR_RING_CFG 3)) 27 24 = 10 ∧
    measureErr { n := 1, st := 3 } false 100 [0] = 0 ∧ measureErr { n := 1, st := 3 } false 128001 [0] = 7 ∧
    cutOff { st := 5, n := 4, loopA := some 0, loopB := some 2, loopTick := some 9 } ≠ [] ∧
    ((List.range 32).filter (fun i => bit (0x7F : BitVec 32) i)).length < 8 ∧ 8 ≤ ((List.range 32).filter (fun i => bit (0xFF : BitVec 32) i)).length ∧
    now (ringed3 {}) < ({ unloopEnd := 100 } : Stk).unloopEnd ∧ (3 : U8).toNat + 1 = 4 ∧
    cutOff { st := 5, n := 4, loopA := some 2, loopB := some 3, loopTick := some 9 } = [] ∧
    decide (11 ≤ 10) = false ∧ returning.grn.next = some 10 ∧ { returning with grn := { next := some 11 } }.grn.next = some 11 ∧
    closeTicks returning (ring returning 0) 11 < (200000 * 5 + 255) / 256 + 2 * frame11.length ∧
    sofLooped (frame11.set 0 (ctl (0x78 + 0x01 * 2 ^ 8 + 2 ^ 16))) = true ∧ (ring returning 0).st = 4 ∧
    ((frame11.set 7 {}).set 3 (ctl 0xD2)).any (isCtl 0xD2) = true ∧ (frame11.set 7 {}).any (isCtl 0xD2) = false ∧
    partShape 4 ((frame11.set 7 {}).set 3 (ctl 0xD2)) = false ∧
    ringLive (ring returning 0) = true ∧ (∃ f ∈ returning.fur.sent, f.frame = 11 ∧ f.ring = 0) ∧ ¬ closeTicks returning (ring returning 0) 11 < 100 ∧
    partShape 4 frame11 = true ∧ partShape 4 (frame11.set 7 {}) = false ∧ partGood frame11 = true ∧ shadowed.stk.role = 1 ∧ closing.stk.role ≠ 1 := by
  simp only [writeOk_iff]; decide +kernel

theorem test_ring_enable : after (.furRingCfgWrite .host 3 1) (withRegs clocked []) (fun t => ((ring t 3).st, (ring t 3).n)) = some (1, 0) := by
  decide +kernel
theorem test_ring_drain :
    after (.furRingCfgWrite .host 3 0) (ringed3 { st := 4, aLock := true, bLock := true }) (fun t => ((ring t 3).st, (ring t 3).next)) = some (4, some 6) := by
  decide +kernel
theorem test_lock : after (.trainLock 3 true true) (ringed3 { st := 1 }) (fun t => (ring t 3).next) = some (some 2) := by decide +kernel
/-- R207: 10 ms are 3,125,000 ticks. -/
theorem test_lock_timeout : after (.trainLockTimeout 3) (ringed3 { st := 1 }) (fun t => ((ring t 3).st, (ring t 3).err, t.tick)) = some (7, 1, 3125000) := by
  decide +kernel
theorem test_discovery :
    after (.discoverReturn 3 copyA copyB) (ringed3 { st := 2, asked := true }) (fun t => ((ring t 3).n, (ring t 3).next, (ring t 3).ids)) =
      some (4, some 3, [11, 12, 13, 14]) := by decide +kernel
theorem test_discovery_mismatch :
    after (.discoverReturn 3 copyA ⟨true, false, [14, 13, 11, 12]⟩) (ringed3 { st := 2, asked := true }) (fun t => ((ring t 3).st, (ring t 3).err)) =
      some (7, 4) := by decide +kernel
theorem test_measure : after (.measureReturn 3 true 100 [0]) (ringed3 { st := 3, asked := true, n := 1 }) (fun t => ((ring t 3).next, (ring t 3).trans)) =
    some (some 4, 100) := by decide +kernel
theorem test_measure_transit :
    after (.measureReturn 3 true 128001 [0]) (ringed3 { st := 3, asked := true, n := 1 }) (fun t => ((ring t 3).st, (ring t 3).err)) = some (7, 7) := by
  decide +kernel
theorem test_pd_req : after (.pdReqReceive 3 .a 5 6) (ringed3 { st := 4 }) (fun t => (ring t 3).hopB.map (·.data)) = some (some 0x605AA) := by decide +kernel
theorem test_pd_resp : after (.pdRespReceive 3 .a 101 20) (ringed3 { st := 4 }) (fun t => ((ring t 3).spanN, (ring t 3).span0)) = some (40, 0) := by
  decide +kernel
theorem test_wrap_at :
    after (.wrapAtReceive 3 1 true 90) { ringed3 { st := 4, n := 4, aLock := true, bLock := true } with tick := 100 } (fun t =>
      ((ring t 3).st, (ring t 3).loopB, (ring t 3).loopTick)) = some (5, some 1, some 90) := by decide +kernel
theorem test_rx_loss :
    after (.rxInputLoss 3 .a 0xFF) { ringed3 { st := 4, n := 4, aLock := true, bLock := true } with tick := 100 } (fun t =>
      ((ring t 3).st, (ring t 3).silB, (ring t 3).aLock, (ring t 3).loopTick)) = some (5, true, false, some 100) := by decide +kernel
theorem test_frame_part :
    after (.framePartReceive 0 .a 11 100 frame11) returning (fun t => ((ring t 0).rx.map (fun p => (p.frame, p.good)), (ring t 0).trans, rg t (rFUR_RING_CRCA 0))) =
      some ([(11, true)], 100, 0) := by decide +kernel
theorem test_frame_part_bad :
    after (.framePartReceive 0 .a 11 100 (frame11.set 5 {})) returning (fun t => ((ring t 0).rx.map (fun p => (p.frame, p.good)), rg t (rFUR_RING_CRCA 0))) =
      some ([(11, false)], 1) := by decide +kernel
/-- R197: a part whose epoch is closed is still checked, but not kept. -/
theorem test_frame_part_closed :
    after (.framePartReceive 0 .a 11 100 (frame11.set 5 {})) { returning with grn := { next := some 11 } } (fun t =>
      ((ring t 0).rx.length, rg t (rFUR_RING_CRCA 0), rg t rGRN_LATE_DROP)) = some (0, 1, 0) := by decide +kernel
/-- R212: a returned SOF that is LOOPED declares the wrap. -/
theorem test_frame_part_looped :
    after (.framePartReceive 0 .a 11 100 (frame11.set 0 (ctl (0x78 + 0x01 * 2 ^ 8 + 2 ^ 16)))) returning (fun t => ((ring t 0).st, (ring t 0).wrapped)) =
      some (5, true) := by decide +kernel
/-- R208: the loop lies at the port itself where no cell is before it. -/
theorem test_discovery_wrapped :
    after (.discoverReturn 3 ⟨true, true, []⟩ ⟨true, true, [14, 13]⟩) { withRegs clocked [(rFUR_RING_CFG 3, 0x00000203)] with fur := { rings := [(3, { st := 2, asked := true })] } }
      (fun t => ((ring t 3).n, (ring t 3).gxA, (ring t 3).loopA, (ring t 3).loopB)) = some (2, true, none, some 0) := by decide +kernel

/-- R187: 64 valid sync headers lock a receiver, and 16 invalid ones among 64 lose the lock. -/
theorem test_block_lock :
    ((List.replicate 64 true).foldl (fun x v => lockHeader v x) {}).locked = true ∧
    ((List.replicate 16 false).foldl (fun x v => lockHeader v x) { locked := true }).locked = false ∧
    ((List.replicate 15 false).foldl (fun x v => lockHeader v x) { locked := true }).locked = true := by decide +kernel
/-- R185: a bit is scrambled with those 39 and 58 places back. -/
theorem test_scrambler : (scramble 0 (true :: List.replicate 58 false)).zipIdx.filterMap (fun p => if p.1 then some p.2 else none) = [0, 39, 58] := by
  decide +kernel

/-! ### Protection -/

/-- Channel 2 is dual, with pulses, in a state; the window is closed and the channel granted. -/
def permit (x : Chn) : State :=
  { withRegs clocked [(rPRT_PCH_CFG 2, 7), (rPRT_CLAP_CFG 4, 0x304)] with
    sys := { clocked.sys with setupDone := true }, prt := { grant := 4, chans := [(2, x)] } }

theorem witness_PermitChannelsFollowTheirStates :
    chanState (permit {}) 2 = 1 ∧ windowOpen (permit {}) = false ∧ bit (permit {}).prt.grant 2 = true ∧ (chn (permit {}) 2).prb = false ∧
    tripHeld (permit {}) 2 = false ∧ chanState (permit { st := 7, clear := some 5 }) 2 = 7 ∧ convBlocked (permit {}) = true ∧
    chanState (permit { st := 2 }) 2 = 2 ∧ chanState (permit { st := 3 }) 2 = 3 ∧ chanState (permit { st := 4, prb := true }) 2 = 4 ∧
    chanState (permit { st := 5 }) 2 = 5 ∧ chanState (permit { st := 6, ret := true }) 2 = 6 ∧ chanState fresh 2 = 0 ∧
    reqH (permit { st := 7, prb := true }) 2 = false ∧ reqL (permit { st := 7, prb := true }) 2 = false ∧ reqH (permit { st := 4 }) 2 = true ∧
    pchEn (permit {}) 2 = true ∧ pchTest (permit {}) 2 = true ∧ pchEn fresh 2 = false ∧
    (∀ m, m < 8 → m ≠ 2 → chanState (permit {}) m ≠ 5 ∧ chanState (permit {}) m ≠ 6) := by decide +kernel

theorem test_permit_enable : after (.permitEnable 2) (permit {}) (fun t => ((chn t 2).st, permitL t 2, permitH t 2)) = some (2, true, false) := by
  decide +kernel
/-- R369: REARM_HOLD of the reset value passes before the channel is driven again. -/
theorem test_permit_rearm :
    after (.permitEnable 2) (withRegs (permit { st := 7, clear := some 5 }) [(rPRT_CFG, 0x0A0A000A)]) (fun t => ((chn t 2).st, t.tick)) =
      some (2, 3125005) := by decide +kernel
theorem test_check_l : after (.permitCheckLDone 2) (permit { st := 2 }) (fun t => ((chn t 2).st, t.tick)) = some (3, 6250) := by decide +kernel
theorem test_prb_rises : after (.prbChange 2 true) (permit { st := 3 }) (fun t => ((chn t 2).st, (chn t 2).prb)) = some (4, true) := by decide +kernel
theorem test_prb_lost :
    after (.prbChange 2 false) (permit { st := 4, prb := true }) (fun t => ((chn t 2).st, (chn t 2).cause, bit (rg t rPRT_EVT) 7, permitH t 2)) =
      some (7, 0x20000, true, false) := by decide +kernel
theorem test_ret_timeout : after (.permitRetTimeout 2) (permit { st := 3 }) (fun t => ((chn t 2).st, (chn t 2).cause, bit (rg t rPRT_EVT) 6)) =
    some (1, 0x40000, true) := by decide +kernel
theorem test_off_chk : after (.permitOffChkExpire 2) (permit { st := 7, prb := true }) (fun t => ((chn t 2).st, (chn t 2).cause)) = some (8, 0x100000) := by
  decide +kernel
theorem test_off_pulse :
    after (.offPulseStart 2) (permit { st := 4, prb := true, nextL := true }) (fun t => ((chn t 2).st, permitH t 2, permitL t 2)) =
      some (6, true, false) := by decide +kernel
theorem test_off_pulse_check : after (.offPulseCheck 2) (permit { st := 5, prb := true }) (fun t => ((chn t 2).st, (chn t 2).cause)) =
    some (8, 0x100000) := by decide +kernel
theorem test_off_pulse_end : after (.offPulseEnd 2) (permit { st := 5 }) (fun t => ((chn t 2).ret, (chn t 2).st)) = some (true, 5) := by decide +kernel

/-- Clapper input 4 has asserted; it maps to channel 2, which is on, and makes a decision. -/
def tripping : State := { permit { st := 4, prb := true } with prt := { asserted := 0x10, grant := 4, chans := [(2, { st := 4, prb := true })] } }

/-- The safety image runs; comparator 3 is enabled, starts sequencer 1 and has its copy in the image. -/
def imaged : State :=
  { withRegs tripping [(rPRT_SP_CFG, 0x08040164), (rAFE_CMP_CFG 3, 0x100000), (rAFE_SEQ_CFG 1, 0x331), (rPRT_CLAP_CFG 3, 0x202), (rINT_SRC_CFG 131, 0x10)] with
    prt := { sp := true, noCommit := 1, hbOn := true, hbOk := true, hb := 0x5AA5, chans := [(2, { st := 4, prb := true })] }
    afe := { seqs := [(1, { mode := 1 })] } }

/-- A sampled CRC that differs from the stored one by one bit, and one that equals it: both hypotheses of the CRC clauses can be met. -/
theorem witness_ClapperLatchesTripsAndClears_crc :
    configCrc fresh ^^^ 1 ≠ configCrc fresh ∧ configCrc fresh ^^^ 0 = configCrc fresh := by
  generalize configCrc fresh = x
  refine ⟨fun h => ?_, by simp⟩
  have h1 : x ^^^ (x ^^^ 1) = x ^^^ x := congrArg (x ^^^ ·) h
  rw [← BitVec.xor_assoc, BitVec.xor_self, BitVec.zero_xor] at h1
  exact absurd h1 (by decide)

theorem witness_ClapperLatchesTripsAndClears :
    clapEn tripping 4 = true ∧ bit tripping.prt.latched 4 = false ∧ bit tripping.prt.asserted 4 = true ∧ clapMaps tripping 4 2 = true ∧
    chanState tripping 2 = 4 ∧ bit (clapCfg tripping 4) 8 = true ∧ bit fresh.prt.asserted 4 = false ∧ cmpArmed imaged 3 = true ∧
    bit ({ latched := 8 } : Prt).latched 3 = true ∧ (∀ p ∈ fresh.fur.rings, p.2.frameLoss = false) ∧ clocked.sys.pllLock = true ∧
    fresh.flt.trips.all (fun t => !causeLive fresh t.1 t.2) = true ∧
    imaged.prt.hbOn = true ∧ imaged.prt.hbOk = true ∧ (0xA55A : U32).toNat = fld (~~~imaged.prt.hb) 15 0 ∧ 25 * hbMax imaged ≤ (5000 : U32).toNat ∧
    (5000 : U32).toNat ≤ 100 * hbMax imaged ∧ ¬ (100 * hbMax imaged < (5000 : U32).toNat) ∧ commitWd imaged ≤ imaged.prt.noCommit ∧ imaged.prt.wdTrip = false ∧
    imaged.prt.sp = true ∧ imaged.prt.lockErr = false ∧ cmpArmed fresh 3 = false ∧ (cmpr { fresh with afe := { cmps := [(3, { out := true, spent := true })] } } 3).spent = true ∧
    startSrc imaged 1 = 3 ∧ fld (rg imaged (rAFE_SEQ_CFG 1)) 10 8 = 3 ∧ bit (rg imaged rPRT_SP_CFG) (24 + 3) = true ∧
    (4 : U8) &&& ~~~imaged.prt.demand ≠ 0 ∧ chanState (permit { st := 7 }) 2 = 7 := by decide +kernel

theorem test_clapper_trips :
    after (.clapperCauseLatch 4) tripping (fun t => ((chn t 2).st, (chn t 2).cause, t.prt.latched, t.prt.first)) = some (7, 0x10, 0x10, 0x804) := by
  decide +kernel
theorem test_clapper_decides :
    after (.clapperCauseLatch 4) tripping (fun t => (rg t rPRT_TRIP_CNT, permitH t 2, permitL t 2, t.grn.tripDue)) = some (1, false, false, true) := by
  decide +kernel
theorem test_clapper_clears : after (.clapperCauseClear 3) { imaged with prt := { imaged.prt with latched := 8 } } (fun t => t.prt.latched) = some 0 := by
  decide +kernel
theorem test_clapper_stays :
    after (.clapperCauseClear 10) { imaged with prt := { imaged.prt with latched := 0x400 } } (fun t => t.prt.latched) = some 0x400 := by decide +kernel
theorem test_config_crc :
    after (.configCrcCheck 1) { withRegs fresh [(rPRT_CLAP_CFG 13, 0x201)] with prt := { crcOn := true, crcRef := configCrc (withRegs fresh [(rPRT_CLAP_CFG 13, 0x201)]) } }
      (fun t => (t.prt.asserted, bit (rg t rPRT_EVT) 4)) = some (0x2000, true) := by decide +kernel
theorem test_sp_failure : after .spFailure (withRegs fresh [(rPRT_CLAP_CFG 10, 0x201)]) (fun t => (t.prt.asserted, t.prt.lockErr)) = some (0x400, true) := by
  decide +kernel
theorem test_heartbeat : after (.heartbeatWrite 0xA55A 5000) imaged (fun t => (t.prt.hbGood, t.prt.hbOk, t.prt.hb)) = some (1, true, 0xA55A) := by
  decide +kernel
theorem test_heartbeat_wrong : after (.heartbeatWrite 0x5AA5 5000) imaged (fun t => (t.prt.hbGood, t.prt.hbOk, bit (rg t rPRT_EVT) 2)) =
    some (0, false, true) := by decide +kernel
theorem test_heartbeat_timeout : after .heartbeatTimeout imaged (fun t => (t.prt.hbOk, t.tick)) = some (false, 31250) := by decide +kernel
theorem test_sp_cmd :
    after (.spCmdWrite 4 4 false) imaged (fun t => (t.prt.demand, (chn t 2).st, (chn t 2).cause, permitH t 2)) = some (4, 7, 0x10000, false) := by
  decide +kernel
theorem test_commit_watchdog : after .commitWatchdog imaged (fun t => (t.prt.wdTrip, t.prt.blksym, t.prt.demand, rg t rPRT_TRIP_CNT)) =
    some (true, true, 4, 1) := by decide +kernel
theorem test_crossing :
    after (.comparatorCrossing 3) imaged (fun t => ((cmpr t 3).spent, rg t (rAFE_CMP_CNT 3), t.prt.asserted, (seq t 1).run)) =
      some (true, 1, 8, true) := by decide +kernel
theorem test_crossing_copy : after (.comparatorCrossing 3) imaged (fun t => (t.prt.cmpTrip, (intSrc t 195).cnt)) = some (8, 1) := by decide +kernel
theorem test_rearm : after (.comparatorRearm 3) { imaged with afe := { cmps := [(3, { out := true, spent := true })] } } (fun t => t.afe.cmps) = some [] := by
  decide +kernel

/-! ### The analog front end -/

/-- Sequencer 1 runs FREE over one entry of channel 2 of its bank; the channel averages plain codes. -/
def converting : State :=
  { withRegs clocked [(rAFE_SEQ_ENT 1 0, 0x80000002), (rAFE_SEQ_CFG 1, 1)] with afe := { seqs := [(1, { mode := 1, run := true, slot := 4 })] } }

/-- The same ready to start, in mode `m`. -/
def idleSeq (m : Nat) : State := { converting with afe := { seqs := [(1, { mode := m })] } }

theorem witness_ConversionsFeedTheirChannels :
    (seq fresh 1).run = false ∧ (seq converting 1).run = true ∧ (-32768 * 256 - 128 : Int) ≤ 640 ∧ (640 : Int) < 32767 * 256 + 128 ∧
    WriteOk converting .host rAFE_SEQ_CTL 2 ∧ windowOpen converting = true ∧ windowOpen shut = false ∧ WriteOk shut .host rAFE_SEQ_CTL 2 ∧
    WriteOk fresh .host (rAFE_SEQ_CFG 1) 3 ∧ WriteOk fresh .host (rAFE_CH_CFG 10) 0x401 ∧
    bit (rg converting (rAFE_SEQ_ENT 1 0)) 16 = false ∧ bit (rg (withRegs fresh [(rAFE_SEQ_ENT 1 0, 0x80010002)]) (rAFE_SEQ_ENT 1 0)) 16 = true ∧
    accMode converting 10 = 0 ∧ fld (rg converting (rAFE_SEQ_ENT 1 0)) 7 4 ≤ (seq converting 1).rep ∧ bit (rg converting (rAFE_SEQ_ENT 1 0)) 31 = true := by
  simp only [writeOk_iff]; decide +kernel

/-- R333: 640 ÷ 256 is 2.5, rounded away from zero; a slot is 16 ticks, and the pass begins again. -/
theorem test_conversion :
    after (.afeConversion 1 640 false) converting (fun t => ((chan t 10).sum, (chan t 10).k, t.tick, (seq t 1).slot)) = some (3, 1, 80, 5) := by
  decide +kernel
theorem test_conversion_overrange :
    after (.afeConversion 1 0x00800000 false) converting (fun t => ((chan t 10).sum, (chan t 10).ovr, (seq t 1).taint, rg t rAFE_OVR)) =
      some (32767, true, some 6, 0x400) := by decide +kernel
theorem test_go : after (.afeSeqGo .host 2) (idleSeq 1) (fun t => ((seq t 1).run, (seq t 1).slot)) = some (true, 0) := by decide +kernel
theorem test_mode_write : after (.afeSeqModeWrite .host 1 0) converting (fun t => ((seq t 1).mode, (seq t 1).newMode)) = some (1, some 0) := by
  decide +kernel
theorem test_channel_restart :
    after (.afeChCfgWrite .host 10 0x401) { fresh with afe := { chans := [(10, { n := 5, sum := 9, k := 2, hist := [1] })] } } (fun t => t.afe.chans) =
      some [] := by decide +kernel

/-! ### The loop engines -/

/-- The engines compute sample 8; loops 0 and 17 drive arm 1, the second with its sign changed. -/
def computing : State :=
  { withRegs framed [(rLPE_LOOP_DST 0, 0x11), (rLPE_LOOP_DST 17, 0x31), (rINT_SRC_CFG 35, 0x10)] with
    lpe := { sample := some 8, busy := true, loops := [(0, { enabled := true, out := 0x40400000 }), (17, { enabled := true, out := 0x3F800000 })] } }

theorem witness_LoopEnginesPublishTheirReferences :
    (∀ l, l < 128 → ¬ (bit (rg fresh (rLPE_LOOP_DST l)) 4 = true ∧ fld (rg fresh (rLPE_LOOP_DST l)) 3 0 = 1)) ∧ fresh.lpe.sample = none ∧
    computing.lpe.sample = some 8 ∧ computing.lpe.busy = true ∧ computing.lpe.lateEng.getLsbD 1 = false ∧
    ({ lateEng := 2 } : Lpe).lateEng.getLsbD 1 = true ∧ srcEn computing 99 = true ∧ (intSrc computing 99).cnt < 255 ∧ (22 : Nat) < 23 ∧
    WriteOk fresh .host (rLPE_LOOP_SRC 3) 0xA0002000 ∧ srcCodeOk (fld (0xA0002000 : U32) 15 0) = true ∧ srcCodeOk (fld (0xA0002000 : U32) 31 16) = true ∧
    WriteOk fresh .host (rLPE_LOOP_SRC 3) 0x00002060 ∧ srcCodeOk (fld (0x00002060 : U32) 15 0) = false ∧ WriteOk fresh .host (rLPE_LOOP_SPSRC 3) 0x2000 ∧
    WriteOk fresh .host (rLPE_LOOP_SPSRC 3) 0x2060 ∧ WriteOk fresh .host (rLPE_LOOP_DST 3) 0x1B ∧ fld (0x1B : U32) 3 0 ≤ 11 ∧
    WriteOk fresh .host (rLPE_LOOP_DST 3) 0x1C ∧ 11 < fld (0x1C : U32) 3 0 ∧ WriteOk fresh .host rLPE_CAP_CTL 0x105 ∧ bit (0x105 : U32) 8 = true := by
  simp only [writeOk_iff]; decide +kernel

/-- R301: 3.0 − 1.0 for arm 1; one corrected error in engine 2 makes 856 cycles. -/
theorem test_engines_done :
    after (.enginesDone [0, 0, 1]) computing (fun t => (tget 0 t.lpe.refs 1, t.lpe.refsM, t.lpe.busy, tget 0 t.lpe.engStat 2)) =
      some (0x40000000, some 8, false, 0x00010358) := by decide +kernel
theorem test_deadline_miss :
    after (.loopDeadlineMiss 1) computing (fun t => ((loop t 17).late, (loop t 0).late, t.lpe.lateArms, rg t (rSYS_YIELD_CNT 1))) =
      some (true, false, 2, 1) := by decide +kernel
theorem test_ecc_disables : after (.loopEccUncorr 17 23) computing (fun t => ((loop t 17).enabled, (loop t 17).out, (loop t 0).enabled)) =
    some (false, 0x3F800000, true) := by decide +kernel
theorem test_bad_source : after (.lpeSrcWrite .host 3 false 0xA0002060) fresh (fun t => (rg t (rLPE_LOOP_SRC 3), bit (rg t rLPE_EVT) 8)) =
    some (0xA0000000, true) := by decide +kernel
theorem test_bad_arm : after (.lpeDstWrite .host 3 0x1C) fresh (fun t => (rg t (rLPE_LOOP_DST 3), bit (rg t rLPE_EVT) 8)) = some (0, true) := by
  decide +kernel
theorem test_capture_arms : after (.lpeCapArm .host 0x105) fresh (fun t => (rg t rLPE_CAP_CTL, t.lpe.cap.armed)) = some (5, true) := by decide +kernel

/-! ### Harrow and carrier mode -/

/-- Arm 0 is handed to Harrow since epoch 6, in frame 10. -/
def selecting : State := { handed with hrw := { arms := [(0, { frame := 11, busy := true })] } }

/-- Arm 0 steps its look-ahead down since frame `d`, or up in frame 11. -/
def downing (d : Nat) : State := { handed with cmd := { handed.cmd with la := [(0, { up := some 4, down := some d })] } }
def upping (was : Option Nat) : State := { handed with cmd := { handed.cmd with la := [(0, { up := some 11, was := was })] } }

theorem witness_HarrowBuildsEveryArm :
    fresh.sys.running = false ∧ shadowed.stk.role = 1 ∧ handed.sys.running = true ∧ handed.stk.role ≠ 1 ∧
    (∀ a, a < 12 → armMapped handed a = true → (harm handed a).frame < epochNow handed + 1) ∧ armMapped handed 0 = true ∧ armMapped handed 1 = false ∧
    armMapped selecting 0 = true ∧ epochNow selecting + 1 ≤ (harm selecting 0).frame ∧ armWrapped handed 0 = false ∧
    armWrapped { handed with fur := { rings := [(0, { st := 5 })] } } 0 = true ∧ laCfg handed < 7 ∧ (armLa handed 0).up = none ∧
    slotEpoch (downing 11) 0 12 = none ∧ armOpen handed 0 11 15 = true ∧ armOpen mapped 0 11 15 = false ∧ slotEpoch handed 0 11 = some 15 ∧
    (armLa (downing 11) 0).up ≠ none ∧ (armLa (downing 11) 0).down = some 11 ∧ armWrapped (downing 11) 0 = false ∧ 4 + 7 < 12 + laCfg handed ∧
    armLa (upping none) 0 = { up := some 11 } ∧ armLa (upping (some 6)) 0 = { up := some 11, was := some 6 } ∧
    (harm handed 0).busy = false ∧ (harm selecting 0).busy = true ∧ f32Lt 0xBF800000 0 = true ∧
    (selectCells 0 0 0 6400 []).short = false ∧ 0 < ({ units := 6400, base := 0, mp := 0, cIns2 := 0, cRem2 := 0, rNum := 1, rDen := 2, plain := true } : EdgeCfg).units := by
  decide +kernel

/-- R27: H_START is a quarter of the frame, 200 ticks; the built slots have not been chosen yet. -/
theorem test_harrow_start :
    after .harrowStart handed (fun t => (t.tick, (harm t 0).frame, (harm t 0).busy)) = some (8200, 11, true) := by decide +kernel
theorem test_look_ahead_steps_up :
    after .harrowStart { handed with fur := { rings := [(0, { st := 5 })] } } (fun t => (armLa t 0).up) = some (some 11) := by decide +kernel
/-- R261: four cells are one word of sixteen, 44 + 3 cycles. -/
theorem test_selection_done : after (.harrowSelectionDone 0 100) selecting (fun t => ((harm t 0).busy, (harm t 0).cyc, t.tick)) = some (false, 47, 8224) := by
  decide +kernel

/-- Arm 0's grid runs with a zero at firing unit 70000; a CARRIER_SET with a PERIOD of 128000 and EN 1 is due; ZERO, PERIOD and CMP are enabled. -/
def gridded : State :=
  { withRegs framed [(rHRW_CAR_IRQ 0, 7), (rINT_SRC_CFG 64, 0x10), (rINT_SRC_CFG 65, 0x10), (rINT_SRC_CFG 66, 0x10)] with
    cmd := { arms := [(0, { ranges := [(0, 4)], nNeed := 1 })],
             pend := [{ id := { ord := 4 }, op := 0x0305, epoch := 10, payload := .carrier 0 9 1 128000 0 0 }] }
    hrw := { arms := [(0, { car := { rt := { on := true, zero := 70000 }, apex := some 72000, edges := [73000] } })] } }

/-- The arm is in carrier mode and runs; a CARRIER_SET with EN 0 is due. The last final zero is at firing unit `fin`. -/
def switchingOff (fin : Nat) : State :=
  { gridded with
    cmd := { gridded.cmd with groups := [(0, { carrier := true, line := [{ e := 6, j := 2, on := false }] })],
                              pend := [{ id := { ord := 4 }, op := 0x0305, epoch := 10, payload := .carrier 0 8 0 0 0 0 }] }
    hrw := { arms := [(0, { car := { rt := { on := true, enabled := true, zero := 70000 }, fin := fin } })] } }

theorem witness_CarrierZerosLoadAndRaiseEvents :
    (carOf fresh 0).rt.on = false ∧ (carOf gridded 0).rt.on = true ∧ gridded.sys.running = true ∧ carDue gridded 0 70000 (fun e => !e.applied) ≠ [] ∧
    carDue { gridded with cmd := {} } 0 70000 (fun e => !e.applied) = [] ∧ loadsPeriod (carDue gridded 0 70000 (fun e => !e.applied)) = true ∧
    bit (rg gridded (rHRW_CAR_IRQ 0)) 0 = true ∧ fld (rg gridded (rHRW_CAR_IRQ 0)) 7 4 < 0 + 1 ∧ srcEn gridded 128 = true ∧ (intSrc gridded 128).cnt < 255 ∧
    (carOf fresh 0).apex = none ∧ (carOf gridded 0).apex = some 72000 ∧ (carOf fresh 0).edges = [] ∧ (carOf gridded 0).edges = 73000 :: [] ∧
    srcEn gridded 129 = true ∧ srcEn gridded 130 = true := by decide +kernel

theorem test_carrier_zero :
    after (.carrierZero 0) gridded (fun t => ((carOf t 0).rt.zero, (carOf t 0).rt.enabled, (carOf t 0).apex, t.tick)) =
      some (198000, true, some 134000, 8750) := by decide +kernel
/-- R291: the drain begins at the zero, and ends at once where the epoch of the last final zero has begun. -/
theorem test_carrier_drain :
    ([128000, 0].map fun fin => after (.carrierZero 0) (switchingOff fin) (fun t => ((carOf t 0).drain, bit (rg t rHRW_CAR_EVT) 2))) =
      [some (some 20, false), some (none, true)] := by decide +kernel
theorem test_carrier_zero_interrupt : after (.carrierZero 0) gridded (fun t => ((intSrc t 128).cnt, t.cmd.pend.map (fun e => (e.applied, e.epoch)))) =
    some (1, [(true, 10)]) := by decide +kernel
theorem test_carrier_apex : after (.carrierApex 0) gridded (fun t => ((carOf t 0).apex, t.tick, (intSrc t 129).cnt)) = some (none, 9000, 1) := by
  decide +kernel
theorem test_carrier_cmp : after (.carrierCmpEvent 0) gridded (fun t => ((carOf t 0).edges, t.tick, (intSrc t 130).cnt)) = some ([], 9125, 1) := by
  decide +kernel

end Sys2Proof.Tests
end

section
/-! PROOFS. What every command leaves, and the canonical forms (O4, O5, O8). -/

namespace Sys2Proof.Machine

/-- What a command leaves of `s` in `t`: `Keeps` says it in the command's areas, and for a command that stores to core memory `KeepsMem`. -/
def Leaves (c : Instr) (s t : State) : Prop :=
  Keeps (areas c) s t ∨ ((areas c).contains .mem = true ∧ KeepsMem (areas c) s t)

/-- Every command leaves what its own lemma under Laws/KeepsExec says. -/
theorem exec_leaves {c : Instr} {s t : State} (e : exec c s = .next t) : Leaves c s t := by
  cases c with
  | porAssert => exact .inr ⟨rfl, execPorAssert_keeps e⟩
  | porRelease => exact .inl (execPorRelease_keeps e)
  | rstNLow => exact .inl (execRstNLow_keeps e)
  | rstNRelease => exact .inl (execRstNRelease_keeps e)
  | longResetLatch => exact .inl (execLongResetLatch_keeps e)
  | softReset => exact .inl (execSoftReset_keeps e)
  | frameReset => exact .inl (execFrameReset_keeps e)
  | hotReset => exact .inl (execHotReset_keeps e)
  | devkeyOk => exact .inl (execDevkeyOk_keeps e)
  | pllLock => exact .inl (execPllLock_keeps e)
  | coreImageStart => exact .inr ⟨rfl, execCoreImageStart_keeps e⟩
  | safetyImageStart => exact .inl (execSafetyImageStart_keeps e)
  | sysCoreRunWrite => exact .inl (execSysCoreRunWrite_keeps e)
  | jnlReady => exact .inl (execJnlReady_keeps e)
  | refclkLost => exact .inl (execRefclkLost_keeps e)
  | pllUnlock => exact .inl (execPllUnlock_keeps e)
  | clockRecovered => exact .inl (execClockRecovered_keeps e)
  | frameStartWrite => exact .inl (execFrameStartWrite_keeps e)
  | frameBoundary => exact .inl (execFrameBoundary_keeps e)
  | enginesDone => exact .inl (execEnginesDone_keeps e)
  | loopDeadlineMiss => exact .inl (execLoopDeadlineMiss_keeps e)
  | loopEccUncorr => exact .inl (execLoopEccUncorr_keeps e)
  | harrowStart => exact .inl (execHarrowStart_keeps e)
  | harrowSelectionDone => exact .inl (execHarrowSelectionDone_keeps e)
  | carrierZero => exact .inl (execCarrierZero_keeps e)
  | carrierApex => exact .inl (execCarrierApex_keeps e)
  | effectApply => exact .inl (execEffectApply_keeps e)
  | framePartReceive => exact .inl (execFramePartReceive_keeps e)
  | rxInputLoss => exact .inl (execRxInputLoss_keeps e)
  | wrapAtReceive => exact .inl (execWrapAtReceive_keeps e)
  | pdReqReceive => exact .inl (execPdReqReceive_keeps e)
  | pdRespReceive => exact .inl (execPdRespReceive_keeps e)
  | furRingCfgWrite => exact .inl (execFurRingCfgWrite_keeps e)
  | trainLock => exact .inl (execTrainLock_keeps e)
  | trainLockTimeout => exact .inl (execTrainLockTimeout_keeps e)
  | discoverReturn => exact .inl (execDiscoverReturn_keeps e)
  | measureReturn => exact .inl (execMeasureReturn_keeps e)
  | closureDeadline => exact .inl (execClosureDeadline_keeps e)
  | epochClose => exact .inl (execEpochClose_keeps e)
  | epochCommit => exact .inl (execEpochCommit_keeps e)
  | publicationComplete => exact .inl (execPublicationComplete_keeps e)
  | publicationAbandon => exact .inl (execPublicationAbandon_keeps e)
  | journalWrite => exact .inl (execJournalWrite_keeps e)
  | afeConversion => exact .inl (execAfeConversion_keeps e)
  | afeSeqGo => exact .inl (execAfeSeqGo_keeps e)
  | afeSeqModeWrite => exact .inl (execAfeSeqModeWrite_keeps e)
  | afeChCfgWrite => exact .inl (execAfeChCfgWrite_keeps e)
  | comparatorCrossing => exact .inl (execComparatorCrossing_keeps e)
  | comparatorRearm => exact .inl (execComparatorRearm_keeps e)
  | clapperCauseLatch => exact .inl (execClapperCauseLatch_keeps e)
  | clapperCauseClear => exact .inl (execClapperCauseClear_keeps e)
  | configCrcCheck => exact .inl (execConfigCrcCheck_keeps e)
  | spFailure => exact .inl (execSpFailure_keeps e)
  | spCmdWrite => exact .inl (execSpCmdWrite_keeps e)
  | heartbeatWrite => exact .inl (execHeartbeatWrite_keeps e)
  | heartbeatTimeout => exact .inl (execHeartbeatTimeout_keeps e)
  | commitWatchdog => exact .inl (execCommitWatchdog_keeps e)
  | permitEnable => exact .inl (execPermitEnable_keeps e)
  | permitCheckLDone => exact .inl (execPermitCheckLDone_keeps e)
  | prbChange => exact .inl (execPrbChange_keeps e)
  | permitRetTimeout => exact .inl (execPermitRetTimeout_keeps e)
  | permitOffChkExpire => exact .inl (execPermitOffChkExpire_keeps e)
  | offPulseStart => exact .inl (execOffPulseStart_keeps e)
  | offPulseCheck => exact .inl (execOffPulseCheck_keeps e)
  | offPulseEnd => exact .inl (execOffPulseEnd_keeps e)
  | tocsinReport => exact .inl (execTocsinReport_keeps e)
  | faultnPulseEnd => exact .inl (execFaultnPulseEnd_keeps e)
  | fltClearOne => exact .inl (execFltClearOne_keeps e)
  | fltClearAll => exact .inl (execFltClearAll_keeps e)
  | fltClearFirst => exact .inl (execFltClearFirst_keeps e)
  | setUpDoneWrite => exact .inl (execSetUpDoneWrite_keeps e)
  | hstRingCfgWrite => exact .inl (execHstRingCfgWrite_keeps e)
  | doorbellWrite => exact .inl (execDoorbellWrite_keeps e)
  | bar2BadAccess => exact .inl (execBar2BadAccess_keeps e)
  | bar0BadAccess => exact .inl (execBar0BadAccess_keeps e)
  | commandFetch => exact .inl (execCommandFetch_keeps e)
  | fetchComplete => exact .inl (execFetchComplete_keeps e)
  | fetchFail => exact .inl (execFetchFail_keeps e)
  | fetchTimeout => exact .inl (execFetchTimeout_keeps e)
  | hstRestartWrite => exact .inl (execHstRestartWrite_keeps e)
  | completionWrite => exact .inl (execCompletionWrite_keeps e)
  | eventWrite => exact .inl (execEventWrite_keeps e)
  | indexBlockWrite => exact .inl (execIndexBlockWrite_keeps e)
  | linkDown => exact .inl (execLinkDown_keeps e)
  | envelopeVerify => exact .inl (execEnvelopeVerify_keeps e)
  | sessionOpenVerify => exact .inl (execSessionOpenVerify_keeps e)
  | firmwareEnvelopeVerify => exact .inl (execFirmwareEnvelopeVerify_keeps e)
  | sessionExpire => exact .inl (execSessionExpire_keeps e)
  | akeyCommitWrite => exact .inl (execAkeyCommitWrite_keeps e)
  | keyInstallComplete => exact .inl (execKeyInstallComplete_keeps e)
  | tamperLatch => exact .inl (execTamperLatch_keeps e)
  | vbatLoss => exact .inl (execVbatLoss_keeps e)
  | vaultIntegrityFail => exact .inl (execVaultIntegrityFail_keeps e)
  | itemRelease => exact .inl (execItemRelease_keeps e)
  | nop => exact .inl (execNop_keeps e)
  | sessionClose => exact .inl (execSessionClose_keeps e)
  | snapCfg => exact .inl (execSnapCfg_keeps e)
  | snareArm => exact .inl (execSnareArm_keeps e)
  | setpoint => exact .inl (execSetpoint_keeps e)
  | block => exact .inl (execBlock_keeps e)
  | deblock => exact .inl (execDeblock_keeps e)
  | mode => exact .inl (execMode_keeps e)
  | cellRetire => exact .inl (execCellRetire_keeps e)
  | cellRestore => exact .inl (execCellRestore_keeps e)
  | armMap => exact .inl (execArmMap_keeps e)
  | coefWrite => exact .inl (execCoefWrite_keeps e)
  | carrierSet => exact .inl (execCarrierSet_keeps e)
  | calSet => exact .inl (execCalSet_keeps e)
  | ringCtl => exact .inl (execRingCtl_keeps e)
  | timeAccept => exact .inl (execTimeAccept_keeps e)
  | timeCfg => exact .inl (execTimeCfg_keeps e)
  | akeyInstall => exact .inl (execAkeyInstall_keeps e)
  | akeyRevoke => exact .inl (execAkeyRevoke_keeps e)
  | akeyReplace => exact .inl (execAkeyReplace_keeps e)
  | fwUpdate => exact .inl (execFwUpdate_keeps e)
  | fwUpdateComplete => exact .inl (execFwUpdateComplete_keeps e)
  | setupReopen => exact .inl (execSetupReopen_keeps e)
  | sessionKill => exact .inl (execSessionKill_keeps e)
  | tskAlloc => exact .inl (execTskAlloc_keeps e)
  | tskFree => exact .inl (execTskFree_keeps e)
  | tskWake => exact .inl (execTskWake_keeps e)
  | tskSwitch => exact .inl (execTskSwitch_keeps e)
  | tskNext => exact .inl (execTskNext_keeps e)
  | tskSetPrio => exact .inl (execTskSetPrio_keeps e)
  | tskSetAff => exact .inl (execTskSetAff_keeps e)
  | tskTake => exact .inl (execTskTake_keeps e)
  | tskRelease => exact .inl (execTskRelease_keeps e)
  | tskTokenHi => exact .inl (execTskTokenHi_keeps e)
  | tskBadOp => exact .inl (execTskBadOp_keeps e)
  | relTimeout => exact .inl (execRelTimeout_keeps e)
  | intClaim => exact .inl (execIntClaim_keeps e)
  | intComplete => exact .inl (execIntComplete_keeps e)
  | intSourceEvent => exact .inl (execIntSourceEvent_keeps e)
  | modHoldExpire => exact .inl (execModHoldExpire_keeps e)
  | gxtimecmpWrite => exact .inl (execGxtimecmpWrite_keeps e)
  | timerExpire => exact .inl (execTimerExpire_keeps e)
  | gxlsetWrite => exact .inl (execGxlsetWrite_keeps e)
  | gxdcopWrite => exact .inl (execGxdcopWrite_keeps e)
  | intSsetWrite => exact .inl (execIntSsetWrite_keeps e)
  | intSwiWrite => exact .inl (execIntSwiWrite_keeps e)
  | wfi => exact .inl (execWfi_keeps e)
  | coreWake => exact .inl (execCoreWake_keeps e)
  | granaryPortLoad => exact .inl (execGranaryPortLoad_keeps e)
  | fwPointStore c => exact .inl (execFwPointStore_keeps (x1 := c) e)
  | fwPointCommit c => exact .inl (execFwPointCommit_keeps (x1 := c) e)
  | journalPortSubmit => exact .inl (execJournalPortSubmit_keeps e)
  | coreAccessFault => exact .inl (execCoreAccessFault_keeps e)
  | lpeSrcWrite => exact .inl (execLpeSrcWrite_keeps e)
  | lpeDstWrite => exact .inl (execLpeDstWrite_keeps e)
  | lpeCapArm => exact .inl (execLpeCapArm_keeps e)
  | ethFrameReceive => exact .inl (execEthFrameReceive_keeps e)
  | ethRxPop => exact .inl (execEthRxPop_keeps e)
  | ethRxRel => exact .inl (execEthRxRel_keeps e)
  | ethTxCtlWrite => exact .inl (execEthTxCtlWrite_keeps e)
  | ethTxDone => exact .inl (execEthTxDone_keeps e)
  | txtsPop => exact .inl (execTxtsPop_keeps e)
  | ethLinkChange => exact .inl (execEthLinkChange_keeps e)
  | measurementCommit => exact .inl (execMeasurementCommit_keeps e)
  | holdoverTimeout => exact .inl (execHoldoverTimeout_keeps e)
  | stepGuardEnd => exact .inl (execStepGuardEnd_keeps e)
  | ptpSecond => exact .inl (execPtpSecond_keeps e)
  | snareRecordWrite => exact .inl (execSnareRecordWrite_keeps e)
  | snareGap => exact .inl (execSnareGap_keeps e)
  | snarePostEnd => exact .inl (execSnarePostEnd_keeps e)
  | snareDumpDone => exact .inl (execSnareDumpDone_keeps e)
  | snareRearmEnd => exact .inl (execSnareRearmEnd_keeps e)
  | trigLineAssert => exact .inl (execTrigLineAssert_keeps e)
  | trigOutRelease => exact .inl (execTrigOutRelease_keeps e)
  | snrSwWrite => exact .inl (execSnrSwWrite_keeps e)
  | stkClockLoss => exact .inl (execStkClockLoss_keeps e)
  | fstartMiss => exact .inl (execFstartMiss_keeps e)
  | stkLaneLoss => exact .inl (execStkLaneLoss_keeps e)
  | fstartReceive => exact .inl (execFstartReceive_keeps e)
  | decisionReceive => exact .inl (execDecisionReceive_keeps e)
  | dlyReqReceive => exact .inl (execDlyReqReceive_keeps e)
  | dlyRespReceive => exact .inl (execDlyRespReceive_keeps e)
  | helloReceive => exact .inl (execHelloReceive_keeps e)
  | stationReceive => exact .inl (execStationReceive_keeps e)
  | cellsReceive => exact .inl (execCellsReceive_keeps e)
  | effectReceive => exact .inl (execEffectReceive_keeps e)
  | ackReceive => exact .inl (execAckReceive_keeps e)
  | ackTimeout => exact .inl (execAckTimeout_keeps e)
  | harrowMsgReceive => exact .inl (execHarrowMsgReceive_keeps e)
  | ringMsgReceive => exact .inl (execRingMsgReceive_keeps e)
  | ptpMsgReceive => exact .inl (execPtpMsgReceive_keeps e)
  | stkMessageCrcFail => exact .inl (execStkMessageCrcFail_keeps e)
  | roleMasterTimer => exact .inl (execRoleMasterTimer_keeps e)
  | bootWaitExpire => exact .inl (execBootWaitExpire_keeps e)
  | stkRetrainWrite => exact .inl (execStkRetrainWrite_keeps e)
  | counterWrap => exact .inl (execCounterWrap_keeps e)
  | sampleBufferClear => exact .inl (execSampleBufferClear_keeps e)
  | gxtlyovfClear => exact .inl (execGxtlyovfClear_keeps e)
  | tlyDevCfgWrite => exact .inl (execTlyDevCfgWrite_keeps e)
  | dbgEnLow => exact .inl (execDbgEnLow_keeps e)
  | dpParityError => exact .inl (execDpParityError_keeps e)
  | dpUnlockGo => exact .inl (execDpUnlockGo_keeps e)
  | dpUnlockDone => exact .inl (execDpUnlockDone_keeps e)
  | dpRelock => exact .inl (execDpRelock_keeps e)
  | dpUnlockExpire => exact .inl (execDpUnlockExpire_keeps e)
  | dpHalt => exact .inl (execDpHalt_keeps e)
  | dpResume => exact .inl (execDpResume_keeps e)
  | dpStep => exact .inl (execDpStep_keeps e)
  | dpRegSelWrite => exact .inl (execDpRegSelWrite_keeps e)
  | dpRegHiWrite => exact .inl (execDpRegHiWrite_keeps e)
  | dpMemDataAccess => exact .inr ⟨rfl, execDpMemDataAccess_keeps e⟩
  | dpFreezeWrite => exact .inl (execDpFreezeWrite_keeps e)
  | breakpointHit => exact .inl (execBreakpointHit_keeps e)
  | watchpointHit => exact .inl (execWatchpointHit_keeps e)
  | endpointFrameAccept => exact .inl (execEndpointFrameAccept_keeps e)
  | endpointDiscover => exact .inl (execEndpointDiscover_keeps e)
  | endpointEffectInstant => exact .inl (execEndpointEffectInstant_keeps e)
  | endpointBlksymReceive => exact .inl (execEndpointBlksymReceive_keeps e)
  | endpointSelfBlock => exact .inl (execEndpointSelfBlock_keeps e)
  | endpointLocalFault => exact .inl (execEndpointLocalFault_keeps e)
  | endpointInputLoss => exact .inl (execEndpointInputLoss_keeps e)
  | endpointUnloop => exact .inl (execEndpointUnloop_keeps e)
  | w1cWrite => exact .inl (execW1cWrite_keeps e)
  | rcRead => exact .inl (execRcRead_keeps e)
  | latchedPairRead => exact .inl (execLatchedPairRead_keeps e)
  | registerWrite => exact .inr ⟨rfl, execRegisterWrite_keeps e⟩
  | softResetRelease => exact .inl (execSoftResetRelease_keeps e)
  | linkUp => exact .inl (execLinkUp_keeps e)
  | forwardedClockReturn => exact .inl (execForwardedClockReturn_keeps e)
  | stkLaneLive => exact .inl (execStkLaneLive_keeps e)
  | carrierCmpEvent => exact .inl (execCarrierCmpEvent_keeps e)
  | trigLineRelease => exact .inl (execTrigLineRelease_keeps e)
  | endpointFaultClear => exact .inl (execEndpointFaultClear_keeps e)
  | coreEccError => exact .inl (execCoreEccError_keeps e)

/-- A store to core memory stays in the areas of a command that lists it. -/
theorem KeepsMem.only {ps : List Area} {s t : State} (h : KeepsMem ps s t) (hm : ps.contains .mem = true) : ChangesOnly ps s t := by
  obtain ⟨u, m, k, rfl, -⟩ := h
  intro p hp
  have := k.only p hp
  cases p
  case mem => exact absurd hm (by rw [hp]; decide)
  all_goals exact this

theorem KeepsMem.pending {ps : List Area} {s t : State} (h : KeepsMem ps s t) : t.pending = s.pending := by
  obtain ⟨u, m, k, rfl, -⟩ := h
  exact k.pending

/-- `Canonical`, part by part. -/
theorem canonical_iff (s : State) :
    Canonical s = true ↔ Memory.wf s.mem = true ∧ tblWf regReset s.regs = true ∧ slotsWf s.std = true := by
  simp only [Canonical, Bool.and_eq_true, and_assoc]

theorem KeepsMem.canonical {ps : List Area} {s t : State} (h : KeepsMem ps s t) (w : Canonical s = true) : Canonical t = true := by
  obtain ⟨u, m, k, rfl, hm⟩ := h
  obtain ⟨wm, wr, ws⟩ := (canonical_iff s).1 w
  exact (canonical_iff _).2 ⟨hm wm, k.regs wr, (k.rev ws).1⟩

theorem Leaves.only {c : Instr} {s t : State} (h : Leaves c s t) : ChangesOnly (areas c) s t := by
  obtain k | ⟨hm, k⟩ := h
  · exact k.only
  · exact k.only hm

theorem Leaves.keepsMem {c : Instr} {s t : State} (h : Leaves c s t) : KeepsMem (areas c) s t := by
  obtain k | ⟨-, k⟩ := h
  · exact k.mem_self
  · exact k

/-- A command that stores to no core memory leaves it. -/
theorem Leaves.mem {c : Instr} {s t : State} (h : Leaves c s t) (hm : (areas c).contains .mem = false) : t.mem = s.mem := h.only .mem hm

theorem exec_canonical {c : Instr} {s t : State} (e : exec c s = .next t) (w : Canonical s = true) : Canonical t = true :=
  (exec_leaves e).keepsMem.canonical w

theorem idle_canonical {s : State} (w : Canonical s = true) : Canonical (idle s) = true := by
  have k : Keeps [.tick, .tly] s (idle s) := Keeps.ite (advanceTo_keeps (Keeps.refl _ _) (by decide)) (Keeps.refl _ _)
  exact k.mem_self.canonical w

/-- Settles O4: after reset nothing is listed in any of the three tables. -/
theorem resetIsCanonical : Obligations.ResetIsCanonical := rfl

/-- Settles O5: a step is a command, whose queue is no part of the canonical forms, or an idle tick. -/
theorem everyStepKeepsTheCanonicalForms : Obligations.EveryStepKeepsTheCanonicalForms := by
  intro s t e w
  unfold step at e
  split at e
  · obtain rfl := Host.Outcome.next.inj e
    exact idle_canonical w
  · exact exec_canonical e w

/-- Settles O8: what `exec_leaves` says of each command, area by area. -/
theorem commandsChangeOnlyTheirAreas : Obligations.CommandsChangeOnlyTheirAreas :=
  ⟨fun _ _ _ e => (exec_leaves e).only, fun _ _ _ e => (exec_leaves e).keepsMem.pending,
   fun _ _ _ e hm a => congrArg (readByte · a) ((exec_leaves e).mem hm)⟩

end Sys2Proof.Machine
end

section
/-! PROOFS. The registers after reset (O3). -/

namespace Sys2Proof.Machine

/-- Settles O3: the state after reset is one state, so each register is read off, for each driver of an access. -/
theorem resetReadsTheResetColumn : Obligations.ResetReadsTheResetColumn := by
  refine ⟨fun bus => ?_, rfl, rfl, rfl, rfl, rfl⟩
  cases bus with
  | host => decide +kernel
  | core c =>
    revert c
    decide +kernel
  | debug => decide +kernel

end Sys2Proof.Machine
end

section
/-! PROOFS. Register access: what a read gives and leaves, and what a write of each type does (O9 to O12). -/

namespace Sys2Proof.Machine

/-! ### The register map -/

theorem rowOf_above_blocks {off : Nat} (h : 0x1200000 ≤ off) : rowOf off = none := by
  unfold rowOf regBlock
  split
  case h_19 => rfl
  all_goals omega

/-- The low words of the 64-bit values whose reads latch, outside the counter windows (R39). -/
def lowWords : List Nat :=
  [rSYS_EPOCH_LO, rSYS_BOOT_CVER_LO, rSYS_BOOT_SVER_LO, rAUT_RTC_LO, rAUT_ARB_LO, rGRN_COMMIT_LO, rGRN_MISS_LAST_LO, rLPE_CAP_EPOCH_LO,
   rSTK_TAKE_EPOCH_LO, rTIM_PTP_NS]

theorem lowWords_ro : ∀ o ∈ lowWords, (rowOf o).map RegRow.ty = some .ro := by decide +kernel

theorem cwinLow_ro {off : Nat} (h : rTLY_CWIN_LO 0 ≤ off ∧ off < rTLY_CWIN_LO 8 ∧ off % 8 = 0) :
    (rowOf off).map RegRow.ty = some .ro := by
  have window : ∀ k < 8, (rowOf (rTLY_CWIN_LO k)).map RegRow.ty = some .ro := by decide +kernel
  have hoff : rTLY_CWIN_LO ((off - rTLY_CWIN_LO 0) / 8) = off := by
    simp only [rTLY_CWIN_LO] at h ⊢
    omega
  refine hoff ▸ window _ ?_
  simp only [rTLY_CWIN_LO] at h ⊢
  omega

theorem devLow_ro {off : Nat} (h : rTLY_DEV_LO 0 ≤ off ∧ off < rTLY_DEV_LO 8 ∧ off % 16 = 4) :
    (rowOf off).map RegRow.ty = some .ro := by
  have window : ∀ k < 8, (rowOf (rTLY_DEV_LO k)).map RegRow.ty = some .ro := by decide +kernel
  have hoff : rTLY_DEV_LO ((off - rTLY_DEV_LO 0) / 16) = off := by
    simp only [rTLY_DEV_LO] at h ⊢
    omega
  refine hoff ▸ window _ ?_
  simp only [rTLY_DEV_LO] at h ⊢
  omega

/-- Only the read of a read-only register latches high words (R39). -/
theorem latched_of_not_ro {s : State} {off : Nat} (h : (rowOf off).map RegRow.ty ≠ some .ro) : latched s off = [] := by
  have hlow : ∀ o ∈ lowWords, off ≠ o := fun o ho e => h (e ▸ lowWords_ro o ho)
  simp only [lowWords, List.forall_mem_cons] at hlow
  obtain ⟨h1, h2, h3, h4, h5, h6, h7, h8, h9, h10, -⟩ := hlow
  rw [latched, if_neg h1, if_neg h2, if_neg h3, if_neg h4, if_neg h5, if_neg h6, if_neg h7, if_neg h8, if_neg h9, if_neg h10,
    if_neg (fun hw => h (cwinLow_ro hw)), if_neg (fun hw => h (devLow_ro hw))]

/-! ### Reads -/

theorem pairRead_of_not_ro {s : State} {bus : Bus} {off : Nat} (h : (rowOf off).map RegRow.ty ≠ some .ro) :
    pairRead bus off s = { s with rdata := u64 (busRead s bus off).toNat } := by
  simp only [pairRead, latchPair, latched_of_not_ro h, List.foldl_nil]

theorem rdata_only (s : State) (d : U64) : ChangesOnly [.rdata] s { s with rdata := d } := by
  intro p hp
  cases p
  case rdata => exact absurd hp (by decide)
  all_goals rfl

theorem busRead_of_rowOf_none {s : State} {bus : Bus} {off : Nat} (h : rowOf off = none) : busRead s bus off = 0 := by
  simp only [busRead, h]

theorem busRead_wo {s : State} {bus : Bus} {off : Nat} {row : RegRow} (h : rowOf off = some row) (hw : row.ty = .wo) :
    busRead s bus off = 0 := by
  simp only [busRead, h, hw]

/-- The pop registers of the Ethernet ports (R446, R450). -/
def popRegs : List Nat := [rTIM_ETH_RX_POP 0, rTIM_ETH_RX_POP 1, rTIM_ETH_TXTS_ID 0, rTIM_ETH_TXTS_ID 1]

/-- A read that neither pops nor clears. -/
theorem rcRead_eq_pairRead {s : State} {bus : Bus} {off : Nat} (hp : off ∉ popRegs)
    (h : bus = .debug ∨ (rowOf off).map RegRow.ty ≠ some .rc) : rcRead bus off s = pairRead bus off s := by
  simp only [popRegs, List.mem_cons, List.not_mem_nil, or_false, not_or] at hp
  obtain ⟨h1, h2, h3, h4⟩ := hp
  rw [rcRead, if_neg h1, if_neg h2, if_neg h3, if_neg h4]
  dsimp only
  split
  · rfl
  · rfl
  · next row hne hr =>
    split
    · next hc => exact (h.elim hne fun h => h (by rw [hr, Option.map_some, hc])).elim
    · rfl

/-- A read by a core or the host of a register that clears on read (R12). -/
theorem rcRead_rc {s : State} {bus : Bus} {off : Nat} (hp : off ∉ popRegs) (hw : off ≠ rTSK_WHY) (hb : bus ≠ .debug)
    (h : (rowOf off).map RegRow.ty = some .rc) : rcRead bus off s = wr (pairRead bus off s) off 0 := by
  simp only [popRegs, List.mem_cons, List.not_mem_nil, or_false, not_or] at hp
  obtain ⟨h1, h2, h3, h4⟩ := hp
  obtain ⟨row, hr, hc⟩ := Option.map_eq_some_iff.1 h
  rw [rcRead, if_neg h1, if_neg h2, if_neg h3, if_neg h4]
  simp only [hr, hc, if_neg hw]

/-- The debug port reads its own registers below 0x100; every other 32-bit read in BAR0 is a register read (R10, R525). -/
theorem exec_rcRead {s : State} {bus : Bus} {off : Fin 0x2000000} (hd : bus = .debug → 0x100 ≤ off.val) :
    exec (.rcRead bus (off.castLE (by decide)) false) s = .next (busLoad bus (rcRead bus off s)) := by
  cases bus with
  | debug => simp only [exec, execRcRead, Fin.val_castLE, if_neg (Nat.not_lt.2 (hd rfl)), busLoad]
  | host | core c => simp only [exec, execRcRead, readAcc, Fin.val_castLE, if_pos off.isLt, Bool.false_eq_true, if_false]

/-! ### Writes -/

/-- A 32-bit write in the register space (R10, R525). -/
theorem exec_registerWrite {s : State} {bus : Bus} {off : Fin 0x2000000} {v : U32} (hd : bus = .debug → 0x100 ≤ off.val) :
    exec (.registerWrite bus off v none) s = busWrite bus off v s := by
  cases bus with
  | debug => simp only [exec, execRegisterWrite, if_neg (Nat.not_lt.2 (hd rfl))]
  | host | core c => simp only [exec, execRegisterWrite, busWriteWide]

/-- A 64-bit write is the write of the upper half where that of the lower half leaves it (R10). -/
theorem exec_registerWrite_wide {s t : State} {bus : Bus} {off up : Fin 0x2000000} {v h : U32} (hb : bus ≠ .debug)
    (hup : up.val = off.val + 4) (e : busWrite bus off v s = .next t) :
    exec (.registerWrite bus off v (some h)) s = exec (.registerWrite bus up h none) t := by
  rw [exec_registerWrite (fun hd => absurd hd hb), hup]
  cases bus with
  | debug => exact absurd rfl hb
  | host | core c => simp only [exec, execRegisterWrite, busWriteWide, e]

theorem busWrite_of_rowOf_none {s : State} {bus : Bus} {off : Nat} {v : U32} (h : rowOf off = none) : busWrite bus off v s = .next s := by
  simp only [busWrite, h]

theorem guardWrite_ignored {s : State} {bus : Bus} {off : Nat} {v : U32} {f : State → State} {row : RegRow} (h : rowOf off = some row)
    (hi : writeReaches s bus row = false ∨ held s = true) : guardWrite s bus off v f = .next s := by
  rcases hi with hi | hi <;> simp [guardWrite, h, hi]

theorem busWrite_ignored {s : State} {bus : Bus} {off : Nat} {v : U32} {row : RegRow} (h : rowOf off = some row)
    (hi : writeReaches s bus row = false ∨ held s = true) : busWrite bus off v s = .next s := by
  simp only [busWrite, h, guardWrite_ignored h hi, ite_self]

/-- The effect of a write that reaches a register: a W1C register clears bits, another takes the effect that its block gives (R12). -/
def regEffect (bus : Bus) (off : Nat) (v : U32) (row : RegRow) : State → State :=
  if row.ty = .w1c then w1c off v else writeEffect bus off v

/-- A write at an offset of the map is guarded, except where only stores of cores act (R424). -/
theorem busWrite_eq_guardWrite {s : State} {bus : Bus} {off : Nat} {v : U32} {row : RegRow} (h : rowOf off = some row)
    (hc : coreRegs off = true → ∃ c, bus = .core c) : busWrite bus off v s = guardWrite s bus off v (regEffect bus off v row) := by
  have hn : (coreRegs off && (busCore bus).isNone) = false := by
    cases hr : coreRegs off with
    | false => rfl
    | true =>
      obtain ⟨c, rfl⟩ := hc hr
      rfl
  simp only [busWrite, h, hn, Bool.false_eq_true, if_false, regEffect]

theorem guardWrite_fault {s : State} {bus : Bus} {off : Nat} {v : U32} {f : State → State} {row : RegRow} (h : rowOf off = some row)
    (hw : writeReaches s bus row = true) (hh : held s = false) (hv : v &&& u32 row.rsv ≠ 0) :
    guardWrite s bus off v f = .fault (.reservedFieldSet off) := by
  simp only [guardWrite, h, hw, hh, Bool.not_true, Bool.or_self, Bool.false_eq_true, if_false, if_pos hv]

/-- A guarded write that sets no reserved field is never stopped. -/
theorem guardWrite_of_no_reserved {s : State} {bus : Bus} {off : Nat} {v : U32} {f : State → State} {row : RegRow}
    (h : rowOf off = some row) (hv : v &&& u32 row.rsv = 0) : ∃ t, guardWrite s bus off v f = .next t := by
  by_cases hi : writeReaches s bus row = false ∨ held s = true
  · exact ⟨s, guardWrite_ignored h hi⟩
  · simp only [not_or, Bool.not_eq_false, Bool.not_eq_true] at hi
    exact ⟨f s, guardWrite_ok ⟨hi.2, row, h, hi.1, hv⟩⟩

theorem writeReaches_of_not_writable {s : State} {bus : Bus} {row : RegRow}
    (h : row.ty = .ro ∨ row.ty = .rc ∨ (row.ty = .rwl ∧ s.sys.setupDone = true)) : writeReaches s bus row = false := by
  rcases h with h | h | ⟨h, hs⟩ <;> simp [writeReaches, windowOpen, *]

/-! ### W1C registers -/

/-- `rg` reads the register table alone. -/
theorem rg_congr {s t : State} (h : t.regs = s.regs) (o : Nat) : rg t o = rg s o := by
  simp only [rg, h]

theorem rg_latchAll (s : State) (o : Nat) : rg (latchAll s) o = rg s o :=
  rg_congr ((latchAll_keeps (Keeps.refl [.cores] s) rfl).only .regs rfl) o

theorem rg_w1c_same (s : State) (off : Nat) (v : U32) :
    rg (w1c off v s) off = (rg s off &&& ~~~ v) ||| (rg s off &&& evtLive (latchAll s) off) := by
  simp only [w1c, rg_wr_same, rg_latchAll]

theorem rg_w1c_ne {s : State} {off : Nat} {v : U32} {o : Nat} (h : o ≠ off) : rg (w1c off v s) o = rg s o := by
  rw [w1c, rg_wr_ne _ _ _ _ h, rg_latchAll]

theorem exec_w1cWrite {s : State} {bus : Bus} {off : Fin 0x2000000} {v : U32} (hw : WriteOk s bus off v)
    (h : (rowOf off).map RegRow.ty = some .w1c) : exec (.w1cWrite bus off v) s = .next (w1c off v s) := by
  obtain ⟨row, hr, hc⟩ := Option.map_eq_some_iff.1 h
  simp only [exec, execW1cWrite, hr, hc, if_true, guardWrite_ok hw]

/-! ### Plain registers -/

/-- The plain configuration registers of the blocks (R34, R77, R378, R461). -/
def plainRegs : List Nat :=
  [rSYS_FRAME_CFG, rGRN_CLOSE_CFG, rGRN_PUB_CFG, rGRN_REPL_CFG, rFUR_CFG, rLPE_TG_CFG, rHRW_ARM_CFG 3, rHRW_ARM_TIME 3, rTIM_CFG,
   rTIM_STEP_THR, rPRT_CFG, rPRT_TEST_CFG, rPRT_SP_CFG, rFLT_CFG, rFLT_FAULTN_CFG, rSTK_CFG, rTSK_CFG]

theorem plainRegs_row : ∀ off ∈ plainRegs, 0x100 ≤ off ∧ coreRegs off = false ∧ (rowOf off).map RegRow.ty ≠ some .w1c := by
  decide +kernel

/-- The dispatch of register writes gives a plain register no effect of its own. -/
theorem writeEffect_plain (bus : Bus) (v : U32) (s : State) : ∀ off ∈ plainRegs, writeEffect bus off v s = plainWrite off v s := by
  simp only [plainRegs, List.forall_mem_cons]
  exact ⟨rfl, rfl, rfl, rfl, rfl, rfl, rfl, rfl, rfl, rfl, rfl, rfl, rfl, rfl, rfl, rfl, rfl, nofun⟩

theorem mergeReg_of_row {s : State} {off : Nat} {v : U32} {row : RegRow} (h : rowOf off = some row) :
    mergeReg s off v = (v &&& u32 row.w) ||| (rg s off &&& ~~~ u32 row.w) := by
  simp only [mergeReg, h]

theorem exec_registerWrite_plain {s : State} {bus : Bus} {off : Fin 0x2000000} {v : U32} (hp : off.val ∈ plainRegs)
    (hw : WriteOk s bus off v) : exec (.registerWrite bus off v none) s = .next (plainWrite off v s) := by
  obtain ⟨hlow, hcore, hty⟩ := plainRegs_row _ hp
  obtain ⟨row, hr, -⟩ := id hw.2
  have hne : row.ty ≠ .w1c := fun h => hty (by rw [hr, Option.map_some, h])
  rw [exec_registerWrite (fun _ => hlow), busWrite_eq_guardWrite hr (by simp [hcore]), guardWrite_ok hw, regEffect, if_neg hne,
    writeEffect_plain _ _ _ _ hp]

/-! ### The obligations -/

/-- A reserved offset is no pop register, for those are mapped. -/
theorem not_popRegs_of_rowOf_none {off : Nat} (h : rowOf off = none) : off ∉ popRegs := by
  have mapped : ∀ o ∈ popRegs, rowOf o ≠ none := by decide +kernel
  exact fun hm => mapped _ hm h

/-- Settles O9: a reserved offset has no row, so it latches, pops and clears nothing, and no write passes the guard. -/
theorem reservedOffsetsReadZeroAndIgnoreWrites : Obligations.ReservedOffsetsReadZeroAndIgnoreWrites := by
  refine ⟨fun off h _ => rowOf_above_blocks h, fun s bus off v h hd => ⟨busRead_of_rowOf_none h, ?_, ?_, ?_⟩⟩
  · have hn (ty : RegTy) : (rowOf off).map RegRow.ty ≠ some ty := by simp [h]
    rw [exec_rcRead hd, rcRead_eq_pairRead (not_popRegs_of_rowOf_none h) (.inr (hn _)), pairRead_of_not_ro (hn _),
      busRead_of_rowOf_none h]
    rfl
  · rw [exec_registerWrite hd, busWrite_of_rowOf_none h]
  · simp only [exec, execW1cWrite, h]

/-- Settles O10: a write at a mapped offset is guarded, and a 64-bit write is two of them. -/
theorem reservedFieldsStopTheWrite : Obligations.ReservedFieldsStopTheWrite := by
  intro s bus off v row hr hd hc
  refine ⟨fun hw hh hv => ?_, fun hi => ?_, fun hv => ?_⟩
  · rw [exec_registerWrite hd, busWrite_eq_guardWrite hr hc, guardWrite_fault hr hw hh hv]
  · rw [exec_registerWrite hd, busWrite_ignored hr hi]
  · obtain ⟨t, ht⟩ := guardWrite_of_no_reserved (s := s) (bus := bus) (f := regEffect bus off v row) hr hv
    have hb : busWrite bus off v s = .next t := (busWrite_eq_guardWrite hr hc).trans ht
    exact ⟨t, (exec_registerWrite hd).trans hb, fun h up hup hne => exec_registerWrite_wide hne hup hb⟩

/-- The bits of a W1C register after the write of `v` (R12). -/
theorem getLsbD_w1c {s : State} {off : Nat} {v : U32} {i : Nat} (hi : i < 32) :
    (rg (w1c off v s) off).getLsbD i = ((rg s off).getLsbD i && (!v.getLsbD i || (evtLive (latchAll s) off).getLsbD i)) := by
  simp only [rg_w1c_same, BitVec.getLsbD_or, BitVec.getLsbD_and, BitVec.getLsbD_not, hi, decide_true, Bool.true_and,
    Bool.and_or_distrib_left]

/-- Settles O11: the types that the guard stops, the bits of a W1C register, and the clearing read. -/
theorem registerTypesHold : Obligations.RegisterTypesHold := by
  refine ⟨fun s bus off v row hr hd => ⟨fun hty => ?_, busRead_wo hr⟩, fun s bus off v hw hty => ?_, fun s bus off hty hne => ?_⟩
  · rw [exec_registerWrite hd, busWrite_ignored hr (.inl (writeReaches_of_not_writable hty))]
  · refine ⟨_, exec_w1cWrite hw hty, ?_, ?_, ?_, fun o ho => rg_w1c_ne ho, (w1c_keeps (Keeps.refl _ s) rfl).only⟩
    · intro i hi hv
      simp [getLsbD_w1c hi, hv]
    · intro i hi hv hl
      simp [getLsbD_w1c hi, hv, hl]
    · intro i hi hv hl
      simp [getLsbD_w1c hi, hv, hl]
  · simp only [List.mem_cons, not_or] at hne
    obtain ⟨hwhy, hpop⟩ := hne
    have hp : off.val ∉ popRegs := by simpa only [popRegs, List.mem_cons, not_or] using hpop
    have hpair := pairRead_of_not_ro (s := s) (bus := bus) (off := off) (by simp [hty])
    refine ⟨fun hb => ⟨_, exec_rcRead (absurd · hb), _, rfl, ?_⟩, fun hb hd => ?_⟩
    · rw [rcRead_rc hp hwhy hb hty, hpair]
      exact ⟨rfl, rg_wr_same _ _ _, fun o ho => rg_wr_ne _ _ _ _ ho,
        ((rdata_only s _).mono rfl).trans ((wr_keeps (Keeps.refl [.regs] _) rfl).only.mono rfl)⟩
    · rw [exec_rcRead fun _ => hd, rcRead_eq_pairRead hp (.inl hb), hpair, hb]
      rfl

/-- Settles O12: the block of a plain register stores the writable bits. -/
theorem plainRegistersStoreWhatIsWritten : Obligations.PlainRegistersStoreWhatIsWritten := by
  intro s bus v off hm h hw
  refine ⟨_, exec_registerWrite_plain hm hw, fun row hr => ?_, fun o ho => rg_wr_ne _ _ _ _ ho, ?_⟩
  · exact (rg_wr_same _ _ _).trans (mergeReg_of_row hr)
  · exact (plainWrite_keeps (Keeps.refl _ s) rfl).only

end Sys2Proof.Machine
end

section
/-! PROOFS. Bad accesses and the events of the host link (O25). -/

namespace Sys2Proof.Machine

theorem bit_or_bitv (w : U32) {i : Nat} (h : i < 32) : bit (w ||| bitv i) i = true := by
  simp only [bit, bitv, BitVec.getLsbD_or, BitVec.getLsbD_ofNat, h, decide_true, Nat.testBit_two_pow_self, Bool.and_self, Bool.or_true]

/-! ### Bad accesses (R11, R56) -/

theorem exec_badAccess (s : State) (isRead : Bool) :
    exec (.bar0BadAccess isRead) s = .next (badAccess isRead s) ∧ exec (.bar2BadAccess isRead) s = .next (badAccess isRead s) := ⟨rfl, rfl⟩

theorem badAccess_inbox (isRead : Bool) (s : State) :
    (badAccess isRead s).flt.inbox = s.flt.inbox ++ [{ source := srcBlk 1 0, code := 0x0040 }] := by
  cases isRead <;> rfl

theorem badAccess_frame (isRead : Bool) (s : State) :
    badAccess isRead s = { s with rdata := (badAccess isRead s).rdata, flt := (badAccess isRead s).flt } := by
  cases isRead <;> rfl

/-! ### Link loss -/

theorem cmdRing_ringLinkDown (s : State) (r k : Nat) :
    cmdRing (ringLinkDown s r) k = if k = r then { cmdRing s r with fetch := none } else cmdRing s k := by
  split
  · next h => exact h ▸ setCmdRing_same s r _
  · next h => exact setCmdRing_ne s r _ k h

theorem cplRing_ringLinkDown (s : State) (r k : Nat) :
    cplRing (ringLinkDown s r) k = if k = r then { cplRing s r with gen := (cplRing s r).gen + 1 } else cplRing s k := by
  split
  · next h => exact h ▸ setCplRing_same _ r _
  · next h => exact setCplRing_ne _ r _ k h

theorem ringLinkDown_due (s : State) (r : Nat) :
    (ringLinkDown s r).hst.stage = s.hst.stage ∧ (ringLinkDown s r).hst.cplDue = s.hst.cplDue := ⟨rfl, rfl⟩

theorem linkDown_hst (s : State) : (linkDown s).hst =
    { ((List.range 4).foldl ringLinkDown s).hst with linkUp := false, linkDown := true, speed := 0, width := 0 } := rfl

/-- The loss of the link leaves staged envelopes and the completions due (R74). -/
theorem linkDown_keeps_due (s : State) : (linkDown s).hst.stage = s.hst.stage ∧ (linkDown s).hst.cplDue = s.hst.cplDue := by
  simp only [linkDown_hst, show List.range 4 = [0, 1, 2, 3] from rfl, List.foldl_cons, List.foldl_nil, ringLinkDown_due, and_self]

/-- What the loss of the link leaves of a ring (R74). -/
theorem linkDown_rings (s : State) {r : Nat} (h : r < 4) :
    cmdRing (linkDown s) r = { cmdRing s r with fetch := none } ∧
    cplRing (linkDown s) r = { cplRing s r with gen := (cplRing s r).gen + 1 } := by
  have hc : cmdRing (linkDown s) r = cmdRing ((List.range 4).foldl ringLinkDown s) r := by simp only [cmdRing, linkDown_hst]
  have hk : cplRing (linkDown s) r = cplRing ((List.range 4).foldl ringLinkDown s) r := by simp only [cplRing, linkDown_hst]
  rw [hc, hk]
  simp only [show List.range 4 = [0, 1, 2, 3] from rfl, List.foldl_cons, List.foldl_nil, cmdRing_ringLinkDown, cplRing_ringLinkDown]
  interval_cases r <;> exact ⟨rfl, rfl⟩

theorem snareLinkDown_hst (s : State) : (snareLinkDown s).hst = s.hst :=
  (snareLinkDown_keeps (Keeps.refl [.regs, .flt, .snr] s) rfl).only .hst rfl

theorem cmdRing_snareLinkDown (s : State) (r : Nat) : cmdRing (snareLinkDown s) r = cmdRing s r := by
  simp only [cmdRing, snareLinkDown_hst]

theorem cplRing_snareLinkDown (s : State) (r : Nat) : cplRing (snareLinkDown s) r = cplRing s r := by
  simp only [cplRing, snareLinkDown_hst]

theorem rg_snareLinkDown {s : State} {o : Nat} (h : o ≠ rSNR_EVT) : rg (snareLinkDown s) o = rg s o := by
  unfold snareLinkDown
  split
  · exact rg_wr_ne _ _ _ _ h
  · rfl

/-- An abandoned dump adds its report and takes none away. -/
theorem mem_inbox_snareLinkDown {s : State} {x : Report} (h : x ∈ s.flt.inbox) : x ∈ (snareLinkDown s).flt.inbox := by
  unfold snareLinkDown
  split
  · exact List.mem_append_left _ h
  · exact h

theorem exec_linkDown (s : State) :
    exec .linkDown s = .next (if s.hst.linkUp then snareLinkDown (linkDown s) else s) := rfl

/-! ### Hot reset -/

/-- A completion ring after a hot reset is empty, in its next life (R63, R75). -/
theorem hotReset_cplRing (s : State) {r : Nat} (h : r < 4) :
    cplRing (hotReset s) r = { pi := 0, ci := 0, gen := (cplRing s r).gen + 1, base := (cplRing s r).gen + 1 } := by
  have hk : cplRing (hotReset s) r = tget {} ((List.range 4).foldl (fun t r => tset {} t r
      { pi := 0, ci := 0, gen := (cplRing s r).gen + 1, base := (cplRing s r).gen + 1 : CplRing }) s.hst.cpl) r := rfl
  rw [hk]
  simp only [show List.range 4 = [0, 1, 2, 3] from rfl, List.foldl_cons, List.foldl_nil]
  interval_cases r <;> simp [tget_tset_ne]

theorem hotReset_only (s : State) : ChangesOnly [.regs, .hst, .grn] s (hotReset s) := by
  intro p hp
  cases p
  case regs | hst | grn => exact absurd hp (by decide)
  all_goals rfl

theorem exec_hotReset (s : State) : exec .hotReset s = .next (hotReset s) := rfl

/-! ### The obligation -/

/-- Settles O25: each event by its lemmas above; a dump that the loss of the link abandons touches no ring. -/
theorem linkEventsReachTheRingsOnly : Obligations.LinkEventsReachTheRingsOnly := by
  intro s
  refine ⟨fun isRead => ?_, fun h => ?_, fun h => ?_, ?_, fun speed width => rfl⟩
  · obtain ⟨h0, h2⟩ := exec_badAccess s isRead
    refine ⟨_, h0, badAccess_inbox isRead s, fun hr => ?_, badAccess_frame isRead s, h2⟩
    rw [hr]
    rfl
  · have e : exec .linkDown s = .next (snareLinkDown (linkDown s)) := by rw [exec_linkDown, if_pos h]
    refine ⟨_, e, ?_⟩
    simp only [snareLinkDown_hst, cmdRing_snareLinkDown, cplRing_snareLinkDown]
    obtain ⟨hstage, hcpl⟩ := linkDown_keeps_due s
    refine ⟨rfl, rfl, ?_, hstage, hcpl, fun r hr => linkDown_rings s hr, ?_⟩
    · rw [rg_snareLinkDown (by decide)]
      exact (congrArg (bit · 0) (rg_wr_same _ _ _)).trans (bit_or_bitv _ (by decide))
    · exact mem_inbox_snareLinkDown (List.mem_append_right _ (List.mem_singleton.2 rfl))
  · rw [exec_linkDown, h]
    rfl
  · refine ⟨_, exec_hotReset s, fun r hr => ?_, rfl, rfl, rfl, rfl, rfl, rfl, rfl, rfl, rfl, fun o ho => rg_wr_ne _ _ _ _ ho,
      rg_wr_same _ _ _, hotReset_only s⟩
    rw [hotReset_cplRing s hr]
    exact ⟨rfl, rfl, rfl, rfl⟩

end Sys2Proof.Machine
end

section
/-! PROOFS. The resets: what POR, PIN, SOFT and FRAME leave, and what a release does (O14). -/

namespace Sys2Proof.Machine

/-! ### Tables -/

/-- A value read from a table is its default or listed. -/
theorem tget_cases {α : Type} (d : α) (t : Tbl α) (k : Nat) : tget d t k = d ∨ ∃ p ∈ t, tget d t k = p.2 := by
  induction t with
  | nil => exact .inl rfl
  | cons p t ih =>
    simp only [tget, List.mem_cons, exists_eq_or_imp]
    split
    · exact .inr (.inl rfl)
    · exact ih.imp id .inr

/-- What holds of the default and of every value that a pass over a table gives holds of every value afterwards. -/
theorem tget_tmap_of {α : Type} [DecidableEq α] {d : α} {f : Nat → α → α} {P : α → Prop} (hd : P d) (hf : ∀ k v, P (f k v))
    (t : Tbl α) (k : Nat) : P (tget d (tmap d t f) k) := by
  obtain h | ⟨p, hp, h⟩ := tget_cases d (tmap d t f) k
  · rw [h]
    exact hd
  · obtain ⟨q, -, rfl⟩ := List.mem_map.1 (List.mem_filter.1 hp).1
    rw [h]
    exact hf _ _

/-! ### POR, PIN and SOFT (R531 to R533, R543) -/

/-- Blocks at their reset values, with the permits clamped, are a converter that is off. -/
theorem BlocksReset.converterOff {t : State} (h : BlocksReset t) (hp : permitClamp t = true) : ConverterOff t := by
  obtain ⟨-, -, -, -, hcmd, -, -, -, -, -, -, -, -, hhrw, -⟩ := h
  refine ⟨fun g => ?_, by rw [hcmd], fun c => by simp [hcell, hhrw, tget], fun n => by simp [permitH, permitL, hp]⟩
  simp [groupBlocked, group, lineAt, turnAt, deblockPending, hcmd, tget]

/-- What a PIN or SOFT reset leaves of `s` in `t`, whose SYS is `x` (R532). -/
def ResetLeaves (s : State) (x : Sys) (t : State) : Prop :=
  BlocksReset t ∧ ConverterOff t ∧ t.sys = x ∧ (∀ o, rg t o = if o = rSYS_CLK_EVT then rg s o else regReset o) ∧
  t.dbg = { en := s.dbg.en } ∧ t.std = s.std ∧ t.mem = s.mem ∧ t.eps = s.eps ∧ t.dma = s.dma

theorem blocksReset_resetCore (s : State) (ram : Bool) : BlocksReset (resetCore s ram) :=
  ⟨rfl, rfl, rfl, rfl, rfl, rfl, rfl, rfl, rfl, rfl, rfl, rfl, rfl, rfl, rfl, rfl, rfl, rfl⟩

theorem rg_resetKeep (s : State) (o : Nat) : rg (resetKeep s) o = if o = rSYS_CLK_EVT then rg s o else regReset o := by
  split
  · next h => exact h ▸ rg_wr_same _ _ _
  · next h => exact rg_wr_ne _ _ _ _ h

theorem resetKeep_leaves {s : State} {x : Sys} (hx : (x.por || x.pin || x.soft) = true) :
    ResetLeaves s x { resetKeep s with sys := x } := by
  have hb : BlocksReset { resetKeep s with sys := x } := blocksReset_resetCore s true
  exact ⟨hb, hb.converterOff hx, rfl, rg_resetKeep s, rfl, rfl, rfl, rfl, rfl⟩

theorem exec_rstNLow (s : State) :
    exec .rstNLow s = .next (if s.sys.por then s else { resetKeep s with sys := { pin := true } }) := rfl

theorem exec_softReset {s : State} {bus : Bus} (h : WriteOk s bus rSYS_RST_CTL 1) :
    exec (.softReset bus) s = .next { resetKeep s with sys := { soft := true } } := guardWrite_ok h

theorem exec_porAssert (s : State) (secs : Nat) : exec (.porAssert secs) s = .next (porAssert secs s) := rfl

theorem blocksReset_porAssert (secs : Nat) (s : State) : BlocksReset (porAssert secs s) := blocksReset_resetCore s false

/-! ### The releases (R85, R110, R533, R534, R548) -/

theorem rg_powerUpVault {s : State} {o : Nat} (h : o ≠ rAUT_EVT) : rg (powerUpVault s) o = rg s o := by
  unfold powerUpVault
  split
  · exact rg_wr_ne _ _ _ _ h
  · rfl

/-- The parts of the standby domain that the vault's entry into ZEROISED and a new device key leave. -/
def standbyKept (x : Std) : Bool × Nat × BitVec 48 × U64 := (x.longLatch, x.longCnt, x.rtcSec, x.arb)

theorem standbyKept_powerUpVault (s : State) : standbyKept (powerUpVault s).std = standbyKept s.std := by
  unfold powerUpVault
  split <;> rfl

theorem devNeed_powerUpVault {s : State} (h : s.std.devNeed = true) : (powerUpVault s).std.devNeed = true := by
  unfold powerUpVault
  split
  · rfl
  · exact h

theorem standbyKept_newDeviceKey (s : State) : standbyKept (newDeviceKey s).std = standbyKept s.std := by
  unfold newDeviceKey
  split <;> rfl

theorem rg_newDeviceKey (s : State) (o : Nat) : rg (newDeviceKey s) o = rg s o :=
  rg_congr ((newDeviceKey_keeps (Keeps.refl [.freeCtr, .std] s) rfl).only .regs rfl) o

/-- A device that needs a key pair has it afterwards (R85). -/
theorem newDeviceKey_devNeed (s : State) : (newDeviceKey s).std.devNeed = false := by
  unfold newDeviceKey
  split
  · rfl
  · next h => simpa using h

theorem newDeviceKey_devPriv {s : State} (h : s.std.devNeed = true) : (newDeviceKey s).std.devPriv.isSome = true := by
  rw [newDeviceKey, if_pos h]
  rfl

theorem rg_resetCause_same (cause : Nat) (s : State) :
    rg (resetCause cause s) rSYS_RST_CAUSE = u32 (cause + b2n s.std.longLatch * 16) := by
  unfold resetCause
  dsimp only
  split <;> exact rg_wr_same _ _ _

theorem rg_resetCause_ne {cause : Nat} {s : State} {o : Nat} (h : o ≠ rSYS_RST_CAUSE) : rg (resetCause cause s) o = rg s o := by
  unfold resetCause
  dsimp only
  split <;> exact rg_wr_ne _ _ _ _ h

/-- The LONG latch is counted and cleared; nothing else of the standby domain that a release shows changes (R534). -/
theorem resetCause_std (cause : Nat) (s : State) :
    standbyKept (resetCause cause s).std =
      (false, if s.std.longLatch then min 0xFFFF (s.std.longCnt + 1) else s.std.longCnt, s.std.rtcSec, s.std.arb) ∧
    (resetCause cause s).std.devNeed = s.std.devNeed ∧ (resetCause cause s).std.devPriv = s.std.devPriv := by
  unfold resetCause
  dsimp only
  split
  · exact ⟨rfl, rfl, rfl⟩
  · next h => simp [standbyKept, h]

theorem rg_standbyPairs {s : State} {o : Nat} (h : o ≠ rAUT_RTC_HI ∧ o ≠ rAUT_ARB_HI) : rg (standbyPairs s) o = rg s o := by
  rw [standbyPairs, rg_wr_ne _ _ _ _ h.2, rg_wr_ne _ _ _ _ h.1]

theorem rg_standbyPairs_rtc (s : State) : rg (standbyPairs s) rAUT_RTC_HI = u32 (s.std.rtcSec.toNat / 2 ^ 32) := by
  rw [standbyPairs, rg_wr_ne _ _ _ _ (by decide), rg_wr_same]

theorem rg_standbyPairs_arb (s : State) : rg (standbyPairs s) rAUT_ARB_HI = hi32 s.std.arb := rg_wr_same _ _ _

/-- A release is the vault and the device key, a state `u` with new challenges, the reset ended and the straps read, then the cause. -/
theorem resetRelease_eq (cause id : Nat) (s : State) : ∃ u, resetRelease cause id s = standbyPairs (resetCause cause u) ∧
    u.regs = (newDeviceKey (powerUpVault s)).regs ∧ u.std = (newDeviceKey (powerUpVault s)).std ∧
    u.sys = { (newDeviceKey (powerUpVault s)).sys with por := false, pin := false, soft := false } ∧
    u.stk = { (newDeviceKey (powerUpVault s)).stk with id := id } := ⟨_, rfl, rfl, rfl, rfl, rfl⟩

/-- What the release of a reset by `cause` leaves of `s` in `t` (R534, R542, R548). -/
def Released (s : State) (cause id : Nat) (t : State) : Prop :=
  t.sys = { s.sys with por := false, pin := false, soft := false } ∧
  rg t rSYS_RST_CAUSE = u32 (cause + b2n s.std.longLatch * 16) ∧ t.stk = { s.stk with id := id } ∧
  t.std.longLatch = false ∧ t.std.longCnt = (if s.std.longLatch then min 0xFFFF (s.std.longCnt + 1) else s.std.longCnt) ∧
  t.std.devNeed = false ∧ (s.std.devNeed = true → t.std.devPriv.isSome = true) ∧
  rg t rAUT_RTC_HI = u32 (s.std.rtcSec.toNat / 2 ^ 32) ∧ rg t rAUT_ARB_HI = hi32 s.std.arb ∧
  (∀ o, o ∉ [rSYS_RST_CAUSE, rAUT_EVT, rAUT_RTC_HI, rAUT_ARB_HI] → rg t o = rg s o) ∧
  ChangesOnly [.regs, .freeCtr, .sys, .std, .aut, .stk, .dbg] s t

theorem newDeviceKey_powerUpVault_only (s : State) : ChangesOnly [.regs, .freeCtr, .std] s (newDeviceKey (powerUpVault s)) :=
  (newDeviceKey_keeps (powerUpVault_keeps (Keeps.refl _ s) rfl) rfl).only

theorem resetRelease_released (cause id : Nat) (s : State) : Released s cause id (resetRelease cause id s) := by
  obtain ⟨u, e, hregs, hstd, hsys, hstk⟩ := resetRelease_eq cause id s
  have hk := newDeviceKey_powerUpVault_only s
  have hc : ChangesOnly [.regs, .std] u (resetCause cause u) := (resetCause_keeps (Keeps.refl _ u) rfl).only
  have hkept : standbyKept u.std = standbyKept s.std := by rw [hstd, standbyKept_newDeviceKey, standbyKept_powerUpVault]
  obtain ⟨hres, hneed, hpriv⟩ := resetCause_std cause u
  simp only [standbyKept, Prod.mk.injEq] at hkept hres
  obtain ⟨hlatch, hcnt, hrtc, harb⟩ := hkept
  rw [hlatch, hcnt, hrtc, harb] at hres
  obtain ⟨rlatch, rcnt, rrtc, rarb⟩ := hres
  have hareas : ChangesOnly _ s (resetRelease cause id s) := (resetRelease_keeps (Keeps.refl _ s) (sub_self _)).only
  rw [e] at hareas ⊢
  refine ⟨?_, ?_, ?_, rlatch, rcnt, ?_, fun h => ?_, ?_, ?_, fun o ho => ?_, hareas⟩
  · exact (hc .sys rfl).trans (hsys.trans (by rw [hk .sys rfl]))
  · rw [rg_standbyPairs (by decide), rg_resetCause_same, hlatch]
  · exact (hc .stk rfl).trans (hstk.trans (by rw [hk .stk rfl]))
  · exact hneed.trans (hstd ▸ newDeviceKey_devNeed _)
  · have := newDeviceKey_devPriv (devNeed_powerUpVault h)
    rw [← hstd, ← hpriv] at this
    exact this
  · rw [rg_standbyPairs_rtc, rrtc]
  · rw [rg_standbyPairs_arb, rarb]
  · simp only [List.mem_cons, List.not_mem_nil, or_false, not_or] at ho
    obtain ⟨h1, h2, h3, h4⟩ := ho
    rw [rg_standbyPairs ⟨h3, h4⟩, rg_resetCause_ne h1, rg_congr hregs, rg_newDeviceKey, rg_powerUpVault h2]

theorem exec_porRelease (s : State) (id : BitVec 3) :
    exec (.porRelease id) s = .next (if s.sys.por then resetRelease 1 id.toNat s else s) := rfl

theorem exec_rstNRelease (s : State) (secs : Nat) (id : BitVec 3) :
    exec (.rstNRelease secs id) s = .next (pinRelease secs id.toNat s) := rfl

theorem exec_softResetRelease (s : State) (id : BitVec 3) :
    exec (.softResetRelease id) s = .next (if s.sys.soft then resetRelease 3 id.toNat s else s) := rfl

/-- The release of PIN records how long RST_N had been low, which nothing that a release shows depends on (R534). -/
theorem pinRelease_released {s : State} (secs id : Nat) (h : s.sys.pin = true) : Released s 2 id (pinRelease secs id s) := by
  have hareas : ChangesOnly _ s (pinRelease secs id s) := (pinRelease_keeps (Keeps.refl _ s) (sub_self _)).only
  rw [pinRelease, if_pos h] at hareas ⊢
  obtain ⟨hsys, hcause, hstk, hlatch, hcnt, hneed, hpriv, hrtc, harb, hregs, -⟩ := resetRelease_released 2 id
    { s with std := { s.std with lowSecs := if s.std.longLatch then max s.std.lowSecs secs else s.std.lowSecs } }
  exact ⟨hsys, hcause, hstk, hlatch, hcnt, hneed, hpriv, hrtc, harb, hregs, hareas⟩

theorem exec_longResetLatch (s : State) : exec .longResetLatch s =
    .next (if s.sys.pin then { s with std := { s.std with longLatch := true, lowSecs := 10 } } else s) := rfl

/-! ### The FRAME reset (R535) -/

/-- A FRAME reset at one ring: one that is not OFF returns there. -/
def ringReset (s : State) (r : Nat) : State := if (ring s r).st = 0 then s else ringClear r s

theorem ring_congr {s t : State} (h : t.fur = s.fur) (k : Nat) : ring t k = ring s k := by
  simp only [ring, h]

theorem snareSig_fur (t sig idx v : Nat) (s : State) : (snareSig t sig idx v s).fur = s.fur :=
  (snareSig_keeps (Keeps.refl [.regs, .flt, .snr] s) rfl).only .fur rfl

theorem intEdge_fur (s : State) (k : Nat) : (intEdge s k).fur = s.fur :=
  (intEdge_keeps (Keeps.refl [.regs, .flt, .ints, .cores] s) rfl).only .fur rfl

/-- A store of ring `r` gives the state codes of the stored ring and of the others. -/
theorem ring_setRing_st (s : State) (r : Nat) (v : Ring) (k : Nat) :
    (ring (setRing s r v) k).st = if k = r then v.st else (ring s k).st := by
  split
  · next h => rw [h, setRing_same]
  · next h => rw [setRing_ne _ _ _ _ h]

theorem ring_ringTo_st (r st : Nat) (s : State) (k : Nat) : (ring (ringTo r st s) k).st = if k = r then st else (ring s k).st := by
  unfold ringTo
  dsimp only
  split
  · next h =>
    split
    · next hk => rw [hk, h]
    · rfl
  · rw [ring_congr (snareSig_fur ..), ring_congr (intEdge_fur ..), ring_setRing_st]

theorem ring_frameLossOff_st (r : Nat) (s : State) (k : Nat) : (ring (frameLossOff r s) k).st = (ring s k).st := by
  unfold frameLossOff
  dsimp only
  split
  · rw [ring_congr (snareSig_fur ..), ring_setRing_st]
    split
    · next h => rw [h]
    · rfl
  · rfl

theorem ring_modRing_st {r : Nat} {f : Ring → Ring} (hf : ∀ x, (f x).st = x.st) (s : State) (k : Nat) :
    (ring (modRing r f s) k).st = (ring s k).st := by
  rw [modRing, ring_setRing_st]
  split
  · next h => rw [hf, h]
  · rfl

/-- A ring's return to OFF ends what waits for it in a state `u`, which changes no state code, and then enters OFF. -/
theorem ringClear_eq (r : Nat) (s : State) : ∃ u, ringClear r s = frameLossOff r (ringTo r 0 (setTx r {} u)) ∧
    (∀ k, (ring u k).st = (ring s k).st) ∧ ∃ p, u.cmd = { s.cmd with pend := p } := by
  refine ⟨_, rfl, fun k => (ring_modRing_st ?_ _ k).trans rfl, _, rfl⟩
  exact fun _ => rfl

theorem ring_ringClear_st (r : Nat) (s : State) (k : Nat) : (ring (ringClear r s) k).st = if k = r then 0 else (ring s k).st := by
  obtain ⟨u, e, hst, -⟩ := ringClear_eq r s
  have ht : (ring (setTx r {} u) k).st = (ring s k).st := hst k
  rw [e, ring_frameLossOff_st, ring_ringTo_st, ht]

/-- Of the command state, a ring's return to OFF changes the pending effects only. -/
theorem ringClear_cmd (r : Nat) (s : State) : ∃ p, (ringClear r s).cmd = { s.cmd with pend := p } := by
  obtain ⟨u, e, -, p, hp⟩ := ringClear_eq r s
  have hc : ChangesOnly [.regs, .flt, .ints, .cores, .fur, .snr] u (ringClear r s) :=
    e ▸ (frameLossOff_keeps (ringTo_keeps (setTx_keeps (Keeps.refl _ u) rfl) rfl) rfl).only
  exact ⟨p, (hc .cmd rfl).trans hp⟩

theorem ring_ringReset_st (s : State) (r k : Nat) : (ring (ringReset s r) k).st = if k = r then 0 else (ring s k).st := by
  unfold ringReset
  split
  · next h =>
    split
    · next hk => rw [hk, h]
    · rfl
  · exact ring_ringClear_st r s k

/-- After a pass over rings, those passed and those that were OFF are OFF. -/
theorem ring_foldl_ringReset_st {l : List Nat} {s : State} {k : Nat} (h : k ∈ l ∨ (ring s k).st = 0) :
    (ring (l.foldl ringReset s) k).st = 0 := by
  induction l generalizing s with
  | nil => simpa using h
  | cons r l ih =>
    refine ih ?_
    rw [ring_ringReset_st]
    by_cases hk : k = r
    · exact .inr (if_pos hk)
    · rw [if_neg hk]
      exact h.imp (fun hm => (List.mem_cons.1 hm).resolve_left hk) id

theorem foldl_ringReset_cmd (l : List Nat) (s : State) : ∃ p, (l.foldl ringReset s).cmd = { s.cmd with pend := p } := by
  induction l generalizing s with
  | nil => exact ⟨_, rfl⟩
  | cons r l ih =>
    obtain ⟨p, hp⟩ := ih (ringReset s r)
    refine ⟨p, hp.trans ?_⟩
    unfold ringReset
    split
    · rfl
    · obtain ⟨q, hq⟩ := ringClear_cmd r s
      rw [hq]

/-- The run-time state reset is the pass over the rings, a state `u`, and what it then clears block by block. -/
theorem frameStateReset_eq (s : State) : ∃ u, (List.range 64).foldl ringReset s = u ∧
    (frameStateReset s).fur.rings = u.fur.rings ∧ (frameStateReset s).cmd = { u.cmd with la := [] } ∧
    (frameStateReset s).hrw.cells = [] ∧ (frameStateReset s).grn.commit = {} ∧ (frameStateReset s).grn.valid = false ∧
    (frameStateReset s).snr.st = 0 ∧ (frameStateReset s).lpe.loops = tmap {} u.lpe.loops (fun _ => loopFrameReset) := by
  have hf : (fun (u : State) r => if (ring u r).st = 0 then u else ringClear r u) = ringReset := rfl
  unfold frameStateReset
  rw [hf]
  generalize (List.range 64).foldl ringReset s = u
  exact ⟨u, rfl, rfl, rfl, rfl, rfl, rfl, rfl, rfl⟩

theorem ring_frameStateReset_st (s : State) {r : Nat} (h : r < 64) : (ring (frameStateReset s) r).st = 0 := by
  obtain ⟨u, rfl, hfur, -⟩ := frameStateReset_eq s
  have := ring_foldl_ringReset_st (s := s) (.inl (List.mem_range.2 h))
  rwa [ring, ← hfur] at this

/-- A FRAME reset keeps the maps of arms, groups and cells. -/
theorem frameStateReset_maps (s : State) : (frameStateReset s).cmd.arms = s.cmd.arms ∧ (frameStateReset s).cmd.groups = s.cmd.groups ∧
    (frameStateReset s).cmd.cells = s.cmd.cells := by
  obtain ⟨u, rfl, -, hcmd, -⟩ := frameStateReset_eq s
  obtain ⟨p, hp⟩ := foldl_ringReset_cmd (List.range 64) s
  rw [hcmd, hp]
  exact ⟨rfl, rfl, rfl⟩

theorem loop_frameStateReset (s : State) (l : Nat) :
    (loop (frameStateReset s) l).enabled = false ∧ (loop (frameStateReset s) l).out = 0 ∧ (loop (frameStateReset s) l).integ = 0 := by
  obtain ⟨u, -, -, -, -, -, -, -, hl⟩ := frameStateReset_eq s
  rw [loop, hl]
  exact tget_tmap_of (f := fun _ => loopFrameReset) (P := fun x => x.enabled = false ∧ x.out = 0 ∧ x.integ = 0) ⟨rfl, rfl, rfl⟩
    (fun _ _ => ⟨rfl, rfl, rfl⟩) _ l

/-- A FRAME reset is the run-time state reset, at the end of the frame in transmission, with frames stopped and the cause recorded. -/
theorem frameReset_eq (s : State) : ∃ u, frameReset s =
      wr { frameStateReset u with sys := { (frameStateReset u).sys with running := false } } rSYS_RST_CAUSE 4 ∧
    ChangesOnly [.tick, .tly] s u :=
  ⟨_, rfl, (Keeps.ite (advanceTo_keeps (Keeps.refl _ s) rfl) (Keeps.refl _ s)).only⟩

theorem frameStateReset_sys (s : State) : (frameStateReset s).sys = s.sys :=
  (frameStateReset_keeps (Keeps.refl [.regs, .flt, .cmd, .ints, .cores, .lpe, .afe, .fur, .grn, .hrw, .snr, .stk] s) rfl).only .sys rfl

theorem exec_frameReset {s : State} {bus : Bus} (h : WriteOk s bus rSYS_RST_CTL 2) : exec (.frameReset bus) s = .next (frameReset s) :=
  guardWrite_ok h

/-- What a FRAME reset leaves (R535). -/
theorem frameReset_leaves (s : State) :
    (frameReset s).sys.running = false ∧ (frameReset s).sys.setupDone = s.sys.setupDone ∧ (∀ r, r < 64 → (ring (frameReset s) r).st = 0) ∧
    (∀ c, hcell (frameReset s) c = {}) ∧ (frameReset s).grn.commit = {} ∧ (frameReset s).grn.valid = false ∧
    (frameReset s).snr.st = 0 ∧
    (∀ l, (loop (frameReset s) l).enabled = false ∧ (loop (frameReset s) l).out = 0 ∧ (loop (frameReset s) l).integ = 0) ∧
    rg (frameReset s) rSYS_RST_CAUSE = 4 ∧
    (frameReset s).cmd.arms = s.cmd.arms ∧ (frameReset s).cmd.groups = s.cmd.groups ∧ (frameReset s).cmd.cells = s.cmd.cells ∧
    ChangesOnly [.tick, .regs, .sys, .flt, .cmd, .ints, .cores, .lpe, .afe, .fur, .grn, .hrw, .snr, .stk, .tly] s (frameReset s) := by
  have hareas : ChangesOnly _ s (frameReset s) := (frameReset_keeps (Keeps.refl _ s) (sub_self _)).only
  obtain ⟨u, e, hu⟩ := frameReset_eq s
  obtain ⟨-, -, -, -, hcells, hcommit, hvalid, hsnr, -⟩ := frameStateReset_eq u
  obtain ⟨harms, hgroups, hmaps⟩ := frameStateReset_maps u
  have hring (r : Nat) (hr : r < 64) := ring_frameStateReset_st u hr
  have hloop := loop_frameStateReset u
  have hcell (c : Nat) : hcell (frameStateReset u) c = {} := by rw [hcell, hcells, tget]
  have hdone : (frameStateReset u).sys.setupDone = s.sys.setupDone := by rw [frameStateReset_sys, hu .sys rfl]
  rw [hu .cmd rfl] at harms hgroups hmaps
  rw [e] at hareas ⊢
  generalize frameStateReset u = v at hcell hcommit hvalid hsnr harms hgroups hmaps hring hloop hdone hareas ⊢
  exact ⟨rfl, hdone, hring, hcell, hcommit, hvalid, hsnr, hloop, rg_wr_same _ _ _, harms, hgroups, hmaps, hareas⟩

/-! ### The obligation -/

/-- POR, PIN and SOFT assert. -/
theorem asserts_reset_every_block (s : State) :
    (∀ secs, Gives (.porAssert secs) s fun t =>
      BlocksReset t ∧ ConverterOff t ∧ t.sys = { por := true } ∧ t.dbg = {} ∧ (∀ o, rg t o = regReset o) ∧ (∀ a, readByte t.mem a = 0) ∧
      t.std = { s.std with lowSecs := t.std.lowSecs } ∧ t.eps = s.eps ∧ t.dma = s.dma) ∧
    (s.sys.por = false → Gives .rstNLow s (ResetLeaves s { pin := true })) ∧
    (s.sys.por = true → exec .rstNLow s = .next s) ∧
    (∀ bus, WriteOk s bus rSYS_RST_CTL 1 → Gives (.softReset bus) s (ResetLeaves s { soft := true })) := by
  refine ⟨fun secs => ?_, fun h => ?_, fun h => ?_, fun bus h => ⟨_, exec_softReset h, resetKeep_leaves rfl⟩⟩
  · have hb := blocksReset_porAssert secs s
    exact ⟨_, exec_porAssert s secs, hb, hb.converterOff rfl, rfl, rfl, fun _ => rfl, fun _ => rfl, rfl, rfl, rfl⟩
  · exact ⟨_, by rw [exec_rstNLow, h]; rfl, resetKeep_leaves rfl⟩
  · rw [exec_rstNLow, if_pos h]

/-- A release where its reset is asserted, and where it is not (R534, R542). -/
theorem releases_end_the_reset (s : State) (id : BitVec 3) (secs : Nat) :
    (s.sys.por = true → Gives (.porRelease id) s (Released s 1 id.toNat)) ∧
    (s.sys.por = false → exec (.porRelease id) s = .next s) ∧
    (s.sys.pin = true → Gives (.rstNRelease secs id) s (Released s 2 id.toNat)) ∧
    (s.sys.pin = false → exec (.rstNRelease secs id) s = .next s) ∧
    (s.sys.soft = true → Gives (.softResetRelease id) s (Released s 3 id.toNat)) ∧
    (s.sys.soft = false → exec (.softResetRelease id) s = .next s) ∧
    (s.sys.pin = true → exec .longResetLatch s = .next { s with std := { s.std with longLatch := true, lowSecs := 10 } }) := by
  refine ⟨fun h => ⟨_, ?_, resetRelease_released 1 _ s⟩, fun h => ?_, fun h => ⟨_, exec_rstNRelease s secs id, pinRelease_released secs _ h⟩,
    fun h => ?_, fun h => ⟨_, ?_, resetRelease_released 3 _ s⟩, fun h => ?_, fun h => ?_⟩
  · rw [exec_porRelease, if_pos h]
  · simp only [exec_porRelease, h, Bool.false_eq_true, if_false]
  · simp only [exec_rstNRelease, pinRelease, h, Bool.false_eq_true, if_false]
  · rw [exec_softResetRelease, if_pos h]
  · simp only [exec_softResetRelease, h, Bool.false_eq_true, if_false]
  · rw [exec_longResetLatch, if_pos h]

/-- Settles O14: the asserted resets, their releases, and the FRAME reset, each by its lemma above. -/
theorem resetsReturnEveryBlock : Obligations.ResetsReturnEveryBlock :=
  ⟨asserts_reset_every_block, releases_end_the_reset, fun s _ h => ⟨_, exec_frameReset h, frameReset_leaves s⟩⟩

end Sys2Proof.Machine
end

section
/-! PROOFS. Time: the idle tick, START and the frame boundaries (O2, O18, O19). -/

namespace Sys2Proof.Machine

/-! ### The passing of time (R19, R519) -/

/-- Time that is not passed yet is reached. -/
theorem advanceTo_tick {s : State} {t : Nat} (h : now s ≤ t) : (advanceTo s t).tick = u64 t := by
  have hk (n : Nat) : (tlyDev 0x48 n s).tick = s.tick := (tlyDev_keeps (Keeps.refl [.tly] s) rfl).only .tick rfl
  have hn (n : Nat) : now (tlyDev 0x48 n s) = now s := congrArg BitVec.toNat (hk n)
  simp only [advanceTo, hn, Nat.max_eq_right h]

theorem advanceTo_only (s : State) (t : Nat) : ChangesOnly [.tick, .tly] s (advanceTo s t) :=
  (advanceTo_keeps (Keeps.refl _ s) rfl).only

theorem step_of_no_command {s : State} (h : s.pending = []) : step s = .next (idle s) := by
  simp only [step, h]

theorem idle_stopped {s : State} (h : s.sys.clkRun = false) : idle s = s := by
  simp only [idle, h, Bool.false_eq_true, if_false]

theorem idle_running {s : State} (h : s.sys.clkRun = true) : idle s = advanceTo s (now s + 1) := if_pos h

theorem idle_only (s : State) : ChangesOnly [.tick, .tly] s (idle s) := by
  cases h : s.sys.clkRun with
  | false =>
    rw [idle_stopped h]
    exact ChangesOnly.refl _ s
  | true =>
    rw [idle_running h]
    exact advanceTo_only s _

/-- One tick further is the next value of the tick count. -/
theorem u64_now_succ (s : State) : u64 (now s + 1) = s.tick + 1 := by
  simp [u64, now, BitVec.ofNat_add]

/-- Settles O2: an idle step is the passing of one tick while the clocks run, and nothing while they do not. -/
theorem emptyQueueLetsOneTickPass : Obligations.EmptyQueueLetsOneTickPass := by
  intro s h
  refine ⟨idle s, step_of_no_command h, idle_stopped, fun hr _ => ?_, idle_only s⟩
  rw [idle_running hr, advanceTo_tick (Nat.le_succ _), u64_now_succ]

/-! ### START (R36) -/

theorem exec_frameStartWrite {s : State} {bus : Bus} {v : U32} (h : WriteOk s bus rSYS_FRAME_CTL v) :
    exec (.frameStartWrite bus v) s = .next (frameStart v s) := guardWrite_ok h

/-- START is accepted where the configuration is good, the PLL is locked and no tick count is awaited (R36). -/
theorem startRefused_eq_false_iff (s : State) :
    startRefused s = false ↔
      fld (rg s rSYS_FRAME_CFG) 1 0 ≠ 3 ∧ (2 ≤ fld (rg s rSYS_FRAME_CFG) 13 8 ∧ fld (rg s rSYS_FRAME_CFG) 13 8 ≤ 40) ∧
      (4 ≤ fld (rg s rSYS_FRAME_CFG) 19 16 ∧ fld (rg s rSYS_FRAME_CFG) 19 16 ≤ 8) ∧ s.sys.pllLock = true ∧ tickReady s = true := by
  simp only [startRefused, Bool.or_eq_false_iff, Bool.not_eq_false', decide_eq_false_iff_not, decide_eq_true_eq, and_assoc, ne_eq]

/-- START while frames run. -/
theorem frameStart_running {s : State} (v : U32) (h : s.sys.running = true) : frameStart v s = s := by
  simp only [frameStart, h, Bool.or_true, if_true]

theorem frameStart_refused {s : State} {v : U32} (hv : bit v 0 = true) (hs : s.sys.running = false) (h : startRefused s = true) :
    frameStart v s = { s with sys := { s.sys with cfgErr := true } } := by
  simp only [frameStart, hv, hs, h, Bool.not_true, Bool.or_false, Bool.false_eq_true, if_false, if_true]

/-- A frame length code below 3 stands for a length (R20). -/
theorem frameTicks_pos {code : Nat} (h : code < 3) : 0 < frameTicks code := by
  interval_cases code <;> decide

/-- While frames run, the frame length is that latched at START. -/
theorem lTicks_running {s : State} (hr : s.sys.running = true) (h : s.sys.flen < 3) : lTicks s = frameTicks s.sys.flen := by
  simp only [lTicks, flenCode, hr, if_true, if_neg (frameTicks_pos h).ne']

/-- The frame lengths that START latches, with frames running (R36). -/
def started (s : State) : State :=
  { s with sys := { s.sys with cfgErr := false, running := true, flen := fld (rg s rSYS_FRAME_CFG) 1 0,
                               period := fld (rg s rSYS_FRAME_CFG) 13 8, la := fld (rg s rSYS_FRAME_CFG) 19 16 } }

/-- An accepted START latches the lengths, sets the first frame's number and drops the maps of arms that do not fit. -/
theorem frameStart_accepted {s : State} {v : U32} (hv : bit v 0 = true) (hs : s.sys.running = false) (h : startRefused s = false) :
    frameStart v s = { started s with
      sys := { (started s).sys with nextJ := now s / lTicks (started s) + 1 },
      cmd := { s.cmd with arms := s.cmd.arms.filter (fun p => armFits (started s) p.2) } } := by
  simp only [frameStart, hv, hs, h, Bool.not_true, Bool.or_false, Bool.false_eq_true, if_false]
  rfl

/-- The latched frame length, where the code is not the reserved one. -/
theorem lTicks_started {s : State} (h : fld (rg s rSYS_FRAME_CFG) 1 0 ≠ 3) :
    lTicks (started s) = frameTicks (fld (rg s rSYS_FRAME_CFG) 1 0) ∧ 0 < frameTicks (fld (rg s rSYS_FRAME_CFG) 1 0) := by
  have hlt : fld (rg s rSYS_FRAME_CFG) 1 0 < 2 ^ 2 := Nat.mod_lt _ (by decide)
  have hcode : fld (rg s rSYS_FRAME_CFG) 1 0 < 3 := by omega
  exact ⟨lTicks_running rfl hcode, frameTicks_pos hcode⟩

/-- Settles O18: START while frames run, refused, and accepted, where the first boundary is the first multiple of L past the tick count. -/
theorem startFollowsTheFrameConfiguration : Obligations.StartFollowsTheFrameConfiguration := by
  intro s bus v hw hv w good
  rw [Gives, exec_frameStartWrite hw]
  refine ⟨fun hr => ?_, fun hr hbad => ?_, fun hr hgood => ⟨_, rfl, ?_⟩⟩
  · rw [frameStart_running v hr]
  · have hrefused : startRefused s = true := Bool.of_not_eq_false fun h => hbad ((startRefused_eq_false_iff s).1 h)
    rw [frameStart_refused hv hr hrefused]
  · obtain ⟨hL, hpos⟩ := lTicks_started hgood.1
    have hareas : ChangesOnly [.sys, .cmd] s (frameStart v s) := (frameStart_keeps (Keeps.refl _ s) rfl).only
    rw [frameStart_accepted hv hr ((startRefused_eq_false_iff s).2 hgood), hL] at hareas ⊢
    refine ⟨rfl, rfl, rfl, rfl, rfl, ?_, ?_, fun x hx => List.mem_of_mem_filter hx, hareas⟩
    · exact Nat.mul_comm _ _ ▸ Nat.lt_mul_div_succ _ hpos
    · rw [Nat.succ_mul]
      exact Nat.add_le_add_right (Nat.div_mul_le_self _ _) _

/-! ### Frame boundaries (R19, R21) -/

theorem exec_frameBoundary (s : State) : exec .frameBoundary s = .next (snareEval (frameBoundary s)) := rfl

/-- Where frames run with the clock, time passes to the boundary, and what happens there follows. -/
theorem frameBoundary_running {s : State} (hr : s.sys.running = true) (hc : s.sys.clkRun = true) :
    frameBoundary s = frameAt s.sys.nextJ
      (advanceTo { s with sys := { s.sys with nextJ := s.sys.nextJ + 1 } } (s.sys.nextJ * lTicks s)) := by
  simp only [frameBoundary, hr, hc, Bool.not_true, Bool.or_self, Bool.false_eq_true, if_false]

/-- What happens at a boundary moves neither time nor the SYS state, and nor does the evaluation of Snare's trigger after it. -/
theorem frameAt_only (j : Nat) (s : State) :
    ChangesOnly [.regs, .dma, .hst, .flt, .cmd, .ints, .cores, .lpe, .afe, .tim, .fur, .grn, .hrw, .prt, .snr, .stk, .tly] s
      (snareEval (frameAt j s)) :=
  (snareEval_keeps (frameAt_keeps (Keeps.refl _ s) (sub_self _)) rfl).only

/-- Settles O19: time passes to the boundary, which nothing that happens there moves. -/
theorem frameBoundariesFollowEachOther : Obligations.FrameBoundariesFollowEachOther := by
  intro s hr hc hle hlt
  have e := exec_frameBoundary s
  refine ⟨_, e, ?_, ?_, (exec_leaves e).only⟩ <;> rw [frameBoundary_running hr hc]
  · rw [frameAt_only _ _ .tick rfl, advanceTo_tick]
    · exact (BitVec.toNat_ofNat _ 64).trans (Nat.mod_eq_of_lt hlt)
    · exact hle
  · exact (frameAt_only _ _ .sys rfl).trans (advanceTo_only _ _ .sys rfl)

end Sys2Proof.Machine
end

section
/-! PROOFS. Loss of the clocks and their return (O15). -/

namespace Sys2Proof.Machine

/-! ### Loss (R17, R33, R359) -/

theorem exec_refclkLost {s : State} (h : s.sys.refclkOk = true) : exec .refclkLost s = .next (clockLost false s) :=
  congrArg Host.Outcome.next (if_pos h)

theorem exec_pllUnlock {s : State} (h : s.sys.pllLock = true) : exec .pllUnlock s = .next (clockLost true s) :=
  congrArg Host.Outcome.next (if_pos h)

theorem clapAssert_only (k : Nat) (s : State) : ChangesOnly [.prt] s (clapAssert k s) :=
  (clapAssert_keeps (Keeps.refl _ s) rfl).only

/-- An enabled Clapper input that is asserted stands asserted (R359). -/
theorem clapAssert_asserted {k : Nat} {s : State} (hk : k < 16) (h : clapEn s k = true) :
    (clapAssert k s).prt.asserted.getLsbD k = true := by
  simp only [clapAssert, if_pos h, BitVec.getLsbD_or, BitVec.getLsbD_ofNat, hk, decide_true, Nat.testBit_two_pow_self, Bool.and_self,
    Bool.or_true]

/-- A loss is a state `u`, in which the event is set and the report sent, with Clapper input 11 asserted then. -/
theorem clockLost_eq (pll : Bool) (s : State) : ∃ u, clockLost pll s = clapAssert 11 u ∧
    u.sys = { s.sys with refclkOk := s.sys.refclkOk && pll, pllLock := s.sys.pllLock && !pll,
                         clkRun := s.sys.clkRun && (!pll && stackClocked s) } ∧
    (∀ o, rg u o = if o = rSYS_CLK_EVT then rg s rSYS_CLK_EVT ||| bitv (b2n pll) else rg s o) ∧
    u.flt = { s.flt with inbox := s.flt.inbox ++ [{ source := 0, code := 0 }] } := by
  refine ⟨_, rfl, rfl, fun o => ?_, rfl⟩
  split
  · next h => exact h ▸ rg_wr_same _ _ _
  · next h => exact rg_wr_ne _ _ _ _ h

/-- What the loss of a clock leaves of `s` in `t`, whose SYS is `x`: `m` is its bit of SYS_CLK_EVT (R17, R33). -/
def ClockLossLeaves (s : State) (x : Sys) (m : U32) (t : State) : Prop :=
  t.sys = x ∧ rg t rSYS_CLK_EVT = rg s rSYS_CLK_EVT ||| m ∧ (∀ o, o ≠ rSYS_CLK_EVT → rg t o = rg s o) ∧
  t.flt = { s.flt with inbox := s.flt.inbox ++ [{ source := 0, code := 0 }] } ∧
  (clapEn s 11 = true → t.prt.asserted.getLsbD 11 = true) ∧ ChangesOnly [.regs, .sys, .flt, .prt] s t

theorem clockLost_leaves (pll : Bool) (s : State) :
    ClockLossLeaves s { s.sys with refclkOk := s.sys.refclkOk && pll, pllLock := s.sys.pllLock && !pll,
                                   clkRun := s.sys.clkRun && (!pll && stackClocked s) } (bitv (b2n pll)) (clockLost pll s) := by
  have hareas : ChangesOnly _ s (clockLost pll s) := (clockLost_keeps (Keeps.refl _ s) (sub_self _)).only
  obtain ⟨u, e, hsys, hrg, hflt⟩ := clockLost_eq pll s
  have hc := clapAssert_only 11 u
  have hregs := rg_congr (hc .regs rfl)
  have hen : clapEn u 11 = clapEn s 11 := congrArg (bit · 9) (hrg _)
  rw [e] at hareas ⊢
  refine ⟨(hc .sys rfl).trans hsys, ?_, fun o ho => ?_, (hc .flt rfl).trans hflt, fun h => ?_, hareas⟩
  · rw [hregs, hrg, if_pos rfl]
  · rw [hregs, hrg, if_neg ho]
  · exact clapAssert_asserted (by decide) (hen.trans h)

/-- The loss of REFCLK; a device that takes its clock from the stack runs on (R492, log entry 42). -/
theorem refclkLost_leaves (s : State) :
    ClockLossLeaves s { s.sys with refclkOk := false, clkRun := s.sys.clkRun && stackClocked s } 1 (clockLost false s) := by
  have h := clockLost_leaves false s
  rwa [Bool.and_false, Bool.not_false, Bool.and_true, Bool.true_and] at h

theorem pllUnlock_leaves (s : State) :
    ClockLossLeaves s { s.sys with pllLock := false, clkRun := false } 2 (clockLost true s) := by
  have h := clockLost_leaves true s
  rwa [Bool.not_true, Bool.and_true, Bool.false_and, Bool.and_false, Bool.and_false] at h

/-! ### The PLL's lock and the clock's return (R397, R542) -/

theorem exec_pllLock {s : State} (h : held s = false) :
    exec .pllLock s = .next (setCore (clocksOn s) 0 { coreTick s (core s 0) with released := true }) := by
  have hl : exec .pllLock s = .next (pllLocked s) := rfl
  rw [hl, pllLocked, h]
  rfl

/-- The clock runs again, the capture of the loss and Snare's trigger follow. -/
theorem exec_clockRecovered {s : State} (h : held s = false) (hc : s.sys.clkRun = false) :
    exec .clockRecovered s = .next (snareEval (tocsinReport 0 (clocksOn s))) := by
  have hr : exec .clockRecovered s = .next (snareEval (clockRecovered s)) := rfl
  rw [hr, clockRecovered, h, hc]
  rfl

theorem clockCapture_only (s : State) :
    ChangesOnly [.regs, .hst, .flt, .cmd, .grn, .snr] s (snareEval (tocsinReport 0 s)) :=
  (snareEval_keeps (tocsinReport_keeps (Keeps.refl _ s) (sub_self _)) rfl).only

/-- Settles O15: both losses by what a loss leaves, the lock, and the return. -/
theorem clockLossAndRecovery : Obligations.ClockLossAndRecovery := by
  intro s
  refine ⟨fun h => ⟨_, exec_refclkLost h, refclkLost_leaves s⟩, fun h => ⟨_, exec_pllUnlock h, pllUnlock_leaves s⟩, fun hh => ?_, fun hh hc => ?_⟩
  · have e := exec_pllLock hh
    exact ⟨_, e, rfl, setCore_same _ _ _, fun c hc => setCore_ne _ _ _ _ hc, (exec_leaves e).only⟩
  · have e := exec_clockRecovered hh hc
    exact ⟨_, e, clockCapture_only (clocksOn s) .sys rfl, (exec_leaves e).only⟩

end Sys2Proof.Machine
end

section
/-! PROOFS. The latched pairs of 64-bit values (O13). -/

namespace Sys2Proof.Machine

/-! ### Words -/

theorem lo32_eq (x : U64) : lo32 x = u32 x.toNat := (BitVec.ofNat_toNat 32 x).symm

theorem hi32_eq (x : U64) : hi32 x = u32 (x.toNat / 2 ^ 32) := by
  refine BitVec.eq_of_toNat_eq ?_
  simp [hi32, u32, Nat.shiftRight_eq_div_pow]

theorem lo32_u64_toNat (w : U32) : lo32 (u64 w.toNat) = w := by
  refine BitVec.eq_of_toNat_eq ?_
  simp [lo32, u64]

/-- A word as read data. -/
theorem toNat_u64_toNat (w : U32) : (u64 w.toNat).toNat = w.toNat :=
  (BitVec.toNat_ofNat _ 64).trans (Nat.mod_eq_of_lt (w.isLt.trans (by decide)))

/-- The halves of a value join to it. -/
theorem toNat_join64_halves (n : Nat) : (join64 (u32 n) (u32 (n / 2 ^ 32))).toNat = n % 2 ^ 64 := by
  simp only [join64, u32, BitVec.toNat_append, BitVec.toNat_ofNat]
  rw [← Nat.shiftLeft_add_eq_or_of_lt (Nat.mod_lt _ (by decide)), Nat.shiftLeft_eq]
  omega

/-! ### The pairs (R39) -/

theorem lowWords_not_popRegs : ∀ o ∈ lowWords, 0x100 ≤ o ∧ o ∉ popRegs := by decide +kernel

theorem nextWords_ro : ∀ o ∈ lowWords, (rowOf (o + 4)).map RegRow.ty = some .ro := by decide +kernel

/-- A read-only register shows live state, or the word stored there. -/
theorem busRead_ro {s : State} {bus : Bus} {off : Nat} (h : (rowOf off).map RegRow.ty = some .ro) :
    busRead s bus off = (liveRead s bus off).getD (rg s off) := by
  obtain ⟨row, hr, ht⟩ := Option.map_eq_some_iff.1 h
  simp only [busRead, hr, ht]

/-- In `s` the register at `lo` shows the low half of `v` and its read latches the high half at `hi`, the next word, and no other. The
register at `hi` shows what is latched there, and its read latches nothing. -/
structure ShowsPair (s : State) (lo hi v : Nat) : Prop where
  low_mem : lo ∈ lowWords
  next : hi = lo + 4
  low : ∀ bus, liveRead s bus lo = some (u32 v)
  latch : latched s lo = [(hi, u32 (v / 2 ^ 32))]
  high : ∀ t bus, liveRead t bus hi = none
  high_latch : ∀ t, latched t hi = []

/-- A pair whose value is a 64-bit word. -/
theorem ShowsPair.of_word {s : State} {lo hi : Nat} {x : U64} (hm : lo ∈ lowWords) (hn : hi = lo + 4)
    (hl : ∀ bus, liveRead s bus lo = some (lo32 x)) (hw : latched s lo = [(hi, hi32 x)]) (hh : ∀ t bus, liveRead t bus hi = none)
    (hz : ∀ t, latched t hi = []) : ShowsPair s lo hi x.toNat :=
  ⟨hm, hn, fun bus => lo32_eq x ▸ hl bus, hi32_eq x ▸ hw, hh, hz⟩

/-- The pairs of one high word each, with the values they show (R39). -/
def latchedPairs (s : State) : List (Nat × Nat × Nat) :=
  [(rSYS_EPOCH_LO, rSYS_EPOCH_HI, epochNow s), (rSYS_BOOT_CVER_LO, rSYS_BOOT_CVER_HI, s.sys.cver.toNat),
   (rSYS_BOOT_SVER_LO, rSYS_BOOT_SVER_HI, s.sys.sver.toNat), (rAUT_RTC_LO, rAUT_RTC_HI, s.std.rtcSec.toNat),
   (rAUT_ARB_LO, rAUT_ARB_HI, s.std.arb.toNat), (rGRN_COMMIT_LO, rGRN_COMMIT_HI, s.grn.commit.k),
   (rGRN_MISS_LAST_LO, rGRN_MISS_LAST_HI, s.grn.missLast.toNat), (rLPE_CAP_EPOCH_LO, rLPE_CAP_EPOCH_HI, s.lpe.cap.epoch.toNat),
   (rSTK_TAKE_EPOCH_LO, rSTK_TAKE_EPOCH_HI, s.stk.takeEpoch)]

theorem latchedPairs_show (s : State) : ∀ p ∈ latchedPairs s, ShowsPair s p.1 p.2.1 p.2.2 := by
  simp only [latchedPairs, List.forall_mem_cons]
  refine ⟨?epoch, ?cver, ?sver, ?rtc, ?arb, ?commit, ?miss, ?cap, ?take, nofun⟩
  case epoch | rtc | commit | take => exact ⟨by decide, rfl, fun _ => rfl, rfl, fun _ _ => rfl, fun _ => rfl⟩
  case cver | sver | arb | miss | cap => exact .of_word (by decide) rfl (fun _ => rfl) rfl (fun _ _ => rfl) (fun _ => rfl)

/-! ### Reads of a pair (R10, R39, R512) -/

theorem exec_latchedPairRead (s : State) (bus : Bus) (off : Fin 0x2000000) :
    exec (.latchedPairRead bus off false) s = .next (busLoad bus (pairRead bus off s)) ∧
    exec (.latchedPairRead bus off true) s = .next (busLoad bus (wideRead (pairRead bus) off s)) := ⟨rfl, rfl⟩

theorem latched_rdata (s : State) (d : U64) (off : Nat) : latched { s with rdata := d } off = latched s off := rfl

section
variable {s : State} {lo hi v : Nat} (h : ShowsPair s lo hi v)
include h

/-- The read of a low word gives it and stores the high half. -/
theorem ShowsPair.pairRead_low (bus : Bus) :
    pairRead bus lo s = wr { s with rdata := u64 (u32 v).toNat } hi (u32 (v / 2 ^ 32)) := by
  simp only [pairRead, latchPair, latched_rdata, h.latch, List.foldl_cons, List.foldl_nil, busRead_ro (lowWords_ro _ h.low_mem), h.low,
    Option.getD_some]

theorem ShowsPair.busRead_high (t : State) (bus : Bus) : busRead t bus hi = rg t hi := by
  rw [busRead_ro (h.next ▸ nextWords_ro _ h.low_mem), h.high, Option.getD_none]

/-- The high word of the pair, after the read of the low one. -/
theorem ShowsPair.busRead_high_latched (bus : Bus) : busRead (pairRead bus lo s) bus hi = u32 (v / 2 ^ 32) := by
  rw [h.busRead_high, h.pairRead_low, rg_wr_same]

theorem ShowsPair.rg_pairRead (bus : Bus) {o : Nat} (ho : o ≠ hi) : rg (pairRead bus lo s) o = rg s o := by
  rw [h.pairRead_low]
  exact rg_wr_ne _ _ _ _ ho

theorem ShowsPair.pairRead_high (t : State) (bus : Bus) : pairRead bus hi t = { t with rdata := u64 (busRead t bus hi).toNat } := by
  simp only [pairRead, latchPair, h.high_latch, List.foldl_nil]

/-- A 64-bit read gives both halves and leaves the rest as the read of the low word does. -/
theorem ShowsPair.wideRead_eq (bus : Bus) :
    wideRead (pairRead bus) lo s = { pairRead bus lo s with rdata := join64 (u32 v) (u32 (v / 2 ^ 32)) } := by
  have hlow : (pairRead bus lo s).rdata = u64 (u32 v).toNat := by rw [h.pairRead_low, wr_rdata]
  simp only [wideRead, ← h.next, h.pairRead_high, h.busRead_high_latched, hlow, lo32_u64_toNat]

end

/-- Settles O13: the nine pairs are shown and latched alike, so one argument reads each of them. -/
theorem lowWordsLatchTheirHighWords : Obligations.LowWordsLatchTheirHighWords := by
  rintro s bus ⟨lo, hi, v⟩ hp hlt
  have h : ShowsPair s lo hi v := latchedPairs_show s _ hp
  obtain ⟨hpop0, hpop⟩ := lowWords_not_popRegs _ h.low_mem
  obtain ⟨e, ewide⟩ := exec_latchedPairRead s bus ⟨lo, hlt⟩
  refine ⟨⟨_, e, ?_, _, rfl, ?_, ?_, fun o ho => h.rg_pairRead bus ho, (pairRead_keeps (Keeps.refl _ s) rfl).only⟩,
    ⟨_, ewide, _, rfl, ?_, fun o ho => ?_, ?_⟩⟩
  · have hread : rcRead bus lo s = pairRead bus lo s := rcRead_eq_pairRead hpop (.inr (by simp [lowWords_ro _ h.low_mem]))
    exact hread ▸ exec_rcRead (off := ⟨lo, hlt⟩) fun _ => hpop0
  · simp only [h.pairRead_low, wr_rdata, toNat_u64_toNat]
    exact BitVec.toNat_ofNat v 32
  · rw [h.busRead_high_latched]
    exact BitVec.toNat_ofNat _ 32
  · rw [h.wideRead_eq]
    exact toNat_join64_halves v
  · rw [h.wideRead_eq]
    exact h.rg_pairRead bus ho
  · exact (wideRead_keeps (Keeps.refl _ s) (fun _ _ hu => pairRead_keeps hu rfl) rfl).only

end Sys2Proof.Machine
end

section
/-! PROOFS. What every step leaves of the posted writes (O7). -/

namespace Sys2Proof.Machine

theorem KeepsMem.dma {ps : List Area} {s t : State} (h : KeepsMem ps s t) : s.dma <+: t.dma := by
  obtain ⟨u, m, k, rfl, -⟩ := h
  exact k.dma

theorem idle_dma (s : State) : (idle s).dma = s.dma := idle_only s .dma rfl

/-- Settles O7: what `exec_leaves` says of a command's posted writes; an idle tick issues none. -/
theorem postedWritesStayInOrder : Obligations.PostedWritesStayInOrder := by
  intro s t e
  unfold step at e
  split at e
  · obtain rfl := Host.Outcome.next.inj e
    exact ⟨[], by rw [idle_dma, List.append_nil]⟩
  · obtain ⟨ws, h⟩ := (exec_leaves e).keepsMem.dma
    exact ⟨ws, h.symm⟩

end Sys2Proof.Machine
end

section
/-! PROOFS. The end of the set-up window (O17). -/

namespace Sys2Proof.Machine

/-! ### The reasons of a refusal (R46, R77) -/

/-- The three conditions under which the window closes. -/
def SetupReady (s : State) : Prop := (List.range 8).any (slotActive s) = true ∧ ringEn s 0 = true ∧ ringEn s 4 = true

/-- Bits 2, 3 and 4 of the reasons are the conditions that fail. -/
theorem setupWhyBits_eq_zero_iff (s : State) : setupWhyBits s = 0 ↔ SetupReady s := by
  simp only [setupWhyBits, SetupReady]
  cases (List.range 8).any (slotActive s) <;> cases ringEn s 0 <;> cases ringEn s 4 <;> decide

theorem bit_refusedWhy (s : State) :
    bit (setupWhyBits s ||| 2) 1 = true ∧ bit (setupWhyBits s ||| 2) 2 = !(List.range 8).any (slotActive s) ∧
    bit (setupWhyBits s ||| 2) 3 = !ringEn s 0 ∧ bit (setupWhyBits s ||| 2) 4 = !ringEn s 4 := by
  simp only [setupWhyBits]
  cases (List.range 8).any (slotActive s) <;> cases ringEn s 0 <;> cases ringEn s 4 <;> decide

/-! ### Protection at the end of set-up (R360) -/

theorem tripChan_crcOn (why : U32) (n : Nat) (s : State) : (tripChan why n s).prt.crcOn = s.prt.crcOn := by
  unfold tripChan
  dsimp only
  split
  · rfl
  · split <;> rfl

theorem holdChan_crcOn (s : State) (n : Nat) : (holdChan s n).prt.crcOn = s.prt.crcOn := by
  unfold holdChan
  dsimp only
  split <;> rfl

/-- A pass of operations that leave a value of the state leaves it. -/
theorem foldl_leaves {α β : Type} {g : State → β} {f : State → α → State} (hf : ∀ u a, g (f u a) = g u) (l : List α) (s : State) :
    g (l.foldl f s) = g s := by
  induction l generalizing s with
  | nil => rfl
  | cons a l ih => exact (ih _).trans (hf s a)

theorem prtSync_prt (s : State) : (prtSync s).prt = s.prt :=
  (prtSync_keeps (Keeps.refl [.regs, .flt, .snr, .stk] s) rfl).only .prt rfl

theorem holdStart_crcOn (s : State) : (holdStart s).prt.crcOn = s.prt.crcOn := by
  unfold holdStart
  exact foldl_leaves (g := fun u => u.prt.crcOn) holdChan_crcOn _ s

/-- The configuration CRC check starts. -/
theorem prtSetupDone_crcOn (s : State) : (prtSetupDone s).prt.crcOn = true := by
  have htrip (u : State) (n : Nat) : (if tripHeld u n then tripChan 0 n u else u).prt.crcOn = u.prt.crcOn := by
    split
    · exact tripChan_crcOn 0 n u
    · rfl
  simp only [prtSetupDone, prtSync_prt, holdStart_crcOn]
  exact foldl_leaves (g := fun u => u.prt.crcOn) htrip _ _

/-! ### The write -/

theorem exec_setUpDoneWrite {s : State} {bus : Bus} {v : U32} (h : WriteOk s bus rSYS_SETUP_DONE v) :
    exec (.setUpDoneWrite bus v) s = .next (setupDoneWrite v s) := guardWrite_ok h

theorem setupDoneWrite_ignored {s : State} {v : U32} (h : v ≠ 1 ∨ s.sys.setupDone = true) : setupDoneWrite v s = s := if_pos h

theorem setupDoneWrite_refused {s : State} (hd : s.sys.setupDone = false) (h : ¬ SetupReady s) :
    setupDoneWrite 1 s = { s with sys := { s.sys with setupWhy := setupWhyBits s ||| 2 } } := by
  have hwhy : setupWhyBits s ≠ 0 := mt (setupWhyBits_eq_zero_iff s).1 h
  simp only [setupDoneWrite, hd, ne_eq, not_true_eq_false, Bool.false_eq_true, or_self, if_false, hwhy, not_false_eq_true, if_true]

/-- The vault at the end of set-up: one in PROVISION becomes READY (R86). -/
theorem vault_ready_eq (u : State) : (if u.std.vault = 1 then { u with std := { u.std with vault := 2 } } else u) =
    { u with std := { u.std with vault := if u.std.vault = 1 then 2 else u.std.vault } } := by
  split <;> rfl

/-- An accepted write closes the window and advances the anti-rollback counter and the vault, a state `u`; then protection follows. -/
theorem setupDoneWrite_accepted {s : State} (hd : s.sys.setupDone = false) (h : SetupReady s) : ∃ u, setupDoneWrite 1 s = prtSetupDone u ∧
    u.sys = { s.sys with setupDone := true, setupWhy := 0 } ∧ u.hrw = { s.hrw with gridDue := true } ∧
    u.std.arb = u64 (max s.std.arb.toNat (min s.sys.cver.toNat s.sys.sver.toNat)) ∧
    u.std.vault = (if s.std.vault = 1 then 2 else s.std.vault) ∧ u.std.slots = s.std.slots := by
  have hwhy : setupWhyBits s = 0 := (setupWhyBits_eq_zero_iff s).2 h
  simp only [setupDoneWrite, hd, ne_eq, not_true_eq_false, Bool.false_eq_true, or_self, if_false, hwhy, vault_ready_eq]
  exact ⟨_, rfl, rfl, rfl, rfl, rfl, rfl⟩

/-- Settles O17: a write that is ignored, one that is accepted, and one that is refused. -/
theorem setupDoneClosesTheWindow : Obligations.SetupDoneClosesTheWindow := by
  intro s bus v hw
  rw [Gives, Gives, exec_setUpDoneWrite hw]
  refine ⟨fun h => ?_, fun hv hd hslot hcmd hcpl => ⟨_, rfl, ?_⟩, fun hv hd hbad => ⟨_, rfl, ?_⟩⟩
  · rw [setupDoneWrite_ignored h]
  · subst hv
    have hareas : ChangesOnly _ s (setupDoneWrite 1 s) := (setupDoneWrite_keeps (Keeps.refl _ s) (sub_self _)).only
    obtain ⟨u, e, hsys, hhrw, harb, hvault, hslots⟩ := setupDoneWrite_accepted hd ⟨hslot, hcmd, hcpl⟩
    have hp : ChangesOnly [.regs, .flt, .prt, .snr, .stk] u (prtSetupDone u) := (prtSetupDone_keeps (Keeps.refl _ u) rfl).only
    rw [e] at hareas ⊢
    rw [hp .sys rfl, hp .std rfl, hp .hrw rfl]
    exact ⟨hsys, harb, hvault, hslots, prtSetupDone_crcOn u, hhrw, hareas⟩
  · subst hv
    have hready : ¬ SetupReady s := fun ⟨hslot, hcmd, hcpl⟩ => by simp [hslot, hcmd, hcpl] at hbad
    obtain ⟨hrefused, hslot, hcmd, hcpl⟩ := bit_refusedWhy s
    rw [setupDoneWrite_refused hd hready]
    exact ⟨hd, hrefused, hslot, hcmd, hcpl, rfl⟩

end Sys2Proof.Machine
end

section
/-! PROOFS. Doorbells and the CFG registers of the rings (O24). -/

namespace Sys2Proof.Machine

/-! ### The indices of a ring -/

theorem cmdRing_setCmdRing (s : State) (r : Nat) (v : CmdRing) (k : Nat) :
    cmdRing (setCmdRing s r v) k = if k = r then v else cmdRing s k := by
  split
  · next h => exact h ▸ setCmdRing_same s r v
  · next h => exact setCmdRing_ne s r v k h

theorem cplRing_setCplRing (s : State) (r : Nat) (v : CplRing) (k : Nat) :
    cplRing (setCplRing s r v) k = if k = r then v else cplRing s k := by
  split
  · next h => exact h ▸ setCplRing_same s r v
  · next h => exact setCplRing_ne s r v k h

@[simp] theorem cplRing_setCmdRing (s : State) (r : Nat) (v : CmdRing) (k : Nat) : cplRing (setCmdRing s r v) k = cplRing s k := rfl
@[simp] theorem cmdRing_setCplRing (s : State) (r : Nat) (v : CplRing) (k : Nat) : cmdRing (setCplRing s r v) k = cmdRing s k := rfl

theorem dbMine_cmd (s : State) {q : Nat} (h : q < 4) : dbMine s q = (cmdRing s q).pi := if_pos h
theorem dbOther_cmd (s : State) {q : Nat} (h : q < 4) : dbOther s q = (cmdRing s q).ci := if_pos h

theorem dbMine_cpl (s : State) {r : Nat} (h : r < 4) : dbMine s (r + 4) = (cplRing s r).ci := by
  simp [dbMine, show r + 4 < 8 by omega]

theorem dbOther_cpl (s : State) {r : Nat} (h : r < 4) : dbOther s (r + 4) = (cplRing s r).pi := by
  simp [dbOther, show r + 4 < 8 by omega]

theorem db_evt (s : State) : dbMine s 8 = s.hst.evtCi ∧ dbOther s 8 = s.hst.evtPi := ⟨rfl, rfl⟩
theorem db_snp (s : State) : dbMine s 9 = s.hst.snpPi ∧ dbOther s 9 = s.hst.snpCi := ⟨rfl, rfl⟩

/-- A ring is a command ring, a completion ring, the event ring or the snapshot ring (R77). -/
theorem ring_cases {P : Nat → Prop} (cmd : ∀ r < 4, P r) (cpl : ∀ r < 4, P (r + 4)) (evt : P 8) (snp : P 9) : ∀ q < 10, P q := by
  intro q hq
  obtain h | h | rfl | rfl : q < 4 ∨ (4 ≤ q ∧ q - 4 < 4) ∨ q = 8 ∨ q = 9 := by omega
  · exact cmd q h
  · exact Nat.sub_add_cancel h.1 ▸ cpl (q - 4) h.2
  · exact evt
  · exact snp

theorem hst_only (s : State) (x : Hst) : ChangesOnly [.hst] s { s with hst := x } := by
  intro p hp
  cases p
  case hst => exact absurd hp (by decide)
  all_goals rfl

/-- Two states agree on the indices of the other rings. -/
theorem db_agree {s t : State} {q : Nat} (hcmd : ∀ r < 4, r ≠ q → cmdRing t r = cmdRing s r)
    (hcpl : ∀ r < 4, r + 4 ≠ q → cplRing t r = cplRing s r) (hevt : 8 ≠ q → t.hst.evtCi = s.hst.evtCi ∧ t.hst.evtPi = s.hst.evtPi)
    (hsnp : 9 ≠ q → t.hst.snpPi = s.hst.snpPi ∧ t.hst.snpCi = s.hst.snpCi) :
    ∀ p < 10, p ≠ q → dbMine t p = dbMine s p ∧ dbOther t p = dbOther s p := by
  refine ring_cases (fun r hr h => ?_) (fun r hr h => ?_) hevt hsnp
  · simp only [dbMine_cmd _ hr, dbOther_cmd _ hr, hcmd r hr h, and_self]
  · simp only [dbMine_cpl _ hr, dbOther_cpl _ hr, hcpl r hr h, and_self]

/-! ### Doorbells (R55 to R58) -/

/-- The index check of R57. -/
def DoorbellPasses (s : State) (q : Nat) (d : U32) : Prop :=
  ringEn s q = true ∧
    (if q < 4 ∨ q = 9 then (d - dbOther s q).toNat ≤ ringN s q ∧ (dbMine s q - dbOther s q).toNat ≤ (d - dbOther s q).toNat
     else (d - dbMine s q).toNat ≤ (dbOther s q - dbMine s q).toNat)

theorem dbOk_iff (s : State) (q : Nat) (d : U32) :
    dbOk (ringEn s q) d (dbMine s q) (dbOther s q) (ringN s q) (hostProduces q) = true ↔ DoorbellPasses s q d := by
  simp only [dbOk, hostProduces, DoorbellPasses, Bool.and_eq_true, decide_eq_true_eq]
  split <;> simp only [Bool.and_eq_true, decide_eq_true_eq]

/-- An accepted doorbell stores its value and leaves every other index. -/
theorem doorbell_accepted {s : State} {d : U32} : ∀ q < 10, DoorbellPasses s q d →
    dbMine (doorbell q d s) q = d ∧ dbOther (doorbell q d s) q = dbOther s q ∧
    (∀ p < 10, p ≠ q → dbMine (doorbell q d s) p = dbMine s p ∧ dbOther (doorbell q d s) p = dbOther s p) ∧
    ChangesOnly [.hst] s (doorbell q d s) := by
  refine ring_cases (fun r hr h => ?_) (fun r hr h => ?_) (fun h => ?_) (fun h => ?_) <;> rw [doorbell, if_pos ((dbOk_iff s _ d).2 h)]
  · rw [if_pos hr]
    refine ⟨?_, ?_, db_agree (fun k _ hk => setCmdRing_ne _ _ _ _ hk) (fun _ _ _ => rfl) (fun _ => ⟨rfl, rfl⟩) fun _ => ⟨rfl, rfl⟩,
      (setCmdRing_keeps (Keeps.refl _ s) rfl).only⟩
    · rw [dbMine_cmd _ hr, setCmdRing_same]
    · rw [dbOther_cmd _ hr, setCmdRing_same, dbOther_cmd _ hr]
  · rw [if_neg (by omega), if_pos (by omega), Nat.add_sub_cancel]
    refine ⟨?_, ?_, db_agree (fun _ _ _ => rfl) (fun k _ hk => setCplRing_ne _ _ _ _ (by omega)) (fun _ => ⟨rfl, rfl⟩) fun _ => ⟨rfl, rfl⟩,
      (setCplRing_keeps (Keeps.refl _ s) rfl).only⟩
    · rw [dbMine_cpl _ hr, setCplRing_same]
    · rw [dbOther_cpl _ hr, setCplRing_same, dbOther_cpl _ hr]
  · exact ⟨rfl, rfl, db_agree (fun _ _ _ => rfl) (fun _ _ _ => rfl) (fun h => absurd rfl h) fun _ => ⟨rfl, rfl⟩, hst_only s _⟩
  · exact ⟨rfl, rfl, db_agree (fun _ _ _ => rfl) (fun _ _ _ => rfl) (fun _ => ⟨rfl, rfl⟩) fun h => absurd rfl h, hst_only s _⟩

/-- A refused doorbell is counted, recorded and reported. -/
theorem doorbell_refused {s : State} {q : Nat} {d : U32} (h : ¬ DoorbellPasses s q d) : doorbell q d s =
    report (setEvt (wr (count s rHST_DBERR_CNT) rHST_DBERR_LAST (u32 q ||| (d <<< 4))) rHST_EVT (bitv 2)) (srcBlk 1 0) 0x0041 :=
  if_neg (mt (dbOk_iff s q d).1 h)

theorem doorbell_refused_leaves {s : State} {q : Nat} {d : U32} (h : ¬ DoorbellPasses s q d) :
    (doorbell q d s).hst = s.hst ∧ rg (doorbell q d s) rHST_DBERR_CNT = satInc (rg s rHST_DBERR_CNT) ∧
    rg (doorbell q d s) rHST_DBERR_LAST = u32 q ||| (d <<< 4) ∧ bit (rg (doorbell q d s) rHST_EVT) 2 = true ∧
    (doorbell q d s).flt.inbox = s.flt.inbox ++ [{ source := srcBlk 1 0, code := 0x0041 }] ∧
    ChangesOnly [.regs, .flt] s (doorbell q d s) := by
  rw [doorbell_refused h]
  refine ⟨rfl, ?_, ?_, ?_, rfl, ?_⟩
  · rw [rg_report, setEvt, rg_wr_ne _ _ _ _ (by decide), rg_wr_ne _ _ _ _ (by decide), rg_count_same]
  · rw [rg_report, setEvt, rg_wr_ne _ _ _ _ (by decide), rg_wr_same]
  · rw [rg_report, rg_setEvt_same]
    exact bit_or_bitv _ (by decide)
  · exact (report_keeps (setEvt_keeps (wr_keeps (count_keeps (Keeps.refl _ s) rfl) rfl) rfl) rfl).only

theorem exec_doorbellWrite (s : State) (off : Fin 65536) (d : U32) : exec (.doorbellWrite off d) s = .next (bar2Write off d s) := rfl

theorem bar2Write_misaligned {off : Nat} (h : off % 4 ≠ 0) (d : U32) (s : State) : bar2Write off d s = badAccess false s := if_pos h

theorem dbRing_eq (off : Nat) : dbRing off = if off % 4 = 0 ∧ off < 0x28 then some (off / 4) else none := by
  by_cases h : off % 4 = 0 <;> simp [dbRing, h]

theorem bar2Write_ignored {off : Nat} {d : U32} {s : State} (ha : off % 4 = 0) (h : 0x28 ≤ off ∨ held s = true) : bar2Write off d s = s := by
  rw [bar2Write, if_neg (not_not.2 ha), dbRing_eq]
  by_cases hr : off < 0x28
  · rw [if_pos ⟨ha, hr⟩]
    exact if_pos (h.resolve_left (by omega))
  · rw [if_neg fun h => hr h.2]

theorem bar2Write_ring {off : Nat} {d : U32} {s : State} (ha : off % 4 = 0) (h : off < 0x28) (hh : held s = false) :
    bar2Write off d s = doorbell (off / 4) d s := by
  rw [bar2Write, if_neg (not_not.2 ha), dbRing_eq, if_pos ⟨ha, h⟩]
  exact if_neg (by simp [hh])

/-- The last accepted index of a ring, 0 from a reserved offset (R55). -/
theorem bar2Read_eq (s : State) (off : Nat) : bar2Read s off = if off % 4 = 0 ∧ off < 0x28 then dbMine s (off / 4) else 0 := by
  by_cases h : off % 4 = 0 ∧ off < 0x28
  · rw [bar2Read, dbRing_eq, if_pos h, if_pos h]
  · rw [bar2Read, dbRing_eq, if_neg h, if_neg h]

/-- A 32-bit read from 0x2000000 up is one of BAR2, which the debug port does not make (R55). -/
theorem exec_bar2Read {s : State} {bus : Bus} {off : Fin 0x2010000} (hb : bus ≠ .debug) (h : 0x2000000 ≤ off.val) :
    exec (.rcRead bus off false) s = .next (busLoad bus { s with rdata := u64 (bar2Read s (off - 0x2000000)).toNat }) := by
  cases bus with
  | debug => exact absurd rfl hb
  | host | core c => simp only [exec, execRcRead, readAcc, if_neg (Nat.not_lt.2 h), Bool.false_eq_true, if_false]

/-! ### The CFG register of a ring (R50, R77) -/

theorem exec_hstRingCfgWrite {s : State} {bus : Bus} {q : Fin 10} {v : U32} (h : WriteOk s bus (ringCfg q) v) :
    exec (.hstRingCfgWrite bus q v) s = .next (ringCfgWrite q v s) := guardWrite_ok h

/-- A mask that holds bits 4 to 0 keeps LOG2N. -/
theorem fld_and_low (w m : U32) (h : m.toNat % 2 ^ 5 = 2 ^ 5 - 1) : fld (w &&& m) 4 0 = fld w 4 0 := by
  simp only [fld, Nat.shiftRight_zero, BitVec.toNat_and]
  rw [Nat.and_mod_two_pow, h, Nat.and_two_pow_sub_one_eq_mod, Nat.mod_mod]

theorem cfgEn_and_geometry (w : U32) : cfgEn (w &&& 0x1F) = false := by
  simp [cfgEn, bit]

theorem cfgEn_and_writable (v : U32) : cfgEn (v &&& 0x11F) = bit v 8 := by
  simp [cfgEn, bit]

/-- A LOG2N alone has EN 0. -/
theorem cfgEn_u32_fld (v : U32) : cfgEn (u32 (fld v 4 0)) = false := by
  have hlt : fld v 4 0 < 2 ^ 5 := Nat.mod_lt _ (by decide)
  simp only [cfgEn, bit, u32, BitVec.getLsbD_ofNat, Nat.testBit_lt_two_pow (hlt.trans_le (show 2 ^ 5 ≤ 2 ^ 8 by decide)), Bool.and_false]

/-- A cleared EN stops the ring. -/
theorem ringStop_stops (s : State) : ∀ q < 10,
    dbMine (ringStop s q) q = 0 ∧ dbOther (ringStop s q) q = 0 ∧ (q < 4 → (cmdRing (ringStop s q) q).fetch = none) := by
  refine ring_cases (fun r hr => ?_) (fun r hr => ?_) ⟨rfl, rfl, (by omega)⟩ ⟨rfl, rfl, (by omega)⟩
  · rw [ringStop, if_pos hr, dbMine_cmd _ hr, dbOther_cmd _ hr, setCmdRing_same]
    exact ⟨rfl, rfl, fun _ => rfl⟩
  · rw [ringStop, if_neg (by omega), if_pos (by omega), dbMine_cpl _ hr, dbOther_cpl _ hr, Nat.add_sub_cancel, setCplRing_same]
    exact ⟨rfl, rfl, by omega⟩

theorem rg_ringStop (s : State) (q o : Nat) : rg (ringStop s q) o = rg s o :=
  rg_congr ((ringStop_keeps (Keeps.refl [.hst, .grn] s) rfl).only .regs rfl) o

theorem ringCfg_ne_evt : ∀ q : Fin 10, ringCfg q ≠ rHST_EVT := by decide

section
variable {s : State} {q : Nat} {v : U32}

theorem ringCfgWrite_kept (he : ringEn s q = true) (hv : bit v 8 = true) : ringCfgWrite q v s = s :=
  (if_pos he).trans (if_pos hv)

theorem ringCfgWrite_cleared (he : ringEn s q = true) (hv : bit v 8 = false) : ringCfgWrite q v s =
    { ringStop (wr s (ringCfg q) (rg s (ringCfg q) &&& 0x1F)) q with
      hst := { (ringStop (wr s (ringCfg q) (rg s (ringCfg q) &&& 0x1F)) q).hst with idxDirty := true } } :=
  (if_pos he).trans (if_neg (by simp [hv]))

theorem ringCfgWrite_stored (he : ringEn s q = false) (hv : bit v 8 = true → 6 ≤ fld v 4 0 ∧ fld v 4 0 ≤ 16) :
    ringCfgWrite q v s = wr s (ringCfg q) (v &&& 0x11F) := by
  have hoff : ¬ cfgEn (rg s (ringCfg q)) = true := Bool.not_eq_true _ ▸ he
  refine (if_neg hoff).trans (if_neg ?_)
  simpa using hv

theorem ringCfgWrite_refused (he : ringEn s q = false) (hv : bit v 8 = true) (hn : fld v 4 0 < 6 ∨ 16 < fld v 4 0) :
    ringCfgWrite q v s = setEvt (wr s (ringCfg q) (u32 (fld v 4 0))) rHST_EVT (bitv 3) := by
  have hoff : ¬ cfgEn (rg s (ringCfg q)) = true := Bool.not_eq_true _ ▸ he
  refine (if_neg hoff).trans (if_pos ?_)
  simp only [hv, Bool.true_and, Bool.not_eq_true', decide_eq_false_iff_not]
  omega

/-- The registers after EN is cleared: the geometry of the ring stays. -/
theorem rg_ringCfgWrite_cleared (he : ringEn s q = true) (hv : bit v 8 = false) (o : Nat) :
    rg (ringCfgWrite q v s) o = if o = ringCfg q then rg s (ringCfg q) &&& 0x1F else rg s o := by
  rw [ringCfgWrite_cleared he hv]
  refine (rg_ringStop _ q o).trans ?_
  split
  · next h => rw [h, rg_wr_same]
  · next h => exact rg_wr_ne _ _ _ _ h

theorem ringCfgWrite_cleared_leaves (hq : q < 10) (he : ringEn s q = true) (hv : bit v 8 = false) :
    ringEn (ringCfgWrite q v s) q = false ∧ ringN (ringCfgWrite q v s) q = ringN s q ∧
    dbMine (ringCfgWrite q v s) q = 0 ∧ dbOther (ringCfgWrite q v s) q = 0 ∧
    (q < 4 → (cmdRing (ringCfgWrite q v s) q).fetch = none) ∧ ∀ o, o ≠ ringCfg q → rg (ringCfgWrite q v s) o = rg s o := by
  have hrg := rg_ringCfgWrite_cleared he hv
  obtain ⟨hmine, hother, hfetch⟩ := ringStop_stops (wr s (ringCfg q) (rg s (ringCfg q) &&& 0x1F)) q hq
  refine ⟨?_, ?_, ?_, ?_, ?_, fun o ho => (hrg o).trans (if_neg ho)⟩
  · rw [ringEn, hrg, if_pos rfl, cfgEn_and_geometry]
  · rw [ringN, hrg, if_pos rfl, cfgN, fld_and_low _ _ (by decide)]
    rfl
  all_goals rw [ringCfgWrite_cleared he hv]
  · exact hmine
  · exact hother
  · exact hfetch

theorem ringCfgWrite_stored_leaves (he : ringEn s q = false) (hv : bit v 8 = true → 6 ≤ fld v 4 0 ∧ fld v 4 0 ≤ 16) :
    ringEn (ringCfgWrite q v s) q = bit v 8 ∧ ringN (ringCfgWrite q v s) q = 2 ^ fld v 4 0 ∧
    (∀ o, o ≠ ringCfg q → rg (ringCfgWrite q v s) o = rg s o) ∧ ChangesOnly [.regs] s (ringCfgWrite q v s) := by
  rw [ringCfgWrite_stored he hv]
  refine ⟨?_, ?_, fun o ho => rg_wr_ne _ _ _ _ ho, (wr_keeps (Keeps.refl _ s) rfl).only⟩
  · rw [ringEn, rg_wr_same, cfgEn_and_writable]
  · rw [ringN, rg_wr_same, cfgN, fld_and_low v 0x11F (by decide)]

theorem ringCfgWrite_refused_leaves (hq : ringCfg q ≠ rHST_EVT) (he : ringEn s q = false) (hv : bit v 8 = true)
    (hn : fld v 4 0 < 6 ∨ 16 < fld v 4 0) :
    ringEn (ringCfgWrite q v s) q = false ∧ bit (rg (ringCfgWrite q v s) rHST_EVT) 3 = true ∧
    ChangesOnly [.regs] s (ringCfgWrite q v s) := by
  rw [ringCfgWrite_refused he hv hn]
  refine ⟨?_, ?_, (setEvt_keeps (wr_keeps (Keeps.refl _ s) rfl) rfl).only⟩
  · rw [ringEn, setEvt, rg_wr_ne _ _ _ _ hq, rg_wr_same, cfgEn_u32_fld]
  · rw [rg_setEvt_same]
    exact bit_or_bitv _ (by decide)

end

/-! ### The obligation -/

/-- Settles O24: the doorbells, the reads of BAR2, and the CFG registers, each case by its lemma above. -/
theorem doorbellsCheckTheirIndex : Obligations.DoorbellsCheckTheirIndex := by
  refine ⟨fun s off d => ?doorbell, fun s bus off hb h => ?read, fun s bus q v hw => ?cfg⟩
  case doorbell =>
    intro q
    rw [Gives, Gives, exec_doorbellWrite]
    refine ⟨fun h => ?_, fun ha h => ?_, fun ha hr hh => ?_⟩
    · rw [bar2Write_misaligned h]
      rfl
    · rw [bar2Write_ignored ha h]
    · rw [bar2Write_ring ha hr hh]
      refine ⟨fun hp => ⟨_, rfl, ?_⟩, fun hp => ⟨_, rfl, doorbell_refused_leaves hp⟩⟩
      obtain ⟨hmine, hother, hothers, hareas⟩ := doorbell_accepted q (by omega) hp
      refine ⟨hmine, fun p hp hne => (hothers p hp hne).1, fun p hp => ?_, hareas⟩
      by_cases hq : p = q
      · exact hq ▸ hother
      · exact (hothers p hp hq).2
  case read =>
    have hring : (off.val - 0x2000000) % 4 = 0 ∧ off.val - 0x2000000 < 0x28 ↔ off.val % 4 = 0 ∧ off.val < 0x2000028 := by omega
    rw [exec_bar2Read hb h, bar2Read_eq]
    simp only [hring]
    split <;> rfl
  case cfg =>
    simp only [Gives, exec_hstRingCfgWrite hw]
    refine ⟨fun he hv => ?_, fun he hv => ⟨_, rfl, ?_⟩, fun he hv h6 h16 => ⟨_, rfl, ?_⟩, fun he hv => ⟨_, rfl, ?_⟩,
      fun he hv hn => ⟨_, rfl, ringCfgWrite_refused_leaves (ringCfg_ne_evt q) he hv hn⟩⟩
    · rw [ringCfgWrite_kept he hv]
    · obtain ⟨hen, hn, hmine, hother, hfetch, hregs⟩ := ringCfgWrite_cleared_leaves q.isLt he hv
      exact ⟨hen, hn, hmine, hother, hfetch, hregs, (ringCfgWrite_keeps (Keeps.refl _ s) rfl).only⟩
    · exact hv ▸ ringCfgWrite_stored_leaves he fun _ => ⟨h6, h16⟩
    · exact hv ▸ ringCfgWrite_stored_leaves he fun h => absurd (h.symm.trans hv) (by decide)

end Sys2Proof.Machine
end

section
/-! PROOFS. Fetches (O26). -/

namespace Sys2Proof.Machine

/-! ### Which ring fetches (R60) -/

/-- The lowest-numbered ring that can fetch, CMD0 first. -/
theorem fetchRing_eq_some_iff (s : State) (two : BitVec 4) (r : Nat) :
    fetchRing s two = some r ↔ r < 4 ∧ canFetch s two r = true ∧ ∀ p, p < r → canFetch s two p = false := by
  simp only [fetchRing, List.find?_range_eq_some, List.mem_range, Bool.not_eq_true']
  exact and_left_comm

theorem exec_commandFetch_some {s : State} {two : BitVec 4} {r : Nat} (h : fetchRing s two = some r) :
    exec (.commandFetch two) s = .next (setCmdRing s r { cmdRing s r with fetch := some (if two.getLsbD r then 2 else 1) }) := by
  simp only [exec, execCommandFetch, h]

theorem exec_commandFetch_none {s : State} {two : BitVec 4} (h : fetchRing s two = none) : exec (.commandFetch two) s = .next s := by
  simp only [exec, execCommandFetch, h]

/-! ### The end of a fetch (R59, R61) -/

theorem cmdRing_congr {s t : State} (h : t.hst = s.hst) (r : Nat) : cmdRing t r = cmdRing s r := by
  simp only [cmdRing, h]

theorem exec_fetchComplete (s : State) (r : Fin 4) (bytes : Bytes) : exec (.fetchComplete r bytes) s = .next (fetchDone r bytes s) := rfl

theorem fetchDone_idle {s : State} {r : Nat} (h : (cmdRing s r).fetch = none) (bytes : Bytes) : fetchDone r bytes s = s := by
  simp only [fetchDone, h]

/-- The slots read are fewer than the envelope takes. -/
theorem fetchDone_short {s : State} {r n : Nat} {bytes : Bytes} (h : (cmdRing s r).fetch = some n) (hn : n < envSlots bytes) :
    fetchDone r bytes s = fetchMore r s := by
  simp only [fetchDone, h, if_pos hn]

/-- The staging entry of the envelope that ring `r` fetches next. -/
def stagedNext (s : State) (r : Nat) (bytes : Bytes) : Staged :=
  { ring := r, slot := (cmdRing s r).ci.toNat % ringN s r, bytes := fit (256 * envSlots bytes) bytes, gen := (cplRing s r).gen }

/-- The whole envelope is staged in a state `u`, and the device counters count its bytes (R519). -/
theorem fetchDone_whole {s : State} {r n : Nat} {bytes : Bytes} (h : (cmdRing s r).fetch = some n) (hn : envSlots bytes ≤ n) :
    ∃ u, fetchDone r bytes s = tlyDev 0x43 (256 * envSlots bytes) u ∧ u.hst.stage = s.hst.stage ++ [stagedNext s r bytes] ∧
      ∀ p, cmdRing u p = cmdRing (setCmdRing s r { cmdRing s r with
        ci := (cmdRing s r).ci + u32 (envSlots bytes), fetch := none, outstanding := (cmdRing s r).outstanding + 1 }) p := by
  simp only [fetchDone, h, if_neg (Nat.not_lt.2 hn)]
  exact ⟨_, rfl, rfl, fun _ => rfl⟩

theorem tlyDev_hst (code n : Nat) (s : State) : (tlyDev code n s).hst = s.hst :=
  (tlyDev_keeps (Keeps.refl [.tly] s) rfl).only .hst rfl

/-! ### A failed fetch (R72) -/

theorem exec_fetchFail (s : State) (r : Fin 4) (cause : Fin 3) :
    exec (.fetchFail r cause) s = .next (fetchFail r (if cause = 0 then 1 else if cause = 1 then 3 else 4) s) := rfl

theorem exec_fetchTimeout (s : State) (r : Fin 4) : exec (.fetchTimeout r) s = .next (fetchFail r 2 s) := rfl

/-- A failed fetch stops its ring, with a completion due, the event and a report. -/
theorem fetchFail_fetching {s : State} {r n : Nat} (h : (cmdRing s r).fetch = some n) (cause : Nat) : fetchFail r cause s =
    report (setEvt (postCpl
      (setCmdRing s r { cmdRing s r with fetch := none, err := true, outstanding := (cmdRing s r).outstanding + 1 })
      { ring := r, gen := (cplRing s r).gen, slot := BitVec.ofNat 16 ((cmdRing s r).ci.toNat % ringN s r),
        status := BitVec.ofNat 16 cause, cls := cRing }) rHST_EVT (bitv 1)) (srcBlk 1 (1 + r)) 0x0042 := by
  simp only [fetchFail, h]

theorem fetchFail_leaves {s : State} {r n : Nat} (h : (cmdRing s r).fetch = some n) (cause : Nat) :
    cmdRing (fetchFail r cause s) r = { cmdRing s r with fetch := none, err := true, outstanding := (cmdRing s r).outstanding + 1 } ∧
    (∀ p, p ≠ r → cmdRing (fetchFail r cause s) p = cmdRing s p) ∧
    (fetchFail r cause s).hst.cplDue = s.hst.cplDue ++ [
      { ring := r, gen := (cplRing s r).gen, slot := BitVec.ofNat 16 ((cmdRing s r).ci.toNat % ringN s r),
        status := BitVec.ofNat 16 cause, cls := cRing }] ∧
    (fetchFail r cause s).hst.stage = s.hst.stage ∧ bit (rg (fetchFail r cause s) rHST_EVT) 1 = true ∧
    (fetchFail r cause s).flt.inbox = s.flt.inbox ++ [{ source := srcBlk 1 (1 + r), code := 0x0042 }] ∧
    ChangesOnly [.regs, .hst, .flt] s (fetchFail r cause s) := by
  refine ⟨?_, ?_, ?_, ?_, ?_, ?_, (fetchFail_keeps (Keeps.refl _ s) rfl).only⟩ <;> rw [fetchFail_fetching h]
  · exact setCmdRing_same _ _ _
  · exact fun p hp => setCmdRing_ne _ _ _ _ hp
  · rfl
  · rfl
  · rw [rg_report, rg_setEvt_same]
    exact bit_or_bitv _ (by decide)
  · rfl

/-! ### The restart of rings (R72) -/

/-- A restart at one ring. -/
def restartRing (v : U32) (s : State) (r : Nat) : State :=
  if bit v r then setCmdRing s r { cmdRing s r with err := false } else s

theorem cmdRing_restartRing (v : U32) (s : State) (r k : Nat) :
    cmdRing (restartRing v s r) k = if k = r ∧ bit v r = true then { cmdRing s k with err := false } else cmdRing s k := by
  unfold restartRing
  split
  · next hv =>
    rw [cmdRing_setCmdRing]
    split
    · next hk => rw [if_pos ⟨hk, hv⟩, hk]
    · next hk => rw [if_neg fun h => hk h.1]
  · next hv => rw [if_neg fun h => hv h.2]

theorem hstRestart_eq (v : U32) (s : State) : hstRestart v s = [0, 1, 2, 3].foldl (restartRing v) s := rfl

theorem cmdRing_hstRestart (v : U32) (s : State) {r : Nat} (h : r < 4) :
    cmdRing (hstRestart v s) r = if bit v r then { cmdRing s r with err := false } else cmdRing s r := by
  simp only [hstRestart_eq, List.foldl_cons, List.foldl_nil, cmdRing_restartRing]
  interval_cases r <;> simp

theorem exec_hstRestartWrite {s : State} {bus : Bus} {v : U32} (h : WriteOk s bus rHST_RESTART v) :
    exec (.hstRestartWrite bus v) s = .next (hstRestart v s) := guardWrite_ok h

/-! ### The obligation -/

/-- Settles O26: the choice of the ring, the fetch's end by the slots read, its failure, and the restart, each by its lemma above. -/
theorem fetchesFollowTheRings : Obligations.FetchesFollowTheRings := by
  intro s
  refine ⟨fetchRing_eq_some_iff s, fun two r h => ?fetch, fun two h => exec_commandFetch_none h, fun r bytes h => ?idle,
    fun r bytes n h => ⟨fun hn => ?whole, fun hn => ?short⟩, fun r n cause h => ?fail, fun bus v hw => ?restart⟩
  case fetch =>
    exact ⟨_, exec_commandFetch_some h, setCmdRing_same _ _ _, fun p hp => setCmdRing_ne _ _ _ _ hp,
      (setCmdRing_keeps (Keeps.refl _ s) rfl).only⟩
  case idle => rw [exec_fetchComplete, fetchDone_idle h]
  case whole =>
    have hareas : ChangesOnly [.hst, .tly] s (fetchDone r bytes s) := (fetchDone_keeps (Keeps.refl _ s) rfl).only
    obtain ⟨u, e, hstage, hring⟩ := fetchDone_whole h hn
    have hhst : (fetchDone r bytes s).hst = u.hst := e ▸ tlyDev_hst _ _ u
    have hring' (p : Nat) := (cmdRing_congr hhst p).trans (hring p)
    refine ⟨_, exec_fetchComplete s r bytes, ?_, ?_, ?_, fun p hp => ?_, (congrArg Hst.stage hhst).trans hstage,
      hareas .aut rfl, hareas .cmd rfl, hareas .grn rfl⟩
    · rw [hring', setCmdRing_same]
      rfl
    · rw [hring', setCmdRing_same]
    · rw [hring', setCmdRing_same]
    · rw [hring', setCmdRing_ne _ _ _ _ hp]
  case short =>
    refine ⟨_, exec_fetchComplete s r bytes, ?_⟩
    rw [fetchDone_short h hn]
    exact ⟨setCmdRing_same _ _ _, fun p hp => setCmdRing_ne _ _ _ _ hp, rfl, (fetchMore_keeps (Keeps.refl _ s) rfl).only⟩
  case fail => exact ⟨⟨_, exec_fetchFail s r cause, fetchFail_leaves h _⟩, ⟨_, exec_fetchTimeout s r, fetchFail_leaves h _⟩⟩
  case restart =>
    exact ⟨_, exec_hstRestartWrite hw, fun r hr => cmdRing_hstRestart v s hr, (hstRestart_keeps (Keeps.refl _ s) rfl).only⟩

end Sys2Proof.Machine
end

section
/-! PROOFS. Completions, events and the index block (O27). -/

namespace Sys2Proof.Machine

/-! ### Which completion goes next (R63) -/

/-- The completion taken is due on the ring, and its flow is neither one of `fs` nor that of one due before it. -/
theorem takeCpl_some {r : Nat} {fs : List Nat} {l rest : List Cpl} {c : Cpl} (h : takeCpl r fs l = some (c, rest)) :
    ∃ a b, l = a ++ c :: b ∧ rest = a ++ b ∧ c.ring = r ∧ (∀ f ∈ fs, c.flow ≠ some f) ∧ ∀ x ∈ a, c.flow ≠ none → x.flow ≠ c.flow := by
  induction l generalizing fs rest with
  | nil => cases h
  | cons x l ih =>
    rw [takeCpl] at h
    split at h
    · next hx =>
      obtain ⟨rfl, rfl⟩ := Prod.mk.inj (Option.some.inj h)
      obtain ⟨hr, hf⟩ := hx
      refine ⟨[], _, rfl, rfl, hr, fun f hm e => ?_, nofun⟩
      simp [e, hm] at hf
    · obtain ⟨⟨d, m⟩, hd, e⟩ := Option.map_eq_some_iff.1 h
      obtain ⟨rfl, rfl⟩ := Prod.mk.inj e
      obtain ⟨a, b, rfl, rfl, hr, hfs, ha⟩ := ih hd
      refine ⟨x :: a, b, rfl, rfl, hr, fun f hm => hfs f (List.mem_append_left _ hm), fun y hy hne => ?_⟩
      obtain rfl | hy := List.mem_cons.1 hy
      · intro hyd
        obtain ⟨f, hf⟩ := Option.ne_none_iff_exists'.1 hne
        exact hfs f (List.mem_append_right _ (by simp [hyd.trans hf])) hf
      · exact ha y hy hne

/-! ### Posted writes (R44) and the state of HST -/

theorem hst_keeps (s : State) (x : Hst) : Keeps [.hst] s { s with hst := x } := Keeps.upd (Keeps.refl _ s) rfl (hst_only s x)

theorem dmaWrite_dma (s : State) (ws : List HostWrite) : (dmaWrite s ws).dma = s.dma ++ ws :=
  congrArg (· ++ ws) ((tlyDev_keeps (Keeps.refl [.tly] s) rfl).only .dma rfl)

theorem dmaWrite_only (s : State) (ws : List HostWrite) : ChangesOnly [.dma, .tly] s (dmaWrite s ws) :=
  (dmaWrite_keeps (Keeps.refl _ s) rfl).only

theorem addr64_congr {s t : State} (h : t.regs = s.regs) (lo hi : Nat) : addr64 t lo hi = addr64 s lo hi := by
  simp only [addr64, rg_congr h]

theorem slice_length (bs : Bytes) (o n : Nat) : (slice bs o n).length = n := by
  simp only [slice, List.length_append, List.length_replicate, List.length_take]
  omega

theorem ringN_congr {s t : State} (h : t.regs = s.regs) (q : Nat) : ringN t q = ringN s q := by
  simp only [ringN, rg_congr h]

theorem ringEn_congr {s t : State} (h : t.regs = s.regs) (q : Nat) : ringEn t q = ringEn s q := by
  simp only [ringEn, rg_congr h]

/-- The rings' configuration stands in registers, not in HST's state. -/
theorem rings_of_hst (s : State) (x : Hst) :
    (∀ q, ringN { s with hst := x } q = ringN s q) ∧ (∀ q, ringEn { s with hst := x } q = ringEn s q) ∧
    ∀ lo hi, addr64 { s with hst := x } lo hi = addr64 s lo hi := ⟨fun _ => rfl, fun _ => rfl, fun _ _ => rfl⟩

/-- The last bytes of an entry: PHASE is 1 on even passes (R65, R67). -/
theorem phase_byte (pi : U32) (n : Nat) :
    ([0, 0, 0, BitVec.ofNat 8 (phase pi n)] : Bytes) = [0, 0, 0, if (pi.toNat / n) % 2 = 0 then 1 else 0] := by
  unfold phase
  split <;> rfl

/-! ### Completions (R63 to R65, R74) -/

/-- The fields of a completion entry's first write at their offsets (R64). -/
theorem cplBytes_fst (c : Cpl) (ph : Nat) : (cplBytes c ph).1.length = 28 ∧ (cplBytes c ph).1.take 8 = leBytes 8 c.seq.toNat ∧
    ((cplBytes c ph).1.drop 24).take 2 = leBytes 2 c.status.toNat := ⟨rfl, rfl, rfl⟩

theorem exec_completionWrite (s : State) (r : Fin 4) : exec (.completionWrite r) s = .next (completionWrite r s) := rfl

theorem completionWrite_none {s : State} {r : Nat} (h : takeCpl r [] s.hst.cplDue = none) : completionWrite r s = s := by
  simp only [completionWrite, h]

/-- Completion `c` is taken from those due on ring `r`, which leaves `rest`: the session that it closes ends, and a command of the ring's present
life is no longer outstanding (R60, R63). -/
def cplTaken (r : Nat) (c : Cpl) (rest : List Cpl) (s : State) : State :=
  let t := { s with hst := { s.hst with cplDue := rest } }
  let t := match c.closes with
    | some id => { t with aut := { t.aut with sess := endSession t id } }
    | none => t
  if (cplRing s r).base ≤ c.gen then setCmdRing t r { cmdRing t r with outstanding := (cmdRing t r).outstanding - 1 } else t

/-- The entry that completion `c` fills on ring `r`, whose state is `k`, in its two writes (R65). -/
def cplWrites (r : Nat) (c : Cpl) (k : CplRing) (s : State) : List HostWrite :=
  let n := ringN s (4 + r)
  let a := addr64 s (rHST_CPL_BASE_LO r) (rHST_CPL_BASE_HI r) + 32 * (k.pi.toNat % n)
  let b := cplBytes c (phase k.pi n)
  [⟨a, b.1⟩, ⟨a + 28, b.2⟩]

/-- Completion `c` is written, and PI of its ring rises. -/
def cplPut (r : Nat) (c : Cpl) (k : CplRing) (s : State) : State :=
  let t := setCplRing (dmaWrite s (cplWrites r c k s)) r { k with pi := k.pi + 1 }
  { t with hst := { t.hst with idxDirty := true } }

theorem completionWrite_some {s : State} {r : Nat} {c : Cpl} {rest : List Cpl} (h : takeCpl r [] s.hst.cplDue = some (c, rest)) :
    completionWrite r s =
      if !(cplTaken r c rest s).hst.linkUp || !ringEn (cplTaken r c rest s) (4 + r) || decide (c.gen ≠ (cplRing s r).gen) then
        setEvt (count (cplTaken r c rest s) rHST_CPL_DISCARD) rHST_EVT (bitv 4)
      else cplPut r c (cplRing s r) (cplTaken r c rest s) := by
  cases hc : c.closes <;> simp only [completionWrite, h, cplTaken, cplPut, cplWrites, hc]

/-- Taking a completion ends the session that it closes (R95), and moves no index. -/
theorem cplTaken_leaves (r : Nat) (c : Cpl) (rest : List Cpl) (s : State) :
    (cplTaken r c rest s).regs = s.regs ∧ (cplTaken r c rest s).dma = s.dma ∧ (cplTaken r c rest s).hst.linkUp = s.hst.linkUp ∧
    (∀ q, cplRing (cplTaken r c rest s) q = cplRing s q) ∧ (cplTaken r c rest s).hst.cplDue = rest ∧
    (cplTaken r c rest s).aut.sess = (match c.closes with | none => s.aut.sess | some id => endSession s id) := by
  cases hc : c.closes <;> simp only [cplTaken, hc]
  all_goals split <;> exact ⟨rfl, rfl, rfl, fun _ => rfl, rfl, rfl⟩

section
variable {s : State} {r : Nat} {c : Cpl} {rest : List Cpl} (h : takeCpl r [] s.hst.cplDue = some (c, rest))
include h

/-- A completion goes with the link up and its ring enabled and unchanged. -/
theorem completionWrite_written (hl : s.hst.linkUp = true) (he : ringEn s (4 + r) = true) (hg : c.gen = (cplRing s r).gen) :
    completionWrite r s = cplPut r c (cplRing s r) (cplTaken r c rest s) := by
  obtain ⟨hregs, -, hlink, -⟩ := cplTaken_leaves r c rest s
  rw [completionWrite_some h, ringEn_congr hregs, hlink, hl, he]
  exact if_neg (by simp [hg])

theorem completionWrite_discarded (hbad : s.hst.linkUp = false ∨ ringEn s (4 + r) = false ∨ c.gen ≠ (cplRing s r).gen) :
    completionWrite r s = setEvt (count (cplTaken r c rest s) rHST_CPL_DISCARD) rHST_EVT (bitv 4) := by
  obtain ⟨hregs, -, hlink, -⟩ := cplTaken_leaves r c rest s
  rw [completionWrite_some h, ringEn_congr hregs, hlink]
  exact if_pos (by simpa [or_assoc] using hbad)

end

theorem cplWrites_entry (r : Nat) (c : Cpl) (k : CplRing) (s : State) :
    ∃ a b, cplWrites r c k s = [
        ⟨addr64 s (rHST_CPL_BASE_LO r) (rHST_CPL_BASE_HI r) + 32 * (k.pi.toNat % ringN s (4 + r)), a⟩,
        ⟨addr64 s (rHST_CPL_BASE_LO r) (rHST_CPL_BASE_HI r) + 32 * (k.pi.toNat % ringN s (4 + r)) + 28, b⟩] ∧
      a.length = 28 ∧ b = [0, 0, 0, if (k.pi.toNat / ringN s (4 + r)) % 2 = 0 then 1 else 0] ∧
      a.take 8 = leBytes 8 c.seq.toNat ∧ (a.drop 24).take 2 = leBytes 2 c.status.toNat := by
  obtain ⟨hlen, hseq, hstatus⟩ := cplBytes_fst c (phase k.pi (ringN s (4 + r)))
  exact ⟨_, _, rfl, hlen, phase_byte _ _, hseq, hstatus⟩

theorem cplPut_leaves (r : Nat) (c : Cpl) (k : CplRing) (s : State) :
    (cplPut r c k s).dma = s.dma ++ cplWrites r c k s ∧ cplRing (cplPut r c k s) r = { k with pi := k.pi + 1 } ∧
    (cplPut r c k s).hst.cplDue = s.hst.cplDue ∧ (cplPut r c k s).aut = s.aut := by
  have hdma := dmaWrite_dma s (cplWrites r c k s)
  have hothers := dmaWrite_only s (cplWrites r c k s)
  unfold cplPut
  generalize dmaWrite s (cplWrites r c k s) = t at hdma hothers ⊢
  have hdue : t.hst.cplDue = s.hst.cplDue := congrArg Hst.cplDue (hothers .hst rfl)
  exact ⟨hdma, setCplRing_same _ _ _, hdue, hothers .aut rfl⟩

/-! ### Events (R67, R68) -/

theorem evtBytes_fst (e : Evt) (lost ph : Nat) :
    (evtBytes e lost ph).1.length = 60 ∧ (evtBytes e lost ph).1.take 8 = leBytes 8 e.epoch.toNat := by
  refine ⟨?_, rfl⟩
  simp only [evtBytes, List.length_append, fit, slice_length, leBytes, List.length_cons, List.length_nil]

theorem exec_eventWrite (s : State) : exec .eventWrite s = .next (eventWrite s) := rfl

/-- Can an event be written (R68). -/
def EvtRoom (s : State) : Prop := s.hst.linkUp = true ∧ ringEn s 8 = true ∧ (s.hst.evtPi - s.hst.evtCi).toNat < ringN s 8

theorem evtRoom_iff (s : State) :
    (s.hst.linkUp && ringEn s 8 && decide ((s.hst.evtPi - s.hst.evtCi).toNat < ringN s 8)) = true ↔ EvtRoom s := by
  simp only [EvtRoom, Bool.and_eq_true, decide_eq_true_eq, and_assoc]

/-- The entry that event `e` fills, in its two writes. -/
def evtWrites (s : State) (e : Evt) : List HostWrite :=
  let a := addr64 s rHST_EVT_BASE_LO rHST_EVT_BASE_HI + 64 * (s.hst.evtPi.toNat % ringN s 8)
  let b := evtBytes e s.hst.lost (phase s.hst.evtPi (ringN s 8))
  [⟨a, b.1⟩, ⟨a + 60, b.2⟩]

/-- Event `e` is written, and PI of the event ring rises. -/
def evtPut (e : Evt) (s : State) : State :=
  let t := dmaWrite s (evtWrites s e)
  setEvt { t with hst := { t.hst with evtPi := s.hst.evtPi + 1, lost := 0, idxDirty := true } } rFLT_EVT (bitv 1)

/-- The first waiting event is written where there is room, else dropped and counted. -/
theorem eventWrite_cons {s : State} {e : Evt} {rest : List Evt} (h : s.hst.evtDue = e :: rest) : eventWrite s =
    if s.hst.linkUp && ringEn s 8 && decide ((s.hst.evtPi - s.hst.evtCi).toNat < ringN s 8) then
      evtPut e { s with hst := { s.hst with evtDue := rest } }
    else setEvt (count { s with hst := { s.hst with evtDue := rest, lost := min (s.hst.lost + 1) 0xFFFF } } rHST_EVT_DROP) rHST_EVT (bitv 5) := by
  simp only [eventWrite, h, evtPut, evtWrites, rings_of_hst]

theorem evtWrites_entry (s : State) (e : Evt) :
    ∃ a b, evtWrites s e = [
        ⟨addr64 s rHST_EVT_BASE_LO rHST_EVT_BASE_HI + 64 * (s.hst.evtPi.toNat % ringN s 8), a⟩,
        ⟨addr64 s rHST_EVT_BASE_LO rHST_EVT_BASE_HI + 64 * (s.hst.evtPi.toNat % ringN s 8) + 60, b⟩] ∧
      a.length = 60 ∧ b = [0, 0, 0, if (s.hst.evtPi.toNat / ringN s 8) % 2 = 0 then 1 else 0] ∧ a.take 8 = leBytes 8 e.epoch.toNat := by
  obtain ⟨hlen, hepoch⟩ := evtBytes_fst e s.hst.lost (phase s.hst.evtPi (ringN s 8))
  exact ⟨_, _, rfl, hlen, phase_byte _ _, hepoch⟩

theorem evtPut_leaves (e : Evt) (s : State) :
    (evtPut e s).dma = s.dma ++ evtWrites s e ∧ (evtPut e s).hst.evtPi = s.hst.evtPi + 1 ∧
    (evtPut e s).hst.evtDue = s.hst.evtDue ∧ (evtPut e s).hst.lost = 0 := by
  have hdma := dmaWrite_dma s (evtWrites s e)
  have hothers := dmaWrite_only s (evtWrites s e)
  unfold evtPut
  generalize dmaWrite s (evtWrites s e) = t at hdma hothers ⊢
  have hdue : t.hst.evtDue = s.hst.evtDue := congrArg Hst.evtDue (hothers .hst rfl)
  exact ⟨hdma, rfl, hdue, rfl⟩

theorem eventWrite_written {s : State} {e : Evt} {rest : List Evt} (h : s.hst.evtDue = e :: rest) (hr : EvtRoom s) :
    ∃ u, eventWrite s = evtPut e u ∧ u.regs = s.regs ∧ u.dma = s.dma ∧ u.hst = { s.hst with evtDue := rest } :=
  ⟨_, (eventWrite_cons h).trans (if_pos ((evtRoom_iff s).2 hr)), rfl, rfl, rfl⟩

theorem eventWrite_dropped {s : State} {e : Evt} {rest : List Evt} (h : s.hst.evtDue = e :: rest) (hr : ¬ EvtRoom s) :
    (eventWrite s).dma = s.dma ∧ (eventWrite s).hst.evtPi = s.hst.evtPi ∧ (eventWrite s).hst.evtDue = rest ∧
    rg (eventWrite s) rHST_EVT_DROP = satInc (rg s rHST_EVT_DROP) ∧ bit (rg (eventWrite s) rHST_EVT) 5 = true ∧
    ChangesOnly [.regs, .hst] s (eventWrite s) := by
  rw [eventWrite_cons h, if_neg (mt (evtRoom_iff s).1 hr)]
  refine ⟨rfl, rfl, rfl, ?_, ?_, ?_⟩
  · rw [setEvt, rg_wr_ne _ _ _ _ (by decide), rg_count_same]
    rfl
  · rw [rg_setEvt_same]
    exact bit_or_bitv _ (by decide)
  · exact (setEvt_keeps (count_keeps ((hst_keeps s _).mono rfl) rfl) rfl).only

/-! ### The index block (R71) -/

theorem indexBytes_head (s : State) : (indexBytes s).length = 64 ∧ (indexBytes s).take 4 = leBytes 4 (cmdRing s 0).ci.toNat := ⟨rfl, rfl⟩

theorem exec_indexBlockWrite (s : State) : exec .indexBlockWrite s = .next (indexBlockWrite s) := rfl

/-- Is the index block due. -/
def IndexDue (s : State) : Prop := bit (rg s rHST_IDX_CTL) 0 = true ∧ s.hst.linkUp = true ∧ s.hst.idxDirty = true

theorem indexDue_iff (s : State) : (bit (rg s rHST_IDX_CTL) 0 && s.hst.linkUp && s.hst.idxDirty) = true ↔ IndexDue s := by
  simp only [IndexDue, Bool.and_eq_true, and_assoc]

theorem indexBlockWrite_due {s : State} (h : IndexDue s) : indexBlockWrite s =
    dmaWrite { s with hst := { s.hst with idxDirty := false } } [⟨addr64 s rHST_IDX_BASE_LO rHST_IDX_BASE_HI, indexBytes s⟩] :=
  if_pos ((indexDue_iff s).2 h)

theorem indexBlockWrite_not_due {s : State} (h : ¬ IndexDue s) : indexBlockWrite s = s := if_neg (mt (indexDue_iff s).1 h)

/-! ### The obligation -/

/-- Settles O27: which completion goes, its writes or its discarding, then the events and the index block, each by its lemma above. -/
theorem ringEntriesAreWrittenAtTheirIndex : Obligations.RingEntriesAreWrittenAtTheirIndex := by
  intro s
  refine ⟨fun r c rest h => ?next, fun r h => ?none, fun r c rest h => ⟨fun hl he hg => ?written, fun hbad => ?discarded⟩,
    fun e rest h => ⟨fun hr => ?event, fun hr => ?dropped⟩, fun hd => ?index, fun hd => ?notDue⟩
  case next =>
    obtain ⟨a, b, hl, hrest, hring, -, hflow⟩ := takeCpl_some h
    exact ⟨a, b, hl, hrest, hring, hflow⟩
  case none => rw [exec_completionWrite, completionWrite_none h]
  case written =>
    obtain ⟨hregs, hdma, -, -, hdue, hsess⟩ := cplTaken_leaves r c rest s
    obtain ⟨hput, hring, hputDue, haut⟩ := cplPut_leaves r c (cplRing s r) (cplTaken r c rest s)
    obtain ⟨a, b, hwrites, hentry⟩ := cplWrites_entry r c (cplRing s r) (cplTaken r c rest s)
    rw [hwrites, hdma, addr64_congr hregs, ringN_congr hregs] at hput
    rw [ringN_congr hregs] at hentry
    refine ⟨_, exec_completionWrite s r, ?_⟩
    rw [completionWrite_written h hl he hg]
    refine ⟨⟨a, b, hput, hentry⟩, ?_, ?_, hputDue.trans hdue, (congrArg Aut.sess haut).trans hsess⟩
    · rw [hring]
    · rw [hring]
  case discarded =>
    obtain ⟨hregs, hdma, -, hcpl, hdue, hsess⟩ := cplTaken_leaves r c rest s
    refine ⟨_, exec_completionWrite s r, ?_⟩
    rw [completionWrite_discarded h hbad]
    refine ⟨hdma, ?_, ?_, hcpl r, hdue, hsess⟩
    · rw [setEvt, rg_wr_ne _ _ _ _ (by decide), rg_count_same, rg_congr hregs]
    · rw [rg_setEvt_same]
      exact bit_or_bitv _ (by decide)
  case event =>
    obtain ⟨u, hu, hregs, hdma, hhst⟩ := eventWrite_written h hr
    obtain ⟨hput, hpi, hdue, hlost⟩ := evtPut_leaves e u
    obtain ⟨a, b, hwrites, hentry⟩ := evtWrites_entry u e
    rw [hwrites, hdma, addr64_congr hregs, ringN_congr hregs, hhst] at hput
    rw [ringN_congr hregs, hhst] at hentry
    rw [hhst] at hpi hdue
    refine ⟨_, exec_eventWrite s, ?_⟩
    rw [hu]
    exact ⟨⟨a, b, hput, hentry⟩, hpi, hdue, hlost⟩
  case dropped =>
    exact ⟨_, exec_eventWrite s, eventWrite_dropped h hr⟩
  case index =>
    obtain ⟨hlen, hci⟩ := indexBytes_head s
    refine ⟨_, exec_indexBlockWrite s, ?_⟩
    rw [indexBlockWrite_due hd]
    exact ⟨⟨_, dmaWrite_dma _ _, hlen, hci⟩, dmaWrite_only _ _ .hst rfl⟩
  case notDue => rw [exec_indexBlockWrite, indexBlockWrite_not_due hd]

end Sys2Proof.Machine
end

section
/-! PROOFS. What a step leaves of the revocation counters (O6). -/

namespace Sys2Proof.Machine

theorem KeepsMem.rev {ps : List Area} {s t : State} (h : KeepsMem ps s t) (w : slotsWf s.std = true) (k : Nat) :
    revOf s.std k ≤ revOf t.std k := by
  obtain ⟨u, m, hk, rfl, -⟩ := h
  exact (hk.rev w).2 k

/-- Settles O6: an idle tick leaves the standby domain, and `exec_leaves` says what a command leaves of the counters. -/
theorem revCntNeverFalls : Obligations.RevCntNeverFalls := by
  intro s t w e k
  unfold step at e
  split at e
  · obtain rfl := Host.Outcome.next.inj e
    rw [idle_only s .std rfl]
  · exact (exec_leaves e).keepsMem.rev w k

end Sys2Proof.Machine
end

section
/-! PROOFS. The boot of the images (O16). -/

namespace Sys2Proof.Machine

/-! ### Byte strings and core memory -/

theorem readByte_writeBytes_outside {m : List Host.Cell} {a k : Nat} {bs : Bytes} (h : k < a ∨ a + bs.length ≤ k) :
    readByte (writeBytes m a bs) k = readByte m k := by
  induction bs generalizing m a with
  | nil => rfl
  | cons b bs ih =>
    rw [List.length_cons] at h
    exact (ih (by omega)).trans (tget_tset_ne (by omega))

theorem readByte_writeBytes_inside {m : List Host.Cell} {a k : Nat} {bs : Bytes} (h : k < bs.length) :
    readByte (writeBytes m a bs) (a + k) = bs[k] := by
  induction bs generalizing m a k with
  | nil => exact absurd h (Nat.not_lt_zero k)
  | cons b bs ih =>
    cases k with
    | zero => exact (readByte_writeBytes_outside (.inl (Nat.lt_succ_self a))).trans (tget_tset_same _ _ _ _)
    | succ k =>
      rw [← Nat.add_assoc, Nat.add_right_comm]
      exact ih (Nat.lt_of_succ_lt_succ h)

theorem fit_length (n : Nat) (bs : Bytes) : (fit n bs).length = n := slice_length bs 0 n

theorem fit_getElem {n k : Nat} {bs : Bytes} (hk : k < bs.length) (hn : k < n) : (fit n bs)[k]'((fit_length n bs).symm ▸ hn) = bs[k] := by
  simp only [fit, slice, List.drop_zero]
  rw [List.getElem_append_left (by rw [List.length_take]; omega), List.getElem_take]

/-! ### The bank that a ROM boots (R539, R540) -/

theorem bankPick_range {s : State} {target i : Nat} {fb : Bool} (h : bankPick s target = some (i, fb)) :
    i = bankBase target ∨ i = bankBase target + 1 := by
  obtain ⟨j, hj, e⟩ := Option.map_eq_some_iff.1 h
  obtain ⟨rfl, -⟩ := Prod.mk.inj e
  have hm := List.mem_of_find?_eq_some hj
  simp only [bankOrder] at hm
  split at hm <;> simp at hm <;> omega

theorem bankHandOver_only (i : Nat) (s : State) : ChangesOnly [.std] s (bankHandOver i s) :=
  (bankHandOver_keeps (Keeps.refl _ s) rfl).only

/-- The hand-over counts a try while the version exceeds the anti-rollback counter. -/
theorem bank_bankHandOver_tries (i : Nat) (s : State) : (bank (bankHandOver i s) i).tries =
    if s.std.arb.toNat < rd (bank s i).env 48 8 then min 3 ((bank s i).tries + 1) else (bank s i).tries := by
  simp only [bankHandOver]
  split
  · exact congrArg Bank.tries (tget_tset_same _ _ _ _)
  · rfl

/-- The run bits of SYS_BOOT_STAT as the two ROMs set them (R547). -/
theorem bit_pack_run {i : Nat} (h : i < 2) (a b : Bool) :
    bit (pack [(0, i), (1, b2n a), (2, b2n b), (6, 1)]) 6 = true ∧ bit (pack [(3, i), (4, b2n a), (5, b2n b), (7, 1)]) 7 = true := by
  interval_cases i <;> cases a <;> cases b <;> exact ⟨rfl, rfl⟩

theorem bit_or_right {w : Nat} (x y : BitVec w) {i : Nat} (h : bit y i = true) : bit (x ||| y) i = true := by
  simp only [bit] at h ⊢
  rw [BitVec.getLsbD_or, h, Bool.or_true]

/-! ### The core image (R542) -/

theorem exec_devkeyOk {s : State} (hh : held s = false) (hk : s.std.devPriv.isSome = true) :
    exec .devkeyOk s = .next { s with aut := { s.aut with devkeyOk := true } } := by
  have hn : s.std.devPriv.isNone = false := by rw [← Option.not_isSome, hk]; rfl
  have he : exec .devkeyOk s = .next (devkeyReady s) := rfl
  rw [he, devkeyReady, hh, hn]
  rfl

theorem exec_coreImageStart (flashOk : Bool) (s : State) : exec (.coreImageStart flashOk) s = .next (coreImageStart flashOk s) := rfl

theorem exec_safetyImageStart (flashOk : Bool) (s : State) : exec (.safetyImageStart flashOk) s = .next (safetyImageStart flashOk s) := rfl

/-- `s` with the image of bank `i` handed over and its start shown in SYS_BOOT_STAT by the bits `w` (R540, R547). -/
def bootShown (i : Nat) (w : U32) (s : State) : State :=
  wr (bankHandOver i s) rSYS_BOOT_STAT (rg (bankHandOver i s) rSYS_BOOT_STAT ||| w)

theorem bootShown_only (i : Nat) (w : U32) (s : State) : ChangesOnly [.regs, .std] s (bootShown i w s) :=
  (wr_keeps (bankHandOver_keeps (Keeps.refl _ s) rfl) rfl).only

theorem rg_bootShown (i : Nat) (w : U32) (s : State) : rg (bootShown i w s) rSYS_BOOT_STAT = rg s rSYS_BOOT_STAT ||| w := by
  rw [bootShown, rg_wr_same, rg_congr (bankHandOver_only i s .regs rfl)]

theorem rg_bootShown_ne {i : Nat} {w : U32} {s : State} {o : Nat} (h : o ≠ rSYS_BOOT_STAT) : rg (bootShown i w s) o = rg s o := by
  rw [bootShown, rg_wr_ne _ _ _ _ h, rg_congr (bankHandOver_only i s .regs rfl)]

section
variable {s : State} (hh : held s = false) (hp : s.sys.pllLock = true)
include hh hp

/-- With a bank to boot, the core ROM copies the image and core 0 enters it. -/
theorem coreImageStart_picked (hb : bit (rg s rSYS_BOOT_STAT) 6 = false) {i : Nat} {fb : Bool} (hk : bankPick s 1 = some (i, fb)) :
    ∃ w u, bit w 6 = true ∧ coreImageStart true s = setCore u 0 { coreTick u (core u 0) with pc := 0x40000000, priv := 3, released := true } ∧
      u = { bootShown i w s with
        sys := { (bootShown i w s).sys with cver := u64 (rd (bank s i).env 48 8) },
        mem := writeBytes (bootShown i w s).mem 0x40000000 (fit (rd (bank s i).env 36 4) (bank s i).image) } := by
  have hi : i < 2 := by
    obtain rfl | rfl := bankPick_range hk <;> decide
  refine ⟨_, _, (bit_pack_run hi fb (decide (rd (bank s i).env 34 1 = 0xFF))).1, ?_, rfl⟩
  simp only [coreImageStart, hh, hp, hb, hk, Bool.not_true, Bool.or_self, Bool.false_eq_true, if_false]
  rfl

theorem safetyImageStart_picked (hb : bit (rg s rSYS_BOOT_STAT) 7 = false) {i : Nat} {fb : Bool} (hk : bankPick s 2 = some (i, fb)) :
    ∃ w, bit w 7 = true ∧ safetyImageStart true s =
      { bootShown i w s with
        sys := { (bootShown i w s).sys with sver := u64 (rd (bank s i).env 48 8) },
        prt := { (bootShown i w s).prt with sp := true } } := by
  have hi : i - 2 < 2 := by
    obtain rfl | rfl := bankPick_range hk <;> decide
  refine ⟨_, (bit_pack_run hi fb (decide (rd (bank s i).env 34 1 = 0xFF))).2, ?_⟩
  simp only [safetyImageStart, hh, hp, hb, hk, Bool.not_true, Bool.or_self, Bool.false_eq_true, if_false, if_true]
  rfl

theorem coreImageStart_none (hb : bit (rg s rSYS_BOOT_STAT) 6 = false) (hk : bankPick s 1 = none) :
    coreImageStart true s = bootFail 1 s := by
  simp only [coreImageStart, hh, hp, hb, hk, Bool.not_true, Bool.or_self, Bool.false_eq_true, if_false]

end

/-- The first failure is shown (R541). -/
theorem fld_bootFail {code : Nat} {s : State} (hc : code < 8) (h : fld (rg s rSYS_BOOT_STAT) 10 8 = 0) :
    fld (rg (bootFail code s) rSYS_BOOT_STAT) 10 8 = code := by
  have hn : (u32 (code * 2 ^ 8)).toNat = code <<< 8 := by
    rw [u32, BitVec.toNat_ofNat, Nat.shiftLeft_eq]
    exact Nat.mod_eq_of_lt (by omega)
  simp only [bootFail, if_pos h, rg_wr_same]
  simp only [fld] at h ⊢
  rw [BitVec.toNat_or, hn, Nat.shiftRight_or_distrib, Nat.or_mod_two_pow, h, Nat.shiftLeft_shiftRight, Nat.zero_or]
  exact Nat.mod_eq_of_lt hc

theorem bootFail_only (code : Nat) (s : State) : ChangesOnly [.regs] s (bootFail code s) :=
  (bootFail_keeps (Keeps.refl _ s) rfl).only

/-- Settles O16: the device key, the two starts from the bank picked, and the core ROM's failure. -/
theorem bootStartsTheImages : Obligations.BootStartsTheImages := by
  intro s hh
  refine ⟨fun _ hk => exec_devkeyOk hh hk, fun hp hb i fb hk => ?core, fun hp hb hf hk => ?fail, fun hp hb i fb hk => ?safety⟩
  case core =>
    have hareas := (exec_leaves (exec_coreImageStart true s)).only
    obtain ⟨w, u, hw, e, rfl⟩ := coreImageStart_picked hh hp hb hk
    rw [e] at hareas
    have hu := bootShown_only i w s
    refine ⟨_, (exec_coreImageStart true s).trans (congrArg _ e), ?_, ?_, ?_, ?_, fun c hc => ?_, ?_, fun o ho => rg_bootShown_ne ho,
      fun a ha => ?_, fun k hk hn => ?_, bank_bankHandOver_tries i s, hareas⟩
    · rw [← hu .sys rfl]
      rfl
    · rw [setCore_same]
    · rw [setCore_same]
    · rw [setCore_same]
    · rw [setCore_ne _ _ _ _ hc]
      exact congrArg (tget {} · c) (hu .cores rfl)
    · exact (congrArg (bit · 6) (rg_bootShown i w s)).trans (bit_or_right _ _ hw)
    · rw [← fit_length (rd (bank s i).env 36 4) (bank s i).image] at ha
      exact (readByte_writeBytes_outside ha).trans (congrArg (readByte · a) (hu .mem rfl))
    · exact (readByte_writeBytes_inside ((fit_length _ _).symm ▸ hn)).trans (fit_getElem hk hn)
  case fail =>
    have e := coreImageStart_none hh hp hb hk
    exact ⟨_, (exec_coreImageStart true s).trans (congrArg _ e), fld_bootFail (by decide) hf, bootFail_only 1 s⟩
  case safety =>
    have hareas := (exec_leaves (exec_safetyImageStart true s)).only
    obtain ⟨w, hw, e⟩ := safetyImageStart_picked hh hp hb hk
    rw [e] at hareas
    have hu := bootShown_only i w s
    rw [← hu .sys rfl, ← hu .prt rfl]
    exact ⟨_, (exec_safetyImageStart true s).trans (congrArg _ e), rfl, rfl,
      (congrArg (bit · 7) (rg_bootShown i w s)).trans (bit_or_right _ _ hw), fun o ho => rg_bootShown_ne ho, bank_bankHandOver_tries i s, hareas⟩

end Sys2Proof.Machine
end

section
/-! PROOFS. Register key installs and the expiry of sessions (O30). -/

namespace Sys2Proof.Machine

/-! ### Byte strings -/

theorem leBytes_length (n x : Nat) : (leBytes n x).length = n := by
  induction n generalizing x with
  | zero => rfl
  | succ n ih => rw [leBytes, List.length_cons, ih]

theorem leNat_leBytes (n x : Nat) : leNat (leBytes n x) = x % 256 ^ n := by
  induction n generalizing x with
  | zero => rw [Nat.pow_zero, Nat.mod_one]; rfl
  | succ n ih =>
    rw [leBytes, leNat, ih, BitVec.toNat_ofNat, pow_succ' 256 n, Nat.mod_mul]

/-- A slice that lies in the first of two strings, of exactly its length. -/
theorem slice_append_left {n : Nat} {xs : Bytes} (h : xs.length = n) (ys : Bytes) : slice (xs ++ ys) 0 n = xs := by
  simp only [slice, List.drop_zero, ← h, List.take_left, Nat.sub_self, List.replicate_zero, List.append_nil]

/-- A slice that lies behind the first of two strings. -/
theorem slice_append_right {m : Nat} {xs : Bytes} (h : xs.length = m) (ys : Bytes) (o n : Nat) :
    slice (xs ++ ys) (m + o) n = slice ys o n := by
  have hd : (xs ++ ys).drop (m + o) = ys.drop o := by rw [← h, List.drop_append, List.drop_eq_nil_of_le (Nat.le_add_right _ _), Nat.add_sub_cancel_left, List.nil_append]
  simp only [slice, hd]

/-- Words of `w` bytes one behind the other: the slice at the place of word `j` is word `j`. -/
theorem slice_flatMap {w : Nat} {f : Nat → Bytes} (hf : ∀ x, (f x).length = w) {l : List Nat} {j : Nat} (h : j < l.length) :
    slice (l.flatMap f) (w * j) w = f l[j] := by
  induction l generalizing j with
  | nil => exact absurd h (Nat.not_lt_zero j)
  | cons a l ih =>
    rw [List.flatMap_cons]
    cases j with
    | zero => exact slice_append_left (hf a) _
    | succ j =>
      rw [Nat.mul_succ, Nat.add_comm, slice_append_right (hf a)]
      exact ih (Nat.lt_of_succ_lt_succ h)

/-! ### COMMIT (R89) -/

/-- The key in AUT_AKEY_DATA0 to AUT_AKEY_DATA23. -/
def akeyData (s : State) : Bytes := (List.range 24).flatMap (fun k => leBytes 4 (rg s (rAUT_AKEY_DATA k)).toNat)

theorem akeyData_length (s : State) : (akeyData s).length = 96 := by
  simp only [akeyData, List.length_flatMap, leBytes_length]
  rfl

theorem rd_akeyData (s : State) {j : Nat} (h : j < 24) : rd (akeyData s) (4 * j) 4 = (rg s (rAUT_AKEY_DATA j)).toNat := by
  have hj : j < (List.range 24).length := by rwa [List.length_range]
  rw [rd, akeyData, slice_flatMap (fun _ => leBytes_length 4 _) hj, List.getElem_range, leNat_leBytes]
  exact Nat.mod_eq_of_lt (rg s (rAUT_AKEY_DATA j)).isLt

theorem exec_akeyCommitWrite {s : State} {bus : Bus} {v : U32} (h : WriteOk s bus rAUT_AKEY_CMD v) :
    exec (.akeyCommitWrite bus v) s = .next (akeyCommit v s) := guardWrite_ok h

theorem akeyCommit_taken {v : U32} {s : State} (hv : bit v 0 = true) (h : s.aut.install = none) : akeyCommit v s =
    { s with aut := { s.aut with
        install := some { slot := fld (rg s rAUT_AKEY_SEL) 2 0, ceil := fld (rg s rAUT_AKEY_SEL) 5 4, key := akeyData s }, akeyErr := 0 } } := by
  rw [akeyCommit, hv, h]
  rfl

theorem akeyCommit_ignored {v : U32} {s : State} (h : bit v 0 = false ∨ s.aut.install ≠ none) : akeyCommit v s = s := by
  refine if_neg ?_
  rw [Bool.and_eq_true, Option.isNone_iff_eq_none]
  rintro ⟨hv, hn⟩
  exact h.elim (fun hf => absurd hv (by rw [hf]; decide)) (absurd hn)

/-! ### The end of an install (R88, R89) -/

theorem exec_keyInstallComplete (ok : Bool) (s : State) : exec (.keyInstallComplete ok) s = .next (installDone ok s) := rfl

theorem installDone_refused {s : State} {k : KeyInstall} {ok : Bool} (h : s.aut.install = some k) (he : installErr s k ok ≠ 0) :
    installDone ok s = { s with aut := { s.aut with install := none, akeyErr := installErr s k ok } } := by
  simp only [installDone, h]
  exact if_pos he

/-- An install that no rule of R89 refuses has no error. -/
theorem installErr_eq_zero {s : State} {k : KeyInstall} (hp : p384On (keyPoint k.key) = true)
    (hv : s.std.vault = 0 ∨ s.std.vault = 1 ∨ 3 ≤ s.std.vault ∧ s.std.devNeed = false)
    (hs : slotState (keySlot s k.slot) = 0 ∨ slotState (keySlot s k.slot) = 2) (ht : tampActive s = false) : installErr s k true = 0 := by
  have hvault : (s.std.vault == 2 || (decide (3 ≤ s.std.vault) && s.std.devNeed)) = false := by
    obtain h | h | ⟨h, hd⟩ := hv
    · rw [h]; rfl
    · rw [h]; rfl
    · rw [hd, Bool.and_false, Bool.or_false, beq_eq_false_iff_ne]
      omega
  have hslot : (slotState (keySlot s k.slot) == 1 || slotState (keySlot s k.slot) == 3) = false := by
    obtain h | h := hs <;> rw [h] <;> rfl
  simp only [installErr, hp, hvault, hslot, ht, Bool.not_true, Bool.false_eq_true, if_false]

/-- An install without an error fills its slot, and the vault enters PROVISION with both latches clear (R88). -/
theorem installDone_filled {s : State} {k : KeyInstall} {ok : Bool} (h : s.aut.install = some k) (he : installErr s k ok = 0) :
    installDone ok s = { s with
      std := { s.std with
        slots := tset {} s.std.slots k.slot { keySlot s k.slot with key := some k.key, ceil := k.ceil, gen := (keySlot s k.slot).revCnt }
        vault := 1, latch0 := false, latch1 := false }
      aut := { s.aut with install := none, akeyErr := 0 } } := by
  simp only [installDone, h, he, ne_eq, not_true_eq_false, if_false]
  rfl

/-- A slot whose key carries its REV_CNT as generation is ACTIVE below 16 (R83). -/
theorem slotState_of_gen {k : KeySlot} {b : Bytes} (hc : k.revCnt < 16) (hk : k.key = some b) (hg : k.gen = k.revCnt) : slotState k = 1 := by
  simp only [slotState, if_neg (Nat.not_le.2 hc), hk, if_pos hg]

theorem revCnt_lt_of_slotState {k : KeySlot} (h : slotState k = 0 ∨ slotState k = 1 ∨ slotState k = 2) : k.revCnt < 16 := by
  by_contra hc
  have h3 : slotState k = 3 := if_pos (Nat.not_lt.1 hc)
  rw [h3] at h
  omega

/-! ### Expiry (R95) -/

theorem exec_sessionExpire (i : Fin 16) (s : State) : exec (.sessionExpire i) s = .next (sessionExpire i s) := rfl

/-- The RTC after it has passed second `n`. -/
def rtcPast (s : State) (n : Nat) : BitVec 48 := BitVec.ofNat 48 (max s.std.rtcSec.toNat (n + 1))

theorem lt_rtcPast {s : State} {n : Nat} (h : n + 1 < 2 ^ 48) : n < (rtcPast s n).toNat := by
  rw [rtcPast, BitVec.toNat_ofNat, Nat.mod_eq_of_lt (max_lt s.std.rtcSec.isLt h)]
  exact lt_max_of_lt_right (Nat.lt_succ_self n)

theorem sessionExpire_live {s : State} {i n : Nat} (hu : (tget {} s.aut.sess i).used = true) (he : (tget {} s.aut.sess i).expired = false)
    (ha : (tget {} s.aut.sess i).notAfter = some n) (hn : n + 1 < 2 ^ 48) : sessionExpire i s =
    setEvt (setSession { s with std := { s.std with rtcSec := rtcPast s n } } i { tget {} s.aut.sess i with expired := true }) rAUT_EVT (bitv 4) := by
  have hc : (!(tget {} s.aut.sess i).used || (tget {} s.aut.sess i).expired || decide (2 ^ 48 ≤ n + 1)) = false := by
    rw [hu, he, decide_eq_false (Nat.not_le.2 hn)]
    rfl
  simp only [sessionExpire, ha, hc, Bool.false_eq_true, if_false]
  rfl

/-- Settles O30: COMMIT taken and ignored, the install's two ends, and the expiry. -/
theorem keyInstallsFillASlot : Obligations.KeyInstallsFillASlot := by
  intro s
  refine ⟨fun bus v hw hv hn => ?commit, fun bus v hw h => ?ignored, fun k ok hk he => ?refused, fun k hk hp hv hs ht => ?filled,
    fun i n hu he ha hn => ?expired⟩
  case commit =>
    have hareas : ChangesOnly [.aut] s (akeyCommit v s) := (akeyCommit_keeps (Keeps.refl _ s) rfl).only
    refine ⟨_, exec_akeyCommitWrite hw, ?_, hareas⟩
    rw [akeyCommit_taken hv hn]
    exact ⟨_, rfl, rfl, rfl, akeyData_length s, fun j hj => rd_akeyData s hj⟩
  case ignored => rw [exec_akeyCommitWrite hw, akeyCommit_ignored h]
  case refused => rw [exec_keyInstallComplete, installDone_refused hk he]
  case filled =>
    have hareas : ChangesOnly [.std, .aut] s (installDone true s) := (installDone_keeps (Keeps.refl _ s) rfl).only
    have e := installDone_filled hk (installErr_eq_zero hp hv hs ht)
    rw [e] at hareas
    have hc := revCnt_lt_of_slotState (hs.imp_right .inr)
    refine ⟨_, (exec_keyInstallComplete true s).trans (congrArg _ e), ?_, ?_, ?_, ?_, fun j hj => ?_, rfl, rfl, rfl, rfl, hareas⟩ <;>
      simp only [keySlot, tget_tset_same]
    · exact slotState_of_gen hc rfl rfl
    · exact tget_tset_ne hj
  case expired =>
    have hareas : ChangesOnly [.regs, .std, .aut] s (sessionExpire i s) := (sessionExpire_keeps (Keeps.refl _ s) rfl).only
    have e := sessionExpire_live hu he ha hn
    rw [e] at hareas
    refine ⟨_, (exec_sessionExpire i s).trans (congrArg _ e), setSession_same _ _ _, lt_rtcPast hn, ?_, fun j hj => ?_, hareas⟩
    · rw [rg_setEvt_same]
      exact bit_or_bitv _ (by decide)
    · exact setSession_ne _ _ _ _ hj

end Sys2Proof.Machine
end

section
/-! PROOFS. Tamper, the failure of the vault and the loss of VBAT (O31). -/

namespace Sys2Proof.Machine

/-! ### Which input latches (R106) -/

theorem exec_tamperLatch (i : Fin 2) (pins : BitVec 2) (s : State) : exec (.tamperLatch i pins) s =
    .next (if tampLatches i pins s.std && !s.sys.por then unlockEnd (tamperLatch i pins s) else tamperLatch i pins s) := rfl

theorem tampLatches_iff (i : Nat) (pins : BitVec 2) (d : Std) : tampLatches i pins d = true ↔
    bit d.tampCfg i = true ∧ pins.getLsbD i = bit d.tampCfg (2 + i) ∧ (if i = 0 then d.latch0 else d.latch1) = false := by
  simp only [tampLatches, tampLatched, Bool.and_eq_true, beq_iff_eq, Bool.not_eq_true', and_assoc]

theorem not_tampLatches {i : Nat} {pins : BitVec 2} {d : Std}
    (h : bit d.tampCfg i = false ∨ pins.getLsbD i ≠ bit d.tampCfg (2 + i) ∨ (if i = 0 then d.latch0 else d.latch1) = true) :
    tampLatches i pins d = false := by
  rw [← Bool.not_eq_true, tampLatches_iff]
  rintro ⟨hen, hpin, hlatch⟩
  obtain h | h | h := h
  · exact Bool.false_ne_true (h.symm.trans hen)
  · exact h hpin
  · exact Bool.false_ne_true (hlatch.symm.trans h)

/-- Where the input does not latch, only the levels are new. -/
theorem exec_tamperLatch_none {i : Fin 2} {pins : BitVec 2} {s : State} (h : tampLatches i pins s.std = false) :
    exec (.tamperLatch i pins) s = .next { s with std := { s.std with tampPins := pins } } := by
  rw [exec_tamperLatch, tamperLatch, h]
  rfl

/-! ### What a latch leaves (R106 to R108) -/

/-- The standby domain and the slots after TAMP input `i` has latched. -/
structure TampStd (i : Nat) (pins : BitVec 2) (d e : Std) : Prop where
  keyProt : e.keyProt = keyCleared
  latch : (if i = 0 then e.latch0 else e.latch1) = true
  pins : e.tampPins = pins
  cnt : e.tampCnt.toNat = min (d.tampCnt.toNat + 1) 0xFFFF
  slots : e.slots = d.slots

theorem toNat_tampCnt (c : U16) : (if c = 0xFFFF then (0xFFFF : U16) else c + 1).toNat = min (c.toNat + 1) 0xFFFF := by
  split
  · next h => rw [h]; rfl
  · next h =>
    have hc : c.toNat ≠ 0xFFFF := fun hn => h (BitVec.eq_of_toNat_eq hn)
    have hlt := c.isLt
    have h1 : (1 : U16).toNat = 1 := rfl
    rw [BitVec.toNat_add, h1]
    omega

theorem tampStd_tamperLatchStd {i : Nat} (h : i < 2) (pins : BitVec 2) (d : Std) :
    TampStd i pins d { tamperLatchStd i d with tampPins := pins } := by
  refine ⟨rfl, ?_, rfl, toNat_tampCnt d.tampCnt, rfl⟩
  interval_cases i <;> simp [tamperLatchStd]

theorem bit_or_left {w : Nat} (x y : BitVec w) {i : Nat} (h : bit x i = true) : bit (x ||| y) i = true := by
  simp only [bit] at h ⊢
  rw [BitVec.getLsbD_or, h, Bool.true_or]

/-- With the main supplies off, the loss shows at the next power-up (R107). -/
theorem exec_tamperLatch_off {i : Fin 2} {pins : BitVec 2} {s : State} (h : tampLatches i pins s.std = true) (hp : s.sys.por = true) :
    exec (.tamperLatch i pins) s = .next { s with std := { tamperLatchStd i s.std with tampPins := pins, lost := true } } := by
  rw [exec_tamperLatch, tamperLatch, h, hp]
  exact congrArg Host.Outcome.next (if_pos hp)

/-- With the main supplies on, the vault is zeroised, the latch reported, and a debug unlock ends (R108, R522). -/
theorem exec_tamperLatch_on {i : Fin 2} {pins : BitVec 2} {s : State} (h : tampLatches i pins s.std = true) (hp : s.sys.por = false) :
    exec (.tamperLatch i pins) s = .next (unlockEnd (report (setEvt
      (zeroise { s with std := { tamperLatchStd i s.std with tampPins := pins } }) rAUT_EVT (bitv 0)) (srcBlk 2 1) 0x0081)) := by
  have hn : ¬ s.sys.por = true := by rw [hp]; decide
  rw [exec_tamperLatch, tamperLatch, h, hp]
  exact congrArg (Host.Outcome.next ∘ unlockEnd) (if_neg hn)

/-- Core `c` resumes if it is halted (R522). -/
def resumeHalted (s : State) (c : Nat) : State := if (core s c).halted then resumeCore c s else s

theorem resumeHalted_only (s : State) (c : Nat) : ChangesOnly [.cores] s (resumeHalted s c) :=
  (Keeps.ite (resumeCore_keeps (Keeps.refl _ s) rfl) (Keeps.refl _ s)).only

/-- The end of a debug unlock, with its pass over the cores apart. -/
theorem unlockEnd_eq (s : State) : ∃ u, unlockEnd s = freeze false ((List.range 16).foldl resumeHalted u) ∧
    u.regs = s.regs ∧ u.flt = s.flt := by
  simp only [unlockEnd]
  exact ⟨_, rfl, rfl, rfl⟩

theorem freeze_off_leaves (s : State) : (freeze false s).regs = s.regs ∧ (freeze false s).flt = s.flt := ⟨rfl, rfl⟩

/-- The end of a debug unlock stores no register and sends no report. -/
theorem unlockEnd_leaves (s : State) : (unlockEnd s).regs = s.regs ∧ (unlockEnd s).flt = s.flt ∧ (unlockEnd s).std = s.std ∧
    (unlockEnd s).aut = s.aut := by
  have hareas : ChangesOnly [.regs, .flt, .cores, .hrw, .dbg] s (unlockEnd s) := (unlockEnd_keeps (Keeps.refl _ s) rfl).only
  refine ⟨?_, ?_, hareas .std rfl, hareas .aut rfl⟩ <;> obtain ⟨u, e, hregs, hflt⟩ := unlockEnd_eq s
  · rw [e, (freeze_off_leaves _).1, foldl_leaves (fun u c => resumeHalted_only u c .regs rfl), hregs]
  · rw [e, (freeze_off_leaves _).2, foldl_leaves (fun u c => resumeHalted_only u c .flt rfl), hflt]

theorem exec_vaultIntegrityFail (s : State) : exec .vaultIntegrityFail s =
    .next (report (setEvt (vaultEnter 4 s) rAUT_EVT (bitv 2)) (srcBlk 2 1) 0x0082) := rfl

theorem exec_vbatLoss (s : State) : exec .vbatLoss s = .next (vbatLoss s) := rfl

/-- Settles O31: a latch with the supplies off and on, the vault's failure, and the loss of VBAT. -/
theorem tamperEndsEverySession : Obligations.TamperEndsEverySession := by
  intro s i pins
  refine ⟨fun h => exec_tamperLatch_none (not_tampLatches h), fun hen hpin hl => ?latch, ?fail, fun hp => ?vbat, fun hp => ?kept⟩
  case latch =>
    have h := (tampLatches_iff i pins s.std).2 ⟨hen, hpin, hl⟩
    obtain ⟨hkey, hlatch, hpins, hcnt, hslots⟩ := tampStd_tamperLatchStd i.isLt pins s.std
    cases hp : s.sys.por with
    | true => exact ⟨_, exec_tamperLatch_off h hp, hkey, hlatch, hpins, hcnt, hslots, fun _ => rfl, nofun⟩
    | false =>
      refine ⟨_, exec_tamperLatch_on h hp, ?_⟩
      generalize hu : report _ _ _ = u
      obtain ⟨hregs, hflt, hstd, haut⟩ := unlockEnd_leaves u
      rw [hstd, haut, hflt, rg_congr hregs]
      subst hu
      refine ⟨hkey, hlatch, hpins, hcnt, hslots, nofun, fun _ => ⟨rfl, rfl, rfl, ?_, ?_, ?_⟩⟩
      · rw [rg_report, rg_setEvt_same]
        exact bit_or_bitv _ (by decide)
      · rw [rg_report, rg_setEvt_same, zeroise, rg_setEvt_same]
        exact bit_or_left _ _ (bit_or_bitv _ (by decide))
      · exact List.mem_append_right _ (List.mem_singleton.2 rfl)
  case fail =>
    refine ⟨_, exec_vaultIntegrityFail s, rfl, rfl, ?_, rfl⟩
    rw [rg_report, rg_setEvt_same]
    exact bit_or_bitv _ (by decide)
  case vbat =>
    have hareas : ChangesOnly [.freeCtr, .std] s (vbatLoss s) := (vbatLoss_keeps (Keeps.refl _ s) rfl).only
    have e : vbatLoss s = _ := if_pos hp
    rw [e] at hareas
    exact ⟨_, (exec_vbatLoss s).trans (congrArg _ e), rfl, rfl, rfl, hareas⟩
  case kept =>
    rw [exec_vbatLoss, vbatLoss, hp]
    rfl

end Sys2Proof.Machine
end

section
/-! PROOFS. The verification of command envelopes (O28). -/

namespace Sys2Proof.Machine

/-! ### A refusal (R101) -/

/-- What the refusal `st` of envelope `e` adds to `s` in `t`. -/
structure Refuses (e : Staged) (st : Nat) (s t : State) : Prop where
  stage : t.hst.stage = s.hst.stage
  cplDue : t.hst.cplDue = s.hst.cplDue ++ [mkCpl (stagedId e) (eOp e.bytes) cRefused st 0]
  cnt : rg t rAUT_REFUSE_CNT = satInc (rg s rAUT_REFUSE_CNT)
  evt : bit (rg t rAUT_EVT) 3 = true
  inbox : t.flt.inbox = s.flt.inbox ++ [{ source := srcBlk 2 0, code := 0x0080 }]
  only : ChangesOnly [.regs, .hst, .flt] s t

theorem refuse_refuses (e : Staged) (st : Nat) (s : State) : Refuses e st s (refuse e st s) where
  stage := rfl
  cplDue := rfl
  cnt := by
    rw [refuse, rg_report, setEvt, rg_wr_ne _ _ _ _ (by decide), rg_wr_ne _ _ _ _ (by decide), rg_count_same, rg_postCpl]
  evt := by
    rw [refuse, rg_report, rg_setEvt_same]
    exact bit_or_bitv _ (by decide)
  inbox := rfl
  only := (refuse_keeps (Keeps.refl _ s) rfl).only

/-! ### The command store (R431 to R433, R436) -/

theorem item_congr {s t : State} (h : t.tsk.items = s.tsk.items) (i : Nat) : item t i = item s i := by
  simp only [item, h]

theorem flow_congr {s t : State} (h : t.tsk.flows = s.tsk.flows) (f : Nat) : flow t f = flow s f := by
  simp only [flow, h]

/-- One core's part of waking the idle cores. -/
def wakeTaker (s : State) (c : Nat) : State :=
  if bit (rg s rTSK_CFG) c && (core s c).idle then tskPend c (setPort s c { port s c with whyCmd := true }) else s

/-- Waking a core changes its port only, of the scheduler. -/
theorem wakeTaker_store (s : State) (c : Nat) : (wakeTaker s c).tsk.items = s.tsk.items ∧ (wakeTaker s c).tsk.flows = s.tsk.flows := by
  unfold wakeTaker
  split
  · have hp : ∀ u, (tskPend c u).tsk = u.tsk := fun u => (tskPend_keeps (Keeps.refl [.regs, .flt, .ints, .cores] u) rfl).only .tsk rfl
    rw [hp]
    exact ⟨rfl, rfl⟩
  · exact ⟨rfl, rfl⟩

theorem takeableWake_store (s : State) : (takeableWake s).tsk.items = s.tsk.items ∧ (takeableWake s).tsk.flows = s.tsk.flows := by
  have he : takeableWake s = (List.range 16).foldl wakeTaker s := rfl
  rw [he]
  exact ⟨foldl_leaves (g := fun u => u.tsk.items) (fun u c => (wakeTaker_store u c).1) _ _,
    foldl_leaves (g := fun u => u.tsk.flows) (fun u c => (wakeTaker_store u c).2) _ _⟩

/-- A window that closes moves no place in any flow. -/
theorem windowClose_store (f : Nat) (s : State) : (windowClose f s).tsk.items = s.tsk.items ∧
    ∀ k, (flow (windowClose f s) k).next = (flow s k).next := by
  unfold windowClose
  dsimp only
  split
  · exact ⟨rfl, fun _ => rfl⟩
  · refine ⟨rfl, fun k => ?_⟩
    by_cases hk : k = f
    · subst hk
      have hn := congrArg Flow.next (setFlow_same s k { flow s k with closed := true })
      exact hn
    · have hn := congrArg Flow.next (setFlow_ne s f { flow s f with closed := true } k hk)
      exact hn

/-- Envelope `b` of `id` stands in slot `k` of the store in `t`, next in its flow. -/
structure Enters (id : CmdId) (op : Nat) (b : Bytes) (k : Nat) (s t : State) : Prop where
  item : item t k = { used := true, id := { id with ord := s.cmd.ord }, op := op, bytes := b, arr := (flow s id.flow).next }
  others : ∀ j, j ≠ k → Machine.item t j = Machine.item s j
  next : (flow t id.flow).next = (flow s id.flow).next + 1
  only : ChangesOnly [.regs, .flt, .cmd, .ints, .cores, .tsk] s t

/-- The store with envelope `it` in slot `k` and the next place of its flow taken. -/
def itemPut (k : Nat) (it : Item) (s : State) : State :=
  let f := it.id.flow
  let u := setItem (setFlow s f { flow s f with next := (flow s f).next + 1 }) k it
  { u with cmd := { u.cmd with ord := u.cmd.ord + 1 } }

theorem itemPut_store (k : Nat) (it : Item) (s : State) : item (itemPut k it s) k = it ∧
    (∀ j, j ≠ k → item (itemPut k it s) j = item s j) ∧ (flow (itemPut k it s) it.id.flow).next = (flow s it.id.flow).next + 1 := by
  have hflow := congrArg Flow.next (setFlow_same s it.id.flow { flow s it.id.flow with next := (flow s it.id.flow).next + 1 })
  exact ⟨tget_tset_same _ _ _ _, fun j hj => tget_tset_ne hj, hflow⟩

/-- An envelope that finds a free slot is put there, and its flow's window opens or closes over it. -/
theorem enterItem_free {s : State} {k : Nat} (hk : (List.range 1024).find? (fun i => !(item s i).used) = some k) (id : CmdId) (op : Nat)
    (b : Bytes) : ∃ u, u = itemPut k { used := true, id := { id with ord := s.cmd.ord }, op := op, bytes := b, arr := (flow s id.flow).next } s ∧
      (enterItem id op b s = some (takeableWake u) ∨ enterItem id op b s = some (windowClose id.flow u)) := by
  refine ⟨_, rfl, ?_⟩
  unfold enterItem
  rw [hk]
  dsimp only
  split
  · exact .inl rfl
  · exact .inr rfl

theorem enterItem_enters {s : State} {k : Nat} (hk : (List.range 1024).find? (fun i => !(item s i).used) = some k) (id : CmdId) (op : Nat)
    (b : Bytes) : ∃ t, enterItem id op b s = some t ∧ Enters id op b k s t := by
  obtain ⟨u, hu, h⟩ := enterItem_free hk id op b
  obtain ⟨hitem, hothers, hnext⟩ := hu ▸ itemPut_store k _ s
  have ht : ∃ t, enterItem id op b s = some t ∧ t.tsk.items = u.tsk.items ∧ (flow t id.flow).next = (flow u id.flow).next := by
    obtain h | h := h
    · obtain ⟨hi, hf⟩ := takeableWake_store u
      exact ⟨_, h, hi, congrArg Flow.next (flow_congr hf _)⟩
    · obtain ⟨hi, hf⟩ := windowClose_store id.flow u
      exact ⟨_, h, hi, hf _⟩
  obtain ⟨t, h, hi, hf⟩ := ht
  exact ⟨t, h, (item_congr hi k).trans hitem, fun j hj => (item_congr hi j).trans (hothers j hj), hf.trans hnext,
    (enterItem_keeps (Keeps.refl _ s) rfl h).only⟩

/-! ### Steps 1 to 7 (R96, R97) -/

section
variable {s : State} {e : Staged} {n : Nat}

theorem commonChecks_vault (h : vaultUsable s = false) : commonChecks s e n = .inl rfVault := by
  rw [commonChecks, h]
  rfl

theorem commonChecks_noSession (h : vaultUsable s = true) (hf : findSession s (eSid e.bytes) = none) :
    commonChecks s e n = .inl rfNoSession := by
  simp only [commonChecks, h, hf, Bool.not_true, Bool.false_eq_true, if_false]

/-- With a session found, the checks of its expiry, ring, MAC and SEQ, in this order. -/
theorem commonChecks_session (h : vaultUsable s = true) {i : Nat} {v : Session} (hf : findSession s (eSid e.bytes) = some (i, v)) :
    commonChecks s e n =
      if sessExpired s v then .inl rfExpired
      else if v.ring ≠ e.ring then .inl rfWrongRing
      else if hmacSha256 v.key (slice e.bytes 0 n) ≠ slice e.bytes n 32 then .inl rfBadMac
      else if (eSeq e.bytes).toNat ≤ v.lastSeq.toNat then .inl rfSeqOld
      else .inr (i, v) := by
  simp only [commonChecks, h, hf, Bool.not_true, Bool.false_eq_true, if_false]

end

theorem commonChecks_congr {s t : State} (hs : t.std = s.std) (ha : t.aut = s.aut) (e : Staged) (n : Nat) :
    commonChecks t e n = commonChecks s e n := by
  cases s
  cases t
  cases hs
  cases ha
  rfl

/-- After step 7 LAST_SEQ holds SEQ, and the last sequence number has ended the session (R95, R97). -/
def TakesSeq (e : Staged) (i : Nat) (v : Session) (s t : State) : Prop :=
  (tget {} t.aut.sess i = if eSeq e.bytes = 0xFFFFFFFFFFFFFFFF then {} else { v with lastSeq := eSeq e.bytes }) ∧
  ∀ j, j ≠ i → tget {} t.aut.sess j = tget {} s.aut.sess j

theorem takeSeq_takes (e : Staged) (i : Nat) (v : Session) (s : State) : TakesSeq e i v s (takeSeq e i v s) := by
  constructor <;> unfold takeSeq <;> split
  · exact tget_tdel_same _ _ _
  · exact tget_tset_same _ _ _ _
  · exact fun j hj => tget_tdel_ne hj
  · exact fun j hj => tget_tset_ne hj

theorem takeSeq_only (e : Staged) (i : Nat) (v : Session) (s : State) : ChangesOnly [.aut] s (takeSeq e i v s) :=
  (takeSeq_keeps (Keeps.refl _ s) rfl).only

/-! ### The envelope at the front of staging -/

theorem exec_envelopeVerify (s : State) : exec .envelopeVerify s = .next (envelopeVerify s) := rfl

theorem unstage_front {s : State} {e : Staged} {rest : List Staged} (h : s.hst.stage = e :: rest) :
    unstage e s = { s with hst := { s.hst with stage := rest } } := by
  rw [unstage, h, List.erase_cons_head]

/-- No session-open and nothing else stands before the first envelope (R102). -/
theorem pickStaged_front {p : Staged → Bool} {e : Staged} (rest : List Staged) (h : p e = true) :
    pickStaged p [] (e :: rest) = some ([], e) := by
  rw [pickStaged, h]
  rfl

section
variable {s : State} {e : Staged} {rest : List Staged} (hst : s.hst.stage = e :: rest) (h1 : eKind e.bytes ≠ 1) (h2 : eKind e.bytes ≠ 2)
include hst h1 h2

/-- The command envelope at the front is the one checked. -/
theorem envelopeVerify_front : envelopeVerify s = verifyCommand e s := by
  have hk : (eKind e.bytes != 1 && eKind e.bytes != 2) = true := by simp [h1, h2]
  have hp : pickStaged (fun e => eKind e.bytes != 1 && eKind e.bytes != 2) [] s.hst.stage = some ([], e) := by
    rw [hst]
    exact pickStaged_front rest hk
  simp only [envelopeVerify, hp, List.filter_nil, List.foldl_nil]

variable (hf : storeIsFull s = false)
include hf

theorem envelopeVerify_badFormat (h : commandFormat e.bytes = false) : envelopeVerify s = refuse e rfBadFormat (unstage e s) := by
  simp only [envelopeVerify_front hst h1 h2, verifyCommand, hf, h, Bool.false_eq_true, Bool.not_false, if_false, if_true]

variable (h : commandFormat e.bytes = true)
include h

/-- A check of steps 2 to 7 that fails decides the refusal. -/
theorem envelopeVerify_early {st : Nat} (hc : commonChecks s e 224 = .inl st) : envelopeVerify s = refuse e st (unstage e s) := by
  have hu := (commonChecks_congr (t := unstage e s) rfl rfl e 224).trans hc
  simp only [envelopeVerify_front hst h1 h2, verifyCommand, hf, h, hu, Bool.false_eq_true, Bool.not_true, if_false]

variable {i : Nat} {v : Session} (hc : commonChecks s e 224 = .inr (i, v))
include hc

theorem envelopeVerify_opcode (ho : opcodeClass (eOp e.bytes) = none ∨ eOp e.bytes = 0x0404) :
    envelopeVerify s = refuse e rfOpcode (takeSeq e i v (unstage e s)) := by
  have hu := (commonChecks_congr (t := unstage e s) rfl rfl e 224).trans hc
  simp only [envelopeVerify_front hst h1 h2, verifyCommand, hf, h, hu, Bool.false_eq_true, Bool.not_true, if_false]
  obtain ho | ho := ho
  · rw [ho]
  · rw [ho]
    rfl

variable {c : Nat} (ho : opcodeClass (eOp e.bytes) = some c) (hn : eOp e.bytes ≠ 0x0404)
include ho hn

theorem envelopeVerify_priv (hp : v.priv < c) : envelopeVerify s = refuse e rfPriv (takeSeq e i v (unstage e s)) := by
  have hu := (commonChecks_congr (t := unstage e s) rfl rfl e 224).trans hc
  simp only [envelopeVerify_front hst h1 h2, verifyCommand, hf, h, hu, ho, Bool.false_eq_true, Bool.not_true, if_false, if_neg hn, if_pos hp]

theorem envelopeVerify_passed (hp : c ≤ v.priv) : envelopeVerify s =
    tlyDev 0x45 1 ((enterItem (stagedId e) (eOp e.bytes) e.bytes (takeSeq e i v (unstage e s))).getD (takeSeq e i v (unstage e s))) := by
  have hu := (commonChecks_congr (t := unstage e s) rfl rfl e 224).trans hc
  simp only [envelopeVerify_front hst h1 h2, verifyCommand, hf, h, hu, ho, Bool.false_eq_true, Bool.not_true, if_false, if_neg hn,
    if_neg (Nat.not_lt.2 hp)]

end

/-- The envelope at the front of `s` is refused with `st` in `t`: it leaves staging, and the store, commands and vault stay. -/
def FrontRefused (s : State) (e : Staged) (rest : List Staged) (st : Nat) (t : State) : Prop :=
  t.hst.stage = rest ∧ t.hst.cplDue = s.hst.cplDue ++ [mkCpl (stagedId e) (eOp e.bytes) cRefused st 0] ∧
  rg t rAUT_REFUSE_CNT = satInc (rg s rAUT_REFUSE_CNT) ∧ bit (rg t rAUT_EVT) 3 = true ∧
  t.flt.inbox = s.flt.inbox ++ [{ source := srcBlk 2 0, code := 0x0080 }] ∧ t.tsk = s.tsk ∧ t.cmd = s.cmd ∧ t.std = s.std

/-- A refusal after a change of the sessions alone. -/
theorem refuse_front {s u : State} {e : Staged} {rest : List Staged} (hst : s.hst.stage = e :: rest) (hu : ChangesOnly [.aut] (unstage e s) u)
    (st : Nat) : FrontRefused s e rest st (refuse e st u) ∧ (refuse e st u).aut = u.aut := by
  obtain ⟨hstage, hcpl, hcnt, hevt, hinbox, honly⟩ := refuse_refuses e st u
  have hf := unstage_front hst
  have hhst : u.hst = { s.hst with stage := rest } := (hu .hst rfl).trans (congrArg State.hst hf)
  have hregs : u.regs = s.regs := hu .regs rfl
  have hflt : u.flt = s.flt := hu .flt rfl
  rw [hhst] at hstage hcpl
  rw [rg_congr hregs] at hcnt
  rw [hflt] at hinbox
  exact ⟨⟨hstage, hcpl, hcnt, hevt, hinbox, (honly .tsk rfl).trans (hu .tsk rfl), (honly .cmd rfl).trans (hu .cmd rfl),
    (honly .std rfl).trans (hu .std rfl)⟩, honly .aut rfl⟩

/-- What `commonChecks` finds where the session and its ring hold, from the MAC on. -/
theorem commonChecks_ring {s : State} {e : Staged} {n i : Nat} {v : Session} (h : vaultUsable s = true)
    (hf : findSession s (eSid e.bytes) = some (i, v)) (hx : sessExpired s v = false) (hr : v.ring = e.ring) : commonChecks s e n =
      if hmacSha256 v.key (slice e.bytes 0 n) ≠ slice e.bytes n 32 then .inl rfBadMac
      else if (eSeq e.bytes).toNat ≤ v.lastSeq.toNat then .inl rfSeqOld
      else .inr (i, v) := by
  rw [commonChecks_session h hf, hx, if_neg (not_not_intro hr)]
  rfl

/-- A verified envelope stands in slot `k` of the store, `u` being `s` with staging and sessions changed. -/
theorem entered_front {s u : State} {e : Staged} {k : Nat} (hu : ChangesOnly [.hst, .aut] s u)
    (hk : (List.range 1024).find? (fun i => !(item s i).used) = some k) :
    ∃ t, tlyDev 0x45 1 ((enterItem (stagedId e) (eOp e.bytes) e.bytes u).getD u) = t ∧ t.hst = u.hst ∧ t.aut = u.aut ∧
      item t k = { used := true, id := { stagedId e with ord := s.cmd.ord }, op := eOp e.bytes, bytes := e.bytes,
                   arr := (flow s (eFlow e.bytes)).next } ∧
      (∀ j, j ≠ k → item t j = item s j) ∧ (flow t (eFlow e.bytes)).next = (flow s (eFlow e.bytes)).next + 1 := by
  have htsk : u.tsk = s.tsk := hu .tsk rfl
  have hitem (j : Nat) : item u j = item s j := item_congr (congrArg Tsk.items htsk) j
  have hflow : flow u (eFlow e.bytes) = flow s (eFlow e.bytes) := flow_congr (congrArg Tsk.flows htsk) _
  obtain ⟨w, hw, hin, hothers, hnext, honly⟩ :=
    enterItem_enters (s := u) (by simpa only [hitem] using hk) (stagedId e) (eOp e.bytes) e.bytes
  have ht : ChangesOnly [.tly] w (tlyDev 0x45 1 w) := (tlyDev_keeps (Keeps.refl _ w) rfl).only
  have hti (j : Nat) : item (tlyDev 0x45 1 w) j = item w j := item_congr (congrArg Tsk.items (ht .tsk rfl)) j
  rw [hw]
  refine ⟨_, rfl, (ht .hst rfl).trans (honly .hst rfl), (ht .aut rfl).trans (honly .aut rfl), ?_, fun j hj => ?_, ?_⟩
  · rw [Option.getD_some, hti, hin, ← hu .cmd rfl, ← hflow]
    rfl
  · rw [Option.getD_some, hti, hothers j hj, hitem]
  · rw [Option.getD_some, flow_congr (congrArg Tsk.flows (ht .tsk rfl)), ← hflow]
    exact hnext

/-- Settles O28: a failure up to step 7 leaves the sessions; step 7 takes SEQ, and the opcode, the privilege and the store follow. -/
theorem envelopesPassTheirChecksInOrder : Obligations.EnvelopesPassTheirChecksInOrder := by
  intro s e rest hst h1 h2 hf
  have hx := exec_envelopeVerify s
  have early {st : Nat} (h : envelopeVerify s = refuse e st (unstage e s)) :
      Gives .envelopeVerify s fun t => FrontRefused s e rest st t ∧ t.aut = s.aut :=
    ⟨_, hx.trans (congrArg _ h), refuse_front hst (ChangesOnly.refl _ _) st⟩
  have late {i st : Nat} {v : Session} (h : envelopeVerify s = refuse e st (takeSeq e i v (unstage e s))) :
      Gives .envelopeVerify s fun t => FrontRefused s e rest st t ∧ TakesSeq e i v s t := by
    obtain ⟨href, haut⟩ := refuse_front hst (takeSeq_only e i v (unstage e s)) st
    obtain ⟨hown, hothers⟩ := takeSeq_takes e i v (unstage e s)
    exact ⟨_, hx.trans (congrArg _ h), href, haut ▸ hown, haut ▸ hothers⟩
  refine ⟨fun hb => early (envelopeVerify_badFormat hst h1 h2 hf hb),
    fun hb hv => early (envelopeVerify_early hst h1 h2 hf hb (commonChecks_vault hv)),
    fun hb hv hn => early (envelopeVerify_early hst h1 h2 hf hb (commonChecks_noSession hv hn)), fun i v hb hv hs => ?_⟩
  have checks {st : Nat} (hc : commonChecks s e 224 = .inl st) := early (envelopeVerify_early hst h1 h2 hf hb hc)
  refine ⟨fun hexp => checks ?expired, fun hexp hr => checks ?ring, fun hexp hr => ?_⟩
  case expired => rw [commonChecks_session hv hs, if_pos hexp]
  case ring => rw [commonChecks_session hv hs, hexp, if_pos hr]; rfl
  have hc := commonChecks_ring (n := 224) hv hs hexp hr
  have passes (hm : hmacSha256 v.key (slice e.bytes 0 224) = slice e.bytes 224 32) (hq : v.lastSeq.toNat < (eSeq e.bytes).toNat) :
      commonChecks s e 224 = .inr (i, v) := by
    rw [hc, if_neg (not_not_intro hm), if_neg (Nat.not_le.2 hq)]
  refine ⟨fun hm => checks (hc.trans (if_pos hm)), fun hm hq => checks ?seq, fun hm hq ho => ?opcode, fun c hm hq ho hn =>
    ⟨fun hp => ?priv, fun hp k hk => ?passed⟩⟩
  case seq => rw [hc, if_neg (not_not_intro hm), if_pos (Nat.not_lt.1 hq)]
  case opcode => exact late (envelopeVerify_opcode hst h1 h2 hf hb (passes hm hq) ho)
  case priv => exact late (envelopeVerify_priv hst h1 h2 hf hb (passes hm hq) ho hn hp)
  case passed =>
    have hu : ChangesOnly [.hst, .aut] s (takeSeq e i v (unstage e s)) := (takeSeq_keeps (unstage_keeps (Keeps.refl _ s) rfl) rfl).only
    obtain ⟨t, ht, hhst, haut, hstore⟩ := entered_front (e := e) hu hk
    obtain ⟨hown, hothers⟩ := takeSeq_takes e i v (unstage e s)
    have hfront : t.hst = { s.hst with stage := rest } :=
      (hhst.trans (takeSeq_only e i v _ .hst rfl)).trans (congrArg State.hst (unstage_front hst))
    exact ⟨t, hx.trans (congrArg _ ((envelopeVerify_passed hst h1 h2 hf hb (passes hm hq) ho hn hp).trans ht)),
      ⟨haut ▸ hown, haut ▸ hothers⟩, by rw [hfront], by rw [hfront], hstore⟩

end Sys2Proof.Machine
end

section
/-! PROOFS. Session-opens and firmware envelopes (O29). -/

namespace Sys2Proof.Machine

/-! ### The beginning of a firmware envelope's verification (R62, R103) -/

/-- Staged envelope `x` once the verification of `e` has begun, with the outcome of steps 1 to 7, the privilege and the signing slot. -/
def begunAs (e : Staged) (st priv : Nat) (k : KeySlot) (x : Staged) : Staged :=
  if x = e then { x with begun := some st, priv := priv, signer := k } else x

theorem beginFirmware_begun {e : Staged} (h : e.begun.isSome = true) (s : State) : beginFirmware e s = s := by
  rw [beginFirmware, if_pos h]

/-- A firmware envelope that begins is marked in staging; nothing else changes but the sessions. -/
theorem beginFirmware_begins {e : Staged} (h : e.begun = none) (s : State) : ∃ st priv u, ChangesOnly [.aut] s u ∧
    beginFirmware e s = { u with hst := { u.hst with stage := u.hst.stage.map (begunAs e st priv (signerSlot s e.bytes)) } } := by
  have hn : ¬ e.begun.isSome = true := by simp [h]
  rw [beginFirmware, if_neg hn]
  dsimp only
  split
  · exact ⟨_, _, s, ChangesOnly.refl _ _, rfl⟩
  · split
    · exact ⟨_, _, s, ChangesOnly.refl _ _, rfl⟩
    next i v _ =>
      have hu := takeSeq_only e i v s
      have hk : signerSlot (takeSeq e i v s) e.bytes = signerSlot s e.bytes := by
        simp only [signerSlot, keySlot, hu .std rfl]
      exact ⟨0, v.priv, _, hu, by rw [hk]; rfl⟩

theorem beginFirmware_cplDue (e : Staged) (s : State) : (beginFirmware e s).hst.cplDue = s.hst.cplDue := by
  by_cases h : e.begun.isSome = true
  · rw [beginFirmware_begun h]
  · obtain ⟨st, priv, u, hu, ht⟩ := beginFirmware_begins (Option.not_isSome_iff_eq_none.1 h) s
    have hcpl : u.hst.cplDue = s.hst.cplDue := congrArg Hst.cplDue (hu .hst rfl)
    rw [ht]
    exact hcpl

/-- The firmware envelope at the front of staging, begun. -/
theorem beginFirmware_front {s : State} {e : Staged} {rest : List Staged} (hst : s.hst.stage = e :: rest) (h : e.begun = none) :
    ∃ st priv l, (beginFirmware e s).hst.stage = { e with begun := some st, priv := priv, signer := signerSlot s e.bytes } :: l := by
  obtain ⟨st, priv, u, hu, ht⟩ := beginFirmware_begins h s
  refine ⟨st, priv, rest.map (begunAs e st priv (signerSlot s e.bytes)), ?_⟩
  rw [ht]
  show u.hst.stage.map _ = _
  rw [hu .hst rfl, hst, List.map_cons, begunAs, if_pos rfl]

/-! ### A session-open (R98) -/

theorem openChecks_congr {s t : State} (hs : t.std = s.std) (ha : t.aut = s.aut) (e : Staged) : openChecks t e = openChecks s e := by
  cases s
  cases t
  cases hs
  cases ha
  rfl

theorem inl_ite_eq_inr {α β : Type} {c : Prop} [Decidable c] {a : α} {x : α ⊕ β} {y : β} :
    (if c then .inl a else x) = .inr y ↔ ¬ c ∧ x = .inr y := by
  by_cases h : c <;> simp [h]

/-- The body and grant conditions that a session-open passes (R98). -/
theorem openChecks_inr {s : State} {e : Staged} {i : Nat} {k : Bytes} (h : openChecks s e = .inr (i, k)) :
    let b := e.bytes
    let g := keySlot s (rd b 34 1)
    openFormat b = true ∧ vaultUsable s = true ∧ slotState g = 1 ∧ sha384 (devPub s) = slice b 72 48 ∧
    leBytes 16 s.aut.chal.toNat = slice b 40 16 ∧ ecdsaVerify (g.key.getD []) (slice b 0 384) (slice b 384 96) = true ∧
    rd b 35 1 ≤ g.ceil ∧ (rd b 56 8 = 0 ∧ rd b 64 8 = 0 ∨ s.std.rtcValid = true ∧ rd b 56 8 ≤ s.std.rtcSec.toNat ∧ s.std.rtcSec.toNat ≤ rd b 64 8) ∧
    findSession s (eSid b) = none ∧ unwrapKey s b = some k ∧ hmacSha256 k (slice b 0 480) = slice b 480 32 := by
  simp only [openChecks, inl_ite_eq_inr] at h
  obtain ⟨hfmt, hvault, hslot, hdev, hchal, hsig, hceil, hknown, hwin, hbusy, h⟩ := h
  have htime : rd e.bytes 56 8 = 0 ∧ rd e.bytes 64 8 = 0 ∨
      s.std.rtcValid = true ∧ rd e.bytes 56 8 ≤ s.std.rtcSec.toNat ∧ s.std.rtcSec.toNat ≤ rd e.bytes 64 8 := by
    by_cases hb : rd e.bytes 56 8 = 0 ∧ rd e.bytes 64 8 = 0
    · exact .inl hb
    · have hbd : (rd e.bytes 56 8 == 0 && rd e.bytes 64 8 == 0) = false := by simpa using hb
      simp only [hbd, Bool.not_false, Bool.true_and, Bool.not_eq_true', decide_eq_true_eq] at hknown hwin
      exact .inr ⟨by simpa using hknown, by omega, by omega⟩
  have hkey : unwrapKey s e.bytes = some k ∧ hmacSha256 k (slice e.bytes 0 480) = slice e.bytes 480 32 := by
    revert h
    cases sessionSlot s with
    | none => exact fun h => absurd h (by simp)
    | some j =>
      cases unwrapKey s e.bytes with
      | none => exact fun h => absurd h (by simp)
      | some d =>
        intro h
        obtain ⟨hmac, h⟩ := inl_ite_eq_inr.1 h
        cases h
        exact ⟨rfl, not_not.1 hmac⟩
  simp only [slotActive, Bool.not_eq_true', Bool.not_eq_false, Bool.and_eq_true, beq_iff_eq] at hslot
  exact ⟨by simpa using hfmt, by simpa using hvault, hslot.2, not_not.1 hdev, not_not.1 hchal, by simpa using hsig, Nat.not_lt.1 hceil, htime,
    by simpa using hbusy, hkey⟩

/-- The record of a session that a session-open grants (R95, R98). -/
def openedSession (e : Staged) (k : Bytes) : Session :=
  { used := true, id := eSid e.bytes, key := k, priv := rd e.bytes 35 1,
    notAfter := if rd e.bytes 56 8 = 0 ∧ rd e.bytes 64 8 = 0 then none else some (rd e.bytes 64 8), ring := e.ring,
    slot := rd e.bytes 34 1, lastSeq := eSeq e.bytes }

/-- The session that envelope `e` opens stands in record `i`, and a new challenge is drawn. -/
def openSession (e : Staged) (i : Nat) (k : Bytes) (s : State) : State :=
  postCpl (setSession { s with freeCtr := s.freeCtr + 1, aut := { s.aut with chal := Config.random s.freeCtr } } i (openedSession e k))
    (mkCpl (stagedId e) 0 cDone stOk 0)

theorem exec_sessionOpenVerify (s : State) : exec .sessionOpenVerify s = .next (sessionOpenVerify s) := rfl

/-- The firmware envelopes `l` begin. -/
def beginAll (l : List Staged) (s : State) : State := l.foldl (fun s x => beginFirmware x s) s

theorem beginAll_only (l : List Staged) (s : State) : ChangesOnly [.hst, .aut] s (beginAll l s) :=
  (Keeps.foldl (Keeps.refl _ s) fun _ _ h => beginFirmware_keeps h rfl).only

theorem beginAll_cplDue (l : List Staged) (s : State) : (beginAll l s).hst.cplDue = s.hst.cplDue :=
  foldl_leaves (g := fun u => u.hst.cplDue) (fun u x => beginFirmware_cplDue x u) l s

section
variable {s : State} {e : Staged} (he : s.hst.stage.find? (fun e => eKind e.bytes == 1) = some e)
include he

theorem sessionOpenVerify_waits (h : s.aut.devkeyOk = false ∨ commandWaits (s.hst.stage.takeWhile (fun e => eKind e.bytes != 1)) = true) :
    sessionOpenVerify s = s := by
  have hw : (!s.aut.devkeyOk || commandWaits (s.hst.stage.takeWhile (fun e => eKind e.bytes != 1))) = true := by
    obtain h | h := h <;> simp [h]
  simp only [sessionOpenVerify, he, hw, if_true]

variable (hk : s.aut.devkeyOk = true) (hw : commandWaits (s.hst.stage.takeWhile (fun e => eKind e.bytes != 1)) = false)
include hk hw

variable {u : State} (hu : u = beginAll (s.hst.stage.takeWhile (fun e => eKind e.bytes != 1)) s)
include hu

theorem sessionOpenVerify_refused {st : Nat} (hc : openChecks u e = .inl st) : sessionOpenVerify s = refuse e st (unstage e u) := by
  have hc' := (openChecks_congr (t := unstage e u) rfl rfl e).trans hc
  rw [hu, beginAll] at hc' ⊢
  simp only [sessionOpenVerify, he, hk, hw, hc', Bool.not_true, Bool.or_self, Bool.false_eq_true, if_false]

theorem sessionOpenVerify_granted {i : Nat} {k : Bytes} (hc : openChecks u e = .inr (i, k)) :
    sessionOpenVerify s = tlyDev 0x45 1 (openSession e i k (unstage e u)) := by
  have hc' := (openChecks_congr (t := unstage e u) rfl rfl e).trans hc
  rw [hu, beginAll] at hc' ⊢
  simp only [sessionOpenVerify, he, hk, hw, hc', Bool.not_true, Bool.or_self, Bool.false_eq_true, if_false, draw, openSession, openedSession]

end

theorem sessionOpen_refused {s u : State} {e : Staged} {st : Nat} (hu : ChangesOnly [.hst, .aut] s u)
    (hd : u.hst.cplDue = s.hst.cplDue) : ∃ t, refuse e st (unstage e u) = t ∧ t.aut = u.aut ∧ t.hst.stage = u.hst.stage.erase e ∧
      t.hst.cplDue = s.hst.cplDue ++ [mkCpl (stagedId e) (eOp e.bytes) cRefused st 0] ∧ t.std = s.std ∧ t.tsk = s.tsk := by
  have href := refuse_refuses e st (unstage e u)
  exact ⟨_, rfl, href.only .aut rfl, href.stage, href.cplDue.trans (congrArg (· ++ _) hd), (href.only .std rfl).trans (hu .std rfl),
    (href.only .tsk rfl).trans (hu .tsk rfl)⟩

theorem sessionOpen_granted {s u : State} {e : Staged} {i : Nat} {k : Bytes} (hu : ChangesOnly [.hst, .aut] s u)
    (hd : u.hst.cplDue = s.hst.cplDue) : ∃ t, tlyDev 0x45 1 (openSession e i k (unstage e u)) = t ∧
      tget {} t.aut.sess i = openedSession e k ∧ (∀ j, j ≠ i → tget {} t.aut.sess j = tget {} u.aut.sess j) ∧
      t.aut.chal = Config.random s.freeCtr ∧ t.freeCtr = s.freeCtr + 1 ∧ t.hst.stage = u.hst.stage.erase e ∧
      t.hst.cplDue = s.hst.cplDue ++ [mkCpl (stagedId e) 0 cDone stOk 0] := by
  have hfree : u.freeCtr = s.freeCtr := hu .freeCtr rfl
  have ht : ChangesOnly [.tly] (openSession e i k (unstage e u)) _ := (tlyDev_keeps (x1 := 0x45) (x2 := 1) (Keeps.refl _ _) rfl).only
  have hsess : (openSession e i k (unstage e u)).aut.sess = tset {} u.aut.sess i (openedSession e k) := rfl
  refine ⟨_, rfl, ?_⟩
  rw [ht .aut rfl, ht .freeCtr rfl, ht .hst rfl, hsess]
  exact ⟨tget_tset_same _ _ _ _, fun j hj => tget_tset_ne hj, congrArg Config.random hfree, congrArg (· + 1) hfree, rfl,
    congrArg (· ++ _) hd⟩

/-! ### A firmware envelope (R99) -/

theorem exec_firmwareEnvelopeVerify (s : State) : exec .firmwareEnvelopeVerify s = .next (firmwareVerify s) := rfl

/-- What becomes of a firmware envelope whose verification has begun with `st`. -/
def firmwareEnds (e : Staged) (st : Nat) (s : State) : State :=
  let v := if st ≠ 0 then st else firmwareBody s e.priv e.signer e.bytes
  if v ≠ 0 then refuse e v (unstage e s) else tlyDev 0x45 1 ((enterItem (stagedId e) (eOp e.bytes) e.bytes (unstage e s)).getD (unstage e s))

/-- The firmware envelope at the front begins and is found again as `f`, the begun one. -/
theorem firmwareVerify_front {s : State} {e f : Staged} {rest l : List Staged} {st : Nat} (hst : s.hst.stage = e :: rest)
    (hkind : eKind e.bytes = 2) (hfull : storeIsFull s = false) (hf : (beginFirmware e s).hst.stage = f :: l) (hb : f.begun = some st)
    (hbytes : f.bytes = e.bytes) (hslot : f.slot = e.slot) : firmwareVerify s = firmwareEnds f st (beginFirmware e s) := by
  have hp : pickStaged (fun e => eKind e.bytes == 2) [] s.hst.stage = some ([], e) := by
    rw [hst]
    exact pickStaged_front rest (by simp [hkind])
  have hw : commandWaits [] = false := rfl
  have hfind : (f :: l).find? (fun x => eKind x.bytes == 2 && x.begun.isSome && x.bytes == e.bytes && x.slot == e.slot) = some f :=
    List.find?_cons_of_pos (by simp [hbytes, hslot, hkind, hb])
  simp only [firmwareVerify, hp, hw, Bool.and_false, Bool.false_eq_true, if_false, hfull, hf, hfind, hb, Option.getD_some]
  rfl

/-- Settles O29: a session-open decides on the state in which the envelopes before it have begun; a firmware envelope ends as it began. -/
theorem sessionsOpenOnlyOnProof : Obligations.SessionsOpenOnlyOnProof := by
  refine ⟨fun s e he => ⟨fun h => ?waits, fun st hk hw hc => ?refused, fun i k hk hw hc => ?granted⟩, fun s e i k => openChecks_inr,
    fun s e rest hst hkind hfull => ⟨fun hb => ?begins, fun st hb => ?ends⟩⟩
  case waits => exact congrArg _ (sessionOpenVerify_waits he h)
  case refused =>
    obtain ⟨t, ht, hprops⟩ := sessionOpen_refused (e := e) (st := st) (beginAll_only _ s) (beginAll_cplDue _ s)
    have hv := sessionOpenVerify_refused he hk hw rfl hc
    exact ⟨t, (exec_sessionOpenVerify s).trans (congrArg _ (hv.trans ht)), hprops⟩
  case granted =>
    obtain ⟨t, ht, hown, hprops⟩ := sessionOpen_granted (e := e) (i := i) (k := k) (beginAll_only _ s) (beginAll_cplDue _ s)
    have hv := sessionOpenVerify_granted he hk hw rfl hc
    refine ⟨t, (exec_sessionOpenVerify s).trans (congrArg _ (hv.trans ht)), ?_, hprops⟩
    rw [hown]
    exact ⟨rfl, rfl, rfl, rfl, rfl, rfl, rfl, rfl⟩
  case begins =>
    obtain ⟨st, priv, l, hl⟩ := beginFirmware_front hst hb
    have hfull' : storeIsFull (beginFirmware e s) = false := by
      have hu : ChangesOnly [.hst, .aut] s (beginFirmware e s) := (beginFirmware_keeps (Keeps.refl _ s) rfl).only
      rw [storeIsFull, hu .tsk rfl]
      exact hfull
    have hid : beginFirmware { e with begun := some st, priv := priv, signer := signerSlot s e.bytes } (beginFirmware e s) =
        beginFirmware e s := beginFirmware_begun rfl _
    refine ⟨_, congrArg List.head? hl, rfl, rfl, rfl, ?_⟩
    rw [exec_firmwareEnvelopeVerify, exec_firmwareEnvelopeVerify, firmwareVerify_front hst hkind hfull hl rfl rfl rfl,
      firmwareVerify_front hl hkind hfull' (hid ▸ hl) rfl rfl rfl, hid]
  case ends =>
    have hid : beginFirmware e s = s := beginFirmware_begun (by rw [hb]; rfl) s
    have hv := firmwareVerify_front hst hkind hfull (hid ▸ hst) hb rfl rfl
    rw [hid] at hv
    refine ⟨fun hn => ?_, fun hz k hk => ?_⟩
    · obtain ⟨⟨hstage, hcpl, _, _, _, htsk, _, _⟩, haut⟩ := refuse_front hst (ChangesOnly.refl _ (unstage e s))
        (if st ≠ 0 then st else firmwareBody s e.priv e.signer e.bytes)
      exact ⟨_, (exec_firmwareEnvelopeVerify s).trans (congrArg _ (hv.trans (if_pos hn))), hstage, hcpl, haut, htsk⟩
    · have hu : ChangesOnly [.hst, .aut] s (unstage e s) := (unstage_keeps (Keeps.refl _ s) rfl).only
      obtain ⟨t, ht, hhst, haut, hitem, _⟩ := entered_front (e := e) hu hk
      have hstage : (unstage e s).hst.stage = rest := by rw [unstage_front hst]
      exact ⟨t, (exec_firmwareEnvelopeVerify s).trans (congrArg _ ((hv.trans (if_neg (not_not_intro hz))).trans ht)),
        hhst ▸ hstage, haut, hitem⟩

end Sys2Proof.Machine
end

section
/-! PROOFS. The class I commands (O34). -/

namespace Sys2Proof.Machine

theorem changesOnly_cmd (s : State) (c : Cmds) : ChangesOnly [.cmd] s { s with cmd := c } := by
  intro p hp
  cases p
  case cmd => exact absurd hp (by decide)
  all_goals rfl

/-! ### The command enters its flow (R63, R463) -/

theorem flowEnter_only (id : CmdId) (op : Nat) (s : State) : ChangesOnly [.regs, .flt, .cmd, .snr] s (flowEnter id op s) :=
  (flowEnter_keeps (Keeps.refl _ s) rfl).only

theorem flowEnter_cmd (id : CmdId) (op : Nat) (s : State) :
    (flowEnter id op s).cmd = { s.cmd with flowQ := s.cmd.flowQ ++ [{ ord := id.ord, flow := id.flow }] } := by
  have h (u : State) : (snareEvent (now s) 12 id.flow op u).cmd = u.cmd :=
    (snareEvent_keeps (Keeps.refl [.regs, .flt, .snr] u) rfl).only .cmd rfl
  exact h _

theorem rg_snrLose {o : Nat} (s : State) (hd : o ≠ rSNR_DROP) (he : o ≠ rSNR_EVT) (hy : o ≠ rSYS_YIELD_CNT 6) :
    rg (snrLose s) o = rg s o := by
  rw [snrLose, rg_report, yieldCount, count, rg_wr_ne _ _ _ _ hy, setEvt, rg_wr_ne _ _ _ _ he, count, rg_wr_ne _ _ _ _ hd]
  rfl

theorem rg_snareRecord {o : Nat} (t g i v : Nat) (s : State) (hd : o ≠ rSNR_DROP) (he : o ≠ rSNR_EVT) (hy : o ≠ rSYS_YIELD_CNT 6) :
    rg (snareRecord t g i v s) o = rg s o := by
  unfold snareRecord
  dsimp only
  split
  · split
    · rfl
    · exact rg_snrLose s hd he hy
  · rfl

theorem rg_flowEnter {o : Nat} (id : CmdId) (op : Nat) (s : State) (hd : o ≠ rSNR_DROP) (he : o ≠ rSNR_EVT) (hy : o ≠ rSYS_YIELD_CNT 6) :
    rg (flowEnter id op s) o = rg s o := rg_snareRecord _ _ _ _ _ hd he hy

/-! ### The trigger is evaluated (R467) -/

theorem snareEval_only (s : State) : ChangesOnly [.regs, .snr] s (snareEval s) := (snareEval_keeps (Keeps.refl _ s) rfl).only

theorem rg_snr (s : State) (n : Snr) (o : Nat) : rg { s with snr := n } o = rg s o := rfl

theorem rg_snareEval {o : Nat} (s : State) (he : o ≠ rSNR_EVT) (hm : o ≠ rSNR_MISSED) : rg (snareEval s) o = rg s o := by
  have htrig (t : Nat) (vec : U64) : rg (snareTrigger t vec s) o = rg s o := (rg_wr_ne _ _ _ _ he).trans (rg_snr _ _ _)
  have hmiss : rg (setEvt (count s rSNR_MISSED) rSNR_EVT (bitv 3)) o = rg s o := (rg_wr_ne _ _ _ _ he).trans (rg_wr_ne _ _ _ _ hm)
  have hfires (p : Prop) [Decidable p] :
      rg (if p then (if s.snr.st = 1 then snareTrigger (now s) (trigVec s) s else setEvt (count s rSNR_MISSED) rSNR_EVT (bitv 3)) else s) o =
        rg s o := by
    split
    · split
      · exact htrig _ _
      · exact hmiss
    · rfl
  by_cases h : s.snr.st = 0
  · rw [snareEval, if_pos h]
  · rw [snareEval, if_neg h]
    exact (rg_snr _ _ _).trans (hfires _)

/-! ### Its completion is due in its turn (R63, R180) -/

/-- A completion that no earlier command of its flow holds back is the one that may be written. -/
theorem flowGo_last {q : List FlowEnt} {f : Nat} (hq : ∀ y ∈ q, y.flow ≠ f ∧ y.cpl = none) {held : List Nat} (hh : f ∉ held)
    (o : Nat) (c : Cpl) : flowGo held (q ++ [{ ord := o, flow := f, cpl := some c }]) = (q, [c]) := by
  induction q generalizing held with
  | nil => simp [flowGo, hh]
  | cons y q ih =>
    obtain ⟨hflow, hcpl⟩ := hq y (List.mem_cons_self)
    have hih := ih (fun z hz => hq z (List.mem_cons_of_mem _ hz)) (held := y.flow :: held) (by simp [Ne.symm hflow, hh])
    rw [List.cons_append, flowGo, hcpl]
    simp only [hih]

/-- The COMMAND record of a completion, where it makes one. -/
def journalCpl (c : Cpl) (s : State) : State :=
  if c.journal then jnlCommand c.epoch c.seq c.opcode.toNat c.session (some c) s else s

theorem journalCpl_only (c : Cpl) (s : State) : ChangesOnly [.regs, .grn] s (journalCpl c s) := by
  unfold journalCpl
  split
  · exact (jnlCommand_keeps (Keeps.refl _ s) rfl).only
  · exact ChangesOnly.refl _ _

/-- The places of the flows with completion `c` in that of place `o` of verification order. -/
def flowMark (o : Nat) (c : Cpl) (q : List FlowEnt) : List FlowEnt := q.map (fun x => if x.ord = o then { x with cpl := some c } else x)

theorem flowMark_last {o : Nat} {q : List FlowEnt} (hq : ∀ y ∈ q, y.ord ≠ o) (f : Nat) (c : Cpl) :
    flowMark o c (q ++ [{ ord := o, flow := f }]) = q ++ [{ ord := o, flow := f, cpl := some c }] := by
  have hsame : flowMark o c q = q := (List.map_congr_left fun y hy => if_neg (hq y hy)).trans (List.map_id q)
  rw [flowMark] at hsame ⊢
  rw [List.map_append, hsame, List.map_singleton, if_pos rfl]

theorem cplOut_ord {c : Cpl} {o : Nat} (hc : c.ord = some o) (s : State) : cplOut c s =
    let r := flowGo [] (flowMark o c (journalCpl c s).cmd.flowQ)
    r.2.foldl postCpl { journalCpl c s with cmd := { (journalCpl c s).cmd with flowQ := r.1 } } := by
  rw [cplOut, hc]
  rfl

/-- The last command to enter a flow that holds no other completes: its completion is due at once. -/
theorem cplOut_last {s : State} {c : Cpl} {o f : Nat} {q : List FlowEnt} (hc : c.ord = some o)
    (hs : s.cmd.flowQ = q ++ [{ ord := o, flow := f }]) (hq : ∀ y ∈ q, y.flow ≠ f ∧ y.ord ≠ o ∧ y.cpl = none) :
    cplOut c s = postCpl { journalCpl c s with cmd := { s.cmd with flowQ := q } } c := by
  have hcmd : (journalCpl c s).cmd = s.cmd := journalCpl_only c s .cmd rfl
  have hgo : flowGo [] (flowMark o c s.cmd.flowQ) = (q, [c]) := by
    rw [hs, flowMark_last (fun y hy => (hq y hy).2.1)]
    exact flowGo_last (fun y hy => ⟨(hq y hy).1, (hq y hy).2.2⟩) List.not_mem_nil o c
  rw [cplOut_ord hc, hcmd, hgo]
  rfl

/-! ### The class I actions -/

theorem keySlot_congr {s t : State} (h : t.std = s.std) (i : Nat) : keySlot t i = keySlot s i := by
  simp only [keySlot, h]

theorem lastAdmin_congr {s t : State} (h : t.std = s.std) (i : Nat) : lastAdmin t i = lastAdmin s i := by
  simp only [lastAdmin, keySlot, h]

theorem sessExpired_congr {s t : State} (h : t.std.rtcSec = s.std.rtcSec) (v : Session) : sessExpired t v = sessExpired s v := by
  simp only [sessExpired, h]

theorem keySlot_setKeySlot_same (s : State) (i : Nat) (k : KeySlot) : keySlot (setKeySlot s i k) i = k := tget_tset_same _ _ _ _

theorem keySlot_setKeySlot_ne {i j : Nat} (s : State) (k : KeySlot) (h : j ≠ i) : keySlot (setKeySlot s i k) j = keySlot s j :=
  tget_tset_ne h

theorem mem_closeGranted {i : Nat} {s : State} {q : Nat × Session} :
    q ∈ (closeGranted i s).aut.sess ↔ q ∈ s.aut.sess ∧ (q.2.slot ≠ i ∨ sessExpired s q.2 = true) := by
  simp only [closeGranted, List.mem_filter, Bool.not_eq_true', Bool.and_eq_false_iff, beq_eq_false_iff_ne, Bool.not_eq_false']

theorem akeyInstall_installs {s : State} {i ceil : Nat} {key : Bytes} (id : CmdId)
    (hs : slotState (keySlot s i) = 0 ∨ slotState (keySlot s i) = 2) (hp : p384On (keyPoint key) = true) :
    akeyInstall id none i ceil key s =
      cmdDone id 0x0401 (keyTag key) (setKeySlot s i { keySlot s i with key := some key, ceil := ceil, gen := (keySlot s i).revCnt }) := by
  have hn : ¬ (slotState (keySlot s i) = 1 ∨ slotState (keySlot s i) = 3) := by omega
  simp only [akeyInstall, if_neg hn, hp, Bool.not_true, Bool.false_eq_true, if_false, Option.getD_none]

theorem akeyRevoke_revokes {s : State} {i : Nat} (id : CmdId) (hs : slotState (keySlot s i) = 1) (hl : lastAdmin s i = false) :
    akeyRevoke id none i s =
      closeGranted i (cmdDone id 0x0402 0 (setKeySlot s i { keySlot s i with revCnt := (keySlot s i).revCnt + 1 })) := by
  simp only [akeyRevoke, if_neg (not_not_intro hs), hl, Bool.false_eq_true, if_false, Option.getD_none]

theorem akeyReplace_replaces {s : State} {i ceil : Nat} {key : Bytes} (id : CmdId) (hs : slotState (keySlot s i) = 1)
    (hr : (keySlot s i).revCnt ≠ 15) (hp : p384On (keyPoint key) = true) (hc : ceil = 3 ∨ lastAdmin s i = false) :
    akeyReplace id none i ceil key s = closeGranted i (cmdDone id 0x0403 0 (setKeySlot s i
      { key := some key, ceil := ceil, gen := (keySlot s i).revCnt + 1, revCnt := (keySlot s i).revCnt + 1 })) := by
  have hl : (decide (ceil < 3) && lastAdmin s i) = false := by
    obtain hc | hc := hc <;> simp [hc]
  simp only [akeyReplace, if_neg (not_not_intro hs), if_neg hr, hp, hl, Bool.not_true, Bool.false_eq_true, if_false, Option.getD_none]

/-- The state with the set-up window open again (R47). -/
def windowReopened (s : State) : State := { s with sys := { s.sys with setupDone := false, reopened := true } }

theorem setupReopen_reopens {s : State} (id : CmdId) (h : convBlocked s = true) :
    setupReopen id none s = cmdDone id 0x0405 0 (prtReopen (windowReopened s)) := by
  simp only [setupReopen, h, Bool.not_true, Bool.false_eq_true, if_false, Option.getD_none, windowReopened]

theorem sessionKill_kills {s : State} {sid i : Nat} {v : Session} (id : CmdId) (hf : findSession s (u32 sid) = some (i, v))
    (hx : sessExpired s v = false) : ∃ u, u = cplOut (flowCpl id 0x0406 cDone stOk 0 0) s ∧
      sessionKill id none sid s = { u with aut := { u.aut with sess := tdel i u.aut.sess } } := by
  refine ⟨_, rfl, ?_⟩
  simp only [sessionKill, hf, hx, Bool.false_eq_true, if_false, Option.getD_none, cmdDone]

/-! ### A command's row -/

/-- Command `x` of opcode `op` has entered its flow, the last of those in it. -/
def entered (x : CmdSrc) (op : Nat) (s : State) : State :=
  flowEnter (cmdIdOf x s) op { s with cmd := { s.cmd with ord := s.cmd.ord + 1 } }

/-- No completion of the flow is held back at the commit of `x`. -/
def FlowFree (x : CmdSrc) (s : State) : Prop := ∀ y ∈ s.cmd.flowQ, y.flow ≠ x.flow ∧ y.ord ≠ s.cmd.ord ∧ y.cpl = none

theorem entered_only (x : CmdSrc) (op : Nat) (s : State) : ChangesOnly [.regs, .flt, .cmd, .snr] s (entered x op s) :=
  (changesOnly_cmd s _).mono rfl |>.trans (flowEnter_only _ _ _)

theorem entered_cmd (x : CmdSrc) (op : Nat) (s : State) : (entered x op s).cmd =
    { s.cmd with ord := s.cmd.ord + 1, flowQ := s.cmd.flowQ ++ [{ ord := s.cmd.ord, flow := x.flow }] } := flowEnter_cmd _ _ _

theorem cmdRow_immediate {op : Nat} {p : Bytes} {pl : Payload} (x : CmdSrc) (s : State) (hp : parsePayload op p = some pl)
    (hi : effClass op = .i) : cmdRow x op p s = snareEval (cmdImmediate (cmdIdOf x s) op pl none (entered x op s)) := by
  simp only [cmdRow, cmdRun, hp, hi, if_true, entered]

theorem epochNow_entered (x : CmdSrc) (op : Nat) (s : State) : epochNow (entered x op s) = epochNow s := by
  have hsys : (entered x op s).sys = s.sys := entered_only x op s .sys rfl
  have htick : (entered x op s).tick = s.tick := entered_only x op s .tick rfl
  cases hr : s.sys.running with
  | false => simp only [epochNow, hsys, hr, Bool.false_eq_true, if_false]
  | true => simp only [epochNow, lTicks, flenCode, now, hsys, htick, hr, if_true]

theorem convBlocked_entered (x : CmdSrc) (op : Nat) (s : State) : convBlocked (entered x op s) = convBlocked s := by
  have harm (a : Nat) : armMap (entered x op s) a = armMap s a := by simp only [armMap, entered_cmd]
  have hblocked (g : Nat) : groupBlocked (entered x op s) g = groupBlocked s g := by
    simp only [groupBlocked, group, deblockPending, epochNow_entered, entered_cmd]
  have harms (g : Nat) : groupArms (entered x op s) g = groupArms s g := by
    simp only [groupArms, armMapped, harm]
  simp only [convBlocked, harms, hblocked]

/-- The completion of `x` is due, and nothing but the journal and the flow's places has changed. -/
theorem cplOut_due {s v : State} {x : CmdSrc} {op : Nat} {c : Cpl} (hfree : FlowFree x s) (hc : c.ord = some s.cmd.ord)
    (hcmd : v.cmd = (entered x op s).cmd) (hhst : v.hst = s.hst) :
    (cplOut c v).hst = { s.hst with cplDue := s.hst.cplDue ++ [c] } ∧ ChangesOnly [.regs, .grn, .hst, .cmd] v (cplOut c v) ∧
      (c.journal = false → ChangesOnly [.hst, .cmd] v (cplOut c v)) := by
  have hq : v.cmd.flowQ = s.cmd.flowQ ++ [{ ord := s.cmd.ord, flow := x.flow }] := by rw [hcmd, entered_cmd]
  have hout := cplOut_last hc hq hfree
  have hj : (journalCpl c v).hst = s.hst := (journalCpl_only c v .hst rfl).trans hhst
  refine ⟨?_, (cplOut_keeps (Keeps.refl _ v) rfl).only, fun hn => ?_⟩
  · rw [hout, postCpl, hj]
  · have hv : journalCpl c v = v := by rw [journalCpl, hn]; rfl
    rw [hout, hv]
    exact ((changesOnly_cmd v _).mono rfl).trans ((postCpl_keeps (Keeps.refl _ _) rfl).only)

/-- A class I command completes on `v`, what it has made of the state: its completion is due, and only the journal and Snare follow. -/
theorem row_done {s v : State} {x : CmdSrc} {op : Nat} (hfree : FlowFree x s) (hcmd : v.cmd = (entered x op s).cmd) (hhst : v.hst = s.hst)
    {c : Cpl} (hc : c.ord = some s.cmd.ord) : (snareEval (cplOut c v)).hst = { s.hst with cplDue := s.hst.cplDue ++ [c] } ∧
      ChangesOnly [.regs, .grn, .hst, .cmd, .snr] v (snareEval (cplOut c v)) := by
  obtain ⟨hdue, honly, _⟩ := cplOut_due hfree hc hcmd hhst
  have he := snareEval_only (cplOut c v)
  exact ⟨(he .hst rfl).trans hdue, (honly.mono rfl).trans (he.mono rfl)⟩

/-- A completion without a COMMAND record leaves the journal and, but for Snare's, the registers. -/
theorem row_unjournaled {s v : State} {x : CmdSrc} {op : Nat} (hfree : FlowFree x s) (hcmd : v.cmd = (entered x op s).cmd)
    (hhst : v.hst = s.hst) {c : Cpl} (hc : c.ord = some s.cmd.ord) (hj : c.journal = false) :
    ChangesOnly [.regs, .hst, .cmd, .snr] v (snareEval (cplOut c v)) ∧
      ∀ o, o ≠ rSNR_EVT → o ≠ rSNR_MISSED → rg (snareEval (cplOut c v)) o = rg v o := by
  obtain ⟨_, _, honly⟩ := cplOut_due hfree hc hcmd hhst
  have he := snareEval_only (cplOut c v)
  exact ⟨((honly hj).mono rfl).trans (he.mono rfl), fun o hevt hmiss => (rg_snareEval _ hevt hmiss).trans (rg_congr (honly hj .regs rfl) o)⟩

/-- A command that changes slot `i` to `k` and closes what it granted (R84). -/
theorem row_closes {s : State} {x : CmdSrc} {op i : Nat} {k : KeySlot} (hfree : FlowFree x s) {c : Cpl} (hc : c.ord = some s.cmd.ord) :
    let t := snareEval (closeGranted i (cplOut c (setKeySlot (entered x op s) i k)))
    t.hst = { s.hst with cplDue := s.hst.cplDue ++ [c] } ∧ keySlot t i = k ∧ (∀ j, j ≠ i → keySlot t j = keySlot s j) ∧
      ∀ q, q ∈ t.aut.sess ↔ q ∈ s.aut.sess ∧ (q.2.slot ≠ i ∨ sessExpired s q.2 = true) := by
  intro t
  have hu := entered_only x op s
  obtain ⟨hdue, honly, _⟩ := cplOut_due (v := setKeySlot (entered x op s) i k) hfree hc rfl (hu .hst rfl)
  have he := snareEval_only (closeGranted i (cplOut c (setKeySlot (entered x op s) i k)))
  have hstd : t.std = (setKeySlot (entered x op s) i k).std := (he .std rfl).trans (honly .std rfl)
  have haut : (cplOut c (setKeySlot (entered x op s) i k)).aut = s.aut := (honly .aut rfl).trans (hu .aut rfl)
  have hrtc : (cplOut c (setKeySlot (entered x op s) i k)).std.rtcSec = s.std.rtcSec := by
    rw [honly .std rfl, ← hu .std rfl]
    rfl
  refine ⟨(he .hst rfl).trans hdue, (keySlot_congr hstd i).trans (keySlot_setKeySlot_same _ i k), fun j hj => ?_, fun q => ?_⟩
  · rw [keySlot_congr hstd, keySlot_setKeySlot_ne _ _ hj, keySlot_congr (hu .std rfl)]
  · rw [show t.aut = _ from he .aut rfl, mem_closeGranted, haut, sessExpired_congr hrtc]

/-- A class I command with a well-formed payload answers what `cmdImmediate` makes of the state that it has entered. -/
theorem gives_immediate {c : Instr} {s : State} {x : CmdSrc} {op : Nat} {p : Bytes} {pl : Payload} {P : State → Prop}
    (hx : exec c s = .next (cmdRow x op p s)) (hp : parsePayload op p = some pl) (hi : effClass op = .i)
    (h : P (snareEval (cmdImmediate (cmdIdOf x s) op pl none (entered x op s)))) : Gives c s P :=
  ⟨_, hx.trans (congrArg _ (cmdRow_immediate x s hp hi)), h⟩

/-! ### FW_UPDATE at its commit (R144) -/

theorem idleBank_entered (x : CmdSrc) (op : Nat) (s : State) (target : Nat) : idleBank (entered x op s) target = idleBank s target := by
  have h : rg (entered x op s) rSYS_BOOT_STAT = rg s rSYS_BOOT_STAT := rg_flowEnter _ _ _ (by decide) (by decide) (by decide)
  simp only [idleBank, h]

theorem bank_congr {s t : State} (h : t.std = s.std) (i : Nat) : bank t i = bank s i := by
  simp only [bank, h]

theorem exec_fwUpdate (x : CmdSrc) (p : Bytes) (s : State) : exec (.fwUpdate x p) s =
    .next (snareEval (fwUpdate (cmdIdOf x s) p { s with cmd := { s.cmd with ord := s.cmd.ord + 1 } })) := rfl

/-- An update that finds none in progress marks the idle bank invalid and waits. -/
theorem fwUpdate_starts {s : State} (x : CmdSrc) (p : Bytes) (h : s.cmd.fw = none) :
    fwUpdate (cmdIdOf x s) p { s with cmd := { s.cmd with ord := s.cmd.ord + 1 } } =
      setBank (idleBank s (rd p 35 1)).1 { bank s (idleBank s (rd p 35 1)).1 with mark := 0xFFFFFFFF }
        { entered x 0x0404 s with cmd := { (entered x 0x0404 s).cmd with fw := some (cmdIdOf x s, fit 480 p) } } := by
  have hfw : (entered x 0x0404 s).cmd.fw = none := by rw [entered_cmd]; exact h
  have hbank (i : Nat) : bank (entered x 0x0404 s) i = bank s i := bank_congr (entered_only x 0x0404 s .std rfl) i
  rw [entered] at hfw
  simp only [fwUpdate, hfw, Option.isSome_none, Bool.false_eq_true, if_false, ← idleBank_entered x 0x0404 s, ← hbank, entered]

/-! ### Each command -/

section
variable {s : State} {x : CmdSrc} (hfree : FlowFree x s)
include hfree

theorem nop_done : Gives (.nop x []) s fun t =>
    t.hst = { s.hst with cplDue := s.hst.cplDue ++ [flowCpl (cmdIdOf x s) 0x0101 cDone stOk 0 (u32 (epochNow s))] } ∧
      ChangesOnly [.regs, .hst, .flt, .cmd, .snr] s t := by
  refine gives_immediate rfl rfl rfl ?_
  have hu := entered_only x 0x0101 s
  rw [← epochNow_entered x 0x0101 s]
  have hc : (flowCpl (cmdIdOf x s) 0x0101 cDone stOk 0 (u32 (epochNow (entered x 0x0101 s)))).ord = some s.cmd.ord := rfl
  obtain ⟨hdone, _⟩ := row_done hfree rfl (hu .hst rfl) hc
  obtain ⟨honly, _⟩ := row_unjournaled hfree rfl (hu .hst rfl) hc rfl
  exact ⟨hdone, (hu.mono rfl).trans (honly.mono rfl)⟩

theorem sessionClose_done : Gives (.sessionClose x []) s fun t =>
    t.hst = { s.hst with cplDue := s.hst.cplDue ++ [flowCpl (cmdIdOf x s) 0x0102 cDone stOk 0 0 false (some x.session)] } ∧
      ChangesOnly [.regs, .hst, .flt, .cmd, .snr] s t := by
  refine gives_immediate rfl rfl rfl ?_
  have hu := entered_only x 0x0102 s
  have hc : (flowCpl (cmdIdOf x s) 0x0102 cDone stOk 0 0 false (some x.session)).ord = some s.cmd.ord := rfl
  obtain ⟨hdone, _⟩ := row_done hfree rfl (hu .hst rfl) hc
  obtain ⟨honly, _⟩ := row_unjournaled hfree rfl (hu .hst rfl) hc rfl
  exact ⟨hdone, (hu.mono rfl).trans (honly.mono rfl)⟩

theorem timeCfg_done {p : Bytes} (hn : p.length = 4) (h1 : 100 ≤ rd p 0 4) (h2 : rd p 0 4 ≤ 1000000000) : Gives (.timeCfg x p) s fun t =>
    t.hst = { s.hst with cplDue := s.hst.cplDue ++ [flowCpl (cmdIdOf x s) 0x0309 cDone stOk 0 0] } ∧
      rg t rTIM_STEP_THR = u32 (rd p 0 4) ∧ ChangesOnly [.regs, .hst, .flt, .cmd, .snr] s t := by
  have hparse : parsePayload 0x0309 p = some (.timeCfg (rd p 0 4)) := by
    simp [parsePayload, hn, h1, h2]
  refine gives_immediate rfl hparse rfl ?_
  have hu := entered_only x 0x0309 s
  have hw : ChangesOnly [.regs] (entered x 0x0309 s) (wr (entered x 0x0309 s) rTIM_STEP_THR (u32 (rd p 0 4))) :=
    (wr_keeps (Keeps.refl _ _) rfl).only
  have hc : (flowCpl (cmdIdOf x s) 0x0309 cDone stOk 0 0).ord = some s.cmd.ord := rfl
  obtain ⟨hdone, _⟩ := row_done hfree (hw .cmd rfl) ((hw .hst rfl).trans (hu .hst rfl)) hc
  obtain ⟨honly, hrg⟩ := row_unjournaled hfree (hw .cmd rfl) ((hw .hst rfl).trans (hu .hst rfl)) hc rfl
  have hthr := (hrg rTIM_STEP_THR (by decide) (by decide)).trans (rg_wr_same _ _ _)
  exact ⟨hdone, hthr, (hu.mono rfl).trans ((hw.mono rfl).trans (honly.mono rfl))⟩

theorem akeyInstall_done {p : Bytes} {i ceil : Nat} {key : Bytes} (hp : parsePayload 0x0401 p = some (.key i ceil key))
    (hs : slotState (keySlot s i) = 0 ∨ slotState (keySlot s i) = 2) (hon : p384On (keyPoint key) = true) : Gives (.akeyInstall x p) s fun t =>
    t.hst = { s.hst with cplDue := s.hst.cplDue ++ [flowCpl (cmdIdOf x s) 0x0401 cDone stOk 0 (keyTag key)] } ∧
      keySlot t i = { keySlot s i with key := some key, ceil := ceil, gen := (keySlot s i).revCnt } ∧
      (∀ j, j ≠ i → keySlot t j = keySlot s j) ∧ t.aut = s.aut := by
  have hu := entered_only x 0x0401 s
  have hslot (j : Nat) : keySlot (entered x 0x0401 s) j = keySlot s j := keySlot_congr (hu .std rfl) j
  have hact := akeyInstall_installs (cmdIdOf x s) (s := entered x 0x0401 s) (ceil := ceil) ((hslot i).symm ▸ hs) hon
  refine gives_immediate rfl hp rfl ?_
  rw [show cmdImmediate _ 0x0401 (.key i ceil key) none _ = _ from hact, hslot]
  have hc : (flowCpl (cmdIdOf x s) 0x0401 cDone stOk 0 (keyTag key)).ord = some s.cmd.ord := rfl
  obtain ⟨hdone, honly⟩ := row_done hfree (op := 0x0401) (v := setKeySlot (entered x 0x0401 s) i _) rfl (hu .hst rfl) hc
  exact ⟨hdone, (keySlot_congr (honly .std rfl) i).trans (keySlot_setKeySlot_same _ _ _),
    fun j hj => ((keySlot_congr (honly .std rfl) j).trans (keySlot_setKeySlot_ne _ _ hj)).trans (hslot j),
    (honly .aut rfl).trans (hu .aut rfl)⟩

theorem akeyRevoke_done {p : Bytes} {i : Nat} (hp : parsePayload 0x0402 p = some (.slot i)) (hs : slotState (keySlot s i) = 1)
    (hl : lastAdmin s i = false) : Gives (.akeyRevoke x p) s fun t =>
    t.hst = { s.hst with cplDue := s.hst.cplDue ++ [flowCpl (cmdIdOf x s) 0x0402 cDone stOk 0 0] } ∧
      keySlot t i = { keySlot s i with revCnt := (keySlot s i).revCnt + 1 } ∧ (∀ j, j ≠ i → keySlot t j = keySlot s j) ∧
      ∀ q, q ∈ t.aut.sess ↔ q ∈ s.aut.sess ∧ (q.2.slot ≠ i ∨ sessExpired s q.2 = true) := by
  have hstd : (entered x 0x0402 s).std = s.std := entered_only x 0x0402 s .std rfl
  have hslot : keySlot (entered x 0x0402 s) i = keySlot s i := keySlot_congr hstd i
  have hact := akeyRevoke_revokes (cmdIdOf x s) (s := entered x 0x0402 s) (hslot.symm ▸ hs) ((lastAdmin_congr hstd i).trans hl)
  refine gives_immediate rfl hp rfl ?_
  rw [show cmdImmediate _ 0x0402 (.slot i) none _ = _ from hact, hslot]
  exact row_closes hfree rfl

theorem akeyReplace_done {p : Bytes} {i ceil : Nat} {key : Bytes} (hp : parsePayload 0x0403 p = some (.key i ceil key))
    (hs : slotState (keySlot s i) = 1) (hr : (keySlot s i).revCnt ≠ 15) (hon : p384On (keyPoint key) = true)
    (hc : ceil = 3 ∨ lastAdmin s i = false) : Gives (.akeyReplace x p) s fun t =>
    t.hst = { s.hst with cplDue := s.hst.cplDue ++ [flowCpl (cmdIdOf x s) 0x0403 cDone stOk 0 0] } ∧
      keySlot t i = { key := some key, ceil := ceil, gen := (keySlot s i).revCnt + 1, revCnt := (keySlot s i).revCnt + 1 } ∧
      (∀ j, j ≠ i → keySlot t j = keySlot s j) ∧
      ∀ q, q ∈ t.aut.sess ↔ q ∈ s.aut.sess ∧ (q.2.slot ≠ i ∨ sessExpired s q.2 = true) := by
  have hstd : (entered x 0x0403 s).std = s.std := entered_only x 0x0403 s .std rfl
  have hslot : keySlot (entered x 0x0403 s) i = keySlot s i := keySlot_congr hstd i
  have hact := akeyReplace_replaces (cmdIdOf x s) (s := entered x 0x0403 s) (hslot.symm ▸ hs) (hslot.symm ▸ hr) hon
    ((lastAdmin_congr hstd i).symm ▸ hc)
  refine gives_immediate rfl hp rfl ?_
  rw [show cmdImmediate _ 0x0403 (.key i ceil key) none _ = _ from hact, hslot]
  exact row_closes hfree rfl

theorem setupReopen_done (hb : convBlocked s = true) : Gives (.setupReopen x []) s fun t =>
    t.hst = { s.hst with cplDue := s.hst.cplDue ++ [flowCpl (cmdIdOf x s) 0x0405 cDone stOk 0 0] } ∧
      t.sys.setupDone = false ∧ t.sys.reopened = true := by
  have hu := entered_only x 0x0405 s
  have hact := setupReopen_reopens (cmdIdOf x s) ((convBlocked_entered x 0x0405 s).trans hb)
  refine gives_immediate rfl rfl rfl ?_
  rw [show cmdImmediate _ 0x0405 .none none _ = _ from hact]
  have hw : ChangesOnly [.regs, .flt, .prt, .snr, .stk] (windowReopened (entered x 0x0405 s)) (prtReopen (windowReopened (entered x 0x0405 s))) :=
    (prtReopen_keeps (Keeps.refl _ _) rfl).only
  have hc : (flowCpl (cmdIdOf x s) 0x0405 cDone stOk 0 0).ord = some s.cmd.ord := rfl
  obtain ⟨hdone, honly⟩ := row_done hfree (op := 0x0405) (hw .cmd rfl) ((hw .hst rfl).trans (hu .hst rfl)) hc
  have hsys := (honly .sys rfl).trans (hw .sys rfl)
  exact ⟨hdone, congrArg Sys.setupDone hsys, congrArg Sys.reopened hsys⟩

theorem sessionKill_done {p : Bytes} {sid i : Nat} {v : Session} (hp : parsePayload 0x0406 p = some (.session sid))
    (hf : findSession s (u32 sid) = some (i, v)) (hx : sessExpired s v = false) : Gives (.sessionKill x p) s fun t =>
    t.hst = { s.hst with cplDue := s.hst.cplDue ++ [flowCpl (cmdIdOf x s) 0x0406 cDone stOk 0 0] } ∧
      tget {} t.aut.sess i = {} ∧ (∀ j, j ≠ i → tget {} t.aut.sess j = tget {} s.aut.sess j) ∧ t.std = s.std := by
  have hu := entered_only x 0x0406 s
  have hfind : findSession (entered x 0x0406 s) (u32 sid) = some (i, v) := by
    rw [findSession, hu .aut rfl]
    exact hf
  have hlive : sessExpired (entered x 0x0406 s) v = false := (sessExpired_congr (congrArg Std.rtcSec (hu .std rfl)) v).trans hx
  obtain ⟨w, hw, hact⟩ := sessionKill_kills (cmdIdOf x s) hfind hlive
  obtain ⟨hdue, honly, _⟩ := cplOut_due hfree (op := 0x0406) (c := flowCpl (cmdIdOf x s) 0x0406 cDone stOk 0 0) rfl rfl (hu .hst rfl)
  rw [← hw] at hdue honly
  have haut : w.aut = s.aut := (honly .aut rfl).trans (hu .aut rfl)
  refine gives_immediate rfl hp rfl ?_
  rw [show cmdImmediate _ 0x0406 (.session sid) none _ = _ from hact]
  have he := snareEval_only { w with aut := { w.aut with sess := tdel i w.aut.sess } }
  rw [he .hst rfl, he .aut rfl, he .std rfl]
  refine ⟨hdue, tget_tdel_same _ _ _, fun j hj => (tget_tdel_ne hj).trans ?_, (honly .std rfl).trans (hu .std rfl)⟩
  rw [haut]

end

theorem fwUpdate_waits {s : State} (x : CmdSrc) (p : Bytes) (h : s.cmd.fw = none) : Gives (.fwUpdate x p) s fun t =>
    let i := (idleBank s (rd p 35 1)).1
    bank t i = { bank s i with mark := 0xFFFFFFFF } ∧ (∀ j, j ≠ i → bank t j = bank s j) ∧ t.cmd.fw = some (cmdIdOf x s, fit 480 p) ∧
      t.hst = s.hst := by
  have hu := entered_only x 0x0404 s
  refine ⟨_, exec_fwUpdate x p s, ?_⟩
  rw [fwUpdate_starts x p h]
  have he := snareEval_only (setBank (idleBank s (rd p 35 1)).1 { bank s (idleBank s (rd p 35 1)).1 with mark := 0xFFFFFFFF }
    { entered x 0x0404 s with cmd := { (entered x 0x0404 s).cmd with fw := some (cmdIdOf x s, fit 480 p) } })
  have hbank (j : Nat) := bank_congr (he .std rfl) j
  have hold (j : Nat) : bank (entered x 0x0404 s) j = bank s j := bank_congr (hu .std rfl) j
  refine ⟨(hbank _).trans (tget_tset_same _ _ _ _), fun j hj => ((hbank j).trans (tget_tset_ne hj)).trans (hold j), ?_,
    (he .hst rfl).trans (hu .hst rfl)⟩
  rw [he .cmd rfl]
  rfl

/-- Settles O34: each command's action is one change of the state that it entered, and its completion is due after it. -/
theorem immediateCommandsActAtTheirCommit : Obligations.ImmediateCommandsActAtTheirCommit := by
  intro s x p hfree
  refine ⟨fun hp => hp ▸ nop_done hfree, fun hp => hp ▸ sessionClose_done hfree, fun hn h1 h2 => timeCfg_done hfree hn h1 h2,
    fun i ceil key hp hs hon => akeyInstall_done hfree hp hs hon, fun i hp hs hl => ?revoke, fun i ceil key hp hs hr hon hc => ?replace,
    fun hp hb => hp ▸ setupReopen_done hfree hb, fun sid i v hp hf hx => sessionKill_done hfree hp hf hx, fun hfw => fwUpdate_waits x p hfw⟩
  case revoke =>
    obtain ⟨t, ht, hdone, hown, hothers, hsess⟩ := akeyRevoke_done hfree hp hs hl
    exact ⟨t, ht, hdone, hown, hothers, fun q hq => (hsess q).1 hq, fun q hq hne => (hsess q).2 ⟨hq, .inl hne⟩⟩
  case replace =>
    obtain ⟨t, ht, hdone, hown, hothers, hsess⟩ := akeyReplace_done hfree hp hs hr hon hc
    exact ⟨t, ht, hdone, hown, hothers, fun q hq => ((hsess q).1 hq).2⟩

end Sys2Proof.Machine
end

section
/-! PROOFS. The commands with an effect epoch: their refusals, and how an accepted one waits (O32). -/

namespace Sys2Proof.Machine

/-! ### A pending effect (R114, R499) -/

/-- `y` is the effect `e`, but for what its completion will say of it. -/
structure SameEff (y e : Eff) : Prop where
  id : y.id = e.id
  op : y.op = e.op
  epoch : y.epoch = e.epoch
  payload : y.payload = e.payload
  entry : y.entry = e.entry
  applied : y.applied = e.applied

theorem SameEff.refl (e : Eff) : SameEff e e := ⟨rfl, rfl, rfl, rfl, rfl, rfl⟩

theorem SameEff.trans {x y z : Eff} (h : SameEff x y) (g : SameEff y z) : SameEff x z :=
  ⟨h.id.trans g.id, h.op.trans g.op, h.epoch.trans g.epoch, h.payload.trans g.payload, h.entry.trans g.entry, h.applied.trans g.applied⟩

/-- Effect `e` waits in `s`. -/
def Pends (e : Eff) (s : State) : Prop := ∃ y ∈ s.cmd.pend, SameEff y e

theorem Pends.map {e : Eff} {s t : State} {f : Eff → Eff} (h : Pends e s) (ht : t.cmd.pend = s.cmd.pend.map f)
    (hf : ∀ y, SameEff (f y) y) : Pends e t := by
  obtain ⟨y, hy, hye⟩ := h
  exact ⟨f y, ht ▸ List.mem_map_of_mem hy, (hf y).trans hye⟩

theorem Pends.congr {e : Eff} {s t : State} (h : Pends e s) (ht : t.cmd.pend = s.cmd.pend) : Pends e t := by
  rwa [Pends, ht]

theorem pends_modEff {e : Eff} {s : State} (h : e ∈ s.cmd.pend) (f : Eff → Eff) : Pends (f e) (modEff e.id.ord f s) :=
  ⟨f e, List.mem_map.2 ⟨e, h, if_pos rfl⟩, SameEff.refl _⟩

/-- The confirmation by the partner marks the effect among those pending, and changes nothing else of the command flows. -/
theorem replicateEff_marks (e : Eff) (s : State) : ∃ (f : Eff → Eff) (u : State), (∀ y, SameEff (f y) y) ∧ u.cmd = s.cmd ∧
    replicateEff e s = modEff e.id.ord f u := by
  have hsend (words : List U64) : (stkSend 4 e.epoch words s).cmd = s.cmd := (stkSend_keeps (Keeps.refl [.stk] s) rfl).only .cmd rfl
  have hnone : s = modEff e.id.ord id s := by simp [modEff]
  unfold replicateEff
  split
  · split
    · exact ⟨fun x => { x with notRepl := true }, s, fun y => ⟨rfl, rfl, rfl, rfl, rfl, rfl⟩, rfl, rfl⟩
    · next hup =>
      rw [effectSend, if_neg hup]
      refine ⟨_, _, ?_, hsend _, rfl⟩
      exact fun y => ⟨rfl, rfl, rfl, rfl, rfl, rfl⟩
  · exact ⟨id, s, SameEff.refl, rfl, hnone⟩

theorem replicateEff_cmd (e : Eff) (s : State) :
    ∃ f : Eff → Eff, (∀ y, SameEff (f y) y) ∧ (replicateEff e s).cmd = { s.cmd with pend := s.cmd.pend.map f } := by
  obtain ⟨f, u, hf, hu, h⟩ := replicateEff_marks e s
  refine ⟨fun y => if y.id.ord = e.id.ord then f y else y, fun y => ?_, by rw [h, modEff, hu]⟩
  dsimp only
  split
  · exact hf y
  · exact SameEff.refl y

theorem Pends.replicateEff {e x : Eff} {s : State} (h : Pends e s) : Pends e (replicateEff x s) := by
  obtain ⟨f, hf, hcmd⟩ := replicateEff_cmd x s
  exact h.map (congrArg Cmds.pend hcmd) hf

/-! ### What an accepted command decides at once (R127, R128, R132, R133) -/

theorem foldl_linePush_pend (gs : List Nat) (x : Turn) (s : State) : (gs.foldl (fun s g => linePush g x s) s).cmd.pend = s.cmd.pend :=
  foldl_leaves (g := fun u => u.cmd.pend) (f := fun s g => linePush g x s) (fun _ _ => rfl) gs s

theorem foldl_linePush_fur (gs : List Nat) (x : Turn) (s : State) : (gs.foldl (fun s g => linePush g x s) s).fur = s.fur :=
  foldl_leaves (g := fun u => u.fur) (f := fun s g => linePush g x s) (fun _ _ => rfl) gs s

theorem lineCancel_pend (s : State) (e : Eff) : (lineCancel s e).cmd.pend = s.cmd.pend :=
  foldl_leaves (g := fun u => u.cmd.pend)
    (f := fun s g => setGroup s g { group s g with line := (group s g).line.filter (fun x => x.on || x.ord != e.id.ord) }) (fun _ _ => rfl) _ s

/-- A cancelled DEBLOCK stays among the pending effects until its completion. -/
theorem Pends.cancelDeblocks {e : Eff} {s : State} (h : Pends e s) (p : Eff → Bool) (st k : Nat) : Pends e (cancelDeblocks p st k s) := by
  have hpend : ((s.cmd.pend.filter p).foldl lineCancel s).cmd.pend = s.cmd.pend :=
    foldl_leaves (g := fun u => u.cmd.pend) lineCancel_pend _ s
  refine h.map (f := fun y => if p y then { y with ended := some (cFailed, st), at_ := some k } else y) ?_ fun y => ?_
  · rw [Machine.cancelDeblocks, hpend]
  · split
    · exact ⟨rfl, rfl, rfl, rfl, rfl, rfl⟩
    · exact SameEff.refl y

theorem decide1_deblock {e : Eff} {m : Nat} (hp : e.payload = .groupMask m) (ho : e.op = 0x0203) (s : State) :
    decide1 e s = (idxs 4 m.testBit).foldl (fun s g => linePush g { e := e.epoch, ord := e.id.ord } s) s := by
  simp only [decide1, hp, ho, if_true]

theorem decide1_block {e : Eff} {m : Nat} (hp : e.payload = .groupMask m) (ho : e.op ≠ 0x0203) (s : State) :
    decide1 e s = (idxs 4 m.testBit).foldl (fun s g => linePush g { e := e.epoch, j := e.epoch - e.la, on := true, ord := e.id.ord } s)
      (cancelDeblocks (cancelled s m (e.epoch - e.la)) stSuperseded e.epoch s) := by
  simp only [decide1, hp, if_neg ho]

theorem decide1_cells {e : Eff} {cs : List Nat} (hp : e.payload = .cells cs) (s : State) :
    decide1 e s = cs.foldl (setTurn (e.op == 0x0301) e.epoch e.id.ord) s := by
  simp only [decide1, hp]

theorem decide1_ringCtl {e : Eff} {r act : Nat} (hp : e.payload = .ringCtl r act) (s : State) : decide1 e s = ringAccept e r act s := by
  simp only [decide1, hp]

theorem Pends.decideGroups {e x : Eff} {s : State} (h : Pends e s) {m : Nat} (hp : x.payload = .groupMask m) : Pends e (decide1 x s) := by
  by_cases ho : x.op = 0x0203
  · rw [decide1_deblock hp ho]
    exact h.congr (foldl_linePush_pend _ _ s)
  · rw [decide1_block hp ho]
    exact (h.cancelDeblocks _ _ _).congr (foldl_linePush_pend _ _ _)

theorem decideGroups_fur {e : Eff} {m : Nat} (hp : e.payload = .groupMask m) (s : State) : (decide1 e s).fur = s.fur := by
  by_cases ho : e.op = 0x0203
  · rw [decide1_deblock hp ho]
    exact foldl_linePush_fur _ _ s
  · rw [decide1_block hp ho]
    exact (foldl_linePush_fur _ _ _).trans ((cancelDeblocks_keeps (Keeps.refl [.cmd] s) rfl).only .fur rfl)

theorem foldl_setTurn_pend (cs : List Nat) (on : Bool) (e ord : Nat) (s : State) : (cs.foldl (setTurn on e ord) s).cmd.pend = s.cmd.pend :=
  foldl_leaves (g := fun u => u.cmd.pend) (f := setTurn on e ord) (fun _ _ => rfl) cs s

theorem foldl_setTurn_fur (cs : List Nat) (on : Bool) (e ord : Nat) (s : State) : (cs.foldl (setTurn on e ord) s).fur = s.fur :=
  foldl_leaves (g := fun u => u.fur) (f := setTurn on e ord) (fun _ _ => rfl) cs s

/-! ### RING_CTL at its acceptance (R207, R220) -/

/-- A DISABLE that finds its ring in DRAIN. -/
def EndsTraining (s : State) (pl : Payload) : Prop := ∃ r, pl = .ringCtl r 1 ∧ (ring s r).st = 6

/-- An ENABLE or RETRAIN that finds its ring OFF or FAILED. -/
def StartsTraining (s : State) (pl : Payload) : Prop :=
  ∃ r act, pl = .ringCtl r act ∧ act ≠ 1 ∧ ((ring s r).st = 0 ∨ (ring s r).st = 7)

/-- A ring that was not wrapped starts training, and no look-ahead follows. -/
theorem startTrain_trains {r : Nat} {s : State} (h : (ring s r).st ≠ 5) :
    (startTrain r s).cmd = s.cmd ∧ (ring (startTrain r s) r).st = 1 := by
  have henter {u : State} (hu : (ring u r).st ≠ 5) : ringEnter r 1 u = ringTo r 1 u := by
    rw [ringEnter, if_neg (by omega)]
  have hoff {u : State} {f : TxFrame} {v : Ring} (hv : v.st = (ring s r).st) (hu : u = setRing s r v) :
      (ring (setTx r f (frameLossOff r u)) r).st ≠ 5 := by
    have hst : (ring (setTx r f (frameLossOff r u)) r).st = (ring (frameLossOff r u) r).st := rfl
    rwa [hst, ring_frameLossOff_st, hu, setRing_same, hv]
  have hcmd (u : State) : (ringTo r 1 u).cmd = u.cmd := (ringTo_keeps (Keeps.refl [.regs, .flt, .ints, .cores, .fur, .snr] u) rfl).only .cmd rfl
  have hloss (u : State) : (frameLossOff r u).cmd = u.cmd := (frameLossOff_keeps (Keeps.refl [.regs, .flt, .fur, .snr] u) rfl).only .cmd rfl
  rw [startTrain, henter (hoff (by rfl) rfl)]
  exact ⟨(hcmd _).trans (hloss _), by rw [ring_ringTo_st, if_pos rfl]⟩

theorem ring_ringRestore_st (r : Nat) (s : State) : (ring (ringRestore r s) r).st = (ring s r).st := by
  rw [ringRestore, setRing_same]
  rfl

theorem ringAccept_ends {e : Eff} {r : Nat} {s : State} (hrole : s.stk.role ≠ 1) (h : (ring s r).st = 6) :
    ringAccept e r 1 s = modEff e.id.ord (fun y => { y with applied := true, prog := 1 }) (setRing s r { ring s r with retrain := false }) := by
  simp only [ringAccept, if_neg hrole, h, if_true]

theorem ringAccept_trains {e : Eff} {r act : Nat} {s : State} (hrole : s.stk.role ≠ 1) (ha : act ≠ 1)
    (h : (ring s r).st = 0 ∨ (ring s r).st = 7) :
    ringAccept e r act s = modEff e.id.ord (fun y => { y with applied := true }) (startTrain r (ringRestore r s)) := by
  simp only [ringAccept, if_neg hrole, if_neg ha, if_pos h]

theorem ringAccept_waits {e : Eff} {r act : Nat} {s : State} (he : ¬ EndsTraining s (.ringCtl r act))
    (ht : ¬ StartsTraining s (.ringCtl r act)) : ringAccept e r act s = s := by
  unfold ringAccept
  dsimp only
  split
  · rfl
  split
  · next ha => rw [if_neg fun h => he ⟨r, by rw [ha], h⟩]
  · next ha => rw [if_neg fun h => ht ⟨r, act, rfl, ha, h⟩]

/-! ### Acceptance (R112, R114) -/

/-- The effect as which an accepted command joins the pending effects. -/
def acceptedEff (id : CmdId) (op : Nat) (pl : Payload) (p : Bytes) (res : Option U32) (ep : Nat) (s : State) : Eff :=
  { id := id, op := op, epoch := ep, payload := storedPayload s pl, entry := op != 0x0202, tc := now s,
    la := if op = 0x0202 then ep - blockFrame s (now s) else 0, bytes := if carried op then envBytes id op p else [],
    result := res.getD (resultOf pl), fixed := res.isSome }

/-- The state in which effect `e` has joined the pending effects. -/
def withEff (e : Eff) (s : State) : State := { s with cmd := { s.cmd with pend := s.cmd.pend ++ [e] } }

theorem mem_withEff (e : Eff) (s : State) : e ∈ (withEff e s).cmd.pend := List.mem_append_right _ (List.mem_singleton_self e)

theorem accept_eq (id : CmdId) (op : Nat) (pl : Payload) (p : Bytes) (res : Option U32) (ep : Nat) (s : State) :
    accept id op pl p res ep s = replicateEff (acceptedEff id op pl p res ep s) (decide1 (acceptedEff id op pl p res ep s)
      (withEff (acceptedEff id op pl p res ep s) s)) := rfl

theorem storedPayload_ringCtl {s : State} {pl : Payload} {r act : Nat} : storedPayload s pl = .ringCtl r act ↔ pl = .ringCtl r act := by
  cases pl with
  | snareArm action pre groups val mask =>
    unfold storedPayload
    split
    · dsimp only
      split <;> simp
    · rfl
  | _ => rfl

/-- An effect that does nothing to a ring's training waits, and Furrow stays as it is. -/
theorem decide1_waits {e : Eff} {s : State} (h : Pends e s) (he : ¬ EndsTraining s e.payload) (ht : ¬ StartsTraining s e.payload) :
    Pends e (decide1 e s) ∧ (decide1 e s).fur = s.fur := by
  cases hp : e.payload with
  | ringCtl r act =>
    rw [decide1_ringCtl hp, ringAccept_waits (hp ▸ he) (hp ▸ ht)]
    exact ⟨h, rfl⟩
  | groupMask m => exact ⟨h.decideGroups hp, decideGroups_fur hp s⟩
  | cells cs =>
    rw [decide1_cells hp]
    exact ⟨h.congr (foldl_setTurn_pend _ _ _ _ _), foldl_setTurn_fur _ _ _ _ _⟩
  | snareArm action pre groups val mask =>
    have hd : (decide1 e s).cmd = s.cmd ∧ (decide1 e s).fur = s.fur := by
      by_cases ha : action = 1 <;> simp [decide1, hp, ha]
    exact ⟨h.congr (congrArg Cmds.pend hd.1), hd.2⟩
  | _ =>
    unfold decide1
    rw [hp]
    exact ⟨h, rfl⟩

theorem ring_modEff (ord : Nat) (f : Eff → Eff) (s : State) (r : Nat) : ring (modEff ord f s) r = ring s r := rfl

theorem decide1_ends {e : Eff} {s : State} {r : Nat} (he : e ∈ s.cmd.pend) (hrole : s.stk.role ≠ 1) (hp : e.payload = .ringCtl r 1)
    (hst : (ring s r).st = 6) :
    Pends { e with applied := true, prog := 1 } (decide1 e s) ∧ (ring (decide1 e s) r).retrain = false ∧ (ring (decide1 e s) r).st = 6 := by
  rw [decide1_ringCtl hp, ringAccept_ends hrole hst, ring_modEff, setRing_same]
  exact ⟨pends_modEff (s := setRing s r _) he _, rfl, hst⟩

theorem decide1_trains {e : Eff} {s : State} {r act : Nat} (he : e ∈ s.cmd.pend) (hrole : s.stk.role ≠ 1) (hp : e.payload = .ringCtl r act)
    (ha : act ≠ 1) (hst : (ring s r).st = 0 ∨ (ring s r).st = 7) :
    Pends { e with applied := true } (decide1 e s) ∧ (ring (decide1 e s) r).st = 1 := by
  rw [decide1_ringCtl hp, ringAccept_trains hrole ha hst, ring_modEff]
  have hst' : (ring (ringRestore r s) r).st ≠ 5 := by rw [ring_ringRestore_st]; omega
  obtain ⟨hcmd, hring⟩ := startTrain_trains hst'
  have hrest : (ringRestore r s).cmd = s.cmd := (ringRestore_keeps (Keeps.refl [.flt, .fur] s) rfl).only .cmd rfl
  have he' : e ∈ (startTrain r (ringRestore r s)).cmd.pend := by rwa [hcmd, hrest]
  exact ⟨pends_modEff he' _, hring⟩

/-! ### The commit of a command with an effect epoch (R113, R121) -/

theorem cmdRow_unparsed {op : Nat} {p : Bytes} (x : CmdSrc) (s : State) (hp : parsePayload op p = none) :
    cmdRow x op p s = snareEval (cmdRefuse (cmdIdOf x s) op stBadPayload (entered x op s)) := by
  simp only [cmdRow, cmdRun, hp, entered]

theorem cmdRow_timed {op : Nat} {p : Bytes} {pl : Payload} (x : CmdSrc) (s : State) (hp : parsePayload op p = some pl)
    (hc : effClass op ≠ .i) : cmdRow x op p s = snareEval (cmdTimed (cmdIdOf x s) op pl p none (entered x op s)) := by
  simp only [cmdRow, cmdRun, hp, if_neg hc, entered]

theorem stateCheck_go_role {s : State} {op : Nat} {pl : Payload} (h : stateCheck s op pl = .go) : s.stk.role ≠ 1 := by
  intro hr
  unfold stateCheck at h
  rw [if_pos hr] at h
  cases h

section
variable {s : State} {op : Nat} {pl : Payload} {req : Nat}

theorem epochOf_past (h0 : req ≠ 0) (h : req < eMin s op pl (now s)) : epochOf s op pl req = .inl stEpochPast := by
  simp only [epochOf, if_neg h0, if_pos h]

theorem epochOf_far (hm : eMin s op pl (now s) ≤ req) (h : epochNow s + 2 ^ 24 < req) : epochOf s op pl req = .inl stEpochFar := by
  have h0 : req ≠ 0 := by omega
  simp only [epochOf, if_neg h0, if_neg (Nat.not_lt.2 hm), if_pos h]

theorem epochOf_align (h0 : req ≠ 0) (hm : eMin s op pl (now s) ≤ req) (hf : req ≤ epochNow s + 2 ^ 24) (hc : effClass op = .p)
    (h : req % pFrames s ≠ 0) : epochOf s op pl req = .inl stEpochAlign := by
  simp only [epochOf, if_neg h0, if_neg (Nat.not_lt.2 hm), if_neg (Nat.not_lt.2 hf), if_pos (And.intro hc h)]

theorem epochOf_epoch {ep : Nat} (h : epochOf s op pl req = .inr ep) : ep = if req = 0 then eMin s op pl (now s) else req := by
  unfold epochOf at h
  dsimp only at h
  split at h
  · next h0 => rw [if_pos h0]; exact (Sum.inr.inj h).symm
  · next h0 =>
    rw [if_neg h0]
    split at h
    · cases h
    split at h
    · cases h
    split at h
    · cases h
    exact (Sum.inr.inj h).symm

variable {id : CmdId} {p : Bytes} {res : Option U32} (hop : op ≠ 0x0202)
include hop

theorem cmdTimed_epoch {st : Nat} (h : epochOf s op pl id.epochReq = .inl st) : cmdTimed id op pl p res s = cmdRefuse id op st s := by
  simp only [cmdTimed, if_neg hop, h]

theorem cmdTimed_full {ep : Nat} (h : epochOf s op pl id.epochReq = .inr ep) (hn : 256 ≤ entries s) :
    cmdTimed id op pl p res s = cmdRefuse id op stQueueFull s := by
  simp only [cmdTimed, if_neg hop, h, if_pos hn]

theorem cmdTimed_refused {ep st : Nat} (h : epochOf s op pl id.epochReq = .inr ep) (hn : entries s < 256)
    (hs : stateCheck s op pl = .refuse st) : cmdTimed id op pl p res s = cmdRefuse id op st s := by
  simp only [cmdTimed, if_neg hop, h, if_neg (Nat.not_le.2 hn), hs]

theorem cmdTimed_accepted {ep : Nat} (h : epochOf s op pl id.epochReq = .inr ep) (hn : entries s < 256)
    (hs : stateCheck s op pl = .go) : cmdTimed id op pl p res s = accept id op pl p res ep s := by
  simp only [cmdTimed, if_neg hop, h, if_neg (Nat.not_le.2 hn), hs]

end

/-- A refused command leaves its completion, and its place in verification order (R119). -/
theorem row_refused {s : State} {x : CmdSrc} (op st : Nat) (hfree : FlowFree x s) :
    let t := snareEval (cmdRefuse (cmdIdOf x s) op st (entered x op s))
    t.hst = { s.hst with cplDue := s.hst.cplDue ++ [flowCpl (cmdIdOf x s) op cRefused st 0 0] } ∧
      t.cmd = { s.cmd with ord := s.cmd.ord + 1 } ∧ ChangesOnly [.regs, .hst, .flt, .cmd, .snr] s t := by
  intro t
  have hu := entered_only x op s
  have hc : (flowCpl (cmdIdOf x s) op cRefused st 0 0).ord = some s.cmd.ord := rfl
  obtain ⟨hdue, _⟩ := row_done hfree rfl (hu .hst rfl) hc
  obtain ⟨honly, _⟩ := row_unjournaled hfree rfl (hu .hst rfl) hc rfl
  have hq : (entered x op s).cmd.flowQ = s.cmd.flowQ ++ [{ ord := s.cmd.ord, flow := x.flow }] := by rw [entered_cmd]
  have hcmd : (cmdRefuse (cmdIdOf x s) op st (entered x op s)).cmd = { s.cmd with ord := s.cmd.ord + 1 } := by
    rw [cmdRefuse, cplOut_last hc hq hfree]
    simp only [postCpl, entered_cmd]
  exact ⟨hdue, (snareEval_only _ .cmd rfl).trans hcmd, (hu.mono rfl).trans (honly.mono rfl)⟩

section
variable (id : CmdId) (op : Nat) (pl : Payload) (p : Bytes) (res : Option U32) (ep : Nat) (s : State)

/-- An accepted command changes nothing of the host port, the standby domain, the authenticator and the loop engines. -/
theorem accepted_only : ChangesOnly [.regs, .flt, .cmd, .ints, .cores, .tim, .fur, .snr, .stk] s (snareEval (accept id op pl p res ep s)) :=
  ((accept_keeps (Keeps.refl _ s) rfl).only).trans ((snareEval_only _).mono rfl)

/-- The state in which the effect has joined the others and what it decides at once is decided. -/
def decided : State := decide1 (acceptedEff id op pl p res ep s) (withEff (acceptedEff id op pl p res ep s) s)

theorem accepted_fur : (snareEval (accept id op pl p res ep s)).fur = (decided id op pl p res ep s).fur := by
  rw [snareEval_only _ .fur rfl, accept_eq]
  exact (replicateEff_keeps (Keeps.refl [.cmd, .stk] _) rfl).only .fur rfl

variable {id op pl p res ep s}

theorem Pends.accepted {y : Eff} (h : Pends y (decided id op pl p res ep s)) : Pends y (snareEval (accept id op pl p res ep s)) :=
  h.replicateEff.congr (congrArg Cmds.pend (snareEval_only _ .cmd rfl))

/-- An accepted command that does nothing to a ring's training waits for its epoch, and Furrow stays as it is. -/
theorem accepted_waits (he : ¬ EndsTraining s pl) (ht : ¬ StartsTraining s pl) :
    Pends (acceptedEff id op pl p res ep s) (snareEval (accept id op pl p res ep s)) ∧ (snareEval (accept id op pl p res ep s)).fur = s.fur := by
  have hpend : Pends (acceptedEff id op pl p res ep s) (withEff (acceptedEff id op pl p res ep s) s) := ⟨_, mem_withEff _ _, SameEff.refl _⟩
  have he' : ¬ EndsTraining s (acceptedEff id op pl p res ep s).payload := fun ⟨r, hr, hst⟩ => he ⟨r, storedPayload_ringCtl.1 hr, hst⟩
  have ht' : ¬ StartsTraining s (acceptedEff id op pl p res ep s).payload :=
    fun ⟨r, act, hr, h⟩ => ht ⟨r, act, storedPayload_ringCtl.1 hr, h⟩
  obtain ⟨hp, hf⟩ := decide1_waits hpend he' ht'
  exact ⟨hp.accepted, (accepted_fur ..).trans hf⟩

variable (hrole : s.stk.role ≠ 1) {r act : Nat} (hpl : pl = .ringCtl r act)
include hrole hpl

/-- A DISABLE of a ring in DRAIN keeps it from training again, and waits in force (R220). -/
theorem accepted_ends (ha : act = 1) (hst : (ring s r).st = 6) : let t := snareEval (accept id op pl p res ep s)
    Pends { acceptedEff id op pl p res ep s with applied := true, prog := 1 } t ∧ (ring t r).retrain = false ∧ (ring t r).st = 6 := by
  intro t
  subst ha hpl
  obtain ⟨hp, hring⟩ := decide1_ends (mem_withEff (acceptedEff id op (.ringCtl r 1) p res ep s) s) hrole rfl hst
  rw [ring_congr (accepted_fur ..)]
  exact ⟨Pends.accepted hp, hring⟩

/-- An ENABLE or RETRAIN of a ring that is OFF or FAILED starts its training, and waits in force (R207). -/
theorem accepted_trains (ha : act ≠ 1) (hst : (ring s r).st = 0 ∨ (ring s r).st = 7) : let t := snareEval (accept id op pl p res ep s)
    Pends { acceptedEff id op pl p res ep s with applied := true } t ∧ (ring t r).st = 1 := by
  intro t
  subst hpl
  obtain ⟨hp, hring⟩ := decide1_trains (mem_withEff (acceptedEff id op (.ringCtl r act) p res ep s) s) hrole rfl ha hst
  rw [ring_congr (accepted_fur ..)]
  exact ⟨Pends.accepted hp, hring⟩

end

/-! ### The rows of these commands -/

/-- Each of these commands commits by the row of its opcode. -/
theorem timed_row {x : CmdSrc} {p : Bytes} {c : Instr} {op : Nat} (s : State)
    (h : (c, op) ∈ [(.snapCfg x p, 0x0103), (.snareArm x p, 0x0104), (.setpoint x p, 0x0201), (.deblock x p, 0x0203), (.mode x p, 0x0204),
      (.cellRetire x p, 0x0301), (.cellRestore x p, 0x0302), (.armMap x p, 0x0303), (.coefWrite x p, 0x0304), (.carrierSet x p, 0x0305),
      (.calSet x p, 0x0306), (.ringCtl x p, 0x0307), (.timeAccept x p, 0x0308)]) :
    exec c s = .next (cmdRow x op p s) ∧ effClass op ≠ .i ∧ op ≠ 0x0202 := by
  simp only [List.mem_cons, List.not_mem_nil, or_false, Prod.mk.injEq] at h
  obtain ⟨rfl, rfl⟩ | ⟨rfl, rfl⟩ | ⟨rfl, rfl⟩ | ⟨rfl, rfl⟩ | ⟨rfl, rfl⟩ | ⟨rfl, rfl⟩ | ⟨rfl, rfl⟩ | ⟨rfl, rfl⟩ | ⟨rfl, rfl⟩ | ⟨rfl, rfl⟩ |
    ⟨rfl, rfl⟩ | ⟨rfl, rfl⟩ | ⟨rfl, rfl⟩ := h <;> exact ⟨rfl, by decide, by decide⟩

/-- An accepted command of opcode `op` waits as one effect, in force already where it ends a ring's training or starts it. -/
theorem accepted_row {s : State} {x : CmdSrc} {op ep : Nat} {pl : Payload} (p : Bytes) (hrole : (entered x op s).stk.role ≠ 1) :
    let u := entered x op s
    let t := snareEval (accept (cmdIdOf x s) op pl p none ep u)
    (∃ e ∈ t.cmd.pend, e.id = cmdIdOf x s ∧ e.op = op ∧ e.epoch = ep ∧ e.payload = storedPayload u pl ∧
      (e.applied = true ↔ EndsTraining s pl ∨ StartsTraining s pl)) ∧
    t.hst = s.hst ∧ t.std = s.std ∧ t.aut = s.aut ∧ t.lpe = s.lpe ∧ (¬ (EndsTraining s pl ∨ StartsTraining s pl) → t.fur = s.fur) ∧
    (EndsTraining s pl → ∀ r act, pl = .ringCtl r act → (ring t r).retrain = false ∧ (ring t r).st = 6) ∧
    (StartsTraining s pl → ∀ r act, pl = .ringCtl r act → (ring t r).st = 1) := by
  intro u t
  have hu := entered_only x op s
  have ht := (hu.mono rfl).trans (accepted_only (cmdIdOf x s) op pl p none ep u)
  have hring (r : Nat) : ring u r = ring s r := ring_congr (hu .fur rfl) r
  have hends : EndsTraining u pl ↔ EndsTraining s pl := by simp only [EndsTraining, hring]
  have htrains : StartsTraining u pl ↔ StartsTraining s pl := by simp only [StartsTraining, hring]
  have hentry {b : Bool} {n : Nat} (h : Pends { acceptedEff (cmdIdOf x s) op pl p none ep u with applied := b, prog := n } t)
      (hb : b = true ↔ EndsTraining s pl ∨ StartsTraining s pl) : ∃ e ∈ t.cmd.pend, e.id = cmdIdOf x s ∧ e.op = op ∧ e.epoch = ep ∧
        e.payload = storedPayload u pl ∧ (e.applied = true ↔ EndsTraining s pl ∨ StartsTraining s pl) := by
    obtain ⟨y, hy, hsame⟩ := h
    exact ⟨y, hy, hsame.id, hsame.op, hsame.epoch, hsame.payload, hsame.applied ▸ hb⟩
  by_cases he : EndsTraining s pl
  · obtain ⟨r, hpl, hst⟩ := id he
    have hnot : ¬ StartsTraining s pl := fun ⟨_, _, hj, hact, _⟩ => hact (Payload.ringCtl.inj (hpl.symm.trans hj)).2.symm
    obtain ⟨hp, hq⟩ := accepted_ends hrole hpl rfl ((hring r).symm ▸ hst)
    refine ⟨hentry hp (by simp [he]), ht .hst rfl, ht .std rfl, ht .aut rfl, ht .lpe rfl, fun h => absurd (.inl he) h,
      fun _ k act hk => ?_, fun h => absurd h hnot⟩
    obtain ⟨rfl, -⟩ := Payload.ringCtl.inj (hpl.symm.trans hk)
    exact hq
  by_cases hs : StartsTraining s pl
  · obtain ⟨r, act, hpl, hact, hst⟩ := id hs
    obtain ⟨hp, hq⟩ := accepted_trains hrole hpl hact ((hring r).symm ▸ hst)
    refine ⟨hentry hp (by simp [hs]), ht .hst rfl, ht .std rfl, ht .aut rfl, ht .lpe rfl, fun h => absurd (.inr hs) h,
      fun h => absurd h he, fun _ k act' hk => ?_⟩
    obtain ⟨rfl, -⟩ := Payload.ringCtl.inj (hpl.symm.trans hk)
    exact hq
  · obtain ⟨hp, hf⟩ := accepted_waits (mt hends.1 he) (mt htrains.1 hs)
    exact ⟨hentry hp (by simp [he, hs]), ht .hst rfl, ht .std rfl, ht .aut rfl, ht .lpe rfl, fun _ => hf.trans (hu .fur rfl),
      fun h => absurd h he, fun h => absurd h hs⟩

/-- Settles O32: each check refuses before the next is looked at, and what passes them all joins the pending effects. -/
theorem timedCommandsWaitForTheirEpoch : Obligations.TimedCommandsWaitForTheirEpoch := by
  intro s x p c op hmem hfree id u req refused
  obtain ⟨hexec, hclass, hop⟩ := timed_row s hmem
  have hrefused {st : Nat} (h : cmdRow x op p s = snareEval (cmdRefuse id op st u)) : Gives c s (refused st) :=
    ⟨_, hexec.trans (congrArg _ h), row_refused op st hfree⟩
  refine ⟨fun hp => hrefused (cmdRow_unparsed x s hp), fun pl hp => ?_⟩
  intro m
  have hrow := cmdRow_timed x s hp hclass
  have hcheck {st : Nat} (h : cmdTimed id op pl p none u = cmdRefuse id op st u) : Gives c s (refused st) :=
    hrefused (hrow.trans (congrArg snareEval h))
  refine ⟨fun h0 hm => hcheck (cmdTimed_epoch hop (epochOf_past h0 hm)), fun hm hf => hcheck (cmdTimed_epoch hop (epochOf_far hm hf)),
    fun h0 hm hf hc ha => hcheck (cmdTimed_epoch hop (epochOf_align h0 hm hf hc ha)), fun ep hep => ⟨epochOf_epoch hep,
      fun hn => hcheck (cmdTimed_full hop hep hn), fun st hn hs => hcheck (cmdTimed_refused hop hep hn hs), fun hn hs => ?_⟩⟩
  have hgo : cmdTimed id op pl p none u = accept id op pl p none ep u := cmdTimed_accepted hop hep hn hs
  exact ⟨_, hexec.trans (congrArg _ (hrow.trans (congrArg snareEval hgo))), accepted_row p (stateCheck_go_role hs)⟩

end Sys2Proof.Machine
end

section
/-! PROOFS. BLOCK, CELL_RETIRE and CELL_RESTORE: the turns that they give at once (O33). -/

namespace Sys2Proof.Machine

/-! ### Turns (R116) -/

theorem mem_turnInsert (x : Turn) (l : List Turn) : x ∈ turnInsert x l := by
  induction l with
  | nil => exact List.mem_singleton_self x
  | cons y ys ih =>
    unfold turnInsert
    split
    · exact List.mem_cons_self
    · exact List.mem_cons_of_mem _ ih

theorem mem_turnPush (past : Nat) (x : Turn) (l : List Turn) : x ∈ turnPush past x l := mem_turnInsert x _

/-- A pass whose step makes `P` true of its element, and leaves it true of the others, makes it true of every element of its list. -/
theorem foldl_each {α β : Type} {P : α → β → Prop} {f : β → α → β} (hit : ∀ s a, P a (f s a)) (keep : ∀ s a b, a ≠ b → P a s → P a (f s b))
    (l : List α) (s : β) : ∀ a ∈ l, P a (l.foldl f s) := by
  induction l using List.reverseRecOn with
  | nil => exact fun a ha => absurd ha List.not_mem_nil
  | append_singleton l b ih =>
    intro a ha
    rw [List.foldl_append]
    by_cases hab : a = b
    · exact hab ▸ hit _ a
    · have hl : a ∈ l := (List.mem_append.1 ha).resolve_right fun h => hab (List.mem_singleton.1 h)
      exact keep _ a b hab (ih a hl)

theorem mem_line_linePush_same (g : Nat) (x : Turn) (s : State) : x ∈ (group (linePush g x s) g).line := by
  rw [linePush, setGroup_same]
  exact mem_turnPush _ x _

theorem group_linePush_ne {g k : Nat} (x : Turn) (s : State) (h : k ≠ g) : group (linePush g x s) k = group s k := setGroup_ne _ _ _ _ h

/-- The line of each group of a list takes the turn. -/
theorem mem_line_foldl_linePush (gs : List Nat) (x : Turn) (s : State) :
    ∀ g ∈ gs, x ∈ (group (gs.foldl (fun s g => linePush g x s) s) g).line :=
  foldl_each (P := fun g s => x ∈ (group s g).line) (fun s g => mem_line_linePush_same g x s)
    (fun s g k hne h => by rwa [group_linePush_ne x s hne]) gs s

theorem cellTurns_setTurn_same (on : Bool) (e ord : Nat) (s : State) (c : Nat) :
    { e := e, on := on, ord := ord } ∈ cellTurns (setTurn on e ord s c) c := by
  have h : cellTurns (setTurn on e ord s c) c = turnPush (epochNow s - 64) { e := e, on := on, ord := ord } (cellTurns s c) :=
    tget_tset_same _ _ _ _
  rw [h]
  exact mem_turnPush _ _ _

theorem cellTurns_setTurn_ne {c k : Nat} (on : Bool) (e ord : Nat) (s : State) (h : k ≠ c) :
    cellTurns (setTurn on e ord s c) k = cellTurns s k := tget_tset_ne h

/-- Each cell of a list takes the turn. -/
theorem mem_cellTurns_foldl_setTurn (cs : List Nat) (on : Bool) (e ord : Nat) (s : State) :
    ∀ k ∈ cs, { e := e, on := on, ord := ord } ∈ cellTurns (cs.foldl (setTurn on e ord) s) k :=
  foldl_each (P := fun k s => { e := e, on := on, ord := ord } ∈ cellTurns s k) (fun s k => cellTurns_setTurn_same on e ord s k)
    (fun s k c hne h => by rwa [cellTurns_setTurn_ne on e ord s hne]) cs s

/-- No other cell takes a turn. -/
theorem cellTurns_foldl_setTurn_other {cs : List Nat} {k : Nat} (h : k ∉ cs) (on : Bool) (e ord : Nat) (s : State) :
    cellTurns (cs.foldl (setTurn on e ord) s) k = cellTurns s k := by
  induction cs generalizing s with
  | nil => rfl
  | cons c cs ih =>
    obtain ⟨hc, hcs⟩ := not_or.1 (mt List.mem_cons.2 h)
    exact (ih hcs _).trans (cellTurns_setTurn_ne on e ord s hc)

/-! ### The turns of an accepted command -/

theorem accepted_cmd (id : CmdId) (op : Nat) (pl : Payload) (p : Bytes) (res : Option U32) (ep : Nat) (s : State) : ∃ q,
    (snareEval (accept id op pl p res ep s)).cmd = { (decided id op pl p res ep s).cmd with pend := q } := by
  obtain ⟨f, -, h⟩ := replicateEff_cmd (acceptedEff id op pl p res ep s) (decided id op pl p res ep s)
  exact ⟨_, (snareEval_only _ .cmd rfl).trans h⟩

theorem group_accepted (id : CmdId) (op : Nat) (pl : Payload) (p : Bytes) (res : Option U32) (ep : Nat) (s : State) (g : Nat) :
    group (snareEval (accept id op pl p res ep s)) g = group (decided id op pl p res ep s) g := by
  obtain ⟨q, h⟩ := accepted_cmd id op pl p res ep s
  simp only [group, h]

theorem cellTurns_accepted (id : CmdId) (op : Nat) (pl : Payload) (p : Bytes) (res : Option U32) (ep : Nat) (s : State) (k : Nat) :
    cellTurns (snareEval (accept id op pl p res ep s)) k = cellTurns (decided id op pl p res ep s) k := by
  obtain ⟨q, h⟩ := accepted_cmd id op pl p res ep s
  simp only [cellTurns, h]

/-- The first frame of an accepted BLOCK is that of R127. -/
theorem blockEpoch_sub_blockFrame (s : State) (m : Nat) : blockEpoch s m - (blockEpoch s m - blockFrame s (now s)) = blockFrame s (now s) := by
  simp only [blockEpoch]
  omega

/-- An accepted BLOCK gives each of its groups the turn of R127, and waits without an entry. -/
theorem block_decides (id : CmdId) (m : Nat) (p : Bytes) (s : State) :
    let t := snareEval (accept id 0x0202 (.groupMask m) p none (blockEpoch s m) s)
    (∀ g, g < 4 → m.testBit g = true → ∃ w ∈ (group t g).line, w.e = blockEpoch s m ∧ w.j = blockFrame s (now s) ∧ w.on = true) ∧
      ∃ e ∈ t.cmd.pend, e.op = 0x0202 ∧ e.epoch = blockEpoch s m ∧ e.entry = false := by
  intro t
  refine ⟨fun g hg hm => ?_, ?_⟩
  · have hmem : g ∈ idxs 4 m.testBit := List.mem_filter.2 ⟨List.mem_range.2 hg, hm⟩
    rw [group_accepted, decided, decide1_block (m := m) rfl (show (0x0202 : Nat) ≠ 0x0203 by decide)]
    exact ⟨_, mem_line_foldl_linePush _ _ _ g hmem, rfl, blockEpoch_sub_blockFrame s m, rfl⟩
  · have hwaits : Pends (acceptedEff id 0x0202 (.groupMask m) p none (blockEpoch s m) s) t :=
      (accepted_waits (by simp [EndsTraining]) (by simp [StartsTraining])).1
    obtain ⟨y, hy, hsame⟩ := hwaits
    exact ⟨y, hy, hsame.op, hsame.epoch, hsame.entry⟩

theorem cmdTimed_block {s : State} {m : Nat} (id : CmdId) (p : Bytes) (h : stateCheck s 0x0202 (.groupMask m) = .go) :
    cmdTimed id 0x0202 (.groupMask m) p none s = accept id 0x0202 (.groupMask m) p none (blockEpoch s m) s := by
  simp only [cmdTimed, if_true, h]

theorem block_blocks {s : State} {x : CmdSrc} {p : Bytes} {m : Nat} (hp : parsePayload 0x0202 p = some (.groupMask m))
    (h : stateCheck (entered x 0x0202 s) 0x0202 (.groupMask m) = .go) : let u := entered x 0x0202 s
    Gives (.block x p) s fun t =>
      (∀ g, g < 4 → m.testBit g = true → ∃ w ∈ (group t g).line, w.e = blockEpoch u m ∧ w.j = blockFrame u (now u) ∧ w.on = true) ∧
        (∃ e ∈ t.cmd.pend, e.op = 0x0202 ∧ e.epoch = blockEpoch u m ∧ e.entry = false) ∧ t.hst = s.hst := by
  intro u
  have hrow : exec (.block x p) s = .next (snareEval (accept (cmdIdOf x s) 0x0202 (.groupMask m) p none (blockEpoch u m) u)) :=
    congrArg _ ((cmdRow_timed x s hp (by decide)).trans (congrArg snareEval (cmdTimed_block _ p h)))
  obtain ⟨hline, hpend⟩ := block_decides (cmdIdOf x s) m p u
  exact ⟨_, hrow, hline, hpend, (accepted_only _ _ _ _ _ _ u .hst rfl).trans (entered_only x _ s .hst rfl)⟩

/-- CELL_RETIRE and CELL_RESTORE, by their opcode `op`: each of the cells takes a turn, and no other. -/
theorem cells_turn {s : State} {x : CmdSrc} {op ep : Nat} {cs : List Nat} {p : Bytes} (c : Instr) (hexec : exec c s = .next (cmdRow x op p s))
    (hclass : effClass op ≠ .i) (hop : op ≠ 0x0202) (hp : parsePayload op p = some (.cells cs))
    (hep : epochOf (entered x op s) op (.cells cs) x.epochReq.toNat = .inr ep) (hn : entries (entered x op s) < 256)
    (hs : stateCheck (entered x op s) op (.cells cs) = .go) : Gives c s fun t =>
      (∀ k, k ∈ cs → ∃ w ∈ cellTurns t k, w.e = ep ∧ w.on = (op == 0x0301) ∧ w.ord = s.cmd.ord) ∧
        ∀ k, k ∉ cs → cellTurns t k = cellTurns s k := by
  have hgo : cmdTimed (cmdIdOf x s) op (.cells cs) p none (entered x op s) = _ := cmdTimed_accepted hop hep hn hs
  refine ⟨_, hexec.trans (congrArg _ ((cmdRow_timed x s hp hclass).trans (congrArg snareEval hgo))), fun k hk => ?_, fun k hk => ?_⟩
  · rw [cellTurns_accepted, decided, decide1_cells (cs := cs) rfl]
    exact ⟨_, mem_cellTurns_foldl_setTurn cs _ _ _ _ k hk, rfl, rfl, rfl⟩
  · rw [cellTurns_accepted, decided, decide1_cells (cs := cs) rfl, cellTurns_foldl_setTurn_other hk]
    have hold : (entered x op s).cmd.cells = s.cmd.cells := by rw [entered_cmd]
    exact congrArg (fun q => tget [] q k) hold

/-- Settles O33: an accepted BLOCK, CELL_RETIRE or CELL_RESTORE pushes its turn in one pass over its groups or cells. -/
theorem blockAndRetireDecideAtOnce : Obligations.BlockAndRetireDecideAtOnce := by
  intro s x p
  refine ⟨fun m hp hs => block_blocks hp hs, fun cs ep hp hep hn hs => ?_, fun cs ep hp hep hn hs => ?_⟩
  · exact cells_turn (.cellRetire x p) rfl (by decide) (by decide) hp hep hn hs
  · exact cells_turn (.cellRestore x p) rfl (by decide) (by decide) hp hep hn hs

end Sys2Proof.Machine
end

section
/-! PROOFS. Effects at their epoch, the end of a firmware update and released items (O35). -/

namespace Sys2Proof.Machine

/-! ### What the COMMAND record of a completion leaves (R180, R181) -/

theorem rg_jnlDropped {o : Nat} (n : Nat) (s : State) (hd : o ≠ rGRN_JNL_DROP) (he : o ≠ rGRN_EVT) : rg (jnlDropped n s) o = rg s o := by
  unfold jnlDropped
  split
  · rfl
  · exact (rg_wr_ne _ _ _ _ he).trans (rg_wr_ne _ _ _ _ hd)

/-- A COMMAND record joins the queue or is dropped. -/
theorem journalCpl_cases (c : Cpl) (s : State) : journalCpl c s = s ∨ journalCpl c s = jnlDropped 1 s ∨
    ∃ q, journalCpl c s = { s with grn := { s.grn with jnlQ := q } } := by
  unfold journalCpl
  split
  · simp only [jnlCommand, jnlPut]
    split
    · next hu => exact absurd hu (by simp [jnlUrgent])
    · split
      · exact .inr (.inr ⟨_, rfl⟩)
      · exact .inr (.inl rfl)
  · exact .inl rfl

theorem journalCpl_snaps (c : Cpl) (s : State) : (journalCpl c s).grn.snaps = s.grn.snaps := by
  have hdrop : (jnlDropped 1 s).grn = s.grn := rfl
  obtain h | h | ⟨q, h⟩ := journalCpl_cases c s
  · rw [h]
  · rw [h, hdrop]
  · rw [h]

theorem rg_journalCpl {o : Nat} (c : Cpl) (s : State) (hd : o ≠ rGRN_JNL_DROP) (he : o ≠ rGRN_EVT) : rg (journalCpl c s) o = rg s o := by
  obtain h | h | ⟨q, h⟩ := journalCpl_cases c s
  · rw [h]
  · rw [h, rg_jnlDropped 1 s hd he]
  · rw [h]
    rfl

/-- A register that neither the journal nor Snare counts in. -/
def Uncounted (o : Nat) : Prop := o ≠ rGRN_JNL_DROP ∧ o ≠ rGRN_EVT ∧ o ≠ rSNR_EVT ∧ o ≠ rSNR_MISSED

theorem uncounted_setpoint {l : Nat} (h : l < 128) : Uncounted (rLPE_LOOP_SP l) := by
  simp only [Uncounted, rLPE_LOOP_SP, rGRN_JNL_DROP, rGRN_EVT, rSNR_EVT, rSNR_MISSED]
  omega

theorem uncounted_channel {c : Nat} (h : c < 32) : Uncounted (rAFE_CH_GAIN c) ∧ Uncounted (rAFE_CH_OFFSET c) := by
  simp only [Uncounted, rAFE_CH_GAIN, rAFE_CH_OFFSET, rGRN_JNL_DROP, rGRN_EVT, rSNR_EVT, rSNR_MISSED]
  omega

/-! ### The completion of the first command in the flows (R63) -/

theorem flowGo_unfinished {q : List FlowEnt} (hq : ∀ y ∈ q, y.cpl = none) (held : List Nat) : flowGo held q = (q, []) := by
  induction q generalizing held with
  | nil => rfl
  | cons y q ih =>
    rw [flowGo, hq y List.mem_cons_self]
    simp only [ih fun z hz => hq z (List.mem_cons_of_mem _ hz)]

/-- The first command in the flows completes: its completion is due at once, and no other. -/
theorem cplOut_first {s : State} {c : Cpl} {o f : Nat} {l : List FlowEnt} (hc : c.ord = some o)
    (hs : s.cmd.flowQ = { ord := o, flow := f } :: l) (hl : ∀ y ∈ l, y.ord ≠ o ∧ y.cpl = none) :
    cplOut c s = postCpl { journalCpl c s with cmd := { s.cmd with flowQ := l } } c := by
  have hcmd : (journalCpl c s).cmd = s.cmd := journalCpl_only c s .cmd rfl
  have hmark : flowMark o c s.cmd.flowQ = { ord := o, flow := f, cpl := some c } :: l := by
    rw [hs, flowMark, List.map_cons, if_pos rfl, List.map_congr_left fun y hy => if_neg (hl y hy).1, List.map_id']
  have hgo : flowGo [] (flowMark o c s.cmd.flowQ) = (l, [c]) := by
    rw [hmark, flowGo]
    simp only [List.contains_nil, Bool.false_eq_true, if_false, flowGo_unfinished fun y hy => (hl y hy).2]
  rw [cplOut_ord hc, hcmd, hgo]
  rfl

section
variable {s : State} {c : Cpl} {o f : Nat} {l : List FlowEnt} (hc : c.ord = some o) (hs : s.cmd.flowQ = { ord := o, flow := f } :: l)
  (hl : ∀ y ∈ l, y.ord ≠ o ∧ y.cpl = none)
include hc hs hl

theorem cplOut_first_cmd : (cplOut c s).cmd = { s.cmd with flowQ := l } := by
  rw [cplOut_first hc hs hl]
  rfl

theorem cplOut_first_hst : (cplOut c s).hst = { s.hst with cplDue := s.hst.cplDue ++ [c] } := by
  have hj : (journalCpl c s).hst = s.hst := journalCpl_only c s .hst rfl
  rw [cplOut_first hc hs hl, postCpl, hj]

/-- What is left of `s` when its first command has completed with `c`, and the trigger has been evaluated. -/
theorem completed_first : let t := snareEval (cplOut c s)
    t.cmd = { s.cmd with flowQ := l } ∧ t.hst = { s.hst with cplDue := s.hst.cplDue ++ [c] } ∧ t.grn.snaps = s.grn.snaps ∧
      ∀ o, Uncounted o → rg t o = rg s o := by
  intro t
  have he := snareEval_only (cplOut c s)
  have hout := cplOut_first hc hs hl
  refine ⟨(he .cmd rfl).trans (cplOut_first_cmd hc hs hl), (he .hst rfl).trans (cplOut_first_hst hc hs hl),
    (congrArg Grn.snaps (he .grn rfl)).trans ?_, fun o ⟨hd, hg, hn, hm⟩ => (rg_snareEval _ hn hm).trans ?_⟩
  · rw [hout]
    exact journalCpl_snaps c s
  · rw [hout, rg_postCpl]
    exact rg_journalCpl c s hd hg

end

/-! ### Set-points (R126) -/

/-- The set-points of `es`, stored one after another. -/
def setpointsStored (es : List (Nat × U32)) (s : State) : State := es.foldl (fun s q => wr s (rLPE_LOOP_SP q.1) q.2) s

theorem setpointsStored_only (es : List (Nat × U32)) (s : State) : ChangesOnly [.regs] s (setpointsStored es s) :=
  (Keeps.foldl (Keeps.refl _ s) fun _ _ hu => wr_keeps hu rfl).only

theorem rg_setpointsStored_other {es : List (Nat × U32)} {k : Nat} (hk : k ∉ es.map (·.1)) (s : State) :
    rg (setpointsStored es s) (rLPE_LOOP_SP k) = rg s (rLPE_LOOP_SP k) := by
  induction es generalizing s with
  | nil => rfl
  | cons p es ih =>
    obtain ⟨hp, hes⟩ : k ≠ p.1 ∧ k ∉ es.map (·.1) := not_or.1 (mt List.mem_cons.2 (show k ∉ p.1 :: es.map (·.1) from hk))
    have hne : rLPE_LOOP_SP k ≠ rLPE_LOOP_SP p.1 := by
      simp only [rLPE_LOOP_SP]
      omega
    exact (ih hes _).trans (rg_wr_ne _ _ _ _ hne)

/-- Each loop of a list that names none twice holds its set-point. -/
theorem rg_setpointsStored {es : List (Nat × U32)} (hn : (es.map (·.1)).Nodup) (s : State) :
    ∀ q ∈ es, rg (setpointsStored es s) (rLPE_LOOP_SP q.1) = q.2 := by
  induction es generalizing s with
  | nil => exact fun q hq => absurd hq List.not_mem_nil
  | cons p es ih =>
    obtain ⟨hp, hes⟩ := List.nodup_cons.1 hn
    rintro q (_ | ⟨_, hq⟩)
    · exact (rg_setpointsStored_other hp _).trans (rg_wr_same _ _ _)
    · exact ih hes _ q hq

/-! ### An effect at its epoch (R115) -/

/-- Effect `e` stands first among the pending effects, and its epoch has come; its command stands first in the flows. -/
structure DueFirst (e : Eff) (rest : List Eff) (l : List FlowEnt) (s : State) : Prop where
  pend : s.cmd.pend = e :: rest
  rest : ∀ y ∈ rest, y.id.ord ≠ e.id.ord
  running : s.sys.running = true
  ended : e.ended = none
  applied : e.applied = false
  at_ : e.at_ = none
  repl : e.repl = false
  ack : e.ack = none
  epoch : e.epoch ≤ epochNow s
  flowQ : s.cmd.flowQ = { ord := e.id.ord, flow := e.id.flow } :: l
  others : ∀ y ∈ l, y.flow ≠ e.id.flow ∧ y.ord ≠ e.id.ord ∧ y.cpl = none

/-- Effect `e`, in force. -/
def inForce (e : Eff) : Eff := { e with applied := true }

@[simp] theorem inForce_id (e : Eff) : (inForce e).id = e.id := rfl
@[simp] theorem inForce_epoch (e : Eff) : (inForce e).epoch = e.epoch := rfl
@[simp] theorem inForce_ended (e : Eff) : (inForce e).ended = e.ended := rfl
@[simp] theorem inForce_at (e : Eff) : (inForce e).at_ = e.at_ := rfl

/-- The completion of effect `e` at its epoch. -/
def doneCpl (e : Eff) : Cpl := flowCpl e.id e.op cDone (if e.moved then stMoved else stOk) e.epoch e.result e.notRepl

/-- Effect `e` has left the pending effects `rest` of `s`, and in `t` its completion is due. -/
def Completed (e : Eff) (rest : List Eff) (s t : State) : Prop :=
  t.cmd.pend = rest ∧ t.hst = { s.hst with cplDue := s.hst.cplDue ++ [doneCpl e] }

/-- `s` with the pending effects `q`. -/
def withPend (q : List Eff) (s : State) : State := { s with cmd := { s.cmd with pend := q } }

theorem effFinish_completes {e : Eff} (hr : e.repl = false) (ha : e.ack = none) (s : State) :
    effFinish e s = cplOut (effCpl e) (withPend (s.cmd.pend.filter fun x => x.id.ord ≠ e.id.ord) s) := by
  simp only [effFinish, hr, ha, Bool.false_eq_true, if_false]
  rfl

/-- The effect that `EFFECT_APPLY` picks comes into force and finishes where nothing more is waited for. -/
theorem effectApply_pick {s v : State} {e y : Eff} (hrun : s.sys.running = true) (hfirst : s.cmd.pend.head? = some e)
    (hdue : effDue (epochNow s) e = true) (hended : e.ended = none) (happ : e.applied = false) (hforce : effForce (epochNow s) e s = v)
    (hy : v.cmd.pend.head? = some y) (hid : y.id = e.id) (hdue' : effDue (epochNow s) y = true) : effectApply s = effFinish y v := by
  obtain ⟨q, hq⟩ := List.head?_eq_some_iff.1 hfirst
  obtain ⟨r, hr⟩ := List.head?_eq_some_iff.1 hy
  simp only [effectApply, hrun, hq, List.find?_cons, hdue, hended, happ, hforce, hr, hid, hdue', Bool.not_true, Bool.true_or,
    Option.isNone_none, Bool.not_false, Bool.and_self, Bool.false_eq_true, if_false, if_true, beq_self_eq_true]

section
variable {e : Eff} {rest : List Eff} {l : List FlowEnt} {s v : State} (h : DueFirst e rest l s)
include h

/-- An effect that came into force by changing `s` to `v` completes, and leaves the pending effects. -/
theorem DueFirst.effectApply_eq (hw : effWaits e = false ∧ effWaits (inForce e) = false) (hv : v.cmd.pend = s.cmd.pend)
    (hforce : effForce (epochNow s) e s = modEff e.id.ord inForce v) : effectApply s = cplOut (doneCpl e) (withPend rest v) := by
  have hdue : effDue (epochNow s) e = true := by simp [effDue, h.ended, h.at_, h.epoch, hw.1]
  have hdue' : effDue (epochNow s) (inForce e) = true := by simp [effDue, h.ended, h.at_, h.epoch, hw.2]
  have hpend : (modEff e.id.ord inForce v).cmd.pend = inForce e :: rest := by
    simp only [modEff, hv, h.pend, List.map_cons, if_true]
    rw [List.map_congr_left fun y hy => if_neg (h.rest y hy), List.map_id']
  have hleft : (inForce e :: rest).filter (fun x => x.id.ord ≠ e.id.ord) = rest := by
    rw [List.filter_cons_of_neg (by simp), List.filter_eq_self.2 fun y hy => by simpa using h.rest y hy]
  have hcpl : effCpl (inForce e) = doneCpl e := by
    simp only [effCpl, inForce_ended, inForce_at, h.ended, h.at_, Option.getD_none]
    rfl
  rw [effectApply_pick (y := inForce e) h.running (h.pend ▸ rfl) hdue h.ended h.applied hforce (hpend ▸ rfl) rfl hdue',
    effFinish_completes (e := inForce e) h.repl h.ack, hcpl, hpend]
  exact congrArg (fun q => cplOut (doneCpl e) (withPend q v)) hleft

/-- What the row leaves of `v`. -/
theorem DueFirst.completes (hw : effWaits e = false ∧ effWaits (inForce e) = false) (hv : v.cmd.pend = s.cmd.pend)
    (hforce : effForce (epochNow s) e s = modEff e.id.ord inForce v) (hq : v.cmd.flowQ = s.cmd.flowQ) (hh : v.hst = s.hst) :
    let t := snareEval (effectApply s)
    Completed e rest s t ∧ t.cmd.arms = v.cmd.arms ∧
      t.grn.snaps = v.grn.snaps ∧ ∀ o, Uncounted o → rg t o = rg v o := by
  have hc : (doneCpl e).ord = some e.id.ord := rfl
  have hfirst : (withPend rest v).cmd.flowQ = { ord := e.id.ord, flow := e.id.flow } :: l := hq.trans h.flowQ
  obtain ⟨hcmd, hhst, hsnaps, hrg⟩ := completed_first hc hfirst fun y hy => (h.others y hy).2
  have hpend := congrArg Cmds.pend hcmd
  have harms := congrArg Cmds.arms hcmd
  rw [h.effectApply_eq hw hv hforce]
  exact ⟨⟨hpend, hhst.trans (hh ▸ rfl)⟩, harms, hsnaps, hrg⟩

/-! ### Each payload (R124, R126, R134, R137) -/

theorem DueFirst.setpoint_applies {es : List (Nat × U32)} (hp : e.payload = .setpoint es) (hn : (es.map (·.1)).Nodup)
    (hl : ∀ q ∈ es, q.1 < 128) : let t := snareEval (effectApply s)
    Completed e rest s t ∧ ∀ q ∈ es, rg t (rLPE_LOOP_SP q.1) = q.2 := by
  have hv := setpointsStored_only es s
  have hforce : effForce (epochNow s) e s = modEff e.id.ord inForce (setpointsStored es s) := by
    simp only [effForce, hp]
    rfl
  have hw : effWaits e = false ∧ effWaits (inForce e) = false := by simp [effWaits, inForce, hp]
  obtain ⟨hdone, -, -, hrg⟩ := h.completes hw (congrArg Cmds.pend (hv .cmd rfl)) hforce (congrArg Cmds.flowQ (hv .cmd rfl)) (hv .hst rfl)
  exact ⟨hdone, fun q hq => (hrg _ (uncounted_setpoint (hl q hq))).trans (rg_setpointsStored hn s q hq)⟩

theorem DueFirst.cal_applies {c : Nat} {g o : U32} (hp : e.payload = .cal c g o) (hc : c < 32) : let t := snareEval (effectApply s)
    Completed e rest s t ∧ rg t (rAFE_CH_GAIN c) = g ∧
      rg t (rAFE_CH_OFFSET c) = o := by
  have hforce : effForce (epochNow s) e s = modEff e.id.ord inForce (wr (wr s (rAFE_CH_GAIN c) g) (rAFE_CH_OFFSET c) o) := by
    simp only [effForce, hp]
    rfl
  have hw : effWaits e = false ∧ effWaits (inForce e) = false := by simp [effWaits, inForce, hp]
  have hne : rAFE_CH_GAIN c ≠ rAFE_CH_OFFSET c := by simp [rAFE_CH_GAIN, rAFE_CH_OFFSET]
  obtain ⟨hdone, -, -, hrg⟩ := h.completes hw (by rfl) hforce (by rfl) (by rfl)
  obtain ⟨hgain, hoffset⟩ := uncounted_channel hc
  exact ⟨hdone, (hrg _ hgain).trans ((rg_wr_ne _ _ _ _ hne).trans (rg_wr_same _ _ _)),
    (hrg _ hoffset).trans (rg_wr_same _ _ _)⟩

theorem DueFirst.snapCfg_applies {r d f n : Nat} (hp : e.payload = .snapCfg r d f n) : let t := snareEval (effectApply s)
    Completed e rest s t ∧
      tget {} t.grn.snaps r = { rate := d, first := f, count := n } := by
  have hforce : effForce (epochNow s) e s = modEff e.id.ord inForce
      { s with grn := { s.grn with snaps := tset {} s.grn.snaps r { rate := d, first := f, count := n } } } := by
    simp only [effForce, hp]
    rfl
  have hw : effWaits e = false ∧ effWaits (inForce e) = false := by simp [effWaits, inForce, hp]
  obtain ⟨hdone, -, hsnaps, -⟩ := h.completes hw (by rfl) hforce (by rfl) (by rfl)
  exact ⟨hdone, by rw [hsnaps, tget_tset_same]⟩

theorem DueFirst.armMap_applies {a g n : Nat} {rs : List (Nat × Nat)} (hp : e.payload = .armMap a g n rs) : let t := snareEval (effectApply s)
    Completed e rest s t ∧
      armMap t a = (if rs = [] then {} else { group := g, nNeed := n, ranges := rs }) ∧ ∀ b, b ≠ a → armMap t b = armMap s b := by
  have hforce : effForce (epochNow s) e s = modEff e.id.ord inForce { s with cmd := { s.cmd with
      arms := tset {} s.cmd.arms a (if rs.isEmpty then {} else { group := g, nNeed := n, ranges := rs }) } } := by
    simp only [effForce, hp]
    rfl
  have hw : effWaits e = false ∧ effWaits (inForce e) = false := by simp [effWaits, inForce, hp]
  obtain ⟨hdone, harms, -, -⟩ := h.completes hw (by rfl) hforce (by rfl) (by rfl)
  refine ⟨hdone, ?_, fun b hb => ?_⟩
  · rw [armMap, harms, tget_tset_same]
    simp only [List.isEmpty_iff]
  · rw [armMap, harms, tget_tset_ne hb]
    rfl

end

/-! ### The end of a firmware update (R144, R538) -/

/-- The update is over and its bank marked invalid. -/
def updateOver (i : Nat) (s : State) : State :=
  setBank i { bank s i with mark := 0xFFFFFFFF } { s with cmd := { s.cmd with fw := none } }

/-- The bank of an update with its image and envelope, valid. -/
def bankStored (i act : Nat) (env image : Bytes) (s : State) : State :=
  setBank i { bank s i with env := env, gen := ((bank s act).gen + 1) % 2 ^ 32, mark := 0x5A5AA5A5, image := image } s

theorem bank_setBank_same (i : Nat) (b : Bank) (s : State) : bank (setBank i b s) i = b := tget_tset_same _ _ _ _

theorem bank_setBank_ne {i j : Nat} (b : Bank) (s : State) (h : j ≠ i) : bank (setBank i b s) j = bank s j := tget_tset_ne h

theorem idleBank_ne (s : State) (target : Nat) : (idleBank s target).2 ≠ (idleBank s target).1 := by
  unfold idleBank
  dsimp only
  split <;> split <;> simp

/-- A completion of the update in `w`, which has changed its bank only. -/
theorem updateDone {s w : State} {id : CmdId} {l : List FlowEnt} {c : Cpl} (hc : c.ord = some id.ord) (hcmd : w.cmd = { s.cmd with fw := none })
    (hhst : w.hst = s.hst) (hq : s.cmd.flowQ = { ord := id.ord, flow := id.flow } :: l) (hl : ∀ y ∈ l, y.ord ≠ id.ord ∧ y.cpl = none) :
    (cplOut c w).cmd.fw = none ∧ (cplOut c w).hst = { s.hst with cplDue := s.hst.cplDue ++ [c] } ∧ ∀ j, bank (cplOut c w) j = bank w j := by
  have hfirst : w.cmd.flowQ = { ord := id.ord, flow := id.flow } :: l := by rw [hcmd, hq]
  have hstd : (cplOut c w).std = w.std := (cplOut_keeps (Keeps.refl [.regs, .grn, .hst, .cmd] w) rfl).only .std rfl
  refine ⟨?_, ?_, bank_congr hstd⟩
  · rw [cplOut_first_cmd hc hfirst hl, hcmd]
  · rw [cplOut_first_hst hc hfirst hl, hhst]

/-- An update that fails leaves its bank invalid. -/
theorem update_fails {s : State} {id : CmdId} {l : List FlowEnt} (hq : s.cmd.flowQ = { ord := id.ord, flow := id.flow } :: l)
    (hl : ∀ y ∈ l, y.ord ≠ id.ord ∧ y.cpl = none) {got : Option Bytes} {ok : Bool} {i st : Nat}
    (h : fwComplete got ok s = cplOut (flowCpl id 0x0404 cFailed st 0 0) (updateOver i s)) :
    Gives (.fwUpdateComplete got ok) s fun t => (bank t i).mark = 0xFFFFFFFF ∧ t.cmd.fw = none ∧
      t.hst = { s.hst with cplDue := s.hst.cplDue ++ [flowCpl id 0x0404 cFailed st 0 0] } := by
  refine ⟨fwComplete got ok s, rfl, ?_⟩
  rw [h]
  obtain ⟨hnone, hdue, hbank⟩ := updateDone (w := updateOver i s) (c := flowCpl id 0x0404 cFailed st 0 0) rfl rfl rfl hq hl
  exact ⟨by rw [hbank, updateOver, bank_setBank_same], hnone, hdue⟩

section
variable {s : State} {id : CmdId} {env : Bytes} (hfw : s.cmd.fw = some (id, env))
include hfw

theorem fwComplete_fetch (ok : Bool) : fwComplete none ok s =
    cplOut (flowCpl id 0x0404 cFailed stFwFetch 0 0) (updateOver (idleBank s (rd env 35 1)).1 s) := by
  simp only [fwComplete, hfw]
  rfl

theorem fwComplete_hash {img : Bytes} (h : sha384 (fit (rd env 36 4) img) ≠ slice env 56 48) (ok : Bool) : fwComplete (some img) ok s =
    cplOut (flowCpl id 0x0404 cFailed stFwHash 0 0) (updateOver (idleBank s (rd env 35 1)).1 s) := by
  simp only [fwComplete, hfw, if_pos h]
  rfl

theorem fwComplete_store {img : Bytes} (h : sha384 (fit (rd env 36 4) img) = slice env 56 48) : fwComplete (some img) false s =
    cplOut (flowCpl id 0x0404 cFailed stFwStore 0 0) (updateOver (idleBank s (rd env 35 1)).1 s) := by
  simp only [fwComplete, hfw, if_neg (not_not_intro h), Bool.not_false, if_true]
  rfl

theorem fwComplete_stores {img : Bytes} (h : sha384 (fit (rd env 36 4) img) = slice env 56 48) : fwComplete (some img) true s =
    cplOut (flowCpl id 0x0404 cDone stOk 0 0) (bankStored (idleBank s (rd env 35 1)).1 (idleBank s (rd env 35 1)).2 env (fit (rd env 36 4) img)
      (updateOver (idleBank s (rd env 35 1)).1 s)) := by
  simp only [fwComplete, hfw, if_neg (not_not_intro h), Bool.not_true, Bool.false_eq_true, if_false]
  rfl

/-- An update whose image holds makes its bank valid, with the generation after that of the bank in use. -/
theorem update_stores {l : List FlowEnt} (hq : s.cmd.flowQ = { ord := id.ord, flow := id.flow } :: l) (hl : ∀ y ∈ l, y.ord ≠ id.ord ∧ y.cpl = none)
    {img : Bytes} (h : sha384 (fit (rd env 36 4) img) = slice env 56 48) : let i := (idleBank s (rd env 35 1)).1
    Gives (.fwUpdateComplete (some img) true) s fun t => (bank t i).mark = 0x5A5AA5A5 ∧ (bank t i).image = fit (rd env 36 4) img ∧
      (bank t i).env = env ∧ (bank t i).gen = ((bank s (idleBank s (rd env 35 1)).2).gen + 1) % 2 ^ 32 ∧ t.cmd.fw = none ∧
      t.hst = { s.hst with cplDue := s.hst.cplDue ++ [flowCpl id 0x0404 cDone stOk 0 0] } := by
  intro i
  have hgen : bank (updateOver i s) (idleBank s (rd env 35 1)).2 = bank s (idleBank s (rd env 35 1)).2 :=
    bank_setBank_ne _ _ (idleBank_ne s _)
  obtain ⟨hnone, hdue, hbank⟩ := updateDone (w := bankStored i (idleBank s (rd env 35 1)).2 env (fit (rd env 36 4) img) (updateOver i s))
    (c := flowCpl id 0x0404 cDone stOk 0 0) rfl rfl rfl hq hl
  have hown := (hbank i).trans (bank_setBank_same i _ _)
  refine ⟨_, congrArg Host.Outcome.next (fwComplete_stores hfw h), ?_⟩
  exact ⟨congrArg Bank.mark hown, congrArg Bank.image hown, congrArg Bank.env hown, (congrArg Bank.gen hown).trans (by rw [hgen]), hnone, hdue⟩

end

/-! ### Released items (R434, R438) -/

/-- The store when item `i` has left it, with the window of its flow moved on. -/
def itemOut (i : Nat) (it : Item) (s : State) : State :=
  tlyDev 0x46 1 (setFlow { s with tsk := { s.tsk with items := tdel i s.tsk.items } } it.id.flow
    { flow s it.id.flow with oldest := (flow s it.id.flow).oldest + 1 })

/-- The window of flow `f` closes no longer, unless `full`. -/
def flowReopened (f : Nat) (full : Bool) (s : State) : State := if full then s else setFlow s f { flow s f with closed := false }

theorem itemLeave_cases (i : Nat) (it : Item) (s : State) : ∃ full, itemLeave i it s = flowReopened it.id.flow full (itemOut i it s) ∨
    itemLeave i it s = takeableWake (flowReopened it.id.flow full (itemOut i it s)) := by
  unfold itemLeave
  dsimp only
  split
  · exact ⟨_, .inr rfl⟩
  · exact ⟨_, .inl rfl⟩

theorem itemOut_store (i : Nat) (it : Item) (s : State) : item (itemOut i it s) i = {} ∧
    (flow (itemOut i it s) it.id.flow).oldest = (flow s it.id.flow).oldest + 1 := by
  have htly (u : State) : (tlyDev 0x46 1 u).tsk = u.tsk := (tlyDev_keeps (Keeps.refl [.tly] u) rfl).only .tsk rfl
  rw [itemOut, item_congr (congrArg Tsk.items (htly _)), flow_congr (congrArg Tsk.flows (htly _)), setFlow_same]
  exact ⟨tget_tdel_same _ _ _, rfl⟩

theorem flowReopened_store (f : Nat) (full : Bool) (s : State) (i : Nat) : item (flowReopened f full s) i = item s i ∧
    (flow (flowReopened f full s) f).oldest = (flow s f).oldest := by
  unfold flowReopened
  split
  · exact ⟨rfl, rfl⟩
  · rw [setFlow_same]
    exact ⟨rfl, rfl⟩

/-- A released item leaves its slot, and its flow goes on to the next. -/
theorem itemLeave_store (i : Nat) (it : Item) (s : State) : item (itemLeave i it s) i = {} ∧
    (flow (itemLeave i it s) it.id.flow).oldest = (flow s it.id.flow).oldest + 1 := by
  obtain ⟨full, h⟩ := itemLeave_cases i it s
  obtain ⟨hitem, holdest⟩ := itemOut_store i it s
  obtain ⟨hwin, hwold⟩ := flowReopened_store it.id.flow full (itemOut i it s) i
  obtain ⟨hitems, hflows⟩ := takeableWake_store (flowReopened it.id.flow full (itemOut i it s))
  obtain h | h := h
  · rw [h]
    exact ⟨hwin.trans hitem, hwold.trans holdest⟩
  · rw [h, item_congr hitems, flow_congr hflows]
    exact ⟨hwin.trans hitem, hwold.trans holdest⟩

theorem itemLeave_only (i : Nat) (it : Item) (s : State) : ChangesOnly [.regs, .flt, .ints, .cores, .tsk, .tly] s (itemLeave i it s) :=
  (itemLeave_keeps (Keeps.refl _ s) rfl).only

/-- The completion of an item that is released without its effect. -/
def itemCpl (it : Item) (cls st : Nat) : Cpl := flowCpl it.id it.op cls st 0 0

/-- The item takes its place in its flow and completes there: no other command of the flow holds it back. -/
theorem itemCpl_due {u : State} {it : Item} {cls st : Nat} (hcls : cls ≠ cDone)
    (hq : ∀ y ∈ u.cmd.flowQ, y.flow ≠ it.id.flow ∧ y.ord ≠ it.id.ord ∧ y.cpl = none) :
    cplOut (itemCpl it cls st) { u with cmd := { u.cmd with flowQ := u.cmd.flowQ ++ [{ ord := it.id.ord, flow := it.id.flow }] } } =
      postCpl u (itemCpl it cls st) := by
  have hj : (itemCpl it cls st).journal = false := by simp [itemCpl, flowCpl, hcls]
  rw [cplOut_last (c := itemCpl it cls st) rfl rfl hq, journalCpl, hj]
  rfl

section
variable {s : State} {f i : Nat} {it : Item}
  (hfind : s.tsk.items.find? (fun q => q.2.used && q.2.id.flow == f && q.2.arr == (flow s f).oldest) = some (i, it))
  (hq : ∀ y ∈ s.cmd.flowQ, y.flow ≠ f ∧ y.ord ≠ it.id.ord ∧ y.cpl = none)
include hfind

theorem released_flow : it.id.flow = f := by
  have h := List.find?_some hfind
  simp only [Bool.and_eq_true, beq_iff_eq] at h
  exact h.1.2

include hq

theorem itemRelease_ends {disp cls st : Nat} {res : U32} (hd : it.done = some (disp, st, res)) (h0 : disp ≠ 0)
    (hcls : (if disp = 1 then cRefused else cFailed) = cls) : itemRelease f false s = postCpl (itemLeave i it s) (itemCpl it cls st) := by
  have hf := released_flow hfind
  subst hf
  have hq' : ∀ y ∈ (itemLeave i it s).cmd.flowQ, _ := (itemLeave_only i it s .cmd rfl).symm ▸ hq
  have hdone : cls ≠ cDone := by
    rw [← hcls]
    split <;> decide
  rw [← itemCpl_due hdone hq', ← hcls]
  simp only [itemRelease, hfind, hd, Bool.false_eq_true, if_false, if_neg h0]
  split <;> rfl

theorem itemRelease_ecc : itemRelease f true s =
    report (postCpl (setEvt (itemLeave i it s) rTSK_EVT (bitv 4)) (itemCpl it cFailed stInternal)) (srcBlk 4 0) 0x0104 := by
  have hf := released_flow hfind
  subst hf
  have hcmd : (setEvt (itemLeave i it s) rTSK_EVT (bitv 4)).cmd = s.cmd := by
    rw [setEvt_cmd]
    exact itemLeave_only i it s .cmd rfl
  rw [← itemCpl_due (by decide) (hcmd.symm ▸ hq)]
  simp only [itemRelease, hfind, if_true]
  rfl

end

/-- What every such release leaves, where `u` is the state in which the item has left the store and `t` that with its completion. -/
theorem released {s u t : State} {f i : Nat} {c : Cpl} (hstore : item u i = {} ∧ (flow u f).oldest = (flow s f).oldest + 1)
    (hu : ChangesOnly [.regs, .flt, .ints, .cores, .tsk, .tly] s u) (hcmd : t.cmd = u.cmd) (htsk : t.tsk = u.tsk)
    (hhst : t.hst = { u.hst with cplDue := u.hst.cplDue ++ [c] }) : let v := snareEval t
    item v i = {} ∧ (flow v f).oldest = (flow s f).oldest + 1 ∧ v.hst = { s.hst with cplDue := s.hst.cplDue ++ [c] } ∧ v.cmd = s.cmd := by
  intro v
  have he := snareEval_only t
  have htsk' : v.tsk = u.tsk := (he .tsk rfl).trans htsk
  refine ⟨(item_congr (congrArg Tsk.items htsk') i).trans hstore.1, ?_, ?_, ((he .cmd rfl).trans hcmd).trans (hu .cmd rfl)⟩
  · rw [flow_congr (congrArg Tsk.flows htsk'), hstore.2]
  · rw [he .hst rfl, hhst, hu .hst rfl]

/-- An item released as REFUSED or FAILED leaves the store and completes so (R434). -/
theorem released_plain {s : State} {f i cls st : Nat} {it : Item}
    (hitem : itemRelease f false s = postCpl (itemLeave i it s) (itemCpl it cls st)) (hflow : it.id.flow = f) :
    let v := snareEval (itemRelease f false s)
    item v i = {} ∧ (flow v f).oldest = (flow s f).oldest + 1 ∧
      v.hst = { s.hst with cplDue := s.hst.cplDue ++ [itemCpl it cls st] } ∧ v.cmd = s.cmd := by
  refine released (hflow ▸ itemLeave_store i it s) (itemLeave_only i it s) ?_ ?_ ?_
  · rw [hitem, postCpl_cmd]
  · rw [hitem, postCpl_tsk]
  · rw [hitem, postCpl]

/-- An item that meets an ECC error leaves the store and completes FAILED INTERNAL, and TSK_EVT says so (R438). -/
theorem released_ecc {s : State} {f i : Nat} {it : Item} (hitem : itemRelease f true s =
      report (postCpl (setEvt (itemLeave i it s) rTSK_EVT (bitv 4)) (itemCpl it cFailed stInternal)) (srcBlk 4 0) 0x0104)
    (hflow : it.id.flow = f) : let v := snareEval (itemRelease f true s)
    (item v i = {} ∧ (flow v f).oldest = (flow s f).oldest + 1 ∧
      v.hst = { s.hst with cplDue := s.hst.cplDue ++ [itemCpl it cFailed stInternal] } ∧ v.cmd = s.cmd) ∧ bit (rg v rTSK_EVT) 4 = true := by
  intro v
  have hevt : rg v rTSK_EVT = rg (itemLeave i it s) rTSK_EVT ||| bitv 4 := by
    rw [rg_snareEval _ (by decide) (by decide), hitem, rg_report, rg_postCpl, rg_setEvt_same]
  refine ⟨released (hflow ▸ itemLeave_store i it s) (itemLeave_only i it s) ?_ ?_ ?_, hevt ▸ bit_or_bitv _ (by decide)⟩
  · rw [hitem, report_cmd, postCpl_cmd, setEvt_cmd]
  · rw [hitem, report_tsk, postCpl_tsk, setEvt_tsk]
  · rw [hitem, report_hst, postCpl, setEvt_hst]

/-- Settles O35: an effect is forced, completes first in its flow and leaves the queue; an update changes its bank and completes; an item
leaves the store and completes. -/
theorem effectsComeIntoForceAndComplete : Obligations.EffectsComeIntoForceAndComplete := by
  refine ⟨fun s e rest l hpend hrest hrun hended happ hat hrepl hack hep hq hl => ?effect,
    fun s id env img l hfw hq hl => ?image, fun s f i it hfind hq => ?item⟩
  case effect =>
    have h : DueFirst e rest l s := ⟨hpend, hrest, hrun, hended, happ, hat, hrepl, hack, hep, hq, hl⟩
    exact ⟨fun es hp hn hl => ⟨_, rfl, h.setpoint_applies hp hn hl⟩, fun c g o hp hc => ⟨_, rfl, h.cal_applies hp hc⟩,
      fun r d f n hp => ⟨_, rfl, h.snapCfg_applies hp⟩, fun a g n rs hp => ⟨_, rfl, h.armMap_applies hp⟩⟩
  case image =>
    have hl' (y : FlowEnt) (hy : y ∈ l) := (hl y hy).2
    intro i failed hashed
    exact ⟨fun h => update_stores hfw hq hl' h, fun h ok => update_fails hq hl' (fwComplete_hash hfw h ok),
      fun h => update_fails hq hl' (fwComplete_store hfw h), fun ok => update_fails hq hl' (fwComplete_fetch hfw ok)⟩
  case item =>
    intro ends
    have hflow := released_flow hfind
    exact ⟨fun st res hd => ⟨_, rfl, released_plain (cls := cRefused) (itemRelease_ends hfind hq hd (by decide) (by decide)) hflow⟩,
      fun st res hd => ⟨_, rfl, released_plain (cls := cFailed) (itemRelease_ends hfind hq hd (by decide) (by decide)) hflow⟩,
      ⟨_, rfl, released_ecc (itemRelease_ecc hfind hq) hflow⟩⟩

end Sys2Proof.Machine
end

section
/-! PROOFS. The journal: submits at a core's port, the head after a reset, and the write of a record (O23). -/

namespace Sys2Proof.Machine

/-! ### Passes over a table -/

/-- `step` puts at the key of its entry that entry's value, and leaves every other key. -/
structure PutsAt {α β : Type} (d : α) (step : Tbl α → β → Tbl α) (key : β → Nat) (val : β → α) : Prop where
  same : ∀ t p, tget d (step t p) (key p) = val p
  other : ∀ t p k, k ≠ key p → tget d (step t p) k = tget d t k

namespace PutsAt

variable {α β : Type} {d : α} {step : Tbl α → β → Tbl α} {key : β → Nat} {val : β → α}

theorem tget_foldl_other (h : PutsAt d step key val) {k : Nat} {l : List β} (hk : ∀ p ∈ l, k ≠ key p) (t : Tbl α) :
    tget d (l.foldl step t) k = tget d t k := by
  induction l generalizing t with
  | nil => rfl
  | cons p l ih =>
    rw [List.foldl_cons, ih fun q hq => hk q (List.mem_cons_of_mem p hq)]
    exact h.other t p k (hk p List.mem_cons_self)

theorem tget_foldl_mem (h : PutsAt d step key val) {l : List β} (hl : l.Pairwise fun p q => key p ≠ key q) {p : β} (hp : p ∈ l) (t : Tbl α) :
    tget d (l.foldl step t) (key p) = val p := by
  induction hl generalizing t with
  | nil => cases hp
  | cons hq _ ih =>
    cases hp with
    | head => exact (h.tget_foldl_other hq _).trans (h.same t p)
    | tail _ hp => exact ih hp _

end PutsAt

section
variable {α β : Type} {d : α} {step : Tbl α → Nat × β → Tbl α} {f : Nat → Nat} {val : Nat × β → α} {n : Nat} {xs : List β}

/-- A numbered list, entry `i` put at `f i` where no two places fall together: each place holds its entry's value. -/
theorem PutsAt.tget_zip (h : PutsAt d step (fun p => f p.1) val) (hf : ∀ i j, i < j → j < n → f i ≠ f j) (hn : xs.length ≤ n) (t : Tbl α)
    {i : Nat} (hi : i < xs.length) : tget d (((List.range n).zip xs).foldl step t) (f i) = val (i, xs[i]) := by
  have hpair : ((List.range n).zip xs).Pairwise fun p q => f p.1 ≠ f q.1 := by
    refine List.pairwise_iff_getElem.2 fun a b ha hb hab => ?_
    simp only [List.getElem_zip, List.getElem_range]
    simp only [List.length_zip, List.length_range] at hb
    exact hf a b hab (by omega)
  have hmem : (i, xs[i]) ∈ (List.range n).zip xs :=
    List.mem_iff_getElem.2 ⟨i, by simp only [List.length_zip, List.length_range]; omega, by simp⟩
  exact h.tget_foldl_mem hpair hmem t

theorem PutsAt.tget_zip_other (h : PutsAt d step (fun p => f p.1) val) {k : Nat} (hk : ∀ i < n, k ≠ f i) (t : Tbl α) :
    tget d (((List.range n).zip xs).foldl step t) k = tget d t k :=
  h.tget_foldl_other (fun _ hp => hk _ (List.mem_range.1 (List.of_mem_zip hp).1)) t

theorem putsAt_tset {α β : Type} [DecidableEq α] (d : α) (key : β → Nat) (val : β → α) :
    PutsAt d (fun t p => tset d t (key p) (val p)) key val :=
  ⟨fun _ _ => tget_tset_same _ _ _ _, fun _ _ _ hk => tget_tset_ne hk⟩

theorem putsAt_tins {α β : Type} (d : α) (key : β → Nat) (val : β → α) : PutsAt d (fun t p => tins (key p) (val p) t) key val :=
  ⟨fun _ _ => tget_tins_same _ _ _ _, fun _ _ _ hk => tget_tins_ne hk⟩

end

/-! ### Words stored one after another -/

/-- The words `ws` stored one after another in a table of words, word `i` at `f i`; there are `n` places. -/
def storeWords (f : Nat → Nat) (n : Nat) (ws : List U64) (t : Tbl U64) : Tbl U64 :=
  ((List.range n).zip ws).foldl (fun t p => tset 0 t (f p.1) p.2) t

theorem tget_storeWords {f : Nat → Nat} {n : Nat} {ws : List U64} (hf : ∀ i j, i < j → j < n → f i ≠ f j) (hn : ws.length ≤ n) (t : Tbl U64)
    {i : Nat} (hi : i < ws.length) : tget 0 (storeWords f n ws t) (f i) = ws[i] :=
  (putsAt_tset 0 (fun p : Nat × U64 => f p.1) Prod.snd).tget_zip hf hn t hi

theorem tget_storeWords_other {f : Nat → Nat} {n k : Nat} (h : ∀ i < n, k ≠ f i) (ws : List U64) (t : Tbl U64) :
    tget 0 (storeWords f n ws t) k = tget 0 t k :=
  (putsAt_tset 0 (fun p : Nat × U64 => f p.1) Prod.snd).tget_zip_other h t

/-! ### The port of a core (R181, R409) -/

theorem exec_journalPortSubmit (s : State) (c : Fin 16) (ws : List U64) (v : U32) :
    exec (.journalPortSubmit c ws v) s = .next (jnlSubmit c v (jnlFill c ws s)) := rfl

theorem jnlFill_eq (c : Nat) (ws : List U64) (s : State) :
    jnlFill c ws s = setCore s c { core s c with jbuf := storeWords id 4096 ws (core s c).jbuf } := by
  unfold jnlFill storeWords
  rfl

/-- The payload words of a submit are the words stored at the port. -/
theorem jbuf_jnlFill (c : Nat) {ws : List U64} (h : ws.length ≤ 4096) (s : State) :
    (List.range ws.length).map (fun i => tget 0 (core (jnlFill c ws s) c).jbuf i) = ws := by
  rw [jnlFill_eq, setCore_same]
  refine List.ext_getElem (by simp) fun i _ hi => ?_
  simp only [List.getElem_map, List.getElem_range]
  exact tget_storeWords (f := id) (fun i j hij _ => Nat.ne_of_lt hij) h _ hi

/-- A firmware type does not go ahead of others. -/
theorem jnlUrgent_firmware {ty : Nat} (h : 0x8000 ≤ ty) (ws : List U64) : jnlUrgent { ty := ty, words := ws } = false := by
  simp only [jnlUrgent, Bool.or_eq_false_iff, beq_eq_false_iff_ne]
  omega

theorem jnlPut_queued {ty : Nat} {ws : List U64} {s : State} (hu : jnlUrgent { ty := ty, words := ws } = false)
    (h : jnlUsed s.grn.jnlQ + (ws.length + 2) ≤ 2048) :
    jnlPut ty ws s = { s with grn := { s.grn with jnlQ := s.grn.jnlQ ++ [{ ty := ty, words := ws }] } } := by
  simp only [jnlPut, hu, Bool.false_eq_true, if_false, if_pos h]

theorem jnlPut_full {ty : Nat} {ws : List U64} {s : State} (hu : jnlUrgent { ty := ty, words := ws } = false)
    (h : 2048 < jnlUsed s.grn.jnlQ + (ws.length + 2)) : jnlPut ty ws s = jnlDropped 1 s := by
  simp only [jnlPut, hu, Bool.false_eq_true, if_false, if_neg (Nat.not_le.2 h)]

theorem jnlSubmit_refused {c : Nat} {v : U32} (h : fld v 15 0 < 0x8000) (s : State) :
    jnlSubmit c v s = setCore s c { core s c with jerr := true, jdrop := false } :=
  if_pos (.inl h)

/-- A submit that is taken, after the words have been stored: the record goes to the queue, and the port shows whether it is in it. -/
theorem jnlSubmit_taken {s : State} (c : Nat) {ws : List U64} {v : U32} (hws : ws.length ≤ 4096) (ht : 0x8000 ≤ fld v 15 0)
    (hl : fld v 31 16 = ws.length) : let u := jnlFill c ws s
    let p := jnlPut (fld v 15 0) ws u
    jnlSubmit c v u = setCore p c { core u c with jerr := false, jdrop := decide (p.grn.jnlQ.length ≤ u.grn.jnlQ.length) } := by
  have hno : ¬ (fld v 15 0 < 0x8000 ∨ 4096 < fld v 31 16) := by omega
  refine (if_neg hno).trans ?_
  rw [hl, jbuf_jnlFill c hws]

theorem core_jnlFill_ne {c d : Nat} (h : d ≠ c) (ws : List U64) (s : State) : core (jnlFill c ws s) d = core s d := setCore_ne _ _ _ _ h

theorem jnlFill_only (c : Nat) (ws : List U64) (s : State) : ChangesOnly [.cores] s (jnlFill c ws s) :=
  (setCore_keeps (Keeps.refl _ s) rfl).only

theorem setCore_only (s : State) (c : Nat) (x : Core) : ChangesOnly [.cores] s (setCore s c x) := (setCore_keeps (Keeps.refl _ s) rfl).only

theorem jnlDropped_only (n : Nat) (s : State) : ChangesOnly [.regs] s (jnlDropped n s) := (jnlDropped_keeps (Keeps.refl _ s) rfl).only

theorem rg_jnlDropped_drop (s : State) : rg (jnlDropped 1 s) rGRN_JNL_DROP = satInc (rg s rGRN_JNL_DROP) :=
  (rg_wr_ne _ _ _ _ (by decide)).trans (rg_count_same s rGRN_JNL_DROP 1)

theorem grn_only (s : State) (x : Grn) : ChangesOnly [.grn] s { s with grn := x } := by
  intro p hp
  cases p
  case grn => cases hp
  all_goals rfl

section
variable {s : State} {c : Nat} {ws : List U64} {v : U32} (hws : ws.length ≤ 4096)
include hws

theorem jnlSubmit_queues (ht : 0x8000 ≤ fld v 15 0) (hl : fld v 31 16 = ws.length) (hq : jnlUsed s.grn.jnlQ + ws.length + 2 ≤ 2048) :
    let t := jnlSubmit c v (jnlFill c ws s)
    t.grn = { s.grn with jnlQ := s.grn.jnlQ ++ [{ ty := fld v 15 0, words := ws }] } ∧ (core t c).jerr = false ∧
      (core t c).jdrop = false ∧ (∀ d, d ≠ c → core t d = core s d) ∧ ChangesOnly [.grn, .cores] s t := by
  intro t
  have e : t = _ := jnlSubmit_taken c hws ht hl
  rw [jnlPut_queued (s := jnlFill c ws s) (jnlUrgent_firmware ht ws) hq] at e
  rw [e]
  refine ⟨rfl, by rw [setCore_same], ?_, fun d hd => ?_, ?_⟩
  · rw [setCore_same]
    simp
  · rw [setCore_ne _ _ _ _ hd]
    exact core_jnlFill_ne hd ws s
  · exact ((jnlFill_only c ws s).mono rfl).trans (((grn_only _ _).mono rfl).trans ((setCore_only _ _ _).mono rfl))

theorem jnlSubmit_drops (ht : 0x8000 ≤ fld v 15 0) (hl : fld v 31 16 = ws.length) (hq : 2048 < jnlUsed s.grn.jnlQ + ws.length + 2) :
    let t := jnlSubmit c v (jnlFill c ws s)
    t.grn = s.grn ∧ (core t c).jdrop = true ∧ rg t rGRN_JNL_DROP = satInc (rg s rGRN_JNL_DROP) ∧ ChangesOnly [.regs, .cores] s t := by
  intro t
  have e : t = _ := jnlSubmit_taken c hws ht hl
  rw [jnlPut_full (s := jnlFill c ws s) (jnlUrgent_firmware ht ws) hq] at e
  rw [e]
  refine ⟨rfl, ?_, rg_jnlDropped_drop (jnlFill c ws s), ?_⟩
  · rw [setCore_same]
    exact decide_eq_true (Nat.le_refl _)
  · exact ((jnlFill_only c ws s).mono rfl).trans (((jnlDropped_only 1 _).mono rfl).trans ((setCore_only _ _ _).mono rfl))

end

theorem jnlSubmit_refuses {s : State} {c : Nat} {ws : List U64} {v : U32} (h : fld v 15 0 < 0x8000) :
    let t := jnlSubmit c v (jnlFill c ws s)
    t.grn = s.grn ∧ (core t c).jerr = true ∧ ChangesOnly [.cores] s t := by
  intro t
  have e : t = _ := jnlSubmit_refused h _
  rw [e]
  exact ⟨rfl, by rw [setCore_same], (jnlFill_only c ws s).trans (setCore_only _ _ _)⟩

/-! ### The head of the journal (R182) -/

theorem exec_jnlReady (s : State) : exec .jnlReady s = .next (if s.grn.jnlReady then s else jnlLocate s) := rfl

theorem jnlLocate_locates (s : State) : let t := jnlLocate s
    t.grn.jnlReady = true ∧ t = { s with grn := { s.grn with jnlReady := true, jnlHead := t.grn.jnlHead, jnlSeq := t.grn.jnlSeq } } ∧
      (∀ r, s.std.jnl.getLast? = some r → t.grn.jnlHead = (r.at_ + r.len + 2) % 1048576 ∧ t.grn.jnlSeq = (r.seqno + 1) % 2 ^ 32) := by
  unfold jnlLocate
  cases s.std.jnl.getLast? with
  | none => exact ⟨rfl, rfl, fun r h => nomatch h⟩
  | some x =>
    refine ⟨rfl, rfl, fun r h => ?_⟩
    cases h
    exact ⟨rfl, rfl⟩

/-! ### The write of a record (R178, R179, R182) -/

theorem exec_journalWrite (s : State) : exec .journalWrite s = .next (journalWrite s) := rfl

theorem journalWrite_waits {s : State} (h : s.grn.jnlReady = false ∨ s.grn.jnlQ = []) : journalWrite s = s := by
  unfold journalWrite
  split
  · rfl
  · next hq =>
    have hr : s.grn.jnlReady = false := h.resolve_right (by rw [hq]; exact List.cons_ne_nil _ _)
    rw [hr]
    rfl

/-- The words of a record with its number: header, payload, commit word (R179). -/
def jnlRecord (r : JnlReq) (sq : Nat) : List U64 :=
  jnlHeader r.ty r.words.length sq :: r.words ++ [jnlCommit (jnlHeader r.ty r.words.length sq :: r.words) sq]

theorem jnlRecord_length (r : JnlReq) (sq : Nat) : (jnlRecord r sq).length = r.words.length + 2 := by
  simp [jnlRecord]

theorem jnlRecord_header (r : JnlReq) (sq : Nat) : (jnlRecord r sq)[0]'(by rw [jnlRecord_length]; omega) = jnlHeader r.ty r.words.length sq := rfl

theorem jnlRecord_payload (r : JnlReq) (sq : Nat) {k : Nat} (h : k < r.words.length) :
    (jnlRecord r sq)[1 + k]'(by rw [jnlRecord_length]; omega) = r.words[k] := by
  simp only [jnlRecord, Nat.add_comm 1 k, List.cons_append, List.getElem_cons_succ, List.getElem_append_left h]

theorem jnlRecord_commit (r : JnlReq) (sq : Nat) :
    (jnlRecord r sq)[r.words.length + 1]'(by rw [jnlRecord_length]; omega) = jnlCommit (jnlHeader r.ty r.words.length sq :: r.words) sq := by
  simp [jnlRecord]

/-- The commit word carries the sequence number in its upper half. -/
theorem hi32_jnlCommit (ws : List U64) (sq : Nat) : (hi32 (jnlCommit ws sq)).toNat = sq % 2 ^ 32 := by
  have hcrc := (crc32c (ws.flatMap fun w => leBytes 8 w.toNat)).isLt
  simp only [hi32, jnlCommit, u64, BitVec.toNat_setWidth, BitVec.toNat_ushiftRight, BitVec.toNat_ofNat, Nat.shiftRight_eq_div_pow]
  omega

/-- Where the `i`-th word of a record at the head stands. -/
def jnlPlace (head i : Nat) : Nat := (head + i) % jnlWords

theorem jnlPlace_ne {head n i j : Nat} (hn : n ≤ jnlWords) (hij : i < j) (hj : j < n) : jnlPlace head i ≠ jnlPlace head j := by
  unfold jnlPlace jnlWords at *
  omega

theorem jnlPlace_other {head n k i : Nat} (h : n ≤ (k + jnlWords - head) % jnlWords) (hi : i < n) : k ≠ jnlPlace head i := by
  unfold jnlPlace jnlWords at *
  omega

/-- The record's words from the head on, the head behind them, and the next number; `jnl` lists the records then in the journal. -/
def jnlWritten (r : JnlReq) (rest : List JnlReq) (jnl : List JnlRec) (s : State) : State :=
  { s with
    std := { s.std with
      jnlMem := storeWords (jnlPlace s.grn.jnlHead) (r.words.length + 2) (jnlRecord r s.grn.jnlSeq) s.std.jnlMem, jnl := jnl },
    grn := { s.grn with jnlQ := rest, jnlHead := (s.grn.jnlHead + r.words.length + 2) % 1048576, jnlSeq := (s.grn.jnlSeq + 1) % 2 ^ 32 } }

/-- A write; where it overwrites a record, that is counted. -/
theorem journalWrite_writes {s : State} {r : JnlReq} {rest : List JnlReq} (hq : s.grn.jnlQ = r :: rest) (hr : s.grn.jnlReady = true) :
    ∃ jnl, journalWrite s = jnlWritten r rest jnl s ∨ journalWrite s = count (jnlWritten r rest jnl s) rGRN_JNL_WRAP := by
  unfold journalWrite
  rw [hq]
  dsimp only
  rw [if_neg (by rw [hr]; decide)]
  split
  · exact ⟨_, .inr rfl⟩
  · exact ⟨_, .inl rfl⟩

theorem journalWrite_puts {s : State} {r : JnlReq} {rest : List JnlReq} (hq : s.grn.jnlQ = r :: rest) (hr : s.grn.jnlReady = true)
    (hn : r.words.length ≤ 4096) : let t := journalWrite s
    let at_ (i : Nat) := tget 0 t.std.jnlMem ((s.grn.jnlHead + i) % 1048576)
    at_ 0 = u64 (r.ty + r.words.length * 2 ^ 16 + (s.grn.jnlSeq % 2 ^ 32) * 2 ^ 32) ∧
      (∀ k (h : k < r.words.length), at_ (1 + k) = r.words[k]) ∧ (hi32 (at_ (r.words.length + 1))).toNat = s.grn.jnlSeq % 2 ^ 32 ∧
      (∀ k, (k + 1048576 - s.grn.jnlHead) % 1048576 ≥ r.words.length + 2 → k < 1048576 →
        tget 0 t.std.jnlMem k = tget 0 s.std.jnlMem k) ∧
      t.grn = { s.grn with jnlQ := rest, jnlHead := (s.grn.jnlHead + r.words.length + 2) % 1048576, jnlSeq := (s.grn.jnlSeq + 1) % 2 ^ 32 } ∧
      ChangesOnly [.regs, .std, .grn] s t := by
  intro t at_
  have hfit : r.words.length + 2 ≤ jnlWords := by unfold jnlWords; omega
  obtain ⟨jnl, e⟩ := journalWrite_writes hq hr
  have hmem : t.std.jnlMem = storeWords (jnlPlace s.grn.jnlHead) (r.words.length + 2) (jnlRecord r s.grn.jnlSeq) s.std.jnlMem :=
    e.elim (congrArg fun x : State => x.std.jnlMem) (congrArg fun x : State => x.std.jnlMem)
  have hat (i : Nat) (hi : i < r.words.length + 2) : at_ i = (jnlRecord r s.grn.jnlSeq)[i]'(by rw [jnlRecord_length]; exact hi) := by
    simp only [at_, hmem]
    exact tget_storeWords (fun i j => jnlPlace_ne hfit) (jnlRecord_length r _).le _ _
  refine ⟨(hat 0 (by omega)).trans (jnlRecord_header r _), fun k hk => (hat (1 + k) (by omega)).trans (jnlRecord_payload r _ hk), ?_,
    fun k hfar _ => ?_, e.elim (congrArg State.grn) (congrArg State.grn), (journalWrite_keeps (Keeps.refl _ s) rfl).only⟩
  · rw [hat _ (by omega), jnlRecord_commit, hi32_jnlCommit]
  · rw [hmem, tget_storeWords_other fun i hi => jnlPlace_other hfar hi]

/-! ### The obligation -/

/-- Settles O23: a submit by what the queue has room for, the head by the newest record, and a write word by word. -/
theorem journalPortSubmits : Obligations.JournalPortSubmits := by
  refine ⟨fun s c ws v hws => ⟨fun ht hl hq => ?_, fun ht hl hq => ?_, fun ht => ?_⟩, fun s => ⟨fun h => ?_, fun h => ?_, fun h => ?_,
    fun r rest hq hr hn _ => ?_⟩⟩
  · exact ⟨_, exec_journalPortSubmit s c ws v, jnlSubmit_queues hws ht hl hq⟩
  · exact ⟨_, exec_journalPortSubmit s c ws v, jnlSubmit_drops hws ht hl hq⟩
  · exact ⟨_, exec_journalPortSubmit s c ws v, jnlSubmit_refuses ht⟩
  · exact ⟨_, (exec_jnlReady s).trans (by rw [h]; rfl), jnlLocate_locates s⟩
  · rw [exec_jnlReady, h, if_pos rfl]
  · rw [exec_journalWrite, journalWrite_waits h]
  · exact ⟨_, exec_journalWrite s, journalWrite_puts hq hr hn⟩

end Sys2Proof.Machine
end

section
/-! PROOFS. Messages of the stack: the replica, effects, their acknowledgements and the mirrors (O48). -/

namespace Sys2Proof.Machine

/-! ### What the replica, effects and mirrors are read from -/

theorem sport_congr {s t : State} (h : t.stk.ports = s.stk.ports) (p : Nat) : sport t p = sport s p := by
  unfold sport
  rw [h]

theorem stkMode_congr {s t : State} (h : t.regs = s.regs) : stkMode t = stkMode s := by
  unfold stkMode rg
  rw [h]

theorem stkTxOn_congr {s t : State} (h : t.sys = s.sys) : stkTxOn t = stkTxOn s := by
  unfold stkTxOn held
  rw [h]

theorem upPorts_congr {s t : State} (h : t.stk.ports = s.stk.ports) : upPorts t = upPorts s := by
  simp only [upPorts, sport_congr h]

/-- The device keeps a replica and a mirror. -/
def Shadow (s : State) : Prop := stkMode s = 1 ∧ s.stk.role = 1

theorem isShadow_iff (s : State) : isShadow s = true ↔ Shadow s := by
  simp only [isShadow, Shadow, Bool.and_eq_true, decide_eq_true_eq]

/-! ### Which message is taken (R489) -/

/-- No other port that is UP has delivered the SEQ of this message, and its own port is UP. -/
def Fresh (s : State) (p kind : Nat) (sq : U8) : Prop :=
  (sport s p).st = 2 ∧ ∀ q, q < 2 → q ≠ p → (sport s q).st = 2 → tget none (sport s q).seqs kind ≠ some sq.toNat

/-- The port notes the SEQ of a message of the kind. -/
def noteSeq (p kind : Nat) (sq : U8) (s : State) : State :=
  setSport s p { sport s p with seqs := tset none (sport s p).seqs kind (some sq.toNat) }

section
variable {s : State} {p kind : Nat} {sq : U8} {f : State → State}

theorem stkTake_down (h : (sport s p).st ≠ 2) : stkTake p kind sq f s = s := if_pos h

theorem firstCopy_snd : (firstCopy p kind sq.toNat s).2 = noteSeq p kind sq s := rfl

theorem firstCopy_fst (h : (sport s p).st = 2) : (firstCopy p kind sq.toNat s).1 = true ↔ Fresh s p kind sq := by
  simp only [firstCopy, Bool.not_eq_true', List.any_eq_false, List.mem_range, Bool.and_eq_true, bne_iff_ne, beq_iff_eq, Fresh, h, true_and,
    not_and]
  exact ⟨fun g q hq hp hs => g q hq ⟨hp, hs⟩, fun g q hq hps => g q hq hps.1 hps.2⟩

theorem stkTake_fresh (h : Fresh s p kind sq) : stkTake p kind sq f s = f (noteSeq p kind sq s) := by
  unfold stkTake
  rw [if_neg (not_not.2 h.1)]
  exact if_pos ((firstCopy_fst h.1).2 h)

theorem stkTake_stale (h : ¬ Fresh s p kind sq) : stkTake p kind sq f s = s ∨ stkTake p kind sq f s = noteSeq p kind sq s := by
  by_cases hu : (sport s p).st = 2
  · refine .inr ?_
    unfold stkTake
    rw [if_neg (not_not.2 hu)]
    exact if_neg (mt (firstCopy_fst hu).1 h)
  · exact .inl (stkTake_down hu)

/-- Whatever becomes of the message, an UP port has noted its SEQ. -/
theorem stkTake_notes (hf : ∀ u, (f u).stk.ports = u.stk.ports) (h : (sport s p).st = 2) :
    tget none (sport (stkTake p kind sq f s) p).seqs kind = some sq.toNat := by
  have hnote : tget none (sport (noteSeq p kind sq s) p).seqs kind = some sq.toNat := by
    rw [noteSeq, setSport_same, tget_tset_same]
  by_cases hfresh : Fresh s p kind sq
  · rw [stkTake_fresh hfresh, sport_congr (hf _), hnote]
  · unfold stkTake
    rw [if_neg (not_not.2 h), if_neg (mt (firstCopy_fst h).1 hfresh)]
    exact hnote

/-- A message that is not taken, or of which its kind makes nothing, leaves all but the ports as it was. -/
theorem stkTake_untaken (h : Fresh s p kind sq → f (noteSeq p kind sq s) = noteSeq p kind sq s) :
    ∃ ports, stkTake p kind sq f s = { s with stk := { s.stk with ports := ports } } := by
  by_cases hfresh : Fresh s p kind sq
  · exact ⟨_, (stkTake_fresh hfresh).trans (h hfresh)⟩
  · exact (stkTake_stale hfresh).elim (fun e => ⟨_, e⟩) (fun e => ⟨_, e⟩)

end

/-! ### What follows a message (R463, R500) -/

/-- READY and the signals of Snare follow: of the stack READY alone may change. -/
theorem readyEval_leaves (u : State) : let t := snareEval (readyStep u)
    t.stk = { u.stk with ready := t.stk.ready } ∧ ChangesOnly [.regs, .flt, .snr, .stk] u t := by
  intro t
  have heval : ChangesOnly [.regs, .snr] (readyStep u) t := snareEval_only _
  have hready : (readyStep u).stk = { u.stk with ready := (readyStep u).stk.ready } := by
    unfold readyStep
    dsimp only
    split
    · rfl
    · rw [(snareSig_keeps (Keeps.refl [.regs, .flt, .snr] _) rfl).only .stk rfl]
      rfl
  refine ⟨?_, (readyStep_keeps (Keeps.refl _ u) rfl).only.trans (heval.mono rfl)⟩
  rw [heval .stk rfl, hready]

/-! ### STATION and CELLS (R175, R176, R497) -/

theorem tget_tblOf (d : U32) (vs : List U32) (i : Nat) : tget d (tblOf d vs) i = vs.getD i d := by
  have hput := putsAt_tset d (fun p : Nat × U32 => p.1) Prod.snd
  by_cases hi : i < vs.length
  · rw [List.getD_eq_getElem _ _ hi]
    exact hput.tget_zip (f := id) (fun i j hij _ => Nat.ne_of_lt hij) (Nat.le_refl _) [] hi
  · rw [List.getD_eq_default _ _ (Nat.not_lt.1 hi)]
    exact hput.tget_zip_other (f := id) (fun j hj => by simp only [id_eq]; omega) []

theorem stationReceive_other {s : State} (h : ¬ Shadow s) (e : Nat) (ws : List U64) : stationReceive e ws s = s :=
  if_pos (by rw [Bool.not_eq_true', ← Bool.not_eq_true, isShadow_iff]; exact h)

theorem stationReceive_stores {s : State} (h : Shadow s) (e : Nat) (ws : List U64) : let t := stationReceive e ws s
    (∀ i, tget 0 t.grn.repl.station i = if i < 3272 then (unpair ws).getD i 0 else 0) ∧
      (∀ i, tget stale t.grn.repl.fw i = (unpair ws).getD (3272 + i) stale) ∧
      t.grn.repl.stn = some (fullEpoch s e) ∧ t.grn.repl.cells = s.grn.repl.cells ∧ t.tim.based = true := by
  intro t
  have e : t = _ := if_neg (by rw [(isShadow_iff s).2 h]; decide)
  rw [e]
  refine ⟨fun i => ?_, fun i => ?_, rfl, rfl, rfl⟩
  · refine (tget_tblOf _ _ _).trans ?_
    split
    · next hi => simp [List.getD, List.getElem?_take_of_lt hi]
    · next hi => simp [List.getD, hi]
  · refine (tget_tblOf _ _ _).trans ?_
    simp [List.getD, List.getElem?_drop]

theorem cellsReceive_other {s : State} (h : ¬ Shadow s) (first : Nat) (ws : List U64) : cellsReceive first ws s = s :=
  if_pos (by rw [Bool.not_eq_true', ← Bool.not_eq_true, isShadow_iff]; exact h)

/-- The cells from `first` on take the records and the epoch; the others keep theirs. -/
theorem cellsReceive_stores {s : State} (h : Shadow s) (first : Nat) {ws : List U64} (hn : (unpair ws).length ≤ 16384) {i : Nat}
    (hi : i < 16384) : tget (0, 0) (cellsReceive first ws s).grn.repl.cells ((first + i) % 16384) =
      if i < (unpair ws).length then (((unpair ws).getD i 0).toNat, epochNow s)
      else tget (0, 0) s.grn.repl.cells ((first + i) % 16384) := by
  have e : cellsReceive first ws s = _ := if_neg (by rw [(isShadow_iff s).2 h]; decide)
  rw [e]
  have hput := putsAt_tins (0, 0) (fun p : Nat × U32 => (first + p.1) % 16384) (fun p => (p.2.toNat, epochNow s))
  split
  · next hlt =>
    rw [List.getD_eq_getElem _ _ hlt]
    exact hput.tget_zip (f := fun i => (first + i) % 16384) (fun a b hab hb => by omega) (Nat.le_refl _) _ hlt
  · next hge => exact hput.tget_zip_other (f := fun i => (first + i) % 16384) (fun j hj => by omega) _

/-! ### Messages sent (R489) -/

theorem stkSend_silent {s : State} (h : upPorts s = [] ∨ stkTxOn s = false) (kind e : Nat) (ws : List U64) : stkSend kind e ws s = s := by
  refine if_pos ?_
  obtain h | h := h <;> simp [h]

theorem stkSend_sends {s : State} (hup : upPorts s ≠ []) (htx : stkTxOn s = true) (kind e : Nat) (ws : List U64) :
    stkSend kind e ws s = stkPut kind e ws s :=
  if_neg (by simp [hup, htx])

theorem stkSend_only (kind e : Nat) (ws : List U64) (s : State) : ChangesOnly [.stk] s (stkSend kind e ws s) :=
  (stkSend_keeps (Keeps.refl _ s) rfl).only

theorem stkPut_out (kind e : Nat) (ws : List U64) (s : State) : (stkPut kind e ws s).stk.out =
    s.stk.out ++ [{ kind := kind, sq := tget 0 s.stk.outSeq kind, epoch := e % 2 ^ 32, words := ws }] := rfl

theorem stkSend_ports (kind e : Nat) (ws : List U64) (s : State) : (stkSend kind e ws s).stk.ports = s.stk.ports := by
  unfold stkSend
  split <;> rfl

/-! ### EFFECT (R489, R497, R499) -/

/-- `f` changes of an effect at most what its completion will say of it, and not whose effect it is. -/
def KeepsEff (f : Eff → Eff) : Prop := ∀ y, SameEff (f y) y ∧ (f y).repl = y.repl

theorem keepsEff_id : KeepsEff id := fun y => ⟨SameEff.refl y, rfl⟩

theorem cancelDeblocks_pend (p : Eff → Bool) (st k : Nat) (s : State) :
    ∃ f, KeepsEff f ∧ (cancelDeblocks p st k s).cmd.pend = s.cmd.pend.map f := by
  have hpend : ((s.cmd.pend.filter p).foldl lineCancel s).cmd.pend = s.cmd.pend :=
    foldl_leaves (g := fun u => u.cmd.pend) lineCancel_pend _ s
  refine ⟨fun y => if p y then { y with ended := some (cFailed, st), at_ := some k } else y, fun y => ?_, ?_⟩
  · dsimp only
    split
    · exact ⟨⟨rfl, rfl, rfl, rfl, rfl, rfl⟩, rfl⟩
    · exact keepsEff_id y
  · rw [Machine.cancelDeblocks, hpend]

/-- A shadow decides what a block or a retirement decides at once; it trains no ring. -/
theorem decide1_shadow {s : State} (h : s.stk.role = 1) (e : Eff) : ∃ f, KeepsEff f ∧ (decide1 e s).cmd.pend = s.cmd.pend.map f := by
  have hsame {t : State} (ht : t.cmd.pend = s.cmd.pend) : ∃ f, KeepsEff f ∧ t.cmd.pend = s.cmd.pend.map f :=
    ⟨id, keepsEff_id, by rw [ht, List.map_id]⟩
  cases hp : e.payload with
  | groupMask m =>
    by_cases ho : e.op = 0x0203
    · rw [decide1_deblock hp ho]
      exact hsame (foldl_linePush_pend _ _ s)
    · rw [decide1_block hp ho, foldl_linePush_pend]
      exact cancelDeblocks_pend _ _ _ s
  | cells cs =>
    rw [decide1_cells hp]
    exact hsame (foldl_setTurn_pend _ _ _ _ _)
  | ringCtl r act =>
    rw [decide1_ringCtl hp, show ringAccept e r act s = s from if_pos h]
    exact hsame rfl
  | snareArm action pre groups val mask =>
    refine hsame ?_
    by_cases ha : action = 1 <;> simp [decide1, hp, ha]
  | _ =>
    unfold decide1
    rw [hp]
    exact hsame rfl

theorem decide1_stk (e : Eff) (s : State) : (decide1 e s).stk = s.stk :=
  (decide1_keeps (Keeps.refl [.regs, .flt, .cmd, .ints, .cores, .tim, .fur, .snr] s) rfl).only .stk rfl

theorem decide1_sys (e : Eff) (s : State) : (decide1 e s).sys = s.sys :=
  (decide1_keeps (Keeps.refl [.regs, .flt, .cmd, .ints, .cores, .tim, .fur, .snr] s) rfl).only .sys rfl

/-- A shadow confirms no effect of its own to the partner. -/
theorem enqueue_shadow {s : State} (h : s.stk.role = 1) (e : Eff) : enqueue e s = decide1 e (withEff e s) := by
  have hrole : (decide1 e (withEff e s)).stk.role = 1 := (congrArg Stk.role (decide1_stk e _)).trans h
  refine if_neg ?_
  simp only [withEff] at hrole
  rw [hrole]
  simp

/-- The state in which the next command of verification order comes. -/
def nextOrd (s : State) : State := { s with cmd := { s.cmd with ord := s.cmd.ord + 1 } }

/-- The effect that an EFFECT message carries. -/
def carriedEff (e : Nat) (env : Bytes) (pl : Payload) (s : State) : Eff :=
  { id := { seq := eSeq env, session := eSid env, flow := eFlow env, epochReq := eEpoch env, ord := s.cmd.ord }, op := eOp env, epoch := e,
    payload := pl, entry := eOp env != 0x0202, tc := now s,
    la := if eOp env = 0x0202 then laMax (nextOrd s) (touchedArms (nextOrd s) pl) (frameC s (now s)) else 0, repl := true, bytes := fit 224 env }

theorem effectReceive_other {s : State} {env : Bytes} (h : ¬ (Shadow s ∧ carried (eOp env) = true)) (sq e : Nat) :
    effectReceive sq e env s = s := by
  unfold effectReceive
  split
  · rfl
  · next hs =>
    have hc : ¬ carried (eOp env) = true := fun hc => h ⟨(isShadow_iff s).1 (by simpa using hs), hc⟩
    split
    · rfl
    · exact if_pos (by simpa using hc)

theorem effectReceive_taken {s : State} {env : Bytes} {pl : Payload} (h : Shadow s) (hc : carried (eOp env) = true)
    (hp : parsePayload (eOp env) (slice env 32 (eLen env)) = some pl) (sq e : Nat) : effectReceive sq e env s =
      stkSend 5 (epochNow s) [u64 sq] (decide1 (carriedEff e env pl s) (withEff (carriedEff e env pl s) (nextOrd s))) := by
  have hs : effectReceive sq e env s = _ := if_neg (by rw [(isShadow_iff s).2 h]; decide)
  rw [hs, hp, ← enqueue_shadow (s := nextOrd s) h.2]
  exact if_neg (by rw [hc]; decide)

/-- The effect joins those that pend, last and with what the master gave it. -/
theorem effectReceive_pends {s : State} {env : Bytes} {pl : Payload} (h : Shadow s) (hc : carried (eOp env) = true)
    (hp : parsePayload (eOp env) (slice env 32 (eLen env)) = some pl) (sq e : Nat) :
    ∃ l x, (effectReceive sq e env s).cmd.pend = l ++ [x] ∧ x.op = eOp env ∧ x.epoch = e ∧ x.payload = pl ∧ x.repl = true ∧
      x.id.seq = eSeq env ∧ x.id.session = eSid env := by
  let x := carriedEff e env pl s
  obtain ⟨f, hf, hpend⟩ := decide1_shadow (s := withEff x (nextOrd s)) h.2 x
  obtain ⟨hsame, hrepl⟩ := hf x
  refine ⟨s.cmd.pend.map f, f x, ?_, hsame.op, hsame.epoch, hsame.payload, hrepl, congrArg CmdId.seq hsame.id,
    congrArg CmdId.session hsame.id⟩
  rw [effectReceive_taken h hc hp, stkSend_only _ _ _ _ .cmd rfl, hpend]
  exact List.map_append

/-- Its SEQ goes back in an ACK. -/
theorem effectReceive_acks {s : State} {env : Bytes} {pl : Payload} (h : Shadow s) (hc : carried (eOp env) = true)
    (hp : parsePayload (eOp env) (slice env 32 (eLen env)) = some pl) (hup : upPorts s ≠ []) (htx : stkTxOn s = true) (sq e : Nat) :
    (effectReceive sq e env s).stk.out =
      s.stk.out ++ [{ kind := 5, sq := tget 0 s.stk.outSeq 5, epoch := epochNow s % 2 ^ 32, words := [u64 sq] }] := by
  have hstk := decide1_stk (carriedEff e env pl s) (withEff (carriedEff e env pl s) (nextOrd s))
  have hsys := decide1_sys (carriedEff e env pl s) (withEff (carriedEff e env pl s) (nextOrd s))
  rw [effectReceive_taken h hc hp, stkSend_sends, stkPut_out, hstk]
  · rfl
  · rwa [upPorts_congr (s := s) (congrArg Stk.ports hstk)]
  · rwa [stkTxOn_congr (s := s) hsys]

/-! ### ACK (R499) -/

theorem ackRelease_stk (b : Bool) (w : AckWait) (s : State) : (ackRelease b w s).stk = s.stk :=
  (ackRelease_keeps (Keeps.refl [.regs, .hst, .cmd, .grn] s) rfl).only .stk rfl

theorem cplOut_pend (c : Cpl) (s : State) : (cplOut c s).cmd.pend = s.cmd.pend := by
  have hj : (journalCpl c s).cmd = s.cmd := journalCpl_only c s .cmd rfl
  cases hc : c.ord with
  | none =>
    rw [show cplOut c s = postCpl (journalCpl c s) c by rw [cplOut, hc]; rfl, postCpl_cmd, hj]
  | some o =>
    rw [cplOut_ord hc]
    refine (foldl_leaves (g := fun u => u.cmd.pend) (f := postCpl) (fun _ _ => rfl) _ _).trans ?_
    exact (congrArg Cmds.pend hj :)

/-- Completions written leave what pends and what waits. -/
theorem foldl_ackRelease (b : Bool) (l : List AckWait) (s : State) :
    (l.foldl (fun s w => ackRelease b w s) s).stk = s.stk ∧ (l.foldl (fun s w => ackRelease b w s) s).cmd.pend = s.cmd.pend :=
  ⟨foldl_leaves (g := State.stk) (f := fun s w => ackRelease b w s) (fun u w => ackRelease_stk b w u) l s,
   foldl_leaves (g := fun u => u.cmd.pend) (f := fun s w => ackRelease b w s) (fun u _ => cplOut_pend _ u) l s⟩

theorem ackReceive_frees (q : Nat) (s : State) : let t := ackReceive q s
    t.stk = { s.stk with waits := s.stk.waits.filter (fun w => w.seqno != q) } ∧
      t.cmd.pend = s.cmd.pend.map (fun x => if x.ack = some q then { x with ack := none } else x) :=
  foldl_ackRelease false _ _

theorem ackTimeout_completes (s : State) : let t := ackTimeout s
    t.stk.waits = s.stk.waits.filter (fun w => !decide (w.frame + 4 ≤ epochNow s)) ∧
      t.cmd.pend = s.cmd.pend.map (fun x =>
        if x.ack.isSome = true ∧ x.sent + 4 ≤ epochNow s then { x with ack := none, notRepl := true } else x) := by
  intro t
  obtain ⟨hstk, hpend⟩ := foldl_ackRelease true (s.stk.waits.filter fun w => decide (w.frame + 4 ≤ epochNow s))
    { s with
      cmd := { s.cmd with pend := s.cmd.pend.map (fun x =>
        if x.ack.isSome && decide (x.sent + 4 ≤ epochNow s) then { x with ack := none, notRepl := true } else x) },
      stk := { s.stk with waits := s.stk.waits.filter (fun w => !decide (w.frame + 4 ≤ epochNow s)) } }
  refine ⟨congrArg Stk.waits hstk, hpend.trans (List.map_congr_left fun x _ => ?_)⟩
  simp only [Bool.and_eq_true, decide_eq_true_eq]

/-! ### The mirrors (R489, R500) -/

theorem harrowMsg_other {s : State} (h : ¬ Shadow s) (full : Bool) (recs : List HarrowRec) : harrowMsg full recs s = s :=
  if_pos (by rw [Bool.not_eq_true', ← Bool.not_eq_true, isShadow_iff]; exact h)

/-- Records that wait for the FSTART of their frame. -/
def mirrorUsed (s : State) : Nat := s.stk.mirrorQ.foldl (fun n m => n + m.recs.length) 0

section
variable {s : State} {full : Bool} {recs : List HarrowRec} (h : Shadow s)
include h

theorem harrowMsg_shadow : harrowMsg full recs s =
    if 32768 < mirrorUsed s + recs.length then
      setEvt (count { s with stk := { s.stk with mirrorGap := true } } rSTK_MIRROR_GAP) rSTK_EVT (bitv 9)
    else { s with stk := { s.stk with mirrorQ := s.stk.mirrorQ ++ [{ full := full, recs := recs }] } } :=
  if_neg (by rw [(isShadow_iff s).2 h]; decide)

theorem harrowMsg_waits (hroom : mirrorUsed s + recs.length ≤ 32768) :
    (harrowMsg full recs s).stk = { s.stk with mirrorQ := s.stk.mirrorQ ++ [{ full := full, recs := recs }] } := by
  rw [harrowMsg_shadow h, if_neg (Nat.not_lt.2 hroom)]

theorem harrowMsg_gap (hfull : 32768 < mirrorUsed s + recs.length) : (harrowMsg full recs s).stk = { s.stk with mirrorGap := true } := by
  rw [harrowMsg_shadow h, if_pos hfull]
  rfl

end

theorem harrowMsg_stk (full : Bool) (recs : List HarrowRec) (s : State) :
    (harrowMsg full recs s).stk.ports = s.stk.ports ∧ (harrowMsg full recs s).stk.mirror = s.stk.mirror := by
  by_cases h : Shadow s
  · obtain hfull | hroom := Nat.lt_or_ge 32768 (mirrorUsed s + recs.length)
    · rw [harrowMsg_gap h hfull]
      exact ⟨rfl, rfl⟩
    · rw [harrowMsg_waits h hroom]
      exact ⟨rfl, rfl⟩
  · rw [harrowMsg_other h]
    exact ⟨rfl, rfl⟩

theorem ringMsg_other {s : State} (h : ¬ Shadow s) (r st n : Nat) (wrap : U32) : ringMsg r st n wrap s = s :=
  if_pos (by rw [Bool.not_eq_true', ← Bool.not_eq_true, isShadow_iff]; exact h)

theorem ringMsg_mirrors {s : State} (h : Shadow s) (r st n : Nat) (wrap : U32) : ringMsg r st n wrap s =
    { s with stk := { s.stk with rings := tset {} s.stk.rings r { st := st, n := n, wrap := wrap } } } :=
  if_neg (by rw [(isShadow_iff s).2 h]; decide)

theorem ringMsg_stk (r st n : Nat) (wrap : U32) (s : State) : let t := ringMsg r st n wrap s
    t.stk = { s.stk with rings := t.stk.rings } ∧ ∀ q, q ≠ r → tget {} t.stk.rings q = tget {} s.stk.rings q := by
  by_cases h : Shadow s
  · rw [ringMsg_mirrors h]
    exact ⟨rfl, fun q hq => tget_tset_ne hq⟩
  · rw [ringMsg_other h]
    exact ⟨rfl, fun _ _ => rfl⟩

/-! ### PTP (R457, R489, R493) -/

/-- A device of a chain that takes its time from its UP port. -/
def Follows (s : State) (p : Nat) : Prop := stkMode s = 2 ∧ s.stk.id ≠ 0 ∧ p = 0

theorem ptpMsg_follows {s : State} {p : Nat} (h : Follows s p) (base : Int) :
    ptpMsg p base s = { s with tim := { s.tim with base := base, based := true } } := if_pos h

theorem ptpMsg_other {s : State} {p : Nat} (h : ¬ Follows s p) (base : Int) : ptpMsg p base s = s := if_neg h

theorem follows_iff (s : State) (p : Fin 2) : Follows s p ↔ stkMode s = 2 ∧ s.stk.id ≠ 0 ∧ p = 0 := by
  simp only [Follows, Fin.ext_iff, Fin.val_zero]

theorem ptpMsg_ports (p : Nat) (base : Int) (s : State) : (ptpMsg p base s).stk.ports = s.stk.ports := by
  unfold ptpMsg
  split <;> rfl

theorem ptpSecond_without_sync {s : State} (h : s.tim.sync = false) : ptpSecond s = s := if_neg (by rw [h]; decide)

theorem ptpSecond_std {s : State} (h : s.tim.sync = true) : let t := ptpSecond s
    t.std.rtcFrac = 0 ∧ t.std.rtcValid = true ∧
      t.std.rtcSec = BitVec.ofNat 48 ((ptpAt s (now s) + ptpSecUnit - 1) / ptpSecUnit).toNat := by
  intro t
  have e : t = _ := if_pos h
  rw [e]
  exact ⟨rfl, rfl, rfl⟩

/-- The state after a second: the RTC's, and in a chain PTP_BASE sent. -/
def secondBegun (s : State) : State :=
  if stkMode s = 2 then
    stkSend 8 (epochNow (ptpSecond s)) [u64 (ptpSec (ptpSecond s).tim.base), u64 (ptpNs (ptpSecond s).tim.base + ptpFrac (ptpSecond s).tim.base * 2 ^ 32)]
      (ptpSecond s)
  else ptpSecond s

theorem ptpSecond_only (s : State) : ChangesOnly [.tick, .std, .tly] s (ptpSecond s) := (ptpSecond_keeps (Keeps.refl _ s) rfl).only

theorem exec_ptpSecond (s : State) : exec .ptpSecond s = .next (secondBegun s) := by
  have hmode : stkMode (ptpSecond s) = stkMode s := stkMode_congr (ptpSecond_only s .regs rfl)
  rw [secondBegun, ← hmode]
  rfl

theorem secondBegun_only (s : State) : ChangesOnly [.stk] (ptpSecond s) (secondBegun s) := by
  unfold secondBegun
  split
  · exact stkSend_only _ _ _ _
  · exact ChangesOnly.refl _ _

theorem secondBegun_silent {s : State} (h : stkMode s ≠ 2 ∨ upPorts s = [] ∨ stkTxOn s = false) : (secondBegun s).stk = s.stk := by
  have hstk := ptpSecond_only s .stk rfl
  unfold secondBegun
  split
  · next hm =>
    rw [stkSend_silent, hstk]
    rw [upPorts_congr (s := s) (congrArg Stk.ports hstk), stkTxOn_congr (s := s) (ptpSecond_only s .sys rfl)]
    exact h.resolve_left (not_not.2 hm)
  · exact hstk

theorem secondBegun_sends {s : State} (hm : stkMode s = 2) (hup : upPorts s ≠ []) (htx : stkTxOn s = true) :
    ∃ m, (secondBegun s).stk.out = s.stk.out ++ [m] ∧ m.kind = 8 := by
  have hstk := ptpSecond_only s .stk rfl
  rw [secondBegun, if_pos hm, stkSend_sends, stkPut_out, hstk]
  · exact ⟨_, rfl, rfl⟩
  · rwa [upPorts_congr (s := s) (congrArg Stk.ports hstk)]
  · rwa [stkTxOn_congr (s := s) (ptpSecond_only s .sys rfl)]

/-! ### The obligation -/

section
variable (s : State) (p : Fin 2) (sq : U8)

theorem exec_stationReceive (e : U32) (ws : List U64) : exec (.stationReceive p sq e ws) s =
    .next (snareEval (readyStep (stkTake p 2 sq (stationReceive e.toNat ws) s))) := rfl

theorem exec_cellsReceive (first : Fin 16384) (ws : List U64) : exec (.cellsReceive p sq first ws) s =
    .next (snareEval (readyStep (stkTake p 3 sq (cellsReceive first ws) s))) := rfl

theorem exec_effectReceive (e : U64) (env : Bytes) : exec (.effectReceive p sq e env) s =
    .next (snareEval (stkTake p 4 sq (effectReceive sq.toNat e.toNat env) s)) := rfl

theorem exec_ackReceive (eff : U8) : exec (.ackReceive p sq eff) s = .next (snareEval (stkTake p 5 sq (ackReceive eff.toNat) s)) := rfl

theorem exec_ackTimeout : exec .ackTimeout s = .next (snareEval (ackTimeout s)) := rfl

theorem exec_harrowMsgReceive (full : Bool) (recs : List HarrowRec) : exec (.harrowMsgReceive p sq full recs) s =
    .next (snareEval (readyStep (stkTake p 6 sq (harrowMsg full recs) s))) := rfl

theorem exec_ringMsgReceive (r : Fin 64) (st : BitVec 3) (n : Fin 257) (wrap : BitVec 20) : exec (.ringMsgReceive p sq r st n wrap) s =
    .next (snareEval (readyStep (stkTake p 7 sq (ringMsg r st.toNat n (wrap.setWidth 32)) s))) := rfl

theorem exec_ptpMsgReceive (sec : BitVec 48) (ns : U32) (frac : U16) : exec (.ptpMsgReceive p sq sec ns frac) s =
    .next (stkTake p 8 sq (ptpMsg p (sec.toNat * ptpSecUnit + ns.toNat * ptpNsUnit + frac.toNat * 5)) s) := rfl

theorem exec_stkMessageCrcFail : exec (.stkMessageCrcFail p) s =
    .next (if (sport s p).st = 0 then s else count s (rSTK_PORT_ERR p)) := rfl

end

section
variable {s : State} {p kind : Nat} {sq : U8} {f : State → State}

theorem readyEval_notes (hf : ∀ u, (f u).stk.ports = u.stk.ports) (h : (sport s p).st = 2) :
    tget none (sport (snareEval (readyStep (stkTake p kind sq f s))) p).seqs kind = some sq.toNat := by
  rw [sport_congr (congrArg Stk.ports (readyEval_leaves _).1 :)]
  exact stkTake_notes hf h

theorem snareEval_notes (hf : ∀ u, (f u).stk.ports = u.stk.ports) (h : (sport s p).st = 2) :
    tget none (sport (snareEval (stkTake p kind sq f s)) p).seqs kind = some sq.toNat := by
  rw [sport_congr (congrArg Stk.ports (snareEval_only _ .stk rfl))]
  exact stkTake_notes hf h

/-- A kind of which only a shadow makes something changes the ports alone where the message is not taken by one. -/
theorem stkTake_other (hf : ∀ u, ¬ Shadow u → f u = u) (h : ¬ (Fresh s p kind sq ∧ Shadow s)) :
    ∃ ports, stkTake p kind sq f s = { s with stk := { s.stk with ports := ports } } :=
  stkTake_untaken fun hfresh => hf _ fun hs => h ⟨hfresh, hs⟩

end

theorem stationReceive_only (e : Nat) (ws : List U64) (s : State) : ChangesOnly [.tim, .grn] s (stationReceive e ws s) :=
  (stationReceive_keeps (Keeps.refl _ s) rfl).only

theorem cellsReceive_only (first : Nat) (ws : List U64) (s : State) : ChangesOnly [.grn] s (cellsReceive first ws s) :=
  (cellsReceive_keeps (Keeps.refl _ s) rfl).only

theorem effectReceive_ports (sq e : Nat) (env : Bytes) (s : State) : (effectReceive sq e env s).stk.ports = s.stk.ports := by
  by_cases h : Shadow s ∧ carried (eOp env) = true
  · cases hp : parsePayload (eOp env) (slice env 32 (eLen env)) with
    | none =>
      unfold effectReceive
      rw [hp, ite_self]
    | some pl =>
      rw [effectReceive_taken h.1 h.2 hp, stkSend_ports, decide1_stk]
      rfl
  · rw [effectReceive_other h]

section
variable (s : State) (p : Fin 2) (sq : U8)

theorem station_reaches_shadow (e : U32) (ws : List U64) : let t := snareEval (readyStep (stkTake p 2 sq (stationReceive e.toNat ws) s))
    (¬ (Fresh s p 2 sq ∧ Shadow s) → t.grn = s.grn ∧ t.tim = s.tim) ∧
      (Fresh s p 2 sq → Shadow s →
        (∀ i, tget 0 t.grn.repl.station i = if i < 3272 then (unpair ws).getD i 0 else 0) ∧
        (∀ i, tget stale t.grn.repl.fw i = (unpair ws).getD (3272 + i) stale) ∧
        t.grn.repl.stn = some (fullEpoch s e.toNat) ∧ t.grn.repl.cells = s.grn.repl.cells ∧ t.tim.based = true) := by
  intro t
  obtain ⟨-, hleaves⟩ := readyEval_leaves (stkTake p 2 sq (stationReceive e.toNat ws) s)
  have hgrn : t.grn = _ := hleaves .grn rfl
  have htim : t.tim = _ := hleaves .tim rfl
  rw [hgrn, htim]
  refine ⟨fun h => ?_, fun hf hs => ?_⟩
  · obtain ⟨ports, hu⟩ := stkTake_other (fun u hu => stationReceive_other hu e.toNat ws) h
    rw [hu]
    exact ⟨rfl, rfl⟩
  · rw [stkTake_fresh hf]
    exact stationReceive_stores (s := noteSeq p 2 sq s) hs e.toNat ws

theorem cells_reach_shadow (first : Fin 16384) (ws : List U64) : let t := snareEval (readyStep (stkTake p 3 sq (cellsReceive first ws) s))
    (¬ (Fresh s p 3 sq ∧ Shadow s) → t.grn = s.grn) ∧
      (Fresh s p 3 sq → Shadow s → (unpair ws).length ≤ 16384 → ∀ i, i < 16384 →
        tget (0, 0) t.grn.repl.cells ((first.val + i) % 16384) =
          if i < (unpair ws).length then (((unpair ws).getD i 0).toNat, epochNow s)
          else tget (0, 0) s.grn.repl.cells ((first.val + i) % 16384)) := by
  intro t
  have hgrn : t.grn = _ := (readyEval_leaves _).2 .grn rfl
  rw [hgrn]
  refine ⟨fun h => ?_, fun hf hs hn i hi => ?_⟩
  · obtain ⟨ports, hu⟩ := stkTake_other (fun u hu => cellsReceive_other hu first ws) h
    rw [hu]
  · rw [stkTake_fresh hf]
    exact cellsReceive_stores (s := noteSeq p 3 sq s) hs first hn hi

theorem mem_upPorts_of_fresh {kind : Nat} (h : Fresh s p kind sq) : upPorts (noteSeq p kind sq s) ≠ [] := by
  have hmem : p.val ∈ upPorts (noteSeq p kind sq s) := by
    refine List.mem_filter.2 ⟨List.mem_range.2 p.isLt, ?_⟩
    rw [noteSeq, setSport_same]
    exact beq_iff_eq.2 h.1
  exact List.ne_nil_of_mem hmem

theorem effect_reaches_shadow (e : U64) (env : Bytes) : let t := snareEval (stkTake p 4 sq (effectReceive sq.toNat e.toNat env) s)
    (¬ (Fresh s p 4 sq ∧ Shadow s ∧ carried (eOp env) = true) → t.cmd = s.cmd) ∧
      (∀ pl, Fresh s p 4 sq → Shadow s → carried (eOp env) = true → parsePayload (eOp env) (slice env 32 (eLen env)) = some pl →
        (∃ l x, t.cmd.pend = l ++ [x] ∧ x.op = eOp env ∧ x.epoch = e.toNat ∧ x.payload = pl ∧ x.repl = true ∧ x.id.seq = eSeq env ∧
          x.id.session = eSid env) ∧
        (stkTxOn s = true → t.stk.out = s.stk.out ++
          [{ kind := 5, sq := tget 0 s.stk.outSeq 5, epoch := epochNow s % 2 ^ 32, words := [u64 sq.toNat] }])) := by
  intro t
  have hcmd : t.cmd = _ := snareEval_only _ .cmd rfl
  have hstk : t.stk = _ := snareEval_only _ .stk rfl
  rw [hcmd, hstk]
  refine ⟨fun h => ?_, fun pl hf hs hc hp => ?_⟩
  · obtain ⟨ports, hu⟩ := stkTake_untaken (s := s) (p := p) (sq := sq) (f := effectReceive sq.toNat e.toNat env) fun hf =>
      effectReceive_other (s := noteSeq p 4 sq s) (fun hs => h ⟨hf, hs⟩) _ _
    rw [hu]
  · rw [stkTake_fresh hf]
    exact ⟨effectReceive_pends (s := noteSeq p 4 sq s) hs hc hp _ _,
      fun htx => effectReceive_acks (s := noteSeq p 4 sq s) hs hc hp (mem_upPorts_of_fresh s p sq hf) htx _ _⟩

theorem ack_frees (eff : U8) : let t := snareEval (stkTake p 5 sq (ackReceive eff.toNat) s)
    (¬ Fresh s p 5 sq → t.cmd = s.cmd ∧ t.stk.waits = s.stk.waits) ∧
      (Fresh s p 5 sq → t.stk.waits = s.stk.waits.filter (fun w => w.seqno != eff.toNat) ∧
        t.cmd.pend = s.cmd.pend.map (fun x => if x.ack = some eff.toNat then { x with ack := none } else x)) := by
  intro t
  have hcmd : t.cmd = _ := snareEval_only _ .cmd rfl
  have hstk : t.stk = _ := snareEval_only _ .stk rfl
  rw [hcmd, hstk]
  refine ⟨fun h => ?_, fun hf => ?_⟩
  · obtain ⟨ports, hu⟩ := stkTake_untaken (f := ackReceive eff.toNat) fun hf => absurd hf h
    rw [hu]
    exact ⟨rfl, rfl⟩
  · rw [stkTake_fresh hf]
    obtain ⟨hwaits, hpend⟩ := ackReceive_frees eff.toNat (noteSeq p 5 sq s)
    exact ⟨congrArg Stk.waits hwaits, hpend⟩

theorem harrow_reaches_mirror (full : Bool) (recs : List HarrowRec) :
    let t := snareEval (readyStep (stkTake p 6 sq (harrowMsg full recs) s))
    t.stk.mirror = s.stk.mirror ∧
      (¬ (Fresh s p 6 sq ∧ Shadow s) → t.stk.mirrorQ = s.stk.mirrorQ ∧ t.stk.mirrorGap = s.stk.mirrorGap) ∧
      (Fresh s p 6 sq → Shadow s → mirrorUsed s + recs.length ≤ 32768 →
        t.stk.mirrorQ = s.stk.mirrorQ ++ [{ full := full, recs := recs }] ∧ t.stk.mirrorGap = s.stk.mirrorGap) ∧
      (Fresh s p 6 sq → Shadow s → 32768 < mirrorUsed s + recs.length → t.stk.mirrorQ = s.stk.mirrorQ ∧ t.stk.mirrorGap = true) := by
  intro t
  have hstk : t.stk = _ := (readyEval_leaves _).1
  rw [hstk]
  have hother : ¬ (Fresh s p 6 sq ∧ Shadow s) → _ := stkTake_other fun u hu => harrowMsg_other hu full recs
  refine ⟨?_, fun h => ?_, fun hf hs hroom => ?_, fun hf hs hfull => ?_⟩
  · by_cases h : Fresh s p 6 sq ∧ Shadow s
    · rw [stkTake_fresh h.1]
      exact (harrowMsg_stk full recs _).2
    · obtain ⟨ports, hu⟩ := hother h
      rw [hu]
  · obtain ⟨ports, hu⟩ := hother h
    rw [hu]
    exact ⟨rfl, rfl⟩
  · rw [stkTake_fresh hf, harrowMsg_waits (s := noteSeq p 6 sq s) hs hroom]
    exact ⟨rfl, rfl⟩
  · rw [stkTake_fresh hf, harrowMsg_gap (s := noteSeq p 6 sq s) hs hfull]
    exact ⟨rfl, rfl⟩

theorem ring_reaches_mirror (r : Fin 64) (st : BitVec 3) (n : Fin 257) (wrap : BitVec 20) :
    let t := snareEval (readyStep (stkTake p 7 sq (ringMsg r st.toNat n (wrap.setWidth 32)) s))
    (∀ q, q ≠ r.val → tget {} t.stk.rings q = tget {} s.stk.rings q) ∧
      (¬ (Fresh s p 7 sq ∧ Shadow s) → t.stk.rings = s.stk.rings) ∧
      (Fresh s p 7 sq → Shadow s → tget {} t.stk.rings r = { st := st.toNat, n := n, wrap := wrap.setWidth 32 }) := by
  intro t
  have hstk : t.stk = _ := (readyEval_leaves _).1
  rw [hstk]
  have hother : ¬ (Fresh s p 7 sq ∧ Shadow s) → _ := stkTake_other fun u hu => ringMsg_other hu r st.toNat n (wrap.setWidth 32)
  refine ⟨fun q hq => ?_, fun h => ?_, fun hf hs => ?_⟩
  · by_cases h : Fresh s p 7 sq ∧ Shadow s
    · rw [stkTake_fresh h.1]
      exact (ringMsg_stk _ _ _ _ _).2 q hq
    · obtain ⟨ports, hu⟩ := hother h
      rw [hu]
  · obtain ⟨ports, hu⟩ := hother h
    rw [hu]
  · rw [stkTake_fresh hf, ringMsg_mirrors (s := noteSeq p 7 sq s) hs]
    exact tget_tset_same _ _ _ _

theorem ptp_reaches_chain (base : Int) : let t := stkTake p 8 sq (ptpMsg p base) s
    (¬ (Fresh s p 8 sq ∧ Follows s p) → t.tim = s.tim) ∧
      (Fresh s p 8 sq → Follows s p → t.tim = { s.tim with base := base, based := true }) := by
  intro t
  refine ⟨fun h => ?_, fun hf hs => ?_⟩
  · obtain ⟨ports, hu⟩ := stkTake_untaken (f := ptpMsg p base) fun hf => ptpMsg_other (s := noteSeq p 8 sq s) (fun hs => h ⟨hf, hs⟩) base
    exact (congrArg State.tim hu :)
  · rw [show t = _ from stkTake_fresh hf, ptpMsg_follows (s := noteSeq p 8 sq s) hs]
    rfl

theorem crcFail_counts : let t := if (sport s p).st = 0 then s else count s (rSTK_PORT_ERR p)
    ChangesOnly [.regs] s t ∧ (∀ o, o ≠ rSTK_PORT_ERR p → rg t o = rg s o) ∧
      rg t (rSTK_PORT_ERR p) = if (sport s p).st = 0 then rg s (rSTK_PORT_ERR p) else satInc (rg s (rSTK_PORT_ERR p)) := by
  intro t
  by_cases h : (sport s p).st = 0
  · rw [show t = s from if_pos h, if_pos h]
    exact ⟨ChangesOnly.refl _ s, fun _ _ => rfl, rfl⟩
  · rw [show t = _ from if_neg h, if_neg h]
    exact ⟨(count_keeps (Keeps.refl _ s) rfl).only, fun o ho => rg_wr_ne _ _ _ _ ho, rg_count_same _ _ _⟩

end

/-- Settles O48: whether a message is taken is the port's to say, and what it then does its kind's, each by its lemma above. -/
theorem messagesReachTheShadow : Obligations.MessagesReachTheShadow := by
  intro s p sq
  refine ⟨fun e ws => ?station, fun first ws => ?cells, fun e env => ?effect, fun eff => ?ack, ?timeout, fun full recs => ?harrow,
    fun r st n wrap => ?ring, fun sec ns frac => ?ptp, ?second, ?crc⟩
  case station =>
    exact ⟨_, exec_stationReceive s p sq e ws, readyEval_notes fun u => congrArg Stk.ports (stationReceive_only _ ws u .stk rfl),
      station_reaches_shadow s p sq e ws⟩
  case cells =>
    exact ⟨_, exec_cellsReceive s p sq first ws, readyEval_notes fun u => congrArg Stk.ports (cellsReceive_only _ ws u .stk rfl),
      cells_reach_shadow s p sq first ws⟩
  case effect =>
    obtain ⟨hother, hshadow⟩ := effect_reaches_shadow s p sq e env
    exact ⟨_, exec_effectReceive s p sq e env, snareEval_notes fun u => effectReceive_ports _ _ env u, hother, hshadow⟩
  case ack =>
    exact ⟨_, exec_ackReceive s p sq eff, snareEval_notes fun u => (congrArg Stk.ports (ackReceive_frees _ u).1 :), ack_frees s p sq eff⟩
  case timeout =>
    have hstk := snareEval_only (ackTimeout s) .stk rfl
    have hcmd := snareEval_only (ackTimeout s) .cmd rfl
    obtain ⟨hwaits, hpend⟩ := ackTimeout_completes s
    exact ⟨_, exec_ackTimeout s, (congrArg Stk.waits hstk).trans hwaits, (congrArg Cmds.pend hcmd).trans hpend⟩
  case harrow =>
    exact ⟨_, exec_harrowMsgReceive s p sq full recs, readyEval_notes fun u => (harrowMsg_stk full recs u).1,
      harrow_reaches_mirror s p sq full recs⟩
  case ring =>
    exact ⟨_, exec_ringMsgReceive s p sq r st n wrap, readyEval_notes fun u => (congrArg Stk.ports (ringMsg_stk _ _ _ _ u).1 :),
      ring_reaches_mirror s p sq r st n wrap⟩
  case ptp =>
    obtain ⟨hother, hchain⟩ := ptp_reaches_chain s p sq (sec.toNat * ptpSecUnit + ns.toNat * ptpNsUnit + frac.toNat * 5)
    exact ⟨_, exec_ptpMsgReceive s p sq sec ns frac, stkTake_notes fun u => ptpMsg_ports _ _ u,
      fun h => hother fun hf => h ⟨hf.1, (follows_iff s p).1 hf.2⟩,
      fun hf hm hid hp => hchain hf ((follows_iff s p).2 ⟨hm, hid, hp⟩)⟩
  case second =>
    refine ⟨_, exec_ptpSecond s, fun h => ?_, fun h => ?_, secondBegun_silent, secondBegun_sends⟩
    · rw [secondBegun_only s .std rfl, secondBegun_only s .tick rfl, ptpSecond_without_sync h]
      exact ⟨rfl, rfl⟩
    · rw [secondBegun_only s .std rfl]
      exact ptpSecond_std h
  case crc => exact ⟨_, exec_stkMessageCrcFail s p, crcFail_counts s p⟩

end Sys2Proof.Machine
end

section
/-! PROOFS. Granary: the closure of epochs, the commit of images, and publications (O53). -/

namespace Sys2Proof.Machine

/-! ### The closure deadline (R159, R162) -/

theorem advanceTo_tick_max (s : State) (t : Nat) : (advanceTo s t).tick = u64 (max (now s) t) := by
  have hk (n : Nat) : (tlyDev 0x48 n s).tick = s.tick := (tlyDev_keeps (Keeps.refl [.tly] s) rfl).only .tick rfl
  simp only [advanceTo, now, hk]

/-- Ring `r` has not returned the frame that carries the reports of epoch `k`, and that frame has begun. -/
def RingLate (s : State) (r k : Nat) : Prop :=
  ringIn (ring s r) (k + 1) = true ∧ frameReturned s (ring s r) (k + 1) = false ∧ k + 1 ≤ epochNow s

theorem exec_closureDeadline (r : Fin 64) (s : State) : exec (.closureDeadline r) s = .next (closureDeadline r s) := rfl

theorem ringLate_iff (s : State) (r k : Nat) :
    (ringIn (ring s r) (k + 1) && !frameReturned s (ring s r) (k + 1) && decide (k + 1 ≤ epochNow s)) = true ↔ RingLate s r k := by
  simp only [RingLate, Bool.and_eq_true, Bool.not_eq_true', decide_eq_true_eq, and_assoc]

theorem closureDeadline_kept {s : State} {r : Nat} (h : ∀ k, s.grn.next = some k → ¬ RingLate s r k) : closureDeadline r s = s := by
  unfold closureDeadline
  split
  · rfl
  · next k hk => exact if_neg (mt (ringLate_iff s r k).1 (h k hk))

theorem closureDeadline_late {s : State} {r k : Nat} (hk : s.grn.next = some k) (h : RingLate s r k) : closureDeadline r s =
    setEvt (advanceTo s ((k + 1) * lTicks s + closeTicks s (ring s r) (k + 1))) rGRN_EVT (bitv 1) := by
  unfold closureDeadline
  rw [hk]
  exact if_pos ((ringLate_iff s r k).2 h)

theorem closureDeadline_passes {s : State} {r k : Nat} (hk : s.grn.next = some k) (h : RingLate s r k) :
    (closureDeadline r s).grn = s.grn ∧ bit (rg (closureDeadline r s) rGRN_EVT) 1 = true ∧
      (closureDeadline r s).tick = u64 (max (now s) ((k + 1) * lTicks s + closeTicks s (ring s r) (k + 1))) := by
  rw [closureDeadline_late hk h, setEvt_grn, setEvt_tick, rg_setEvt_same]
  exact ⟨advanceTo_only s _ .grn rfl, bit_or_bitv _ (by decide), advanceTo_tick_max s _⟩

/-! ### The write-back of a descriptor (R69) -/

/-- The two writes of a descriptor's write-back, where the link and the ring take them. -/
def backWrites (s : State) (p : Pubn) (len status : Nat) : List HostWrite :=
  let a := addr64 s rHST_SNP_BASE_LO rHST_SNP_BASE_HI + 32 * (p.desc % ringN s 9)
  let done := if (p.desc / ringN s 9) % 2 = 0 then 1 else 0
  if (s.hst.linkUp && ringEn s 9) = true then
    [⟨a + 16, leBytes 8 p.epoch ++ leBytes 4 len⟩, ⟨a + 28, leBytes 2 status ++ leBytes 1 0 ++ leBytes 1 done⟩] else []

theorem backWrites_congr {s t : State} (hh : t.hst = s.hst) (hr : ∀ o, o ≠ rGRN_EVT → rg t o = rg s o) (p : Pubn) (len status : Nat) :
    backWrites t p len status = backWrites s p len status := by
  have hlo := hr rHST_SNP_BASE_LO (by decide)
  have hhi := hr rHST_SNP_BASE_HI (by decide)
  have hcfg := hr (ringCfg 9) (by decide)
  unfold backWrites addr64 ringN ringEn
  rw [hh, hlo, hhi, hcfg]

/-- The write-back consumes the descriptor. -/
def Consumed (ws : List HostWrite) (s t : State) : Prop :=
  t.dma = s.dma ++ ws ∧ t.hst.snpCi = s.hst.snpCi + 1 ∧ ChangesOnly [.dma, .hst, .tly] s t

theorem descBack_consumes (p : Pubn) (len status : Nat) (s : State) : Consumed (backWrites s p len status) s (descBack p len status s) := by
  refine ⟨?_, ?_, (descBack_keeps (Keeps.refl _ s) rfl).only⟩
  · simp only [descBack, backWrites]
    split
    · exact dmaWrite_dma s _
    · exact (List.append_nil _).symm
  · simp only [descBack]
    split
    · exact congrArg (fun x : Hst => x.snpCi + 1) (dmaWrite_only s _ .hst rfl)
    · rfl

/-! ### Publications abandoned (R173) -/

/-- A publication that ended: `rest` wait, and its descriptor is consumed. -/
def PubGone (rest : List Pubn) (s t : State) : Prop := t.grn = { s.grn with pubs := rest } ∧ t.hst.snpCi = s.hst.snpCi + 1

/-- The state in which a publication leaves the queue, its length drawn. -/
def pubDrawn (rest : List Pubn) (s : State) : State :=
  { s with freeCtr := s.freeCtr + 1, grn := { s.grn with pubs := rest } }

theorem pubAbandon_eq (p : Pubn) (rest : List Pubn) (s : State) : ∃ len, len ≤ p.len ∧ pubAbandon p rest s =
    yieldCount (setEvt (count (descBack p len 1 (pubDrawn rest s)) rGRN_PUB_ABANDON) rGRN_EVT (bitv 4)) 8 :=
  ⟨_, Nat.le_of_lt_succ (Nat.mod_lt _ (Nat.succ_pos p.len)), rfl⟩

theorem pubAbandon_leaves (p : Pubn) (rest : List Pubn) (s : State) : let t := pubAbandon p rest s
    PubGone rest s t ∧ rg t rGRN_PUB_ABANDON = satInc (rg s rGRN_PUB_ABANDON) ∧ (∃ len, len ≤ p.len ∧ t.dma = s.dma ++ backWrites s p len 1) ∧
      t.flt = s.flt := by
  intro t
  obtain ⟨len, hlen, e⟩ := pubAbandon_eq p rest s
  obtain ⟨hdma, hci, honly⟩ := descBack_consumes p len 1 (pubDrawn rest s)
  rw [show t = _ from e]
  refine ⟨⟨honly .grn rfl, hci⟩, ?_, ⟨len, hlen, hdma⟩, honly .flt rfl⟩
  have hregs (o : Nat) : rg (descBack p len 1 (pubDrawn rest s)) o = rg s o := rg_congr (honly .regs rfl) o
  rw [yieldCount, count, rg_wr_ne _ _ _ _ (by decide), setEvt, rg_wr_ne _ _ _ _ (by decide), rg_count_same, hregs]

theorem exec_publicationAbandon (s : State) : exec .publicationAbandon s = .next (match s.grn.pubs with
    | p :: rest => if p.status = 0 ∧ p.epoch + pubWin s ≤ s.grn.commit.k ∧ s.stk.role ≠ 1 then pubAbandon p rest s else s
    | [] => s) := rfl

/-- The publication in hand is too old for its window, and the device is no shadow. -/
def PubOld (s : State) (p : Pubn) : Prop := p.status = 0 ∧ p.epoch + pubWin s ≤ s.grn.commit.k ∧ s.stk.role ≠ 1

theorem exec_publicationAbandon_old {s : State} {p : Pubn} {rest : List Pubn} (hp : s.grn.pubs = p :: rest) (h : PubOld s p) :
    exec .publicationAbandon s = .next (pubAbandon p rest s) := by
  rw [exec_publicationAbandon, hp]
  exact congrArg _ (if_pos h)

theorem exec_publicationAbandon_kept {s : State} (h : ∀ p rest, s.grn.pubs = p :: rest → ¬ PubOld s p) :
    exec .publicationAbandon s = .next s := by
  rw [exec_publicationAbandon]
  cases hp : s.grn.pubs with
  | nil => rfl
  | cons p rest => exact congrArg _ (if_neg (h p rest hp))

/-! ### Publications written (R66, R170, R171, R174) -/

/-- Writes of higher rank wait for the link, or the device is a shadow. -/
def PubYields (s : State) : Prop := s.stk.role = 1 ∨
  (s.hst.linkUp = true ∧ (s.hst.cplDue ≠ [] ∨ s.hst.evtDue ≠ [] ∨ (s.hst.idxDirty = true ∧ bit (rg s rHST_IDX_CTL) 0 = true)))

theorem pubYields_iff (s : State) : (linkDue s || s.stk.role == 1) = true ↔ PubYields s := by
  simp only [linkDue, PubYields, Bool.or_eq_true, Bool.and_eq_true, Bool.not_eq_true', List.isEmpty_eq_false_iff, beq_iff_eq, or_assoc,
    or_comm (b := s.stk.role = 1)]

theorem exec_publicationComplete (ecc : Bool) (s : State) : exec (.publicationComplete ecc) s = .next (pubComplete ecc s) := rfl

theorem pubComplete_waits {s : State} (h : s.grn.pubs = [] ∨ PubYields s) (ecc : Bool) : pubComplete ecc s = s := by
  unfold pubComplete
  split
  · rfl
  · next hp => exact if_pos ((pubYields_iff s).2 (h.resolve_left (by rw [hp]; exact List.cons_ne_nil _ _)))

/-- The state in which a publication has left the queue. -/
def pubLeft (rest : List Pubn) (s : State) : State := { s with grn := { s.grn with pubs := rest } }

section
variable {s : State} {p : Pubn} {rest : List Pubn} (hp : s.grn.pubs = p :: rest)
include hp

theorem pubComplete_first (hy : ¬ PubYields s) (ecc : Bool) : pubComplete ecc s =
    if p.status ≠ 0 then descBack p 0 p.status (pubLeft rest s)
    else if !s.hst.linkUp then s
    else if ecc then report (pubAbandon p rest (setEvt s rGRN_EVT (bitv 6))) (srcBlk 9 0) 0x0241
    else descBack p p.len 0 (dmaWrite (pubLeft rest s) [⟨p.addr + 8, pubBody p⟩, ⟨p.addr, leBytes 8 p.epoch⟩]) := by
  unfold pubComplete
  rw [hp]
  exact if_neg (mt (pubYields_iff s).1 hy)

theorem pubComplete_linkDown (hst : p.status = 0) (hl : s.hst.linkUp = false) (ecc : Bool) : pubComplete ecc s = s := by
  by_cases hy : PubYields s
  · exact pubComplete_waits (.inr hy) ecc
  · rw [pubComplete_first hp hy, if_neg (not_not.2 hst), hl]
    rfl

theorem pubComplete_writesBack (hy : ¬ PubYields s) (hst : p.status ≠ 0) (ecc : Bool) : let t := pubComplete ecc s
    PubGone rest s t ∧ t.dma = s.dma ++ backWrites s p 0 p.status := by
  intro t
  obtain ⟨hdma, hci, honly⟩ := descBack_consumes p 0 p.status (pubLeft rest s)
  rw [show t = _ from pubComplete_first hp hy ecc, if_pos hst]
  exact ⟨⟨honly .grn rfl, hci⟩, hdma⟩

theorem pubComplete_writes (hy : ¬ PubYields s) (hst : p.status = 0) (hl : s.hst.linkUp = true) : let t := pubComplete false s
    PubGone rest s t ∧ t.dma = s.dma ++ [⟨p.addr + 8, pubBody p⟩, ⟨p.addr, leBytes 8 p.epoch⟩] ++ backWrites s p p.len 0 := by
  intro t
  let ws : List HostWrite := [⟨p.addr + 8, pubBody p⟩, ⟨p.addr, leBytes 8 p.epoch⟩]
  have hw : ChangesOnly [.dma, .tly] _ (dmaWrite (pubLeft rest s) ws) := dmaWrite_only (pubLeft rest s) ws
  obtain ⟨hdma, hci, honly⟩ := descBack_consumes p p.len 0 (dmaWrite (pubLeft rest s) ws)
  have hback : backWrites (dmaWrite (pubLeft rest s) ws) p p.len 0 = backWrites s p p.len 0 :=
    backWrites_congr (hw .hst rfl) (fun o _ => rg_congr (hw .regs rfl) o) p p.len 0
  rw [hback, dmaWrite_dma] at hdma
  have e : t = descBack p p.len 0 (dmaWrite (pubLeft rest s) ws) := by
    rw [show t = _ from pubComplete_first hp hy false, if_neg (not_not.2 hst), if_neg (by rw [hl]; decide), if_neg Bool.false_ne_true]
  rw [e]
  exact ⟨⟨(honly .grn rfl).trans (hw .grn rfl), hci.trans (congrArg (fun x : Hst => x.snpCi + 1) (hw .hst rfl))⟩, hdma⟩

theorem pubComplete_abandons (hy : ¬ PubYields s) (hst : p.status = 0) (hl : s.hst.linkUp = true) : let t := pubComplete true s
    PubGone rest s t ∧ rg t rGRN_PUB_ABANDON = satInc (rg s rGRN_PUB_ABANDON) ∧ (∃ len, len ≤ p.len ∧ t.dma = s.dma ++ backWrites s p len 1) ∧
      t.flt.inbox = s.flt.inbox ++ [{ source := srcBlk 9 0, code := 0x0241 }] := by
  intro t
  obtain ⟨hgone, hcount, ⟨len, hlen, hdma⟩, hflt⟩ := pubAbandon_leaves p rest (setEvt s rGRN_EVT (bitv 6))
  have e : t = report (pubAbandon p rest (setEvt s rGRN_EVT (bitv 6))) (srcBlk 9 0) 0x0241 := by
    rw [show t = _ from pubComplete_first hp hy true, if_neg (not_not.2 hst), if_neg (by rw [hl]; decide), if_pos rfl]
  rw [e]
  refine ⟨hgone, hcount.trans (congrArg satInc (rg_wr_ne _ _ _ _ (by decide))), ⟨len, hlen, hdma.trans ?_⟩, ?_⟩
  · exact congrArg (s.dma ++ ·) (backWrites_congr (s := s) (t := setEvt s rGRN_EVT (bitv 6)) rfl (fun o ho => rg_wr_ne _ _ _ _ ho) p len 1)
  · exact congrArg (fun x : Flt => x.inbox ++ [{ source := srcBlk 9 0, code := 0x0241 }]) hflt

end

/-! ### What reports, retirements and decisions leave of Granary (R180, R181) -/

/-- Of Granary only the journal's queue and the TRIP_IMAGE that is due may differ, and `first` of the stack stays. -/
structure JournalOnly (s t : State) : Prop where
  grn : t.grn = { s.grn with jnlQ := t.grn.jnlQ, tripDue := t.grn.tripDue }
  first : t.stk.first = s.stk.first

/-- A decision that the device drives: the burst, and every group blocked from its first frame on (R129, R203). -/
def tripBlocks (s : State) : State :=
  let r := burstStart s
  let u := if r.1 then r.2 else setEvt (count r.2 rPRT_MERGE_CNT) rPRT_EVT (bitv 9)
  let v := blockByDecision (burstFrame u) u
  snareEvent (now v) 0 25 v.fur.bgen.toNat v

namespace JournalOnly

variable {s t u : State}

theorem refl (s : State) : JournalOnly s s := ⟨rfl, rfl⟩

theorem trans (h : JournalOnly s t) (g : JournalOnly t u) : JournalOnly s u :=
  ⟨by rw [g.grn, h.grn], g.first.trans h.first⟩

theorem ofAreas {ps : List Area} (h : Keeps ps s t) (hg : ps.contains .grn = false) (hs : ps.contains .stk = false) : JournalOnly s t := by
  have hgrn : t.grn = s.grn := h.only .grn hg
  exact ⟨by rw [hgrn], congrArg Stk.first (h.only .stk hs)⟩

theorem foldl {α : Type} {f : State → α → State} (hf : ∀ u a, JournalOnly u (f u a)) (l : List α) (s : State) : JournalOnly s (l.foldl f s) := by
  induction l generalizing s with
  | nil => exact refl s
  | cons a l ih => exact (hf s a).trans (ih _)

theorem ite {c : Prop} [Decidable c] (ht : JournalOnly s t) (hu : JournalOnly s u) : JournalOnly s (if c then t else u) := by
  split
  · exact ht
  · exact hu

theorem jnlPut (ty : Nat) (ws : List U64) (s : State) : JournalOnly s (jnlPut ty ws s) := by
  have hdrop (n : Nat) (u : State) : JournalOnly u (jnlDropped n u) := ofAreas (jnlDropped_keeps (Keeps.refl [.regs] u) rfl) rfl rfl
  have hqueue (q : List JnlReq) (u : State) : JournalOnly u { u with grn := { u.grn with jnlQ := q } } := ⟨rfl, rfl⟩
  unfold Machine.jnlPut
  dsimp only
  split
  · exact ite ((hdrop _ s).trans (hqueue _ _)) (((hdrop _ s).trans (hqueue _ _)).trans (hdrop 1 _))
  · exact ite (hqueue _ s) (hdrop 1 s)

theorem retireCells (cells : List Nat) (s : State) : JournalOnly s (retireCells cells s) := by
  unfold Machine.retireCells
  dsimp only
  refine ite (refl s) ?_
  have hturns (l : List Nat) (e ord : Nat) : JournalOnly s (l.foldl (setTurn true e ord) s) :=
    foldl (fun u c => ofAreas (setTurn_keeps (Keeps.refl [.cmd] u) rfl) rfl rfl) l s
  have hreports (l : List Nat) (u : State) : JournalOnly u (setEvt (l.foldl (fun s c => report s (srcCell c) 0x0383) u) rFLT_EVT (bitv 4)) :=
    (foldl (fun u c => ofAreas (report_keeps (Keeps.refl [.flt] u) rfl) rfl rfl) l u).trans
      (ofAreas (setEvt_keeps (Keeps.refl [.regs] _) rfl) rfl rfl)
  exact ((hturns _ _ _).trans (jnlPut 1 _ _)).trans (hreports _ _)

theorem tocsinRetire (cells : List Nat) (s : State) : JournalOnly s (tocsinRetire cells s) := by
  have hmark (u : State) (c : Nat) : JournalOnly u (if retireDecided u c then u else markPermanent (srcCell c) u) :=
    ite (refl u) (ofAreas (markPermanent_keeps (Keeps.refl [.flt] u) rfl) rfl rfl)
  exact (foldl hmark cells s).trans (retireCells cells _)

theorem decisionOut (b : Block) (dst : Option Nat) (s : State) : JournalOnly s (decisionOut b dst s) := ite ⟨rfl, rfl⟩ (refl s)

theorem prtSync (s : State) : JournalOnly s (prtSync s) := by
  have hsig (u : State) (g i v : Nat) : JournalOnly u (snareSig (now s) g i v u) :=
    ofAreas (snareSig_keeps (Keeps.refl [.regs, .flt, .snr] u) rfl) rfl rfl
  have heval (u : State) : JournalOnly u (snareEval u) := ofAreas (snareEval_keeps (Keeps.refl [.regs, .snr] u) rfl) rfl rfl
  unfold Machine.prtSync
  dsimp only
  refine trans (trans (trans (trans ?_ (foldl (fun u k => hsig u _ _ _) _ _)) (hsig _ _ _ _)) (ite (refl _) (decisionOut _ _ _))) (heval _)
  exact foldl (fun u k => hsig u _ _ _) _ s

theorem protDecide (s : State) : JournalOnly s (protDecide s) := by
  have hcount : JournalOnly s (count s rPRT_TRIP_CNT) := ofAreas (count_keeps (Keeps.refl [.regs] s) rfl) rfl rfl
  have hdue (u : State) : JournalOnly u { u with grn := { u.grn with tripDue := true } } := ⟨rfl, rfl⟩
  have hburst (u : State) : Keeps [.regs, .fur, .cmd, .hrw, .flt, .snr] u (burstStart u).2 := burstStart_keeps (Keeps.refl _ u) rfl
  have hblock (u : State) : JournalOnly u (tripBlocks u) :=
    ofAreas (snareEvent_keeps (blockByDecision_keeps
      (Keeps.ite (hburst u) (setEvt_keeps (count_keeps (hburst u) rfl) rfl)) rfl) rfl) rfl rfl
  unfold Machine.protDecide
  extract_lets c u _ v
  have hu : JournalOnly s u := hcount.trans (jnlPut 4 _ c)
  have hv : JournalOnly s v := hu.trans (hdue u)
  clear_value v
  exact hv.trans (ite (refl v) (hblock v))

theorem decision (s : State) : JournalOnly s (decision s) := (protDecide s).trans (decisionOut _ _ _)

theorem spCmd (demand grant : U8) (blk : Bool) (src : Nat) (s : State) : JournalOnly s (spCmd demand grant blk src s) := by
  have hcause (u : State) (w : U32) : Keeps [.regs, .flt, .prt] u (report (setEvt (firstCause w u) rPRT_EVT (bitv 1)) (srcPrt src) 0x0341) :=
    report_keeps (setEvt_keeps (firstCause_keeps (Keeps.refl _ u) rfl) rfl) rfl
  have htrip (u : State) (n : Nat) : JournalOnly u (if bit s.prt.demand n && decide (chanState u n = 7) then u else tripChan (bitv 16) n u) :=
    ite (refl u) (ofAreas (tripChan_keeps (Keeps.refl [.regs, .flt, .prt] u) rfl) rfl rfl)
  have hhold (u : State) : JournalOnly u (holdStart u) := ofAreas (holdStart_keeps (Keeps.refl [.prt] u) rfl) rfl rfl
  have hset (u : State) : JournalOnly u { u with prt := { u.prt with demand := demand, grant := grant, blksym := blk } } := ⟨rfl, rfl⟩
  unfold Machine.spCmd
  dsimp only
  refine trans (trans (trans (trans (trans ?_ (hset _)) (foldl htrip _ _)) (hhold _)) (ite (decision _) (refl _))) (prtSync _)
  exact ite (refl s) (ofAreas (hcause s _) rfl rfl)

theorem imageStep (blk : Bool) (src : State → Nat) {f : State → State} (hf : ∀ u, JournalOnly u (f u)) (s : State) :
    JournalOnly s (imageStep blk src f s) :=
  ite (refl s) ((hf s).trans (ite (refl _) (spCmd _ _ _ _ _)))

theorem safetyEval (s : State) : JournalOnly s (safetyEval s) := by
  have hcount : JournalOnly s { s with prt := { s.prt with noCommit := 0 } } := ⟨rfl, rfl⟩
  have hlims (u : State) (x : Prt) : JournalOnly u { u with prt := x } := ⟨rfl, rfl⟩
  unfold Machine.safetyEval
  exact hcount.trans (imageStep _ _ (fun u => hlims u _) _)

theorem cellClosed (k : Nat) (img : Image) (s : State) (c : Nat) : JournalOnly s (cellClosed k img s c) := by
  have hreport (u : State) (b : Bool) (a : U16) (code : Nat) : JournalOnly u (if b then report u a code else u) :=
    ite (ofAreas (report_keeps (Keeps.refl [.flt] u) rfl) rfl rfl) (refl u)
  have hbucket (u : State) (e : Bool) : JournalOnly u (bucketFrame 0 c e u).2 :=
    ofAreas (bucketFrame_keeps (Keeps.refl [.regs, .flt] u) rfl) rfl rfl
  unfold Machine.cellClosed
  dsimp only
  refine (hreport s _ _ _).trans (ite (refl _) (((hreport _ _ _ _).trans (hreport _ _ _ _)).trans (ite (refl _) ?_)))
  exact (hbucket _ _).trans (ite (tocsinRetire _ _) (refl _))

end JournalOnly

/-! ### Publications taken (R167 to R171) -/

/-- Of Granary only the publications may differ. -/
def PubsOnly (s t : State) : Prop := t.grn = { s.grn with pubs := t.grn.pubs }

namespace PubsOnly

variable {s t u : State}

theorem refl (s : State) : PubsOnly s s := rfl

theorem trans (h : PubsOnly s t) (g : PubsOnly t u) : PubsOnly s u := by
  rw [PubsOnly, g, h]

theorem ofAreas {ps : List Area} (h : Keeps ps s t) (hg : ps.contains .grn = false) : PubsOnly s t := by
  rw [PubsOnly, show t.grn = s.grn from h.only .grn hg]

theorem ite {c : Prop} [Decidable c] (ht : PubsOnly s t) (hu : PubsOnly s u) : PubsOnly s (if c then t else u) := by
  split
  · exact ht
  · exact hu

theorem pubSkip (s : State) : PubsOnly s (pubSkip s) := ofAreas (pubSkip_keeps (Keeps.refl [.regs] s) rfl) rfl

theorem pubTake (k : Nat) (missed : Bool) (img : Image) (r : Nat) (x : State × List SnapDesc) : PubsOnly x.1 (pubTake k missed img r x).1 := by
  have hnone (u : State) : PubsOnly u (yieldCount (count u rHST_SNP_NODESC) 8) :=
    ofAreas (yieldCount_keeps (count_keeps (Keeps.refl [.regs] u) rfl) rfl) rfl
  have hqueue (u : State) (q : List Pubn) : PubsOnly u { u with grn := { u.grn with pubs := q } } := rfl
  have hwrite (u : State) (ws : List HostWrite) : PubsOnly u (dmaWrite u ws) := ofAreas (dmaWrite_keeps (Keeps.refl [.dma, .tly] u) rfl) rfl
  obtain ⟨u, ds⟩ := x
  unfold Machine.pubTake
  dsimp only
  split
  · split
    · exact (hqueue u _).trans (ite (hwrite _ _) (refl _))
    · exact hnone u
  · exact hnone u

theorem publish (k : Nat) (missed : Bool) (img : Image) (ds : List SnapDesc) (s : State) : PubsOnly s (publish k missed img ds s) := by
  have htakes (l : List Nat) (x : State × List SnapDesc) : PubsOnly x.1 (l.foldl (fun x r => Machine.pubTake k missed img r x) x).1 := by
    induction l generalizing x with
    | nil => exact refl x.1
    | cons r l ih => exact (pubTake k missed img r x).trans (ih _)
  have hskips (l : List Nat) (u : State) : PubsOnly u (l.foldl (fun u _ => Machine.pubSkip u) u) := by
    induction l generalizing u with
    | nil => exact refl u
    | cons r l ih => exact (pubSkip u).trans (ih _)
  unfold Machine.publish
  extract_lets full due x
  have hx : PubsOnly s x.1 := by
    unfold x
    split
    · split
      · exact pubSkip s
      · exact pubTake k missed img 0 (s, ds)
    · exact refl s
  exact ite (hx.trans (htakes due x)) (hx.trans (hskips due x.1))

end PubsOnly

theorem publish_nothing_due {s : State} {k : Nat} (h : ∀ r, r < 16 → snapDue s k r = false) (missed : Bool) (img : Image) (ds : List SnapDesc) :
    publish k missed img ds s = s := by
  have hdue : idxs 16 (fun r => r != 0 && snapDue s k r) = [] :=
    List.filter_eq_nil_iff.2 fun r hr => by simp [h r (List.mem_range.1 hr)]
  unfold publish
  simp only [h 0 (by decide), hdue, Bool.false_eq_true, if_false, List.foldl_nil, ite_self]

/-! ### The closure of an epoch (R160 to R164) -/

/-- The closure of epoch `k`, whose image is `img`, in its cells and its rings. -/
def closing (k : Nat) (img : Image) (s : State) : State := closeRings k ((img.cells.map (·.1)).foldl (cellClosed k img) s)

theorem closing_journalOnly (k : Nat) (img : Image) (s : State) : JournalOnly s (closing k img s) :=
  (JournalOnly.foldl (fun u c => JournalOnly.cellClosed k img u c) _ s).trans
    (.ofAreas (closeRings_keeps (Keeps.refl [.regs, .flt, .cmd, .ints, .cores, .fur, .prt, .snr] _) rfl) rfl rfl)

/-- The errors that ECC corrected in the build are counted. -/
def eccCounted (corr : Nat) (s : State) : State := if corr = 0 then s else count s rGRN_ECC_CNT corr

theorem eccCounted_grn (corr : Nat) (s : State) : (eccCounted corr s).grn = s.grn := by
  unfold eccCounted
  split <;> rfl

/-- The epoch `k` whose image is built. -/
def epochBuilt (k : Nat) (img : Image) (s : State) : State :=
  { s with grn := { s.grn with next := some (k + 1), build := some img, missPrev := false, fwNew := false } }

theorem exec_epochClose (uncorr : Bool) (corr : U32) (ds : List SnapDesc) (s : State) :
    exec (.epochClose uncorr corr ds) s = .next (epochClose uncorr corr.toNat ds s) := rfl

theorem epochClose_open {s : State} (h : closable s = none) (uncorr : Bool) (corr : Nat) (ds : List SnapDesc) : epochClose uncorr corr ds s = s := by
  rw [epochClose, h]

section
variable {s : State} {k : Nat} (h : closable s = some k)
include h

theorem epochClose_builds (corr : Nat) (ds : List SnapDesc) : epochClose false corr ds s =
    snareEval (epochBuilt k (buildImage (eccCounted corr s) k) (closing k (buildImage (eccCounted corr s) k) (eccCounted corr s))) := by
  simp only [epochClose, h, Bool.false_eq_true, if_false, epochBuilt, closing, eccCounted]

theorem epochClose_misses (corr : Nat) (ds : List SnapDesc) : epochClose true corr ds s =
    snareEval (epochMissed k ds (setEvt (closing k (buildImage (eccCounted corr s) k) (eccCounted corr s)) rGRN_EVT (bitv 6))) := by
  simp only [epochClose, h, if_true, closing, eccCounted]

end

theorem closing_grn {s : State} (k corr : Nat) (img : Image) : ∃ q d,
    (closing k img (eccCounted corr s)).grn = { s.grn with jnlQ := q, tripDue := d } := by
  have hgrn := (closing_journalOnly k img (eccCounted corr s)).grn
  rw [eccCounted_grn] at hgrn
  exact ⟨_, _, hgrn⟩

theorem epochMissed_grn (k : Nat) (ds : List SnapDesc) (s : State) : ∃ q d ps, (epochMissed k ds s).grn =
    { s.grn with next := some (k + 1), missPrev := true, missCnt := s.grn.missCnt + 1, missLast := u64 k, jnlQ := q, tripDue := d, pubs := ps } := by
  have hint (u : State) : (intEdge u 98).grn = u.grn := (intEdge_keeps (Keeps.refl [.regs, .flt, .ints, .cores] u) rfl).only .grn rfl
  unfold epochMissed
  extract_lets _ m c r j p
  have hp : PubsOnly j p := PubsOnly.publish k true _ ds j
  have hj : JournalOnly r j := JournalOnly.jnlPut 7 [u64 k] r
  refine ⟨j.grn.jnlQ, j.grn.tripDue, p.grn.pubs, ?_⟩
  rw [hint, hp, hj.grn]
  rfl

theorem epochClose_closes {s : State} {k : Nat} (h : closable s = some k) (corr : Nat) (ds : List SnapDesc) : ∃ q d,
    (epochClose false corr ds s).grn = { s.grn with
      next := some (k + 1), build := some (buildImage (eccCounted corr s) k), missPrev := false, fwNew := false, jnlQ := q, tripDue := d } := by
  obtain ⟨q, d, hgrn⟩ := closing_grn (s := s) k corr (buildImage (eccCounted corr s) k)
  refine ⟨q, d, ?_⟩
  rw [epochClose_builds h, snareEval_only _ .grn rfl, epochBuilt, hgrn]

theorem epochClose_counts_missed {s : State} {k : Nat} (h : closable s = some k) (corr : Nat) (ds : List SnapDesc) : ∃ q d ps,
    (epochClose true corr ds s).grn = { s.grn with
      next := some (k + 1), missPrev := true, missCnt := s.grn.missCnt + 1, missLast := u64 k, jnlQ := q, tripDue := d, pubs := ps } := by
  obtain ⟨_, _, hgrn⟩ := closing_grn (s := s) k corr (buildImage (eccCounted corr s) k)
  obtain ⟨q, d, ps, hmiss⟩ := epochMissed_grn k ds (setEvt (closing k (buildImage (eccCounted corr s) k) (eccCounted corr s)) rGRN_EVT (bitv 6))
  refine ⟨q, d, ps, ?_⟩
  rw [epochClose_misses h, snareEval_only _ .grn rfl, hmiss, setEvt_grn, hgrn]

/-! ### The commit of an image (R163, R166, R180) -/

theorem exec_epochCommit (dt : Fin 129) (ds : List SnapDesc) (s : State) : exec (.epochCommit dt ds) s = .next (epochCommit dt ds s) := rfl

theorem epochCommit_unbuilt {s : State} (h : s.grn.build = none) (dt : Nat) (ds : List SnapDesc) : epochCommit dt ds s = s := by
  rw [epochCommit, h]

/-- The built image is dropped. -/
def imageDropped (s : State) : State := { s with grn := { s.grn with build := none } }

theorem epochCommit_shadow {s : State} {b : Image} (hb : s.grn.build = some b) (hr : s.stk.role = 1) (dt : Nat) (ds : List SnapDesc) :
    epochCommit dt ds s = imageDropped s := by
  rw [epochCommit, hb]
  exact if_pos hr

theorem commitRecords_grn (img : Image) (s : State) : ∃ q,
    (commitRecords img s).grn = { s.grn with jnlQ := q, resetDue := false, tripDue := false } := by
  have hput (c : Bool) (ty : Nat) (ws : List U64) (u : State) : JournalOnly u (if c then jnlPut ty ws u else u) :=
    JournalOnly.ite (JournalOnly.jnlPut ty ws u) (JournalOnly.refl u)
  unfold commitRecords
  extract_lets u v
  have hu : JournalOnly s u := hput s.grn.resetDue _ _ s
  have hv : JournalOnly u v := hput u.grn.tripDue _ _ u
  have hgrn : v.grn = { s.grn with jnlQ := v.grn.jnlQ, tripDue := v.grn.tripDue } := (hu.trans hv).grn
  exact ⟨v.grn.jnlQ, congrArg (fun g : Grn => { g with resetDue := false, tripDue := false }) hgrn⟩

/-- The built image `b` with the role of the device that commits it. -/
def committed (s : State) (b : Image) : Image :=
  { b with role := pack [(0, b2n (s.stk.role == 0 || s.stk.role == 2)), (1, b2n s.stk.taken)] }

/-- The image `img` becomes COMMIT. -/
def becomesCommit (img : Image) (s : State) : State := { s with grn := { s.grn with build := none, commit := img, valid := true } }

/-- The image `img` is stored: COMMIT, its records in the journal's queue, and its publications. -/
def stored (img : Image) (ds : List SnapDesc) (s : State) : State := publish img.k false img ds (commitRecords img (becomesCommit img s))

theorem stored_grn (img : Image) (ds : List SnapDesc) (s : State) : ∃ q ps, (stored img ds s).grn =
      { s.grn with build := none, commit := img, valid := true, jnlQ := q, resetDue := false, tripDue := false, pubs := ps } ∧
    ((∀ r, r < 16 → snapDue s img.k r = false) → ps = s.grn.pubs) := by
  obtain ⟨q, hrec⟩ := commitRecords_grn img (becomesCommit img s)
  have hpub : PubsOnly (commitRecords img (becomesCommit img s)) (stored img ds s) := PubsOnly.publish img.k false img ds _
  refine ⟨q, (stored img ds s).grn.pubs, by rw [hpub, hrec]; rfl, fun h => ?_⟩
  have hnone : stored img ds s = commitRecords img (becomesCommit img s) :=
    publish_nothing_due (fun r hr => by rw [snapDue, hrec]; exact h r hr) false img ds
  rw [hnone, hrec]
  rfl

theorem stored_tick (img : Image) (ds : List SnapDesc) (s : State) : (stored img ds s).tick = s.tick :=
  (publish_keeps (commitRecords_keeps (Keeps.refl [.regs, .grn, .dma, .tly] (becomesCommit img s)) rfl) rfl).only .tick rfl

/-- No frame after the takeover is the first any more. -/
def notFirst (s : State) : State := { s with stk := { s.stk with first := false } }

theorem notFirst_grn (s : State) : (notFirst s).grn = s.grn := rfl

theorem notFirst_tick (s : State) : (notFirst s).tick = s.tick := rfl

theorem notFirst_first (s : State) : (notFirst s).stk.first = false := rfl

/-- The signals that follow a commit: the safety conditions on images, and Snare. -/
def commitSignals (img : Image) (s : State) : State := snareEval (intEdge (snareCommit img (safetyEval s)) 98)

theorem commitSignals_journalOnly (img : Image) (s : State) : JournalOnly s (commitSignals img s) :=
  (JournalOnly.safetyEval s).trans (.ofAreas (snareEval_keeps (intEdge_keeps (snareCommit_keeps
    (Keeps.refl [.regs, .flt, .ints, .cores, .snr] _) rfl) rfl) rfl) rfl rfl)

theorem commitSignals_tick (img : Image) (s : State) : (commitSignals img s).tick = s.tick :=
  (snareEval_keeps (intEdge_keeps (snareCommit_keeps (safetyEval_keeps
    (Keeps.refl [.regs, .flt, .cmd, .ints, .cores, .fur, .grn, .hrw, .prt, .snr, .stk] s) rfl) rfl) rfl) rfl).only .tick rfl

/-- The time at which the built image `b` is committed, `dt` ticks after its closure. -/
def commitTime (s : State) (b : Image) (dt : Nat) : Nat := (b.k + 1) * lTicks s + b.closeAt + dt

section
variable {s : State} {b : Image} (hb : s.grn.build = some b) (hr : s.stk.role ≠ 1) (dt : Nat) (ds : List SnapDesc)
include hb hr

theorem epochCommit_commits :
    epochCommit dt ds s = commitSignals (committed s b) (notFirst (stored (committed s b) ds (advanceTo s (commitTime s b dt)))) := by
  have hstk : (advanceTo s ((b.k + 1) * lTicks s + b.closeAt + dt)).stk = s.stk := advanceTo_only s _ .stk rfl
  simp only [epochCommit, hb, hr, if_false, committed, becomesCommit, stored, notFirst, commitSignals, commitTime, hstk]

theorem epochCommit_grn : ∃ q d ps, (epochCommit dt ds s).grn = { s.grn with
      build := none, commit := committed s b, valid := true, jnlQ := q, tripDue := d, resetDue := false, pubs := ps } ∧
    ((∀ r, r < 16 → snapDue s b.k r = false) → ps = s.grn.pubs) := by
  have hadv : (advanceTo s (commitTime s b dt)).grn = s.grn := advanceTo_only s _ .grn rfl
  obtain ⟨q, ps, hstore, hps⟩ := stored_grn (committed s b) ds (advanceTo s (commitTime s b dt))
  have hsig := (commitSignals_journalOnly (committed s b) (notFirst (stored (committed s b) ds (advanceTo s (commitTime s b dt))))).grn
  rw [← epochCommit_commits hb hr, notFirst_grn, hstore, hadv] at hsig
  rw [hadv] at hps
  exact ⟨_, _, ps, hsig, fun h => hps fun r hlt => by rw [snapDue, hadv]; exact h r hlt⟩

theorem epochCommit_first : (epochCommit dt ds s).stk.first = false := by
  rw [epochCommit_commits hb hr, (commitSignals_journalOnly _ _).first, notFirst_first]

theorem epochCommit_tick : (epochCommit dt ds s).tick = u64 (max (now s) (commitTime s b dt)) := by
  rw [epochCommit_commits hb hr, commitSignals_tick, notFirst_tick, stored_tick, advanceTo_tick_max]

end

/-! ### The obligation (R66, R159 to R174) -/

/-- Settles O53, with one lemma per transition: what reports, retirements and decisions do at a closure or a commit leaves Granary as it is but
for the journal's queue (`JournalOnly`), and a publication ends with its descriptor consumed (`descBack_consumes`). -/
theorem epochsCloseCommitAndPublish : Obligations.EpochsCloseCommitAndPublish := by
  unfold Obligations.EpochsCloseCommitAndPublish
  intro s late back gone stays yields
  refine ⟨?kept, ?passed, ?openEpoch, ?closes, ?missed, ?unbuilt, ?shadow, ?commits, ?waits, ?writtenBack, ?linkDown, ?written, ?eccAbandoned,
    ?abandoned, ?young⟩
  case kept => exact fun r h => (exec_closureDeadline r s).trans (congrArg _ (closureDeadline_kept h))
  case passed => exact fun r k hk h => ⟨_, exec_closureDeadline r s, closureDeadline_passes hk h⟩
  case openEpoch => exact fun uncorr corr ds h => (exec_epochClose uncorr corr ds s).trans (congrArg _ (epochClose_open h uncorr _ ds))
  case closes =>
    intro k corr ds h
    obtain ⟨q, d, hgrn⟩ := epochClose_closes h corr.toNat ds
    refine ⟨_, exec_epochClose false corr ds s, ?_⟩
    dsimp only [stays]
    rw [hgrn]
    exact ⟨⟨rfl, rfl⟩, rfl, rfl, rfl, rfl, rfl⟩
  case missed =>
    intro k corr ds h
    obtain ⟨q, d, ps, hgrn⟩ := epochClose_counts_missed h corr.toNat ds
    refine ⟨_, exec_epochClose true corr ds s, ?_⟩
    dsimp only [stays]
    rw [hgrn]
    exact ⟨⟨rfl, rfl⟩, rfl, rfl, rfl, rfl, rfl⟩
  case unbuilt => exact fun dt ds h => (exec_epochCommit dt ds s).trans (congrArg _ (epochCommit_unbuilt h _ ds))
  case shadow =>
    intro dt ds b hb hr
    refine ⟨_, exec_epochCommit dt ds s, ?_⟩
    rw [epochCommit_shadow hb hr]
    exact ⟨grn_only s _, rfl⟩
  case commits =>
    intro dt ds b hb hr
    obtain ⟨q, d, ps, hgrn, hps⟩ := epochCommit_grn hb hr dt ds
    refine ⟨_, exec_epochCommit dt ds s, ?_⟩
    dsimp only
    rw [hgrn]
    exact ⟨rfl, rfl, rfl, rfl, epochCommit_first hb hr dt ds, rfl, epochCommit_tick hb hr dt ds, hps⟩
  case waits => exact fun ecc h => (exec_publicationComplete ecc s).trans (congrArg _ (pubComplete_waits h ecc))
  case writtenBack => exact fun ecc p rest hp hy hst => ⟨_, exec_publicationComplete ecc s, pubComplete_writesBack hp hy hst ecc⟩
  case linkDown =>
    exact fun ecc p rest hp hst hl => (exec_publicationComplete ecc s).trans (congrArg _ (pubComplete_linkDown hp hst hl ecc))
  case written => exact fun p rest hp hy hst hl => ⟨_, exec_publicationComplete false s, pubComplete_writes hp hy hst hl⟩
  case eccAbandoned => exact fun p rest hp hy hst hl => ⟨_, exec_publicationComplete true s, pubComplete_abandons hp hy hst hl⟩
  case abandoned =>
    intro p rest hp hst hwin hr
    obtain ⟨hgone, hcount, hdma, -⟩ := pubAbandon_leaves p rest s
    exact ⟨_, exec_publicationAbandon_old hp ⟨hst, hwin, hr⟩, hgone, hcount, hdma⟩
  case young => exact exec_publicationAbandon_kept

end Sys2Proof.Machine
end

section
/-! PROOFS. Cell endpoints: frames, training, effect instants, the block symbol, faults and loops (O47). -/

namespace Sys2Proof.Machine

/-! ### A command of an endpoint (R224) -/

@[simp] theorem ep_setEp_same (s : State) (e : Nat) (v : Ep) : ep (setEp s e v) e = v := tget_tset_same _ _ _ _

/-- Of the state a store of endpoint `e` changes that endpoint alone. -/
theorem setEp_alone (s : State) (e : Nat) (v : Ep) :
    (∀ d, d ≠ e → ep (setEp s e v) d = ep s d) ∧ ChangesOnly [.eps] s (setEp s e v) :=
  ⟨fun _ h => tget_tset_ne h, (setEp_keeps (Keeps.refl _ s) rfl).only⟩

/-- The log of what could be reported is all that a record of it changes. -/
theorem epLog_eq (t : Int) (x : Ep) : ∃ lg, epLog t x = { x with log := lg } := by
  unfold epLog
  split_ifs
  · exact ⟨x.log, rfl⟩
  · exact ⟨_, rfl⟩

/-! ### The frame gap (R191, R200, R226) -/

/-- `y` is `x` but for the span delays, the PD_RESP that wait, and the outputs. -/
def SameButGap (x y : Ep) : Prop :=
  y = { x with spanA := y.spanA, spanB := y.spanB, respA := y.respA, respB := y.respB, pdSeq := y.pdSeq, outA := y.outA, outB := y.outB }

theorem SameButGap.refl (x : Ep) : SameButGap x x := rfl

theorem SameButGap.trans {x y z : Ep} (h : SameButGap x y) (g : SameButGap y z) : SameButGap x z := by
  unfold SameButGap at *
  rw [g, h]

theorem setSpan_gap (l : Lane) (d : Nat) (x : Ep) : SameButGap x (setSpan l d x) := by cases l <;> rfl
theorem setResp_gap (o : Lane) (b : Option Block) (x : Ep) : SameButGap x (setResp o b x) := by cases o <;> rfl
theorem epSend_gap (o : Lane) (bs : List Block) (x : Ep) : SameButGap x (epSend o bs x) := by cases o <;> rfl

theorem gapReceive_gap (l : Lane) (g : Gap) (x : Ep) : SameButGap x (gapReceive l g x) := by
  have hspan : SameButGap x (match g.blocks.find? (isCtl 0xAA) with
      | some b => setSpan l ((g.rtt.toNat - fld b.data 39 16) / 2) x
      | none => x) := by
    split
    · exact setSpan_gap _ _ _
    · exact .refl _
  obtain ⟨y, hy, e⟩ : ∃ y, SameButGap x y ∧ gapReceive l g x = match g.blocks.find? (isCtl 0x99) with
      | some b => if silentLane y (otherLane l) then y
          else setResp (otherLane l) (some (ctl (0xAA + fld b.data 15 8 * 2 ^ 8 + g.turn.toNat * 2 ^ 16))) y
      | none => y := ⟨_, hspan, rfl⟩
  rw [e]
  refine hy.trans ?_
  split
  · split_ifs
    · exact .refl _
    · exact setResp_gap _ _ _
  · exact .refl _

theorem gapSend_gap (l : Lane) (req : Bool) (frame : List Block) (g : Gap) (x : Ep) : SameButGap x (gapSend l req frame g x) := by
  have hresp (p : Prop) [Decidable p] (o : Lane) : SameButGap x (if p then setResp o none x else x) := by
    split
    · exact setResp_gap _ _ _
    · exact .refl _
  obtain ⟨o, bs, y, q, hy, e⟩ : ∃ o bs y q, SameButGap x y ∧ gapSend l req frame g x = epSend o bs { y with pdSeq := q } :=
    ⟨_, _, _, _, hresp _ _, rfl⟩
  rw [e]
  exact (hy.trans (y := y) (z := { y with pdSeq := q }) rfl).trans (epSend_gap _ _ _)

theorem epGap_gap (l : Lane) (req : Bool) (frame : List Block) (g : Gap) (x : Ep) : SameButGap x (epGap l req frame g x) :=
  (gapReceive_gap l g x).trans (gapSend_gap l req frame g _)

/-! ### The acceptance of a frame (R189, R194, R225, R228) -/

/-- Does a copy meet R225 at an endpoint, which needs a position for it. -/
def copyOk (x : Ep) (bs : List Block) : Bool :=
  match x.pos with
  | none => false
  | some p => copyPasses p bs

/-- A frame is known that number `j` and boundary `f` stand for. -/
def isSeen (j flen : Nat) (f : Int) (c : EpSeen) : Bool := c.j == j && sameFrame flen c.f f

/-- What an accepted frame sets where it is the newest: number, boundary, length and BGEN. -/
def epTimed (j : Nat) (f : Int) (flen : Nat) (bgen : U8) (x : Ep) : Ep :=
  if x.lastJ.isNone || decide (x.fj < f) then { x with lastJ := some j, fj := f, flen := flen, lastBgen := bgen } else x

/-- An accepted frame counts for the self-block and for the latch (R205, R241). -/
def epNoted (j : Nat) (x : Ep) : Ep :=
  { x with acc := (j :: x.acc).take 64, selfBlk := x.selfBlk && !accRun ((j :: x.acc).take 64) j, accLatched := x.accLatched || x.latched }

theorem epAccept_kept {sof : Int} {span : Nat} {bs : List Block} {x : Ep}
    (h : copyOk x bs = false ∨ epTaken (bs.getD 1 {}).data.toNat (blkFld bs 3 55 48) (copyFj sof span bs) x = true) :
    ∃ lg, epAccept sof span bs x =
      { epSeen (bs.getD 1 {}).data.toNat (blkFld bs 3 55 48) (copyFj sof span bs) (copyOk x bs) x with log := lg } := by
  unfold epAccept copyOk at *
  cases hp : x.pos with
  | none => exact epLog_eq _ _
  | some p =>
    rw [hp] at h
    have hfirst : (copyPasses p bs && !epTaken (bs.getD 1 {}).data.toNat (blkFld bs 3 55 48) (copyFj sof span bs) x) = false := by
      rcases h with h | h
      · rw [show copyPasses p bs = false from h, Bool.false_and]
      · rw [h, Bool.not_true, Bool.and_false]
    dsimp only
    rw [hfirst]
    exact epLog_eq _ _

theorem epAccept_first {sof : Int} {span p : Nat} {bs : List Block} {x : Ep} (hp : x.pos = some p) (hok : copyOk x bs = true)
    (hnew : epTaken (bs.getD 1 {}).data.toNat (blkFld bs 3 55 48) (copyFj sof span bs) x = false) :
    let j := (bs.getD 1 {}).data.toNat
    let bgen : U8 := BitVec.ofNat 8 (blkFld bs 3 63 56)
    let w := (bs.getD (5 + p / 2) {}).data
    ∃ lg, epAccept sof span bs x =
      { epHold (sof + 512 * ((6 + blkFld bs 3 47 32 / 2 : Nat) : Int)) j bgen (if p % 2 = 0 then lo32 w else hi32 w)
          (epNoted j (epTimed j (copyFj sof span bs) (blkFld bs 3 55 48) bgen
            (epSeen j (blkFld bs 3 55 48) (copyFj sof span bs) true x))) with log := lg } := by
  have hpass : copyPasses p bs = true := by simpa only [copyOk, hp] using hok
  unfold epAccept
  rw [hp]
  dsimp only
  rw [hpass, hnew]
  exact epLog_eq _ _

/-- `y` is `x` but for the latch, the held commands and the count of late ones. -/
def SameButHeld (x y : Ep) : Prop :=
  y = { x with latched := y.latched, leave := y.leave, latchBgen := y.latchBgen, lateDisc := y.lateDisc, anoms := y.anoms, held := y.held }

theorem SameButHeld.refl (x : Ep) : SameButHeld x x := rfl

theorem SameButHeld.trans {x y z : Ep} (h : SameButHeld x y) (g : SameButHeld y z) : SameButHeld x z := by
  unfold SameButHeld at *
  rw [g, h]

theorem SameButHeld.ite {x y z : Ep} {p : Prop} [Decidable p] (h : SameButHeld x y) (g : SameButHeld x z) :
    SameButHeld x (if p then y else z) := by
  split
  · exact h
  · exact g

theorem epHold_held (t : Int) (j : Nat) (bgen : U8) (w : U32) (x : Ep) : SameButHeld x (epHold t j bgen w x) := by
  have hput (y : Ep) (h : HeldCmd) : SameButHeld y (if heldAt y h < t then { y with lateDisc := y.lateDisc + 1, anoms := y.anoms + 1 }
      else { y with held := y.held.filter (fun g => g.epoch != h.epoch) ++ [h] }) := .ite rfl rfl
  have hfree (p : Prop) [Decidable p] : SameButHeld x (if p then { x with latched := false, leave := false, latchBgen := bgen } else x) :=
    .ite rfl (.refl x)
  unfold epHold
  split
  · exact .refl x
  · exact .ite (.refl x) ((hfree _).trans (.ite (.refl _) (hput _ _)))

theorem SameButHeld.time {x y : Ep} (h : SameButHeld x y) :
    y.lastJ = x.lastJ ∧ y.fj = x.fj ∧ y.flen = x.flen ∧ y.lastBgen = x.lastBgen ∧ y.seen = x.seen ∧ y.cmdMiss = x.cmdMiss := by
  unfold SameButHeld at h
  rw [h]
  exact ⟨rfl, rfl, rfl, rfl, rfl, rfl⟩

/-- An effect instant is reckoned from the newest frame (R228). -/
theorem heldAt_congr {x y : Ep} (hj : y.lastJ = x.lastJ) (hf : y.fj = x.fj) (hl : y.flen = x.flen) (h : HeldCmd) : heldAt y h = heldAt x h := by
  simp only [heldAt, hj, hf, hl]

/-- An endpoint that is not latched holds a command whose instant does not lie before its acceptance. -/
theorem mem_held_epHold {t : Int} {j h : Nat} {bgen : U8} {w : U32} {x : Ep} (hl : x.latched = false) (hs : slotE j w = some h)
    (hn : fld w 3 0 ≠ 15) (ht : t ≤ heldAt x { epoch := h, slot := w }) : { epoch := h, slot := w } ∈ (epHold t j bgen w x).held := by
  unfold epHold
  rw [hs]
  simp only [hn, if_false, hl, Bool.false_and, Bool.false_eq_true, not_lt.2 ht]
  exact List.mem_append_right _ (List.mem_singleton_self _)

/-- An accepted frame is known as accepted. -/
theorem epTaken_epSeen {j flen : Nat} {f : Int} {x : Ep} (h : flen ≤ 2) : epTaken j flen f (epSeen j flen f true x) = true := by
  have hsame : sameFrame flen f f = true := by
    unfold sameFrame epL
    interval_cases flen <;> simp [frameTicks]
  simp [epTaken, epSeen, List.take, hsame]

/-- A second bad copy of a frame counts a miss, while no frame is forgotten (R225). -/
theorem epSeen_cmdMiss {j flen : Nat} {f : Int} {ok : Bool} {x : Ep} (h : x.seen.length < 16) : (epSeen j flen f ok x).cmdMiss =
    x.cmdMiss + (if ok = false ∧ ∃ c, x.seen.find? (isSeen j flen f) = some c ∧ c.n = 1 ∧ c.ok = false then 1 else 0) := by
  have hdrop (c : EpSeen) : (c :: x.seen.filter (fun d => !isSeen j flen f d)).drop 16 = [] := by
    have := List.length_filter_le (fun d => !isSeen j flen f d) x.seen
    exact List.drop_eq_nil_of_le (by rw [List.length_cons]; omega)
  have hmiss : (epSeen j flen f ok x).cmdMiss = x.cmdMiss + (b2n (!(((x.seen.find? (isSeen j flen f)).getD ⟨j, f, 0, false⟩).ok || ok) &&
      ((x.seen.find? (isSeen j flen f)).getD ⟨j, f, 0, false⟩).n + 1 == 2) +
      ((List.drop 16 (_ :: x.seen.filter (fun d => !isSeen j flen f d))).filter (fun e => !e.ok && e.n == 1)).length) := rfl
  rw [hmiss, hdrop]
  cases x.seen.find? (isSeen j flen f) with
  | none => simp [b2n]
  | some c => cases ok <;> simp [b2n, and_comm]

/-- An endpoint that has counted a copy, on its lane where it is bad. -/
def epCounted (l : Lane) (bad : Bool) (x : Ep) : Ep :=
  { x with crcA := x.crcA + (if bad = true ∧ l = .a then 1 else 0), crcB := x.crcB + (if bad = true ∧ l = .b then 1 else 0) }

theorem epCrcCount_eq (t : Int) (l : Lane) (bad : Bool) (x : Ep) : ∃ lg, epCrcCount t l bad x = { epCounted l bad x with log := lg } := by
  cases bad with
  | false => exact ⟨x.log, rfl⟩
  | true => cases l <;> exact epLog_eq t _

/-! ### The report (R237 to R239) -/

theorem epReport_again {j flen : Nat} {fk : Int} {vcap temp : Nat} {x : Ep}
    (h : x.rpts.find? (fun r => r.j == j && sameFrame flen r.f fk) ≠ none) : (epReport j flen fk vcap temp x).2 = x := by
  unfold epReport
  split
  · rfl
  · next hn => exact absurd hn h

theorem epReport_new {j flen : Nat} {fk : Int} {vcap temp : Nat} {x : Ep} (hv : vcap < 65536)
    (h : x.rpts.find? (fun r => r.j == j && sameFrame flen r.f fk) = none) : ∃ r : EpRpt,
      (epReport j flen fk vcap temp x).2 = { x with rpts := (r :: x.rpts).take 16, rot := (x.rot + 1) % 32 } ∧ r.j = j ∧ r.f = fk ∧
        r.val.toNat % 65536 = vcap := by
  unfold epReport
  rw [h]
  have hlow (a b c : Nat) : (u64 (vcap + a * 2 ^ 16 + b * 2 ^ 24 + c * 2 ^ 32)).toNat % 65536 = vcap := by
    rw [u64, BitVec.toNat_ofNat]
    omega
  exact ⟨_, rfl, rfl, rfl, hlow _ _ _⟩

section
variable {fk : Int} {vcap temp : Nat} {bs out : List Block} {x : Ep}

/-- A report that is written changes the reports and the rotating index only. -/
theorem epWrite_eq : ∃ rp rt, (epWrite fk vcap temp bs out x).2 = { x with rpts := rp, rot := rt } := by
  have hrep (j flen : Nat) : ∃ rp rt, (epReport j flen fk vcap temp x).2 = { x with rpts := rp, rot := rt } := by
    unfold epReport
    split
    · exact ⟨x.rpts, x.rot, rfl⟩
    · exact ⟨_, _, rfl⟩
  unfold epWrite
  cases x.pos with
  | none => exact ⟨x.rpts, x.rot, rfl⟩
  | some p =>
    dsimp only
    split_ifs
    · exact hrep _ _
    · exact ⟨x.rpts, x.rot, rfl⟩

/-- Both copies of a frame carry one report. -/
theorem epWrite_again (h : x.rpts.find? (fun r => r.j == (bs.getD 1 {}).data.toNat && sameFrame (blkFld bs 3 55 48) r.f fk) ≠ none) :
    (epWrite fk vcap temp bs out x).2 = x := by
  unfold epWrite
  cases x.pos with
  | none => rfl
  | some p =>
    dsimp only
    split_ifs
    · exact epReport_again h
    · rfl

theorem epWrite_new (hv : vcap < 65536) {p : Nat} (hp : x.pos = some p) (hn : p < blkFld bs 3 47 32) (hl : copyLooped bs = false)
    (h : x.rpts.find? (fun r => r.j == (bs.getD 1 {}).data.toNat && sameFrame (blkFld bs 3 55 48) r.f fk) = none) : ∃ r : EpRpt,
      (epWrite fk vcap temp bs out x).2 = { x with rpts := (r :: x.rpts).take 16, rot := (x.rot + 1) % 32 } ∧
        r.j = (bs.getD 1 {}).data.toNat ∧ r.f = fk ∧ r.val.toNat % 65536 = vcap := by
  unfold epWrite
  rw [hp]
  simp only [hn, hl, decide_true, Bool.not_false, Bool.and_self, if_true]
  exact epReport_new hv h

end

/-! ### A copy of a CYCLE frame as a whole -/

/-- `y` is `x` but for what acceptance may set. -/
def SameButAccepted (x y : Ep) : Prop :=
  y = { x with seen := y.seen, cmdMiss := y.cmdMiss, lastJ := y.lastJ, fj := y.fj, flen := y.flen, lastBgen := y.lastBgen, acc := y.acc,
               selfBlk := y.selfBlk, accLatched := y.accLatched, latched := y.latched, leave := y.leave, latchBgen := y.latchBgen,
               lateDisc := y.lateDisc, anoms := y.anoms, held := y.held, log := y.log }

theorem SameButAccepted.trans {x y z : Ep} (h : SameButAccepted x y) (g : SameButAccepted y z) : SameButAccepted x z := by
  unfold SameButAccepted at *
  rw [g, h]

theorem SameButHeld.accepted {x y : Ep} (h : SameButHeld x y) : SameButAccepted x y := by
  unfold SameButHeld SameButAccepted at *
  rw [h]

theorem epTimed_accepted (j : Nat) (f : Int) (flen : Nat) (bgen : U8) (x : Ep) : SameButAccepted x (epTimed j f flen bgen x) := by
  unfold epTimed
  split <;> rfl

theorem copyOk_pos {x : Ep} {bs : List Block} (h : copyOk x bs = true) : ∃ p, x.pos = some p := by
  cases hp : x.pos with
  | none => simp only [copyOk, hp, Bool.false_eq_true] at h
  | some p => exact ⟨p, rfl⟩

theorem epAccept_accepted (sof : Int) (span : Nat) (bs : List Block) (x : Ep) : SameButAccepted x (epAccept sof span bs x) := by
  by_cases h : copyOk x bs = false ∨ epTaken (bs.getD 1 {}).data.toNat (blkFld bs 3 55 48) (copyFj sof span bs) x = true
  · obtain ⟨lg, e⟩ := epAccept_kept h
    rw [e]
    rfl
  · obtain ⟨hok, hnew⟩ := not_or.1 h
    have hok : copyOk x bs = true := Bool.eq_true_of_not_eq_false hok
    obtain ⟨p, hp⟩ := copyOk_pos hok
    obtain ⟨lg, e⟩ := epAccept_first hp hok (Bool.eq_false_of_not_eq_true hnew)
    rw [e]
    have hseen (j flen : Nat) (f : Int) : SameButAccepted x (epSeen j flen f true x) := rfl
    have hnoted (j : Nat) (y : Ep) : SameButAccepted y (epNoted j y) := rfl
    have hlog (y : Ep) : SameButAccepted y { y with log := lg } := rfl
    exact (((hseen _ _ _).trans (epTimed_accepted _ _ _ _ _)).trans (hnoted _ _)).trans ((epHold_held _ _ _ _ _).accepted.trans (hlog _))

theorem epTimed_seen (j : Nat) (f : Int) (flen : Nat) (bgen : U8) (x : Ep) :
    (epTimed j f flen bgen x).seen = x.seen ∧ (epTimed j f flen bgen x).cmdMiss = x.cmdMiss ∧ (epTimed j f flen bgen x).latched = x.latched := by
  unfold epTimed
  split <;> exact ⟨rfl, rfl, rfl⟩

theorem epTimed_newest {j flen : Nat} {f : Int} {bgen : U8} {x : Ep} (h : x.lastJ = none ∨ x.fj < f) :
    epTimed j f flen bgen x = { x with lastJ := some j, fj := f, flen := flen, lastBgen := bgen } :=
  if_pos (by simpa only [Bool.or_eq_true, Option.isNone_iff_eq_none, decide_eq_true_eq] using h)

theorem epTimed_older {j flen : Nat} {f : Int} {bgen : U8} {x : Ep} (h : x.lastJ ≠ none) (hf : f ≤ x.fj) : epTimed j f flen bgen x = x :=
  if_neg (by simpa only [Bool.or_eq_true, Option.isNone_iff_eq_none, decide_eq_true_eq, not_or, not_lt] using And.intro h hf)

/-- Every copy is noted, and a second bad one counted. -/
theorem epAccept_seen (sof : Int) (span : Nat) (bs : List Block) (x : Ep) :
    let y := epSeen (bs.getD 1 {}).data.toNat (blkFld bs 3 55 48) (copyFj sof span bs) (copyOk x bs) x
    (epAccept sof span bs x).seen = y.seen ∧ (epAccept sof span bs x).cmdMiss = y.cmdMiss := by
  intro y
  by_cases h : copyOk x bs = false ∨ epTaken (bs.getD 1 {}).data.toNat (blkFld bs 3 55 48) (copyFj sof span bs) x = true
  · obtain ⟨lg, e⟩ := epAccept_kept h
    rw [e]
    exact ⟨rfl, rfl⟩
  · obtain ⟨hok, hnew⟩ := not_or.1 h
    have hok : copyOk x bs = true := Bool.eq_true_of_not_eq_false hok
    obtain ⟨p, hp⟩ := copyOk_pos hok
    obtain ⟨lg, e⟩ := epAccept_first hp hok (Bool.eq_false_of_not_eq_true hnew)
    obtain ⟨-, -, -, -, hs, hm⟩ := (epHold_held _ _ _ _ _).time
    obtain ⟨ts, tm, -⟩ := epTimed_seen _ _ _ _ _
    rw [e]
    dsimp only [y]
    rw [hok]
    exact ⟨hs.trans ts, hm.trans tm⟩

/-- `y` is `x` but for the report and what goes on. -/
def SameButSent (x y : Ep) : Prop :=
  y = { x with log := y.log, rpts := y.rpts, rot := y.rot, spanA := y.spanA, spanB := y.spanB, respA := y.respA, respB := y.respB,
               pdSeq := y.pdSeq, outA := y.outA, outB := y.outB }

theorem SameButSent.fields {l : Lane} {bad : Bool} {z y : Ep} (h : SameButSent (epCounted l bad z) y) :
    y.lastJ = z.lastJ ∧ y.fj = z.fj ∧ y.flen = z.flen ∧ y.lastBgen = z.lastBgen ∧ y.held = z.held ∧ y.latched = z.latched ∧
      y.seen = z.seen ∧ y.cmdMiss = z.cmdMiss := by
  unfold SameButSent at h
  rw [h]
  exact ⟨rfl, rfl, rfl, rfl, rfl, rfl, rfl, rfl⟩

theorem SameButSent.crc {l : Lane} {bad : Bool} {z y : Ep} (h : SameButSent (epCounted l bad z) y) :
    y.crcA = z.crcA + (if bad = true ∧ l = .a then 1 else 0) ∧ y.crcB = z.crcB + (if bad = true ∧ l = .b then 1 else 0) := by
  unfold SameButSent at h
  rw [h]
  exact ⟨rfl, rfl⟩

section
variable (l : Lane) (sof : Int) (res vcap temp : Nat) (g : Gap) (x : Ep)

theorem epFrame_nil : SameButGap x (epFrame l sof res vcap temp g [] x) := epGap_gap _ _ _ _ _

section
variable {bs : List Block} (h : bs ≠ [])
include h

/-- After acceptance a copy counts where it is bad, takes the report, and goes on. -/
theorem epFrame_cons : ∃ lg,
    let z := { epCounted l (copyFcrcBad bs || !copyCmdOk bs) (epAccept sof (epSpan x l) bs x) with log := lg }
    SameButGap (epWrite (copyFj sof (epSpan x l) bs - epL (blkFld bs 3 55 48)) vcap temp bs (fwdH3 (epSpan x l) res 1 bs) z).2
      (epFrame l sof res vcap temp g bs x) := by
  obtain ⟨lg, e⟩ := epCrcCount_eq (sof + 512 * (bs.length : Nat)) l (copyFcrcBad bs || !copyCmdOk bs) (epAccept sof (epSpan x l) bs x)
  refine ⟨lg, ?_⟩
  unfold epFrame
  rw [if_neg (mt List.isEmpty_iff.1 h)]
  dsimp only
  rw [e]
  exact epGap_gap _ _ _ _ _

theorem epFrame_sent : SameButSent (epCounted l (copyFcrcBad bs || !copyCmdOk bs) (epAccept sof (epSpan x l) bs x))
    (epFrame l sof res vcap temp g bs x) := by
  obtain ⟨lg, e⟩ := epFrame_cons l sof res vcap temp g x h
  generalize epCounted l (copyFcrcBad bs || !copyCmdOk bs) (epAccept sof (epSpan x l) bs x) = z at e ⊢
  obtain ⟨rp, rt, ew⟩ := epWrite_eq (fk := copyFj sof (epSpan x l) bs - epL (blkFld bs 3 55 48)) (vcap := vcap) (temp := temp) (bs := bs)
    (out := fwdH3 (epSpan x l) res 1 bs) (x := { z with log := lg })
  dsimp only at e
  rw [ew] at e
  unfold SameButGap SameButSent at *
  rw [e]

/-- What follows its acceptance leaves what a copy has set. -/
theorem epFrame_accepts : let y := epFrame l sof res vcap temp g bs x
    let z := epAccept sof (epSpan x l) bs x
    y.lastJ = z.lastJ ∧ y.fj = z.fj ∧ y.flen = z.flen ∧ y.lastBgen = z.lastBgen ∧ y.held = z.held ∧ y.latched = z.latched ∧
      y.seen = z.seen ∧ y.cmdMiss = z.cmdMiss :=
  (epFrame_sent l sof res vcap temp g x h).fields

theorem epFrame_crc : let bad := copyFcrcBad bs || !copyCmdOk bs
    let y := epFrame l sof res vcap temp g bs x
    y.crcA = x.crcA + (if bad = true ∧ l = .a then 1 else 0) ∧ y.crcB = x.crcB + (if bad = true ∧ l = .b then 1 else 0) := by
  obtain ⟨ha, hb⟩ := (epFrame_sent l sof res vcap temp g x h).crc
  have hz := epAccept_accepted sof (epSpan x l) bs x
  exact ⟨ha.trans (congrArg (· + _) (congrArg (fun y : Ep => y.crcA) hz :)), hb.trans (congrArg (· + _) (congrArg (fun y : Ep => y.crcB) hz :))⟩

theorem epFrame_report : let j := (bs.getD 1 {}).data.toNat
    let flen := blkFld bs 3 55 48
    let f := copyFj sof (epSpan x l) bs
    let rpt := x.rpts.find? (fun r => r.j == j && sameFrame flen r.f (f - epL flen))
    let y := epFrame l sof res vcap temp g bs x
    (rpt ≠ none → y.rpts = x.rpts ∧ y.rot = x.rot) ∧
      (vcap < 65536 → ∀ p, x.pos = some p → p < blkFld bs 3 47 32 → copyLooped bs = false → rpt = none →
        ∃ r : EpRpt, y.rpts = (r :: x.rpts).take 16 ∧ r.j = j ∧ r.f = f - epL flen ∧ r.val.toNat % 65536 = vcap ∧ y.rot = (x.rot + 1) % 32) := by
  intro j flen f rpt y
  obtain ⟨lg, e⟩ := epFrame_cons l sof res vcap temp g x h
  have hz := epAccept_accepted sof (epSpan x l) bs x
  generalize hu : { epCounted l (copyFcrcBad bs || !copyCmdOk bs) (epAccept sof (epSpan x l) bs x) with log := lg } = u at e
  have hpos : u.pos = x.pos := hu ▸ (congrArg (fun y : Ep => y.pos) hz :)
  have hrpts : u.rpts = x.rpts := hu ▸ (congrArg Ep.rpts hz :)
  have hrot : u.rot = x.rot := hu ▸ (congrArg Ep.rot hz :)
  dsimp only at e
  refine ⟨fun hr => ?_, fun hv p hp hn hl hr => ?_⟩
  · rw [epWrite_again (by rwa [hrpts])] at e
    exact ⟨(congrArg Ep.rpts e).trans hrpts, (congrArg Ep.rot e).trans hrot⟩
  · obtain ⟨r, ew, hj, hf, hval⟩ := epWrite_new (temp := temp) (out := fwdH3 (epSpan x l) res 1 bs) hv (hpos.trans hp) hn hl (by rwa [hrpts])
    rw [ew, hrpts, hrot] at e
    exact ⟨r, congrArg Ep.rpts e, hj, hf, hval, congrArg Ep.rot e⟩

/-- What a copy that is not accepted leaves. -/
theorem epFrame_kept (hk : copyOk x bs = false ∨ epTaken (bs.getD 1 {}).data.toNat (blkFld bs 3 55 48) (copyFj sof (epSpan x l) bs) x = true) :
    let y := epFrame l sof res vcap temp g bs x
    y.lastJ = x.lastJ ∧ y.fj = x.fj ∧ y.held = x.held ∧ y.latched = x.latched := by
  obtain ⟨hj, hf, -, -, hh, hl, -⟩ := epFrame_accepts l sof res vcap temp g x h
  obtain ⟨lg, ez⟩ := epAccept_kept hk
  rw [ez] at hj hf hh hl
  exact ⟨hj, hf, hh, hl⟩

theorem epFrame_taken (hok : copyOk x bs = true) :
    epTaken (bs.getD 1 {}).data.toNat (blkFld bs 3 55 48) (copyFj sof (epSpan x l) bs) (epFrame l sof res vcap temp g bs x) = true := by
  obtain ⟨-, -, -, -, -, -, hs, -⟩ := epFrame_accepts l sof res vcap temp g x h
  obtain ⟨p, hp⟩ := copyOk_pos hok
  have hpass : copyPasses p bs = true := by simpa only [copyOk, hp] using hok
  have hlen : blkFld bs 3 55 48 ≤ 2 := by
    simp only [copyPasses, Bool.and_eq_true, decide_eq_true_eq] at hpass
    exact hpass.2
  have ht := epTaken_epSeen (j := (bs.getD 1 {}).data.toNat) (f := copyFj sof (epSpan x l) bs) (x := x) hlen
  unfold epTaken at ht ⊢
  rwa [hs, (epAccept_seen sof (epSpan x l) bs x).1, hok]

theorem epFrame_cmdMiss (hs : x.seen.length < 16) : (epFrame l sof res vcap temp g bs x).cmdMiss = x.cmdMiss +
    (if copyOk x bs = false ∧ ∃ c, x.seen.find? (isSeen (bs.getD 1 {}).data.toNat (blkFld bs 3 55 48) (copyFj sof (epSpan x l) bs)) = some c ∧
      c.n = 1 ∧ c.ok = false then 1 else 0) := by
  obtain ⟨-, -, -, -, -, -, -, hm⟩ := epFrame_accepts l sof res vcap temp g x h
  exact hm.trans ((epAccept_seen sof (epSpan x l) bs x).2.trans (epSeen_cmdMiss hs))

/-- What the first good copy of a frame does (R194, R228). -/
theorem epFrame_first (hok : copyOk x bs = true)
    (hnew : epTaken (bs.getD 1 {}).data.toNat (blkFld bs 3 55 48) (copyFj sof (epSpan x l) bs) x = false) :
    let j := (bs.getD 1 {}).data.toNat
    let f := copyFj sof (epSpan x l) bs
    let y := epFrame l sof res vcap temp g bs x
    (x.lastJ = none ∨ x.fj < f → y.lastJ = some j ∧ y.fj = f ∧ y.flen = blkFld bs 3 55 48 ∧ y.lastBgen = BitVec.ofNat 8 (blkFld bs 3 63 56)) ∧
      (x.lastJ ≠ none → f ≤ x.fj → y.lastJ = x.lastJ ∧ y.fj = x.fj ∧ y.flen = x.flen ∧ y.lastBgen = x.lastBgen) ∧
      (∀ p w k, x.pos = some p → w = (if p % 2 = 0 then lo32 (bs.getD (5 + p / 2) {}).data else hi32 (bs.getD (5 + p / 2) {}).data) →
        x.latched = false → slotE j w = some k → fld w 3 0 ≠ 15 →
        sof + 512 * ((6 + blkFld bs 3 47 32 / 2 : Nat) : Int) ≤ heldAt y { epoch := k, slot := w } → { epoch := k, slot := w } ∈ y.held) := by
  intro j f y
  obtain ⟨p, hp⟩ := copyOk_pos hok
  obtain ⟨lg, ez⟩ := epAccept_first hp hok hnew
  obtain ⟨hj, hf, hlen, hb, hh, -⟩ := epFrame_accepts l sof res vcap temp g x h
  rw [ez] at hj hf hlen hb hh
  dsimp only at hj hf hlen hb hh
  obtain ⟨hj', hf', hlen', hb', -⟩ := SameButHeld.time (epHold_held (sof + 512 * ((6 + blkFld bs 3 47 32 / 2 : Nat) : Int)) j (BitVec.ofNat 8 (blkFld bs 3 63 56))
    (if p % 2 = 0 then lo32 (bs.getD (5 + p / 2) {}).data else hi32 (bs.getD (5 + p / 2) {}).data)
    (epNoted j (epTimed j f (blkFld bs 3 55 48) (BitVec.ofNat 8 (blkFld bs 3 63 56)) (epSeen j (blkFld bs 3 55 48) f true x))))
  have tj := hj.trans hj'
  have tf := hf.trans hf'
  have tlen := hlen.trans hlen'
  have tb := hb.trans hb'
  refine ⟨fun hn => ?_, fun hl ho => ?_, fun q w k hq hw hl hs h15 ht => ?_⟩
  · rw [epTimed_newest (x := epSeen j (blkFld bs 3 55 48) f true x) hn] at tj tf tlen tb
    exact ⟨tj, tf, tlen, tb⟩
  · rw [epTimed_older (x := epSeen j (blkFld bs 3 55 48) f true x) hl ho] at tj tf tlen tb
    exact ⟨tj, tf, tlen, tb⟩
  · obtain rfl : p = q := Option.some.inj (hp.symm.trans hq)
    have hat : heldAt y { epoch := k, slot := w } = heldAt (epNoted j _) { epoch := k, slot := w } := heldAt_congr tj tf tlen _
    rw [hh, ← hw]
    exact mem_held_epHold ((epTimed_seen _ _ _ _ _).2.2.trans hl) hs h15 (hat ▸ ht)

end
end

/-- Whatever a copy brings, the pattern stays (R189). -/
theorem epFrame_pattern (l : Lane) (sof : Int) (res vcap temp : Nat) (g : Gap) (bs : List Block) (x : Ep) :
    (epFrame l sof res vcap temp g bs x).pat = x.pat ∧ (epFrame l sof res vcap temp g bs x).lastTrans = x.lastTrans := by
  by_cases h : bs = []
  · subst h
    have e := epFrame_nil l sof res vcap temp g x
    exact ⟨(congrArg (fun y : Ep => y.pat) e :), (congrArg Ep.lastTrans e :)⟩
  · have e := epFrame_sent l sof res vcap temp g x h
    have ea := epAccept_accepted sof (epSpan x l) bs x
    exact ⟨(congrArg (fun y : Ep => y.pat) e :).trans (congrArg (fun y : Ep => y.pat) ea :),
      (congrArg Ep.lastTrans e :).trans (congrArg Ep.lastTrans ea :)⟩

/-! ### Training and maintenance (R208, R224, R233) -/

/-- The position that an unlooped DISCOVER copy gives. -/
def epPlaced (l : Lane) (bs : List Block) (x : Ep) : Ep :=
  if copyLooped bs then x
  else match l with
    | .a => { x with pos := some (blkFld bs 4 31 24), discA := some (bs.getD 1 {}).data.toNat }
    | .b => if x.discA = some (bs.getD 1 {}).data.toNat || x.discA = some ((bs.getD 1 {}).data.toNat - 1) then x
        else { x with pos := some (blkFld bs 3 47 32 - 1 - blkFld bs 4 31 24) }

theorem epPlaced_looped {l : Lane} {bs : List Block} {x : Ep} (h : copyLooped bs = true) : epPlaced l bs x = x := if_pos h

theorem epPlaced_eq (l : Lane) (bs : List Block) (x : Ep) : ∃ p d, epPlaced l bs x = { x with pos := p, discA := d } := by
  have hif (c : Bool) (y z : Ep) (hy : ∃ p d, y = { x with pos := p, discA := d }) (hz : ∃ p d, z = { x with pos := p, discA := d }) :
      ∃ p d, (if c then y else z) = { x with pos := p, discA := d } := by
    cases c
    · exact hz
    · exact hy
  cases l with
  | a => exact hif _ _ _ ⟨_, _, rfl⟩ ⟨_, _, rfl⟩
  | b => exact hif _ _ _ ⟨_, _, rfl⟩ (hif _ _ _ ⟨_, _, rfl⟩ ⟨_, _, rfl⟩)

section
variable (l : Lane) (ident : U64) (res resA resB : Nat) (g : Gap) (x : Ep)

theorem epTrain_nil : SameButGap x (epTrain l ident res resA resB g [] x) := epGap_gap _ _ _ _ _

variable {bs : List Block} (h : bs ≠ [])
include h

theorem epTrain_discover (hd : fld (bs.getD 0 {}).data 15 8 = 2) : ∃ lg lg', SameButGap
    { epPlaced l bs { epCounted l (copyFcrcBad bs) x with fb := bit ident 16, log := lg } with log := lg' } (epTrain l ident res resA resB g bs x) := by
  obtain ⟨lg, e⟩ := epCrcCount_eq x.fj l (copyFcrcBad bs) x
  obtain ⟨t, out, et⟩ : ∃ t out, epTrain l ident res resA resB g bs x =
      epGap l false out g (epLog t (epPlaced l bs { epCrcCount x.fj l (copyFcrcBad bs) x with fb := bit ident 16 })) :=
    ⟨_, _, (if_neg (mt List.isEmpty_iff.1 h)).trans (if_pos hd)⟩
  obtain ⟨lg', el⟩ := epLog_eq t (epPlaced l bs { epCrcCount x.fj l (copyFcrcBad bs) x with fb := bit ident 16 })
  rw [et, el, e]
  exact ⟨lg, lg', epGap_gap _ _ _ _ _⟩

theorem epTrain_measure (hd : fld (bs.getD 0 {}).data 15 8 ≠ 2) : ∃ lg, SameButGap
    { epCounted l (copyFcrcBad bs) x with fb := bit ident 16, log := lg } (epTrain l ident res resA resB g bs x) := by
  obtain ⟨lg, e⟩ := epCrcCount_eq x.fj l (copyFcrcBad bs) x
  obtain ⟨out, et⟩ : ∃ out, epTrain l ident res resA resB g bs x =
      epGap l true out g { epCrcCount x.fj l (copyFcrcBad bs) x with fb := bit ident 16 } :=
    ⟨_, (if_neg (mt List.isEmpty_iff.1 h)).trans (if_neg hd)⟩
  rw [et, e]
  exact ⟨lg, epGap_gap _ _ _ _ _⟩

theorem epTrain_fb : (epTrain l ident res resA resB g bs x).fb = bit ident 16 := by
  by_cases hd : fld (bs.getD 0 {}).data 15 8 = 2
  · obtain ⟨lg, lg', e⟩ := epTrain_discover l ident res resA resB g x h hd
    obtain ⟨p, d, ep⟩ := epPlaced_eq l bs { epCounted l (copyFcrcBad bs) x with fb := bit ident 16, log := lg }
    rw [ep] at e
    exact (congrArg Ep.fb e :)
  · obtain ⟨lg, e⟩ := epTrain_measure l ident res resA resB g x h hd
    exact (congrArg Ep.fb e :)

/-- An unlooped DISCOVER copy gives the position (R208). -/
theorem epTrain_placed (hd : fld (bs.getD 0 {}).data 15 8 = 2) (hl : copyLooped bs = false) :
    let y := epTrain l ident res resA resB g bs x
    let j := (bs.getD 1 {}).data.toNat
    (l = .a → y.pos = some (blkFld bs 4 31 24) ∧ y.discA = some j) ∧
      (l = .b → y.pos = if x.discA = some j ∨ x.discA = some (j - 1) then x.pos else some (blkFld bs 3 47 32 - 1 - blkFld bs 4 31 24)) := by
  intro y j
  obtain ⟨lg, lg', e⟩ := epTrain_discover l ident res resA resB g x h hd
  unfold epPlaced at e
  rw [hl] at e
  refine ⟨fun ha => ?_, fun hb => ?_⟩
  · subst ha
    exact ⟨(congrArg (fun y : Ep => y.pos) e :), (congrArg Ep.discA e :)⟩
  · subst hb
    refine (congrArg (fun y : Ep => y.pos) e :).trans ?_
    simp only [Bool.false_eq_true, if_false, Bool.or_eq_true, decide_eq_true_eq, epCounted]
    split <;> rfl

/-- Another training frame leaves the position. -/
theorem epTrain_unplaced (hd : ¬ (fld (bs.getD 0 {}).data 15 8 = 2 ∧ copyLooped bs = false)) :
    (epTrain l ident res resA resB g bs x).pos = x.pos := by
  by_cases h2 : fld (bs.getD 0 {}).data 15 8 = 2
  · obtain ⟨lg, lg', e⟩ := epTrain_discover l ident res resA resB g x h h2
    rw [epPlaced_looped (Bool.eq_true_of_not_eq_false fun hl => hd ⟨h2, hl⟩)] at e
    exact (congrArg (fun y : Ep => y.pos) e :)
  · obtain ⟨lg, e⟩ := epTrain_measure l ident res resA resB g x h h2
    exact (congrArg (fun y : Ep => y.pos) e :)

end

/-- What no training frame touches. -/
theorem epTrain_leaves (l : Lane) (ident : U64) (res resA resB : Nat) (g : Gap) (bs : List Block) (x : Ep) :
    let y := epTrain l ident res resA resB g bs x
    y.pat = x.pat ∧ y.banks = x.banks ∧ y.fwVer = x.fwVer ∧ y.ovLimit = x.ovLimit := by
  intro y
  obtain ⟨p, d, f, ca, cb, lg, e⟩ : ∃ p d f ca cb lg, SameButGap { x with pos := p, discA := d, fb := f, crcA := ca, crcB := cb, log := lg } y := by
    by_cases h : bs = []
    · subst h
      exact ⟨_, _, _, _, _, _, epTrain_nil l ident res resA resB g x⟩
    by_cases hd : fld (bs.getD 0 {}).data 15 8 = 2
    · obtain ⟨lg, lg', e⟩ := epTrain_discover l ident res resA resB g x h hd
      obtain ⟨p, d, ep⟩ := epPlaced_eq l bs { epCounted l (copyFcrcBad bs) x with fb := bit ident 16, log := lg }
      rw [ep] at e
      exact ⟨_, _, _, _, _, _, e⟩
    · obtain ⟨lg, e⟩ := epTrain_measure l ident res resA resB g x h hd
      exact ⟨_, _, _, _, _, _, e⟩
  exact ⟨(congrArg (fun y : Ep => y.pat) e :), (congrArg (fun y : Ep => y.banks) e :), (congrArg (fun y : Ep => y.fwVer) e :),
    (congrArg (fun y : Ep => y.ovLimit) e :)⟩

theorem epMaint_refused {m : EpMaint} {x : Ep} (h : x.lastJ ≠ none) (hs : x.selfBlk = false) : epMaint m x = x := by
  unfold epMaint
  rw [if_pos (by simpa [Option.isSome_iff_ne_none, hs] using h)]

/-- Maintenance sets the banks, the firmware version and the overvoltage limit. -/
theorem epMaint_taken {m : EpMaint} {x : Ep} (h : x.lastJ = none ∨ x.selfBlk = true) : ∃ bk,
    epMaint m x = { x with banks := bk, fwVer := m.fw.getD x.fwVer, ovLimit := m.ov.getD x.ovLimit } ∧ (m.banks = [] → bk = x.banks) ∧
      ∀ b d c, m.banks = [(b, some (d, c))] → tget (if b.val = 0 then some (0, 0) else none) bk b = some (d.toNat, c.val) := by
  unfold epMaint
  refine ⟨_, if_neg ?_, fun hb => by rw [hb]; rfl, fun b d c hb => ?_⟩
  · rcases h with h | h <;> simp [h]
  · rw [hb]
    exact tget_tset_same _ _ _ _

/-- Maintenance leaves all else of an endpoint. -/
theorem epMaint_eq (m : EpMaint) (x : Ep) : ∃ bk fw ov, epMaint m x = { x with banks := bk, fwVer := fw, ovLimit := ov } := by
  by_cases h : x.lastJ = none ∨ x.selfBlk = true
  · obtain ⟨bk, e, -⟩ := epMaint_taken (m := m) h
    exact ⟨bk, _, _, e⟩
  · obtain ⟨hj, hs⟩ := not_or.1 h
    exact ⟨x.banks, x.fwVer, x.ovLimit, epMaint_refused hj (Bool.eq_false_of_not_eq_true hs)⟩

/-- A training frame, with the maintenance that comes with it. -/
theorem epDiscover_takes (l : Lane) (ident : U64) (res resA resB : Nat) (m : EpMaint) (g : Gap) (bs : List Block) (x : Ep) :
    let y := epTrain l ident res resA resB g bs (epMaint m x)
    let hops := blkFld bs 4 31 24
    let j := (bs.getD 1 {}).data.toNat
    let unlooped : Prop := bs ≠ [] ∧ fld (bs.getD 0 {}).data 15 8 = 2 ∧ copyLooped bs = false
    y.pat = x.pat ∧ (bs ≠ [] → y.fb = bit ident 16) ∧
      (¬ unlooped → y.pos = x.pos) ∧ (unlooped → l = .a → y.pos = some hops ∧ y.discA = some j) ∧
      (unlooped → l = .b → y.pos = if x.discA = some j ∨ x.discA = some (j - 1) then x.pos else some (blkFld bs 3 47 32 - 1 - hops)) ∧
      (x.lastJ ≠ none → x.selfBlk = false → y.banks = x.banks ∧ y.fwVer = x.fwVer ∧ y.ovLimit = x.ovLimit) ∧
      (x.lastJ = none ∨ x.selfBlk = true → y.fwVer = m.fw.getD x.fwVer ∧ y.ovLimit = m.ov.getD x.ovLimit ∧
        (m.banks = [] → y.banks = x.banks) ∧
        ∀ b d c, m.banks = [(b, some (d, c))] → epBank y.toEpView b = some (d.toNat, c.val)) := by
  intro y hops j unlooped
  obtain ⟨hpat, hbanks, hfw, hov⟩ := epTrain_leaves l ident res resA resB g bs (epMaint m x)
  obtain ⟨bk, fw, ov, e⟩ := epMaint_eq m x
  have mpos : (epMaint m x).pos = x.pos := by rw [e]
  have mdisc : (epMaint m x).discA = x.discA := by rw [e]
  have mpat : (epMaint m x).pat = x.pat := by rw [e]
  refine ⟨hpat.trans mpat, epTrain_fb l ident res resA resB g _, fun hu => ?_, fun hu => ?_, fun hu hl => ?_, fun hj hs => ?_, fun h => ?_⟩
  · by_cases hb : bs = []
    · have hgap := epTrain_nil l ident res resA resB g (epMaint m x)
      dsimp only [y]
      rw [hb]
      exact (congrArg (fun z : Ep => z.pos) hgap :).trans mpos
    · exact (epTrain_unplaced l ident res resA resB g _ hb fun h => hu ⟨hb, h⟩).trans mpos
  · exact (epTrain_placed l ident res resA resB g _ hu.1 hu.2.1 hu.2.2).1
  · have hp := (epTrain_placed l ident res resA resB g (epMaint m x) hu.1 hu.2.1 hu.2.2).2 hl
    rwa [mpos, mdisc] at hp
  · have e := epMaint_refused (m := m) hj hs
    exact ⟨hbanks.trans (by rw [e]), hfw.trans (by rw [e]), hov.trans (by rw [e])⟩
  · obtain ⟨bk, em, hnil, hone⟩ := epMaint_taken (m := m) h
    have hb : y.banks = bk := hbanks.trans (by rw [em])
    refine ⟨hfw.trans (by rw [em]), hov.trans (by rw [em]), fun hm => hb.trans (hnil hm), fun b d c hm => ?_⟩
    unfold epBank
    rw [hb]
    exact hone b d c hm

/-! ### Transitions (R230 to R232, R242) -/

theorem epTransition_eq (t : Int) (target : Nat) (x : Ep) : ∃ lx ly rf lt sw lg, epTransition t target x =
    { x with pat := target, moved := none, legX := lx, legY := ly, retiredFrom := rf, lastTrans := lt, sw := sw, log := lg } := by
  unfold epTransition
  dsimp only
  split
  · obtain ⟨lg, e⟩ := epLog_eq t _
    exact ⟨_, _, _, _, _, lg, e⟩
  · obtain ⟨lg, e⟩ := epLog_eq t _
    exact ⟨_, _, _, _, _, lg, e⟩

/-- A change of pattern is a transition, which counts. -/
theorem epTransition_switches {t : Int} {target : Nat} {x : Ep} (h : samePat x.pat target = false) : ∃ ly rf lg, epTransition t target x =
    { x with pat := target, moved := none, legY := ly, retiredFrom := rf, log := lg, lastTrans := some t, sw := x.sw + 1,
             legX := legTurn t (32 * ((epBank x.toEpView x.bank).getD (0, 0)).1 : Nat) (patLegs x.fb target).1 x.legX } := by
  unfold epTransition
  dsimp only
  rw [h]
  obtain ⟨lg, e⟩ := epLog_eq t _
  exact ⟨_, _, lg, e⟩

/-- A leg that is off turns on at once. -/
theorem legTurn_off {t dead : Int} {w : Nat} (h : w ≠ 0) : legTurn t dead w {} = { on := w } := by
  simp [legTurn, legOn, h, Ne.symm h]

/-- BYP and the first state of insertion turn on the switch of leg X that has their state's number. -/
theorem patLegs_of_state {fb : Bool} {st : Nat} (h : st = 1 ∨ st = 2) : (patLegs fb (st - 1)).1 = st := by
  rcases h with rfl | rfl <;> rfl

theorem epMove_free {t : Int} {target : Nat} {x : Ep} {bk : Nat × Nat} (hb : epBank x.toEpView x.bank = some bk)
    (h : x.lastTrans = none ∨ ∃ p, x.lastTrans = some p ∧ p + 6400 * (bk.2 : Int) ≤ t) : epMove t target x = epTransition t target x := by
  unfold epMove
  rw [hb]
  rcases h with h | ⟨p, hp, ht⟩
  · rw [h]
  · rw [hp]
    exact if_neg (by simp [not_lt.2 ht])

/-- A transition that would come too early is moved (R232). -/
theorem epMove_early {t p : Int} {target : Nat} {x : Ep} {bk : Nat × Nat} (hb : epBank x.toEpView x.bank = some bk) (hp : x.lastTrans = some p)
    (hs : samePat x.pat target = false) (h3 : target ≠ 3) (ht : t < p + 6400 * (bk.2 : Int)) : ∃ lg, epMove t target x =
      { x with moved := some (p + 6400 * (bk.2 : Int), target), dwellAdj := x.dwellAdj + 1, anoms := x.anoms + 1, log := lg } := by
  unfold epMove
  rw [hb, hp]
  dsimp only [Option.getD_some]
  rw [if_pos (by simp [hs, h3, ht])]
  exact epLog_eq _ _

/-! ### The slot of an effect instant (R230, R234) -/

section
variable {t : Int} {w : U32} {x : Ep}

theorem epCarry_nothing (h : fld w 3 0 = 0 ∨ epObeys x (fld w 3 0) = false) : epCarry t w x = x :=
  if_pos (by simpa using h)

section
variable (ho : epObeys x (fld w 3 0) = true)
include ho

theorem epCarry_blk (h : fld w 3 0 = 4) (hb : epBank x.toEpView (fld w 27 24) ≠ none) :
    epCarry t w x = epTransition t 3 { x with bank := fld w 27 24 } := by
  have hn : (epBank x.toEpView (fld w 27 24)).isNone = false := Option.isNone_eq_false_iff.2 (Option.isSome_iff_ne_none.2 hb)
  rw [h] at ho
  unfold epCarry
  simp [h, ho, hn]

/-- Of a blocked endpoint BYP and the first state of insertion are commanded transitions. -/
theorem epCarry_switches (h : fld w 3 0 = 1 ∨ fld w 3 0 = 2) {bk : Nat × Nat} (hb : epBank x.toEpView (fld w 27 24) = some bk) (hp : x.pat = 3) :
    epCarry t w x = epMove t (fld w 3 0 - 1) { x with bank := fld w 27 24 } := by
  have hn : (epBank x.toEpView (fld w 27 24)).isNone = false := by rw [hb]; rfl
  unfold epCarry
  rcases h with h | h
  · rw [h] at ho
    simp [h, ho, hn]
  · rw [h] at ho
    simp [h, ho, hn, hp]

end
end

/-! ### The next instant (R228, R244) -/

theorem heldFirst_mem {x : Ep} {h : HeldCmd} {l : List HeldCmd} (hf : heldFirst x l = some h) : h ∈ l := by
  induction l generalizing h with
  | nil => cases hf
  | cons g l ih =>
    unfold heldFirst at hf
    split at hf
    · exact Option.some.inj hf ▸ List.mem_cons_self
    · next k hk =>
      split at hf
      · exact Option.some.inj hf ▸ List.mem_cons_of_mem _ (ih hk)
      · exact Option.some.inj hf ▸ List.mem_cons_self

/-- Of held commands the one whose instant lies before that of every other is the first. -/
theorem heldFirst_of_first {x : Ep} {h : HeldCmd} {l : List HeldCmd} (hm : h ∈ l) (hf : ∀ g ∈ l, g ≠ h → heldAt x h < heldAt x g) :
    heldFirst x l = some h := by
  induction l with
  | nil => cases hm
  | cons g l ih =>
    unfold heldFirst
    by_cases hl : h ∈ l
    · rw [ih hl fun k hk => hf k (List.mem_cons_of_mem _ hk)]
      by_cases hg : g = h
      · simp [hg]
      · simp [hf g List.mem_cons_self hg]
    · obtain rfl : h = g := (List.mem_cons.1 hm).resolve_right hl
      cases hk : heldFirst x l with
      | none => rfl
      | some k =>
        have hkl := heldFirst_mem hk
        have hlt := hf k (List.mem_cons_of_mem _ hkl) fun e => hl (e ▸ hkl)
        simp [not_lt.2 hlt.le]

theorem epInstant_none {x : Ep} (hm : x.moved = none) (hh : x.held = []) : epInstant x = x := by
  simp only [epInstant, hm, hh, heldFirst]

theorem epInstant_moved {x : Ep} {m : Int × Nat} (hm : x.moved = some m) (hh : ∀ h ∈ x.held, m.1 ≤ heldAt x h) :
    epInstant x = takeMoved m x := by
  unfold epInstant
  rw [hm]
  cases hf : heldFirst x x.held with
  | none => rfl
  | some h => exact if_pos (hh h (heldFirst_mem hf))

theorem epInstant_held {x : Ep} {h : HeldCmd} (hm : x.moved = none) (hh : h ∈ x.held) (hf : ∀ g ∈ x.held, g ≠ h → heldAt x h < heldAt x g) :
    epInstant x = takeHeld h x := by
  simp only [epInstant, hm, heldFirst_of_first hh hf]

theorem pastSelfBlock_eq_false {x : Ep} {t : Int} (h : x.selfBlk = true ∨ t < selfBlockAt x) : pastSelfBlock x t = false := by
  rcases h with h | h
  · simp [pastSelfBlock, h]
  · simp [pastSelfBlock, not_le.2 h]

theorem pastSelfBlock_eq_true {x : Ep} {t : Int} (hs : x.selfBlk = false) (h : selfBlockAt x ≤ t) : pastSelfBlock x t = true := by
  simp [pastSelfBlock, hs, h]

theorem takeMoved_in_time {x : Ep} {m : Int × Nat} (h : x.selfBlk = true ∨ m.1 < selfBlockAt x) :
    takeMoved m x = epTransition m.1 m.2 { x with moved := none } := by
  simp only [takeMoved, pastSelfBlock_eq_false h, Bool.false_eq_true, if_false]

theorem takeMoved_late {x : Ep} {m : Int × Nat} (hs : x.selfBlk = false) (h : selfBlockAt x ≤ m.1) : takeMoved m x = x :=
  if_pos (pastSelfBlock_eq_true hs h)

theorem takeHeld_in_time {x : Ep} {h : HeldCmd} (ht : x.selfBlk = true ∨ heldAt x h < selfBlockAt x) :
    takeHeld h x = epCarry (heldAt x h) h.slot { x with held := x.held.filter (fun g => g.epoch != h.epoch) } := by
  simp only [takeHeld, pastSelfBlock_eq_false ht, Bool.false_eq_true, if_false]

theorem takeHeld_late {x : Ep} {h : HeldCmd} (hs : x.selfBlk = false) (ht : selfBlockAt x ≤ heldAt x h) : takeHeld h x = x :=
  if_pos (pastSelfBlock_eq_true hs ht)

/-- What a held command that takes effect in time does to the endpoint. -/
theorem takeHeld_effect {x : Ep} {h : HeldCmd} (ht : x.selfBlk = true ∨ heldAt x h < selfBlockAt x) :
    let st := fld h.slot 3 0
    let b := fld h.slot 27 24
    let i := heldAt x h
    let rest := x.held.filter (fun g => g.epoch != h.epoch)
    let y := takeHeld h x
    (st = 0 ∨ epObeys x st = false → y = { x with held := rest }) ∧
      (st = 4 → epObeys x st = true → epBank x.toEpView b ≠ none → y.pat = 3 ∧ y.bank = b ∧ y.held = rest) ∧
      (∀ bk, (st = 1 ∨ st = 2) → epObeys x st = true → epBank x.toEpView b = some bk → x.pat = 3 →
        ((x.lastTrans = none ∨ ∃ p, x.lastTrans = some p ∧ p + 6400 * (bk.2 : Int) ≤ i) →
          y.pat = st - 1 ∧ y.lastTrans = some i ∧ y.sw = x.sw + 1 ∧ y.held = rest ∧ (x.legX = {} → y.legX = { on := st })) ∧
        (∀ p, x.lastTrans = some p → i < p + 6400 * (bk.2 : Int) →
          y.pat = 3 ∧ y.moved = some (p + 6400 * (bk.2 : Int), st - 1) ∧ y.dwellAdj = x.dwellAdj + 1 ∧ y.anoms = x.anoms + 1 ∧ y.held = rest)) := by
  intro st b i rest y
  have hy : y = epCarry i h.slot { x with held := rest } := takeHeld_in_time ht
  have hsame (hst : st = 1 ∨ st = 2) (hp : x.pat = 3) (bk : Nat) : samePat ({ x with held := rest, bank := bk } : Ep).pat (st - 1) = false := by
    rcases hst with hst | hst <;> simp [samePat, hp, hst]
  refine ⟨fun hn => hy.trans (epCarry_nothing hn), fun h4 ho hb => ?_, fun bk hst ho hb hp => ⟨fun hl => ?_, fun p hl hi => ?_⟩⟩
  · obtain ⟨lx, ly, rf, lt, sw, lg, e⟩ := epTransition_eq i 3 { x with held := rest, bank := b }
    rw [hy, epCarry_blk (x := { x with held := rest }) ho h4 hb, e]
    exact ⟨rfl, rfl, rfl⟩
  · obtain ⟨ly, rf, lg, e⟩ := epTransition_switches (t := i) (hsame hst hp b)
    rw [hy, epCarry_switches (x := { x with held := rest }) ho hst hb hp, epMove_free (x := { x with held := rest, bank := b }) hb hl, e]
    refine ⟨rfl, rfl, rfl, rfl, fun hx => ?_⟩
    dsimp only
    rw [hx, patLegs_of_state hst]
    exact legTurn_off (by omega)
  · have h3 : st - 1 ≠ 3 := by omega
    obtain ⟨lg, e⟩ := epMove_early (x := { x with held := rest, bank := b }) hb hl (hsame hst hp b) h3 hi
    rw [hy, epCarry_switches (x := { x with held := rest }) ho hst hb hp, e]
    exact ⟨hp, rfl, rfl, rfl, rfl⟩

/-! ### The block symbol (R191, R205) -/

theorem epBlock_eq (t : Int) (x : Ep) : ∃ lx ly rf lt sw lg, epBlock t x =
    { x with held := [], pat := 3, moved := none, legX := lx, legY := ly, retiredFrom := rf, lastTrans := lt, sw := sw, log := lg } :=
  epTransition_eq t 3 { x with held := [], moved := none }

/-- The latch that a block symbol sets at an endpoint that was `was` and is `x` now: its own BGEN where it is intact, and else that of the
newest frame. -/
def epLatch (was : Ep) (intact fresh : Bool) (bgen : U8) (x : Ep) : Ep :=
  if intact then
    if was.latched && !was.leave && was.latchBgen == bgen then x
    else { x with latched := true, leave := false, latchBgen := bgen, accLatched := false }
  else if was.latched && !fresh then x
  else if was.lastJ.isNone then x
  else { x with latched := true, leave := true, accLatched := false,
                latchBgen := if was.latched && !was.accLatched then was.latchBgen else was.lastBgen }

theorem epBlksym_eq (t : Int) (data : BitVec 56) (fresh : Bool) (x : Ep) : epBlksym t data fresh x =
    epLog t (epLatch x (decide (fld data 55 8 = 0xA55AA55AA55A)) fresh (BitVec.ofNat 8 (fld data 7 0))
      (sendBoth (ctl (0xD2 + data.toNat * 2 ^ 8)) (epBlock t x))) := rfl

theorem epLatch_eq (was : Ep) (intact fresh : Bool) (bgen : U8) (x : Ep) : ∃ lt lv lb al, epLatch was intact fresh bgen x =
    { x with latched := lt, leave := lv, latchBgen := lb, accLatched := al } := by
  unfold epLatch
  split_ifs
  all_goals exact ⟨_, _, _, _, rfl⟩

/-- An intact block symbol latches its BGEN. -/
theorem epLatch_intact {was x : Ep} (hl : x.latched = was.latched) (hv : x.leave = was.leave) (hb : x.latchBgen = was.latchBgen) (fresh : Bool)
    (bgen : U8) : let y := epLatch was true fresh bgen x
    y.latched = true ∧ y.leave = false ∧ y.latchBgen = bgen := by
  unfold epLatch
  dsimp only
  rw [if_pos rfl]
  split
  · next h =>
    simp only [Bool.and_eq_true, Bool.not_eq_true', beq_iff_eq] at h
    obtain ⟨⟨h1, h2⟩, h3⟩ := h
    exact ⟨hl.trans h1, hv.trans h2, hb.trans h3⟩
  · exact ⟨rfl, rfl, rfl⟩

/-- A damaged one latches an endpoint until the BGEN changes from that of the newest frame. -/
theorem epLatch_damaged {was : Ep} (hl : was.latched = false) (hj : was.lastJ ≠ none) (fresh : Bool) (bgen : U8) (x : Ep) :
    let y := epLatch was false fresh bgen x
    y.latched = true ∧ y.leave = true ∧ y.latchBgen = was.lastBgen := by
  have hn : was.lastJ.isNone = false := Option.isNone_eq_false_iff.2 (Option.isSome_iff_ne_none.2 hj)
  simp [epLatch, hl, hn]

/-- A block symbol blocks, latches and goes out. -/
theorem epBlksym_blocks (t : Int) (data : BitVec 56) (fresh : Bool) (x : Ep) :
    let y := epBlksym t data fresh x
    let intact : Prop := fld data 55 8 = 0xA55AA55AA55A
    let b := ctl (0xD2 + data.toNat * 2 ^ 8)
    y.pat = 3 ∧ y.held = [] ∧ y.moved = none ∧ y.outA = (if silentLane x .a then [] else [b]) ∧
      y.outB = (if silentLane x .b then [] else [b]) ∧
      (intact → y.latched = true ∧ y.leave = false ∧ y.latchBgen = BitVec.ofNat 8 (fld data 7 0)) ∧
      (¬ intact → x.latched = false → x.lastJ ≠ none → y.latched = true ∧ y.leave = true ∧ y.latchBgen = x.lastBgen) := by
  intro y intact b
  obtain ⟨lx, ly, rf, lt, sw, lg, eb⟩ := epBlock_eq t x
  have hy : y = epLog t (epLatch x (decide intact) fresh (BitVec.ofNat 8 (fld data 7 0)) (sendBoth b (epBlock t x))) := epBlksym_eq t data fresh x
  generalize hz : sendBoth b (epBlock t x) = z at hy
  obtain ⟨lg', el⟩ := epLog_eq t (epLatch x (decide intact) fresh (BitVec.ofNat 8 (fld data 7 0)) z)
  obtain ⟨la, lv, lb, al, ea⟩ := epLatch_eq x (decide intact) fresh (BitVec.ofNat 8 (fld data 7 0)) z
  rw [eb] at hz
  rw [el] at hy
  have hfields : y.pat = z.pat ∧ y.held = z.held ∧ y.moved = z.moved ∧ y.outA = z.outA ∧ y.outB = z.outB := by
    rw [hy, ea]
    exact ⟨rfl, rfl, rfl, rfl, rfl⟩
  obtain ⟨hp, hh, hm, ha, hb⟩ := hfields
  refine ⟨hp.trans ?_, hh.trans ?_, hm.trans ?_, ha.trans ?_, hb.trans ?_, fun hi => ?_, fun hi hl hj => ?_⟩
  · rw [← hz]; rfl
  · rw [← hz]; rfl
  · rw [← hz]; rfl
  · rw [← hz]; rfl
  · rw [← hz]; rfl
  · rw [hy, decide_eq_true hi]
    exact epLatch_intact (by rw [← hz]; rfl) (by rw [← hz]; rfl) (by rw [← hz]; rfl) _ _
  · rw [hy, decide_eq_false hi]
    exact epLatch_damaged hl hj _ _ _

/-! ### Self-block and local faults (R240, R243) -/

theorem epSelfBlock_none {x : Ep} (h : x.lastJ = none ∨ x.selfBlk = true) : epSelfBlock x = x :=
  if_pos (by simpa using h)

/-- The self-block drops what is held, and keeps the retired bypass. -/
theorem epSelfBlock_blocks {x : Ep} (hj : x.lastJ ≠ none) (hs : x.selfBlk = false) : let y := epSelfBlock x
    y.pat = (if x.pat = 4 then 4 else 3) ∧ y.selfBlk = true ∧ y.acc = [] ∧ y.sbCnt = x.sbCnt + 1 ∧ y.held = [] ∧ y.moved = none := by
  have hn : ¬ (x.lastJ.isNone || x.selfBlk) = true := by simp [hj, hs]
  obtain ⟨lx, ly, rf, lt, sw, lg, eb⟩ := epBlock_eq (selfBlockAt x) x
  obtain ⟨lg', el⟩ := epLog_eq (selfBlockAt x) { (if x.pat = 4 then { x with held := [], moved := none } else epBlock (selfBlockAt x) x) with
    selfBlk := true, acc := [], sbCnt := x.sbCnt + 1 }
  have hy : epSelfBlock x = _ := (if_neg hn).trans el
  intro y
  rw [show y = _ from hy]
  split
  · next h4 => exact ⟨h4, rfl, rfl, rfl, rfl, rfl⟩
  · rw [eb]
    exact ⟨rfl, rfl, rfl, rfl, rfl, rfl⟩

theorem epFault_blocks (t : Int) (cause : U16) (byp mech rising : Bool) (x : Ep) : let y := epFault t cause byp mech rising x
    y.pat = 3 ∧ y.held = [] ∧ y.fault = true ∧ y.canBypass = (byp && (x.canBypass || !x.fault)) ∧
      (mech = true → y.canBypass = false ∨ rising = true → y.cause = x.cause ||| cause ||| 0x20) ∧
      (mech = false ∨ y.canBypass = true ∧ rising = false → y.cause = x.cause ||| cause) := by
  intro y
  obtain ⟨lx, ly, rf, lt, sw, lg, eb⟩ := epBlock_eq t x
  have hy : ∃ lg, y = { epBlock t x with
      fault := true, canBypass := byp && (x.canBypass || !x.fault), log := lg,
      cause := x.cause ||| cause ||| (if mech && (!(byp && (x.canBypass || !x.fault)) || rising) then 0x20 else 0) } := epLog_eq t _
  obtain ⟨lg', hy⟩ := hy
  rw [eb] at hy
  rw [hy]
  refine ⟨rfl, rfl, rfl, rfl, fun hm hc => ?_, fun hc => ?_⟩
  · have hclosed : (mech && (!(byp && (x.canBypass || !x.fault)) || rising)) = true := by
      rw [hm, Bool.true_and, Bool.or_eq_true, Bool.not_eq_true']
      exact hc
    exact congrArg (x.cause ||| cause ||| ·) (if_pos hclosed)
  · have hopen : ¬ (mech && (!(byp && (x.canBypass || !x.fault)) || rising)) = true := by
      rcases hc with hc | ⟨hc, hr⟩
      · rw [hc, Bool.false_and]
        exact Bool.false_ne_true
      · rw [show (byp && (x.canBypass || !x.fault)) = true from hc, hr, Bool.not_true, Bool.or_false, Bool.and_false]
        exact Bool.false_ne_true
    exact (congrArg (x.cause ||| cause ||| ·) (if_neg hopen)).trans BitVec.or_zero

/-- A fault clears after an epoch in the retired bypass. -/
theorem epFaultClear_clears {t r : Int} {x : Ep} (hr : x.retiredFrom = some r) (hf : x.fault = true) (hp : x.pat = 4) (ht : r + epL x.flen ≤ t) :
    let y := epFaultClear t x
    y.fault = false ∧ y.cause = x.cause &&& 0x20 ∧ y.canBypass = true ∧ y.pat = 4 := by
  obtain ⟨lg, e⟩ : ∃ lg, epFaultClear t x = { x with fault := false, cause := x.cause &&& 0x20, canBypass := true, log := lg } := by
    unfold epFaultClear
    rw [hr]
    dsimp only
    rw [if_pos (by simp [hf, hp, ht])]
    exact epLog_eq t _
  intro y
  rw [show y = _ from e]
  exact ⟨rfl, rfl, rfl, hp⟩

theorem epFaultClear_kept {t : Int} {x : Ep}
    (h : x.retiredFrom = none ∨ x.fault = false ∨ x.pat ≠ 4 ∨ ∃ r, x.retiredFrom = some r ∧ t < r + epL x.flen) : epFaultClear t x = x := by
  unfold epFaultClear
  cases hr : x.retiredFrom with
  | none => rfl
  | some r =>
    refine if_neg ?_
    simp only [hr, reduceCtorEq, false_or, Option.some.injEq, exists_eq_left'] at h
    rcases h with h | h | h <;> simp [h]

/-! ### Loops (R187, R207, R210, R211) -/

/-- Input `l` has lost its lock. -/
def lockLost (l : Lane) (x : Ep) : Ep := match l with | .a => { x with lockA := false } | .b => { x with lockB := false }

theorem lockLost_fields (l : Lane) (x : Ep) : let y := lockLost l x
    y.pat = x.pat ∧ y.looped = x.looped ∧ y.side = x.side ∧ y.loopTick = x.loopTick ∧ (l = .a → y.lockA = false) ∧ (l = .b → y.lockB = false) := by
  cases l <;> simp [lockLost]

theorem epInputLoss_looped {l : Lane} {x : Ep} (h : x.looped = true) (t : Nat) : ∃ lg, epInputLoss l t x = { lockLost l x with log := lg } := by
  obtain ⟨lg, e⟩ := epLog_eq t (lockLost l x)
  exact ⟨lg, (if_pos ((lockLost_fields l x).2.1.trans h)).trans e⟩

/-- An endpoint that begins to loop silences its output towards the lost neighbour. -/
theorem epInputLoss_unlooped {l : Lane} {x : Ep} (h : x.looped = false) (t : Nat) : ∃ lg, epInputLoss l t x =
    { setResp (otherLane l) none (epSend (otherLane l) [] (lockLost l x)) with
      looped := true, side := decide (l = Lane.a), loopTick := t / 256, log := lg } := by
  obtain ⟨lg, e⟩ := epLog_eq t { setResp (otherLane l) none (epSend (otherLane l) [] (lockLost l x)) with
    looped := true, side := decide (l = Lane.a), loopTick := t / 256 }
  exact ⟨lg, (if_neg (by rw [← Bool.not_eq_true] at h; exact mt (lockLost_fields l x).2.1.symm.trans h)).trans e⟩

theorem epInputLoss_loops (l : Lane) (t : Nat) (x : Ep) : let y := epInputLoss l t x
    y.pat = x.pat ∧ y.looped = true ∧ (l = .a → y.lockA = false) ∧ (l = .b → y.lockB = false) ∧
      (x.looped = false → y.side = decide (l = Lane.a) ∧ y.loopTick = t / 256 ∧ (l = .a → y.outB = []) ∧ (l = .b → y.outA = [])) ∧
      (x.looped = true → y.side = x.side ∧ y.loopTick = x.loopTick) := by
  intro y
  obtain ⟨hp, hl, hs, ht, ha, hb⟩ := lockLost_fields l x
  cases h : x.looped with
  | true =>
    obtain ⟨lg, e⟩ := epInputLoss_looped (l := l) h t
    rw [show y = _ from e]
    exact ⟨hp, hl.trans h, ha, hb, nofun, fun _ => ⟨hs, ht⟩⟩
  | false =>
    obtain ⟨lg, e⟩ := epInputLoss_unlooped (l := l) h t
    rw [show y = _ from e]
    cases l with
    | a => exact ⟨rfl, rfl, fun _ => rfl, nofun, fun _ => ⟨rfl, rfl, fun _ => rfl, nofun⟩, nofun⟩
    | b => exact ⟨rfl, rfl, nofun, fun _ => rfl, fun _ => ⟨rfl, rfl, nofun, fun _ => rfl⟩, nofun⟩

/-- The endpoint that UNLOOP finds on an input: one that looped loops no more where its lost input has lock again, and else anew. -/
def epUnlooped (locked : Bool) (t : Nat) (x : Ep) : Ep :=
  if !x.looped then x
  else if locked then { (if x.side then { x with lockA := true } else { x with lockB := true }) with looped := false }
  else { x with loopTick := t / 256 }

/-- UNLOOP goes on in either case. -/
theorem epUnloop_eq (l : Lane) (locked : Bool) (t : Nat) (x : Ep) : ∃ lg, epUnloop l locked t x =
    { epSend (outLane (epUnlooped locked t x) l) [ctl 0x55] (epUnlooped locked t x) with log := lg } := epLog_eq t _

theorem epSend_out (o : Lane) (bs : List Block) (x : Ep) (lg : List (Int × EpView)) :
    let y := { epSend o bs x with log := lg }
    (match o with | .a => y.outA | .b => y.outB) = bs ∧ (∀ l, outLane y l = outLane x l) ∧ y.pat = x.pat ∧ y.looped = x.looped ∧
      y.side = x.side ∧ y.loopTick = x.loopTick ∧ y.lockA = x.lockA ∧ y.lockB = x.lockB := by
  cases o <;> exact ⟨rfl, fun _ => rfl, rfl, rfl, rfl, rfl, rfl, rfl⟩

theorem epUnlooped_fields (locked : Bool) (t : Nat) (x : Ep) : let y := epUnlooped locked t x
    y.pat = x.pat ∧ (x.looped = false → y.looped = false ∧ y.loopTick = x.loopTick) ∧
      (x.looped = true → locked = true → y.looped = false ∧ (x.side = true → y.lockA = true) ∧ (x.side = false → y.lockB = true)) ∧
      (x.looped = true → locked = false → y.looped = true ∧ y.side = x.side ∧ y.loopTick = t / 256) := by
  unfold epUnlooped
  cases hl : x.looped with
  | false => exact ⟨rfl, fun _ => ⟨hl, rfl⟩, nofun, nofun⟩
  | true =>
    cases locked with
    | false => exact ⟨rfl, nofun, nofun, fun _ _ => ⟨hl, rfl, rfl⟩⟩
    | true => cases hs : x.side <;> simp

theorem epUnloop_passes (l : Lane) (locked : Bool) (t : Nat) (x : Ep) : let y := epUnloop l locked t x
    y.pat = x.pat ∧ (match outLane y l with | .a => y.outA | .b => y.outB) = [ctl 0x55] ∧
      (x.looped = false → y.looped = false ∧ y.loopTick = x.loopTick) ∧
      (x.looped = true → locked = true → y.looped = false ∧ (x.side = true → y.lockA = true) ∧ (x.side = false → y.lockB = true)) ∧
      (x.looped = true → locked = false → y.looped = true ∧ y.side = x.side ∧ y.loopTick = t / 256) := by
  intro y
  obtain ⟨lg, e⟩ := epUnloop_eq l locked t x
  obtain ⟨hout, hlane, hp, hl, hs, ht, ha, hb⟩ := epSend_out (outLane (epUnlooped locked t x) l) [ctl 0x55] (epUnlooped locked t x) lg
  rw [← e] at hout hlane hp hl hs ht ha hb
  dsimp only [y]
  rw [hlane, hp, hl, hs, ht, ha, hb]
  obtain ⟨up, uf, ul, ua⟩ := epUnlooped_fields locked t x
  exact ⟨up, hout, uf, ul, ua⟩

/-! ### The commands of an endpoint -/

section
variable (s : State) (e : Fin 16384)

theorem exec_endpointFrameAccept (l : Lane) (sof : U64) (res vcap temp : U16) (g : Gap) (bs : List Block) :
    exec (.endpointFrameAccept e l sof res vcap temp g bs) s =
      .next (setEp s e (epFrame l sof.toNat res.toNat vcap.toNat temp.toNat g bs (ep s e))) := rfl

theorem exec_endpointDiscover (l : Lane) (ident : U64) (res resA resB : U16) (m : EpMaint) (g : Gap) (bs : List Block) :
    exec (.endpointDiscover e l ident res resA resB m g bs) s =
      .next (setEp s e (epTrain l ident res.toNat resA.toNat resB.toNat g bs (epMaint m (ep s e)))) := rfl

theorem exec_endpointEffectInstant : exec (.endpointEffectInstant e) s = .next (setEp s e (epInstant (ep s e))) := rfl

theorem exec_endpointBlksymReceive (t : U64) (data : BitVec 56) (fresh : Bool) :
    exec (.endpointBlksymReceive e t data fresh) s = .next (setEp s e (epBlksym t.toNat data fresh (ep s e))) := rfl

theorem exec_endpointSelfBlock : exec (.endpointSelfBlock e) s = .next (setEp s e (epSelfBlock (ep s e))) := rfl

theorem exec_endpointLocalFault (t : U64) (cause : U16) (byp mech rising : Bool) :
    exec (.endpointLocalFault e t cause byp mech rising) s = .next (setEp s e (epFault t.toNat cause byp mech rising (ep s e))) := rfl

theorem exec_endpointFaultClear (t : U64) : exec (.endpointFaultClear e t) s = .next (setEp s e (epFaultClear t.toNat (ep s e))) := rfl

theorem inputLost_iff (bad : BitVec 32) : inputLost bad = true ↔ 8 ≤ ((List.range 32).filter (fun i => bit bad i)).length := decide_eq_true_iff

theorem exec_endpointInputLoss_kept {bad : BitVec 32} (h : ((List.range 32).filter (fun i => bit bad i)).length < 8) (l : Lane) (t : U64) :
    exec (.endpointInputLoss e l t bad) s = .next s := congrArg _ (if_neg (mt (inputLost_iff bad).1 (not_le.2 h)))

theorem exec_endpointInputLoss_lost {bad : BitVec 32} (h : 8 ≤ ((List.range 32).filter (fun i => bit bad i)).length) (l : Lane) (t : U64) :
    exec (.endpointInputLoss e l t bad) s = .next (setEp s e (epInputLoss l t.toNat (ep s e))) := congrArg _ (if_pos ((inputLost_iff bad).2 h))

theorem exec_endpointUnloop (l : Lane) (locked : Bool) (t : U64) :
    exec (.endpointUnloop e l locked t) s = .next (setEp s e (epUnloop l locked t.toNat (ep s e))) := rfl

end

/-- A command that stores an endpoint as `x` leaves it at `x`, and every other as it was. -/
theorem gives_ep {c : Instr} {s : State} {e : Nat} {v x : Ep} (hc : exec c s = .next (setEp s e v)) (h : v = x) :
    Gives c s fun t => ((∀ d, d ≠ e → ep t d = ep s d) ∧ ChangesOnly [.eps] s t) ∧ ep t e = x :=
  ⟨_, hc, setEp_alone s e v, (ep_setEp_same s e v).trans h⟩

/-- Settles O47, command by command: each stores one endpoint, and what it stores is said by the lemma of its part. -/
theorem endpointsCarryOutFrames : Obligations.EndpointsCarryOutFrames := by
  unfold Obligations.EndpointsCarryOutFrames
  refine ⟨fun s e => ?_, fun s e => ?_⟩
  · intro x alone
    refine ⟨?frame, ?discover, ?idle, ?moved, ?held⟩
    case frame =>
      intro l sof res vcap temp gap bs j n flen bad f ok mine rpt
      refine ⟨_, exec_endpointFrameAccept s e l sof res vcap temp gap bs, ?_⟩
      dsimp only [alone]
      rw [ep_setEp_same]
      obtain ⟨hpat, htrans⟩ := epFrame_pattern l sof.toNat res.toNat vcap.toNat temp.toNat gap bs x
      refine ⟨setEp_alone s e _, hpat, htrans, fun h => ?_, fun h => ?_⟩
      · have hgap := epFrame_nil l sof.toNat res.toNat vcap.toNat temp.toNat gap x
        rw [h]
        exact ⟨(congrArg Ep.toEpView hgap :), (congrArg Ep.lastJ hgap :), (congrArg Ep.held hgap :), (congrArg Ep.seen hgap :)⟩
      · obtain ⟨ha, hb⟩ := epFrame_crc l sof.toNat res.toNat vcap.toNat temp.toNat gap x h
        obtain ⟨hagain, hnew⟩ := epFrame_report l sof.toNat res.toNat vcap.toNat temp.toNat gap x h
        exact ⟨ha, hb, epFrame_kept l _ _ _ _ gap x h, epFrame_taken l _ _ _ _ gap x h, epFrame_first l _ _ _ _ gap x h,
          epFrame_cmdMiss l _ _ _ _ gap x h, hagain, hnew vcap.isLt⟩
    case discover =>
      intro l ident res resA resB maint gap bs
      refine ⟨_, exec_endpointDiscover s e l ident res resA resB maint gap bs, ?_⟩
      dsimp only [alone]
      rw [ep_setEp_same]
      exact ⟨setEp_alone s e _, epDiscover_takes l ident res.toNat resA.toNat resB.toNat maint gap bs x⟩
    case idle => exact fun hm hh => gives_ep (exec_endpointEffectInstant s e) (epInstant_none hm hh)
    case moved =>
      intro m hm hh
      refine ⟨fun ht => ⟨_, exec_endpointEffectInstant s e, setEp_alone s e _, ?_⟩, fun hs ht => gives_ep (exec_endpointEffectInstant s e) ?_⟩
      · obtain ⟨lx, ly, rf, lt, sw, lg, et⟩ := epTransition_eq m.1 m.2 { x with moved := none }
        rw [ep_setEp_same, epInstant_moved hm hh, takeMoved_in_time ht, et]
        exact ⟨rfl, rfl, rfl⟩
      · exact (epInstant_moved hm hh).trans (takeMoved_late hs ht)
    case held =>
      intro h hh hm hf st b i rest
      have hi : epInstant x = takeHeld h x := epInstant_held hm hh hf
      refine ⟨fun hs ht => gives_ep (exec_endpointEffectInstant s e) (hi.trans (takeHeld_late hs ht)), fun ht => ?_⟩
      obtain ⟨hnone, hblk, hsw⟩ := takeHeld_effect ht
      refine ⟨fun hn => gives_ep (exec_endpointEffectInstant s e) (hi.trans (hnone hn)), fun h4 ho hb => ?_, fun bk hst ho hb hp => ?_⟩
      · refine ⟨_, exec_endpointEffectInstant s e, setEp_alone s e _, ?_⟩
        rw [ep_setEp_same, hi]
        exact hblk h4 ho hb
      · obtain ⟨hfree, hearly⟩ := hsw bk hst ho hb hp
        refine ⟨fun hl => ⟨_, exec_endpointEffectInstant s e, setEp_alone s e _, ?_⟩,
          fun p hl hlt => ⟨_, exec_endpointEffectInstant s e, setEp_alone s e _, ?_⟩⟩
        · rw [ep_setEp_same, hi]
          exact hfree hl
        · rw [ep_setEp_same, hi]
          exact hearly p hl hlt
  · intro x alone
    refine ⟨?blksym, ?selfBlockNone, ?selfBlock, ?fault, ?clears, ?stays, ?locked, ?loops, ?unloop⟩
    case blksym =>
      intro t0 data fresh
      refine ⟨_, exec_endpointBlksymReceive s e t0 data fresh, ?_⟩
      dsimp only [alone]
      rw [ep_setEp_same]
      exact ⟨setEp_alone s e _, epBlksym_blocks t0.toNat data fresh x⟩
    case selfBlockNone => exact fun h => gives_ep (exec_endpointSelfBlock s e) (epSelfBlock_none h)
    case selfBlock =>
      intro hj hs
      refine ⟨_, exec_endpointSelfBlock s e, setEp_alone s e _, ?_⟩
      rw [ep_setEp_same]
      exact epSelfBlock_blocks hj hs
    case fault =>
      intro t0 cause byp mech rising
      refine ⟨_, exec_endpointLocalFault s e t0 cause byp mech rising, ?_⟩
      dsimp only [alone]
      rw [ep_setEp_same]
      exact ⟨setEp_alone s e _, epFault_blocks t0.toNat cause byp mech rising x⟩
    case clears =>
      intro t0 r hr hf hp ht
      refine ⟨_, exec_endpointFaultClear s e t0, setEp_alone s e _, ?_⟩
      rw [ep_setEp_same]
      exact epFaultClear_clears hr hf hp ht
    case stays => exact fun t0 h => gives_ep (exec_endpointFaultClear s e t0) (epFaultClear_kept h)
    case locked => exact fun l t0 bad h => exec_endpointInputLoss_kept s e h l t0
    case loops =>
      intro l t0 bad h
      refine ⟨_, exec_endpointInputLoss_lost s e h l t0, ?_⟩
      dsimp only [alone]
      rw [ep_setEp_same]
      exact ⟨setEp_alone s e _, epInputLoss_loops l t0.toNat x⟩
    case unloop =>
      intro l locked t0
      refine ⟨_, exec_endpointUnloop s e l locked t0, ?_⟩
      dsimp only [alone]
      rw [ep_setEp_same]
      exact ⟨setEp_alone s e _, epUnloop_passes l locked t0.toNat x⟩

end Sys2Proof.Machine
end

section
/-! PROOFS. Furrow: training, wraps, span delays and returned frames of a ring (O54). -/

namespace Sys2Proof.Machine

/-! ### Rings that stay, and the one that changes -/

/-- Of the rings only `r` differs, and it stands at `y`. -/
def RingIs (r : Nat) (y : Ring) (s t : State) : Prop := (∀ q, q ≠ r → ring t q = ring s q) ∧ ring t r = y

theorem RingIs.of_fur {s t : State} (r : Nat) (h : t.fur = s.fur) : RingIs r (ring s r) s t :=
  ⟨fun q _ => ring_congr h q, ring_congr h r⟩

theorem RingIs.trans {r : Nat} {y z : Ring} {s t u : State} (h : RingIs r y s t) (g : RingIs r z t u) : RingIs r z s u :=
  ⟨fun q hq => (g.1 q hq).trans (h.1 q hq), g.2⟩

/-- What leaves the rings leaves the ring where it is. -/
theorem RingIs.then_rings {r : Nat} {y : Ring} {s t u : State} (h : RingIs r y s t) (g : u.fur.rings = t.fur.rings) : RingIs r y s u := by
  have hk (k : Nat) : ring u k = ring t k := by simp only [ring, g]
  exact ⟨fun q hq => (hk q).trans (h.1 q hq), (hk r).trans h.2⟩

theorem RingIs.then_fur {r : Nat} {y : Ring} {s t u : State} (h : RingIs r y s t) (g : u.fur = t.fur) : RingIs r y s u :=
  h.then_rings (congrArg Fur.rings g)

theorem ringIs_setRing (r : Nat) (y : Ring) (s : State) : RingIs r y s (setRing s r y) :=
  ⟨fun q hq => setRing_ne s r y q hq, setRing_same s r y⟩

theorem ringIs_modRing (r : Nat) (f : Ring → Ring) (s : State) : RingIs r (f (ring s r)) s (modRing r f s) := ringIs_setRing r _ s

theorem ringIs_ringTo (r st : Nat) (s : State) : RingIs r { ring s r with st := st } s (ringTo r st s) := by
  unfold ringTo
  dsimp only
  split
  · next h => exact ⟨fun _ _ => rfl, by rw [← h]⟩
  · exact (ringIs_setRing r _ s).then_fur ((snareSig_fur ..).trans (intEdge_fur ..))

theorem laFollow_only (s : State) : ChangesOnly [.cmd] s (laFollow s) := (laFollow_keeps (Keeps.refl _ s) rfl).only

theorem ringEnter_cases (r st : Nat) (s : State) : ringEnter r st s = laFollow (ringTo r st s) ∨ ringEnter r st s = ringTo r st s := by
  unfold ringEnter
  split
  · exact .inl rfl
  · exact .inr rfl

theorem ringIs_ringEnter (r st : Nat) (s : State) : RingIs r { ring s r with st := st } s (ringEnter r st s) := by
  rcases ringEnter_cases r st s with h | h
  · exact h ▸ (ringIs_ringTo r st s).then_fur (laFollow_only _ .fur rfl)
  · exact h ▸ ringIs_ringTo r st s

/-- The end of a frame loss changes the loss and its count alone. -/
theorem ringIs_frameLossOff (r : Nat) (s : State) :
    ∃ n l, RingIs r { ring s r with lossCnt := n, frameLoss := l } s (frameLossOff r s) := by
  unfold frameLossOff
  dsimp only
  split
  · exact ⟨_, _, (ringIs_setRing r _ s).then_fur (snareSig_fur ..)⟩
  · exact ⟨_, _, RingIs.of_fur r rfl⟩

theorem advanceTo_fur (s : State) (t : Nat) : (advanceTo s t).fur = s.fur := advanceTo_only s t .fur rfl
theorem snareEval_fur (s : State) : (snareEval s).fur = s.fur := snareEval_only s .fur rfl

/-! ### Registers that the change of a ring leaves -/

/-- The registers of other blocks in which the change of a ring may be counted. -/
def sideRegs : List Nat :=
  [rSNR_EVT, rSNR_MISSED, rSNR_DROP, rSYS_YIELD_CNT 6, rINT_EVT, rFLT_EVT, rGRN_EVT, rGRN_JNL_DROP, rFLT_BKT_RETIRED 1]

theorem ne_of_not_sideReg {o k : Nat} (ho : o ∉ sideRegs) (hk : k ∈ sideRegs) : o ≠ k := fun h => ho (h ▸ hk)

/-- The registers of ring `r` are none of them. -/
theorem ringReg_not_sideReg (r : Fin 64) (k : Nat) (h : k < 64) : 0x801000 + k + 0x40 * r.val ∉ sideRegs := by
  simp only [sideRegs, List.mem_cons, List.not_mem_nil, or_false, rSNR_EVT, rSNR_MISSED, rSNR_DROP, rSYS_YIELD_CNT, rINT_EVT, rFLT_EVT,
    rGRN_EVT, rGRN_JNL_DROP, rFLT_BKT_RETIRED]
  omega

section
variable {o : Nat} (ho : o ∉ sideRegs)
include ho

theorem rg_snareEval_side (s : State) : rg (snareEval s) o = rg s o :=
  rg_snareEval s (ne_of_not_sideReg ho (by decide)) (ne_of_not_sideReg ho (by decide))

theorem rg_snareSig (t g i v : Nat) (s : State) : rg (snareSig t g i v s) o = rg s o := by
  unfold snareSig
  dsimp only
  split
  · rfl
  · exact rg_snareRecord _ _ _ _ _ (ne_of_not_sideReg ho (by decide)) (ne_of_not_sideReg ho (by decide)) (ne_of_not_sideReg ho (by decide))

theorem rg_intEdge (s : State) (k : Nat) : rg (intEdge s k) o = rg s o := by
  unfold intEdge
  dsimp only
  split
  · rfl
  · split
    · exact rg_congr ((latchCore_keeps (Keeps.refl [.cores] _) rfl).only .regs rfl) o
    · exact rg_wr_ne _ _ _ _ (ne_of_not_sideReg ho (by decide))

theorem rg_ringTo (r st : Nat) (s : State) : rg (ringTo r st s) o = rg s o := by
  unfold ringTo
  dsimp only
  split
  · rfl
  · exact (rg_snareSig ho ..).trans (rg_intEdge ho _ _)

theorem rg_ringEnter (r st : Nat) (s : State) : rg (ringEnter r st s) o = rg s o := by
  rcases ringEnter_cases r st s with h | h
  · exact h ▸ (rg_congr (laFollow_only _ .regs rfl) o).trans (rg_ringTo ho r st s)
  · exact h ▸ rg_ringTo ho r st s

theorem rg_frameLossOff (r : Nat) (s : State) : rg (frameLossOff r s) o = rg s o := by
  unfold frameLossOff
  dsimp only
  split
  · exact rg_snareSig ho ..
  · rfl

theorem rg_jnlPut (ty : Nat) (ws : List U64) (s : State) : rg (jnlPut ty ws s) o = rg s o := by
  have hdrop (n : Nat) (u : State) : rg (jnlDropped n u) o = rg u o :=
    rg_jnlDropped n u (ne_of_not_sideReg ho (by decide)) (ne_of_not_sideReg ho (by decide))
  unfold jnlPut
  dsimp only
  split
  · split
    · exact hdrop _ s
    · exact (hdrop 1 _).trans (hdrop _ s)
  · split
    · rfl
    · exact hdrop 1 s

theorem rg_retireCells (cells : List Nat) (s : State) : rg (retireCells cells s) o = rg s o := by
  unfold retireCells
  dsimp only
  split
  · rfl
  · refine (rg_wr_ne _ _ _ _ (ne_of_not_sideReg ho (by decide))).trans ?_
    refine (foldl_leaves (g := (rg · o)) (fun u c => rg_report u (srcCell c) 0x0383 o) _ _).trans ?_
    exact (rg_jnlPut ho _ _ _).trans (foldl_leaves (g := (rg · o)) (f := setTurn true _ _) (fun _ _ => rfl) _ _)

theorem rg_tocsinRetire (cells : List Nat) (s : State) : rg (tocsinRetire cells s) o = rg s o := by
  refine (rg_retireCells ho cells _).trans (foldl_leaves (g := (rg · o)) (fun u c => ?_) _ _)
  split
  · rfl
  · rfl

end

/-! ### Training that fails (R206, R207) -/

/-- Ring `r` has failed with `code`: FAILED, bit 2 of FUR_EVT and the report. -/
def RingFails (r code : Nat) (s t : State) : Prop :=
  RingIs r { ring s r with st := 7, err := code, next := none, asked := false } s t ∧ bit (rg t rFUR_EVT) 2 = true ∧
    t.flt.inbox.getLast? = some { source := srcBlk 8 r, code := 0x0202 }

theorem trainFail_fails (r code : Nat) (s : State) : RingFails r code s (trainFail r code s) := by
  have hmod := ringIs_modRing r (fun x => { x with err := code, next := none, asked := false }) s
  have henter := hmod.trans (ringIs_ringEnter r 7 _)
  rw [hmod.2] at henter
  have e : trainFail r code s = report (setEvt (setTx r {} (ringCtlDone r cFailed stTrainFail (epochNow s)
      (ringEnter r 7 (modRing r (fun x => { x with err := code, next := none, asked := false }) s)))) rFUR_EVT (bitv 2)) (srcRing r) 0x0202 := rfl
  refine ⟨henter.then_rings (by rw [e]; rfl), ?_, ?_⟩
  · rw [e, rg_report, rg_setEvt_same]
    exact bit_or_bitv _ (by decide)
  · rw [e]
    exact List.getLast?_concat

theorem RingFails.snareEval {r code : Nat} {s t : State} (h : RingFails r code s t) : RingFails r code s (snareEval t) := by
  obtain ⟨hring, hevt, hinbox⟩ := h
  exact ⟨hring.then_fur (snareEval_fur t), by rwa [rg_snareEval_side (by decide)],
    (congrArg (fun f : Flt => f.inbox.getLast?) (snareEval_only t .flt rfl)).trans hinbox⟩

theorem trainFail_evaluated (r code : Nat) (s : State) : RingFails r code s (snareEval (trainFail r code s)) := (trainFail_fails r code s).snareEval

/-- No lock: code 1, at the end of the 10 ms. -/
theorem trainLockTimeout_fails {r : Nat} {s : State} (h : (ring s r).st = 1 ∧ (ring s r).next = none) :
    RingFails r 1 s (snareEval (trainLockTimeout r s)) ∧
      (snareEval (trainLockTimeout r s)).tick = u64 (max (now s) ((ring s r).t0 + 3125000)) := by
  have e : trainLockTimeout r s = trainFail r 1 (advanceTo s ((ring s r).t0 + 3125000)) := if_pos h
  have hfur := advanceTo_fur s ((ring s r).t0 + 3125000)
  rw [e]
  obtain ⟨⟨hothers, hring⟩, hevt, hinbox⟩ := trainFail_evaluated r 1 (advanceTo s ((ring s r).t0 + 3125000))
  rw [ring_congr hfur] at hring
  refine ⟨⟨⟨fun q hq => (hothers q hq).trans (ring_congr hfur q), hring⟩, hevt, hinbox⟩, ?_⟩
  refine (snareEval_only _ .tick rfl).trans (Eq.trans ?_ (advanceTo_tick_max s _))
  exact (trainFail_keeps (Keeps.refl [.regs, .flt, .cmd, .ints, .cores, .fur, .snr] _) rfl).only .tick rfl

/-- A step that leaves a state alone but for Snare's trigger leaves its rings. -/
theorem ringIs_kept (r : Nat) (s : State) : RingIs r (ring s r) s (snareEval s) := RingIs.of_fur r (snareEval_fur s)

theorem ringIs_stored (r : Nat) (y : Ring) (s : State) : RingIs r y s (snareEval (setRing s r y)) :=
  (ringIs_setRing r y s).then_fur (snareEval_fur _)

theorem trainLockTimeout_kept {r : Nat} {s : State} (h : ¬ ((ring s r).st = 1 ∧ (ring s r).next = none)) : trainLockTimeout r s = s := if_neg h

/-! ### Block lock (R207) -/

/-- The ring after RX A or RX B locked. -/
def lockedRing (a b : Bool) (x : Ring) : Ring := { x with aLock := x.aLock || a, bLock := x.bLock || b }

/-- Does a ring with these locks go on to DISCOVER. -/
def LockEnough (s : State) (r : Nat) (y : Ring) : Prop :=
  y.st = 1 ∧ ((y.aLock = true ∧ y.bLock = true) ∨ (wrapTrain s r = true ∧ (y.aLock = true ∨ y.bLock = true)))

theorem trainLock_eq (r : Nat) (a b : Bool) (s : State) : let y := lockedRing a b (ring s r)
    (LockEnough s r y → RingIs r { y with next := some 2, silA := !y.bLock, silB := !y.aLock } s (trainLock r a b s)) ∧
      (¬ LockEnough s r y → RingIs r y s (trainLock r a b s)) := by
  intro y
  have hmod : RingIs r y s (modRing r (lockedRing a b) s) := ringIs_modRing r _ s
  have hy : ring (modRing r (fun x => { x with aLock := x.aLock || a, bLock := x.bLock || b }) s) r = y := hmod.2
  have hgo : (y.st = 1 ∧ ((y.aLock && y.bLock) || (wrapTrain s r && (y.aLock || y.bLock))) = true) ↔ LockEnough s r y := by
    simp only [LockEnough, Bool.or_eq_true, Bool.and_eq_true]
  unfold trainLock
  dsimp only
  rw [hy]
  constructor
  · intro h
    exact (if_pos (hgo.2 h)).symm ▸ hmod.trans (ringIs_setRing r _ _)
  · intro h
    exact (if_neg (mt hgo.1 h)).symm ▸ hmod

/-! ### Training frames (R207 to R209) -/

/-- A training frame with a bad FCRC: three repeats, then code 9. -/
theorem trainRepeat_eq (r : Nat) (s : State) : let x := ring s r
    (x.tries < 3 → RingIs r { x with tries := x.tries + 1, asked := false, left := if x.st = 2 then 2 else 1 } s (snareEval (trainRepeat r s))) ∧
      (3 ≤ x.tries → RingFails r 9 s (snareEval (trainRepeat r s))) := by
  intro x
  constructor
  · intro h
    rw [trainRepeat, if_pos h]
    exact ringIs_stored r _ s
  · intro h
    rw [trainRepeat, if_neg (not_lt.2 h)]
    exact trainFail_evaluated r 9 s

section
variable {r : Nat} {s : State} {a b : DiscCopy}

theorem discoverReturn_kept (h : (ring s r).st ≠ 2 ∨ (ring s r).asked = false) : discoverReturn r a b s = s :=
  if_pos (h.imp_right fun h => by simp [h])

theorem discoverReturn_repeats (hst : (ring s r).st = 2) (ha : (ring s r).asked = true) (h : a.good = false ∨ b.good = false) :
    discoverReturn r a b s = trainRepeat r s := by
  rcases h with h | h <;> simp [discoverReturn, hst, ha, h]

/-- Whole copies are judged. -/
theorem discoverReturn_judges (hst : (ring s r).st = 2) (ha : (ring s r).asked = true) (hga : a.good = true) (hgb : b.good = true) :
    discoverReturn r a b s = match discoverJudge (wrapTrain s r) (ringExpect s r) (missMax s r) (ringCells s) a b with
      | .inl e => trainFail r e s
      | .inr (ids, la, lb) => setRing s r { ring s r with
          n := ids.length, ids := ids, loopA := la, loopB := lb, tries := 0, asked := false, next := some 3,
          gxA := a.looped && la.isNone, gxB := a.looped && lb.isNone,
          loopTick := if a.looped then some (now s) else none, ticks := if a.looped then [(now s, now s)] else [] } := by
  simp only [discoverReturn, hst, ha, hga, hgb]
  rfl

theorem discoverReturn_fails {e : Nat} (hst : (ring s r).st = 2) (ha : (ring s r).asked = true) (hga : a.good = true) (hgb : b.good = true)
    (hj : discoverJudge (wrapTrain s r) (ringExpect s r) (missMax s r) (ringCells s) a b = .inl e) :
    RingFails r e s (snareEval (discoverReturn r a b s)) := by
  rw [discoverReturn_judges hst ha hga hgb, hj]
  exact trainFail_evaluated r e s

theorem discoverReturn_finds {w : Bool} {ids : List U64} {la lb : Option Nat} (hst : (ring s r).st = 2) (ha : (ring s r).asked = true)
    (hga : a.good = true) (hgb : b.good = true) (hw : a.looped = w)
    (hj : discoverJudge (wrapTrain s r) (ringExpect s r) (missMax s r) (ringCells s) a b = .inr (ids, la, lb)) :
    RingIs r { ring s r with
      n := ids.length, ids := ids, loopA := la, loopB := lb, tries := 0, asked := false, next := some 3,
      gxA := w && la.isNone, gxB := w && lb.isNone,
      loopTick := if w then some (now s) else none, ticks := if w then [(now s, now s)] else [] } s
      (snareEval (discoverReturn r a b s)) := by
  rw [discoverReturn_judges hst ha hga hgb, hj, ← hw]
  exact ringIs_stored r _ s

end

/-! The outcomes of a discovery. -/

section
variable {w : Bool} {expect miss cells : Nat} {a b : DiscCopy}

theorem discoverJudge_straight (ha : a.looped = false) (hb : b.looped = false) : discoverJudge w expect miss cells a b =
    if a.ids.length ≠ b.ids.length ∨ a.ids.length = 0 ∨ cells < a.ids.length then .inl 2
    else if expect ≠ 0 ∧ a.ids.length ≠ expect then .inl 3
    else if a.ids ≠ b.ids.reverse then .inl 4
    else .inr (a.ids, none, none) := by
  simp [discoverJudge, ha, hb]

theorem discoverJudge_unequal (h : a.looped ≠ b.looped ∨ (a.looped = true ∧ w = false)) : discoverJudge w expect miss cells a b = .inl 2 := by
  unfold discoverJudge
  rcases h with h | ⟨ha, hw⟩
  · cases ha : a.looped with
    | true =>
      have hb : b.looped = false := by simpa [ha] using h
      simp [hb]
    | false =>
      have hb : b.looped = true := by simpa [ha] using h
      simp [hb]
  · simp [ha, hw]

theorem discoverJudge_wrapped (ha : a.looped = true) (hb : b.looped = true) (hw : w = true) : discoverJudge w expect miss cells a b =
    if expect = 0 ∨ expect < a.ids.length + b.ids.length then .inl 3
    else if miss < expect - (a.ids.length + b.ids.length) then .inl 8
    else .inr (a.ids ++ List.replicate (expect - (a.ids.length + b.ids.length)) 0 ++ b.ids.reverse,
      if a.ids.length = 0 then none else some (a.ids.length - 1), if b.ids.length = 0 then none else some (expect - b.ids.length)) := by
  simp [discoverJudge, ha, hb, hw]

end

/-- The positions of a wrapped discovery: those heard from each side, with the missing cells between. -/
theorem wrappedIds_length {expect : Nat} {as bs : List U64} (h : as.length + bs.length ≤ expect) :
    (as ++ List.replicate (expect - (as.length + bs.length)) 0 ++ bs.reverse).length = expect := by
  simp only [List.length_append, List.length_replicate, List.length_reverse]
  omega

/-- A loop is at the device's own port where the side has no position. -/
theorem isNone_loop (n p : Nat) : (if n = 0 then none else some p : Option Nat).isNone = decide (n = 0) := by
  by_cases h : n = 0
  · simp [h]
  · simp [h]

section
variable {r : Nat} {s : State} {good : Bool} {transit : Nat} {ms : List U64}

theorem measureReturn_kept (h : (ring s r).st ≠ 3 ∨ (ring s r).asked = false) : measureReturn r good transit ms s = s :=
  if_pos (h.imp_right fun h => by simp [h])

theorem measureReturn_repeats (hst : (ring s r).st = 3) (ha : (ring s r).asked = true) : measureReturn r false transit ms s = trainRepeat r s := by
  simp [measureReturn, hst, ha]

theorem measureReturn_fails (hst : (ring s r).st = 3) (ha : (ring s r).asked = true) (h : measureErr (ring s r) (lTicks s == 400) transit ms ≠ 0) :
    measureReturn r true transit ms s = trainFail r (measureErr (ring s r) (lTicks s == 400) transit ms) s := by
  simp [measureReturn, hst, ha, h]

theorem measureReturn_passes (hst : (ring s r).st = 3) (ha : (ring s r).asked = true) (h : measureErr (ring s r) (lTicks s == 400) transit ms = 0) :
    measureReturn r true transit ms s = setRing s r { ring s r with
      dly := ms.take (ring s r).n, trans := transit, asked := false, tries := 0, next := some (if (ring s r).loopTick.isSome then 5 else 4) } := by
  simp [measureReturn, hst, ha, h]

end

/-! ### A write of EN (R207, R219) -/

theorem ringTo_tx (r st : Nat) (s : State) : (ringTo r st s).fur.tx = s.fur.tx := by
  unfold ringTo
  dsimp only
  split
  · rfl
  · rw [snareSig_fur, intEdge_fur]
    rfl

theorem ringEnter_tx (r st : Nat) (s : State) : (ringEnter r st s).fur.tx = s.fur.tx := by
  rcases ringEnter_cases r st s with h | h
  · rw [h, laFollow_only _ .fur rfl, ringTo_tx]
  · rw [h, ringTo_tx]

/-- The ring whose training starts at tick `t`. -/
def freshRing (t : Nat) (x : Ring) : Ring := { x with
  n := 0, err := 0, next := none, tries := 0, left := 0, asked := false, t0 := t, drainE := none, retrain := false,
  loopA := none, loopB := none, gxA := false, gxB := false, wrapped := false, island := false, loopTick := none, ticks := [], lossCnt := 0,
  warn := false, ids := [], dly := [], rx := [], silA := false, silB := false }

/-- The 64 UNLOOP blocks of a lane, unless its bucket has retired it. -/
def unloopOut (off : Bool) : List Block := if off then [] else List.replicate 64 (ctl 0x55)

/-- Training begins: the ring is in TRAIN, and every lane that is not retired sends UNLOOP. -/
theorem startTrain_starts (r : Nat) (s : State) : ∃ n l,
    RingIs r { freshRing (now s) (ring s r) with lossCnt := n, frameLoss := l, st := 1 } s (startTrain r s) ∧
      tget {} (startTrain r s).fur.tx r = { a := unloopOut (ring s r).offA, b := unloopOut (ring s r).offB } := by
  have hset := ringIs_setRing r (freshRing (now s) (ring s r)) s
  obtain ⟨n, l, hloss⟩ := ringIs_frameLossOff r (setRing s r (freshRing (now s) (ring s r)))
  have hfresh := hset.trans hloss
  rw [hset.2] at hfresh
  let u := frameLossOff r (setRing s r (freshRing (now s) (ring s r)))
  let w := setTx r (txPair (ring u r) (List.replicate 64 (ctl 0x55)) (List.replicate 64 (ctl 0x55))) u
  have hw : RingIs r { freshRing (now s) (ring s r) with lossCnt := n, frameLoss := l } s w := hfresh.then_rings rfl
  have henter := hw.trans (ringIs_ringEnter r 1 w)
  rw [hw.2] at henter
  refine ⟨n, l, henter, ?_⟩
  have htx : tget {} (ringEnter r 1 w).fur.tx r = txPair (ring u r) (List.replicate 64 (ctl 0x55)) (List.replicate 64 (ctl 0x55)) := by
    rw [ringEnter_tx]
    exact tget_tset_same _ _ _ _
  refine htx.trans ?_
  rw [show ring u r = _ from hfresh.2]
  rfl

/-- A ring that comes to OFF. -/
theorem ringIs_ringClear (r : Nat) (s : State) : ∃ n l,
    RingIs r { ring s r with err := 0, next := none, asked := false, drainE := none, retrain := false, st := 0, lossCnt := n, frameLoss := l }
      s (ringClear r s) := by
  let f (x : Ring) : Ring := { x with err := 0, next := none, asked := false, drainE := none, retrain := false }
  let u := setTx r {} (modRing r f (ringDisableDone r (ringCtlDone r cFailed stTrainFail (epochNow s) s)))
  have hu : RingIs r (f (ring s r)) s u := (ringIs_modRing r f s).then_rings rfl
  have hoff := hu.trans (ringIs_ringTo r 0 u)
  obtain ⟨n, l, hloss⟩ := ringIs_frameLossOff r (ringTo r 0 u)
  have hend := hoff.trans hloss
  rw [hoff.2, hu.2] at hend
  exact ⟨n, l, hend⟩

theorem ringIs_ringOff (r : Nat) (s : State) : ∃ n l,
    RingIs r { ring s r with err := 0, next := none, asked := false, drainE := none, retrain := false, st := 0, lossCnt := n, frameLoss := l }
      s (ringOff r s) := by
  obtain ⟨n, l, h⟩ := ringIs_ringClear r s
  refine ⟨n, l, ?_⟩
  unfold ringOff
  split
  · exact h.then_fur (laFollow_only _ .fur rfl)
  · exact h

/-- The drain of a ring that carries frames waits for the boundary, and one under way no longer trains afterwards. -/
theorem ringDrain_waits {r : Nat} {s : State} (h : (ring s r).st = 4 ∨ (ring s r).st = 5) :
    ringDrain r s = setRing s r { ring s r with next := some 6, retrain := false } :=
  if_pos (by rcases h with h | h <;> simp [ringRunning, h])

theorem ringDrain_draining {r : Nat} {s : State} (h : (ring s r).st = 6) : ringDrain r s = setRing s r { ring s r with retrain := false } := by
  simp [ringDrain, ringRunning, h]

/-- Every other ring comes to OFF. -/
theorem ringDrain_off {r : Nat} {s : State} (h4 : (ring s r).st ≠ 4) (h5 : (ring s r).st ≠ 5) (h6 : (ring s r).st ≠ 6) : ringDrain r s = ringOff r s := by
  simp [ringDrain, ringRunning, h4, h5, h6]

theorem exec_furRingCfgWrite {bus : Bus} {r : Fin 64} {v : U32} {s : State} (h : WriteOk s bus (rFUR_RING_CFG r) v) :
    exec (.furRingCfgWrite bus r v) s = .next (snareEval (furRingCfg r v s)) := by
  have e : exec (.furRingCfgWrite bus r v) s = execFurRingCfgWrite bus r v s := rfl
  rw [e, execFurRingCfgWrite, guardWrite_ok h]

/-- What a write of FUR_RINGr_CFG does to the ring: `u` is the state after the register's write. -/
theorem furRingCfg_cases (r : Nat) (v : U32) (s : State) : ∃ u, u.fur = s.fur ∧ now u = now s ∧ furRingCfg r v s =
    if bit v 0 = true then (if (ring s r).st = 0 ∨ (ring s r).st = 7 then startTrain r u else u)
    else if bit (rg s (rFUR_RING_CFG r)) 0 = true then ringDrain r u else u :=
  ⟨plainWrite (rFUR_RING_CFG r) v s, rfl, rfl, rfl⟩

section
variable (r : Nat) (v : U32) (s : State)

theorem furRingCfg_others : ∀ q, q ≠ r → ring (furRingCfg r v s) q = ring s q := by
  obtain ⟨u, hu, -, e⟩ := furRingCfg_cases r v s
  have hstay : ∃ y, RingIs r y s u := ⟨_, RingIs.of_fur r hu⟩
  have hstart : ∃ y, RingIs r y s (startTrain r u) := by
    obtain ⟨n, l, h, -⟩ := startTrain_starts r u
    exact ⟨_, (RingIs.of_fur r hu).trans h⟩
  have hdrain : ∃ y, RingIs r y s (ringDrain r u) := by
    unfold ringDrain
    dsimp only
    split
    · exact ⟨_, (RingIs.of_fur r hu).trans (ringIs_setRing r _ _)⟩
    · split
      · exact ⟨_, (RingIs.of_fur r hu).trans (ringIs_setRing r _ _)⟩
      · obtain ⟨n, l, h⟩ := ringIs_ringOff r u
        exact ⟨_, (RingIs.of_fur r hu).trans h⟩
  have hall : ∃ y, RingIs r y s (furRingCfg r v s) := by
    rw [e]
    split
    · split
      · exact hstart
      · exact hstay
    · split
      · exact hdrain
      · exact hstay
  obtain ⟨y, h⟩ := hall
  exact h.1

variable {r v s}

/-- EN set in OFF or FAILED starts training. -/
theorem furRingCfg_starts (hv : bit v 0 = true) (hst : (ring s r).st = 0 ∨ (ring s r).st = 7) : ∃ n l,
    ring (furRingCfg r v s) r = { freshRing (now s) (ring s r) with lossCnt := n, frameLoss := l, st := 1 } ∧
      tget {} (furRingCfg r v s).fur.tx r = { a := unloopOut (ring s r).offA, b := unloopOut (ring s r).offB } := by
  obtain ⟨u, hu, hnow, e⟩ := furRingCfg_cases r v s
  obtain ⟨n, l, h, htx⟩ := startTrain_starts r u
  rw [hnow, ring_congr hu] at h
  rw [ring_congr hu] at htx
  rw [e, if_pos hv, if_pos hst]
  exact ⟨n, l, h.2, htx⟩

/-- A write that neither starts nor drains leaves the ring. -/
theorem furRingCfg_kept (h : (bit v 0 = true ∧ (ring s r).st ≠ 0 ∧ (ring s r).st ≠ 7) ∨
      (bit v 0 = false ∧ bit (rg s (rFUR_RING_CFG r)) 0 = false)) :
    ring (furRingCfg r v s) r = ring s r := by
  obtain ⟨u, hu, -, e⟩ := furRingCfg_cases r v s
  rw [e]
  rcases h with ⟨hv, h0, h7⟩ | ⟨hv, hwas⟩
  · rw [if_pos hv, if_neg (not_or.2 ⟨h0, h7⟩)]
    exact ring_congr hu r
  · rw [if_neg (by rw [hv]; decide), if_neg (by rw [hwas]; decide)]
    exact ring_congr hu r

/-- EN cleared drains. -/
theorem furRingCfg_drains (hv : bit v 0 = false) (hwas : bit (rg s (rFUR_RING_CFG r)) 0 = true) :
    ∃ u, u.fur = s.fur ∧ furRingCfg r v s = ringDrain r u := by
  obtain ⟨u, hu, -, e⟩ := furRingCfg_cases r v s
  exact ⟨u, hu, by rw [e, if_neg (by rw [hv]; decide), if_pos hwas]⟩

end

/-! ### Wraps and islands (R187, R210 to R213) -/

/-- A cell whose retirement has been decided, or that has a retirement at its place in verification order. -/
def CellRetires (t : State) (c : Nat) : Prop := retireDecided t c = true ∨ ∃ w ∈ cellTurns t c, w.on = true ∧ w.ord = t.cmd.ord

theorem cellRetires_congr {s t : State} (h : t.cmd = s.cmd) (c : Nat) : CellRetires t c ↔ CellRetires s c := by
  simp only [CellRetires, retireDecided, cellTurns, h]

theorem retireDecided_congr {s t : State} {c : Nat} (h : cellTurns t c = cellTurns s c) : retireDecided t c = retireDecided s c := by
  simp only [retireDecided, h]

theorem foldl_setTurn_ord (cs : List Nat) (on : Bool) (e ord : Nat) (s : State) : (cs.foldl (setTurn on e ord) s).cmd.ord = s.cmd.ord :=
  foldl_leaves (g := fun u : State => u.cmd.ord) (f := setTurn on e ord) (fun _ _ => rfl) _ _

/-- The turns that a retirement writes are all that it changes in the command state. -/
theorem retireCells_cmd {cells : List Nat} {s : State} (h : (cells.filter (fun c => !retireDecided s c)).isEmpty = false) :
    ∃ e, (retireCells cells s).cmd = ((cells.filter (fun c => !retireDecided s c)).foldl (setTurn true e s.cmd.ord) s).cmd := by
  unfold retireCells
  dsimp only
  rw [if_neg (by rw [h]; decide)]
  have hreports (l : List Nat) (u : State) : (setEvt (l.foldl (fun s c => report s (srcCell c) 0x0383) u) rFLT_EVT (bitv 4)).cmd = u.cmd :=
    foldl_leaves (g := fun u : State => u.cmd) (f := fun s c => report s (srcCell c) 0x0383) (fun _ _ => rfl) _ _
  exact ⟨_, (hreports _ _).trans ((jnlRetire_keeps (Keeps.refl [.regs, .grn] _) rfl).only .cmd rfl)⟩

theorem retireCells_retires (cells : List Nat) (s : State) : ∀ c ∈ cells, CellRetires (retireCells cells s) c := by
  intro c hc
  cases he : (cells.filter (fun c => !retireDecided s c)).isEmpty with
  | true =>
    have e : retireCells cells s = s := if_pos he
    have hd : ¬ (!retireDecided s c) = true := List.filter_eq_nil_iff.1 (List.isEmpty_iff.1 he) c hc
    rw [e]
    exact .inl (by simpa using hd)
  | false =>
    obtain ⟨e, hcmd⟩ := retireCells_cmd he
    rw [cellRetires_congr hcmd]
    cases hd : retireDecided s c with
    | true =>
      have hout : c ∉ cells.filter (fun c => !retireDecided s c) := by simp [hd]
      exact .inl ((retireDecided_congr (cellTurns_foldl_setTurn_other hout _ _ _ _)).trans hd)
    | false =>
      refine .inr ⟨_, mem_cellTurns_foldl_setTurn _ true e s.cmd.ord s c (List.mem_filter.2 ⟨hc, by simp [hd]⟩), rfl, ?_⟩
      exact (foldl_setTurn_ord _ _ _ _ _).symm

theorem tocsinRetire_retires (cells : List Nat) (s : State) : ∀ c ∈ cells, CellRetires (tocsinRetire cells s) c := retireCells_retires cells _

/-- The ring declared wrapped. -/
def wrappedRing (y : Ring) : Ring := if y.st = 4 then { y with st := 5, wrapped := true } else y

theorem ringIs_declareWrap (r : Nat) (s : State) : RingIs r (wrappedRing (ring s r)) s (declareWrap r s) := by
  unfold declareWrap wrappedRing
  split
  · have hmod := ringIs_modRing r (fun x => { x with wrapped := true }) s
    have henter := hmod.trans (ringIs_ringEnter r 5 _)
    rw [hmod.2] at henter
    exact henter.then_rings rfl
  · exact RingIs.of_fur r rfl

theorem declareWrap_evt {r : Nat} {s : State} (h : (ring s r).st = 4) : bit (rg (declareWrap r s) rFUR_EVT) 0 = true := by
  rw [declareWrap, if_pos h, wrapReport, rg_report, rg_setEvt_same]
  exact bit_or_bitv _ (by decide)

theorem rg_declareWrap {o : Nat} (ho : o ∉ sideRegs) (he : o ≠ rFUR_EVT) (r : Nat) (s : State) : rg (declareWrap r s) o = rg s o := by
  unfold declareWrap
  split
  · exact (rg_wr_ne _ _ _ _ he).trans (rg_ringEnter ho _ _ _)
  · rfl

/-- Where the loops cut positions off, the ring is an island and their cells retire; bit 1 of FUR_EVT shows a new one. -/
theorem islandCheck_cuts (r : Nat) (s : State) : let z := ring s r
    RingIs r { z with island := z.island || !(cutOff z).isEmpty } s (islandCheck r s) ∧
      (∀ i, bit (rg s rFUR_EVT) i = true → bit (rg (islandCheck r s) rFUR_EVT) i = true) ∧
      (∀ p ∈ cutOff z, CellRetires (islandCheck r s) (p + 256 * r)) ∧
      (cutOff z ≠ [] → z.island = false → bit (rg (islandCheck r s) rFUR_EVT) 1 = true) := by
  intro z
  cases hc : (cutOff z).isEmpty with
  | true =>
    have e : islandCheck r s = s := if_pos hc
    have hnil := List.isEmpty_iff.1 hc
    rw [e, Bool.not_true, Bool.or_false]
    exact ⟨RingIs.of_fur r rfl, fun _ h => h, fun p hp => by simp [hnil] at hp, fun h => absurd hnil h⟩
  | false =>
    let u := if z.island then s
      else report (setEvt (setRing s r { z with island := true }) rFUR_EVT (bitv 1)) (srcRing r) 0x0201
    have e : islandCheck r s = tocsinRetire ((cutOff z).map (· + 256 * r)) u := if_neg (by rw [hc]; decide)
    have hrg : rg (islandCheck r s) rFUR_EVT = rg u rFUR_EVT := e ▸ rg_tocsinRetire (by decide) _ _
    have hfur : (islandCheck r s).fur = u.fur := e ▸ (tocsinRetire_keeps (Keeps.refl [.regs, .flt, .cmd, .grn] u) rfl).only .fur rfl
    have hcells : ∀ p ∈ cutOff z, CellRetires (islandCheck r s) (p + 256 * r) := fun p hp =>
      e ▸ tocsinRetire_retires _ u _ (List.mem_map_of_mem hp)
    rw [Bool.not_false, Bool.or_true, hrg]
    cases hi : z.island with
    | true =>
      have hu : u = s := if_pos hi
      refine ⟨?_, fun i h => hu ▸ h, hcells, fun _ h => absurd h (by decide)⟩
      rw [← hi]
      exact RingIs.of_fur r (hfur.trans (by rw [hu]))
    | false =>
      have hu : u = report (setEvt (setRing s r { z with island := true }) rFUR_EVT (bitv 1)) (srcRing r) 0x0201 := if_neg (by rw [hi]; decide)
      have hevt : rg u rFUR_EVT = rg s rFUR_EVT ||| bitv 1 := by rw [hu, rg_report, rg_setEvt_same]; rfl
      rw [hevt]
      refine ⟨(ringIs_setRing r _ s).then_fur (hfur.trans (by rw [hu]; rfl)), fun i h => bit_or_left _ _ h, hcells, fun _ _ => bit_or_bitv _ (by decide)⟩

/-- The ring `z` with its wrap, before its island is known. -/
def WrapsTo (r : Nat) (z : Ring) (s t : State) : Prop :=
  RingIs r { z with island := z.island || !(cutOff z).isEmpty } s t ∧ ((ring s r).st = 4 → bit (rg t rFUR_EVT) 0 = true) ∧
    (∀ p, p ∈ cutOff z → retireDecided t (p + 256 * r) = true ∨ ∃ w ∈ cellTurns t (p + 256 * r), w.on = true ∧ w.ord = t.cmd.ord) ∧
    (cutOff z ≠ [] → (ring s r).island = false → bit (rg t rFUR_EVT) 1 = true)

/-- A running ring whose loops become `f` of it is wrapped, in an island or not. -/
theorem declared_wraps {r : Nat} {f : Ring → Ring} {s u : State} (hst : (f (ring u r)).st = (ring s r).st)
    (hi : (f (ring u r)).island = (ring s r).island) (hu : ∀ q, q ≠ r → ring u q = ring s q) :
    WrapsTo r (wrappedRing (f (ring u r))) s (snareEval (islandCheck r (declareWrap r (modRing r f u)))) := by
  have hmod := ringIs_modRing r f u
  have hwrap := hmod.trans (ringIs_declareWrap r _)
  rw [hmod.2] at hwrap
  have hisl : (wrappedRing (f (ring u r))).island = (ring s r).island := by
    unfold wrappedRing
    split
    · exact hi
    · exact hi
  obtain ⟨hring, hevt, hcells, hnew⟩ := islandCheck_cuts r (declareWrap r (modRing r f u))
  rw [hwrap.2] at hring hcells hnew
  have hall := (hwrap.trans hring).then_fur (snareEval_fur _)
  refine ⟨⟨fun q hq => (hall.1 q hq).trans (hu q hq), hall.2⟩, fun h4 => ?_, fun p hp => ?_, fun hc h => ?_⟩
  · rw [rg_snareEval_side (by decide)]
    exact hevt 0 (declareWrap_evt (by rw [hmod.2, hst, h4]))
  · exact (cellRetires_congr (snareEval_only _ .cmd rfl) _).2 (hcells p hp)
  · rw [rg_snareEval_side (by decide)]
    exact hnew hc (hisl.trans h)

/-- The loop ticks of a ring with `tick` that becomes known at tick `t`, and the earliest of them. -/
def ticksWith (x : Ring) (t tick : Nat) : List (Nat × Nat) := match x.loopTick with
  | some u => if u ≤ tick then x.ticks else x.ticks ++ [(t, tick)]
  | none => x.ticks ++ [(t, tick)]

def leastTick (x : Ring) (tick : Nat) : Nat := match x.loopTick with
  | some u => min u tick
  | none => tick

theorem holdTick_eq (t tick : Nat) (x : Ring) :
    holdTick t tick x = { x with loopTick := some (leastTick x tick), ticks := ticksWith x t tick } := by
  unfold holdTick minTick leastTick ticksWith
  cases x.loopTick with
  | none => rfl
  | some u => simp only [decide_eq_true_eq]

/-- A running ring that is declared wrapped. -/
theorem wrappedRing_running {y : Ring} (h : y.st = 4 ∨ y.st = 5) : wrappedRing y = { y with st := 5, wrapped := y.wrapped || y.st == 4 } := by
  rcases h with h | h
  · rw [wrappedRing, if_pos h, h]
    simp
  · have hw : (y.wrapped || y.st == 4) = y.wrapped := by simp [h]
    rw [wrappedRing, if_neg (by omega), hw, ← h]

/-! ### Input loss and WRAP_AT (R187, R210, R212) -/

/-- The ring `y`, made of `x`, declared wrapped with a loop tick `tick` that becomes known at tick `t`. -/
def loopedRing (x y : Ring) (t tick : Nat) : Ring :=
  { y with st := 5, wrapped := x.wrapped || x.st == 4, ticks := ticksWith x t tick, loopTick := some (leastTick x tick) }

/-- What a wrap of its own changes of a ring leaves the state, the flag and the loop ticks. -/
structure SameWrap (x y : Ring) : Prop where
  st : y.st = x.st
  wrapped : y.wrapped = x.wrapped
  island : y.island = x.island
  ticks : y.ticks = x.ticks
  loopTick : y.loopTick = x.loopTick

theorem holdTick_st (t tick : Nat) (y : Ring) : (holdTick t tick y).st = y.st := rfl

theorem wrappedRing_holdTick {x y : Ring} (h : SameWrap x y) (hrun : x.st = 4 ∨ x.st = 5) (t tick : Nat) :
    wrappedRing (holdTick t tick y) = loopedRing x y t tick := by
  obtain ⟨hst, hwrapped, -, hticks, hloop⟩ := h
  have hheld : ticksWith y t tick = ticksWith x t tick := by rw [ticksWith, ticksWith, hticks, hloop]
  have hleast : leastTick y tick = leastTick x tick := by rw [leastTick, leastTick, hloop]
  have hy : wrappedRing (holdTick t tick y) = { holdTick t tick y with st := 5, wrapped := y.wrapped || y.st == 4 } :=
    wrappedRing_running (by rwa [holdTick_st, hst])
  exact hy.trans (by rw [loopedRing, holdTick_eq, hheld, hleast, hst, hwrapped])

/-- A running ring `s` that, standing at `y` in `u`, takes a loop tick. -/
theorem held_wraps {r : Nat} {f : Ring → Ring} {s u : State} (hu : ∀ q, q ≠ r → ring u q = ring s q) (hrun : (ring s r).st = 4 ∨ (ring s r).st = 5)
    {y : Ring} (t tick : Nat) (hf : f (ring u r) = holdTick t tick y) (hy : SameWrap (ring s r) y) :
    WrapsTo r (loopedRing (ring s r) y t tick) s (snareEval (islandCheck r (declareWrap r (modRing r f u)))) := by
  have h := declared_wraps (f := f) (s := s) (u := u) (by rw [hf]; exact hy.st) (by rw [hf]; exact hy.island) hu
  rwa [hf, wrappedRing_holdTick hy hrun] at h

/-- The ring that lost the input of lane `l`, and the loop at the device's own port. -/
def deafRing (l : Lane) (x : Ring) : Ring := match l with
  | .a => { x with aLock := false, silB := true }
  | .b => { x with bLock := false, silA := true }

def ownLoop (l : Lane) (x : Ring) : Ring := match l with
  | .a => { x with gxB := true }
  | .b => { x with gxA := true }

theorem sameWrap_deaf (l : Lane) (x : Ring) : SameWrap x (deafRing l x) := by
  cases l with
  | a => exact ⟨rfl, rfl, rfl, rfl, rfl⟩
  | b => exact ⟨rfl, rfl, rfl, rfl, rfl⟩

theorem sameWrap_ownLoop (l : Lane) (x : Ring) : SameWrap x (ownLoop l (deafRing l x)) := by
  cases l with
  | a => exact ⟨rfl, rfl, rfl, rfl, rfl⟩
  | b => exact ⟨rfl, rfl, rfl, rfl, rfl⟩

theorem ringRunning_iff (x : Ring) : ringRunning x = true ↔ x.st = 4 ∨ x.st = 5 := by
  simp only [ringRunning, Bool.or_eq_true, beq_iff_eq]

/-- What input loss does after the lane is deaf. -/
theorem inputLoss_eq (r : Nat) (l : Lane) (s : State) : inputLoss r l s =
    if ringRunning (ring (modRing r (deafRing l) s) r) = true then
      islandCheck r (declareWrap r (modRing r (fun x => holdTick (now s) (now s) (ownLoop l x)) (modRing r (deafRing l) s)))
    else modRing r (deafRing l) s := rfl

theorem inputLoss_idle {r : Nat} {s : State} (l : Lane) (h : ¬ ((ring s r).st = 4 ∨ (ring s r).st = 5)) :
    RingIs r (deafRing l (ring s r)) s (snareEval (inputLoss r l s)) := by
  have hmod := ringIs_modRing r (deafRing l) s
  rw [inputLoss_eq, if_neg (by rwa [ringRunning_iff, hmod.2, (sameWrap_deaf l _).st])]
  exact hmod.then_fur (snareEval_fur _)

theorem inputLoss_wraps {r : Nat} {s : State} (l : Lane) (h : (ring s r).st = 4 ∨ (ring s r).st = 5) :
    WrapsTo r (loopedRing (ring s r) (ownLoop l (deafRing l (ring s r))) (now s) (now s)) s (snareEval (inputLoss r l s)) := by
  have hmod := ringIs_modRing r (deafRing l) s
  rw [inputLoss_eq, if_pos (by rwa [ringRunning_iff, hmod.2, (sameWrap_deaf l _).st])]
  exact held_wraps hmod.1 h _ _ (congrArg (fun x => holdTick (now s) (now s) (ownLoop l x)) hmod.2) (sameWrap_ownLoop l _)

theorem exec_rxInputLoss_kept {r : Fin 64} {l : Lane} {bad : BitVec 32} {s : State} (h : inputLost bad = false) :
    exec (.rxInputLoss r l bad) s = .next s := congrArg _ (if_neg (by rw [h]; decide))

theorem exec_rxInputLoss_lost {r : Fin 64} {l : Lane} {bad : BitVec 32} {s : State} (h : inputLost bad = true) :
    exec (.rxInputLoss r l bad) s = .next (snareEval (inputLoss r l s)) := congrArg _ (if_pos h)

/-- The loop that a WRAP_AT declares at position `pos`. -/
def loopAt (pos : Nat) (side : Bool) (x : Ring) : Ring := if side = true then { x with loopB := some pos } else { x with loopA := some pos }

theorem sameWrap_loopAt (pos : Nat) (side : Bool) (x : Ring) : SameWrap x (loopAt pos side x) := by
  cases side with
  | false => exact ⟨rfl, rfl, rfl, rfl, rfl⟩
  | true => exact ⟨rfl, rfl, rfl, rfl, rfl⟩

theorem wrapIgnored_iff (s : State) (x : Ring) (pos : Nat) (side : Bool) :
    wrapIgnored s x pos side = true ↔ now s < s.stk.unloopEnd ∧ (if side = true then pos = 0 else pos + 1 = x.n) := by
  cases side with
  | false => simp [wrapIgnored]
  | true => simp [wrapIgnored]

theorem wrapAt_kept {r pos : Nat} {side : Bool} {lt : Nat} {s : State}
    (h : ¬ ((ring s r).st = 4 ∨ (ring s r).st = 5) ∨ wrapIgnored s (ring s r) pos side = true) : wrapAt r pos side lt s = s := by
  refine if_pos ?_
  rw [Bool.or_eq_true, Bool.not_eq_true', ← Bool.not_eq_true, ringRunning_iff]
  exact h

theorem wrapAt_wraps {r pos : Nat} {side : Bool} {s : State} (hrun : (ring s r).st = 4 ∨ (ring s r).st = 5)
    (hi : ¬ wrapIgnored s (ring s r) pos side = true) (lt : Nat) :
    WrapsTo r (loopedRing (ring s r) (loopAt pos side (ring s r)) (now s) (loopTickAt (now s) lt)) s (snareEval (wrapAt r pos side lt s)) := by
  let f (x : Ring) : Ring := if side = true then { holdTick (now s) (loopTickAt (now s) lt) x with loopB := some pos }
    else { holdTick (now s) (loopTickAt (now s) lt) x with loopA := some pos }
  have e : wrapAt r pos side lt s = islandCheck r (declareWrap r (modRing r f s)) := by
    refine if_neg ?_
    rw [Bool.or_eq_true, Bool.not_eq_true', ← Bool.not_eq_true, ringRunning_iff]
    exact fun h => h.elim (fun h => h hrun) hi
  have hf : f (ring s r) = holdTick (now s) (loopTickAt (now s) lt) (loopAt pos side (ring s r)) := by
    cases side with
    | false => rfl
    | true => rfl
  rw [e]
  exact held_wraps (fun _ _ => rfl) hrun _ _ hf (sameWrap_loopAt pos side _)

/-! ### Span delays (R200) -/

/-- The block goes out on the TX of the neighbour that was heard, unless that is silent. -/
theorem hopSend_eq (r : Nat) (l : Lane) (b : Block) (s : State) : let x := ring s r
    RingIs r (match l with
      | .a => if (x.silB || x.offB) = true then x else { x with hopB := some b }
      | .b => if (x.silA || x.offA) = true then x else { x with hopA := some b }) s (hopSend r l b s) := by
  cases l with
  | a => exact ringIs_modRing r (hopPut .b b) s
  | b => exact ringIs_modRing r (hopPut .a b) s

theorem exec_pdReqReceive (r : Fin 64) (l : Lane) (sq : U8) (turn : BitVec 24) (s : State) : exec (.pdReqReceive r l sq turn) s =
    .next (if s.stk.role = 1 then s else hopSend r l (ctl (0xAA + sq.toNat * 2 ^ 8 + turn.toNat * 2 ^ 16)) s) := rfl

/-! ### A part that comes back (R161, R162, R190, R197) -/

/-- What the checks of a returned part leave of its ring: the state, the receive buffer and what the return itself set. -/
structure SameReturn (x y : Ring) : Prop where
  st : y.st = x.st
  rx : y.rx = x.rx
  trans : y.trans = x.trans
  ret : y.ret = x.ret
  wrapped : y.wrapped = x.wrapped

theorem SameReturn.comp {x y z : Ring} (h : SameReturn x y) (g : SameReturn y z) : SameReturn x z :=
  ⟨g.st.trans h.st, g.rx.trans h.rx, g.trans.trans h.trans, g.ret.trans h.ret, g.wrapped.trans h.wrapped⟩

/-- Of the rings only `r` differs, and in none of what a return set. -/
def ReturnKept (r : Nat) (s t : State) : Prop := ∃ y, RingIs r y s t ∧ SameReturn (ring s r) y

theorem ReturnKept.refl (r : Nat) (s : State) : ReturnKept r s s := ⟨_, RingIs.of_fur r rfl, rfl, rfl, rfl, rfl, rfl⟩

theorem ReturnKept.trans {r : Nat} {s t u : State} (h : ReturnKept r s t) (g : ReturnKept r t u) : ReturnKept r s u := by
  obtain ⟨y, hy, hxy⟩ := h
  obtain ⟨z, hz, hyz⟩ := g
  rw [hy.2] at hyz
  exact ⟨z, hy.trans hz, hxy.comp hyz⟩

theorem ReturnKept.then_rings {r : Nat} {s t u : State} (h : ReturnKept r s t) (g : u.fur.rings = t.fur.rings) : ReturnKept r s u := by
  obtain ⟨y, hy, hxy⟩ := h
  exact ⟨y, hy.then_rings g, hxy⟩

theorem returnKept_modRing {r : Nat} {f : Ring → Ring} (hf : ∀ x, SameReturn x (f x)) (s : State) : ReturnKept r s (modRing r f s) :=
  ⟨_, ringIs_modRing r f s, hf _⟩

theorem returnKept_frameLossOff (r : Nat) (s : State) : ReturnKept r s (frameLossOff r s) := by
  obtain ⟨n, l, h⟩ := ringIs_frameLossOff r s
  exact ⟨_, h, rfl, rfl, rfl, rfl, rfl⟩

theorem returnKept_asymCheck (r transit cum : Nat) (s : State) : ReturnKept r s (asymCheck r transit cum s) := by
  let x := ring s r
  let y : Ring := { x with asym := (transit : Int) - (cum + x.spanN : Nat), warn := decide (24 < ((transit : Int) - (cum + x.spanN : Nat)).natAbs) }
  have hset : ReturnKept r s (setRing s r y) := ⟨y, ringIs_setRing r y s, rfl, rfl, rfl, rfl, rfl⟩
  have e : (asymCheck r transit cum s).fur.rings = (setRing s r y).fur.rings := by
    unfold asymCheck
    dsimp only
    split
    · rfl
    · split
      · rfl
      · rfl
  exact hset.then_rings e

theorem rg_asymCheck {o : Nat} (he : o ≠ rFUR_EVT) (r transit cum : Nat) (s : State) : rg (asymCheck r transit cum s) o = rg s o := by
  unfold asymCheck
  dsimp only
  split
  · rfl
  · split
    · exact rg_wr_ne _ _ _ _ he
    · exact rg_wr_ne _ _ _ _ he

/-! The stages of a whole part's return. -/

/-- A good part ends a frame loss and may give ASYM (R202, R218). -/
def returnGood (r transit : Nat) (asym : Bool) (bs : List Block) (s : State) : State :=
  if asym then asymCheck r transit (fld ((bs.getD 4 {}).data) 23 0) (frameLossOff r s) else frameLossOff r s

/-- The counter of bad parts on an RX. -/
def crcReg (r : Nat) (l : Lane) : Nat := match l with
  | .a => rFUR_RING_CRCA r
  | .b => rFUR_RING_CRCB r

/-- The STOMPED mark of a part whose EOF, `e`, bears one (R197). -/
def returnStomp (r : Nat) (l : Lane) (e : U64) (s : State) : State :=
  if bit e 48 then modRing r (fun x => { x with stomp := pack [(0, fld e 47 40), (8, laneNo l), (9, 1)] }) s else s

/-- A bad part is counted and reported, with its mark (R197). -/
def returnBad (r : Nat) (l : Lane) (bs : List Block) (s : State) : State :=
  report (setEvt (count (returnStomp r l (((bs.getLast?).map (·.data)).getD 0) s) (crcReg r l)) rFUR_EVT (bitv (3 + laneNo l))) (srcLane r l) 0x0203

/-- The lane's bucket takes the part in, and may retire the lane (R221). -/
def returnBucket (r : Nat) (l : Lane) (good : Bool) (s : State) : State :=
  let q := bucketFrame 1 (2 * r + laneNo l) (!good) s
  if q.1 then retireLane r l q.2 else q.2

/-- The part with its reports. -/
def returnedPart (l : Lane) (j : Nat) (wrapped : Bool) (n : Nat) (bs : List Block) : Part :=
  ⟨j, l, partGood bs, if partGood bs && (wrapped || bit ((bs.head?.map (·.data)).getD 0) 16 || l == .a) then partReports n bs else []⟩

/-- The part joins the receive buffer, and RETMAX takes its time in. -/
def returnStored (r : Nat) (l : Lane) (j transit ret : Nat) (bs : List Block) (s : State) : State :=
  let u := rxPut r (returnedPart l j (frameWrapped s (ring s r) j) (ring s r).n bs) (modRing r (fun x => { x with trans := transit, ret := ret }) s)
  wr u (rFUR_RING_RETMAX r) (u32 (max (rg u (rFUR_RING_RETMAX r)).toNat (min ret 65535)))

theorem partReturn_eq (r : Nat) (l : Lane) (j transit ret : Nat) (bs : List Block) (s : State) : partReturn r l j transit ret bs s =
    returnBucket r l (partGood bs) (
      if partGood bs then returnGood r transit
        (!bit ((bs.head?.map (·.data)).getD 0) 16 && !frameWrapped s (ring s r) j && l == .a) bs (returnStored r l j transit ret bs s)
      else returnBad r l bs (returnStored r l j transit ret bs s)) := by
  cases l with
  | a => rfl
  | b => rfl

theorem returnKept_returnGood (r transit : Nat) (asym : Bool) (bs : List Block) (s : State) : ReturnKept r s (returnGood r transit asym bs s) := by
  unfold returnGood
  split
  · exact (returnKept_frameLossOff r s).trans (returnKept_asymCheck r _ _ _)
  · exact returnKept_frameLossOff r s

theorem rg_returnGood {o : Nat} (ho : o ∉ sideRegs) (he : o ≠ rFUR_EVT) (r transit : Nat) (asym : Bool) (bs : List Block) (s : State) :
    rg (returnGood r transit asym bs s) o = rg s o := by
  unfold returnGood
  split
  · exact (rg_asymCheck he r _ _ _).trans (rg_frameLossOff ho r s)
  · exact rg_frameLossOff ho r s

theorem sameReturn_stomp (w : U32) (x : Ring) : SameReturn x { x with stomp := w } := ⟨rfl, rfl, rfl, rfl, rfl⟩

theorem returnKept_returnStomp (r : Nat) (l : Lane) (e : U64) (s : State) : ReturnKept r s (returnStomp r l e s) := by
  unfold returnStomp
  split
  · exact returnKept_modRing (sameReturn_stomp _) s
  · exact ReturnKept.refl r s

theorem rg_returnStomp (r : Nat) (l : Lane) (e : U64) (s : State) (o : Nat) : rg (returnStomp r l e s) o = rg s o := by
  unfold returnStomp
  split
  · rfl
  · rfl

theorem returnKept_returnBad (r : Nat) (l : Lane) (bs : List Block) (s : State) : ReturnKept r s (returnBad r l bs s) :=
  (returnKept_returnStomp r l _ s).then_rings (by rw [returnBad]; rfl)

theorem rg_returnBad_ne {o : Nat} {r : Nat} {l : Lane} (he : o ≠ rFUR_EVT) (hc : o ≠ crcReg r l) (bs : List Block) (s : State) :
    rg (returnBad r l bs s) o = rg s o := by
  rw [returnBad, rg_report, setEvt, rg_wr_ne _ _ _ _ he, count, rg_wr_ne _ _ _ _ hc, rg_returnStomp]

theorem rg_returnBad_crc {r : Nat} {l : Lane} (he : crcReg r l ≠ rFUR_EVT) (bs : List Block) (s : State) :
    rg (returnBad r l bs s) (crcReg r l) = satInc (rg s (crcReg r l)) := by
  rw [returnBad, rg_report, setEvt, rg_wr_ne _ _ _ _ he, rg_count_same, rg_returnStomp]

theorem bucketFrame_fur (t e : Nat) (error : Bool) (s : State) : (bucketFrame t e error s).2.fur = s.fur := by
  unfold bucketFrame
  dsimp only
  split
  · rfl
  · rfl

theorem rg_bucketFrame {o : Nat} (ho : o ∉ sideRegs) (e : Nat) (error : Bool) (s : State) : rg (bucketFrame 1 e error s).2 o = rg s o := by
  unfold bucketFrame
  dsimp only
  split
  · exact rg_wr_ne _ _ _ _ (ne_of_not_sideReg ho (by decide))
  · rfl

theorem returnKept_retireLane (r : Nat) (l : Lane) (s : State) : ReturnKept r s (retireLane r l s) := by
  refine (returnKept_modRing (r := r) (fun _ => ?_) s).then_rings (t := modRing r (fun x => match l with
    | .a => { x with offA := true }
    | .b => { x with offB := true }) s) rfl
  cases l with
  | a => exact ⟨rfl, rfl, rfl, rfl, rfl⟩
  | b => exact ⟨rfl, rfl, rfl, rfl, rfl⟩

theorem returnKept_returnBucket (r : Nat) (l : Lane) (good : Bool) (s : State) : ReturnKept r s (returnBucket r l good s) := by
  have hb := (ReturnKept.refl r s).then_rings (congrArg Fur.rings (bucketFrame_fur 1 (2 * r + laneNo l) (!good) s))
  unfold returnBucket
  dsimp only
  split
  · exact hb.trans (returnKept_retireLane r l _)
  · exact hb

theorem rg_returnBucket {o : Nat} (ho : o ∉ sideRegs) (r : Nat) (l : Lane) (good : Bool) (s : State) : rg (returnBucket r l good s) o = rg s o := by
  have hb := rg_bucketFrame ho (2 * r + laneNo l) (!good) s
  unfold returnBucket
  dsimp only
  split
  · exact (rg_wr_ne _ _ _ _ (ne_of_not_sideReg ho (by decide))).trans hb
  · exact hb

theorem rxPut_closed {r : Nat} {p : Part} {s : State} (h : reportsClosed s p.frame = true) : rxPut r p s = s := if_pos h

theorem rxPut_open {r : Nat} {p : Part} {s : State} (h : reportsClosed s p.frame = false) :
    rxPut r p s = modRing r (fun x => { x with rx := x.rx ++ [p] }) s := if_neg (by rw [h]; decide)

theorem reportsClosed_iff (s : State) (j : Nat) : reportsClosed s j = true ↔ ∃ k, s.grn.next = some k ∧ j ≤ k := by
  unfold reportsClosed
  cases h : s.grn.next with
  | none => simp
  | some k => simp

/-- The receive buffer after a part. -/
def rxAfter (closed : Bool) (p : Part) (x : Ring) : List Part := if closed then x.rx else x.rx ++ [p]

theorem ringIs_rxPut (r : Nat) (p : Part) (s : State) :
    RingIs r { ring s r with rx := rxAfter (reportsClosed s p.frame) p (ring s r) } s (rxPut r p s) := by
  cases h : reportsClosed s p.frame with
  | true =>
    rw [rxPut_closed h]
    exact RingIs.of_fur r rfl
  | false =>
    rw [rxPut_open h]
    exact ringIs_modRing r _ s

theorem rxPut_regs (r : Nat) (p : Part) (s : State) : (rxPut r p s).regs = s.regs :=
  (rxPut_keeps (Keeps.refl [.fur] s) rfl).only .regs rfl

theorem returnStored_eq (r : Nat) (l : Lane) (j transit ret : Nat) (bs : List Block) (s : State) :
    let p := returnedPart l j (frameWrapped s (ring s r) j) (ring s r).n bs
    RingIs r { ring s r with trans := transit, ret := ret, rx := rxAfter (reportsClosed s j) p (ring s r) } s (returnStored r l j transit ret bs s) ∧
      rg (returnStored r l j transit ret bs s) (rFUR_RING_RETMAX r) = u32 (max (rg s (rFUR_RING_RETMAX r)).toNat (min ret 65535)) ∧
      ∀ o, o ≠ rFUR_RING_RETMAX r → rg (returnStored r l j transit ret bs s) o = rg s o := by
  intro p
  have hmod := ringIs_modRing r (fun x => { x with trans := transit, ret := ret }) s
  have hput := hmod.trans (ringIs_rxPut r p _)
  rw [hmod.2] at hput
  have hregs : (rxPut r p (modRing r (fun x => { x with trans := transit, ret := ret }) s)).regs = s.regs := rxPut_regs r p _
  have hr := rg_congr hregs
  exact ⟨hput.then_rings rfl, (rg_wr_same _ _ _).trans (by rw [hr]), fun o ho => (rg_wr_ne _ _ _ _ ho).trans (hr o)⟩

/-! ### A part that arrives (R160 to R162, R212, R217) -/

/-- The ring after the SOF of what came back: a looped SOF declares the wrap. -/
def arrivedRing (bs : List Block) (x : Ring) : Ring := if sofLooped bs = true ∧ x.st = 4 then { x with st := 5, wrapped := true } else x

/-- Ticks from F_j until a part is back. -/
def partBack (transit : Nat) (bs : List Block) : Nat := (transit * 5 + 255) / 256 + 2 * bs.length

/-- Time passes until the part is back, and its SOF is seen. -/
def partArrives (r j transit : Nat) (bs : List Block) (s : State) : State :=
  if sofLooped bs then declareWrap r (advanceTo s (j * lTicks s + partBack transit bs)) else advanceTo s (j * lTicks s + partBack transit bs)

theorem ringIs_partArrives (r j transit : Nat) (bs : List Block) (s : State) :
    RingIs r (arrivedRing bs (ring s r)) s (partArrives r j transit bs s) := by
  have hfur := advanceTo_fur s (j * lTicks s + partBack transit bs)
  have hadv := RingIs.of_fur r hfur
  unfold partArrives
  split
  · next h =>
    have hwrap := hadv.trans (ringIs_declareWrap r _)
    rw [hadv.2, wrappedRing] at hwrap
    simpa only [arrivedRing, h, true_and] using hwrap
  · next h =>
    rwa [arrivedRing, if_neg (fun g => h g.1)]

/-- What the arrival leaves of the other areas. -/
theorem partArrives_only (r j transit : Nat) (bs : List Block) (s : State) :
    ChangesOnly [.regs, .flt, .cmd, .ints, .cores, .fur, .snr] (advanceTo s (j * lTicks s + partBack transit bs)) (partArrives r j transit bs s) := by
  unfold partArrives
  split
  · exact (declareWrap_keeps (Keeps.refl _ _) rfl).only
  · exact (Keeps.refl _ _).only

theorem partArrives_tick (r j transit : Nat) (bs : List Block) (s : State) :
    (partArrives r j transit bs s).tick = u64 (max (now s) (j * lTicks s + partBack transit bs)) :=
  (partArrives_only r j transit bs s .tick rfl).trans (advanceTo_tick_max s _)

theorem partArrives_grn (r j transit : Nat) (bs : List Block) (s : State) : (partArrives r j transit bs s).grn = s.grn :=
  (partArrives_only r j transit bs s .grn rfl).trans (advanceTo_only s _ .grn rfl)

theorem rg_partArrives {o : Nat} (ho : o ∉ sideRegs) (he : o ≠ rFUR_EVT) (r j transit : Nat) (bs : List Block) (s : State) :
    rg (partArrives r j transit bs s) o = rg s o := by
  have hadv := rg_congr (advanceTo_only s (j * lTicks s + partBack transit bs) .regs rfl) o
  unfold partArrives
  split
  · exact (rg_declareWrap ho he r _).trans hadv
  · exact hadv

theorem lTicks_partArrives (r j transit : Nat) (bs : List Block) (s : State) : lTicks (partArrives r j transit bs s) = lTicks s := by
  have hsys : (partArrives r j transit bs s).sys = s.sys := (partArrives_only r j transit bs s .sys rfl).trans (advanceTo_only s _ .sys rfl)
  have hflen : flenCode (partArrives r j transit bs s) = flenCode s := by
    rw [flenCode, flenCode, hsys, rg_partArrives (by decide) (by decide)]
  rw [lTicks, lTicks, hflen]

theorem frameWrapped_partArrives {x y : Ring} (h : y.ticks = x.ticks) (r j transit : Nat) (bs : List Block) (s : State) :
    frameWrapped (partArrives r j transit bs s) y j = frameWrapped s x j := by
  simp only [frameWrapped, h, lTicks_partArrives, rg_partArrives (o := rGRN_CLOSE_CFG) (by decide) (by decide)]

theorem closeTicks_partArrives (x : Ring) (r j transit : Nat) (bs : List Block) (s : State) :
    closeTicks (partArrives r j transit bs s) x j = closeTicks s x j := by
  simp only [closeTicks, frameWrapped_partArrives (rfl : x.ticks = x.ticks), rg_partArrives (o := rGRN_CLOSE_CFG) (by decide) (by decide)]

theorem reportsClosed_partArrives (k r j transit : Nat) (bs : List Block) (s : State) :
    reportsClosed (partArrives r j transit bs s) k = reportsClosed s k := by
  simp only [reportsClosed, partArrives_grn]

/-- The wrap that a looped SOF declares changes the state and the flag of the ring alone. -/
theorem arrivedRing_eq (bs : List Block) (x : Ring) : ∃ st w, arrivedRing bs x = { x with st := st, wrapped := w } := by
  unfold arrivedRing
  split
  · exact ⟨_, _, rfl⟩
  · exact ⟨_, _, rfl⟩

theorem arrivedRing_rx (bs : List Block) (x : Ring) : (arrivedRing bs x).rx = x.rx := by
  obtain ⟨st, w, h⟩ := arrivedRing_eq bs x
  exact (congrArg Ring.rx h :)

theorem framePart_shadow {r : Nat} {s : State} (h : s.stk.role = 1) (l : Lane) (j transit : Nat) (bs : List Block) : framePart r l j transit bs s =
    modRing r (fun x => match l with | .a => { x with aLock := true } | .b => { x with bLock := true }) s := if_pos h

/-- Does ring `r` carry cycle frames, and was frame `j` sent on it. -/
def Carried (s : State) (r j : Nat) : Prop := ringLive (ring s r) = true ∧ ∃ f ∈ s.fur.sent, f.frame = j ∧ f.ring = r

theorem carried_iff (s : State) (r j : Nat) :
    (ringLive (ring s r) && s.fur.sent.any (fun f => f.frame == j && f.ring == r)) = true ↔ Carried s r j := by
  simp only [Carried, Bool.and_eq_true, List.any_eq_true, beq_iff_eq]

section
variable {r : Nat} {s : State} {j : Nat}

theorem framePart_foreign (hrole : s.stk.role ≠ 1) (h : ¬ Carried s r j) (l : Lane) (transit : Nat) (bs : List Block) :
    framePart r l j transit bs s = s := by
  have hf := Bool.eq_false_of_not_eq_true (mt (carried_iff s r j).1 h)
  exact (if_neg hrole).trans (if_pos (by rw [hf]; rfl))

theorem framePart_carried (hrole : s.stk.role ≠ 1) (h : Carried s r j) (l : Lane) (transit : Nat) (bs : List Block) :
    framePart r l j transit bs s =
      if closeTicks (partArrives r j transit bs s) (ring s r) j < partBack transit bs then count (partArrives r j transit bs s) rGRN_LATE_DROP
      else if partShape (ring s r).n bs then partReturn r l j transit (partBack transit bs) bs (partArrives r j transit bs s)
      else partFragment r l j bs (partArrives r j transit bs s) :=
  (if_neg hrole).trans (if_neg (by rw [(carried_iff s r j).2 h]; decide))

/-- A part too late is counted. -/
theorem framePart_late (hrole : s.stk.role ≠ 1) (h : Carried s r j) {transit : Nat} {bs : List Block}
    (hl : closeTicks s (ring s r) j < partBack transit bs) (l : Lane) :
    framePart r l j transit bs s = count (partArrives r j transit bs s) rGRN_LATE_DROP := by
  rw [framePart_carried hrole h, if_pos (by rwa [closeTicks_partArrives])]

theorem framePart_whole (hrole : s.stk.role ≠ 1) (h : Carried s r j) {transit : Nat} {bs : List Block}
    (hl : ¬ closeTicks s (ring s r) j < partBack transit bs) (hp : partShape (ring s r).n bs = true) (l : Lane) :
    framePart r l j transit bs s = partReturn r l j transit (partBack transit bs) bs (partArrives r j transit bs s) := by
  rw [framePart_carried hrole h, if_neg (by rwa [closeTicks_partArrives]), if_pos hp]

theorem framePart_fragment (hrole : s.stk.role ≠ 1) (h : Carried s r j) {transit : Nat} {bs : List Block}
    (hl : ¬ closeTicks s (ring s r) j < partBack transit bs) (hp : partShape (ring s r).n bs = false) (l : Lane) :
    framePart r l j transit bs s = partFragment r l j bs (partArrives r j transit bs s) := by
  rw [framePart_carried hrole h, if_neg (by rwa [closeTicks_partArrives]), if_neg (by rw [hp]; decide)]

end

theorem ringReg_ne_evt (r k : Nat) : 0x801000 + k + 0x40 * r ≠ rFUR_EVT := by
  unfold rFUR_EVT
  omega

/-- A part that is no frame of the ring is counted, and one that a burst cut joins the receive buffer as failed (R161). -/
theorem partFragment_eq (r : Fin 64) (l : Lane) (j : Nat) (bs : List Block) (s : State) :
    let cut : Part := { frame := j, lane := l, good := false, reports := [] }
    RingIs r { ring s r with rx := if bs.any (isCtl 0xD2) = true then rxAfter (reportsClosed s j) cut (ring s r) else (ring s r).rx } s
        (partFragment r l j bs s) ∧
      rg (partFragment r l j bs s) (rFUR_RING_FRAG r) = satInc (rg s (rFUR_RING_FRAG r)) ∧ bit (rg (partFragment r l j bs s) rFUR_EVT) 8 = true := by
  intro cut
  let u := report (setEvt (count s (rFUR_RING_FRAG r)) rFUR_EVT (bitv 8)) (srcLane r l) 0x0204
  have e : partFragment r l j bs s = if bs.any (isCtl 0xD2) = true then rxPut r cut u else u := rfl
  have hregs : (partFragment r l j bs s).regs = u.regs := by
    rw [e]
    split
    · exact rxPut_regs _ _ _
    · rfl
  have hfrag : rg u (rFUR_RING_FRAG r) = satInc (rg s (rFUR_RING_FRAG r)) := by
    rw [rg_report, setEvt, rg_wr_ne _ _ _ _ (ringReg_ne_evt r 0x2C), rg_count_same]
  have hevt : bit (rg u rFUR_EVT) 8 = true := by
    rw [rg_report, rg_setEvt_same]
    exact bit_or_bitv _ (by decide)
  refine ⟨?_, (rg_congr hregs _).trans hfrag, by rwa [rg_congr hregs]⟩
  have hu : RingIs r (ring s r) s u := (RingIs.of_fur r rfl).then_rings rfl
  rw [e]
  split
  · exact hu.trans (ringIs_rxPut r cut u)
  · exact hu

/-- The two RX of a ring count in two registers. -/
theorem crcReg_inj {r : Nat} {k l : Lane} (h : crcReg r k = crcReg r l) : k = l := by
  cases k with
  | a => cases l with
    | a => rfl
    | b => exact absurd (Nat.add_right_cancel h) (by decide)
  | b => cases l with
    | a => exact absurd (Nat.add_right_cancel h) (by decide)
    | b => rfl

theorem crcReg_own (r : Fin 64) (l : Lane) : crcReg r l ∉ sideRegs ∧ crcReg r l ≠ rFUR_EVT := by
  cases l with
  | a => exact ⟨ringReg_not_sideReg r 0x20 (by decide), ringReg_ne_evt r 0x20⟩
  | b => exact ⟨ringReg_not_sideReg r 0x24 (by decide), ringReg_ne_evt r 0x24⟩

theorem crcReg_ne_retmax (r : Nat) (l : Lane) : crcReg r l ≠ rFUR_RING_RETMAX r := by
  intro h
  cases l with
  | a => exact absurd (Nat.add_right_cancel h) (by decide)
  | b => exact absurd (Nat.add_right_cancel h) (by decide)

/-- A whole part: its return, and the counter of bad parts of its RX. -/
theorem partReturn_returns (r : Fin 64) (l : Lane) (j transit ret : Nat) (bs : List Block) (s : State) :
    let p := returnedPart l j (frameWrapped s (ring s r) j) (ring s r).n bs
    let t := partReturn r l j transit ret bs s
    (∃ y, RingIs r y s t ∧ y.st = (ring s r).st ∧ y.rx = rxAfter (reportsClosed s j) p (ring s r) ∧ y.trans = transit ∧ y.ret = ret ∧
        y.wrapped = (ring s r).wrapped) ∧
      rg t (rFUR_RING_RETMAX r) = u32 (max (rg s (rFUR_RING_RETMAX r)).toNat (min ret 65535)) ∧
      ∀ k, rg t (crcReg r k) = if partGood bs = false ∧ l = k then satInc (rg s (crcReg r k)) else rg s (crcReg r k) := by
  intro p t
  obtain ⟨hstored, hmax, hregs⟩ := returnStored_eq r l j transit ret bs s
  have hmaxSide : rFUR_RING_RETMAX r ∉ sideRegs := ringReg_not_sideReg r 0x1C (by decide)
  have hmaxEvt : rFUR_RING_RETMAX r ≠ rFUR_EVT := ringReg_ne_evt r 0x1C
  have e : t = _ := partReturn_eq r l j transit ret bs s
  have hkept : ReturnKept r (returnStored r l j transit ret bs s) t := by
    rw [e]
    refine ReturnKept.trans ?_ (returnKept_returnBucket r l _ _)
    split
    · exact returnKept_returnGood r _ _ _ _
    · exact returnKept_returnBad r l bs _
  have hring : ∃ y, RingIs r y s t ∧ y.st = (ring s r).st ∧ y.rx = rxAfter (reportsClosed s j) p (ring s r) ∧ y.trans = transit ∧ y.ret = ret ∧
      y.wrapped = (ring s r).wrapped := by
    obtain ⟨y, hy, hsame⟩ := hkept
    rw [hstored.2] at hsame
    exact ⟨y, hstored.trans hy, hsame.st, hsame.rx, hsame.trans, hsame.ret, hsame.wrapped⟩
  refine ⟨hring, ?_, fun k => ?_⟩
  · rw [e, rg_returnBucket hmaxSide, ← hmax]
    split
    · exact rg_returnGood hmaxSide hmaxEvt r _ _ _ _
    · exact rg_returnBad_ne hmaxEvt (crcReg_ne_retmax r l).symm bs _
  · obtain ⟨hside, hevt⟩ := crcReg_own r k
    rw [e, rg_returnBucket hside, ← hregs _ (crcReg_ne_retmax r k)]
    cases hg : partGood bs with
    | true =>
      rw [if_pos rfl, if_neg (by simp)]
      exact rg_returnGood hside hevt r _ _ _ _
    | false =>
      rw [if_neg (by decide)]
      by_cases hl : l = k
      · rw [if_pos ⟨rfl, hl⟩, ← hl]
        exact rg_returnBad_crc (crcReg_own r l).2 bs _
      · rw [if_neg (fun h => hl h.2)]
        exact rg_returnBad_ne hevt (fun h => hl (crcReg_inj h).symm) bs _

/-! What is left of ring `r` and the counters once the part has arrived and Snare's trigger has been evaluated. -/

section
variable {r : Fin 64} {s : State} {j : Nat} (hrole : s.stk.role ≠ 1) (hc : Carried s r j) {transit : Nat} {bs : List Block} (l : Lane)
include hrole hc

theorem framePart_late_drops (hl : closeTicks s (ring s r) j < partBack transit bs) : let t := snareEval (framePart r l j transit bs s)
    RingIs r (arrivedRing bs (ring s r)) s t ∧ rg t rGRN_LATE_DROP = satInc (rg s rGRN_LATE_DROP) := by
  intro t
  have e : t = snareEval (count (partArrives r j transit bs s) rGRN_LATE_DROP) := congrArg Machine.snareEval (framePart_late hrole hc hl l)
  rw [e]
  refine ⟨((ringIs_partArrives r j transit bs s).then_rings rfl).then_fur (snareEval_fur _), ?_⟩
  rw [rg_snareEval_side (by decide), rg_count_same, rg_partArrives (by decide) (by decide)]

theorem framePart_fragment_counts (hl : ¬ closeTicks s (ring s r) j < partBack transit bs) (hp : partShape (ring s r).n bs = false) :
    let t := snareEval (framePart r l j transit bs s)
    let y := arrivedRing bs (ring s r)
    let cut : Part := { frame := j, lane := l, good := false, reports := [] }
    RingIs r { y with rx := if bs.any (isCtl 0xD2) = true then rxAfter (reportsClosed s j) cut y else y.rx } s t ∧
      rg t (rFUR_RING_FRAG r) = satInc (rg s (rFUR_RING_FRAG r)) ∧ bit (rg t rFUR_EVT) 8 = true := by
  intro t y cut
  have hside : rFUR_RING_FRAG r ∉ sideRegs := ringReg_not_sideReg r 0x2C (by decide)
  have harr := ringIs_partArrives r j transit bs s
  obtain ⟨hring, hfrag, hevt⟩ := partFragment_eq r l j bs (partArrives r j transit bs s)
  rw [harr.2, reportsClosed_partArrives] at hring
  rw [rg_partArrives hside (ringReg_ne_evt r 0x2C)] at hfrag
  have e : t = snareEval (partFragment r l j bs (partArrives r j transit bs s)) := congrArg Machine.snareEval (framePart_fragment hrole hc hl hp l)
  rw [e]
  exact ⟨(harr.trans hring).then_fur (snareEval_fur _), (rg_snareEval_side hside _).trans hfrag, by rwa [rg_snareEval_side (by decide)]⟩

theorem framePart_whole_returns (hl : ¬ closeTicks s (ring s r) j < partBack transit bs) (hp : partShape (ring s r).n bs = true) :
    let t := snareEval (framePart r l j transit bs s)
    let y := arrivedRing bs (ring s r)
    let p := returnedPart l j (frameWrapped s (ring s r) j) (ring s r).n bs
    (∃ z, RingIs r z s t ∧ z.st = y.st ∧ z.rx = rxAfter (reportsClosed s j) p (ring s r) ∧ z.trans = transit ∧ z.ret = partBack transit bs ∧
        z.wrapped = y.wrapped) ∧
      rg t (rFUR_RING_RETMAX r) = u32 (max (rg s (rFUR_RING_RETMAX r)).toNat (min (partBack transit bs) 65535)) ∧
      ∀ k, rg t (crcReg r k) = if partGood bs = false ∧ l = k then satInc (rg s (crcReg r k)) else rg s (crcReg r k) := by
  intro t y p
  have harr := ringIs_partArrives r j transit bs s
  obtain ⟨⟨z, hz, hst, hrx, htrans, hret, hwrapped⟩, hmax, hcrc⟩ :=
    partReturn_returns r l j transit (partBack transit bs) bs (partArrives r j transit bs s)
  obtain ⟨st, w, hy⟩ := arrivedRing_eq bs (ring s r)
  have hn : y.n = (ring s r).n := (congrArg Ring.n hy :)
  have hticks : y.ticks = (ring s r).ticks := (congrArg Ring.ticks hy :)
  rw [harr.2, frameWrapped_partArrives hticks, hn, reportsClosed_partArrives, rxAfter, arrivedRing_rx] at hrx
  have e : t = snareEval (partReturn r l j transit (partBack transit bs) bs (partArrives r j transit bs s)) :=
    congrArg Machine.snareEval (framePart_whole hrole hc hl hp l)
  rw [e]
  refine ⟨⟨z, (harr.trans hz).then_fur (snareEval_fur _), hst.trans (by rw [harr.2]), hrx, htrans, hret, hwrapped.trans (by rw [harr.2])⟩,
    ?_, fun k => ?_⟩
  · have hside : rFUR_RING_RETMAX r ∉ sideRegs := ringReg_not_sideReg r 0x1C (by decide)
    rw [rg_snareEval_side hside, hmax, rg_partArrives hside (ringReg_ne_evt r 0x1C)]
  · obtain ⟨hside, hevt⟩ := crcReg_own r k
    rw [rg_snareEval_side hside, hcrc k, rg_partArrives hside hevt]

theorem framePart_arrives : let t := snareEval (framePart r l j transit bs s)
    t.tick = u64 (max (now s) (j * lTicks s + partBack transit bs)) ∧ (ring t r).st = (arrivedRing bs (ring s r)).st := by
  intro t
  have htick {u : State} (hu : Keeps [.regs, .flt, .fur, .snr] (partArrives r j transit bs s) u) (e : framePart r l j transit bs s = u) :
      t.tick = u64 (max (now s) (j * lTicks s + partBack transit bs)) :=
    (snareEval_only _ .tick rfl).trans ((e ▸ hu.only .tick rfl).trans (partArrives_tick r j transit bs s))
  by_cases hl : closeTicks s (ring s r) j < partBack transit bs
  · exact ⟨htick (count_keeps (Keeps.refl _ _) rfl) (framePart_late hrole hc hl l), by rw [(framePart_late_drops hrole hc l hl).1.2]⟩
  · cases hp : partShape (ring s r).n bs with
    | true =>
      obtain ⟨⟨z, hz, hst, -⟩, -⟩ := framePart_whole_returns hrole hc l hl hp
      exact ⟨htick (partReturn_keeps (Keeps.refl _ _) rfl) (framePart_whole hrole hc hl hp l), by rw [hz.2, hst]⟩
    | false =>
      exact ⟨htick (partFragment_keeps (Keeps.refl _ _) rfl) (framePart_fragment hrole hc hl hp l),
        by rw [(framePart_fragment_counts hrole hc l hl hp).1.2]⟩

end

/-! ### The ring's steps together -/

/-- Settles O54, by what each step does to its ring (`RingIs`): the training steps by their outcomes, the wraps by `declared_wraps`, and a
returned part by its arrival and the stages of its return. -/
theorem ringsTrainStepByStep : Obligations.RingsTrainStepByStep := by
  unfold Obligations.RingsTrainStepByStep
  refine ⟨fun s r => ?_, fun s r l => ?_⟩
  · intro x others is fails again expect wrapTr found
    refine ⟨?enable, ?lock, ?timeout, ?discover, ?measure⟩
    case enable =>
      intro bus v hw
      refine ⟨_, exec_furRingCfgWrite hw, ?_⟩
      have hfur := snareEval_fur (furRingCfg r v s)
      have hring (q : Nat) : ring (snareEval (furRingCfg r v s)) q = ring (furRingCfg r v s) q := ring_congr hfur q
      refine ⟨fun q hq => (hring q).trans (furRingCfg_others r v s q hq), fun hv hst => ?_, fun hv h0 h7 => ?_, fun hv hwas => ?_,
        fun hv hwas hst => ?_, fun hv hwas hst => ?_, fun hv hwas h4 h5 h6 => ?_⟩
      · obtain ⟨n, f, he, htx⟩ := furRingCfg_starts hv hst
        rw [hring, hfur, he, htx]
        exact ⟨rfl, rfl, rfl, rfl, rfl, rfl, rfl, fun h => if_neg (by rw [h]; decide), fun h => if_neg (by rw [h]; decide)⟩
      · exact (hring r).trans (furRingCfg_kept (.inl ⟨hv, h0, h7⟩))
      · exact (hring r).trans (furRingCfg_kept (.inr ⟨hv, hwas⟩))
      · obtain ⟨u, hu, e⟩ := furRingCfg_drains hv hwas
        rw [hring, e, ringDrain_waits (by rwa [ring_congr hu]), setRing_same, ring_congr hu]
      · obtain ⟨u, hu, e⟩ := furRingCfg_drains hv hwas
        rw [hring, e, ringDrain_draining (by rwa [ring_congr hu]), setRing_same, ring_congr hu]
      · obtain ⟨u, hu, e⟩ := furRingCfg_drains hv hwas
        obtain ⟨n, f, hoff⟩ := ringIs_ringOff r u
        rw [hring, e, ringDrain_off (by rwa [ring_congr hu]) (by rwa [ring_congr hu]) (by rwa [ring_congr hu]), hoff.2]
        exact ⟨rfl, rfl, rfl⟩
    case lock =>
      exact fun a b => ⟨_, rfl, (trainLock_keeps (Keeps.refl _ s) rfl).only, trainLock_eq r a b s⟩
    case timeout =>
      refine ⟨_, rfl, fun h => trainLockTimeout_fails h, fun h => ?_⟩
      rw [trainLockTimeout_kept h]
      exact ringIs_kept r s
    case discover =>
      intro a b
      refine ⟨_, rfl, fun h => ?_, fun hst ha hbad => ?_, fun hst ha hga hgb hla hlb => ?_, fun hst ha hga hgb h => ?_,
        fun hst ha hga hgb hla hlb hw => ?_⟩
      · rw [discoverReturn_kept h]
        exact ringIs_kept r s
      · rw [discoverReturn_repeats hst ha hbad]
        exact trainRepeat_eq r s
      · have hj := discoverJudge_straight (w := wrapTrain s r) (expect := ringExpect s r) (miss := missMax s r) (cells := ringCells s) hla hlb
        refine ⟨fun h => ?_, fun hn h0 hc => ?_⟩
        · exact discoverReturn_fails hst ha hga hgb (hj.trans (if_pos h))
        · rw [if_neg (by simp only [not_or, not_not]; exact ⟨hn, h0, not_lt.2 hc⟩)] at hj
          refine ⟨fun he hne => ?_, fun he hids => ?_, fun he hids => ?_⟩
          · exact discoverReturn_fails hst ha hga hgb (hj.trans (if_pos ⟨he, hne⟩))
          · rw [if_neg (fun h => he.elim h.1 h.2), if_pos hids] at hj
            exact discoverReturn_fails hst ha hga hgb hj
          · rw [if_neg (fun h => he.elim h.1 h.2), if_neg (not_not.2 hids)] at hj
            exact discoverReturn_finds hst ha hga hgb hla hj
      · exact discoverReturn_fails hst ha hga hgb (discoverJudge_unequal h)
      · have hj := discoverJudge_wrapped (expect := ringExpect s r) (miss := missMax s r) (cells := ringCells s) hla hlb hw
        refine ⟨fun h => ?_, fun h0 hm => ?_, fun h0 hle hm => ?_⟩
        · exact discoverReturn_fails hst ha hga hgb (hj.trans (if_pos h))
        · have hle : ¬ (ringExpect s r = 0 ∨ ringExpect s r < a.ids.length + b.ids.length) := fun h =>
            h.elim h0 (not_lt.2 ((Nat.le_add_right _ _).trans hm.le))
          rw [if_neg hle, if_pos (Nat.lt_sub_of_add_lt (by rwa [Nat.add_comm]))] at hj
          exact discoverReturn_fails hst ha hga hgb hj
        · rw [if_neg (fun h => h.elim h0 (not_lt.2 hle)), if_neg (not_lt.2 (Nat.sub_le_of_le_add (by rwa [Nat.add_comm])))] at hj
          have hfound := discoverReturn_finds hst ha hga hgb hla hj
          rwa [wrappedIds_length (expect := ringExpect s r) hle, isNone_loop, isNone_loop] at hfound
    case measure =>
      intro good transit ms
      refine ⟨_, rfl, fun h => ?_, fun hst ha hbad => ?_, fun hst ha hg he => ?_, fun hst ha hg he => ?_⟩
      · rw [measureReturn_kept h]
        exact ringIs_kept r s
      · rw [hbad, measureReturn_repeats hst ha]
        exact trainRepeat_eq r s
      · rw [hg, measureReturn_fails hst ha he]
        exact trainFail_evaluated r _ s
      · rw [hg, measureReturn_passes hst ha he]
        exact ringIs_stored r _ s
  · intro x others is wraps running
    refine ⟨?request, ?response, ?wrapAt, ?heard, ?lost, ?part⟩
    case request =>
      intro sq turn
      by_cases hrole : s.stk.role = 1
      · refine ⟨s, (exec_pdReqReceive r l sq turn s).trans (by rw [if_pos hrole]), (Keeps.refl _ s).only, ?_⟩
        intro b
        rw [if_pos hrole]
        exact RingIs.of_fur r rfl
      · refine ⟨_, (exec_pdReqReceive r l sq turn s).trans (by rw [if_neg hrole]), (hopSend_keeps (Keeps.refl _ s) rfl).only, ?_⟩
        intro b
        rw [if_neg hrole]
        exact hopSend_eq r l b s
    case response => 
      intro rtt turn
      refine ⟨_, rfl, (modRing_keeps (Keeps.refl _ s) rfl).only, ?_⟩
      exact ringIs_modRing r _ s
    case wrapAt =>
      intro pos side lt
      refine ⟨_, rfl, fun h => ?_, fun hrun hi => ?_⟩
      · rw [wrapAt_kept (h.imp_right (wrapIgnored_iff ..).2)]
        exact ringIs_kept r s
      · exact wrapAt_wraps hrun (mt (wrapIgnored_iff ..).1 hi) lt.toNat
    case heard => exact fun bad h => exec_rxInputLoss_kept (Bool.eq_false_of_not_eq_true (mt (inputLost_iff bad).1 (not_le.2 h)))
    case lost =>
      intro bad h
      refine ⟨_, exec_rxInputLoss_lost ((inputLost_iff bad).2 h), fun hrun => ?_, fun hrun => ?_⟩
      · cases l with
        | a => exact inputLoss_idle .a hrun
        | b => exact inputLoss_idle .b hrun
      · cases l with
        | a => exact inputLoss_wraps .a hrun
        | b => exact inputLoss_wraps .b hrun
    case part =>
      intro j transit bs
      refine ⟨_, rfl, ?_⟩
      beta_reduce
      intro back carried closed late looped y reports
      have hclosed : reportsClosed s j = true ↔ closed := reportsClosed_iff s j
      refine ⟨fun hrole => ?_, fun hrole hc => ?_, fun hrole hc => framePart_arrives hrole hc l,
        fun hrole hc hl => framePart_late_drops hrole hc l hl, fun hrole hc hl hp => ?_, fun hrole hc hl hp => ?_⟩
      · rw [framePart_shadow hrole]
        cases l with
        | a => exact (ringIs_modRing r _ s).then_fur (snareEval_fur _)
        | b => exact (ringIs_modRing r _ s).then_fur (snareEval_fur _)
      · rw [framePart_foreign hrole hc]
        exact snareEval_fur s
      · obtain ⟨hring, hfrag, hevt⟩ := framePart_fragment_counts hrole hc l hl hp
        refine ⟨hfrag, hevt, fun ho hcut => ?_, fun h => ?_⟩
        · rwa [if_pos hcut, rxAfter, if_neg (mt hclosed.1 ho), arrivedRing_rx] at hring
        · rcases h with h | h
          · rwa [rxAfter, if_pos (hclosed.2 h), ite_self] at hring
          · rwa [if_neg (by rw [h]; decide)] at hring
      · obtain ⟨⟨z, hz, -, hrx, htrans, hret, hwrapped⟩, hmax, hcrc⟩ := framePart_whole_returns hrole hc l hl hp
        rw [hz.2]
        refine ⟨hz.1, fun h => hrx.trans (if_pos (hclosed.2 h)), fun h => hrx.trans (if_neg (mt hclosed.1 h)),
          htrans, hret, hmax, hwrapped, hcrc .a, hcrc .b⟩

end Sys2Proof.Machine
end

section
/-! PROOFS. The Harrow start: look-ahead steps, references and builds of the lanes; selections, levels and edges (O59). -/

namespace Sys2Proof.Machine

/-! ### Levels, selections and edges (R255, R257, R259, R263) -/

theorem clampI_range {lo hi : Int} (h : lo ≤ hi) (x : Int) : lo ≤ clampI lo hi x ∧ clampI lo hi x ≤ hi := by
  unfold clampI
  split
  · exact ⟨le_refl lo, h⟩
  · split <;> omega

/-- A fractional edge lies in its frame. -/
theorem edgeOf_d_lt {k : EdgeCfg} (h : 0 < k.units) (on : Bool) (nIns nRem : Nat) : (edgeOf k on nIns nRem).d < k.units := by
  have hr (x : Int) := clampI_range (lo := 0) (hi := (k.units - 1 : Nat)) (Int.natCast_nonneg _) x
  unfold edgeOf
  dsimp only
  generalize Int.fdiv _ _ = x
  have := hr x
  omega

/-- What every level of R255 keeps to: at most the usable cells, and with all of them no remainder. -/
theorem levelOf_le (ref vn : U32) (half : Bool) (u : Nat) :
    (levelOf ref vn half u).1 ≤ u ∧ ((levelOf ref vn half u).1 = u → (levelOf ref vn half u).2.1 = 0) := by
  have hall : u ≤ u ∧ (u = u → (0 : Nat) = 0) := ⟨le_refl u, fun _ => rfl⟩
  have hnone : 0 ≤ u ∧ (0 = u → (0 : Nat) = 0) := ⟨Nat.zero_le u, fun _ => rfl⟩
  unfold levelOf
  dsimp only
  split
  · exact hnone
  · split
    · split
      · exact hnone
      · exact hall
    · split
      · exact hall
      · split
        · split
          · exact hall
          · rename_i hn
            exact ⟨Nat.le_of_lt (Nat.lt_of_not_le hn), fun he => absurd (Nat.le_of_eq he.symm) hn⟩
        · exact hall

/-- A half-bridge arm inserts nothing for a negative reference (R255). -/
theorem levelOf_half_neg {ref : U32} (h : f32Lt ref 0 = true) (vn : U32) (u : Nat) : levelOf ref vn true u = (0, 0, 1, true) := by
  simp only [levelOf, h, Bool.and_self, if_true]

/-- Selection chooses among the cells that it is given. -/
theorem mem_sorted_of_selected {n mp base units : Nat} {sorted : List SelCell} {x : SelCell}
    (h : x ∈ (selectCells n mp base units sorted).w ++ (selectCells n mp base units sorted).joined) : x ∈ sorted := by
  have hf {p : SelCell → Bool} (hx : x ∈ sorted.filter p) : x ∈ sorted := List.mem_of_mem_filter hx
  unfold selectCells at h
  dsimp only at h
  split at h
  · rw [List.append_nil] at h
    exact hf (List.mem_of_mem_filter h)
  · split at h
    · simp only [List.mem_append] at h
      rcases h with (h | h) | h
      · exact hf h
      · exact hf h
      · exact hf (List.mem_of_mem_filter (List.mem_of_mem_take h))
    · rw [List.append_nil, List.mem_append] at h
      exact h.elim hf fun h => hf (List.mem_of_mem_take h)

/-- Where no more cells are pinned in than the level asks for and the level can be realised, selection chooses exactly so many. -/
theorem selected_length {n mp base units : Nat} {sorted : List SelCell} (hp : (sorted.filter (fun x => x.pin == 1)).length ≤ n)
    (hs : (selectCells n mp base units sorted).short = false) :
    ((selectCells n mp base units sorted).w ++ (selectCells n mp base units sorted).joined).length = n := by
  unfold selectCells at hs ⊢
  dsimp only at hs ⊢
  rw [if_neg (Nat.not_lt.2 hp)] at hs ⊢
  split at hs
  · rename_i hf
    rw [if_pos hf]
    simp only [decide_eq_false_iff_not, Nat.not_lt, List.length_append, List.length_take] at hs ⊢
    omega
  · rename_i hf
    rw [if_neg hf]
    simp only [List.length_append, List.length_take, List.length_nil]
    omega

/-! ### The end of selection (R261) -/

theorem selectionDone_idle {s : State} {a cyc : Nat} (h : (harm s a).busy = false) : selectionDone a cyc s = s :=
  if_pos (by rw [h]; rfl)

/-- The cycles that a selection of arm `a` takes: those asked for, at most those of R261. -/
def selectionCycles (s : State) (a cyc : Nat) : Nat := min cyc (44 + 3 * (((armCells s a).length + 15) / 16))

theorem advanceTo_hrw (s : State) (t : Nat) : (advanceTo s t).hrw = s.hrw := advanceTo_only s t .hrw rfl

theorem advanceTo_cmd (s : State) (t : Nat) : (advanceTo s t).cmd = s.cmd := advanceTo_only s t .cmd rfl

theorem harm_congr {s t : State} (h : t.hrw = s.hrw) (a : Nat) : harm t a = harm s a := by
  rw [harm, harm, h]

theorem harm_advanceTo (s : State) (t a : Nat) : harm (advanceTo s t) a = harm s a := harm_congr (advanceTo_hrw s t) a

theorem rg_advanceTo (s : State) (t o : Nat) : rg (advanceTo s t) o = rg s o := rg_congr (advanceTo_only s t .regs rfl) o

/-- A selection under way ends: time passes to its end, the lane is done, and the largest cycle count is kept. -/
theorem selectionDone_busy {s : State} {a cyc : Nat} (h : (harm s a).busy = true) :
    selectionDone a cyc s =
      wr (setHArm (advanceTo s (((harm s a).frame - 1) * lTicks s + hStart s + (selectionCycles s a cyc + 1) / 2)) a
        { harm s a with busy := false, cyc := selectionCycles s a cyc })
        (rHRW_ARM_SELMAX a) (u32 (max (rg s (rHRW_ARM_SELMAX a)).toNat (selectionCycles s a cyc))) := by
  unfold selectionDone
  dsimp only
  rw [if_neg (by rw [h]; decide), ← selectionCycles, show ∀ u v o, rg (setHArm u a v) o = rg u o from fun _ _ _ => rfl, rg_advanceTo]

/-! ### The look-ahead step (R215, R216) -/

/-- The look-ahead step of an arm after its step at frame `j`, with the configured look-ahead. -/
def laNext (j la : Nat) (wrapped : Bool) (v : ArmLa) : ArmLa :=
  match v.up, v.down with
  | none, _ => if wrapped && decide (la < 7) then { up := some j } else v
  | some w, none =>
    if wrapped then v
    else if w < j then { up := some w, down := some j }
    else match v.was with | some d => { up := some d, down := some d } | none => {}
  | some _, some d => if wrapped then { up := some j, was := some d } else if d + 7 < j + la then {} else v

theorem moveEffect_maps (e1 : Nat) (s : State) (x : Eff) :
    (moveEffect e1 s x).cmd.la = s.cmd.la ∧ (moveEffect e1 s x).cmd.arms = s.cmd.arms := by
  unfold moveEffect
  dsimp only
  split
  · exact ⟨foldl_leaves (g := fun u => u.cmd.la) (by intros; rfl) _ _, foldl_leaves (g := fun u => u.cmd.arms) (by intros; rfl) _ _⟩
  · exact ⟨foldl_leaves (g := fun u => u.cmd.la) (by intros; rfl) _ _, foldl_leaves (g := fun u => u.cmd.arms) (by intros; rfl) _ _⟩
  · exact ⟨rfl, rfl⟩

theorem blockReached_maps (s : State) (x : Turn) :
    (blockReached s x).cmd.la = s.cmd.la ∧ (blockReached s x).cmd.arms = s.cmd.arms :=
  ⟨foldl_leaves (g := fun u => u.cmd.la) (fun _ _ => rfl) (List.range 4) s,
   foldl_leaves (g := fun u => u.cmd.arms) (fun _ _ => rfl) (List.range 4) s⟩

/-- A step up moves effects and blocks, and of the look-ahead steps it stores the arm's own. -/
theorem stepUp_maps (a w : Nat) (v : ArmLa) (s : State) :
    (stepUp a w v s).cmd.la = (setArmLa s a v).cmd.la ∧ (stepUp a w v s).cmd.arms = s.cmd.arms := by
  unfold stepUp
  dsimp only
  exact ⟨(foldl_leaves (g := fun u => u.cmd.la) (fun u x => (blockReached_maps u x).1) _ _).trans
      (foldl_leaves (g := fun u => u.cmd.la) (fun u x => (moveEffect_maps (w + 7) u x).1) _ _),
    (foldl_leaves (g := fun u => u.cmd.arms) (fun u x => (blockReached_maps u x).2) _ _).trans
      (foldl_leaves (g := fun u => u.cmd.arms) (fun u x => (moveEffect_maps (w + 7) u x).2) _ _)⟩

/-- `t` has `v` as the look-ahead step of arm `a`, and else the look-ahead steps and the arm map of `s`. -/
structure LaIs (a : Nat) (v : ArmLa) (s t : State) : Prop where
  own : armLa t a = v
  others : ∀ b, b ≠ a → armLa t b = armLa s b
  arms : t.cmd.arms = s.cmd.arms

theorem laIs_refl (a : Nat) (s : State) : LaIs a (armLa s a) s s := ⟨rfl, fun _ _ => rfl, rfl⟩

theorem laIs_setArmLa (a : Nat) (v : ArmLa) (s : State) : LaIs a v s (setArmLa s a v) :=
  ⟨setArmLa_same s a v, fun b hb => setArmLa_ne s a v b hb, rfl⟩

theorem armLa_congr {s t : State} (h : t.cmd.la = s.cmd.la) (a : Nat) : armLa t a = armLa s a := by
  rw [armLa, armLa, h]

theorem laIs_stepUp (a w : Nat) (v : ArmLa) (s : State) : LaIs a v s (stepUp a w v s) := by
  obtain ⟨hla, harms⟩ := stepUp_maps a w v s
  exact ⟨(armLa_congr hla a).trans (setArmLa_same s a v), fun b hb => (armLa_congr hla b).trans (setArmLa_ne s a v b hb), harms⟩

/-- The step of one arm, by what it was doing: nothing, at 7, or stepping down. -/
theorem laIs_laStep (j : Nat) (s : State) (a : Nat) : LaIs a (laNext j (laCfg s) (armWrapped s a) (armLa s a)) s (laStep j s a) := by
  cases hup : (armLa s a).up with
  | none =>
    simp only [laStep, laNext, hup]
    split
    · exact laIs_stepUp a j _ s
    · exact laIs_refl a s
  | some w =>
    cases hdown : (armLa s a).down with
    | none =>
      simp only [laStep, laNext, hup, hdown]
      split
      · exact laIs_refl a s
      · split
        · exact laIs_setArmLa a _ s
        · exact laIs_setArmLa a _ s
    | some d =>
      simp only [laStep, laNext, hup, hdown]
      split
      · exact laIs_stepUp a j _ s
      · split
        · exact laIs_setArmLa a _ s
        · exact laIs_refl a s

theorem laStep_only (j : Nat) (s : State) (a : Nat) : ChangesOnly [.cmd] s (laStep j s a) := (laStep_keeps (Keeps.refl [.cmd] s) rfl).only

/-! ### A pass over the arms -/

/-- In a pass whose step at any other element keeps `K`, the step at `a` comes between two parts that keep it. -/
theorem foldl_at {α β : Type} {f : β → α → β} {K : β → β → Prop} {a : α} (refl : ∀ s, K s s)
    (trans : ∀ {s t u}, K s t → K t u → K s u) (step : ∀ s b, b ≠ a → K s (f s b)) {l : List α} (hn : l.Nodup) (ha : a ∈ l) (s : β) :
    ∃ u, K s u ∧ K (f u a) (l.foldl f s) := by
  have pass {m : List α} (hm : a ∉ m) (s : β) : K s (m.foldl f s) := by
    induction m generalizing s with
    | nil => exact refl s
    | cons b m ih =>
      exact trans (step s b (Ne.symm (List.ne_of_not_mem_cons hm))) (ih (List.not_mem_of_not_mem_cons hm) _)
  obtain ⟨l₁, l₂, rfl⟩ := List.append_of_mem ha
  obtain ⟨h₁, h₂⟩ : a ∉ l₁ ∧ a ∉ l₂ := by
    rw [List.nodup_middle, List.nodup_cons, List.mem_append, not_or] at hn
    exact hn.1
  refine ⟨l₁.foldl f s, pass h₁ s, ?_⟩
  rw [List.foldl_append, List.foldl_cons]
  exact pass h₂ _

/-! ### The lanes (R245 to R249) -/

/-- What the builds of the lanes leave: the frame's configuration, the references, the map and the state of the groups, the look-ahead
steps, HRW_FREEZE, and the configuration of every arm. -/
structure LaneFrame (s t : State) : Prop where
  sys : t.sys = s.sys
  lpe : t.lpe = s.lpe
  arms : t.cmd.arms = s.cmd.arms
  groups : t.cmd.groups = s.cmd.groups
  la : t.cmd.la = s.cmd.la
  frozen : t.hrw.frozen = s.hrw.frozen
  cfg : ∀ b, b < 12 → rg t (rHRW_ARM_CFG b) = rg s (rHRW_ARM_CFG b)

theorem LaneFrame.refl (s : State) : LaneFrame s s := ⟨rfl, rfl, rfl, rfl, rfl, rfl, fun _ _ => rfl⟩

theorem LaneFrame.trans {s t u : State} (x : LaneFrame s t) (y : LaneFrame t u) : LaneFrame s u :=
  ⟨y.sys.trans x.sys, y.lpe.trans x.lpe, y.arms.trans x.arms, y.groups.trans x.groups, y.la.trans x.la, y.frozen.trans x.frozen,
   fun b hb => (y.cfg b hb).trans (x.cfg b hb)⟩

/-- While frames run the frame's configuration is the one latched at START, so what a lane reads of it changes with `sys` alone. -/
theorem laCfg_congr {s t : State} (h : t.sys = s.sys) (hr : s.sys.running = true) : laCfg t = laCfg s := by
  simp only [laCfg, h, hr, if_true]

theorem pFrames_congr {s t : State} (h : t.sys = s.sys) (hr : s.sys.running = true) : pFrames t = pFrames s := by
  simp only [pFrames, h, hr, if_true]

theorem firingUnits_congr {s t : State} (h : t.sys = s.sys) (hr : s.sys.running = true) : firingUnits t = firingUnits s := by
  simp only [firingUnits, lTicks, flenCode, h, hr, if_true]

theorem armMap_congr {s t : State} (h : t.cmd.arms = s.cmd.arms) (a : Nat) : armMap t a = armMap s a := by
  rw [armMap, armMap, h]

theorem armMapped_congr {s t : State} (h : t.cmd.arms = s.cmd.arms) (a : Nat) : armMapped t a = armMapped s a := by
  rw [armMapped, armMapped, armMap_congr h]

theorem armWrapped_congr {s t : State} (hf : t.fur = s.fur) (ha : t.cmd.arms = s.cmd.arms) (a : Nat) : armWrapped t a = armWrapped s a := by
  unfold armWrapped armOnRing ring
  rw [hf, armMap_congr ha]

namespace LaneFrame
variable {s t : State}

theorem slotEpoch_eq (x : LaneFrame s t) (hr : s.sys.running = true) (a j : Nat) : slotEpoch t a j = slotEpoch s a j := by
  unfold slotEpoch downEpoch
  rw [laCfg_congr x.sys hr, armLa_congr x.la]

theorem armOpen_eq (x : LaneFrame s t) (a j e : Nat) : armOpen t a j e = armOpen s a j e := by
  unfold armOpen group
  rw [x.groups, armMap_congr x.arms]

end LaneFrame

/-- `t` has `h` as the lane of arm `a`, the other lanes of `s`, and what every build leaves. -/
structure LaneIs (a : Nat) (h : HArm) (s t : State) : Prop where
  frame : LaneFrame s t
  others : ∀ b, b ≠ a → harm t b = harm s b
  own : harm t a = h

theorem laneIs_refl (a : Nat) (s : State) : LaneIs a (harm s a) s s := ⟨LaneFrame.refl s, fun _ _ => rfl, rfl⟩

/-- Is a register at `o` no ARM_CFG of an arm: what a build counts and the events it sets are none. -/
def NoArmCfg (o : Nat) : Prop := o % 0x80 ≠ 0 ∨ 0x701600 ≤ o

theorem NoArmCfg.ne {o b : Nat} (h : NoArmCfg o) (hb : b < 12) : rHRW_ARM_CFG b ≠ o := by
  unfold NoArmCfg at h
  unfold rHRW_ARM_CFG
  omega

namespace LaneIs
variable {a : Nat} {h k : HArm} {s t u : State}

theorem trans (x : LaneIs a h s t) (y : LaneIs a k t u) : LaneIs a k s u :=
  ⟨x.frame.trans y.frame, fun b hb => (y.others b hb).trans (x.others b hb), y.own⟩

theorem then_setHArm (x : LaneIs a h s t) (k : HArm) : LaneIs a k s (setHArm t a k) :=
  ⟨x.frame.trans ⟨rfl, rfl, rfl, rfl, rfl, rfl, fun _ _ => rfl⟩, fun b hb => (setHArm_ne t a k b hb).trans (x.others b hb),
   setHArm_same t a k⟩

theorem then_cells (x : LaneIs a h s t) (cells : Tbl HCell) : LaneIs a h s { t with hrw := { t.hrw with cells := cells } } :=
  ⟨x.frame.trans ⟨rfl, rfl, rfl, rfl, rfl, rfl, fun _ _ => rfl⟩, x.others, x.own⟩

theorem then_setHCell (x : LaneIs a h s t) (c : Nat) (v : HCell) : LaneIs a h s (setHCell t c v) := x.then_cells _

theorem then_pend (x : LaneIs a h s t) (p : List Eff) : LaneIs a h s { t with cmd := { t.cmd with pend := p } } :=
  ⟨x.frame.trans ⟨rfl, rfl, rfl, rfl, rfl, rfl, fun _ _ => rfl⟩, x.others, x.own⟩

theorem then_report (x : LaneIs a h s t) (src : U16) (code : Nat) : LaneIs a h s (report t src code) :=
  ⟨x.frame.trans ⟨rfl, rfl, rfl, rfl, rfl, rfl, fun _ _ => rfl⟩, x.others, x.own⟩

theorem then_wr (x : LaneIs a h s t) {o : Nat} (ho : NoArmCfg o) (v : U32) : LaneIs a h s (wr t o v) :=
  ⟨x.frame.trans ⟨rfl, rfl, rfl, rfl, rfl, rfl, fun _ hb => rg_wr_ne t o v _ (ho.ne hb)⟩, x.others, x.own⟩

theorem then_count (x : LaneIs a h s t) {o : Nat} (ho : NoArmCfg o) (n : Nat) : LaneIs a h s (count t o n) := x.then_wr ho _

theorem then_setEvt (x : LaneIs a h s t) {o : Nat} (ho : NoArmCfg o) (m : U32) : LaneIs a h s (setEvt t o m) := x.then_wr ho _

theorem then_ite {p : Prop} [Decidable p] (x : LaneIs a h s t) (y : LaneIs a h s u) : LaneIs a h s (if p then t else u) := by
  split
  · exact x
  · exact y

theorem then_foldl {α : Type} {f : State → α → State} {l : List α} (x : LaneIs a h s t)
    (hf : ∀ u b, LaneIs a h s u → LaneIs a h s (f u b)) : LaneIs a h s (l.foldl f t) := by
  induction l generalizing t with
  | nil => exact x
  | cons b l ih => exact ih (hf _ _ x)

/-- A pass that carries a value beside the state. -/
theorem then_foldl1 {α β : Type} {f : State × β → α → State × β} {l : List α} {p : State × β} (x : LaneIs a h s p.1)
    (hf : ∀ q b, LaneIs a h s q.1 → LaneIs a h s (f q b).1) : LaneIs a h s (l.foldl f p).1 := by
  induction l generalizing p with
  | nil => exact x
  | cons b l ih => exact ih (hf _ _ x)

end LaneIs

/-! ### The reference of the frame (R248, R249) -/

theorem noArmCfg_evt : NoArmCfg rHRW_EVT := .inl (by decide)

/-- The registers of one kind lie 0x80 apart, so no counter of an arm is an ARM_CFG. -/
theorem noArmCfg_counter {n : Nat} (hn : n % 0x80 ≠ 0) (a : Nat) : NoArmCfg (n + 0x80 * a) := .inl (by omega)

/-- Taking the published set changes the lane's references alone. -/
theorem takeSet_lane (a j : Nat) (s : State) :
    ∃ k, LaneIs a k s (takeSet a j s) ∧ k.slots = (harm s a).slots ∧ k.active = (harm s a).active := by
  have keep : ∃ k, LaneIs a k s s ∧ k.slots = (harm s a).slots ∧ k.active = (harm s a).active := ⟨_, laneIs_refl a s, rfl, rfl⟩
  unfold takeSet
  dsimp only
  split
  · exact keep
  · split
    · exact keep
    · refine ⟨_, .then_ite ((((laneIs_refl a s).then_setHArm _).then_setEvt noArmCfg_evt _).then_report _ _)
        ((laneIs_refl a s).then_setHArm _), rfl, rfl⟩

theorem refStep_lane (a j : Nat) (s : State) :
    LaneIs a (harm (refStep a j s) a) s (refStep a j s) ∧ (harm (refStep a j s) a).slots = (harm s a).slots ∧
      (harm (refStep a j s) a).active = (harm s a).active := by
  obtain ⟨k, hk, hslots, hactive⟩ := takeSet_lane a j s
  have hr : LaneIs a { k with refJ := refOf (takeSet a j s) a j } s (refStep a j s) := by
    unfold refStep
    dsimp only
    rw [hk.own]
    exact hk.then_setHArm _
  rw [hr.own]
  exact ⟨hr, hslots, hactive⟩

/-- The reference that a lane takes depends on its own lane and configuration, the published set and the control period. -/
theorem harm_refStep_congr {a : Nat} {s u : State} (hsys : u.sys = s.sys) (hr : s.sys.running = true) (hlpe : u.lpe = s.lpe)
    (hcfg : rg u (rHRW_ARM_CFG a) = rg s (rHRW_ARM_CFG a)) (hh : harm u a = harm s a) (ha : a < 12) (j : Nat) :
    harm (refStep a j u) a = harm (refStep a j s) a := by
  have hset : harm (takeSet a j u) a = harm (takeSet a j s) a := by
    unfold takeSet
    rw [hlpe, hh, pFrames_congr hsys hr]
    dsimp only
    cases s.lpe.refsM with
    | none => exact hh
    | some n =>
      dsimp only
      split
      · exact hh
      · split
        · exact (setHArm_same u a _).trans (setHArm_same s a _).symm
        · exact (setHArm_same u a _).trans (setHArm_same s a _).symm
  obtain ⟨_, hs, -, -⟩ := takeSet_lane a j s
  obtain ⟨_, hu, -, -⟩ := takeSet_lane a j u
  have href : refOf (takeSet a j u) a j = refOf (takeSet a j s) a j := by
    unfold refOf armCfg
    rw [hset, hs.frame.cfg a ha, hu.frame.cfg a ha, hcfg, pFrames_congr hs.frame.sys hr, pFrames_congr (hu.frame.sys.trans hsys) hr]
  unfold refStep
  dsimp only
  rw [setHArm_same, setHArm_same, href, hset]

/-! ### Admission and the build of a level arm (R250 to R267) -/

section
variable {a : Nat} {h : HArm} {s t : State}

theorem LaneIs.then_holdCell (x : LaneIs a h s t) (c : Nat) : LaneIs a h s (holdCell t c) := by
  unfold holdCell
  dsimp only
  split
  · exact x
  · exact x.then_setHCell _ _

/-- A count that is skipped where there is nothing to count. -/
theorem LaneIs.then_count_unless {p : Prop} [Decidable p] (x : LaneIs a h s t) {o : Nat} (ho : NoArmCfg o) (n : Nat) :
    LaneIs a h s (if p then t else count t o n) := .then_ite x (x.then_count ho n)

theorem LaneIs.then_report_if {p : Prop} [Decidable p] (x : LaneIs a h s t) (src : U16) (code : Nat) :
    LaneIs a h s (if p then report t src code else t) := .then_ite (x.then_report src code) x

theorem LaneIs.then_admitStep (x : LaneIs a h s t) (b e : Nat) (first : Bool) (c : Nat) : LaneIs a h s (admitStep b e first t c) := by
  unfold admitStep
  dsimp only
  exact .then_ite (x.then_setHCell _ _) (.then_ite (x.then_setHCell _ _) (.then_ite (.then_report (.then_setEvt (.then_count
    (x.then_setHCell _ _) (noArmCfg_counter (by decide) b) _) noArmCfg_evt _) _ _) x))

theorem LaneIs.then_admitLate (x : LaneIs a h s t) (b e : Nat) : LaneIs a h s (admitLate b e t) :=
  x.then_foldl fun _ _ hu => hu.then_setHCell _ _

end

/-- What the build of frame `j` leaves of a lane, with the reference that it took: `busy` says that it built slots. -/
structure LaneSet (j : Nat) (ref : U32) (busy : Bool) (h : HArm) : Prop where
  frame : h.frame = j
  overrun : h.overrun = false
  refJ : h.refJ = ref
  busy : h.busy = busy

/-- `t` has slots of arm `a` for frame `j` under way, built with the reference `ref`. -/
def LaneBuilt (a j : Nat) (ref : U32) (s t : State) : Prop := ∃ h, LaneIs a h s t ∧ LaneSet j ref true h

theorem LaneBuilt.of_finishBuild {a : Nat} {k : HArm} {s t : State} (x : LaneIs a k s t) (j e isign : Nat) (first : Bool) :
    LaneBuilt a j k.refJ s (finishBuild a j e isign first t) := by
  unfold finishBuild
  dsimp only
  rw [x.own]
  exact ⟨_, (((((((x.then_cells _).then_setHArm _).then_count_unless (noArmCfg_counter (by decide) a) _).then_count_unless
    (noArmCfg_counter (by decide) a) _).then_count_unless (noArmCfg_counter (by decide) a) _).then_setEvt noArmCfg_evt _).then_report_if
    _ _).then_report_if _ _, rfl, rfl, rfl, rfl⟩

/-- A level arm's build: the first after a block starts afresh, a later one admits cells that have waited. -/
theorem levelArm_built (a j e : Nat) (s : State) : LaneBuilt a j (harm s a).refJ s (levelArm a j e s) := by
  unfold levelArm
  cases firstBuild s a e with
  | false =>
    simp only [Bool.false_eq_true, if_false]
    exact .of_finishBuild (k := harm s a) (.then_admitLate (.then_foldl (laneIs_refl a s) fun _ c hu => hu.then_admitStep a e false c)
      a e) j e _ _
  | true =>
    simp only [if_true]
    exact .of_finishBuild (k := { harm s a with pol := none, s := true }) (.then_foldl (.then_foldl ((laneIs_refl a s).then_setHArm _)
      fun _ _ hu => hu.then_setHCell _ _) fun _ c hu => hu.then_admitStep a e true c) j e _ _

/-! ### The grid of a carrier (R274, R275, R290) -/

theorem LaneIs.then_setCar {a : Nat} {h : HArm} {s t : State} (x : LaneIs a h s t) (c : Carrier) :
    LaneIs a { h with car := c } s (setCar t a c) := by
  rw [setCar, x.own]
  exact x.then_setHArm _

/-- `t` differs from `s` in the lane of arm `a` by its carrier at most, which runs as it did and has the edges that it had. -/
def GridOnly (a : Nat) (s t : State) : Prop :=
  ∃ c, LaneIs a { harm s a with car := c } s t ∧ c.running = (carOf s a).running ∧ c.edges = (carOf s a).edges

theorem GridOnly.of_kept {a : Nat} {s t : State} (x : LaneIs a (harm s a) s t) : GridOnly a s t := ⟨_, x, rfl, rfl⟩

theorem GridOnly.of_setCar {a : Nat} {s t : State} (x : LaneIs a (harm s a) s t) {c : Carrier} (hr : c.running = (carOf t a).running)
    (he : c.edges = (carOf t a).edges) : GridOnly a s (setCar t a c) := by
  rw [carOf, x.own] at hr he
  exact ⟨c, x.then_setCar c, hr, he⟩

theorem LaneIs.then_grid {a : Nat} {h : HArm} {s t u : State} (x : LaneIs a h s t) (g : GridOnly a t u) :
    ∃ c, LaneIs a { h with car := c } s u ∧ c.running = h.car.running ∧ c.edges = h.car.edges := by
  obtain ⟨c, hc, hrun, hedges⟩ := g
  rw [x.own] at hc
  rw [carOf, x.own] at hrun hedges
  exact ⟨c, x.trans hc, hrun, hedges⟩

theorem GridOnly.trans {a : Nat} {s t u : State} (x : GridOnly a s t) (y : GridOnly a t u) : GridOnly a s u := by
  obtain ⟨c, hc, hrun, hedges⟩ := x
  obtain ⟨d, hd, hrun', hedges'⟩ := hc.then_grid y
  exact ⟨d, hd, hrun'.trans hrun, hedges'.trans hedges⟩

theorem runCells_grid (a stop : Nat) (live : Bool) (q : CmpCfg) (usable : List Nat) (acc : State × Nat) :
    GridOnly a acc.1 (runCells a stop live q usable acc).1 :=
  .of_kept ((laneIs_refl a acc.1).then_foldl1 fun _ _ hu => hu.then_setHCell _ _)

theorem buildZero_grid (a z : Nat) (live : Bool) (q : CmpCfg) (usable : List Nat) (s : State) :
    GridOnly a s (buildZero a z live q usable s).1 := by
  have hpend (p : List Eff) := (laneIs_refl a s).then_pend p
  unfold buildZero
  refine .of_setCar ?_ rfl rfl
  dsimp only
  split
  · exact LaneIs.then_foldl1 (p := (_, 0)) (hpend _) fun _ _ hu => hu.then_setHCell _ _
  · exact hpend _

theorem runGrid_grid (a until_ : Nat) (live : Bool) (q : CmpCfg) (usable : List Nat) (fuel : Nat) (s : State) (n : Nat) :
    GridOnly a s (runGrid a until_ live q usable fuel (s, n)).1 := by
  induction fuel generalizing s n with
  | zero => exact .of_kept (laneIs_refl a s)
  | succ fuel ih =>
    have hcells := runCells_grid a (min (carOf s a).bld.zero until_) live q usable (s, n)
    have hzero := hcells.trans (buildZero_grid a (carOf s a).bld.zero live q usable _)
    unfold runGrid
    dsimp only
    split
    · exact hcells
    · exact hzero.trans (ih _ _)

/-- The carrier of an arm is stopped with the edges `es` left, and its grid runs on. -/
theorem stoppedGrid_lane {a : Nat} {s t : State} (x : LaneIs a (harm s a) s t) (es : List Nat) (until_ : Nat) (q : CmpCfg) (fuel : Nat) :
    ∃ c, LaneIs a { harm s a with car := c } s
      (runGrid a until_ false q [] fuel (setCar t a { carOf s a with running := false, ranks := [], edges := es }, 0)).1 ∧
      c.running = false ∧ c.edges = es :=
  (x.then_setCar { carOf s a with running := false, ranks := [], edges := es }).then_grid (runGrid_grid a until_ false q [] fuel _ 0)

/-- An arm whose group is not in carrier mode, or is blocked, keeps its lane but for the carrier, which is stopped (R290). -/
theorem idleGrid_lane (a e : Nat) {s : State} (hr : s.sys.running = true) :
    ∃ c, LaneIs a { harm s a with car := c } s (idleGrid a e s) ∧ c.running = false ∧
      c.edges = (harm s a).car.edges.filter (fun x => decide (x < e * firingUnits s)) := by
  have hstop (p : Bool) : LaneIs a (harm s a) s
      (if p then (armCells s a).foldl (fun s c => setHCell s c { hcell s c with started := false, edges := [], skip := false }) s else s) :=
    .then_ite ((laneIs_refl a s).then_foldl fun _ _ hu => hu.then_setHCell _ _) (laneIs_refl a s)
  have hu := firingUnits_congr (hstop (carOf s a).running).frame.sys hr
  unfold idleGrid
  dsimp only
  rw [hu]
  exact stoppedGrid_lane (hstop _) _ _ _ _

theorem frozenGrid_lane (a e : Nat) (s : State) : ∃ c, LaneIs a { harm s a with car := c } s (frozenGrid a e s) := by
  obtain ⟨c, hc, -, -⟩ := runGrid_grid a ((e + 1) * firingUnits s) true
    (cmpCfg s a (harm s a).s ((armCells s a).filter (cellUsable s e)) 0)
    ((armCells s a).filter (cellUsable s e)) (gridFuel s a ((e + 1) * firingUnits s)) s 0
  exact ⟨c, hc.then_foldl fun _ _ hu => hu.then_setHCell _ _⟩

/-! ### The build of an arm in carrier mode (R285 to R291) -/

theorem carrierAdmit_lane (a e : Nat) (first : Bool) (s : State) : LaneIs a (harm s a) s (carrierAdmit a e first s) := by
  unfold carrierAdmit
  refine LaneIs.then_foldl ?_ fun _ _ hu => hu.then_setHCell _ _
  cases first with
  | false => exact ((laneIs_refl a s).then_foldl fun _ c hu => hu.then_admitStep a e false c).then_admitLate a e
  | true => exact ((laneIs_refl a s).then_foldl fun _ _ hu => hu.then_setHCell _ _).then_foldl fun _ c hu => hu.then_admitStep a e true c

theorem carrierRun_lane (a e : Nat) (first : Bool) (usable : List Nat) (s : State) :
    ∃ k, LaneIs a k s (carrierRun a e first usable s).1 ∧ k.refJ = (harm s a).refJ := by
  obtain ⟨c, hc, -, -⟩ := ((laneIs_refl a s).then_setHArm { harm s a with
      s := carrierPos s a first (cmpCfg s a true usable 0).ins, car := { (harm s a).car with running := true } }).then_grid
    (runGrid_grid a ((e + 1) * firingUnits s) true
      { cmpCfg s a true usable 0 with pos := carrierPos s a first (cmpCfg s a true usable 0).ins } usable
      (gridFuel s a ((e + 1) * firingUnits s)) _ 0)
  exact ⟨_, hc, rfl⟩

theorem LaneIs.then_carrierCell {a : Nat} {h : HArm} {s : State} {acc : CarrierAcc} (x : LaneIs a h s acc.1) (sk : ShortCfg) (e bank : Nat)
    (head : Nat → Option Nat) (c : Nat) : LaneIs a h s (carrierCell sk e bank head acc c).1 := x.then_setHCell _ _

theorem noArmCfg_carEvt : NoArmCfg rHRW_CAR_EVT := .inr (by decide)

theorem LaneIs.then_carrierCounts {a : Nat} {h : HArm} {s t : State} (x : LaneIs a h s t) (b : Nat) (n : Counts) (overr short was : Bool)
    (aon : Nat) : LaneIs a h s (carrierCounts b n overr short was aon t) := by
  have counter (o : Nat) (ho : o % 0x80 ≠ 0) := noArmCfg_counter ho b
  have hext := x.then_count_unless (p := n.1 = 0) (counter 0x704030 (by decide)) n.1
  have hsup := hext.then_count_unless (p := n.2 = 0) (counter 0x704034 (by decide)) n.2
  have hsat := LaneIs.then_ite (p := overr = true) (hsup.then_count (counter 0x701038 (by decide)) 1) hsup
  have haon := LaneIs.then_ite (p := aon = 0) hsat
    ((hsat.then_count (counter 0x704038 (by decide)) aon).then_setEvt noArmCfg_carEvt (bitv 0))
  exact (haon.then_setEvt noArmCfg_evt _).then_report_if _ _

theorem LaneBuilt.then_carrierCounts {a j : Nat} {r : U32} {s t : State} (x : LaneBuilt a j r s t) (b : Nat) (n : Counts)
    (overr short was : Bool) (aon : Nat) : LaneBuilt a j r s (carrierCounts b n overr short was aon t) := by
  obtain ⟨h, hh, hset⟩ := x
  exact ⟨h, hh.then_carrierCounts b n overr short was aon, hset⟩

theorem LaneBuilt.of_carrierLane {a : Nat} {k : HArm} {s t : State} (x : LaneIs a k s t) (j e isign : Nat) (overr short : Bool)
    (u waiting : Nat) (slots : Tbl U32) (n : Counts) (whole : Nat) (es : List Nat) :
    LaneBuilt a j k.refJ s (carrierLane a j e isign overr short u waiting slots n whole es t) := by
  unfold carrierLane
  dsimp only
  rw [x.own]
  exact ⟨_, x.then_setHArm _, rfl, rfl, rfl, rfl⟩

theorem carrierArm_built (a j e : Nat) (s : State) : LaneBuilt a j (harm s a).refJ s (carrierArm a j e s) := by
  have hadmit := carrierAdmit_lane a e (firstBuild s a e) s
  obtain ⟨k, hk, href⟩ := carrierRun_lane a e (firstBuild s a e)
    ((armCells s a).filter (cellUsable (carrierAdmit a e (firstBuild s a e) s) e)) (carrierAdmit a e (firstBuild s a e) s)
  rw [hadmit.own] at href
  rw [← href]
  unfold carrierArm
  dsimp only
  generalize carrierRun a e (firstBuild s a e) _ (carrierAdmit a e (firstBuild s a e) s) = ran at hk ⊢
  refine LaneBuilt.then_carrierCounts ?_ _ _ _ _ _ _
  refine LaneBuilt.of_carrierLane ?_ _ _ _ _ _ _ _ _ _ _ _
  refine LaneIs.then_foldl ?_ fun _ _ hu => hu.then_setHCell _ _
  exact LaneIs.then_foldl1 (p := (_, _)) (hadmit.trans hk) fun _ c hu => hu.then_carrierCell _ _ _ _ c

/-! ### The Harrow start of an arm (R245, R271, R295) -/

/-- What the Harrow start of frame `j` makes of the lane of a mapped arm `a` of `s`: `h`. -/
structure StartedLane (a j : Nat) (s : State) (h : HArm) : Prop where
  frame : h.frame = j
  overrun : h.overrun = false
  refJ : h.refJ = (harm (refStep a j s) a).refJ
  busy : h.busy = true ↔ s.hrw.frozen = false ∧ ∃ e, slotEpoch s a j = some e ∧ armOpen s a j e = true
  none : slotEpoch s a j = none → h.slots = (harm s a).slots ∧ h.active = (harm s a).active
  blocked : ∀ e, slotEpoch s a j = some e → armOpen s a j e = false → h.active = false ∧ (s.hrw.frozen = false → h.slots = [])

/-- A lane that builds no slots for frame `j`. -/
theorem StartedLane.of_idle {a j e : Nat} {s : State} {h : HArm} (x : LaneSet j (harm (refStep a j s) a).refJ false h)
    (he : slotEpoch s a j = some e) (hno : s.hrw.frozen = true ∨ armOpen s a j e = false)
    (hb : armOpen s a j e = false → h.active = false ∧ (s.hrw.frozen = false → h.slots = [])) : StartedLane a j s h where
  frame := x.frame
  overrun := x.overrun
  refJ := x.refJ
  busy := by
    rw [x.busy, he]
    refine iff_of_false Bool.false_ne_true ?_
    rintro ⟨hf, f, hef, hopen⟩
    obtain rfl := Option.some.inj hef
    rcases hno with h | h
    · exact absurd (hf.symm.trans h) Bool.false_ne_true
    · exact absurd (h.symm.trans hopen) Bool.false_ne_true
  none := fun h => absurd (he.symm.trans h) (Option.some_ne_none e)
  blocked := fun f hef hopen => by
    obtain rfl := Option.some.inj (he.symm.trans hef)
    exact hb hopen

/-- A lane that builds its slots for frame `j`. -/
theorem StartedLane.of_open {a j e : Nat} {s : State} {h : HArm} (x : LaneSet j (harm (refStep a j s) a).refJ true h)
    (hf : s.hrw.frozen = false) (he : slotEpoch s a j = some e) (ho : armOpen s a j e = true) : StartedLane a j s h where
  frame := x.frame
  overrun := x.overrun
  refJ := x.refJ
  busy := iff_of_true x.busy ⟨hf, e, he, ho⟩
  none := fun h => absurd (he.symm.trans h) (Option.some_ne_none e)
  blocked := fun f hef hopen => by
    obtain rfl := Option.some.inj (he.symm.trans hef)
    exact absurd (hopen.symm.trans ho) Bool.false_ne_true

/-- Nothing of it is the carrier's. -/
theorem StartedLane.setCar {a j : Nat} {s : State} {h : HArm} (x : StartedLane a j s h) (c : Carrier) :
    StartedLane a j s { h with car := c } := ⟨x.frame, x.overrun, x.refJ, x.busy, x.none, x.blocked⟩

/-- The lane stands as it will be, and its grid runs on. -/
theorem StartedLane.then_grid {a j : Nat} {k : HArm} {s t u : State} (x : StartedLane a j s k) (hk : LaneIs a k s t)
    (g : ∃ c, LaneIs a { harm t a with car := c } t u) : ∃ h, LaneIs a h s u ∧ StartedLane a j s h := by
  obtain ⟨c, hc⟩ := g
  rw [hk.own] at hc
  exact ⟨_, hk.trans hc, x.setCar c⟩

theorem StartedLane.then_idleGrid {a j : Nat} {k : HArm} {s t : State} (x : StartedLane a j s k) (hk : LaneIs a k s t)
    (hr : s.sys.running = true) (e : Nat) : ∃ h, LaneIs a h s (idleGrid a e t) ∧ StartedLane a j s h :=
  x.then_grid hk ((idleGrid_lane a e (hk.frame.sys ▸ hr)).imp fun _ h => h.1)

theorem LaneIs.then_frozenArm {a : Nat} {h : HArm} {s t : State} (x : LaneIs a h s t) (j e : Nat) :
    ∃ k, LaneIs a k s (frozenArm a j e t) ∧ LaneSet j h.refJ false k ∧ (armOpen t a j e = false → k.active = false) := by
  unfold frozenArm
  dsimp only
  rw [x.own]
  refine ⟨_, x.then_setHArm _, ⟨rfl, rfl, rfl, rfl⟩, fun ho => ?_⟩
  rw [ho]
  exact Bool.and_false _

theorem LaneIs.then_idleArm {a : Nat} {h : HArm} {s t : State} (x : LaneIs a h s t) (j e isign : Nat) :
    ∃ k, LaneIs a k s (idleArm a j e isign t) ∧ LaneSet j h.refJ false k ∧ k.active = false ∧ k.slots = [] := by
  unfold idleArm
  dsimp only
  rw [x.own]
  exact ⟨_, x.then_setHArm _, ⟨rfl, rfl, rfl, rfl⟩, rfl, rfl⟩

/-- Before it builds, a lane takes its reference, and its cells the reports of the committed image. -/
theorem fetched_lane (a j : Nat) (s : State) :
    LaneIs a (harm (refStep a j s) a) s ((armCells s a).foldl holdCell (refStep a j s)) :=
  (refStep_lane a j s).1.then_foldl fun _ c hu => hu.then_holdCell c

theorem armStart_unmapped {a : Nat} {s : State} (j : Nat) (hm : armMapped s a = false) : armStart j s a = idleGrid a (j + laCfg s) s := by
  rw [armStart, hm, Bool.not_false, if_pos rfl]

/-- The Harrow start of a mapped arm: its frame carries NONE, or its slots are frozen, blocked, in carrier mode or in level synthesis. -/
theorem armStart_mapped {a : Nat} {s : State} (j : Nat) (hr : s.sys.running = true) (hm : armMapped s a = true) :
    ∃ h, LaneIs a h s (armStart j s a) ∧ StartedLane a j s h := by
  have hu := fetched_lane a j s
  obtain ⟨-, hslots, hactive⟩ := refStep_lane a j s
  unfold armStart
  rw [hm, Bool.not_true, if_neg Bool.false_ne_true]
  dsimp only
  generalize (armCells s a).foldl holdCell (refStep a j s) = u at hu ⊢
  rw [hu.frame.slotEpoch_eq hr]
  cases he : slotEpoch s a j with
  | none =>
    dsimp only
    rw [hu.own]
    refine ⟨_, hu.then_setHArm _, rfl, rfl, rfl, iff_of_false Bool.false_ne_true ?_, fun _ => ⟨hslots, hactive⟩, fun e h => ?_⟩
    · rintro ⟨-, e, h, -⟩
      exact absurd (h.symm.trans he) (Option.some_ne_none e)
    · exact absurd (h.symm.trans he) (Option.some_ne_none e)
  | some e =>
    dsimp only
    rw [hu.frame.frozen, hu.frame.armOpen_eq]
    cases hf : s.hrw.frozen with
    | true =>
      rw [if_pos rfl]
      obtain ⟨k, hk, hset, hactive⟩ := hu.then_frozenArm j e
      rw [hu.frame.armOpen_eq] at hactive
      have hs := StartedLane.of_idle hset he (.inl hf) fun ho => ⟨hactive ho, fun h => absurd (h.symm.trans hf) Bool.false_ne_true⟩
      split
      · exact hs.then_grid hk (frozenGrid_lane a e _)
      · exact hs.then_idleGrid hk hr e
    | false =>
      rw [if_neg Bool.false_ne_true]
      cases ho : armOpen s a j e with
      | false =>
        obtain ⟨k, hk, hset, hactive, hslots⟩ := hu.then_idleArm j e (isignOf u a)
        rw [Bool.not_false, if_pos rfl]
        exact (StartedLane.of_idle hset he (.inr ho) fun _ => ⟨hactive, fun _ => hslots⟩).then_idleGrid hk hr e
      | true =>
        have hopen {k : HArm} (hk : LaneSet j (harm (refStep a j s) a).refJ true k) := StartedLane.of_open hk hf he ho
        rw [Bool.not_true, if_neg Bool.false_ne_true]
        split
        · obtain ⟨k, hk, hset⟩ := carrierArm_built a j e u
          rw [hu.own] at hset
          exact ⟨k, hu.trans hk, hopen hset⟩
        · obtain ⟨k, hk, hset⟩ := levelArm_built a j e u
          rw [hu.own] at hset
          exact (hopen hset).then_idleGrid (hu.trans hk) hr e

/-! ### The Harrow start of every arm -/

/-- What the look-ahead steps of the other arms leave, as arm `a` sees it. -/
structure LaSpares (a : Nat) (s t : State) : Prop where
  only : ChangesOnly [.cmd] s t
  arms : t.cmd.arms = s.cmd.arms
  la : armLa t a = armLa s a

theorem LaSpares.refl (a : Nat) (s : State) : LaSpares a s s := ⟨ChangesOnly.refl _ s, rfl, rfl⟩

theorem LaSpares.trans {a : Nat} {s t u : State} (x : LaSpares a s t) (y : LaSpares a t u) : LaSpares a s u :=
  ⟨x.only.trans y.only, y.arms.trans x.arms, y.la.trans x.la⟩

theorem laSpares_laStep {a b : Nat} (h : b ≠ a) (j : Nat) (s : State) : LaSpares a s (laStep j s b) :=
  ⟨laStep_only j s b, (laIs_laStep j s b).arms, (laIs_laStep j s b).others a (Ne.symm h)⟩

/-- The look-ahead steps of all arms: each arm's is its own, and besides the command machinery nothing changes. -/
theorem laSteps_at {s t : State} {a j : Nat} (ht : (List.range 12).foldl (laStep j) s = t) (hr : s.sys.running = true) (ha : a < 12) :
    ChangesOnly [.cmd] s t ∧ t.cmd.arms = s.cmd.arms ∧ armLa t a = laNext j (laCfg s) (armWrapped s a) (armLa s a) := by
  obtain ⟨u, hu, hut⟩ := foldl_at (K := LaSpares a) (LaSpares.refl a) LaSpares.trans (fun s _ hb => laSpares_laStep hb j s)
    List.nodup_range (List.mem_range.2 ha) s
  have hstep := laIs_laStep j u a
  rw [laCfg_congr (hu.only .sys rfl) hr, armWrapped_congr (hu.only .fur rfl) hu.arms, hu.la] at hstep
  rw [ht] at hut
  exact ⟨(hu.only.trans (laStep_only j u a)).trans hut.only, hut.arms.trans (hstep.arms.trans hu.arms), hut.la.trans hstep.own⟩

/-- The Harrow start of an arm changes its own lane and leaves what every build leaves. -/
theorem armStart_lane {s : State} (hr : s.sys.running = true) (j a : Nat) : ∃ h, LaneIs a h s (armStart j s a) := by
  cases hm : armMapped s a with
  | true => exact (armStart_mapped j hr hm).imp fun _ h => h.1
  | false =>
    obtain ⟨c, hc, -⟩ := idleGrid_lane a (j + laCfg s) hr
    rw [armStart_unmapped j hm]
    exact ⟨_, hc⟩

/-- What the Harrow starts of the other arms leave, as arm `a` sees it while frames run. -/
def LaneSpares (a : Nat) (s t : State) : Prop := s.sys.running = true → LaneFrame s t ∧ harm t a = harm s a

theorem LaneSpares.trans {a : Nat} {s t u : State} (x : LaneSpares a s t) (y : LaneSpares a t u) : LaneSpares a s u := fun hr => by
  obtain ⟨hf, hh⟩ := x hr
  obtain ⟨hf', hh'⟩ := y (hf.sys ▸ hr)
  exact ⟨hf.trans hf', hh'.trans hh⟩

theorem laneSpares_armStart {a b : Nat} (h : b ≠ a) (j : Nat) (s : State) : LaneSpares a s (armStart j s b) := fun hr => by
  obtain ⟨k, hk⟩ := armStart_lane hr j b
  exact ⟨hk.frame, hk.others a (Ne.symm h)⟩

/-- The Harrow starts of all arms: arm `a` starts in a state that differs from `s` in the lanes before it. -/
theorem armStarts_at {s t : State} {a j : Nat} (ht : (List.range 12).foldl (armStart j) s = t) (hr : s.sys.running = true) (ha : a < 12) :
    LaneFrame s t ∧ ∃ u, LaneFrame s u ∧ harm u a = harm s a ∧ harm t a = harm (armStart j u a) a := by
  obtain ⟨u, hu, hut⟩ := foldl_at (K := LaneSpares a) (fun s _ => ⟨LaneFrame.refl s, rfl⟩) LaneSpares.trans
    (fun s _ hb => laneSpares_armStart hb j s) List.nodup_range (List.mem_range.2 ha) s
  rw [ht] at hut
  obtain ⟨hf, hh⟩ := hu hr
  have hru : u.sys.running = true := hf.sys ▸ hr
  obtain ⟨k, hk⟩ := armStart_lane hru j a
  obtain ⟨hf', hh'⟩ := hut (hk.frame.sys ▸ hru)
  exact ⟨(hf.trans hk.frame).trans hf', u, hf, hh, hh'⟩

/-- A started lane depends on nothing that the lanes before it change. -/
theorem StartedLane.of_frame {a j : Nat} {s u : State} {h : HArm} (x : StartedLane a j u h) (f : LaneFrame s u) (hr : s.sys.running = true)
    (ha : a < 12) (hh : harm u a = harm s a) : StartedLane a j s h := by
  have hep := f.slotEpoch_eq hr a j
  have hopen := f.armOpen_eq a j
  refine ⟨x.frame, x.overrun, x.refJ.trans (congrArg HArm.refJ (harm_refStep_congr f.sys hr f.lpe (f.cfg a ha) hh ha j)), ?_, ?_, ?_⟩
  · simpa only [f.frozen, hep, hopen] using x.busy
  · simpa only [hep, hh] using x.none
  · simpa only [f.frozen, hep, hopen] using x.blocked

theorem started_mapped {s t : State} {a j : Nat} (ht : (List.range 12).foldl (armStart j) s = t) (hr : s.sys.running = true) (ha : a < 12)
    (hm : armMapped s a = true) : StartedLane a j s (harm t a) := by
  obtain ⟨-, u, hf, hh, hown⟩ := armStarts_at ht hr ha
  obtain ⟨h, hh', hs⟩ := armStart_mapped j (hf.sys ▸ hr) ((armMapped_congr hf.arms a).trans hm)
  rw [hown, hh'.own]
  exact hs.of_frame hf hr ha hh

/-- An arm that is not mapped keeps its lane but for its carrier, which is stopped. -/
theorem started_unmapped {s t : State} {a j : Nat} (ht : (List.range 12).foldl (armStart j) s = t) (hr : s.sys.running = true) (ha : a < 12)
    (hm : armMapped s a = false) :
    harm t a = { harm s a with car := (harm t a).car } ∧ (harm t a).car.running = false ∧
      (harm t a).car.edges = (harm s a).car.edges.filter (fun x => decide (x < (j + laCfg s) * firingUnits s)) := by
  obtain ⟨-, u, hf, hh, hown⟩ := armStarts_at ht hr ha
  obtain ⟨c, hc, hrun, hedges⟩ := idleGrid_lane a (j + laCfg u) (hf.sys ▸ hr : u.sys.running = true)
  rw [← armStart_unmapped j ((armMapped_congr hf.arms a).trans hm)] at hc
  rw [hh, laCfg_congr hf.sys hr, firingUnits_congr hf.sys hr] at hedges
  rw [hown, hc.own, hh]
  exact ⟨rfl, hrun, hedges⟩

/-! ### When the lanes start (R245) -/

theorem harrowStart_off {s : State} (h : s.sys.running = false ∨ s.stk.role = 1) : harrowStart s = s := by
  refine if_pos ?_
  rcases h with h | h
  · rw [h]; rfl
  · rw [h]; exact Bool.or_true _

/-- The Harrow start of the next frame, where frames run and the device is no shadow. -/
theorem harrowStart_runs {s : State} (hr : s.sys.running = true) (hs : s.stk.role ≠ 1) :
    harrowStart s =
      if (List.range 12).any (fun a => armMapped s a && decide (epochNow s + 1 ≤ (harm s a).frame)) then
        advanceTo s (epochNow s * lTicks s + hStart s)
      else
        (List.range 12).foldl (armStart (epochNow s + 1)) ((List.range 12).foldl (laStep (epochNow s + 1))
          (advanceTo s (epochNow s * lTicks s + hStart s))) := by
  have hc : ¬ ((!s.sys.running || s.stk.role == 1) = true) := by simp [hr, hs]
  unfold harrowStart
  rw [if_neg hc]
  dsimp only
  rw [Nat.add_sub_cancel]
  simp only [armMapped_congr (congrArg Cmds.arms (advanceTo_cmd s _)), harm_advanceTo]

/-- Has a mapped lane built frame `j` already. -/
theorem any_lane_built {s : State} {j : Nat} :
    (List.range 12).any (fun a => armMapped s a && decide (j ≤ (harm s a).frame)) = true ↔
      ∃ a, a < 12 ∧ armMapped s a = true ∧ j ≤ (harm s a).frame := by
  simp only [List.any_eq_true, List.mem_range, Bool.and_eq_true, decide_eq_true_eq]

theorem harrowStart_tick {s : State} (hr : s.sys.running = true) (hs : s.stk.role ≠ 1) :
    (harrowStart s).tick = u64 (max (now s) (epochNow s * lTicks s + hStart s)) := by
  have hk (j : Nat) (u : State) :
      Keeps [.regs, .flt, .cmd, .hrw] u ((List.range 12).foldl (armStart j) ((List.range 12).foldl (laStep j) u)) :=
    Keeps.foldl (Keeps.foldl (Keeps.refl _ u) fun _ _ h => laStep_keeps h rfl) fun _ _ h => armStart_keeps h rfl
  rw [harrowStart_runs hr hs]
  split
  · exact advanceTo_tick_max s _
  · exact ((hk _ _).only .tick rfl).trans (advanceTo_tick_max s _)

/-- Where a lane has built the next frame already, the Harrow start has nothing to do. -/
theorem harrowStart_built {s : State} (hr : s.sys.running = true) (hs : s.stk.role ≠ 1)
    (h : ∃ a, a < 12 ∧ armMapped s a = true ∧ epochNow s + 1 ≤ (harm s a).frame) :
    (harrowStart s).hrw = s.hrw ∧ (harrowStart s).cmd = s.cmd := by
  rw [harrowStart_runs hr hs, if_pos (any_lane_built.2 h)]
  exact ⟨advanceTo_hrw s _, advanceTo_cmd s _⟩

/-- The lanes start: first the look-ahead steps of all arms, which leave every lane as it was, then the arms themselves. -/
theorem harrowStart_passes {s : State} (hr : s.sys.running = true) (hs : s.stk.role ≠ 1)
    (h : ∀ a, a < 12 → armMapped s a = true → (harm s a).frame < epochNow s + 1) :
    ∃ u, (List.range 12).foldl (armStart (epochNow s + 1)) u = harrowStart s ∧ ChangesOnly [.tick, .tly, .cmd] s u ∧
      u.cmd.arms = s.cmd.arms ∧ ∀ a, a < 12 → armLa u a = laNext (epochNow s + 1) (laCfg s) (armWrapped s a) (armLa s a) := by
  have hno : ¬ ∃ a, a < 12 ∧ armMapped s a = true ∧ epochNow s + 1 ≤ (harm s a).frame :=
    fun ⟨a, ha, hm, hle⟩ => Nat.not_le.2 (h a ha hm) hle
  rw [harrowStart_runs hr hs, if_neg (mt any_lane_built.1 hno)]
  have h0 := advanceTo_only s (epochNow s * lTicks s + hStart s)
  generalize advanceTo s (epochNow s * lTicks s + hStart s) = v at h0 ⊢
  have hv : v.cmd = s.cmd := h0 .cmd rfl
  have hsys : v.sys = s.sys := h0 .sys rfl
  have hstep {a : Nat} (ha : a < 12) := laSteps_at (j := epochNow s + 1) rfl (hsys ▸ hr : v.sys.running = true) ha
  obtain ⟨honly, harms, -⟩ := hstep (a := 0) (by decide)
  refine ⟨_, rfl, (h0.mono rfl).trans (honly.mono rfl), harms.trans (congrArg Cmds.arms hv), fun a ha => ?_⟩
  obtain ⟨-, -, hla⟩ := hstep ha
  rwa [laCfg_congr hsys hr, armWrapped_congr (h0 .fur rfl) (congrArg Cmds.arms hv), armLa_congr (congrArg Cmds.la hv)] at hla

theorem laNext_idle {j la : Nat} {wrapped : Bool} {v : ArmLa} (h : v.up = none) :
    laNext j la wrapped v = if wrapped = true ∧ la < 7 then { up := some j } else v := by
  simp only [laNext, h, Bool.and_eq_true, decide_eq_true_eq]

theorem laNext_up {j la w : Nat} {wrapped : Bool} {v : ArmLa} (h : v.up = some w) (hd : v.down = none) :
    laNext j la wrapped v = if wrapped = true then v else if w < j then { up := some w, down := some j } else
      match v.was with | some d => { up := some d, down := some d } | none => {} := by
  obtain ⟨up, down, was⟩ := v
  obtain rfl : up = some w := h
  obtain rfl : down = none := hd
  rfl

theorem laNext_down {j la d : Nat} {wrapped : Bool} {v : ArmLa} (h : v.up ≠ none) (hd : v.down = some d) :
    laNext j la wrapped v = if wrapped = true then { up := some j, was := some d } else if d + 7 < j + la then {} else v := by
  obtain ⟨w, hw⟩ := Option.ne_none_iff_exists'.1 h
  simp only [laNext, hw, hd]

/-- Settles O59: the look-ahead steps and the lanes by what one pass over the arms does at each, the end of selection by its equation, and
levels, selections and edges by their bounds. -/
theorem harrowBuildsEveryArm : Obligations.HarrowBuildsEveryArm := by
  unfold Obligations.HarrowBuildsEveryArm
  refine ⟨fun s h => congrArg _ (harrowStart_off h), fun s hr hs => ?start, fun s a cyc h => congrArg _ (selectionDone_idle h),
    fun s a cyc h => ?selection, fun ref vn half u => ?level, fun _ _ _ _ _ _ h => mem_sorted_of_selected h,
    fun _ _ _ _ _ hp hs => selected_length hp hs, fun k on nIns nRem h => edgeOf_d_lt h on nIns nRem⟩
  case start =>
    refine ⟨_, rfl, harrowStart_tick hr hs, harrowStart_built hr hs, fun hnew => ?_⟩
    obtain ⟨u, hu, honly, harms, hla⟩ := harrowStart_passes hr hs hnew
    have hsys : u.sys = s.sys := honly .sys rfl
    have hhrw : u.hrw = s.hrw := honly .hrw rfl
    have hru : u.sys.running = true := hsys ▸ hr
    have hharm (a : Nat) : harm u a = harm s a := harm_congr hhrw a
    obtain ⟨hframe, -⟩ := armStarts_at hu hru (a := 0) (by decide)
    refine ⟨hframe.frozen.trans (congrArg Hrw.frozen hhrw), fun a ha => ?_⟩
    intro v wrapped
    have hv : armLa (harrowStart s) a = laNext (epochNow s + 1) (laCfg s) wrapped v := (armLa_congr hframe.la a).trans (hla a ha)
    refine ⟨fun h => hv.trans (laNext_idle h), fun w h hd => hv.trans (laNext_up h hd), fun d h hd => hv.trans (laNext_down h hd),
      fun hm => ?_, fun hm => ?_⟩
    · have hlane := started_mapped hu hru ha ((armMapped_congr harms a).trans hm)
      have href := harm_refStep_congr hsys hr (honly .lpe rfl) (rg_congr (honly .regs rfl) _) (hharm a) ha (epochNow s + 1)
      have hep := hframe.slotEpoch_eq hru a (epochNow s + 1)
      have hopen := hframe.armOpen_eq a (epochNow s + 1)
      refine ⟨hlane.frame, hlane.overrun, hlane.refJ.trans (congrArg HArm.refJ href), ?_, ?_, ?_⟩
      · simpa only [hhrw, hep, hopen] using hlane.busy
      · simpa only [hep, hharm] using hlane.none
      · simpa only [hhrw, hep, hopen] using hlane.blocked
    · obtain ⟨hown, hrun, hedges⟩ := started_unmapped hu hru ha ((armMapped_congr harms a).trans hm)
      rw [hharm] at hown hedges
      rw [laCfg_congr hsys hr, firingUnits_congr hsys hr] at hedges
      exact ⟨hown, hrun, hedges⟩
  case selection =>
    refine ⟨_, congrArg Host.Outcome.next (selectionDone_busy h), ?_⟩
    have htick := advanceTo_tick_max s (((harm s a).frame - 1) * lTicks s + hStart s + (selectionCycles s a cyc + 1) / 2)
    have honly := advanceTo_only s (((harm s a).frame - 1) * lTicks s + hStart s + (selectionCycles s a cyc + 1) / 2)
    generalize advanceTo s _ = u at htick honly ⊢
    exact ⟨htick, setHArm_same u a _, fun b hb => (setHArm_ne u a _ b hb).trans (harm_congr (honly .hrw rfl) b),
      (congrArg Hrw.cells (honly .hrw rfl) : u.hrw.cells = s.hrw.cells), rg_wr_same _ _ _,
      fun o ho => (rg_wr_ne _ _ _ o ho).trans (rg_congr (honly .regs rfl) o)⟩
  case level =>
    obtain ⟨hle, hfull⟩ := levelOf_le ref vn half u
    refine ⟨hle, hfull, ?_⟩
    rintro rfl hneg
    rw [levelOf_half_neg hneg]
    exact ⟨rfl, rfl⟩

end Sys2Proof.Machine
end

section
/-! PROOFS. Carrier events in time: the grid zero, the apex and the commanded edges of an arm (O60). -/

namespace Sys2Proof.Machine

/-! ### The interrupt source of an event (R293, R419) -/

theorem srcEn_congr {s t : State} {k : Nat} (hk : k < 2048) (h : rg t (rINT_SRC_CFG (k - 64)) = rg s (rINT_SRC_CFG (k - 64))) :
    srcEn t k = srcEn s k := by
  have hp : isPrv k = false := decide_eq_false (by omega)
  simp only [srcEn, srcCfg, hp, h, Bool.false_eq_true, if_false]

theorem latchCore_ints (s : State) (c : Nat) : (latchCore s c).ints = s.ints := (latchCore_keeps (Keeps.refl [.cores] s) rfl).only .ints rfl

/-- An enabled edge source below the limit counts the event. -/
theorem intEdge_counts {s : State} {k : Nat} (hl : srcListed k = true) (hv : srcLevel k = false) (he : srcEn s k = true)
    (hc : (intSrc s k).cnt < 255) : (intSrc (intEdge s k) k).cnt = (intSrc s k).cnt + 1 := by
  have hlatch (u : State) (c : Nat) : intSrc (latchCore u c) k = intSrc u k := by rw [intSrc, intSrc, latchCore_ints]
  unfold intEdge
  dsimp only
  rw [if_neg (by simp [hl, hv, he]), if_pos hc, hlatch, setIntSrc_same]

/-- ZERO, PERIOD and CMP of every arm have a listed edge source (R415). -/
theorem carrier_source {a x : Nat} (ha : a < 12) (hx : x < 3) : srcListed (128 + 4 * a + x) = true ∧ srcLevel (128 + 4 * a + x) = false := by
  have hp : isPrv (128 + 4 * a + x) = false := decide_eq_false (by omega)
  have hin : 128 ≤ 128 + 4 * a + x ∧ 128 + 4 * a + x < 176 := by omega
  have hev : (128 + 4 * a + x - 128) % 4 < 3 := by omega
  constructor
  · simp [srcListed, hp, hin, hev]
  · simp only [srcLevel, hp, sharedLevel, Bool.false_eq_true, if_false, decide_eq_false_iff_not]
    omega

/-! ### An event and its prescaler (R293, R294) -/

/-- The prescaler of event `x`: 0 ZERO, 1 PERIOD, 2 CMP. -/
def preOf (x : Nat) (c : Carrier) : Nat := if x = 0 then c.preZ else if x = 1 then c.preP else c.preC

/-- PRE of event `x` in CAR_IRQ. -/
def preCfg (w : U32) (x : Nat) : Nat := fld w (4 * x + 7) (4 * x + 4)

/-- The carrier after an occurrence of event `x`: its prescaler one further, or afresh once it has passed PRE. -/
def counted (w : U32) (x : Nat) (c : Carrier) : Carrier :=
  let n := if preCfg w x < preOf x c + 1 then 0 else preOf x c + 1
  if x = 0 then { c with preZ := n } else if x = 1 then { c with preP := n } else { c with preC := n }

/-- Does an occurrence of event `x` go to the interrupt source. -/
def raises (w : U32) (x : Nat) (c : Carrier) : Bool := bit w x && decide (preCfg w x < preOf x c + 1)

theorem carEvent_eq (a x : Nat) (s : State) :
    carEvent a x s =
      if raises (rg s (rHRW_CAR_IRQ a)) x (carOf s a) then
        intEdge (setCar s a (counted (rg s (rHRW_CAR_IRQ a)) x (carOf s a))) (128 + 4 * a + x)
      else setCar s a (counted (rg s (rHRW_CAR_IRQ a)) x (carOf s a)) := rfl

theorem carEvent_only (a x : Nat) (s : State) : ChangesOnly [.regs, .flt, .ints, .cores, .hrw] s (carEvent a x s) :=
  (carEvent_keeps (Keeps.refl _ s) rfl).only

theorem intEdge_hrw (s : State) (k : Nat) : (intEdge s k).hrw = s.hrw :=
  (intEdge_keeps (Keeps.refl [.regs, .flt, .ints, .cores] s) rfl).only .hrw rfl

theorem carEvent_hrw (a x : Nat) (s : State) :
    (carEvent a x s).hrw = (setCar s a (counted (rg s (rHRW_CAR_IRQ a)) x (carOf s a))).hrw := by
  rw [carEvent_eq]
  split
  · exact intEdge_hrw _ _
  · rfl

theorem rg_carEvent {o : Nat} (ho : o ∉ sideRegs) (a x : Nat) (s : State) : rg (carEvent a x s) o = rg s o := by
  rw [carEvent_eq]
  split
  · exact rg_intEdge ho _ _
  · rfl

theorem carEvent_cnt {a x : Nat} {s : State} (ha : a < 12) (hx : x < 3) (hr : raises (rg s (rHRW_CAR_IRQ a)) x (carOf s a) = true)
    (he : srcEn s (128 + 4 * a + x) = true) (hc : (intSrc s (128 + 4 * a + x)).cnt < 255) :
    (intSrc (carEvent a x s) (128 + 4 * a + x)).cnt = (intSrc s (128 + 4 * a + x)).cnt + 1 := by
  obtain ⟨hl, hv⟩ := carrier_source ha hx
  rw [carEvent_eq, if_pos hr]
  exact intEdge_counts hl hv he hc

/-- What event `x` of arm `a`, whose carrier has become `c`, leaves of the state `s` before: the carrier counts the occurrence, the other
lanes and the cells stay, and the source counts where the event is enabled and its prescaler has passed PRE. -/
structure Occurred (a x : Nat) (c : Carrier) (s t : State) : Prop where
  car : carOf t a = counted (rg s (rHRW_CAR_IRQ a)) x c
  lane : harm t a = { harm s a with car := carOf t a }
  others : ∀ b, b ≠ a → harm t b = harm s b
  cells : t.hrw.cells = s.hrw.cells
  source : bit (rg s (rHRW_CAR_IRQ a)) x = true → preCfg (rg s (rHRW_CAR_IRQ a)) x < preOf x c + 1 → srcEn s (128 + 4 * a + x) = true →
    (intSrc s (128 + 4 * a + x)).cnt < 255 → (intSrc t (128 + 4 * a + x)).cnt = (intSrc s (128 + 4 * a + x)).cnt + 1

/-- `u` is `s` with the carrier `c` for arm `a`, as an event sees it: the same sources, CAR_IRQ and CFG registers of the sources. -/
structure Recarried (a : Nat) (c : Carrier) (s u : State) : Prop where
  hrw : u.hrw = (setCar s a c).hrw
  ints : u.ints = s.ints
  irq : rg u (rHRW_CAR_IRQ a) = rg s (rHRW_CAR_IRQ a)
  cfg : ∀ k, k < 2048 → rg u (rINT_SRC_CFG (k - 64)) = rg s (rINT_SRC_CFG (k - 64))

theorem occurred_of_recarried {a x : Nat} {c : Carrier} {s u : State} (ha : a < 12) (hx : x < 3) (h : Recarried a c s u) :
    Occurred a x c s (carEvent a x u) := by
  have hown : harm u a = { harm s a with car := c } := (harm_congr h.hrw a).trans (setHArm_same s a _)
  have hcar : carOf u a = c := congrArg HArm.car hown
  have hev := carEvent_hrw a x u
  rw [h.irq, hcar] at hev
  have hlane : harm (carEvent a x u) a = { harm s a with car := counted (rg s (rHRW_CAR_IRQ a)) x c } := by
    rw [harm_congr hev a, setCar, setHArm_same, hown]
  refine ⟨congrArg HArm.car hlane, ?_, fun b hb => ?_, ?_, fun hb hp he hc => ?_⟩
  · rw [carOf, hlane]
  · rw [harm_congr hev b, setCar, setHArm_ne _ _ _ _ hb, harm_congr h.hrw b, setCar, setHArm_ne _ _ _ _ hb]
  · exact (congrArg Hrw.cells hev).trans (congrArg Hrw.cells h.hrw :)
  · have hsrc (k : Nat) : intSrc u k = intSrc s k := by rw [intSrc, intSrc, h.ints]
    have hr : raises (rg u (rHRW_CAR_IRQ a)) x (carOf u a) = true := by
      rw [h.irq, hcar, raises, hb, decide_eq_true hp, Bool.and_self]
    rw [← srcEn_congr (by omega) (h.cfg (128 + 4 * a + x) (by omega))] at he
    rw [← hsrc] at hc ⊢
    exact carEvent_cnt ha hx hr he hc

theorem recarried_setCar {s u : State} (hhrw : u.hrw = s.hrw) (hints : u.ints = s.ints) (hregs : u.regs = s.regs) (a : Nat) (c : Carrier) :
    Recarried a c s (setCar u a c) where
  hrw := by simp only [setCar, setHArm, hhrw, harm_congr hhrw]
  ints := hints
  irq := rg_congr hregs _
  cfg _ _ := rg_congr hregs _

theorem recarried_advanceTo (a : Nat) (c : Carrier) (s : State) (n : Nat) : Recarried a c s (setCar (advanceTo s n) a c) :=
  recarried_setCar (advanceTo_hrw s n) (advanceTo_only s n .ints rfl) (advanceTo_only s n .regs rfl) a c

/-! ### The apex and a commanded edge (R293) -/

theorem carrierApex_none {a : Nat} {s : State} (h : (carOf s a).apex = none) : carrierApex a s = s := by
  rw [carrierApex, h]

theorem carrierApex_some {a n : Nat} {s : State} (h : (carOf s a).apex = some n) :
    carrierApex a s = carEvent a 1 (setCar (advanceTo s ((n + 7) / 8)) a { carOf s a with apex := none }) := by
  rw [carrierApex, h]

theorem carrierCmp_nil {a : Nat} {s : State} (h : (carOf s a).edges = []) : carrierCmp a s = s := by
  rw [carrierCmp, h]

theorem carrierCmp_cons {a n : Nat} {rest : List Nat} {s : State} (h : (carOf s a).edges = n :: rest) :
    carrierCmp a s = carEvent a 2 (setCar (advanceTo s ((n + 7) / 8)) a { carOf s a with edges := rest }) := by
  rw [carrierCmp, h]

theorem carEvent_tick (a x : Nat) (s : State) (n : Nat) (c : Carrier) :
    (carEvent a x (setCar (advanceTo s n) a c)).tick = u64 (max (now s) n) :=
  (carEvent_only a x _ .tick rfl).trans (advanceTo_tick_max s n)

/-! ### The grid zero (R275, R281, R283, R291, R292) -/

/-- The CARRIER_SET commands that load at the next zero of arm `a`. -/
def zeroDue (a : Nat) (s : State) : List Eff := carDue s a (carOf s a).rt.zero (fun e => e.ended.isNone && !e.applied)

/-- The epoch of the next zero. -/
def zeroEpoch (a : Nat) (s : State) : Nat := (carOf s a).rt.zero / firingUnits s

/-- The grid with those commands loaded. -/
def zeroGrid (a : Nat) (s : State) : Grid := (zeroDue a s).foldl gridLoad (carOf s a).rt

/-- Does the load switch a running carrier off. -/
def zeroStops (a : Nat) (s : State) : Bool := (carOf s a).rt.enabled && !(zeroGrid a s).enabled && carrierOpen s a (zeroEpoch a s)

/-- The epoch of the last cell's final zero, with which a drain that begins now ends. -/
def zeroLast (a : Nat) (s : State) : Nat := max (carOf s a).fin (carOf s a).rt.zero / firingUnits s

/-- The tick once the zero has come. -/
def zeroTick (a : Nat) (s : State) : U64 := u64 (max (now s) (((carOf s a).rt.zero + 7) / 8))

/-- Does a drain that begins at the zero end at once. -/
def zeroEnds (a : Nat) (s : State) : Bool := zeroStops a s && decide (zeroLast a s ≤ (zeroTick a s).toNat / lTicks s)

/-- The commands that loaded complete. -/
def zeroCmd (a : Nat) (s : State) : Cmds :=
  { s.cmd with pend := s.cmd.pend.map (fun e =>
    if ((zeroDue a s).map (·.id.ord)).contains e.id.ord && e.op == 0x0305 then
      { e with applied := true, epoch := zeroEpoch a s, at_ := some (zeroEpoch a s), ended := some (cDone, if e.moved then stMoved else stOk) }
    else e) }

/-- The carrier of arm `a` once the zero has come, before ZERO is counted. -/
def zeroCar (a : Nat) (s : State) : Carrier :=
  let c := carOf s a
  let z := c.rt.zero
  let g := zeroGrid a s
  let own := (c.zeros.find? (fun p => p.z == z)).getD { z := z }
  let zeroed := loadsPeriod (zeroDue a s)
  { c with
    rt := { g with zero := z + g.period }, zeros := c.zeros.filter (fun p => decide (z < p.z)), k := own.k, cmp0 := own.cmp0,
    apex := some (z + g.period / 2), loadEpoch := if (zeroDue a s).isEmpty then c.loadEpoch else zeroEpoch a s,
    drain := if zeroEnds a s then none else if zeroStops a s then some (zeroLast a s) else if g.enabled then none else c.drain,
    preZ := if zeroed then 0 else c.preZ, preP := if zeroed then 0 else c.preP, preC := if zeroed then 0 else c.preC }

/-- The bits of CAR_EVT that a zero sets: LOAD (R283) and DRAIN_END (R291). -/
def zeroEvt (a : Nat) (s : State) : U32 := pack [(1, b2n (!(zeroDue a s).isEmpty)), (2, b2n (zeroEnds a s))]

/-- The state when ZERO is raised. -/
def zeroLoaded (a : Nat) (s : State) : State :=
  setEvt (setCar { advanceTo s (((carOf s a).rt.zero + 7) / 8) with cmd := zeroCmd a s } a (zeroCar a s)) rHRW_CAR_EVT (zeroEvt a s)

theorem bit_pack_flags (p q : Bool) : bit (pack [(1, b2n p), (2, b2n q)]) 1 = p ∧ bit (pack [(1, b2n p), (2, b2n q)]) 2 = q := by
  cases p <;> cases q <;> exact ⟨rfl, rfl⟩

theorem zeroEvt_loaded {a : Nat} {s : State} (h : zeroDue a s ≠ []) : bit (zeroEvt a s) 1 = true := by
  rw [zeroEvt, (bit_pack_flags _ _).1, List.isEmpty_eq_false_iff.2 h, Bool.not_false]

theorem zeroEvt_drained {a : Nat} {s : State} (h : zeroEnds a s = true) : bit (zeroEvt a s) 2 = true := by
  rw [zeroEvt, (bit_pack_flags _ _).2, h]

theorem carDue_congr {s t : State} (hc : t.cmd = s.cmd) (hs : t.sys = s.sys) (hr : s.sys.running = true) (a z : Nat) (p : Eff → Bool) :
    carDue t a z p = carDue s a z p := by
  rw [carDue, carDue, hc, firingUnits_congr hs hr]

theorem carrierOpen_congr {s t : State} (ha : t.cmd.arms = s.cmd.arms) (hg : t.cmd.groups = s.cmd.groups) (a e : Nat) :
    carrierOpen t a e = carrierOpen s a e := by
  have hgroup (g : Nat) : group t g = group s g := by rw [group, group, hg]
  rw [carrierOpen, carrierOpen, armCarrier, armCarrier, armMapped_congr ha, armMap_congr ha, hgroup]

theorem lTicks_congr {s t : State} (h : t.sys = s.sys) (hr : s.sys.running = true) : lTicks t = lTicks s := by
  simp only [lTicks, flenCode, h, hr, if_true]

theorem carrierZero_off {a : Nat} {s : State} (h : (carOf s a).rt.on = false ∨ s.sys.running = false) : carrierZero a s = s :=
  if_pos (by rcases h with h | h <;> simp [h])

theorem carrierZero_on {a : Nat} {s : State} (hon : (carOf s a).rt.on = true) (hr : s.sys.running = true) :
    carrierZero a s = carEvent a 0 (zeroLoaded a s) := by
  have honly := advanceTo_only s (((carOf s a).rt.zero + 7) / 8)
  have htick := advanceTo_tick_max s (((carOf s a).rt.zero + 7) / 8)
  unfold carrierZero
  dsimp only
  rw [if_neg (by simp [hon, hr])]
  unfold zeroLoaded
  generalize advanceTo s _ = u at honly htick ⊢
  have hsys : u.sys = s.sys := honly .sys rfl
  have hcmd : u.cmd = s.cmd := honly .cmd rfl
  have hopen (m : Cmds) (hm : m.arms = s.cmd.arms) (hg : m.groups = s.cmd.groups) (e : Nat) :
      carrierOpen { u with cmd := m } a e = carrierOpen s a e := carrierOpen_congr hm hg a e
  have hnow (m : Cmds) : epochNow { u with cmd := m } = (zeroTick a s).toNat / lTicks s := by
    have hl : lTicks { u with cmd := m } = lTicks s := lTicks_congr hsys hr
    rw [epochNow, hl, if_pos (hsys ▸ hr), now, htick, zeroTick]
  have hcar (m : Cmds) : carOf { u with cmd := m } a = carOf s a := congrArg HArm.car (harm_congr (honly .hrw rfl) a)
  have hunits (m : Cmds) : firingUnits { u with cmd := m } = firingUnits s := firingUnits_congr hsys hr
  simp only [carDue_congr hcmd hsys hr, firingUnits_congr hsys hr, hcmd, hunits, hcar, hnow, hopen]
  rfl

theorem Recarried.then_carEvt {a : Nat} {c : Carrier} {s u : State} (ha : a < 12) (h : Recarried a c s u) (m : U32) :
    Recarried a c s (setEvt u rHRW_CAR_EVT m) where
  hrw := h.hrw
  ints := h.ints
  irq := (rg_wr_ne _ _ _ _ (by simp only [rHRW_CAR_IRQ, rHRW_CAR_EVT]; omega)).trans h.irq
  cfg k hk := (rg_wr_ne _ _ _ _ (by simp only [rINT_SRC_CFG, rHRW_CAR_EVT]; omega)).trans (h.cfg k hk)

theorem recarried_zeroLoaded {a : Nat} (ha : a < 12) (s : State) : Recarried a (zeroCar a s) s (zeroLoaded a s) := by
  have honly := advanceTo_only s (((carOf s a).rt.zero + 7) / 8)
  unfold zeroLoaded
  generalize advanceTo s _ = u at honly ⊢
  exact (recarried_setCar (u := { u with cmd := zeroCmd a s }) (honly .hrw rfl) (honly .ints rfl) (honly .regs rfl) a _).then_carEvt ha _

theorem zeroLoaded_tick (a : Nat) (s : State) : (zeroLoaded a s).tick = zeroTick a s := by
  have htick := advanceTo_tick_max s (((carOf s a).rt.zero + 7) / 8)
  unfold zeroLoaded
  generalize advanceTo s _ = u at htick ⊢
  exact htick

theorem carrierZero_tick (a : Nat) (s : State) : (carEvent a 0 (zeroLoaded a s)).tick = zeroTick a s :=
  (carEvent_only a 0 _ .tick rfl).trans (zeroLoaded_tick a s)

theorem zeroLoaded_cmd (a : Nat) (s : State) : (zeroLoaded a s).cmd = zeroCmd a s := by
  rw [zeroLoaded, setEvt_cmd, setCar, setHArm_cmd]

theorem carrierZero_cmd (a : Nat) (s : State) : (carEvent a 0 (zeroLoaded a s)).cmd = zeroCmd a s :=
  (carEvent_only a 0 _ .cmd rfl).trans (zeroLoaded_cmd a s)

theorem carrierZero_evt {a i : Nat} {s : State} (h : bit (zeroEvt a s) i = true) :
    bit (rg (carEvent a 0 (zeroLoaded a s)) rHRW_CAR_EVT) i = true := by
  rw [rg_carEvent (by decide), zeroLoaded, rg_setEvt_same]
  exact bit_or_right _ _ h

/-- Settles O60: the three events count alike (`Occurred`), and the zero loads, drains and completes before ZERO is counted. -/
theorem carrierZerosLoadAndRaiseEvents : Obligations.CarrierZerosLoadAndRaiseEvents := by
  unfold Obligations.CarrierZerosLoadAndRaiseEvents
  refine ⟨fun s a h => congrArg _ (carrierZero_off h), fun s a hon hr => ?zero, fun s a h => congrArg _ (carrierApex_none h),
    fun s a n h => ?apex, fun s a h => congrArg _ (carrierCmp_nil h), fun s a n rest h => ?cmp⟩
  case zero =>
    have hocc : Occurred a 0 (zeroCar a s) s (carEvent a 0 (zeroLoaded a s)) :=
      occurred_of_recarried a.isLt (by decide) (recarried_zeroLoaded a.isLt s)
    have htick := carrierZero_tick a s
    have hcmd := carrierZero_cmd a s
    have hevt (i : Nat) := carrierZero_evt (a := a) (i := i) (s := s)
    refine ⟨_, congrArg Host.Outcome.next (carrierZero_on hon hr), ?_⟩
    generalize carEvent a 0 (zeroLoaded a s) = t at hocc htick hcmd hevt ⊢
    have hx := hocc.car
    have hpreP : (carOf t a).preP = if loadsPeriod (zeroDue a s) then 0 else (carOf s a).preP := congrArg Carrier.preP hx
    have hpreC : (carOf t a).preC = if loadsPeriod (zeroDue a s) then 0 else (carOf s a).preC := congrArg Carrier.preC hx
    refine ⟨htick, congrArg Carrier.rt hx, congrArg Carrier.apex hx, fun h => congrArg _ h, congrArg Carrier.loadEpoch hx,
      fun h => hevt 1 (zeroEvt_loaded h), ?drain, fun h => ?drained, congrArg Carrier.k hx, congrArg Carrier.cmp0 hx,
      congrArg Carrier.zeros hx, congrArg Carrier.preZ hx, fun h => ⟨hpreP.trans (if_pos h), hpreC.trans (if_pos h)⟩,
      fun h => ⟨hpreP.trans (if_neg (Bool.eq_false_iff.1 h)), hpreC.trans (if_neg (Bool.eq_false_iff.1 h))⟩, hocc.source, hcmd, hocc.others,
      hocc.lane, hocc.cells⟩
    case drain => exact htick ▸ congrArg Carrier.drain hx
    case drained =>
      rw [htick] at h
      exact hevt 2 (zeroEvt_drained h)
  case apex =>
    have hocc := occurred_of_recarried (x := 1) a.isLt (by decide) (recarried_advanceTo a { carOf s a with apex := none } s ((n + 7) / 8))
    exact ⟨_, congrArg Host.Outcome.next (carrierApex_some h), carEvent_tick .., hocc.car, hocc.source, hocc.others, hocc.cells⟩
  case cmp =>
    have hocc := occurred_of_recarried (x := 2) a.isLt (by decide) (recarried_advanceTo a { carOf s a with edges := rest } s ((n + 7) / 8))
    exact ⟨_, congrArg Host.Outcome.next (carrierCmp_cons h), carEvent_tick .., hocc.car, hocc.source, hocc.others, hocc.cells⟩

end Sys2Proof.Machine
end

section
/-! PROOFS. The loop engines: the published references, a missed deadline, ECC errors, sources and captures (O58). -/

namespace Sys2Proof.Machine

/-! ### What Snare adds to an event of the loops (R463, R467) -/

/-- `t` is `s` once Snare has recorded signals: beside its own state it counts in registers of its own and adds reports. -/
structure Recorded (s t : State) : Prop where
  only : ChangesOnly [.regs, .flt, .snr] s t
  regs : ∀ o, o ∉ sideRegs → rg t o = rg s o
  inbox : s.flt.inbox <+: t.flt.inbox

namespace Recorded

theorem refl (s : State) : Recorded s s := ⟨ChangesOnly.refl _ s, fun _ _ => rfl, List.prefix_refl _⟩

theorem trans {s t u : State} (x : Recorded s t) (y : Recorded t u) : Recorded s u :=
  ⟨x.only.trans y.only, fun o ho => (y.regs o ho).trans (x.regs o ho), x.inbox.trans y.inbox⟩

theorem foldl {α : Type} {f : State → α → State} (hf : ∀ u a, Recorded u (f u a)) (l : List α) (s : State) : Recorded s (l.foldl f s) := by
  induction l generalizing s with
  | nil => exact refl s
  | cons a l ih => exact (hf s a).trans (ih _)

end Recorded

theorem snareRecord_inbox (t g i v : Nat) (s : State) : s.flt.inbox <+: (snareRecord t g i v s).flt.inbox := by
  unfold snareRecord
  dsimp only
  split
  · split
    · exact List.prefix_refl _
    · exact List.prefix_append _ _
  · exact List.prefix_refl _

theorem recorded_snareSig (t g i v : Nat) (s : State) : Recorded s (snareSig t g i v s) where
  only := (snareSig_keeps (Keeps.refl _ s) rfl).only
  regs _ ho := rg_snareSig ho ..
  inbox := by
    unfold snareSig
    dsimp only
    split
    · exact List.prefix_refl _
    · exact snareRecord_inbox t g i (v % 65536) { s with snr := { s.snr with sig := tset 0 s.snr.sig (sigId g i) (v % 65536) } }

theorem recorded_loopSignals (out : Bool) (s : State) : Recorded s (loopSignals out s) := by
  have hsig (t g : Nat) (v : State → Nat → Nat) (u : State) :
      Recorded u ((List.range 128).foldl (fun s l => snareSig t g l (v s l) s) u) :=
    Recorded.foldl (fun u l => recorded_snareSig t g l (v u l) u) _ u
  unfold loopSignals
  dsimp only
  split
  · exact (hsig (now s) 7 (fun s l => (loop s l).out.toNat / 2 ^ 16) s).trans (hsig (now s) 8 (fun s l => (lstat (loop s l)).toNat) _)
  · exact hsig (now s) 8 (fun s l => (lstat (loop s l)).toNat) s

theorem recorded_snareEval (s : State) : Recorded s (snareEval s) where
  only := (snareEval_only s).mono rfl
  regs _ ho := rg_snareEval_side ho s
  inbox := (congrArg Flt.inbox (snareEval_only s .flt rfl)) ▸ List.prefix_refl _

/-- An event of the loops ends with their signals and the evaluation of the trigger. -/
theorem recorded_loopEvent (out : Bool) (s : State) : Recorded s (snareEval (loopSignals out s)) :=
  (recorded_loopSignals out s).trans (recorded_snareEval _)

theorem loop_congr {s t : State} (h : t.lpe.loops = s.lpe.loops) (l : Nat) : loop t l = loop s l := by
  rw [loop, loop, h]

/-! ### The reference sets (R300, R301) -/

theorem armRef_unnamed {s : State} {a : Nat}
    (h : ∀ l, l < 128 → ¬ (bit (rg s (rLPE_LOOP_DST l)) 4 = true ∧ fld (rg s (rLPE_LOOP_DST l)) 3 0 = a)) : armRef s a = 0 := by
  unfold armRef
  rw [List.foldl_ext _ (fun acc _ => acc) _ fun acc l hl => if_neg (by simpa using h l (List.mem_range.1 hl))]
  exact List.foldl_fixed _

theorem armRef_congr {s t : State} (hr : t.regs = s.regs) (hl : t.lpe.loops = s.lpe.loops) (a : Nat) : armRef t a = armRef s a := by
  simp only [armRef, rg_congr hr, loop_congr hl]

/-- A table that lists the values of `f` at the numbers below `n`. -/
theorem tget_foldl_range {α : Type} [DecidableEq α] (d : α) (f : Nat → α) {n k : Nat} (h : k < n) :
    tget d ((List.range n).foldl (fun t k => tset d t k (f k)) []) k = f k :=
  (putsAt_tset d id f).tget_foldl_mem List.nodup_range (List.mem_range.2 h) []

/-- A running maximum bounds the values below `n`, and is one of them or the 0 that it starts with. -/
theorem foldl_max_range (f : Nat → Nat) (n : Nat) :
    (∀ k, k < n → f k ≤ (List.range n).foldl (fun a k => max a (f k)) 0) ∧
    ((List.range n).foldl (fun a k => max a (f k)) 0 = 0 ∨ ∃ k, k < n ∧ (List.range n).foldl (fun a k => max a (f k)) 0 = f k) := by
  induction n with
  | zero => exact ⟨fun k h => absurd h (Nat.not_lt_zero k), .inl rfl⟩
  | succ n ih =>
    obtain ⟨hle, hat⟩ := ih
    simp only [List.range_succ, List.foldl_append, List.foldl_cons, List.foldl_nil]
    generalize (List.range n).foldl (fun a k => max a (f k)) 0 = m at hle hat ⊢
    constructor
    · intro k hk
      rcases Nat.lt_succ_iff_lt_or_eq.1 hk with h | rfl
      · exact (hle k h).trans (Nat.le_max_left _ _)
      · exact Nat.le_max_right _ _
    · rcases Nat.le_total m (f n) with h | h
      · exact .inr ⟨n, Nat.lt_succ_self n, Nat.max_eq_right h⟩
      · rw [Nat.max_eq_left h]
        exact hat.imp_right fun ⟨k, hk, e⟩ => ⟨k, Nat.lt_succ_of_lt hk, e⟩

/-- The cycles of engine `e`. -/
def engCycles (corr : List Nat) (e : Nat) : Nat := 808 + 48 * corr.getD e 0

/-- The cycles of the engine that finishes last. -/
def lastCycles (corr : List Nat) : Nat := (List.range 8).foldl (fun a e => max a (engCycles corr e)) 0

theorem lastCycles_spec (corr : List Nat) :
    (∀ e, e < 8 → engCycles corr e ≤ lastCycles corr) ∧ ∃ e, e < 8 ∧ lastCycles corr = engCycles corr e := by
  obtain ⟨hle, hat⟩ := foldl_max_range (engCycles corr) 8
  refine ⟨hle, hat.resolve_left fun h => ?_⟩
  have h0 := hle 0 (by decide)
  rw [h, engCycles] at h0
  omega

/-- ENG_STAT of engine `e`: its cycles, its corrected errors, and whether it was late. -/
def engStatOf (corr : List Nat) (s : State) (e : Nat) : U32 :=
  pack [(0, min (engCycles corr e) 0xFFF), (16, min (corr.getD e 0) 255), (24, b2n (s.lpe.lateEng.getLsbD e))]

/-- The engines once the sets of sample `m` are published. -/
def lpePublished (corr : List Nat) (m : Nat) (s : State) : Lpe :=
  { s.lpe with
    refs := (List.range 12).foldl (fun t a => tset 0 t a (armRef s a)) [], refsM := some m, busy := false,
    engStat := (List.range 8).foldl (fun t e => tset 0 t e (engStatOf corr s e)) [] }

theorem lpePublished_congr {s t : State} (hr : t.regs = s.regs) (hl : t.lpe = s.lpe) (corr : List Nat) (m : Nat) :
    lpePublished corr m t = lpePublished corr m s := by
  simp only [lpePublished, engStatOf, armRef_congr hr (congrArg Lpe.loops hl), hl]

theorem rg_lpe (s : State) (x : Lpe) (o : Nat) : rg { s with lpe := x } o = rg s o := rfl

/-- The state in which the engine interrupt is raised. -/
def setsPublished (corr : List Nat) (m : Nat) (s : State) : State :=
  count { advanceTo s (m * lTicks s + (lastCycles corr + 1) / 2) with lpe := lpePublished corr m s } rLPE_ECC_CNT (corr.foldl (· + ·) 0)

theorem enginesDone_idle {s : State} (corr : List Nat) (h : s.lpe.sample = none ∨ s.lpe.busy = false) : enginesDone corr s = s := by
  unfold enginesDone
  rcases h with h | h
  · rw [h]
  · split
    · rfl
    · exact if_pos (by rw [h]; rfl)

theorem enginesDone_busy {s : State} {m : Nat} (corr : List Nat) (hm : s.lpe.sample = some m) (hb : s.lpe.busy = true) :
    enginesDone corr s = loopSignals true (intEdge (setsPublished corr m s) 99) := by
  have honly := advanceTo_only s (m * lTicks s + (lastCycles corr + 1) / 2)
  rw [setsPublished, ← lpePublished_congr (honly .regs rfl) (honly .lpe rfl)]
  simp only [enginesDone, hm, hb, Bool.not_true, Bool.false_eq_true, if_false, lpePublished, engStatOf, lastCycles, engCycles]

theorem intEdge_only (s : State) (k : Nat) : ChangesOnly [.regs, .flt, .ints, .cores] s (intEdge s k) := (intEdge_keeps (Keeps.refl _ s) rfl).only

theorem setsPublished_tick (corr : List Nat) (m : Nat) (s : State) :
    (setsPublished corr m s).tick = u64 (max (now s) (m * lTicks s + (lastCycles corr + 1) / 2)) := by
  have htick := advanceTo_tick_max s (m * lTicks s + (lastCycles corr + 1) / 2)
  unfold setsPublished
  generalize advanceTo s _ = u at htick ⊢
  exact htick

theorem setsPublished_lpe (corr : List Nat) (m : Nat) (s : State) : (setsPublished corr m s).lpe = lpePublished corr m s := rfl

/-- The engine interrupt counts the end of the sample (R300, R419). -/
theorem setsPublished_counts {s : State} (corr : List Nat) (m : Nat) (he : srcEn s 99 = true) (hc : (intSrc s 99).cnt < 255) :
    (intSrc (intEdge (setsPublished corr m s) 99) 99).cnt = (intSrc s 99).cnt + 1 := by
  have honly := advanceTo_only s (m * lTicks s + (lastCycles corr + 1) / 2)
  have hcfg : rg (setsPublished corr m s) (rINT_SRC_CFG (99 - 64)) = rg s (rINT_SRC_CFG (99 - 64)) :=
    (rg_wr_ne _ _ _ _ (by decide)).trans ((rg_lpe _ _ _).trans (rg_advanceTo _ _ _))
  have hsrc : intSrc (setsPublished corr m s) 99 = intSrc s 99 := by
    simp only [intSrc, setsPublished, count_ints, honly .ints rfl]
  rw [← srcEn_congr (by decide) hcfg] at he
  rw [← hsrc] at hc ⊢
  exact intEdge_counts (by decide) (by decide) he hc

/-- What the end of the sample leaves. -/
theorem published_leaves {corr : List Nat} {m : Nat} {s t : State} (h : Recorded (intEdge (setsPublished corr m s) 99) t) :
    t.tick = u64 (max (now s) (m * lTicks s + (lastCycles corr + 1) / 2)) ∧ t.lpe = lpePublished corr m s ∧
    rg t rLPE_ECC_CNT = satInc (rg s rLPE_ECC_CNT) (corr.foldl (· + ·) 0) ∧
    (srcEn s 99 = true → (intSrc s 99).cnt < 255 → (intSrc t 99).cnt = (intSrc s 99).cnt + 1) := by
  have hedge := intEdge_only (setsPublished corr m s) 99
  have hcnt := setsPublished_counts (s := s) corr m
  refine ⟨((h.only .tick rfl).trans (hedge .tick rfl)).trans (setsPublished_tick corr m s),
    ((h.only .lpe rfl).trans (hedge .lpe rfl)).trans (setsPublished_lpe corr m s), ?_, fun he hc => ?_⟩
  · rw [h.regs _ (by decide), rg_intEdge (by decide), setsPublished, rg_count_same, rg_lpe, rg_advanceTo]
  · rw [← hcnt he hc, intSrc, h.only .ints rfl, ← intSrc]

/-! ### A missed deadline (R30, R302) -/

/-- Does some loop of engine `e` name arm `a`. -/
def engineNames (s : State) (e a : Nat) : Bool :=
  (List.range 16).any fun i => bit (rg s (rLPE_LOOP_DST (16 * e + i))) 4 && decide (fld (rg s (rLPE_LOOP_DST (16 * e + i))) 3 0 = a)

/-- The arms that engine `e` names and that no engine has yielded for in this period. -/
def newLateArms (e : Nat) (s : State) : List Nat := idxs 12 fun a => engineNames s e a && !s.lpe.lateArms.getLsbD a

theorem engineArms_filter (e : Nat) (s : State) : (engineArms s e).filter (fun a => !s.lpe.lateArms.getLsbD a) = newLateArms e s := by
  simp only [engineArms, newLateArms, idxs, List.filter_filter, engineNames, Bool.and_comm]

theorem newLateArms_congr {s t : State} (hr : t.regs = s.regs) (hl : t.lpe = s.lpe) (e : Nat) : newLateArms e t = newLateArms e s := by
  simp only [newLateArms, engineNames, rg_congr hr, hl]

/-- The word that the bits of the listed numbers add up to has exactly these bits. -/
theorem testBit_foldl_two_pow (p : Nat → Bool) (n k : Nat) :
    ((idxs n p).foldl (fun x a => x + 2 ^ a) 0).testBit k = (decide (k < n) && p k) := by
  induction n generalizing k with
  | zero => simp [idxs]
  | succ n ih =>
    have hlt : (idxs n p).foldl (fun x a => x + 2 ^ a) 0 < 2 ^ n :=
      Nat.lt_pow_two_of_testBit _ fun i hi => by rw [ih, decide_eq_false (Nat.not_lt.2 hi), Bool.false_and]
    have hsucc : idxs (n + 1) p = idxs n p ++ if p n then [n] else [] := by
      simp only [idxs, List.range_succ, List.filter_append, List.filter_singleton, Bool.cond_eq_ite]
    rw [hsucc, List.foldl_append]
    generalize (idxs n p).foldl (fun x a => x + 2 ^ a) 0 = x at ih hlt ⊢
    have hadd : x + 2 ^ n = x ||| 2 ^ n := by
      rw [Nat.add_comm, Nat.or_comm]
      simpa using Nat.two_pow_add_eq_or_of_lt hlt 1
    have hbit : ((if p n then [n] else []).foldl (fun x a => x + 2 ^ a) x).testBit k = (x.testBit k || p n && decide (n = k)) := by
      cases p n <;> simp [hadd, Nat.testBit_two_pow]
    rw [hbit, ih]
    by_cases hk : k = n
    · simp [hk]
    · have hlast : k < n + 1 ↔ k < n := by omega
      simp [Ne.symm hk, hlast]

/-- A pass over the `n` keys from `b` changes these by `f`. -/
theorem tget_foldl_tmod {α : Type} [DecidableEq α] (d : α) (f : α → α) (t : Tbl α) (b n k : Nat) :
    tget d ((List.range n).foldl (fun t i => tmod d t (b + i) f) t) k = if b ≤ k ∧ k < b + n then f (tget d t k) else tget d t k := by
  induction n with
  | zero => exact (if_neg (by omega)).symm
  | succ n ih =>
    rw [List.range_succ, List.foldl_append, List.foldl_cons, List.foldl_nil, tmod]
    by_cases hk : k = b + n
    · rw [hk, tget_tset_same, ← hk, ih, if_neg (by omega), if_pos (by omega)]
    · rw [tget_tset_ne hk, ih]
      exact if_congr (by omega) rfl rfl

/-- The engines once engine `e` has missed its deadline. -/
def lpeLate (e : Nat) (s : State) : Lpe :=
  { s.lpe with
    loops := (List.range 16).foldl (fun t i => tmod {} t (16 * e + i) (fun x => { x with late := true })) s.lpe.loops
    lateEng := s.lpe.lateEng ||| BitVec.ofNat 8 (2 ^ e)
    lateArms := s.lpe.lateArms ||| BitVec.ofNat 12 ((newLateArms e s).foldl (fun x a => x + 2 ^ a) 0)
    engStat := tset 0 s.lpe.engStat e (tget 0 s.lpe.engStat e ||| bitv 24) }

/-- The state in which the signals of the late loops are recorded. -/
def engineLate (e m : Nat) (s : State) : State :=
  report (setEvt (count { count (advanceTo s (m * lTicks s + dLoop s)) (rSYS_YIELD_CNT 1) (newLateArms e s).length with lpe := lpeLate e s }
    rLPE_LATE_CNT) rLPE_EVT (bitv 0)) (srcBlk 6 e) 0x0180

theorem engineLate_tick (e m : Nat) (s : State) : (engineLate e m s).tick = u64 (max (now s) (m * lTicks s + dLoop s)) := by
  have htick := advanceTo_tick_max s (m * lTicks s + dLoop s)
  unfold engineLate
  generalize advanceTo s _ = u at htick ⊢
  exact htick

theorem engineLate_lpe (e m : Nat) (s : State) : (engineLate e m s).lpe = lpeLate e s := rfl

theorem engineLate_inbox (e m : Nat) (s : State) :
    (engineLate e m s).flt.inbox = s.flt.inbox ++ [{ source := srcBlk 6 e, code := 0x0180 }] := by
  have hflt := advanceTo_only s (m * lTicks s + dLoop s) .flt rfl
  unfold engineLate
  generalize advanceTo s _ = u at hflt ⊢
  exact congrArg (fun f : Flt => f.inbox ++ [{ source := srcBlk 6 e, code := 0x0180 }]) hflt

theorem engStat_late (e : Nat) (s : State) : bit (tget 0 (lpeLate e s).engStat e) 24 = true := by
  rw [lpeLate, tget_tset_same]
  exact bit_or_bitv _ (by decide)

theorem deadlineMiss_idle {s : State} {e : Nat} (h : s.lpe.sample = none ∨ s.lpe.busy = false ∨ s.lpe.lateEng.getLsbD e = true) :
    loopDeadlineMiss e s = s := by
  unfold loopDeadlineMiss
  rcases h with h | h
  · rw [h]
  · split
    · rfl
    · exact if_pos (by rcases h with h | h <;> simp [h])

theorem deadlineMiss_late {s : State} {e m : Nat} (hm : s.lpe.sample = some m) (hb : s.lpe.busy = true) (hl : s.lpe.lateEng.getLsbD e = false) :
    loopDeadlineMiss e s = loopSignals false (engineLate e m s) := by
  have honly := advanceTo_only s (m * lTicks s + dLoop s)
  unfold loopDeadlineMiss
  rw [hm]
  refine (if_neg (by rw [hb, hl]; decide)).trans ?_
  dsimp only
  rw [engineArms_filter, newLateArms_congr (honly .regs rfl) (honly .lpe rfl), count_lpe, honly .lpe rfl]
  rfl

/-- What a missed deadline counts and flags. -/
theorem rg_engineLate (e m : Nat) (s : State) :
    rg (engineLate e m s) (rSYS_YIELD_CNT 1) = satInc (rg s (rSYS_YIELD_CNT 1)) (newLateArms e s).length ∧
    rg (engineLate e m s) rLPE_LATE_CNT = satInc (rg s rLPE_LATE_CNT) 1 ∧ bit (rg (engineLate e m s) rLPE_EVT) 0 = true := by
  have hset (u : State) {o : Nat} (h : o ≠ rLPE_EVT) : rg (setEvt u rLPE_EVT (bitv 0)) o = rg u o := rg_wr_ne _ _ _ _ h
  have hcount (u : State) {o k n : Nat} (h : o ≠ k) : rg (count u k n) o = rg u o := rg_wr_ne _ _ _ _ h
  simp only [engineLate, rg_report]
  refine ⟨?_, ?_, ?_⟩
  · rw [hset _ (by decide), hcount _ (by decide), rg_lpe, rg_count_same, rg_advanceTo]
  · rw [hset _ (by decide), rg_count_same, rg_lpe, hcount _ (by decide), rg_advanceTo]
  · rw [rg_setEvt_same]
    exact bit_or_bitv _ (by decide)

/-- What a missed deadline leaves of the sample and of the sets published. -/
theorem lpeLate_keeps (e : Nat) (s : State) : (lpeLate e s).sample = s.lpe.sample ∧ (lpeLate e s).busy = s.lpe.busy ∧
    (lpeLate e s).refs = s.lpe.refs ∧ (lpeLate e s).refsM = s.lpe.refsM := by
  simp only [lpeLate, and_self]

theorem loop_late {s t : State} {e : Nat} (h : t.lpe = lpeLate e s) (l : Nat) :
    loop t l = if l / 16 = e then { loop s l with late := true } else loop s l := by
  rw [loop, h, lpeLate, tget_foldl_tmod, ← loop]
  exact if_congr (by omega) rfl rfl

theorem lateEng_late (e : Nat) (s : State) {j : Nat} (hj : j < 8) :
    (lpeLate e s).lateEng.getLsbD j = (s.lpe.lateEng.getLsbD j || decide (j = e)) := by
  simp only [lpeLate, BitVec.getLsbD_or, BitVec.getLsbD_ofNat, hj, decide_true, Bool.true_and, Nat.testBit_two_pow, eq_comm]

theorem lateArms_late (e : Nat) (s : State) {a : Nat} (ha : a < 12) :
    (lpeLate e s).lateArms.getLsbD a = (s.lpe.lateArms.getLsbD a || engineNames s e a) := by
  simp only [lpeLate, newLateArms, BitVec.getLsbD_or, BitVec.getLsbD_ofNat, ha, decide_true, Bool.true_and, testBit_foldl_two_pow]
  cases s.lpe.lateArms.getLsbD a <;> simp

/-! ### An uncorrectable ECC error (R323) -/

/-- The error's loop stops at once, and the coefficient hit, if one was, takes the next free word. -/
def loopHit (l c : Nat) (s : State) : State :=
  let s := setLoop s l { loop s l with enabled := false, starting := false, drain := false, fallback := 0 }
  if c < 23 then wr { s with freeCtr := s.freeCtr + 1 } (rLPE_LOOP_COEF l c) (lo32 (Config.freeWord s.freeCtr)) else s

/-- The state in which the signals of the stopped loop are recorded. -/
def loopStopped (l c : Nat) (s : State) : State :=
  report (setEvt (loopHit l c s) rLPE_EVT (bitv 5)) (srcBlk 6 (l / 16)) 0x0185

theorem loopEcc_eq (l c : Nat) (s : State) : loopEcc l c s = loopSignals false (loopStopped l c s) := rfl

/-- The error reaches the loop's state alone, and reports nothing yet. -/
theorem loopHit_frame (l c : Nat) (s : State) : (loopHit l c s).flt = s.flt ∧
    (loopHit l c s).lpe = (setLoop s l { loop s l with enabled := false, starting := false, drain := false, fallback := 0 }).lpe := by
  unfold loopHit
  dsimp only
  split
  · exact ⟨rfl, rfl⟩
  · exact ⟨rfl, rfl⟩

theorem rg_loopHit_ne {l c o : Nat} (h : ¬ (c < 23 ∧ o = rLPE_LOOP_COEF l c)) (s : State) : rg (loopHit l c s) o = rg s o := by
  unfold loopHit
  dsimp only
  split
  · next hc => exact rg_wr_ne _ _ _ _ fun ho => h ⟨hc, ho⟩
  · rfl

theorem loopHit_coef {l c : Nat} (h : c < 23) (s : State) :
    rg (loopHit l c s) (rLPE_LOOP_COEF l c) = lo32 (Config.freeWord s.freeCtr) ∧ (loopHit l c s).freeCtr = s.freeCtr + 1 := by
  unfold loopHit
  dsimp only
  rw [if_pos h]
  exact ⟨rg_wr_same _ _ _, rfl⟩

/-- The registers of the engines are none in which Snare counts. -/
theorem lpeReg_not_sideReg {o : Nat} (h : 0x600000 ≤ o ∧ o < 0x700000) : o ∉ sideRegs := by
  simp only [sideRegs, List.mem_cons, List.not_mem_nil, or_false, rSNR_EVT, rSNR_MISSED, rSNR_DROP, rSYS_YIELD_CNT, rINT_EVT, rFLT_EVT,
    rGRN_EVT, rGRN_JNL_DROP, rFLT_BKT_RETIRED]
  omega

theorem loopStopped_evt (l c : Nat) (s : State) : bit (rg (loopStopped l c s) rLPE_EVT) 5 = true := by
  rw [loopStopped, rg_report, rg_setEvt_same]
  exact bit_or_bitv _ (by decide)

/-- Neither the report nor the event register touches a coefficient. -/
theorem rg_coef_stopped {l c : Nat} {s t : State} (h : Recorded (loopStopped l c s) t) {k j : Nat} (hk : k < 128) (hj : j < 23) :
    rg t (rLPE_LOOP_COEF k j) = rg (loopHit l c s) (rLPE_LOOP_COEF k j) := by
  have hside : rLPE_LOOP_COEF k j ∉ sideRegs := lpeReg_not_sideReg (by simp only [rLPE_LOOP_COEF]; omega)
  rw [h.regs _ hside, loopStopped, rg_report]
  exact rg_wr_ne _ _ _ _ (by simp only [rLPE_LOOP_COEF, rLPE_EVT]; omega)

/-! ### Register writes (R304, R327, R330) -/

/-- A configuration register of the loops takes `w`, with CFG_ERR where what was written is bad. -/
def cfgStored (off : Nat) (w : U32) (bad : Bool) (s : State) : State := if bad then setEvt (wr s off w) rLPE_EVT (bitv 8) else wr s off w

section
variable {off : Nat} (w : U32) (bad : Bool) (s : State)

theorem rg_cfgStored_same (h : off ≠ rLPE_EVT) : rg (cfgStored off w bad s) off = w := by
  cases bad
  · exact rg_wr_same _ _ _
  · exact (rg_wr_ne _ _ _ _ h).trans (rg_wr_same _ _ _)

theorem rg_cfgStored_ne {o : Nat} (h : o ≠ off) (he : o ≠ rLPE_EVT) : rg (cfgStored off w bad s) o = rg s o := by
  cases bad
  · exact rg_wr_ne _ _ _ _ h
  · exact (rg_wr_ne _ _ _ _ he).trans (rg_wr_ne _ _ _ _ h)

theorem cfgStored_good (h : off ≠ rLPE_EVT) : rg (cfgStored off w false s) rLPE_EVT = rg s rLPE_EVT := rg_wr_ne _ _ _ _ h.symm

theorem cfgStored_bad : bit (rg (cfgStored off w true s) rLPE_EVT) 8 = true := by
  rw [cfgStored, if_pos rfl, rg_setEvt_same]
  exact bit_or_bitv _ (by decide)

end

/-- A source code as stored: NONE where it is bad (R304). -/
def keptCode (code : Nat) : Nat := if srcCodeOk code then code else 0

theorem srcWrite_two (off : Nat) (v : U32) (s : State) :
    srcWrite off true v s = cfgStored off (pack [(0, keptCode (fld v 15 0)), (16, keptCode (fld v 31 16))])
      (!srcCodeOk (fld v 15 0) || !srcCodeOk (fld v 31 16)) s := rfl

theorem srcWrite_one (off : Nat) (v : U32) (s : State) :
    srcWrite off false v s = cfgStored off (u32 (keptCode (fld v 15 0))) (!srcCodeOk (fld v 15 0)) s := by
  have hnone : srcCodeOk 0 = true := rfl
  simp [srcWrite, cfgStored, keptCode, pack, hnone]

theorem dstWrite_eq (l : Nat) (v : U32) (s : State) :
    dstWrite l v s = cfgStored (rLPE_LOOP_DST l) (if 11 < fld v 3 0 then 0 else v &&& 0x3F) (decide (11 < fld v 3 0)) s := by
  unfold dstWrite
  by_cases h : 11 < fld v 3 0
  · simp only [h, if_true, decide_true, cfgStored]
  · simp only [h, if_false, decide_false, cfgStored, Bool.false_eq_true]

theorem pack_halves (v : U32) : pack [(0, fld v 15 0), (16, fld v 31 16)] = v := by
  apply BitVec.eq_of_toNat_eq
  simp only [pack, u32, fld, List.foldl_cons, List.foldl_nil, BitVec.toNat_ofNat, Nat.shiftRight_eq_div_pow]
  have := v.isLt
  omega

theorem capWrite_eq (v : U32) (s : State) :
    capWrite v s = { wr s rLPE_CAP_CTL (v &&& 0x27F) with
      lpe := { s.lpe with cap := if bit v 8 then { armed := true } else s.lpe.cap } } := by
  unfold capWrite
  dsimp only
  split <;> rfl

/-! ### The obligation -/

/-- Settles O58: the events of the engines are each one change of state that Snare then records, and the writes store what they keep. -/
theorem loopEnginesPublishTheirReferences : Obligations.LoopEnginesPublishTheirReferences := by
  unfold Obligations.LoopEnginesPublishTheirReferences
  refine ⟨fun s a h => armRef_unnamed h, fun s corr h => ?idle, fun s corr m hm hb => ?done, fun s e h => ?inTime, fun s e m hm hb hl => ?miss,
    fun s l c => ?ecc, fun s bus l v h => ?src, fun s bus l v h => ?spsrc, fun s bus l v h => ?dst, fun s bus v h => ?cap⟩
  case idle =>
    exact ⟨_, congrArg (fun u => Host.Outcome.next (snareEval u)) (enginesDone_idle corr h), snareEval_only s .lpe rfl,
      snareEval_only s .tick rfl⟩
  case done =>
    obtain ⟨hle, hat⟩ := lastCycles_spec corr
    have hrec := recorded_loopEvent true (intEdge (setsPublished corr m s) 99)
    refine ⟨_, congrArg (fun u => Host.Outcome.next (snareEval u)) (enginesDone_busy corr hm hb), ?_⟩
    generalize snareEval _ = t at hrec ⊢
    obtain ⟨htick, hlpe, hecc, hcnt⟩ := published_leaves hrec
    refine ⟨⟨_, hle, hat, htick⟩, congrArg Lpe.busy hlpe, congrArg Lpe.refsM hlpe, fun a ha => ?_, fun e he => ?_, ?_, hecc, hcnt⟩
    · exact hlpe ▸ tget_foldl_range 0 (armRef s) ha
    · exact hlpe ▸ tget_foldl_range 0 (engStatOf corr s) he
    · rw [hlpe]; rfl
  case inTime =>
    exact ⟨_, congrArg (fun u => Host.Outcome.next (snareEval u)) (deadlineMiss_idle h), snareEval_only s .lpe rfl,
      snareEval_only s .tick rfl⟩
  case miss =>
    have hrec := recorded_loopEvent false (engineLate e m s)
    refine ⟨_, congrArg (fun u => Host.Outcome.next (snareEval u)) (deadlineMiss_late hm hb hl), ?_⟩
    generalize snareEval _ = t at hrec ⊢
    have hlpe := (hrec.only .lpe rfl).trans (engineLate_lpe e m s)
    obtain ⟨hsample, hbusy, hrefs, hrefsM⟩ := lpeLate_keeps e s
    have hstat := engStat_late e s
    rw [← hlpe] at hsample hbusy hrefs hrefsM hstat
    obtain ⟨hyield, hlate, hevt⟩ := rg_engineLate e m s
    exact ⟨(hrec.only .tick rfl).trans (engineLate_tick e m s), hsample.trans hm, hbusy.trans hb, hrefs, hrefsM, loop_late hlpe,
      fun j hj => hlpe ▸ lateEng_late e s hj, fun a ha => hlpe ▸ lateArms_late e s ha, (hrec.regs _ (by decide)).trans hyield,
      (hrec.regs _ (by decide)).trans hlate, (congrArg (bit · 0) (hrec.regs _ (by decide))).trans hevt, hstat,
      engineLate_inbox e m s ▸ hrec.inbox⟩
  case ecc =>
    have hrec := recorded_loopEvent false (loopStopped l c s)
    refine ⟨_, congrArg (fun u => Host.Outcome.next (snareEval u)) (loopEcc_eq l c s), ?_⟩
    generalize snareEval _ = t at hrec ⊢
    obtain ⟨hflt, hlpe⟩ := loopHit_frame l c s
    have hloop (j : Nat) := loop_congr (congrArg Lpe.loops ((hrec.only .lpe rfl).trans hlpe)) j
    refine ⟨(hloop l).trans (setLoop_same _ _ _), fun j hj => (hloop j).trans (setLoop_ne _ _ _ _ hj),
      (congrArg (bit · 5) (hrec.regs _ (by decide))).trans (loopStopped_evt l c s), fun hc => ⟨?_, ?_⟩, fun k j hk hj hn => ?_, ?_⟩
    · exact (rg_coef_stopped hrec l.isLt hc).trans (loopHit_coef hc s).1
    · exact (hrec.only .freeCtr rfl).trans (loopHit_coef hc s).2
    · exact (rg_coef_stopped hrec hk hj).trans (rg_loopHit_ne (by simp only [rLPE_LOOP_COEF]; omega) s)
    · rw [← hflt]
      exact hrec.inbox
  case src =>
    have ho : rLPE_LOOP_SRC l ≠ rLPE_EVT := by simp only [rLPE_LOOP_SRC, rLPE_EVT]; omega
    refine ⟨_, (guardWrite_ok h).trans (congrArg _ (srcWrite_two _ v s)), rg_cfgStored_same _ _ _ ho, fun hb => ?_, fun hlo hhi => ?_,
      fun o h1 h2 => rg_cfgStored_ne _ _ _ h1 h2⟩
    · rw [show (!srcCodeOk (fld v 15 0) || !srcCodeOk (fld v 31 16)) = true by simpa using hb]
      exact cfgStored_bad _ _
    · rw [keptCode, keptCode, hlo, hhi, if_pos rfl, if_pos rfl, pack_halves]
      exact ⟨rg_cfgStored_same _ _ _ ho, cfgStored_good _ _ ho⟩
  case spsrc =>
    have ho : rLPE_LOOP_SPSRC l ≠ rLPE_EVT := by simp only [rLPE_LOOP_SPSRC, rLPE_EVT]; omega
    refine ⟨_, (guardWrite_ok h).trans (congrArg _ (srcWrite_one _ v s)), fun hc => ?_, fun hc => ?_, fun o h1 h2 => rg_cfgStored_ne _ _ _ h1 h2⟩
    · rw [keptCode, hc, if_pos rfl]
      exact ⟨rg_cfgStored_same _ _ _ ho, cfgStored_good _ _ ho⟩
    · rw [keptCode, hc, if_neg Bool.false_ne_true]
      exact ⟨rg_cfgStored_same _ _ _ ho, cfgStored_bad _ _⟩
  case dst =>
    have ho : rLPE_LOOP_DST l ≠ rLPE_EVT := by simp only [rLPE_LOOP_DST, rLPE_EVT]; omega
    refine ⟨_, (guardWrite_ok h).trans (congrArg _ (dstWrite_eq _ v s)), fun ha => ?_, fun ha => ?_, fun o h1 h2 => rg_cfgStored_ne _ _ _ h1 h2⟩
    · rw [if_neg (Nat.not_lt.2 ha), decide_eq_false (Nat.not_lt.2 ha)]
      exact ⟨rg_cfgStored_same _ _ _ ho, cfgStored_good _ _ ho⟩
    · rw [if_pos ha, decide_eq_true ha]
      exact ⟨rg_cfgStored_same _ _ _ ho, cfgStored_bad _ _⟩
  case cap =>
    refine ⟨_, (guardWrite_ok h).trans (congrArg _ (capWrite_eq v s)), ?_⟩
    exact ⟨(rg_lpe _ _ _).trans (rg_wr_same _ _ _), fun o ho => (rg_lpe _ _ _).trans (rg_wr_ne _ _ _ _ ho), rfl, rfl⟩

end Sys2Proof.Machine
end

section
/-! PROOFS. The analog front end: conversions, sequencers and channels (O57). -/

namespace Sys2Proof.Machine

/-! ### Registers of the analog front end and of protection -/

theorem not_sideReg_of_block {o : Nat} (h : 0xA00000 ≤ o ∧ o < 0xE00000) : o ∉ sideRegs := by
  simp only [sideRegs, List.mem_cons, List.not_mem_nil, or_false, rSNR_EVT, rSNR_MISSED, rSNR_DROP, rSYS_YIELD_CNT, rINT_EVT, rFLT_EVT,
    rGRN_EVT, rGRN_JNL_DROP, rFLT_BKT_RETIRED]
  omega


/-- Every bit of register `o` that stands in `s` stands in `t`. -/
def BitsStand (o : Nat) (s t : State) : Prop := ∀ i, bit (rg s o) i = true → bit (rg t o) i = true

namespace BitsStand

variable {o : Nat} {s t u : State}

theorem of_rg (h : rg t o = rg s o) : BitsStand o s t := fun _ hi => h ▸ hi

theorem refl (s : State) : BitsStand o s s := of_rg rfl

theorem trans (h : BitsStand o s t) (g : BitsStand o t u) : BitsStand o s u := fun i hi => g i (h i hi)

theorem ite {c : Prop} [Decidable c] (ht : BitsStand o s t) (hu : BitsStand o s u) : BitsStand o s (if c then t else u) := by
  split
  · exact ht
  · exact hu

theorem foldl {α : Type} {f : State → α → State} (hf : ∀ u a, BitsStand o u (f u a)) (l : List α) (s : State) : BitsStand o s (l.foldl f s) := by
  induction l generalizing s with
  | nil => exact refl s
  | cons a l ih => exact (hf s a).trans (ih _)

theorem setEvt (s : State) (off : Nat) (m : U32) : BitsStand o s (setEvt s off m) := by
  intro i hi
  by_cases ho : o = off
  · rw [ho] at hi ⊢
    rw [rg_setEvt_same]
    exact bit_or_left _ _ hi
  · rwa [Machine.setEvt, rg_wr_ne _ _ _ _ ho]

end BitsStand

/-! ### The code of an input (R333) -/

/-- The code before it is clamped: rounded to nearest, half away from zero. -/
def roundedCode (x : Int) : Int := if 0 ≤ x then (x + 128) / 256 else -((128 - x) / 256)

theorem afeCode_eq (x : Int) : afeCode x =
    (clampI (-32768) 32767 (roundedCode x), decide (32767 * 256 + 128 < x) || decide (x < -32768 * 256 - 128)) := by
  unfold afeCode roundedCode
  split
  · rw [Int.tdiv_eq_ediv_of_nonneg (by omega)]
  · rw [Int.tdiv_eq_ediv_of_nonneg (by omega)]

theorem roundedCode_nearest (x : Int) : 256 * roundedCode x - 128 ≤ x ∧ x ≤ 256 * roundedCode x + 128 := by
  unfold roundedCode
  split
  · omega
  · omega

theorem clampI_mem {lo hi : Int} (h : lo ≤ hi) (x : Int) : lo ≤ clampI lo hi x ∧ clampI lo hi x ≤ hi := by
  unfold clampI
  split
  · omega
  · split
    · omega
    · omega

theorem afeCode_mem (x : Int) : -32768 ≤ (afeCode x).1 ∧ (afeCode x).1 ≤ 32767 := by
  rw [afeCode_eq]
  exact clampI_mem (by decide) _

theorem afeCode_nearest {x : Int} (hlo : -32768 * 256 - 128 ≤ x) (hhi : x < 32767 * 256 + 128) :
    256 * (afeCode x).1 - 128 ≤ x ∧ x ≤ 256 * (afeCode x).1 + 128 := by
  have hr := roundedCode_nearest x
  rw [afeCode_eq, clampI]
  split
  · omega
  · split
    · omega
    · exact hr

theorem afeCode_overranges (x : Int) : (afeCode x).2 = true ↔ 32767 * 256 + 128 < x ∨ x < -32768 * 256 - 128 := by
  simp only [afeCode_eq, Bool.or_eq_true, decide_eq_true_eq]

/-! ### The channel of a conversion (R343 to R347, R350, R351) -/

section
variable {s t : State} (h : t.regs = s.regs)
include h

theorem convChan_congr (c : Nat) (code : Int) (overr tainted discard : Bool) (v : Chan) :
    convChan t c code overr tainted discard v = convChan s c code overr tainted discard v := by
  unfold convChan sincN sincD accMode mmFilt chanCal
  rw [funext (rg_congr h)]

theorem seqNext_congr (q : Nat) (v : Seq) : seqNext t q v = seqNext s q v := by
  unfold seqNext tTab passEntries passStart entLast entWord
  rw [funext (rg_congr h)]

end

/-- The channel with the flags of a conversion. -/
def flaggedChan (overr tainted : Bool) (y : Chan) : Chan :=
  { y with ovr := y.ovr || overr, taint := y.taint || tainted, excl := y.excl + b2n tainted }

/-- The filter's inputs after a conversion, newest first: a tainted one repeats the last. -/
def nextHist (s : State) (c : Nat) (code : Int) (tainted : Bool) (y : Chan) : List Int :=
  ((if tainted then y.hist.headD 0 else code) :: y.hist).take (sincN s c * (sincD s c - 1) + 1)

/-- The sliding output after a conversion. -/
def nextOut (s : State) (c : Nat) (code : Int) (tainted : Bool) (y : Chan) : Int :=
  sliding (sincN s c) (sincD s c) (nextHist s c code tainted y)

/-- A conversion completes a decimated output. -/
abbrev Decimates (s : State) (c : Nat) (y : Chan) : Prop := (y.n + 1) % sincD s c = 0

/-- The filter has settled with a conversion. -/
abbrev Settles (s : State) (c : Nat) (y : Chan) : Prop := sincN s c * sincD s c ≤ y.n + 1

/-- The decimated output that a conversion completes, 0 until the filter has settled. -/
def nextDec (s : State) (c : Nat) (code : Int) (tainted : Bool) (y : Chan) : Option U32 :=
  if decide (Decimates s c y) then
    some (if decide (Settles s c y) then chanCal s c (nextOut s c code tainted y) (sincD s c ^ sincN s c) else 0)
  else none

/-- The channel whose filter has taken a conversion. -/
def filteredChan (s : State) (c : Nat) (code : Int) (overr tainted : Bool) (y : Chan) : Chan :=
  { flaggedChan overr tainted y with
    n := y.n + 1, hist := nextHist s c code tainted y, dec := (nextDec s c code tainted y).getD y.dec }

/-- The accumulator of channel `v` takes a conversion, by ACC_MODE: the plain code, each decimated output, or the last sliding one. -/
def accumulated (mode : Nat) (decim settled : Bool) (code out : Int) (v : Chan) : Chan :=
  match mode with
  | 1 => if decim && settled then { v with sum := v.sum + out, k := v.k + 1 } else v
  | 2 => if settled then { v with last := some out } else v
  | _ => { v with sum := v.sum + code, k := v.k + 1 }

/-- The extremes of channel `v` take in a value. -/
def tracked (value : Option Int) (v : Chan) : Chan :=
  match value with
  | none => v
  | some t => { v with lo := some (min t (v.lo.getD t)), hi := some (max t (v.hi.getD t)) }

theorem tracked_eq (value : Option Int) (v : Chan) : ∃ lo hi, tracked value v = { v with lo := lo, hi := hi } := by
  cases value
  · exact ⟨_, _, rfl⟩
  · exact ⟨_, _, rfl⟩

section
variable (s : State) (c : Nat) (code : Int) (overr tainted : Bool) (y : Chan)

theorem convChan_discarded : (convChan s c code overr tainted true y).1 = flaggedChan overr tainted y := rfl

/-- What a conversion makes of its channel, the extremes apart. -/
def takenChan : Chan :=
  if tainted then filteredChan s c code overr tainted y
  else accumulated (accMode s c) (decide (Decimates s c y)) (decide (Settles s c y)) code (nextOut s c code tainted y)
    (filteredChan s c code overr tainted y)

theorem convChan_taken :
    ∃ lo hi, (convChan s c code overr tainted false y).1 = { takenChan s c code overr tainted y with lo := lo, hi := hi } := by
  cases tainted
  · exact tracked_eq (if mmFilt s c then (if decide (Settles s c y) then some (nextOut s c code false y) else none) else some code)
      (takenChan s c code overr false y)
  · exact ⟨_, _, rfl⟩

theorem filteredChan_dec : (filteredChan s c code overr tainted y).dec =
    if Decimates s c y then (if Settles s c y then chanCal s c (nextOut s c code tainted y) (sincD s c ^ sincN s c) else 0) else y.dec := by
  simp only [filteredChan, nextDec, decide_eq_true_eq]
  split
  · rfl
  · rfl

end

/-- The accumulator leaves the filter and the flags. -/
theorem accumulated_eq (mode : Nat) (decim settled : Bool) (code out : Int) (v : Chan) :
    ∃ sum k last, accumulated mode decim settled code out v = { v with sum := sum, k := k, last := last } := by
  unfold accumulated
  split
  · split <;> exact ⟨_, _, _, rfl⟩
  · split <;> exact ⟨_, _, _, rfl⟩
  · exact ⟨_, _, _, rfl⟩

/-- What a conversion that is not discarded leaves in its channel. -/
structure ConvLeaves (s : State) (c : Nat) (code : Int) (overr tainted : Bool) (y v : Chan) : Prop where
  n : v.n = y.n + 1
  hist : v.hist = nextHist s c code tainted y
  flags : v.ovr = (y.ovr || overr) ∧ v.taint = (y.taint || tainted) ∧ v.excl = y.excl + b2n tainted
  dec : v.dec =
    if Decimates s c y then (if Settles s c y then chanCal s c (nextOut s c code tainted y) (sincD s c ^ sincN s c) else 0) else y.dec
  kept : tainted = true → v.sum = y.sum ∧ v.k = y.k ∧ v.last = y.last
  codes : tainted = false → accMode s c = 0 → v.sum = y.sum + code ∧ v.k = y.k + 1
  outputs : tainted = false → accMode s c = 1 → Decimates s c y → Settles s c y → v.sum = y.sum + nextOut s c code tainted y ∧ v.k = y.k + 1
  between : tainted = false → accMode s c = 1 → ¬ (Decimates s c y ∧ Settles s c y) → v.sum = y.sum ∧ v.k = y.k
  last : tainted = false → accMode s c = 2 → Settles s c y → v.last = some (nextOut s c code tainted y)

theorem convChan_leaves (s : State) (c : Nat) (code : Int) (overr tainted : Bool) (y : Chan) :
    ConvLeaves s c code overr tainted y (convChan s c code overr tainted false y).1 := by
  obtain ⟨lo, hi, e⟩ := convChan_taken s c code overr tainted y
  have hdec := filteredChan_dec s c code overr tainted y
  rw [e]
  cases tainted with
  | true =>
    have ht : takenChan s c code overr true y = filteredChan s c code overr true y := rfl
    rw [ht]
    exact ⟨rfl, rfl, ⟨rfl, rfl, rfl⟩, hdec, fun _ => ⟨rfl, rfl, rfl⟩, nofun, nofun, nofun, nofun⟩
  | false =>
    have ht : takenChan s c code overr false y = accumulated (accMode s c) (decide (Decimates s c y)) (decide (Settles s c y)) code
      (nextOut s c code false y) (filteredChan s c code overr false y) := rfl
    obtain ⟨sum, k, last, ha⟩ := accumulated_eq (accMode s c) (decide (Decimates s c y)) (decide (Settles s c y)) code
      (nextOut s c code false y) (filteredChan s c code overr false y)
    rw [ht]
    refine ⟨by rw [ha]; rfl, by rw [ha]; rfl, by rw [ha]; exact ⟨rfl, rfl, rfl⟩, by rw [ha]; exact hdec, nofun, fun _ hm => ?_, fun _ hm hd hs => ?_,
      fun _ hm hn => ?_, fun _ hm hs => ?_⟩
    · rw [hm]
      exact ⟨rfl, rfl⟩
    · rw [hm, decide_eq_true hd, decide_eq_true hs]
      exact ⟨rfl, rfl⟩
    · rw [hm, accumulated, if_neg (by simpa using hn)]
      exact ⟨rfl, rfl⟩
    · rw [hm, decide_eq_true hs]
      rfl

/-! ### The sequencer after a conversion (R336, R338, R340, R341) -/

/-- The sequencer with the mode that waited for the end of the entry. -/
def modeTaken (v : Seq) : Seq :=
  match v.newMode with
  | some m => { v with mode := m, newMode := none }
  | none => v

/-- The sequencer stopped. -/
def seqStopped (v : Seq) : Seq := { v with run := false, pend := none, entry := 0, rep := 0 }

/-- The start of a pass that is realigned to a start event at `sx`: the first boundary of passes of `t` slots from there that is not before `next`. -/
def realignedStart (sx next t : Nat) : Nat := sx + (if sx < next then (next - sx + t - 1) / t else 0) * t

theorem realignedStart_spec {sx next t : Nat} (ht : 0 < t) :
    next ≤ realignedStart sx next t ∧ (sx ≤ next → realignedStart sx next t < next + t ∧ ∃ k, realignedStart sx next t = sx + k * t) := by
  unfold realignedStart
  split
  · next h =>
    have hdiv := Nat.div_add_mod (next - sx + t - 1) t
    have hmod := Nat.mod_lt (next - sx + t - 1) ht
    rw [Nat.mul_comm] at hdiv
    generalize (next - sx + t - 1) / t = k at hdiv ⊢
    exact ⟨by omega, fun _ => ⟨by omega, k, rfl⟩⟩
  · exact ⟨by omega, fun _ => ⟨by omega, 0, rfl⟩⟩

section
variable {s : State} {q : Nat} {v : Seq}

theorem seqNext_repeats (h : v.rep < fld (entWord s q v.entry) 7 4) :
    seqNext s q v = ({ v with rep := v.rep + 1, slot := v.slot + 1 }, false, 0) := if_pos h

theorem modeTaken_entry (v : Seq) : (modeTaken v).entry = v.entry := by
  unfold modeTaken
  split <;> rfl

/-- Once the table has ended the mode says what follows: a stop, a realigned pass, or the next pass at slot `next`. -/
def seqWrapped (s : State) (q next : Nat) (z : Seq) : Seq × Bool × Nat :=
  match z.mode, z.pend with
  | 2, _ => (seqStopped z, true, 0)
  | 3, some sx =>
    (passStart s q (realignedStart sx next (max 1 (tTab s q))) { z with pend := none }, true,
      realignedStart sx next (max 1 (tTab s q)) - next)
  | _, _ => (passStart s q next z, true, 0)

/-- What follows an entry that has ended: a stop in OFF, the table's end, or the next entry. -/
def seqEnded (s : State) (q next : Nat) (z : Seq) : Seq × Bool × Nat :=
  if z.mode = 0 then (seqStopped z, false, 0)
  else if entLast s q z.entry then seqWrapped s q next z
  else ({ z with entry := z.entry + 1, rep := 0, slot := next + fld (entWord s q (z.entry + 1)) 15 8 }, false, 0)

section
variable {next : Nat} {z : Seq}

theorem seqWrapped_single (hm : z.mode = 2) : seqWrapped s q next z = (seqStopped z, true, 0) := by
  cases z
  cases hm
  rfl

theorem seqWrapped_passes (hm : z.mode = 1 ∨ (z.mode = 3 ∧ z.pend = none)) : seqWrapped s q next z = (passStart s q next z, true, 0) := by
  cases z
  rcases hm with hm | ⟨hm, hp⟩
  · cases hm
    rfl
  · cases hm
    cases hp
    rfl

theorem seqWrapped_realigns {sx : Nat} (hm : z.mode = 3) (hp : z.pend = some sx) : seqWrapped s q next z =
    (passStart s q (realignedStart sx next (max 1 (tTab s q))) { z with pend := none }, true,
      realignedStart sx next (max 1 (tTab s q)) - next) := by
  cases z
  cases hm
  cases hp
  rfl

end

/-- Whether the table ends with entry `i` (R336). -/
theorem entLast_iff (s : State) (q i : Nat) : entLast s q i = true ↔ bit (entWord s q i) 31 = true ∨ 63 ≤ i := by
  simp only [entLast, Bool.or_eq_true, decide_eq_true_eq]

section
variable (hr : fld (entWord s q v.entry) 7 4 ≤ v.rep)
include hr

theorem seqNext_ends : seqNext s q v = seqEnded s q (v.slot + 1) (modeTaken v) := if_neg (Nat.not_lt.2 hr)

theorem seqNext_stops (h0 : (modeTaken v).mode = 0) : seqNext s q v = (seqStopped (modeTaken v), false, 0) := by
  rw [seqNext_ends hr, seqEnded, if_pos h0]

theorem seqNext_enters (h0 : (modeTaken v).mode ≠ 0) (hl : entLast s q v.entry = false) : seqNext s q v =
    ({ modeTaken v with entry := v.entry + 1, rep := 0, slot := v.slot + 1 + fld (entWord s q (v.entry + 1)) 15 8 }, false, 0) := by
  rw [seqNext_ends hr, seqEnded, if_neg h0, modeTaken_entry, if_neg (by rw [hl]; exact Bool.false_ne_true)]

theorem seqNext_wraps (h0 : (modeTaken v).mode ≠ 0) (hl : entLast s q v.entry = true) :
    seqNext s q v = seqWrapped s q (v.slot + 1) (modeTaken v) := by
  rw [seqNext_ends hr, seqEnded, if_neg h0, modeTaken_entry, if_pos hl]

theorem seqNext_single (hm : (modeTaken v).mode = 2) (hl : entLast s q v.entry = true) :
    seqNext s q v = (seqStopped (modeTaken v), true, 0) :=
  (seqNext_wraps hr (by omega) hl).trans (seqWrapped_single hm)

theorem seqNext_passes (hm : (modeTaken v).mode = 1 ∨ ((modeTaken v).mode = 3 ∧ (modeTaken v).pend = none)) (hl : entLast s q v.entry = true) :
    seqNext s q v = (passStart s q (v.slot + 1) (modeTaken v), true, 0) :=
  (seqNext_wraps hr (by omega) hl).trans (seqWrapped_passes hm)

theorem seqNext_realigns {sx : Nat} (hm : (modeTaken v).mode = 3) (hp : (modeTaken v).pend = some sx) (hl : entLast s q v.entry = true) :
    seqNext s q v =
      (passStart s q (realignedStart sx (v.slot + 1) (max 1 (tTab s q))) { modeTaken v with pend := none }, true,
        realignedStart sx (v.slot + 1) (max 1 (tTab s q)) - (v.slot + 1)) :=
  (seqNext_wraps hr (by omega) hl).trans (seqWrapped_realigns hm hp)

end
end

/-! ### A conversion (R332, R333, R350) -/

/-- Is the slot of the sequencer's conversion tainted by an overrange before it. -/
def slotTainted (v : Seq) : Bool := match v.taint with | some t => decide (v.slot ≤ t) | none => false

/-- The sequencer with the slots that an overrange taints. -/
def overrangeNoted (overr : Bool) (v : Seq) : Seq := { v with taint := if overr then some (v.slot + 2) else v.taint }

/-- The channel that sequencer `q` converts. -/
def convertedChan (s : State) (q : Nat) : Nat := 8 * q + fld (entWord s q (seq s q).entry) 2 0

/-- What a conversion of sequencer `q` gives its channel. -/
def converted (q : Nat) (x : Int) (s : State) : Chan × Option U32 :=
  convChan s (convertedChan s q) (afeCode x).1 (afeCode x).2 (slotTainted (seq s q)) (bit (entWord s q (seq s q).entry) 16)
    (chan s (convertedChan s q))

/-- What becomes of sequencer `q`. -/
def moved (q : Nat) (x : Int) (s : State) : Seq × Bool × Nat := seqNext s q (overrangeNoted (afeCode x).2 (seq s q))

/-- The state once the channel has its conversion and the sequencer has moved on. -/
def convStored (q : Nat) (x : Int) (s : State) : State :=
  setSeq (setChan (advanceTo s (16 * ((seq s q).slot + 1))) (convertedChan s q) (converted q x s).1) q (moved q x s).1

/-- The slots that a realignment inserts are counted (R340). -/
def gapCounted (q gap : Nat) (s : State) : State :=
  if 0 < gap then setEvt (count s (rAFE_SEQ_GAP q) gap) rAFE_EVT (bitv 2) else s

/-- An overrange of channel `c` is raised (R350). -/
def overrangeRaised (c : Nat) (overr : Bool) (s : State) : State :=
  if overr then report (setEvt (setEvt s rAFE_EVT (bitv 0)) rAFE_OVR (bitv c)) (srcBlk 10 (8 + c)) 0x0280 else s

/-- An uncorrectable error of AFE memory is raised. -/
def memoryErrorRaised (q : Nat) (ecc : Bool) (s : State) : State :=
  if ecc then report (setEvt s rAFE_EVT (bitv 5)) (srcBlk 10 q) 0x0281 else s

/-- What a conversion signals: the slots inserted, an overrange, a memory error, and the wrap of the table. -/
def convSignals (q c gap : Nat) (overr ecc wrapped : Bool) (s : State) : State :=
  let s := memoryErrorRaised q ecc (overrangeRaised c overr (gapCounted q gap s))
  if wrapped then intEdge s (200 + q) else s

theorem conversion_idle {q : Nat} {s : State} (h : (seq s q).run = false) (x : Int) (ecc : Bool) : conversion q x ecc s = (s, none) :=
  if_pos (by rw [h]; rfl)

theorem conversion_runs {q : Nat} {s : State} (h : (seq s q).run = true) (x : Int) (ecc : Bool) : conversion q x ecc s =
    (convSignals q (convertedChan s q) (moved q x s).2.2 (afeCode x).2 ecc (moved q x s).2.1 (convStored q x s),
     (converted q x s).2.map (fun d => (convertedChan s q, d))) := by
  have hover (b : Bool) (v : Seq) : (if b then { v with taint := some (v.slot + 2) } else v) = overrangeNoted b v := by
    cases b <;> rfl
  have honly := advanceTo_only s (16 * ((seq s q).slot + 1))
  unfold conversion convSignals convStored moved converted convertedChan slotTainted
  rw [if_neg (by rw [h]; exact Bool.false_ne_true)]
  generalize afeCode x = p
  obtain ⟨code, overr⟩ := p
  dsimp only
  generalize advanceTo s _ = u at honly ⊢
  have hregs : u.regs = s.regs := honly .regs rfl
  have hchan (c : Nat) : chan u c = chan s c := by rw [chan, chan, honly .afe rfl]
  have hnext (c : Nat) (v : Chan) (z : Seq) : seqNext (setChan u c v) q z = seqNext s q z := seqNext_congr hregs q z
  simp only [hover, convChan_congr hregs, hchan, hnext]
  rfl

theorem advanceTo_afe (s : State) (t : Nat) : (advanceTo s t).afe = s.afe := advanceTo_only s t .afe rfl

theorem convStored_tick (q : Nat) (x : Int) (s : State) : (convStored q x s).tick = u64 (max (now s) (16 * ((seq s q).slot + 1))) := by
  rw [convStored, setSeq_tick, setChan_tick, advanceTo_tick_max]

theorem rg_convStored (q : Nat) (x : Int) (s : State) (o : Nat) : rg (convStored q x s) o = rg s o := by
  rw [convStored, rg_congr (setSeq_regs _ _ _), rg_congr (setChan_regs _ _ _), rg_advanceTo]

theorem convStored_afe (q : Nat) (x : Int) (s : State) : (convStored q x s).afe =
    { s.afe with chans := tset {} s.afe.chans (convertedChan s q) (converted q x s).1, seqs := tset {} s.afe.seqs q (moved q x s).1 } := by
  have h := advanceTo_afe s (16 * ((seq s q).slot + 1))
  rw [convStored, setSeq, setChan]
  generalize advanceTo s _ = u at h ⊢
  rw [← h]

/-! ### What a conversion signals (R333, R340, R350) -/

theorem convSignals_only (q c gap : Nat) (overr ecc wrapped : Bool) (s : State) :
    ChangesOnly [.regs, .flt, .ints, .cores] s (convSignals q c gap overr ecc wrapped s) := by
  have hgap : ChangesOnly [.regs, .flt, .ints, .cores] s (gapCounted q gap s) :=
    (Keeps.ite (setEvt_keeps (count_keeps (Keeps.refl _ s) rfl) rfl) (Keeps.refl _ s)).only
  have hover (u : State) : ChangesOnly [.regs, .flt, .ints, .cores] u (overrangeRaised c overr u) :=
    (Keeps.ite (report_keeps (setEvt_keeps (setEvt_keeps (Keeps.refl _ u) rfl) rfl) rfl) (Keeps.refl _ u)).only
  have hecc (u : State) : ChangesOnly [.regs, .flt, .ints, .cores] u (memoryErrorRaised q ecc u) :=
    (Keeps.ite (report_keeps (setEvt_keeps (Keeps.refl _ u) rfl) rfl) (Keeps.refl _ u)).only
  have hwrap (u : State) : ChangesOnly [.regs, .flt, .ints, .cores] u (if wrapped then intEdge u (200 + q) else u) :=
    (Keeps.ite (intEdge_keeps (Keeps.refl _ u) rfl) (Keeps.refl _ u)).only
  exact ((hgap.trans (hover _)).trans (hecc _)).trans (hwrap _)

section
variable (q c gap : Nat) (overr ecc wrapped : Bool) (s : State)

theorem rg_overrangeRaised_ne {o : Nat} (he : o ≠ rAFE_EVT) (ho : o ≠ rAFE_OVR) : rg (overrangeRaised c overr s) o = rg s o := by
  unfold overrangeRaised
  split
  · exact (rg_wr_ne _ _ _ _ ho).trans (rg_wr_ne _ _ _ _ he)
  · rfl

theorem rg_memoryErrorRaised_ne {o : Nat} (he : o ≠ rAFE_EVT) : rg (memoryErrorRaised q ecc s) o = rg s o := by
  unfold memoryErrorRaised
  split
  · exact rg_wr_ne _ _ _ _ he
  · rfl

theorem rg_wrapRaised {o : Nat} (ho : o ∉ sideRegs) : rg (if wrapped then intEdge s (200 + q) else s) o = rg s o := by
  split
  · exact rg_intEdge ho s _
  · rfl

theorem rg_convSignals_gap {gap : Nat} (hq : q < 4) (hg : 0 < gap) :
    rg (convSignals q c gap overr ecc wrapped s) (rAFE_SEQ_GAP q) = satInc (rg s (rAFE_SEQ_GAP q)) gap := by
  have he : rAFE_SEQ_GAP q ≠ rAFE_EVT := by simp only [rAFE_SEQ_GAP, rAFE_EVT]; omega
  have ho : rAFE_SEQ_GAP q ≠ rAFE_OVR := by simp only [rAFE_SEQ_GAP, rAFE_OVR]; omega
  rw [convSignals, rg_wrapRaised _ _ _ (not_sideReg_of_block (by simp only [rAFE_SEQ_GAP]; omega)), rg_memoryErrorRaised_ne _ _ _ he,
    rg_overrangeRaised_ne _ _ _ he ho, gapCounted, if_pos hg, setEvt, rg_wr_ne _ _ _ _ he, rg_count_same]

theorem convSignals_overr {overr : Bool} (h : overr = true) (hc : c < 32) :
    bit (rg (convSignals q c gap overr ecc wrapped s) rAFE_EVT) 0 = true ∧ bit (rg (convSignals q c gap overr ecc wrapped s) rAFE_OVR) c = true := by
  cases h
  have hstand {o : Nat} (ho : o ∉ sideRegs) :
      BitsStand o (overrangeRaised c true (gapCounted q gap s)) (convSignals q c gap true ecc wrapped s) :=
    (BitsStand.ite (BitsStand.setEvt _ rAFE_EVT (bitv 5)) (BitsStand.refl _) :
      BitsStand o (overrangeRaised c true (gapCounted q gap s)) (memoryErrorRaised q ecc (overrangeRaised c true (gapCounted q gap s)))).trans
      (.of_rg (rg_wrapRaised _ _ _ ho))
  refine ⟨hstand (by decide) 0 ?_, hstand (by decide) c ?_⟩
  · refine BitsStand.setEvt (setEvt (gapCounted q gap s) rAFE_EVT (bitv 0)) rAFE_OVR (bitv c) 0 ?_
    rw [rg_setEvt_same]
    exact bit_or_bitv _ (by decide)
  · rw [overrangeRaised, if_pos rfl, rg_report, rg_setEvt_same]
    exact bit_or_bitv _ hc

theorem convSignals_ecc {ecc : Bool} (h : ecc = true) : bit (rg (convSignals q c gap overr ecc wrapped s) rAFE_EVT) 5 = true := by
  cases h
  rw [convSignals, rg_wrapRaised _ _ _ (by decide), memoryErrorRaised, if_pos rfl, rg_report, rg_setEvt_same]
  exact bit_or_bitv _ (by decide)

end

/-- Snare takes the decimated output that a conversion completes. -/
theorem recorded_afeConversion (q : Nat) (x : Int) (ecc : Bool) (s : State) :
    Recorded (conversion q x ecc s).1 (afeConversion q x ecc s) := by
  unfold afeConversion
  dsimp only
  split
  · exact (recorded_snareSig ..).trans (recorded_snareEval _)
  · exact recorded_snareEval _

theorem exec_afeConversion (q : Fin 4) (x : BitVec 32) (ecc : Bool) (s : State) :
    exec (.afeConversion q x ecc) s = .next (afeConversion q x.toInt ecc s) := rfl

theorem chan_congr {s t : State} (h : t.afe.chans = s.afe.chans) (c : Nat) : chan t c = chan s c := by rw [chan, chan, h]

theorem seq_congr {s t : State} (h : t.afe.seqs = s.afe.seqs) (q : Nat) : seq t q = seq s q := by rw [seq, seq, h]

/-- What a conversion of a running sequencer leaves: time at the end of its slot, its channel, its sequencer, and what it signals. -/
structure Converted (q : Nat) (x : Int) (ecc : Bool) (s t : State) : Prop where
  tick : t.tick = u64 (max (now s) (16 * ((seq s q).slot + 1)))
  chan : chan t (convertedChan s q) = (converted q x s).1
  chans : ∀ c, c ≠ convertedChan s q → Machine.chan t c = Machine.chan s c
  seq : seq t q = (moved q x s).1
  seqs : ∀ j, j ≠ q → Machine.seq t j = Machine.seq s j
  gap : 0 < (moved q x s).2.2 → rg t (rAFE_SEQ_GAP q) = satInc (rg s (rAFE_SEQ_GAP q)) (moved q x s).2.2
  overr : (afeCode x).2 = true → bit (rg t rAFE_EVT) 0 = true ∧ bit (rg t rAFE_OVR) (convertedChan s q) = true
  ecc : ecc = true → bit (rg t rAFE_EVT) 5 = true

theorem converted_discarded {q : Nat} {x : Int} {s : State} (h : bit (entWord s q (seq s q).entry) 16 = true) :
    (converted q x s).1 = flaggedChan (afeCode x).2 (slotTainted (seq s q)) (chan s (convertedChan s q)) := by
  rw [converted, h, convChan_discarded]

theorem converted_taken {q : Nat} {x : Int} {s : State} (h : bit (entWord s q (seq s q).entry) 16 = false) :
    ConvLeaves s (convertedChan s q) (afeCode x).1 (afeCode x).2 (slotTainted (seq s q)) (chan s (convertedChan s q)) (converted q x s).1 := by
  rw [converted, h]
  exact convChan_leaves ..

theorem convertedChan_lt {q : Nat} (hq : q < 4) (s : State) : convertedChan s q < 32 := by
  have h : fld (entWord s q (seq s q).entry) 2 0 < 8 := Nat.mod_lt _ (by decide)
  rw [convertedChan]
  omega

theorem afeConversion_converted {q : Nat} {s : State} (hq : q < 4) (h : (seq s q).run = true) (x : Int) (ecc : Bool) :
    Converted q x ecc s (afeConversion q x ecc s) := by
  have hrec := recorded_afeConversion q x ecc s
  have honly := convSignals_only q (convertedChan s q) (moved q x s).2.2 (afeCode x).2 ecc (moved q x s).2.1 (convStored q x s)
  rw [conversion_runs h] at hrec
  have hafe := ((hrec.only .afe rfl).trans (honly .afe rfl)).trans (convStored_afe q x s)
  have hchans (c : Nat) := congrArg (fun a => tget {} a.chans c) hafe
  have hseqs (j : Nat) := congrArg (fun a => tget {} a.seqs j) hafe
  refine ⟨((hrec.only .tick rfl).trans (honly .tick rfl)).trans (convStored_tick q x s), (hchans _).trans (tget_tset_same ..),
    fun c hc => (hchans c).trans (tget_tset_ne hc), (hseqs _).trans (tget_tset_same ..), fun j hj => (hseqs j).trans (tget_tset_ne hj),
    fun hg => ?_, fun ho => ?_, fun he => ?_⟩
  · rw [hrec.regs _ (not_sideReg_of_block (by simp only [rAFE_SEQ_GAP]; omega)), rg_convSignals_gap _ _ _ _ _ _ hq hg, rg_convStored]
  · rw [hrec.regs rAFE_EVT (by decide), hrec.regs rAFE_OVR (by decide)]
    exact convSignals_overr _ _ _ _ _ _ ho (convertedChan_lt hq s)
  · rw [hrec.regs rAFE_EVT (by decide)]
    exact convSignals_ecc _ _ _ _ _ _ he

/-! ### Start events (R337 to R340) -/

/-- What a start event of sequencer `q` reads stays. -/
structure SeqKept (q : Nat) (s t : State) : Prop where
  seq : seq t q = seq s q
  cfg : rg t (rAFE_SEQ_CFG q) = rg s (rAFE_SEQ_CFG q)
  ent : rg t (rAFE_SEQ_ENT q 0) = rg s (rAFE_SEQ_ENT q 0)
  tick : t.tick = s.tick

theorem SeqKept.refl {q : Nat} (s : State) : SeqKept q s s := ⟨rfl, rfl, rfl, rfl⟩

theorem SeqKept.trans {q : Nat} {s t u : State} (h : SeqKept q s t) (g : SeqKept q t u) : SeqKept q s u :=
  ⟨g.seq.trans h.seq, g.cfg.trans h.cfg, g.ent.trans h.ent, g.tick.trans h.tick⟩

/-- Sequencer `q` once a start event has come: started where it stands, or to be realigned, or as it was. -/
def seqAfterStart (s : State) (q : Nat) : Seq :=
  let v := seq s q
  let sx := (now s + 15) / 16
  if v.mode = 0 then v
  else if v.run = false then passStart s q sx v
  else if v.mode = 3 ∧ v.pend = none then { v with pend := some sx }
  else v

theorem seqAfterStart_congr {q : Nat} {s t : State} (h : SeqKept q s t) : seqAfterStart t q = seqAfterStart s q := by
  simp only [seqAfterStart, passStart, entWord, now, h.seq, h.ent, h.tick]

theorem seq_startEvent (s : State) (q : Nat) : seq (startEvent q s) q = seqAfterStart s q := by
  unfold startEvent seqAfterStart
  dsimp only
  cases hr : (seq s q).run with
  | false =>
    simp only [Bool.not_false, if_true]
    split
    · rfl
    · exact setSeq_same ..
  | true =>
    simp only [Bool.not_true, Bool.false_eq_true, Bool.true_eq_false, if_false, Bool.and_eq_true, beq_iff_eq, Option.isNone_iff_eq_none,
      decide_eq_true_eq]
    split
    · rfl
    · split
      · exact setSeq_same ..
      · rfl

/-- A start event changes its sequencer, or is counted as ignored. -/
theorem startEvent_cases (q : Nat) (s : State) :
    startEvent q s = s ∨ (∃ v, startEvent q s = setSeq s q v) ∨ startEvent q s = startIgnored q s := by
  unfold startEvent
  dsimp only
  split
  · exact .inl rfl
  · split
    · exact .inr (.inl ⟨_, rfl⟩)
    · split
      · exact .inr (.inl ⟨_, rfl⟩)
      · exact .inr (.inr rfl)

theorem rg_startEvent {o q : Nat} (he : o ≠ rAFE_EVT) (hi : o ≠ rAFE_SEQ_IGN q) (s : State) : rg (startEvent q s) o = rg s o := by
  rcases startEvent_cases q s with h | ⟨v, h⟩ | h
  · rw [h]
  · rw [h, rg_congr (setSeq_regs _ _ _)]
  · rw [h, startIgnored, setEvt, rg_wr_ne _ _ _ _ he, count, rg_wr_ne _ _ _ _ hi]

theorem startEvent_only (q : Nat) (s : State) : ChangesOnly [.regs, .afe] s (startEvent q s) := (startEvent_keeps (Keeps.refl _ s) rfl).only

theorem startEvent_other {b q : Nat} (hne : b ≠ q) (s : State) : SeqKept q s (startEvent b s) := by
  refine ⟨?_, rg_startEvent (by simp only [rAFE_SEQ_CFG, rAFE_EVT]; omega) (by simp only [rAFE_SEQ_CFG, rAFE_SEQ_IGN]; omega) s,
    rg_startEvent (by simp only [rAFE_SEQ_ENT, rAFE_EVT]; omega) (by simp only [rAFE_SEQ_ENT, rAFE_SEQ_IGN]; omega) s,
    startEvent_only b s .tick rfl⟩
  rcases startEvent_cases b s with h | ⟨v, h⟩ | h
  · rw [h]
  · rw [h, setSeq_ne _ _ _ _ hne.symm]
  · rw [h]
    rfl

/-- A pass of start events of the sequencers that `p` picks by their configuration: each is started once where it is picked. -/
theorem seq_startPass {p : State → Nat → Bool} (hp : ∀ {s t q}, SeqKept q s t → p t q = p s q) {q : Nat} (hq : q < 4) (s : State) :
    seq ((List.range 4).foldl (fun s q => if p s q then startEvent q s else s) s) q = if p s q then seqAfterStart s q else seq s q := by
  have hstep (s : State) (b : Nat) (hb : b ≠ q) : SeqKept q s (if p s b then startEvent b s else s) := by
    split
    · exact startEvent_other hb s
    · exact SeqKept.refl s
  obtain ⟨u, hu, ht⟩ := foldl_at (K := SeqKept q) SeqKept.refl SeqKept.trans hstep List.nodup_range (List.mem_range.2 hq) s
  rw [ht.seq, hp hu]
  split
  · rw [seq_startEvent, seqAfterStart_congr hu]
  · exact hu.seq

theorem startSrc_congr {q : Nat} {s t : State} (h : SeqKept q s t) : startSrc t q = startSrc s q := by
  rw [startSrc, startSrc, h.cfg]

theorem seqGo_shut {s : State} (h : windowOpen s = false) (v : U32) : seqGo v s = s := if_pos (by rw [h]; rfl)

theorem seq_seqGo {s : State} (h : windowOpen s = true) (v : U32) {q : Nat} (hq : q < 4) :
    seq (seqGo v s) q = if bit v q && startSrc s q == 0 then seqAfterStart s q else seq s q := by
  rw [seqGo, if_neg (by rw [h]; exact Bool.false_ne_true)]
  exact seq_startPass (p := fun s q => bit v q && startSrc s q == 0) (fun hk => by rw [startSrc_congr hk]) hq s

/-! ### Configuration writes (R341, R344) -/

/-- A channel whose filter starts from zero state. -/
def filterReset (x : Chan) : Chan := { x with n := 0, hist := [], dec := 0 }

/-- The filters of the bank of sequencer `q` start from zero state. -/
def bankReset (q : Nat) (s : State) : State :=
  { s with afe := { s.afe with chans := (List.range 8).foldl (fun t i => tmod {} t (8 * q + i) filterReset) s.afe.chans } }

theorem chan_bankReset (q : Nat) (s : State) (c : Nat) : chan (bankReset q s) c = if c / 8 = q then filterReset (chan s c) else chan s c := by
  unfold bankReset chan
  rw [tget_foldl_tmod]
  exact if_congr (by omega) rfl rfl

theorem bankReset_eq (q : Nat) (s : State) : bankReset q s = { s with afe := { s.afe with
    chans := tmodAll {} s.afe.chans ((List.range 8).map (· + 8 * q)) (fun _ x => { x with n := 0, hist := [], dec := 0 }) } } := by
  simp only [bankReset, tmodAll, List.foldl_map, Nat.add_comm]
  rfl

/-- A write of MODE `m` starts the filters of the bank: the sequencer stands and leaves OFF. -/
abbrev LeavesOff (s : State) (q m : Nat) : Prop := (seq s q).run = false ∧ (seq s q).mode = 0 ∧ m ≠ 0

/-- Sequencer `q` once MODE `m` is written: the mode waits while an entry is in progress. -/
def modeWritten (m : Nat) (v : Seq) : Seq :=
  if v.run then { v with newMode := some m, tabOn := true } else { v with mode := m, newMode := none, tabOn := true }

/-- `u` with the filters of the bank started where a write of MODE `m` at `s` leaves OFF. -/
def bankStarted (q m : Nat) (s u : State) : State := if LeavesOff s q m then bankReset q u else u

theorem bankStarted_regs (q m : Nat) (s u : State) : (bankStarted q m s u).regs = u.regs := by
  unfold bankStarted bankReset
  split
  · rfl
  · rfl

theorem bankStarted_seqs (q m : Nat) (s u : State) : (bankStarted q m s u).afe.seqs = u.afe.seqs := by
  unfold bankStarted bankReset
  split
  · rfl
  · rfl

theorem chan_bankStarted (q m : Nat) (s u : State) (c : Nat) :
    chan (bankStarted q m s u) c = if LeavesOff s q m ∧ c / 8 = q then filterReset (chan u c) else chan u c := by
  unfold bankStarted
  split
  · next h => rw [chan_bankReset, if_congr (and_iff_right h) rfl rfl]
  · next h => rw [if_neg fun hc => h hc.1]

theorem seqModeWrite_eq (q : Nat) (w : U32) (s : State) : seqModeWrite q w s =
    setSeq (bankStarted q (fld w 1 0) s (plainWrite (rAFE_SEQ_CFG q) w s)) q (modeWritten (fld w 1 0) (seq s q)) := by
  unfold seqModeWrite modeWritten bankStarted
  dsimp only
  by_cases hr : (seq s q).run = true
  · rw [if_pos hr, if_pos hr, if_neg (by simp [hr])]
  · rw [if_neg hr, if_neg hr, bankReset_eq]
    simp only [LeavesOff, Bool.eq_false_iff.2 hr, true_and]

theorem plainWrite_afe (off : Nat) (w : U32) (s : State) : (plainWrite off w s).afe = s.afe := rfl

theorem rg_plainWrite_same (off : Nat) (w : U32) (s : State) : rg (plainWrite off w s) off = mergeReg s off w := rg_wr_same _ _ _

theorem rg_seqModeWrite (q : Nat) (w : U32) (s : State) : rg (seqModeWrite q w s) (rAFE_SEQ_CFG q) = mergeReg s (rAFE_SEQ_CFG q) w := by
  rw [seqModeWrite_eq, rg_congr (setSeq_regs _ _ _), rg_congr (bankStarted_regs _ _ _ _), rg_plainWrite_same]

theorem seq_seqModeWrite_same (q : Nat) (w : U32) (s : State) : seq (seqModeWrite q w s) q = modeWritten (fld w 1 0) (seq s q) := by
  rw [seqModeWrite_eq, setSeq_same]

theorem seq_seqModeWrite_ne {q j : Nat} (hj : j ≠ q) (w : U32) (s : State) : seq (seqModeWrite q w s) j = seq s j := by
  rw [seqModeWrite_eq, setSeq_ne _ _ _ _ hj, seq_congr (bankStarted_seqs _ _ _ _), seq_congr (congrArg Afe.seqs (plainWrite_afe _ _ s))]

theorem chan_setSeq (s : State) (q : Nat) (v : Seq) (c : Nat) : chan (setSeq s q v) c = chan s c := rfl

theorem chan_seqModeWrite (q : Nat) (w : U32) (s : State) (c : Nat) :
    chan (seqModeWrite q w s) c = if LeavesOff s q (fld w 1 0) ∧ c / 8 = q then filterReset (chan s c) else chan s c := by
  rw [seqModeWrite_eq, chan_setSeq, chan_bankStarted, chan_congr (congrArg Afe.chans (plainWrite_afe _ _ s))]

theorem chCfgWrite_leaves (c : Nat) (w : U32) (s : State) : let t := chCfgWrite c w s
    rg t (rAFE_CH_CFG c) = mergeReg s (rAFE_CH_CFG c) w ∧ (∀ j, j ≠ c → chan t j = chan s j) ∧
    chan t c = { chan s c with n := 0, hist := [], dec := 0, sum := 0, k := 0, last := none, lo := none, hi := none } := by
  have hafe := plainWrite_afe (rAFE_CH_CFG c) w s
  have hrg := rg_plainWrite_same (rAFE_CH_CFG c) w s
  unfold chCfgWrite
  dsimp only
  generalize plainWrite (rAFE_CH_CFG c) w s = u at hafe hrg ⊢
  have hchan (j : Nat) := chan_congr (congrArg Afe.chans hafe) j
  refine ⟨(rg_congr (setChan_regs _ _ _) _).trans hrg, fun j hj => (setChan_ne _ _ _ _ hj).trans (hchan j), ?_⟩
  rw [setChan_same, hchan]

/-! ### The obligation -/

/-- Settles O57: what a conversion gives its channel and makes of its sequencer, by their cases, then the writes. -/
theorem conversionsFeedTheirChannels : Obligations.ConversionsFeedTheirChannels := by
  unfold Obligations.ConversionsFeedTheirChannels
  refine ⟨fun x => ?code, fun s q x ecc h => ?idle, fun s q x ecc h => ?runs, fun s bus v h => ?go, fun s bus q w h => ?mode,
    fun s bus c w h => ?cfg⟩
  case code => exact ⟨(afeCode_mem x).1, (afeCode_mem x).2, afeCode_overranges x, afeCode_nearest⟩
  case idle =>
    have hrec := recorded_afeConversion q x.toInt ecc s
    rw [conversion_idle h] at hrec
    exact ⟨_, exec_afeConversion q x ecc s, hrec.only .afe rfl, hrec.only .tick rfl⟩
  case runs =>
    have hconv := afeConversion_converted q.isLt h x.toInt ecc
    intro v ent w c y code overr tainted n d hist settled decim flagged next v' pass stop z last
    have hlast (h : last) : entLast s q v.entry = true := (entLast_iff s q v.entry).2 h
    have hnext {r : Seq × Bool × Nat} (h : moved q x.toInt s = r) : seq (afeConversion q x.toInt ecc s) q = r.1 := hconv.seq.trans (congrArg Prod.fst h)
    refine ⟨_, exec_afeConversion q x ecc s, hconv.tick, hconv.chans, hconv.seqs, fun hw => hconv.chan.trans (converted_discarded hw),
      fun hw => ?taken, fun hr => hnext (seqNext_repeats hr), fun hr h0 => hnext (seqNext_stops hr h0),
      fun hr h0 hl => hnext (seqNext_enters hr h0 (Bool.eq_false_iff.2 fun h => hl ((entLast_iff s q v.entry).1 h))),
      fun hr hm hl => hnext (seqNext_single hr hm (hlast hl)), fun hr hm hl => hnext (seqNext_passes hr hm (hlast hl)),
      fun sx hr hm hp hl => ?realigned, hconv.overr, hconv.ecc⟩
    case taken =>
      have hch := converted_taken (x := x.toInt) hw
      rw [← hconv.chan] at hch
      exact ⟨hch.n, hch.hist, hch.flags.1, hch.flags.2.1, hch.flags.2.2, hch.dec, hch.kept, hch.codes, hch.outputs, hch.between, hch.last⟩
    case realigned =>
      have hmoved : moved q x.toInt s = _ := seqNext_realigns (v := v') hr hm hp (hlast hl)
      obtain ⟨hle, hnear⟩ := realignedStart_spec (sx := sx) (next := next) (Nat.lt_of_lt_of_le Nat.zero_lt_one (Nat.le_max_left 1 (tTab s q)))
      have hgap := hconv.gap
      rw [hmoved] at hgap
      generalize realignedStart sx next (max 1 (tTab s q)) = start at hle hnear hmoved hgap
      refine ⟨start - next, ?_, fun hsx => ?_, hgap⟩
      · rw [hnext hmoved, Nat.add_sub_cancel' hle]
        rfl
      · rw [Nat.add_sub_cancel' hle]
        obtain ⟨hlt, hk⟩ := hnear hsx
        exact ⟨by omega, hk⟩
  case go =>
    refine ⟨_, guardWrite_ok h, fun hw => seqGo_shut hw v, fun hw q hq => ?_⟩
    rw [seq_seqGo hw v hq]
    have hpick : (bit v q && startSrc s q == 0) = true ↔ ¬ (bit v q = false ∨ startSrc s q ≠ 0) := by
      simp only [Bool.and_eq_true, beq_iff_eq, not_or, Bool.not_eq_false, not_not]
    by_cases hp : bit v q = false ∨ startSrc s q ≠ 0
    · rw [if_neg (mt hpick.1 (not_not.2 hp)), if_pos (or_assoc.1 (.inl hp))]
    · rw [if_pos (hpick.2 hp)]
      exact if_congr (by rw [← or_assoc, or_iff_right hp]) rfl rfl
  case mode =>
    refine ⟨_, guardWrite_ok h, rg_seqModeWrite q w s, fun j hj => seq_seqModeWrite_ne hj w s, seq_seqModeWrite_same q w s, fun c hc => ?_⟩
    rw [chan_seqModeWrite]
    exact if_congr (by simp only [LeavesOff, and_assoc]) rfl rfl
  case cfg => exact ⟨_, guardWrite_ok h, chCfgWrite_leaves c w s⟩

end Sys2Proof.Machine
end

section
/-! PROOFS. Protection: Clapper, the safety processor's command and the comparators (O56). -/

namespace Sys2Proof.Machine

/-! ### What a change of protection shows to Snare and to the partners (R463, R485) -/

/-- `t` is `s` once Snare and the partners have taken a change of protection: registers of Snare, reports, and the block that the ports send. -/
structure Synced (s t : State) : Prop where
  only : ChangesOnly [.regs, .flt, .snr, .stk] s t
  regs : ∀ o, o ∉ sideRegs → rg t o = rg s o
  trips : t.flt.trips = s.flt.trips

namespace Synced

theorem refl (s : State) : Synced s s := ⟨ChangesOnly.refl _ s, fun _ _ => rfl, rfl⟩

theorem trans {s t u : State} (h : Synced s t) (g : Synced t u) : Synced s u :=
  ⟨h.only.trans g.only, fun o ho => (g.regs o ho).trans (h.regs o ho), g.trips.trans h.trips⟩

theorem foldl {α : Type} {f : State → α → State} (hf : ∀ u a, Synced u (f u a)) (l : List α) (s : State) : Synced s (l.foldl f s) := by
  induction l generalizing s with
  | nil => exact refl s
  | cons a l ih => exact (hf s a).trans (ih _)

end Synced

theorem snareSig_trips (t g i v : Nat) (s : State) : (snareSig t g i v s).flt.trips = s.flt.trips := by
  unfold snareSig snareRecord
  dsimp only
  split
  · rfl
  · split
    · split <;> rfl
    · rfl

theorem synced_snareSig (t g i v : Nat) (s : State) : Synced s (snareSig t g i v s) :=
  ⟨(snareSig_keeps (Keeps.refl _ s) rfl).only, fun _ ho => rg_snareSig ho .., snareSig_trips ..⟩

theorem synced_snareEval (s : State) : Synced s (snareEval s) :=
  ⟨(snareEval_keeps (Keeps.refl _ s) rfl).only, fun _ ho => rg_snareEval_side ho s, congrArg Flt.trips (snareEval_only s .flt rfl)⟩

theorem synced_decisionOut (b : Block) (dst : Option Nat) (s : State) : Synced s (decisionOut b dst s) := by
  have honly : ChangesOnly [.regs, .flt, .snr, .stk] s (decisionOut b dst s) := (decisionOut_keeps (Keeps.refl _ s) rfl).only
  unfold decisionOut at honly ⊢
  split at honly
  · next h => rw [if_pos h]; exact ⟨honly, fun _ _ => rfl, rfl⟩
  · next h => rw [if_neg h]; exact Synced.refl s

theorem synced_prtSync (s : State) : Synced s (prtSync s) := by
  unfold prtSync
  extract_lets t u v w b old x
  have hu : Synced s u := Synced.foldl (fun _ _ => synced_snareSig ..) _ s
  have hv : Synced u v := Synced.foldl (fun _ _ => synced_snareSig ..) _ u
  have hw : Synced v w := synced_snareSig ..
  have hx : Synced w x := by
    unfold x
    split
    · exact Synced.refl w
    · exact synced_decisionOut b none w
  exact (((hu.trans hv).trans hw).trans hx).trans (synced_snareEval x)

/-! ### A decision (R129, R203, R358) -/

/-- The registers in which the burst and the blocks of a decision are counted. -/
def decisionRegs : List Nat := [rPRT_MERGE_CNT, rPRT_EVT, rFUR_BLKSYM_CNT, rFUR_EVT, rSYS_YIELD_CNT 0]

theorem ne_of_not_decisionReg {o k : Nat} (ho : o ∉ decisionRegs) (hk : k ∈ decisionRegs) : o ≠ k := fun h => ho (h ▸ hk)

theorem rg_burstStart {o : Nat} (hc : o ≠ rFUR_BLKSYM_CNT) (he : o ≠ rFUR_EVT) (hy : o ≠ rSYS_YIELD_CNT 0) (s : State) :
    rg (burstStart s).2 o = rg s o := by
  unfold burstStart
  split
  · rfl
  · refine (rg_wr_ne _ _ _ _ he).trans ((rg_wr_ne _ _ _ _ hc).trans ?_)
    split
    · exact rg_wr_ne _ _ _ _ hy
    · rfl

/-- The burst of a decision, or the merging into the burst that runs (R203). -/
def burstOrMerge (s : State) : State :=
  if (burstStart s).1 then (burstStart s).2 else setEvt (count (burstStart s).2 rPRT_MERGE_CNT) rPRT_EVT (bitv 9)

theorem rg_burstOrMerge {o : Nat} (ho : o ∉ decisionRegs) (s : State) : rg (burstOrMerge s) o = rg s o := by
  have hb : rg (burstStart s).2 o = rg s o := rg_burstStart (ne_of_not_decisionReg ho (by decide)) (ne_of_not_decisionReg ho (by decide))
    (ne_of_not_decisionReg ho (by decide)) s
  unfold burstOrMerge
  split
  · exact hb
  · exact (rg_wr_ne _ _ _ _ (ne_of_not_decisionReg ho (by decide))).trans
      ((rg_wr_ne _ _ _ _ (ne_of_not_decisionReg ho (by decide))).trans hb)

theorem burstOrMerge_stands (s : State) : BitsStand rPRT_EVT s (burstOrMerge s) := by
  have hb : BitsStand rPRT_EVT s (burstStart s).2 := .of_rg (rg_burstStart (by decide) (by decide) (by decide) s)
  exact .ite hb (hb.trans (BitsStand.trans (.of_rg (rg_wr_ne _ _ _ _ (by decide))) (.setEvt _ _ _)))

theorem rg_blockByDecision (j : Nat) (s : State) (o : Nat) : rg (blockByDecision j s) o = rg s o :=
  rg_congr ((blockByDecision_keeps (Keeps.refl [.cmd, .hrw] s) rfl).only .regs rfl) o

theorem rg_snareEvent {o : Nat} (ho : o ∉ sideRegs) (t g i v : Nat) (s : State) : rg (snareEvent t g i v s) o = rg s o :=
  rg_snareRecord _ _ _ _ _ (ne_of_not_sideReg ho (by decide)) (ne_of_not_sideReg ho (by decide)) (ne_of_not_sideReg ho (by decide))

theorem rg_tripBlocks {o : Nat} (ho : o ∉ sideRegs) (s : State) : rg (tripBlocks s) o = rg (burstOrMerge s) o :=
  (rg_snareEvent ho ..).trans (rg_blockByDecision ..)

theorem tripBlocks_only (s : State) : ChangesOnly [.regs, .flt, .cmd, .fur, .hrw, .snr] s (tripBlocks s) := by
  have hb : Keeps [.regs, .flt, .cmd, .fur, .hrw, .snr] s (burstStart s).2 := burstStart_keeps (Keeps.refl _ s) rfl
  exact (snareEvent_keeps (blockByDecision_keeps (Keeps.ite hb (setEvt_keeps (count_keeps hb rfl) rfl)) rfl) rfl).only

/-- What follows a decision where `blk` asks for one, and the change of protection shown: `u` before, `t` after. -/
structure Decided (blk : Bool) (u t : State) : Prop where
  prt : t.prt = u.prt
  cnt : rg t rPRT_TRIP_CNT = if blk then satInc (rg u rPRT_TRIP_CNT) else rg u rPRT_TRIP_CNT
  due : blk = true → t.grn.tripDue = true
  stands : BitsStand rPRT_EVT u t
  regs : ∀ o, o ∉ sideRegs → o ∉ decisionRegs → o ≠ rPRT_TRIP_CNT → rg t o = rg u o

/-- A decision whose record `v` is taken: the blocks of a device that drives its rings. -/
theorem decided_ite_tripBlocks {s v : State} (hprt : v.prt = s.prt) (hregs : ∀ o, o ∉ sideRegs → rg v o = rg (count s rPRT_TRIP_CNT) o)
    (hdue : v.grn.tripDue = true) : Decided true s (if !drives v then v else tripBlocks v) := by
  have hnoted {o : Nat} (ho : o ∉ sideRegs) (hc : o ≠ rPRT_TRIP_CNT) : rg v o = rg s o := (hregs o ho).trans (rg_wr_ne _ _ _ _ hc)
  have hcnt : rg v rPRT_TRIP_CNT = satInc (rg s rPRT_TRIP_CNT) := (hregs _ (by decide)).trans (rg_count_same ..)
  split
  · exact ⟨hprt, hcnt, fun _ => hdue, .of_rg (hnoted (by decide) (by decide)), fun o hs _ hc => hnoted hs hc⟩
  · have hblocks {o : Nat} (ho : o ∉ sideRegs) := rg_tripBlocks ho v
    have honly := tripBlocks_only v
    refine ⟨(honly .prt rfl).trans hprt, ?_, fun _ => ?_, ?_, fun o hs hd hc => ?_⟩
    · exact (hblocks (by decide)).trans ((rg_burstOrMerge (by decide) _).trans hcnt)
    · exact (congrArg Grn.tripDue (honly .grn rfl)).trans hdue
    · exact (BitsStand.of_rg (hnoted (by decide) (by decide))).trans ((burstOrMerge_stands _).trans (.of_rg (hblocks (by decide))))
    · exact (hblocks hs).trans ((rg_burstOrMerge hd _).trans (hnoted hs hc))

theorem decided_protDecide (s : State) : Decided true s (protDecide s) := by
  unfold protDecide
  extract_lets c u _ v
  have hu : u.prt = s.prt := (jnlPut_keeps (Keeps.refl [.regs, .grn] c) rfl).only .prt rfl
  obtain ⟨ws, hws⟩ : ∃ ws, u = jnlPut 4 ws c := ⟨_, rfl⟩
  have hregs (o : Nat) (ho : o ∉ sideRegs) : rg u o = rg c o := hws ▸ rg_jnlPut ho 4 ws c
  clear_value u
  have hdue : v.grn.tripDue = true := rfl
  have hsame (o : Nat) : rg v o = rg u o := rfl
  have hprt : v.prt = u.prt := rfl
  have h := decided_ite_tripBlocks (hprt.trans hu) (fun o ho => (hsame o).trans (hregs o ho)) hdue
  clear_value v
  exact h

theorem Decided.then_synced {blk : Bool} {s t u : State} (h : Decided blk s t) (g : Synced t u) : Decided blk s u where
  prt := (g.only .prt rfl).trans h.prt
  cnt := (g.regs _ (by decide)).trans h.cnt
  due hb := (congrArg Grn.tripDue (g.only .grn rfl)).trans (h.due hb)
  stands := h.stands.trans (.of_rg (g.regs _ (by decide)))
  regs o hs hd hc := (g.regs o hs).trans (h.regs o hs hd hc)

theorem decided_prtSync (blk : Bool) (u : State) : Decided blk u (prtSync (if blk then decision u else u)) := by
  have h : Decided blk u (if blk then decision u else u) := by
    cases blk with
    | false => exact ⟨rfl, rfl, nofun, .refl u, fun _ _ _ _ => rfl⟩
    | true =>
      rw [if_pos rfl, decision]
      exact (decided_protDecide u).then_synced (synced_decisionOut ..)
  exact h.then_synced (synced_prtSync _)

/-! ### The permit channels (R367 to R369) -/

/-- May the trip of a channel write register `o`: PRT_EVT, and the counts of the off-pulses. -/
def PermitReg (o : Nat) : Prop := o = rPRT_EVT ∨ (0xD0010C ≤ o ∧ o % 16 = 12)

theorem not_permitReg {o : Nat} (he : o ≠ rPRT_EVT) (h : o < 0xD0010C ∨ o % 16 ≠ 12) : ¬ PermitReg o := by
  unfold PermitReg
  omega

theorem permitReg_count (n : Nat) : PermitReg (rPRT_PCH_TCNT n) := .inr (by simp only [rPRT_PCH_TCNT]; omega)

/-- `t` is `s` with channels moved: what they hold, and their registers. -/
structure ChansMoved (s t : State) : Prop where
  prt : t.prt = { s.prt with chans := t.prt.chans }
  regs : ∀ o, ¬ PermitReg o → rg t o = rg s o
  stands : BitsStand rPRT_EVT s t

namespace ChansMoved

theorem refl (s : State) : ChansMoved s s := ⟨rfl, fun _ _ => rfl, .refl s⟩

theorem trans {s t u : State} (h : ChansMoved s t) (g : ChansMoved t u) : ChansMoved s u :=
  ⟨g.prt.trans (by rw [h.prt]), fun o ho => (g.regs o ho).trans (h.regs o ho), h.stands.trans g.stands⟩

theorem foldl {α : Type} {f : State → α → State} (hf : ∀ u a, ChansMoved u (f u a)) (l : List α) (s : State) :
    ChansMoved s (l.foldl f s) := by
  induction l generalizing s with
  | nil => exact refl s
  | cons a l ih => exact (hf s a).trans (ih _)

theorem setChn (s : State) (n : Nat) (c : Chn) : ChansMoved s (setChn s n c) := ⟨rfl, fun _ _ => rfl, .of_rg rfl⟩

end ChansMoved

/-- Channel `n` and its configuration are the same in `t` as in `s`. -/
structure ChnKept (n : Nat) (s t : State) : Prop where
  chn : chn t n = chn s n
  cfg : rg t (rPRT_PCH_CFG n) = rg s (rPRT_PCH_CFG n)

theorem ChnKept.refl {n : Nat} (s : State) : ChnKept n s s := ⟨rfl, rfl⟩

theorem ChnKept.trans {n : Nat} {s t u : State} (h : ChnKept n s t) (g : ChnKept n t u) : ChnKept n s u := ⟨g.chn.trans h.chn, g.cfg.trans h.cfg⟩

theorem ChnKept.state {n : Nat} {s t : State} (h : ChnKept n s t) : chanState t n = chanState s n := by
  rw [chanState, pchEn, h.chn, h.cfg]
  rfl

theorem chn_congr {s t : State} (h : t.prt.chans = s.prt.chans) (n : Nat) : chn t n = chn s n := by rw [chn, chn, h]

theorem ChansMoved.cfg {s t : State} (h : ChansMoved s t) (n : Nat) : rg t (rPRT_PCH_CFG n) = rg s (rPRT_PCH_CFG n) :=
  h.regs _ (not_permitReg (by simp only [rPRT_PCH_CFG, rPRT_EVT]; omega) (by simp only [rPRT_PCH_CFG]; omega))

/-- A channel that leaves an off-pulse for a trip counts it as aborted (R373). -/
def pulseAborted (n : Nat) (s : State) : State :=
  if chanState s n = 5 ∨ chanState s n = 6 then setEvt (countSkip n s) rPRT_EVT (bitv 8) else s

/-- Channel `c` in state `st` TRIPPED at `at'` for the causes in `why` (R369). -/
def trippedChn (why : U32) (st at' : Nat) (c : Chn) : Chn :=
  { c with st := 7, cause := if st = 7 then c.cause ||| why else why, clear := none, ret := false, since := if st = 7 then c.since else at' }

theorem tripChan_live {s : State} {n : Nat} (h : ¬ (chanState s n = 0 ∨ chanState s n = 8)) (why : U32) :
    tripChan why n s = setChn (pulseAborted n s) n (trippedChn why (chanState s n) (now (pulseAborted n s)) (chn s n)) := if_neg h

theorem pulseAborted_prt (n : Nat) (s : State) : (pulseAborted n s).prt = s.prt := by
  unfold pulseAborted
  split <;> rfl

theorem pulseAborted_moved (n : Nat) (s : State) : ChansMoved s (pulseAborted n s) := by
  have hskip {o : Nat} (ho : o ≠ rPRT_PCH_TCNT n) : rg (countSkip n s) o = rg s o := rg_wr_ne _ _ _ _ ho
  refine ⟨by rw [pulseAborted_prt], fun o ho => ?_, ?_⟩ <;> unfold pulseAborted
  · split
    · exact (rg_wr_ne _ _ _ _ fun h => ho (.inl h)).trans (hskip fun h => ho (h.symm ▸ permitReg_count n))
    · rfl
  · refine .ite (.trans (.of_rg (hskip ?_)) (.setEvt _ _ _)) (.refl s)
    simp only [rPRT_EVT, rPRT_PCH_TCNT]
    omega

/-- The trip of channel `n`, but for one that `skip` passes over while it is TRIPPED. -/
def tripUnless (skip : Nat → Bool) (why : U32) (s : State) (n : Nat) : State :=
  if skip n && decide (chanState s n = 7) then s else tripChan why n s

theorem tripUnless_moved (skip : Nat → Bool) (why : U32) (s : State) (n : Nat) : ChansMoved s (tripUnless skip why s n) := by
  unfold tripUnless
  split
  · exact .refl s
  · by_cases h : chanState s n = 0 ∨ chanState s n = 8
    · rw [tripChan, if_pos h]
      exact .refl s
    · rw [tripChan_live h]
      exact (pulseAborted_moved n s).trans (.setChn _ _ _)

theorem chn_tripUnless_ne {m n : Nat} (h : m ≠ n) (skip : Nat → Bool) (why : U32) (s : State) : chn (tripUnless skip why s m) n = chn s n := by
  unfold tripUnless
  split
  · rfl
  · by_cases hd : chanState s m = 0 ∨ chanState s m = 8
    · rw [tripChan, if_pos hd]
    · rw [tripChan_live hd, setChn_ne _ _ _ _ h.symm]
      exact chn_congr (congrArg Prt.chans (pulseAborted_prt m s)) n

theorem tripUnless_kept {m n : Nat} (h : m ≠ n) (skip : Nat → Bool) (why : U32) (s : State) : ChnKept n s (tripUnless skip why s m) :=
  ⟨chn_tripUnless_ne h .., (tripUnless_moved ..).cfg n⟩

theorem st_eq_seven {s : State} {n : Nat} (h : chanState s n = 7) : (chn s n).st = 7 := by
  unfold chanState at h
  split at h
  · cases h
  · split at h
    · cases h
    · exact h

/-- A channel that is used and has not FAILED is TRIPPED, its causes those of before and `why`. -/
theorem chn_tripUnless_same {s : State} {n : Nat} (h0 : chanState s n ≠ 0) (h8 : chanState s n ≠ 8) (skip : Nat → Bool) (why : U32) :
    (chn (tripUnless skip why s n) n).st = 7 ∧ (chn (tripUnless skip why s n) n).cause =
      if chanState s n = 7 then (if skip n then (chn s n).cause else (chn s n).cause ||| why) else why := by
  have hlive : ¬ (chanState s n = 0 ∨ chanState s n = 8) := not_or.2 ⟨h0, h8⟩
  unfold tripUnless
  split
  · next h =>
    simp only [Bool.and_eq_true, decide_eq_true_eq] at h
    rw [if_pos h.2, if_pos h.1]
    exact ⟨st_eq_seven h.2, rfl⟩
  · next h =>
    rw [tripChan_live hlive, setChn_same]
    refine ⟨rfl, ?_⟩
    simp only [trippedChn]
    by_cases h7 : chanState s n = 7
    · have hs : ¬ skip n = true := fun hs => h (by rw [hs, h7]; rfl)
      rw [if_pos h7, if_pos h7, if_neg hs]
    · rw [if_neg h7, if_neg h7]

/-- The trips of the channels of `p`. -/
def tripsOf (p skip : Nat → Bool) (why : U32) (s : State) : State := (idxs 8 p).foldl (tripUnless skip why) s

theorem mem_idxs_iff {n m : Nat} {p : Nat → Bool} : m ∈ idxs n p ↔ m < n ∧ p m = true := by
  rw [idxs, List.mem_filter, List.mem_range]

/-- What the trips of the channels of `p` leave. -/
structure Tripped (p skip : Nat → Bool) (why : U32) (s t : State) : Prop where
  moved : ChansMoved s t
  hit : ∀ n, n < 8 → p n = true → chanState s n ≠ 0 → chanState s n ≠ 8 → (chn t n).st = 7 ∧
    (chn t n).cause = if chanState s n = 7 then (if skip n then (chn s n).cause else (chn s n).cause ||| why) else why
  miss : ∀ n, p n = false → chn t n = chn s n

theorem tripsOf_tripped (p skip : Nat → Bool) (why : U32) (s : State) : Tripped p skip why s (tripsOf p skip why s) where
  moved := .foldl (tripUnless_moved skip why) _ s
  hit n hn hp h0 h8 := by
    obtain ⟨u, hu, ht⟩ := foldl_at (K := ChnKept n) ChnKept.refl ChnKept.trans (fun u m hm => tripUnless_kept hm skip why u)
      (List.nodup_range.filter p) (mem_idxs_iff.2 ⟨hn, hp⟩) s
    rw [← hu.state] at h0 h8 ⊢
    rw [← hu.chn, tripsOf, idxs, ht.chn]
    exact chn_tripUnless_same h0 h8 skip why
  miss n hp := List.foldlRecOn (motive := fun u => chn u n = chn s n) _ _ rfl fun u hu m hm =>
    (chn_tripUnless_ne (fun h => by rw [h] at hm; exact absurd hp (by rw [(mem_idxs_iff.1 hm).2]; decide)) skip why u).trans hu

/-! ### The start of REARM_HOLD (R369, R374) -/

/-- `t` is `s` with the REARM_HOLD of channels started. -/
structure Held (s t : State) : Prop where
  moved : ChansMoved s t
  chns : ∀ n, chn t n = { chn s n with clear := (chn t n).clear }
  only : ChangesOnly [.prt] s t

theorem Held.refl (s : State) : Held s s := ⟨.refl s, fun _ => rfl, .refl _ s⟩

theorem Held.trans {s t u : State} (h : Held s t) (g : Held t u) : Held s u :=
  ⟨h.moved.trans g.moved, fun n => (g.chns n).trans (by rw [h.chns n]), h.only.trans g.only⟩

theorem held_holdChan (s : State) (n : Nat) : Held s (holdChan s n) := by
  have honly : ChangesOnly [.prt] s (holdChan s n) := (holdChan_keeps (Keeps.refl _ s) rfl).only
  unfold holdChan at honly ⊢
  dsimp only at honly ⊢
  split at honly
  · next h =>
    rw [if_pos h]
    refine ⟨.setChn _ _ _, fun m => ?_, honly⟩
    by_cases hm : m = n
    · rw [hm, setChn_same]
    · rw [setChn_ne _ _ _ _ hm]
  · next h =>
    rw [if_neg h]
    exact .refl s

theorem held_holdStart (s : State) : Held s (holdStart s) := by
  unfold holdStart
  induction List.range 8 generalizing s with
  | nil => exact .refl s
  | cons n l ih => exact (held_holdChan s n).trans (ih _)

/-! ### The outputs (R356) -/

theorem permits_off {s : State} {n : Nat} (h : clapHits s n = true ∨ bit s.prt.demand n = true) : permitH s n = false ∧ permitL s n = false := by
  rcases h with h | h <;> simp [permitH, permitL, h]

theorem clapHits_of_latched {s : State} {k n : Nat} (hk : k < 16) (hl : bit s.prt.latched k = true) (hm : clapMaps s k n = true) :
    clapHits s n = true :=
  List.any_eq_true.2 ⟨k, List.mem_range.2 hk, by rw [hl, hm]; rfl⟩

theorem bit_two_pow {w k : Nat} (hk : k < w) : bit (BitVec.ofNat w (2 ^ k)) k = true := by
  rw [bit, BitVec.getLsbD_ofNat, Nat.testBit_two_pow_self, decide_eq_true hk]
  rfl

/-! ### A Clapper input latches (R359, R377 to R379) -/

theorem firstCause_first (w : U32) (s : State) :
    (firstCause w s).prt = { s.prt with first := if s.prt.latched = 0 ∧ s.prt.demand = 0 then w ||| bitv 11 else s.prt.first } := by
  unfold firstCause
  split <;> rfl

theorem firstCause_regs (w : U32) (s : State) : (firstCause w s).regs = s.regs := by
  unfold firstCause
  split <;> rfl

/-- The cause latched, with its event. -/
def causeLatched (k : Nat) (s : State) : State :=
  let u := firstCause (u32 k) s
  setEvt { u with prt := { u.prt with latched := u.prt.latched ||| BitVec.ofNat 16 (2 ^ k),
                                      asserted := u.prt.asserted &&& ~~~(BitVec.ofNat 16 (2 ^ k)) } } rPRT_EVT (bitv 0)

theorem causeLatched_prt (k : Nat) (s : State) : (causeLatched k s).prt = { s.prt with
    latched := s.prt.latched ||| BitVec.ofNat 16 (2 ^ k)
    asserted := s.prt.asserted &&& ~~~(BitVec.ofNat 16 (2 ^ k))
    first := if s.prt.latched = 0 ∧ s.prt.demand = 0 then u32 k ||| bitv 11 else s.prt.first } := by
  have h := firstCause_first (u32 k) s
  simp only [causeLatched, setEvt_prt, h]

theorem rg_causeLatched {o : Nat} (ho : o ≠ rPRT_EVT) (k : Nat) (s : State) : rg (causeLatched k s) o = rg s o :=
  (rg_wr_ne _ _ _ _ ho).trans (rg_congr (firstCause_regs (u32 k) s) o)

theorem causeLatched_event (k : Nat) (s : State) : bit (rg (causeLatched k s) rPRT_EVT) 0 = true := by
  rw [causeLatched, rg_setEvt_same]
  exact bit_or_bitv _ (by decide)

/-- The trips of a latched cause, reported. -/
def causeTripped (k : Nat) (s : State) : State :=
  report (tripsOf (clapMaps (causeLatched k s) k) (fun _ => false) (bitv k) (causeLatched k s)) (srcPrt k) (clapCode k)

theorem clapLatch_due {s : State} {k : Nat} (h : clapDue s k = true) : clapLatch k s =
    prtSync (if bit (clapCfg (causeTripped k s) k) 8 then decision (causeTripped k s) else causeTripped k s) := if_neg (by rw [h]; decide)

theorem clapLatch_idle {s : State} {k : Nat} (h : clapDue s k = false) : clapLatch k s =
    { s with prt := { s.prt with asserted := s.prt.asserted &&& ~~~(BitVec.ofNat 16 (2 ^ k)) } } := if_pos (by rw [h]; rfl)

theorem clapCfg_congr {s t : State} (h : ∀ o, o ≠ rPRT_EVT → ¬ PermitReg o → rg t o = rg s o) {k : Nat} (hk : k < 16) :
    clapCfg t k = clapCfg s k :=
  h _ (by simp only [rPRT_CLAP_CFG, rPRT_EVT]; omega)
    (not_permitReg (by simp only [rPRT_CLAP_CFG, rPRT_EVT]; omega) (by simp only [rPRT_CLAP_CFG]; omega))

theorem clapMaps_congr {s t : State} {k : Nat} (h : clapCfg t k = clapCfg s k) : clapMaps t k = clapMaps s k := by
  funext n
  rw [clapMaps, clapMaps, h]

theorem causeTripped_tripped {k : Nat} (hk : k < 16) (s : State) :
    Tripped (clapMaps s k) (fun _ => false) (bitv k) (causeLatched k s) (causeTripped k s) := by
  have hmaps : clapMaps (causeLatched k s) k = clapMaps s k := clapMaps_congr (clapCfg_congr (fun o he _ => rg_causeLatched he k s) hk)
  have h := tripsOf_tripped (clapMaps s k) (fun _ => false) (bitv k) (causeLatched k s)
  rw [causeTripped, hmaps]
  generalize tripsOf _ _ _ _ = u at h ⊢
  exact ⟨⟨h.moved.prt, h.moved.regs, h.moved.stands⟩, h.hit, h.miss⟩

theorem rg_causeTripped {k : Nat} (hk : k < 16) (s : State) {o : Nat} (he : o ≠ rPRT_EVT) (ho : ¬ PermitReg o) :
    rg (causeTripped k s) o = rg s o :=
  ((causeTripped_tripped hk s).moved.regs o ho).trans (rg_causeLatched he k s)

theorem causeLatched_kept {n : Nat} (k : Nat) (s : State) : ChnKept n s (causeLatched k s) :=
  ⟨chn_congr (by rw [causeLatched_prt]) n, rg_causeLatched (by simp only [rPRT_PCH_CFG, rPRT_EVT]; omega) k s⟩

theorem not_decisionReg_of_prt {o : Nat} (h : 0xD00030 ≤ o) : o ∉ decisionRegs := by
  simp only [decisionRegs, List.mem_cons, List.not_mem_nil, or_false, rPRT_MERGE_CNT, rPRT_EVT, rFUR_BLKSYM_CNT, rFUR_EVT, rSYS_YIELD_CNT]
  omega

/-- What an input that latches leaves: its cause, the trips of its channels, and the decision where BLKSYM is set. -/
structure CauseLatched (k : Nat) (s t : State) : Prop where
  latched : t.prt.latched = s.prt.latched ||| BitVec.ofNat 16 (2 ^ k)
  asserted : t.prt.asserted = s.prt.asserted &&& ~~~(BitVec.ofNat 16 (2 ^ k))
  event : bit (rg t rPRT_EVT) 0 = true
  first : t.prt.first = if s.prt.latched = 0 ∧ s.prt.demand = 0 then u32 k ||| bitv 11 else s.prt.first
  maps : clapMaps t k = clapMaps s k
  hit : ∀ n, n < 8 → clapMaps s k n = true → chanState s n ≠ 0 → chanState s n ≠ 8 → (chn t n).st = 7 ∧
    (chn t n).cause = if chanState s n = 7 then (chn s n).cause ||| bitv k else bitv k
  miss : ∀ n, clapMaps s k n = false → chn t n = chn s n
  cnt : rg t rPRT_TRIP_CNT = if bit (clapCfg s k) 8 then satInc (rg s rPRT_TRIP_CNT) else rg s rPRT_TRIP_CNT
  due : bit (clapCfg s k) 8 = true → t.grn.tripDue = true

theorem clapLatch_latches {s : State} {k : Nat} (hk : k < 16) (h : clapDue s k = true) : CauseLatched k s (clapLatch k s) := by
  have hcfg : clapCfg (causeTripped k s) k = clapCfg s k := clapCfg_congr (fun _ => rg_causeTripped hk s) hk
  have hdec := decided_prtSync (bit (clapCfg s k) 8) (causeTripped k s)
  rw [clapLatch_due h, hcfg]
  generalize prtSync _ = t at hdec ⊢
  have htrip := causeTripped_tripped hk s
  have hcnt : rg (causeTripped k s) rPRT_TRIP_CNT = rg s rPRT_TRIP_CNT := rg_causeTripped hk s (by decide) (not_permitReg (by decide) (by decide))
  have hevt := htrip.moved.stands 0 (causeLatched_event k s)
  have hkept (n : Nat) : ChnKept n s (causeLatched k s) := causeLatched_kept k s
  generalize causeTripped k s = v at *
  have hprt := hdec.prt.trans (htrip.moved.prt.trans (congrArg (fun p => { p with chans := v.prt.chans }) (causeLatched_prt k s)))
  have hchn (n : Nat) : chn t n = chn v n := chn_congr (congrArg Prt.chans hdec.prt) n
  refine ⟨by rw [hprt], by rw [hprt], hdec.stands 0 hevt, by rw [hprt],
    clapMaps_congr ((hdec.regs _ ?_ ?_ ?_).trans hcfg), ?_, fun n hm => ?_, ?_, hdec.due⟩
  · exact not_sideReg_of_block (by simp only [rPRT_CLAP_CFG]; omega)
  · exact not_decisionReg_of_prt (by simp only [rPRT_CLAP_CFG]; omega)
  · simp only [rPRT_CLAP_CFG, rPRT_TRIP_CNT]
    omega
  · intro n hn hm h0 h8
    rw [← (hkept n).state] at h0 h8 ⊢
    rw [hchn, ← (hkept n).chn]
    exact htrip.hit n hn hm h0 h8
  · rw [hchn, htrip.miss n hm, (hkept n).chn]
  · rw [hdec.cnt, hcnt]

/-! ### A cause clears (R359) -/

/-- The condition of input `k` is gone. -/
def CauseGone (s : State) (k : Nat) : Prop :=
  (k < 8 ∧ cmpArmed s k = true) ∨
  (k = 8 ∧ ∀ p ∈ s.fur.rings, p.2.frameLoss = false ∨ (join64 (rg s rPRT_FL_MASK_LO) (rg s rPRT_FL_MASK_HI)).getLsbD p.1 = false) ∨
  (k = 9 ∧ 2 ≤ s.prt.hbGood) ∨ (k = 11 ∧ s.sys.refclkOk = true ∧ s.sys.pllLock = true) ∨
  (k = 12 ∧ ∀ t ∈ s.flt.trips, causeLive s t.1 t.2 = false)

theorem clapGone_iff (s : State) {k : Nat} (hk : k < 16) : clapGone s k = true ↔ CauseGone s k := by
  by_cases h8 : k < 8
  · have hne : k ≠ 8 ∧ k ≠ 9 ∧ k ≠ 11 ∧ k ≠ 12 := by omega
    simp [clapGone, CauseGone, h8, hne]
  · have hk8 : 8 ≤ k := Nat.le_of_not_lt h8
    interval_cases k <;> simp [clapGone, CauseGone]

theorem clapDue_iff (s : State) (k : Nat) : clapDue s k = true ↔
    clapEn s k = true ∧ bit s.prt.latched k = false ∧ (if k = 12 then s.flt.trips ≠ [] else bit s.prt.asserted k = true) := by
  unfold clapDue
  split <;> simp [and_assoc, and_comm, and_left_comm]

/-- A cause taken from the latched ones; input 12 forgets what Tocsin asked for. -/
def causeCleared (k : Nat) (s : State) : State :=
  let u := { s with prt := { s.prt with latched := s.prt.latched &&& ~~~(BitVec.ofNat 16 (2 ^ k)) } }
  if k = 12 then { u with flt := { u.flt with trips := [] } } else u

theorem clapClear_gone {s : State} {k : Nat} (hl : bit s.prt.latched k = true) (hg : clapGone s k = true) :
    clapClear k s = prtSync (holdStart (causeCleared k s)) := if_pos (by rw [hl, hg]; rfl)

theorem clapClear_stays {s : State} {k : Nat} (h : ¬ (bit s.prt.latched k = true ∧ clapGone s k = true)) : clapClear k s = s :=
  if_neg (by rwa [Bool.and_eq_true])

theorem causeCleared_prt (k : Nat) (s : State) :
    (causeCleared k s).prt = { s.prt with latched := s.prt.latched &&& ~~~(BitVec.ofNat 16 (2 ^ k)) } := by
  unfold causeCleared
  split <;> rfl

theorem causeCleared_trips (k : Nat) (s : State) : (causeCleared k s).flt.trips = if k = 12 then [] else s.flt.trips := by
  unfold causeCleared
  split <;> rfl

theorem prtSync_holdStart (u : State) : let t := prtSync (holdStart u)
    t.prt = { u.prt with chans := t.prt.chans } ∧ t.flt.trips = u.flt.trips ∧ ∀ n, chn t n = { chn u n with clear := (chn t n).clear } := by
  intro t
  have hheld := held_holdStart u
  have hsync : t.prt = (holdStart u).prt := prtSync_prt _
  have hchn (n : Nat) : chn t n = chn (holdStart u) n := chn_congr (congrArg Prt.chans hsync) n
  refine ⟨?_, ?_, fun n => ?_⟩
  · rw [hsync]
    exact hheld.moved.prt
  · exact (synced_prtSync _).trips.trans (congrArg Flt.trips (hheld.only .flt rfl))
  · rw [hchn]
    exact hheld.chns n

/-! ### The configuration CRC, the safety processor's failure and its heartbeat (R359, R360, R366) -/

/-- The inputs asserted once input `k` asserts. -/
def assertedWith (s : State) (k : Nat) : U16 := if clapEn s k then s.prt.asserted ||| BitVec.ofNat 16 (2 ^ k) else s.prt.asserted

/-- An input asserts behind an event of PRT_EVT. -/
theorem clapAssert_setEvt {k i : Nat} (hk : k < 16) (hi : i < 32) (s : State) : let t := clapAssert k (setEvt s rPRT_EVT (bitv i))
    ChangesOnly [.regs, .prt] s t ∧ t.prt = { s.prt with asserted := assertedWith s k } ∧ bit (rg t rPRT_EVT) i = true := by
  intro t
  have hprt : (clapAssert k (setEvt s rPRT_EVT (bitv i))).prt = { s.prt with asserted := assertedWith s k } := by
    have hen : clapEn (setEvt s rPRT_EVT (bitv i)) k = clapEn s k :=
      congrArg (bit · 9) (rg_wr_ne _ _ _ _ (by simp only [rPRT_CLAP_CFG, rPRT_EVT]; omega))
    unfold clapAssert assertedWith
    rw [hen]
    split <;> rfl
  have hrg : rg t rPRT_EVT = rg s rPRT_EVT ||| bitv i := (rg_congr (clapAssert_only k _ .regs rfl) _).trans (rg_setEvt_same ..)
  exact ⟨(clapAssert_keeps (setEvt_keeps (Keeps.refl _ s) rfl) rfl).only, hprt, hrg ▸ bit_or_bitv _ hi⟩

theorem prt_only (s : State) (p : Prt) : ChangesOnly [.prt] s { s with prt := p } := by
  intro a ha
  cases a
  case prt => exact absurd ha (by decide)
  all_goals rfl

theorem crcCheck_fails {s : State} {upset : U32} (hon : s.prt.crcOn = true) (hne : configCrc s ^^^ upset ≠ s.prt.crcRef) :
    crcCheck upset s = clapAssert 13 (setEvt s rPRT_EVT (bitv 4)) := if_pos (by rw [hon, decide_eq_true hne]; rfl)

theorem crcCheck_passes {s : State} {upset : U32} (h : s.prt.crcOn = false ∨ configCrc s ^^^ upset = s.prt.crcRef) : crcCheck upset s = s := by
  refine if_neg fun hc => ?_
  rw [Bool.and_eq_true, decide_eq_true_eq] at hc
  rcases h with h | h
  · rw [h] at hc
    exact Bool.false_ne_true hc.1
  · exact hc.2 h

theorem spFailure_leaves (s : State) : let t := spFailure s
    ChangesOnly [.regs, .prt] s t ∧ t.prt = { s.prt with lockErr := true, asserted := assertedWith s 10 } ∧ bit (rg t rPRT_EVT) 3 = true := by
  obtain ⟨honly, hprt, hevt⟩ := clapAssert_setEvt (k := 10) (i := 3) (by decide) (by decide) { s with prt := { s.prt with lockErr := true } }
  exact ⟨((prt_only s _).mono rfl).trans honly, hprt, hevt⟩

theorem hbLoss_leaves (s : State) : let t := hbLoss s
    ChangesOnly [.regs, .prt] s t ∧ t.prt = { s.prt with hbOk := false, hbGood := 0, asserted := assertedWith s 9 } ∧
    bit (rg t rPRT_EVT) 2 = true := by
  obtain ⟨honly, hprt, hevt⟩ := clapAssert_setEvt (k := 9) (i := 2) (by decide) (by decide)
    { s with prt := { s.prt with hbOk := false, hbGood := 0 } }
  exact ⟨((prt_only s _).mono rfl).trans honly, hprt, hevt⟩

/-- PRT_SP_HB written, before supervision judges the write. -/
def beatTaken (v : U32) (s : State) : State := { s with prt := { s.prt with hb := v, hbAt := now s } }

/-- Is `v`, `cycles` after the write before it, the beat that supervision expects. -/
def GoodBeat (s : State) (v : U32) (cycles : Nat) : Prop :=
  v.toNat = fld (~~~s.prt.hb) 15 0 ∧ 25 * hbMax s ≤ cycles ∧ cycles ≤ 100 * hbMax s

theorem heartbeat_first {s : State} (h : s.prt.hbOn = false) (v : U32) (cycles : Nat) : heartbeat v cycles s =
    { beatTaken v s with prt :=
      if v = 0x00005AA5 then { (beatTaken v s).prt with hbOn := true, hbOk := true, hbGood := 1 } else (beatTaken v s).prt } := by
  have hoff : (!(beatTaken v s).prt.hbOn) = true := by rw [beatTaken, h]; rfl
  refine (if_pos hoff).trans ?_
  split <;> rfl

theorem heartbeat_good {s : State} (h : s.prt.hbOn = true) {v : U32} {cycles : Nat} (hg : GoodBeat s v cycles) : heartbeat v cycles s =
    { beatTaken v s with prt := { (beatTaken v s).prt with hbOk := true, hbGood := min 2 (s.prt.hbGood + 1) } } := by
  have hon : ¬ (!(beatTaken v s).prt.hbOn) = true := by rw [beatTaken, h]; decide
  obtain ⟨hv, hlo, hhi⟩ := hg
  exact (if_neg hon).trans (if_pos (Bool.and_eq_true_iff.2
    ⟨Bool.and_eq_true_iff.2 ⟨decide_eq_true hv, decide_eq_true hlo⟩, decide_eq_true hhi⟩))

theorem heartbeat_bad {s : State} (h : s.prt.hbOn = true) {v : U32} {cycles : Nat} (hg : ¬ GoodBeat s v cycles) :
    heartbeat v cycles s = hbLoss (beatTaken v s) := by
  have hon : ¬ (!(beatTaken v s).prt.hbOn) = true := by rw [beatTaken, h]; decide
  refine (if_neg hon).trans (if_neg fun hc => hg ?_)
  simp only [Bool.and_eq_true, decide_eq_true_eq] at hc
  exact ⟨hc.1.1, hc.1.2, hc.2⟩

theorem heartbeat_only (v : U32) (cycles : Nat) (s : State) : ChangesOnly [.regs, .prt] s (heartbeat v cycles s) :=
  (heartbeat_keeps (Keeps.refl _ s) rfl).only

theorem hbTimeout_late {s : State} (hon : s.prt.hbOn = true) (hok : s.prt.hbOk = true) : let t := hbTimeout s
    t.tick = u64 (max (now s) (s.prt.hbAt + (hbMax s * 625 + 1) / 2)) ∧
    t.prt = { s.prt with hbOk := false, hbGood := 0, asserted := assertedWith s 9 } ∧ bit (rg t rPRT_EVT) 2 = true := by
  have heq : hbTimeout s = hbLoss (advanceTo s (s.prt.hbAt + (hbMax s * 625 + 1) / 2)) := if_pos (by rw [hon, hok]; rfl)
  have htick := advanceTo_tick_max s (s.prt.hbAt + (hbMax s * 625 + 1) / 2)
  have hprt := advanceTo_only s (s.prt.hbAt + (hbMax s * 625 + 1) / 2) .prt rfl
  have hregs := advanceTo_only s (s.prt.hbAt + (hbMax s * 625 + 1) / 2) .regs rfl
  rw [heq]
  generalize advanceTo s _ = u at htick hprt hregs ⊢
  obtain ⟨honly, hloss, hevt⟩ := hbLoss_leaves u
  have hin : assertedWith u 9 = assertedWith s 9 := by
    have hen : clapEn u 9 = clapEn s 9 := congrArg (bit · 9) (rg_congr hregs _)
    rw [assertedWith, assertedWith, hen, show u.prt = s.prt from hprt]
  refine ⟨(honly .tick rfl).trans htick, hloss.trans ?_, hevt⟩
  rw [hin, show u.prt = s.prt from hprt]

theorem hbTimeout_idle {s : State} (h : s.prt.hbOn = false ∨ s.prt.hbOk = false) : hbTimeout s = s := by
  refine if_neg fun hc => ?_
  rw [Bool.and_eq_true] at hc
  rcases h with h | h
  · exact Bool.false_ne_true (h.symm.trans hc.1)
  · exact Bool.false_ne_true (h.symm.trans hc.2)

/-! ### The safety processor's command (R362) -/

/-- A new demand is a cause: the first of all, if none stood before, with its event and report (R379, R381). -/
def demandNoted (fresh : U8) (src : Nat) (s : State) : State :=
  if fresh = 0 then s
  else report (setEvt (firstCause (bitv 4 ||| u32 (32 * (s.prt.limit.getD 0))) s) rPRT_EVT (bitv 1)) (srcPrt src) 0x0341

/-- PRT_SP_CMD taken, before its demand trips channels. -/
def commandTaken (demand grant : U8) (blk : Bool) (src : Nat) (s : State) : State :=
  let u := demandNoted (demand &&& ~~~s.prt.demand) src s
  { u with prt := { u.prt with demand := demand, grant := grant, blksym := blk } }

/-- The trips of a command, and REARM_HOLD where it took the last cause away. -/
def commandTripped (demand grant : U8) (blk : Bool) (src : Nat) (s : State) : State :=
  holdStart (tripsOf (bit demand) (bit s.prt.demand) (bitv 16) (commandTaken demand grant blk src s))

theorem spCmd_eq (demand grant : U8) (blk : Bool) (src : Nat) (s : State) : spCmd demand grant blk src s =
    prtSync (if blk then decision (commandTripped demand grant blk src s) else commandTripped demand grant blk src s) := rfl

theorem rg_demandNoted {o : Nat} (ho : o ≠ rPRT_EVT) (fresh : U8) (src : Nat) (s : State) : rg (demandNoted fresh src s) o = rg s o := by
  unfold demandNoted
  split
  · rfl
  · exact (rg_wr_ne _ _ _ _ ho).trans (rg_congr (firstCause_regs ..) o)

/-- The first cause once a demand that is new in the bits of `fresh` is noted. -/
def firstDemanded (fresh : U8) (s : State) : U32 :=
  if fresh = 0 then s.prt.first
  else if s.prt.latched = 0 ∧ s.prt.demand = 0 then bitv 4 ||| u32 (32 * s.prt.limit.getD 0) ||| bitv 11 else s.prt.first

theorem demandNoted_prt (fresh : U8) (src : Nat) (s : State) : (demandNoted fresh src s).prt = { s.prt with first := firstDemanded fresh s } := by
  unfold demandNoted firstDemanded
  split
  · rfl
  · exact firstCause_first ..

theorem commandTaken_prt (demand grant : U8) (blk : Bool) (src : Nat) (s : State) : (commandTaken demand grant blk src s).prt = { s.prt with
    demand := demand, grant := grant, blksym := blk, first := firstDemanded (demand &&& ~~~s.prt.demand) s } := by
  simp only [commandTaken, demandNoted_prt]

theorem rg_commandTaken {o : Nat} (ho : o ≠ rPRT_EVT) (demand grant : U8) (blk : Bool) (src : Nat) (s : State) :
    rg (commandTaken demand grant blk src s) o = rg s o := rg_demandNoted ho ..

theorem commandTaken_event {demand : U8} {s : State} (h : demand &&& ~~~s.prt.demand ≠ 0) (grant : U8) (blk : Bool) (src : Nat) :
    bit (rg (commandTaken demand grant blk src s) rPRT_EVT) 1 = true := by
  have hrg : rg (commandTaken demand grant blk src s) rPRT_EVT = rg (demandNoted (demand &&& ~~~s.prt.demand) src s) rPRT_EVT := rfl
  rw [hrg, demandNoted, if_neg h, rg_report, rg_setEvt_same]
  exact bit_or_bitv _ (by decide)

theorem commandTaken_kept {n : Nat} (demand grant : U8) (blk : Bool) (src : Nat) (s : State) : ChnKept n s (commandTaken demand grant blk src s) :=
  ⟨chn_congr (by rw [commandTaken_prt]) n, rg_commandTaken (by simp only [rPRT_PCH_CFG, rPRT_EVT]; omega) ..⟩

/-- What a command leaves: DEMAND, GRANT and BLKSYM, the first cause and the event of a new demand, the trips of the channels demanded, and
the decision that BLKSYM asks for. -/
structure Commanded (demand grant : U8) (blk : Bool) (s t : State) : Prop where
  prt : t.prt = { s.prt with demand := demand, grant := grant, blksym := blk, first := firstDemanded (demand &&& ~~~s.prt.demand) s,
                             chans := t.prt.chans }
  event : demand &&& ~~~s.prt.demand ≠ 0 → bit (rg t rPRT_EVT) 1 = true
  hit : ∀ n, n < 8 → bit demand n = true → chanState s n ≠ 0 → chanState s n ≠ 8 → (chn t n).st = 7 ∧ (chn t n).cause =
    if chanState s n = 7 then (if bit s.prt.demand n then (chn s n).cause else (chn s n).cause ||| bitv 16) else bitv 16
  miss : ∀ n, bit demand n = false → chn t n = { chn s n with clear := (chn t n).clear }
  cnt : rg t rPRT_TRIP_CNT = if blk then satInc (rg s rPRT_TRIP_CNT) else rg s rPRT_TRIP_CNT
  due : blk = true → t.grn.tripDue = true
  regs : ∀ o, o ∉ sideRegs → o ∉ decisionRegs → o ≠ rPRT_TRIP_CNT → ¬ PermitReg o → rg t o = rg s o

theorem spCmd_commanded (demand grant : U8) (blk : Bool) (src : Nat) (s : State) : Commanded demand grant blk s (spCmd demand grant blk src s) := by
  have hdec := decided_prtSync blk (commandTripped demand grant blk src s)
  rw [spCmd_eq]
  generalize prtSync _ = t at hdec ⊢
  have htrip := tripsOf_tripped (bit demand) (bit s.prt.demand) (bitv 16) (commandTaken demand grant blk src s)
  have hheld := held_holdStart (tripsOf (bit demand) (bit s.prt.demand) (bitv 16) (commandTaken demand grant blk src s))
  rw [commandTripped] at hdec
  generalize tripsOf _ _ _ _ = u at htrip hheld hdec
  have hmoved := htrip.moved.trans hheld.moved
  generalize holdStart u = v at hheld hdec hmoved
  have hkept (n : Nat) : ChnKept n s (commandTaken demand grant blk src s) := commandTaken_kept ..
  have hregs {o : Nat} (ho : ¬ PermitReg o) : rg v o = rg s o := (hmoved.regs o ho).trans (rg_commandTaken (fun h => ho (.inl h)) ..)
  have hchn (n : Nat) : chn t n = { chn u n with clear := (chn t n).clear } := by
    rw [chn_congr (congrArg Prt.chans hdec.prt) n]
    exact hheld.chns n
  have hprt := hdec.prt.trans hmoved.prt
  rw [commandTaken_prt, ← hdec.prt] at hprt
  refine ⟨hprt, fun h => ?_, fun n hn hd h0 h8 => ?_, fun n hd => ?_, ?_, hdec.due, fun o hs hd hc ho => (hdec.regs o hs hd hc).trans (hregs ho)⟩
  · exact hdec.stands 1 (hmoved.stands 1 (commandTaken_event h grant blk src))
  · rw [← (hkept n).state] at h0 h8 ⊢
    rw [hchn, ← (hkept n).chn]
    exact htrip.hit n hn hd h0 h8
  · rw [hchn, htrip.miss n hd, (hkept n).chn]
  · rw [hdec.cnt, hregs (not_permitReg (by decide) (by decide))]

/-! ### The Celrov image (R363 to R365) -/

/-- The image runs. -/
def ImageRuns (s : State) : Prop := s.prt.sp = true ∧ s.prt.lockErr = false

theorem imageStep_off {s : State} (h : ¬ ImageRuns s) (blk : Bool) (src : State → Nat) (f : State → State) : imageStep blk src f s = s := by
  refine if_pos ?_
  unfold ImageRuns at h
  cases hsp : s.prt.sp <;> cases hl : s.prt.lockErr <;> simp [hsp, hl] at h ⊢

/-- DEMAND as the image rewrites it once its rules, which gave `was`, give another. -/
def demandRewritten (was : U8) (u : State) : U8 := (u.prt.demand &&& ~~~was) ||| imageDemand u

theorem imageStep_on {s : State} (h : ImageRuns s) (blk : Bool) (src : State → Nat) (f : State → State) : imageStep blk src f s =
    if demandRewritten (imageDemand s) (f s) = (f s).prt.demand && !blk then f s
    else spCmd (demandRewritten (imageDemand s) (f s)) (f s).prt.grant blk (src (f s)) (f s) := by
  obtain ⟨hsp, hl⟩ := h
  exact if_neg (by rw [hsp, hl]; decide)

theorem commitWatchdog_fires {s : State} (hn : commitWd s ≤ s.prt.noCommit) (hw : s.prt.wdTrip = false) (hi : ImageRuns s) : commitWatchdog s =
    spCmd (demandRewritten (imageDemand s) { s with prt := { s.prt with wdTrip := true } }) s.prt.grant true 80
      { s with prt := { s.prt with wdTrip := true } } := by
  refine (if_pos ⟨hn, by rw [hw]; rfl⟩).trans ((imageStep_on hi _ _ _).trans (if_neg ?_))
  rw [Bool.not_true, Bool.and_false]
  decide

theorem commitWatchdog_idle {s : State} (h : ¬ (commitWd s ≤ s.prt.noCommit ∧ s.prt.wdTrip = false ∧ ImageRuns s)) : commitWatchdog s = s := by
  unfold commitWatchdog
  split
  · next hc => exact imageStep_off (fun hi => h ⟨hc.1, by simpa using hc.2, hi⟩) ..
  · rfl

/-- The bits of the watchdog's MASK stand in the demand that the image gives while the watchdog has tripped (R365). -/
theorem imageDemand_watchdog {s : State} (h : s.prt.wdTrip = true) : ∃ rest,
    imageDemand s = rest ||| BitVec.ofNat 8 (fld (rg s rPRT_SP_CFG) 23 16) := ⟨_, congrArg (_ ||| ·) (if_pos h)⟩

theorem demandRewritten_keeps (was : U8) (u : State) : u.prt.demand &&& ~~~was &&& ~~~demandRewritten was u = 0 := by
  unfold demandRewritten
  generalize u.prt.demand = d, imageDemand u = x
  ext i hi
  simp only [BitVec.getElem_and, BitVec.getElem_not, BitVec.getElem_or, BitVec.ofNat_eq_ofNat, BitVec.getElem_zero]
  cases d[i] <;> cases was[i] <;> cases x[i] <;> rfl

theorem or_and_absorbs {w : Nat} (a b m : BitVec w) : (a ||| (b ||| m)) &&& m = m := by
  ext i hi
  simp only [BitVec.getElem_and, BitVec.getElem_or]
  cases a[i] <;> cases b[i] <;> cases m[i] <;> rfl

/-! ### The copy of a comparator (R364) -/

/-- `s` with the copy of comparator `k` set or cleared. -/
def copyWritten (k : Nat) (on : Bool) (s : State) : State :=
  let m : U8 := BitVec.ofNat 8 (2 ^ k)
  { s with prt := { s.prt with cmpTrip := if on then s.prt.cmpTrip ||| m else s.prt.cmpTrip &&& ~~~m } }

/-- Does the image take the copy: while it runs, and a crossing only where SP_CFG enables it for the comparator. -/
def TakesCopy (k : Nat) (on : Bool) (s : State) : Prop := ImageRuns s ∧ (on = true → bit (rg s rPRT_SP_CFG) (24 + k) = true)

theorem cmpCopy_taken {k : Nat} {on : Bool} {s : State} (h : TakesCopy k on s) :
    cmpCopy k on s = copyWritten k on s ∨ ∃ d, cmpCopy k on s = spCmd d s.prt.grant false 80 (copyWritten k on s) := by
  obtain ⟨hi, hon⟩ := h
  have heq : cmpCopy k on s = imageStep false (fun _ => 80) (copyWritten k on) s := if_neg (by simpa using hon)
  rw [heq, imageStep_on hi]
  split
  · exact .inl rfl
  · exact .inr ⟨_, rfl⟩

theorem cmpCopy_refused {k : Nat} {on : Bool} {s : State} (h : ¬ TakesCopy k on s) : cmpCopy k on s = s := by
  unfold cmpCopy
  dsimp only
  split
  · rfl
  · next hc => exact imageStep_off (fun hi => h ⟨hi, by simpa using hc⟩) ..

theorem cmpCopy_only (k : Nat) (on : Bool) (s : State) : ChangesOnly [.regs, .flt, .cmd, .fur, .grn, .hrw, .prt, .snr, .stk] s (cmpCopy k on s) :=
  (cmpCopy_keeps (Keeps.refl _ s) rfl).only

/-- What the image's answer to a comparator leaves. -/
structure Copied (k : Nat) (on : Bool) (s t : State) : Prop where
  asserted : t.prt.asserted = s.prt.asserted
  regs : ∀ o, o ∉ sideRegs → o ∉ decisionRegs → o ≠ rPRT_TRIP_CNT → ¬ PermitReg o → rg t o = rg s o
  taken : TakesCopy k on s → t.prt.cmpTrip = (copyWritten k on s).prt.cmpTrip
  refused : ¬ TakesCopy k on s → t = s

theorem cmpCopy_copied (k : Nat) (on : Bool) (s : State) : Copied k on s (cmpCopy k on s) := by
  by_cases h : TakesCopy k on s
  · rcases cmpCopy_taken h with heq | ⟨d, heq⟩
    · rw [heq]
      exact ⟨rfl, fun _ _ _ _ _ => rfl, fun _ => rfl, fun hn => absurd h hn⟩
    · have hcmd := spCmd_commanded d s.prt.grant false 80 (copyWritten k on s)
      rw [heq]
      exact ⟨(congrArg Prt.asserted hcmd.prt).trans rfl, hcmd.regs, fun _ => (congrArg Prt.cmpTrip hcmd.prt).trans rfl, fun hn => absurd h hn⟩
  · rw [cmpCopy_refused h]
    exact ⟨rfl, fun _ _ _ _ _ => rfl, fun ht => absurd ht h, fun _ => rfl⟩

/-! ### A comparator crosses (R342) -/

/-- The crossing taken: the comparator, its count and the event. -/
def crossingTaken (k : Nat) (s : State) : State :=
  setEvt (count (setCmp s k { out := true, spent := true }) (rAFE_CMP_CNT k)) rAFE_EVT (bitv 3)

/-- Does comparator `k` start sequencer `q`. -/
def startsBy (k : Nat) (s : State) (q : Nat) : Bool := startSrc s q == 3 && fld (rg s (rAFE_SEQ_CFG q)) 10 8 == k

/-- The sequencers that a crossing starts. -/
def crossingStarted (k : Nat) (s : State) : State :=
  (List.range 4).foldl (fun s q => if startsBy k s q then startEvent q s else s) (crossingTaken k s)

theorem cmpCross_eq (k : Nat) (s : State) : cmpCross k s = intEdge (crossingStarted k s) (192 + k) := rfl

theorem startsBy_congr {k q : Nat} {s t : State} (h : SeqKept q s t) : startsBy k t q = startsBy k s q := by
  rw [startsBy, startsBy, startSrc_congr h, h.cfg]

theorem rg_crossingTaken {o k : Nat} (he : o ≠ rAFE_EVT) (hc : o ≠ rAFE_CMP_CNT k) (s : State) : rg (crossingTaken k s) o = rg s o :=
  (rg_wr_ne _ _ _ _ he).trans (rg_wr_ne _ _ _ _ hc)

theorem crossingTaken_kept {k q : Nat} (hk : k < 8) (hq : q < 4) (s : State) : SeqKept q s (crossingTaken k s) :=
  ⟨rfl, rg_crossingTaken (by simp only [rAFE_SEQ_CFG, rAFE_EVT]; omega) (by simp only [rAFE_SEQ_CFG, rAFE_CMP_CNT]; omega) s,
    rg_crossingTaken (by simp only [rAFE_SEQ_ENT, rAFE_EVT]; omega) (by simp only [rAFE_SEQ_ENT, rAFE_CMP_CNT]; omega) s, rfl⟩

theorem startEvent_cmps (q : Nat) (s : State) : (startEvent q s).afe.cmps = s.afe.cmps := by
  rcases startEvent_cases q s with h | ⟨v, h⟩ | h <;> rw [h] <;> rfl

theorem startEvent_stands (q : Nat) (s : State) : BitsStand rAFE_EVT s (startEvent q s) := by
  rcases startEvent_cases q s with h | ⟨v, h⟩ | h
  · rw [h]
    exact .refl s
  · rw [h]
    exact .of_rg rfl
  · rw [h, startIgnored]
    exact .trans (.of_rg (rg_wr_ne _ _ _ _ (by simp only [rAFE_EVT, rAFE_SEQ_IGN]; omega))) (.setEvt _ _ _)

/-- What a crossing leaves of the front end, its registers and its interrupt source. -/
structure Crossed (k : Nat) (s t : State) : Prop where
  cmps : t.afe.cmps = (setCmp s k { out := true, spent := true }).afe.cmps
  cnt : rg t (rAFE_CMP_CNT k) = satInc (rg s (rAFE_CMP_CNT k))
  event : bit (rg t rAFE_EVT) 3 = true
  src : (intSrc t (192 + k)).cnt = if srcEn s (192 + k) = true ∧ (intSrc s (192 + k)).cnt < 255 then (intSrc s (192 + k)).cnt + 1
    else (intSrc s (192 + k)).cnt
  seqs : ∀ q, q < 4 → seq t q = if startSrc s q = 3 ∧ fld (rg s (rAFE_SEQ_CFG q)) 10 8 = k then seq (startEvent q s) q else seq s q

theorem srcListed_comparator {k : Nat} (hk : k < 8) : srcListed (192 + k) = true ∧ srcLevel (192 + k) = false := by
  interval_cases k <;> exact ⟨rfl, rfl⟩

/-- An edge source counts its event while it is enabled and below the limit. -/
theorem intEdge_cnt {s : State} {k : Nat} (hl : srcListed k = true) (hv : srcLevel k = false) :
    (intSrc (intEdge s k) k).cnt = if srcEn s k = true ∧ (intSrc s k).cnt < 255 then (intSrc s k).cnt + 1 else (intSrc s k).cnt := by
  split
  · next h => exact intEdge_counts hl hv h.1 h.2
  · next h =>
    unfold intEdge
    dsimp only
    split
    · rfl
    · next hc =>
      have hen : srcEn s k = true := by simpa [hl, hv] using hc
      rw [if_neg fun hlt => h ⟨hen, hlt⟩]
      exact (congrArg IntSrc.cnt (setIntSrc_same s k { intSrc s k with sat := true })).trans rfl

/-- What no start event of a sequencer changes, a crossing leaves as its taking left it. -/
theorem crossingStarted_leaves {β : Type} {g : State → β} (hg : ∀ u q, q < 4 → g (startEvent q u) = g u) (k : Nat) (s : State) :
    g (crossingStarted k s) = g (crossingTaken k s) :=
  List.foldlRecOn (motive := fun u => g u = g (crossingTaken k s)) _ _ rfl fun u hu q hq => by
    split
    · exact (hg u q (List.mem_range.1 hq)).trans hu
    · exact hu

theorem rg_crossingStarted {o k : Nat} (he : o ≠ rAFE_EVT) (hi : o < 0xA00018 ∨ 0xA00098 ≤ o) (s : State) :
    rg (crossingStarted k s) o = rg (crossingTaken k s) o :=
  crossingStarted_leaves (g := fun u => rg u o) (fun u q hq => rg_startEvent he (by simp only [rAFE_SEQ_IGN]; omega) u) k s

theorem crossingStarted_stands (k : Nat) (s : State) : BitsStand rAFE_EVT (crossingTaken k s) (crossingStarted k s) :=
  .foldl (fun u q => .ite (startEvent_stands q u) (.refl u)) _ _

theorem crossingTaken_event (k : Nat) (s : State) : bit (rg (crossingTaken k s) rAFE_EVT) 3 = true := by
  rw [crossingTaken, rg_setEvt_same]
  exact bit_or_bitv _ (by decide)

theorem crossingTaken_cnt (k : Nat) (s : State) : rg (crossingTaken k s) (rAFE_CMP_CNT k) = satInc (rg s (rAFE_CMP_CNT k)) :=
  (rg_wr_ne _ _ _ _ (by simp only [rAFE_CMP_CNT, rAFE_EVT]; omega)).trans (rg_count_same ..)

theorem cmpCross_crossed {k : Nat} (hk : k < 8) (s : State) : Crossed k s (cmpCross k s) := by
  have hedge := intEdge_only (crossingStarted k s) (192 + k)
  have hcnt := intEdge_cnt (s := crossingStarted k s) (srcListed_comparator hk).1 (srcListed_comparator hk).2
  have hrg (o : Nat) (ho : o ∉ sideRegs) := rg_intEdge ho (crossingStarted k s) (192 + k)
  have hints : (crossingStarted k s).ints = s.ints :=
    crossingStarted_leaves (g := State.ints) (fun u q _ => startEvent_only q u .ints rfl) k s
  have hsrc : intSrc (crossingStarted k s) (192 + k) = intSrc s (192 + k) := by rw [intSrc, intSrc, hints]
  have hen : srcEn (crossingStarted k s) (192 + k) = srcEn s (192 + k) := by
    refine srcEn_congr (by omega) ((rg_crossingStarted ?_ ?_ s).trans (rg_crossingTaken ?_ ?_ s)) <;>
      simp only [rINT_SRC_CFG, rAFE_EVT, rAFE_CMP_CNT] <;> omega
  rw [cmpCross_eq]
  refine ⟨?_, ?_, ?_, ?_, fun q hq => ?_⟩
  · rw [show (intEdge (crossingStarted k s) (192 + k)).afe = (crossingStarted k s).afe from hedge .afe rfl]
    exact crossingStarted_leaves (g := fun u => u.afe.cmps) (fun u q _ => startEvent_cmps q u) k s
  · rw [hrg _ (not_sideReg_of_block (by simp only [rAFE_CMP_CNT]; omega)), rg_crossingStarted (by simp only [rAFE_CMP_CNT, rAFE_EVT]; omega)
      (by simp only [rAFE_CMP_CNT]; omega), crossingTaken_cnt]
  · rw [hrg _ (by decide)]
    exact crossingStarted_stands k s 3 (crossingTaken_event k s)
  · rw [hcnt, hsrc, hen]
  · rw [seq_congr (congrArg Afe.seqs (hedge .afe rfl)), crossingStarted, seq_startPass startsBy_congr hq,
      startsBy_congr (crossingTaken_kept hk hq s), seqAfterStart_congr (crossingTaken_kept hk hq s), (crossingTaken_kept hk hq s).seq, seq_startEvent]
    simp only [startsBy, Bool.and_eq_true, beq_iff_eq]

theorem rg_cmpCross {o k : Nat} (hs : o ∉ sideRegs) (he : o ≠ rAFE_EVT) (hi : o < 0xA00018 ∨ 0xA00098 ≤ o) (hc : o ≠ rAFE_CMP_CNT k)
    (s : State) : rg (cmpCross k s) o = rg s o :=
  (rg_intEdge hs ..).trans ((rg_crossingStarted he hi s).trans (rg_crossingTaken he hc s))

/-- A crossing as Snare records it. -/
def crossingShown (k : Nat) (s : State) : State := snareSig (now s) 1 k 1 (cmpCross k s)

theorem comparatorCrossing_armed {k : Nat} {s : State} (h : cmpArmed s k = true) :
    comparatorCrossing k s = snareEval (cmpCopy k true (clapAssert k (crossingShown k s))) := by
  rw [comparatorCrossing, if_neg (by rw [h]; decide)]
  rfl

theorem comparatorCrossing_spent {k : Nat} {s : State} (h : cmpArmed s k = false) : comparatorCrossing k s = s := if_pos (by rw [h]; rfl)

/-- A change that leaves the front end, the interrupt sources and the registers of the crossing leaves what the crossing left. -/
theorem Crossed.then_kept {k : Nat} {s t u : State} (h : Crossed k s t) (hafe : u.afe = t.afe) (hints : u.ints = t.ints)
    (hcnt : rg u (rAFE_CMP_CNT k) = rg t (rAFE_CMP_CNT k)) (hevt : rg u rAFE_EVT = rg t rAFE_EVT) : Crossed k s u where
  cmps := by rw [hafe, h.cmps]
  cnt := hcnt.trans h.cnt
  event := hevt ▸ h.event
  src := by rw [intSrc, hints]; exact h.src
  seqs q hq := (seq_congr (congrArg Afe.seqs hafe) q).trans (h.seqs q hq)

theorem Crossed.then_synced {k : Nat} {s t u : State} (hk : k < 8) (h : Crossed k s t) (g : Synced t u) : Crossed k s u :=
  h.then_kept (g.only .afe rfl) (g.only .ints rfl) (g.regs _ (not_sideReg_of_block (by simp only [rAFE_CMP_CNT]; omega))) (g.regs _ (by decide))

theorem Crossed.then_copied {k : Nat} {s t : State} (hk : k < 8) (h : Crossed k s t) : Crossed k s (cmpCopy k true t) := by
  have honly := cmpCopy_only k true t
  have hregs := (cmpCopy_copied k true t).regs
  refine h.then_kept (honly .afe rfl) (honly .ints rfl) (hregs _ ?_ ?_ ?_ ?_) (hregs _ (by decide) (by decide) (by decide)
    (not_permitReg (by decide) (by decide)))
  · exact not_sideReg_of_block (by simp only [rAFE_CMP_CNT]; omega)
  · simp only [decisionRegs, List.mem_cons, List.not_mem_nil, or_false, rPRT_MERGE_CNT, rPRT_EVT, rFUR_BLKSYM_CNT, rFUR_EVT,
      rSYS_YIELD_CNT, rAFE_CMP_CNT]
    omega
  · simp only [rAFE_CMP_CNT, rPRT_TRIP_CNT]
    omega
  · exact not_permitReg (by simp only [rAFE_CMP_CNT, rPRT_EVT]; omega) (by simp only [rAFE_CMP_CNT]; omega)

theorem crossingShown_crossed {k : Nat} (hk : k < 8) (s : State) : Crossed k s (crossingShown k s) :=
  (cmpCross_crossed hk s).then_synced hk (synced_snareSig ..)

theorem crossingShown_prt (k : Nat) (s : State) : (crossingShown k s).prt = s.prt :=
  ((synced_snareSig ..).only .prt rfl).trans ((cmpCross_keeps (Keeps.refl [.regs, .flt, .ints, .cores, .afe] s) rfl).only .prt rfl)

/-- A crossing writes no register of protection. -/
theorem rg_crossingShown {k o : Nat} (hk : k < 8) (ho : 0xD00000 ≤ o ∧ o < 0xE00000) (s : State) : rg (crossingShown k s) o = rg s o := by
  have hs : o ∉ sideRegs := not_sideReg_of_block (by omega)
  exact ((synced_snareSig ..).regs o hs).trans
    (rg_cmpCross hs (by simp only [rAFE_EVT]; omega) (by omega) (by simp only [rAFE_CMP_CNT]; omega) s)

/-- An input that asserts leaves the inputs asserted with it, and nothing else. -/
theorem clapAssert_prt (k : Nat) (s : State) : (clapAssert k s).prt = { s.prt with asserted := assertedWith s k } := by
  unfold clapAssert assertedWith
  split <;> rfl

/-- What a crossing leaves: the comparator spent, counted and shown and its sequencers started; its Clapper input asserted; the image's copy. -/
theorem comparatorCrossing_leaves {k : Nat} {s : State} (hk : k < 8) (h : cmpArmed s k = true) : let t := comparatorCrossing k s
    Crossed k s t ∧ t.prt.asserted = assertedWith s k ∧
    (ImageRuns s ∧ bit (rg s rPRT_SP_CFG) (24 + k) = true → bit t.prt.cmpTrip k = true) ∧
    (¬ (ImageRuns s ∧ bit (rg s rPRT_SP_CFG) (24 + k) = true) → t.prt.cmpTrip = s.prt.cmpTrip ∧ t.prt.demand = s.prt.demand) := by
  intro t
  have hprt := crossingShown_prt k s
  have hcfg {o : Nat} (ho : 0xD00000 ≤ o ∧ o < 0xE00000) := rg_crossingShown hk ho s
  have hin : assertedWith (crossingShown k s) k = assertedWith s k := by
    have hen : clapEn (crossingShown k s) k = clapEn s k := congrArg (bit · 9) (hcfg (by simp only [rPRT_CLAP_CFG]; omega))
    rw [assertedWith, assertedWith, hen, hprt]
  have hassert := clapAssert_only k (crossingShown k s)
  have hcross : Crossed k s (clapAssert k (crossingShown k s)) :=
    (crossingShown_crossed hk s).then_kept (hassert .afe rfl) (hassert .ints rfl) (rg_congr (hassert .regs rfl) _) (rg_congr (hassert .regs rfl) _)
  have hvprt : (clapAssert k (crossingShown k s)).prt = { s.prt with asserted := assertedWith s k } := by
    rw [clapAssert_prt, hin, hprt]
  have hvcfg : rg (clapAssert k (crossingShown k s)) rPRT_SP_CFG = rg s rPRT_SP_CFG := (rg_congr (hassert .regs rfl) _).trans (hcfg (by decide))
  have heq : t = snareEval (cmpCopy k true (clapAssert k (crossingShown k s))) := comparatorCrossing_armed h
  generalize clapAssert k (crossingShown k s) = v at hcross hvprt hvcfg heq
  have hcopy := cmpCopy_copied k true v
  have htprt : t.prt = (cmpCopy k true v).prt := heq ▸ (synced_snareEval _).only .prt rfl
  have htakes : TakesCopy k true v ↔ ImageRuns s ∧ bit (rg s rPRT_SP_CFG) (24 + k) = true := by
    rw [TakesCopy, ImageRuns, ImageRuns, hvprt, hvcfg]
    simp
  refine ⟨heq ▸ (hcross.then_copied hk).then_synced hk (synced_snareEval _), ?_, fun ht => ?_, fun hn => ?_⟩
  · rw [htprt, hcopy.asserted, hvprt]
  · rw [htprt, hcopy.taken (htakes.2 ht)]
    exact bit_or_right _ _ (bit_two_pow hk)
  · rw [htprt, hcopy.refused (mt htakes.1 hn), hvprt]
    exact ⟨rfl, rfl⟩

/-! ### A comparator re-arms (R342) -/

theorem bit_and_not_two_pow {w k : Nat} (hk : k < w) (x : BitVec w) : bit (x &&& ~~~BitVec.ofNat w (2 ^ k)) k = false := by
  have h : (BitVec.ofNat w (2 ^ k)).getLsbD k = true := bit_two_pow hk
  rw [bit, BitVec.getLsbD_and, BitVec.getLsbD_not, h, Bool.not_true, Bool.and_false, Bool.and_false]

theorem comparatorRearm_spent {k : Nat} {s : State} (h : (cmpr s k).spent = true) : comparatorRearm k s =
    snareEval (cmpCopy k false (snareSig (now (setCmp s k {})) 1 k 0 (setCmp s k {}))) := if_pos h

theorem comparatorRearm_armed {k : Nat} {s : State} (h : (cmpr s k).spent = false) : comparatorRearm k s = s :=
  if_neg (by rw [h]; exact Bool.false_ne_true)

theorem comparatorRearm_leaves {k : Nat} {s : State} (hk : k < 8) (h : (cmpr s k).spent = true) : let t := comparatorRearm k s
    cmpr t k = {} ∧ (∀ j, j ≠ k → cmpr t j = cmpr s j) ∧ (ImageRuns s → bit t.prt.cmpTrip k = false) := by
  intro t
  have hsync := synced_snareSig (now (setCmp s k {})) 1 k 0 (setCmp s k {})
  have heq : t = snareEval (cmpCopy k false (snareSig (now (setCmp s k {})) 1 k 0 (setCmp s k {}))) := comparatorRearm_spent h
  generalize snareSig _ 1 k 0 _ = v at hsync heq
  have hprt : v.prt = s.prt := (hsync.only .prt rfl).trans rfl
  have hafe : t.afe = (setCmp s k {}).afe :=
    heq ▸ ((synced_snareEval _).only .afe rfl).trans ((cmpCopy_only k false v .afe rfl).trans (hsync.only .afe rfl))
  have hcmp (j : Nat) : cmpr t j = cmpr (setCmp s k {}) j := by rw [cmpr, cmpr, hafe]
  refine ⟨(hcmp k).trans (setCmp_same ..), fun j hj => (hcmp j).trans (setCmp_ne _ _ _ _ hj), fun hi => ?_⟩
  have htrip : t.prt.cmpTrip = (copyWritten k false v).prt.cmpTrip := by
    have htakes : TakesCopy k false v := ⟨by rwa [ImageRuns, hprt], nofun⟩
    rw [← (cmpCopy_copied k false v).taken htakes, show t.prt = _ from heq ▸ (synced_snareEval _).only .prt rfl]
  rw [htrip]
  exact bit_and_not_two_pow hk _

/-! ### What the commands do -/

theorem exec_clapperCauseLatch (k : Fin 16) (s : State) : exec (.clapperCauseLatch k) s = .next (clapLatch k s) := rfl

theorem exec_clapperCauseClear (k : Fin 16) (s : State) : exec (.clapperCauseClear k) s = .next (clapClear k s) := rfl

theorem exec_configCrcCheck (upset : U32) (s : State) : exec (.configCrcCheck upset) s = .next (crcCheck upset s) := rfl

theorem exec_heartbeatTimeout (s : State) : exec .heartbeatTimeout s = .next (hbTimeout s) := rfl

theorem exec_commitWatchdog (s : State) : exec .commitWatchdog s = .next (commitWatchdog s) := rfl

theorem exec_comparatorCrossing (k : Fin 8) (s : State) : exec (.comparatorCrossing k) s = .next (comparatorCrossing k s) := rfl

theorem exec_comparatorRearm (k : Fin 8) (s : State) : exec (.comparatorRearm k) s = .next (comparatorRearm k s) := rfl

/-- The channels that a latched cause maps to drive no output. -/
theorem CauseLatched.outputs {k n : Nat} {s t : State} (hk : k < 16) (h : CauseLatched k s t) (hm : clapMaps s k n = true) :
    permitH t n = false ∧ permitL t n = false := by
  have hl : bit t.prt.latched k = true := by
    rw [h.latched]
    exact bit_or_right _ _ (bit_two_pow hk)
  exact permits_off (.inl (clapHits_of_latched hk hl (h.maps ▸ hm)))

/-- The channels demanded drive no output. -/
theorem Commanded.outputs {demand grant : U8} {blk : Bool} {n : Nat} {s t : State} (h : Commanded demand grant blk s t) (hd : bit demand n = true) :
    permitH t n = false ∧ permitL t n = false := permits_off (.inr (by rw [h.prt]; exact hd))

theorem clapLatch_idle_only {s : State} {k : Nat} (h : clapDue s k = false) : ChangesOnly [.prt] s (clapLatch k s) := by
  rw [clapLatch_idle h]
  exact prt_only s _

/-- What a clear leaves of protection, of Tocsin's requests and of the channels. -/
theorem clapClear_leaves {s : State} {k : Nat} (hl : bit s.prt.latched k = true) (hg : clapGone s k = true) : let t := clapClear k s
    t.prt = { s.prt with latched := s.prt.latched &&& ~~~(BitVec.ofNat 16 (2 ^ k)), chans := t.prt.chans } ∧
    t.flt.trips = (if k = 12 then [] else s.flt.trips) ∧ ∀ n, chn t n = { chn s n with clear := (chn t n).clear } := by
  have h := prtSync_holdStart (causeCleared k s)
  have hchn (n : Nat) : chn (causeCleared k s) n = chn s n := chn_congr (by rw [causeCleared_prt]) n
  simpa only [clapClear_gone hl hg, causeCleared_prt, causeCleared_trips, hchn] using h

/-- The first cause is written by a new demand alone. -/
theorem firstDemanded_new {fresh : U8} (h : fresh ≠ 0) (s : State) : firstDemanded fresh s =
    if s.prt.latched = 0 ∧ s.prt.demand = 0 then bitv 4 ||| u32 (32 * s.prt.limit.getD 0) ||| bitv 11 else s.prt.first := if_neg h

theorem firstDemanded_old {fresh : U8} (h : fresh = 0) (s : State) : firstDemanded fresh s = s.prt.first := if_pos h

/-- What the watchdog's trip leaves: its MASK demanded, with BLKSYM, and no bit let go that the image had not given (R365). -/
theorem commitWatchdog_leaves {s : State} (hn : commitWd s ≤ s.prt.noCommit) (hw : s.prt.wdTrip = false) (hi : ImageRuns s) :
    let t := commitWatchdog s
    let mask : U8 := BitVec.ofNat 8 (fld (rg s rPRT_SP_CFG) 23 16)
    t.prt.wdTrip = true ∧ t.prt.blksym = true ∧ t.prt.grant = s.prt.grant ∧ t.prt.demand &&& mask = mask ∧
    s.prt.demand &&& ~~~imageDemand s &&& ~~~t.prt.demand = 0 ∧ rg t rPRT_TRIP_CNT = satInc (rg s rPRT_TRIP_CNT) ∧ t.grn.tripDue = true := by
  let u : State := { s with prt := { s.prt with wdTrip := true } }
  have h : Commanded (demandRewritten (imageDemand s) u) s.prt.grant true u (commitWatchdog s) :=
    commitWatchdog_fires hn hw hi ▸ spCmd_commanded _ _ _ _ _
  obtain ⟨rest, hrest⟩ : ∃ rest, imageDemand u = rest ||| BitVec.ofNat 8 (fld (rg s rPRT_SP_CFG) 23 16) := imageDemand_watchdog rfl
  refine ⟨by rw [h.prt], by rw [h.prt], by rw [h.prt], ?_, ?_, h.cnt.trans (if_pos rfl), h.due rfl⟩ <;> rw [h.prt]
  · rw [demandRewritten, hrest]
    exact or_and_absorbs ..
  · exact demandRewritten_keeps (imageDemand s) u

/-- Settles O56: an input that latches trips its channels and makes its decision, and clears without its cause; a command of PRT_SP_CMD,
from the core or from the image, demands its trips; a crossing is shown to sequencers, Clapper and the image. -/
theorem clapperLatchesTripsAndClears : Obligations.ClapperLatchesTripsAndClears := by
  refine ⟨fun s => ⟨fun k hk => ?_, fun k hk => ?_, fun k hl hg => ?_, fun k hk => ?_, fun upset hon hne => ?_, fun upset h => ?_, ?_,
    fun v cycles => ?_, fun hon hok => ?_, fun h => ?_⟩, fun s => ⟨fun demand grant blk => ?_, fun hn hw hi => ?_, fun h => ?_,
    fun k hk => ?_, fun k hk => ?_, fun k hk => ?_, fun k hk => ?_⟩⟩
  · have hd : clapDue s k = false := Bool.eq_false_iff.2 (mt (clapDue_iff s k).1 (by simpa [Fin.ext_iff] using hk))
    exact ⟨_, exec_clapperCauseLatch k s, clapLatch_idle_only hd, by rw [clapLatch_idle hd]⟩
  · have h := clapLatch_latches k.isLt ((clapDue_iff s k).2 (by simpa [Fin.ext_iff] using hk))
    exact ⟨_, exec_clapperCauseLatch k s, h.latched, h.asserted, h.event, h.first,
      fun n hn hm => ⟨(h.outputs k.isLt hm).1, (h.outputs k.isLt hm).2, h.hit n hn hm⟩, h.miss, h.cnt, h.due⟩
  · exact ⟨_, exec_clapperCauseClear k s, clapClear_leaves hl ((clapGone_iff s k.isLt).2 (by simpa [CauseGone, Fin.ext_iff] using hg))⟩
  · rw [exec_clapperCauseClear, clapClear_stays fun h => hk ⟨h.1, by simpa [CauseGone, Fin.ext_iff] using (clapGone_iff s k.isLt).1 h.2⟩]
  · rw [Gives, exec_configCrcCheck, crcCheck_fails hon hne]
    exact ⟨_, rfl, clapAssert_setEvt (by decide) (by decide) s⟩
  · rw [exec_configCrcCheck, crcCheck_passes h]
  · exact ⟨_, rfl, spFailure_leaves s⟩
  · refine ⟨heartbeat v cycles.toNat s, rfl, heartbeat_only v cycles.toNat s, fun hoff => ?_, fun hon hg => ?_, fun hon hg => ?_⟩
    · rw [heartbeat_first hoff]
      rfl
    · rw [heartbeat_good hon hg]
      rfl
    · rw [heartbeat_bad hon hg]
      exact (hbLoss_leaves (beatTaken v s)).2
  · exact ⟨_, exec_heartbeatTimeout s, hbTimeout_late hon hok⟩
  · rw [exec_heartbeatTimeout, hbTimeout_idle h]
  · have h := spCmd_commanded demand grant blk (spSource s) s
    have hfirst := congrArg Prt.first h.prt
    refine ⟨_, rfl, ?_, fun hf => ⟨h.event hf, hfirst.trans (firstDemanded_new hf s)⟩, fun hf => hfirst.trans (firstDemanded_old hf s),
      fun n hn hd => ⟨(h.outputs hd).1, (h.outputs hd).2, fun h0 h8 => (h.hit n hn hd h0 h8).1, fun h0 h8 => (h.hit n hn hd h0 h8).2⟩,
      fun n _ hd => h.miss n hd, h.cnt, h.due⟩
    rw [hfirst]
    exact h.prt
  · obtain ⟨htrip, hblk, hgrant, hmask, hkeeps, hcnt, hdue⟩ := commitWatchdog_leaves hn hw hi
    exact ⟨_, exec_commitWatchdog s, htrip, hblk, hgrant, hmask, hkeeps, hcnt.trans (if_pos rfl).symm, fun _ => hdue⟩
  · rw [exec_commitWatchdog, commitWatchdog_idle h]
  · obtain ⟨hcross, hin, hcopy, hnone⟩ := comparatorCrossing_leaves k.isLt hk
    have hcmp (j : Nat) : cmpr (comparatorCrossing k s) j = cmpr (setCmp s k { out := true, spent := true }) j := by rw [cmpr, cmpr, hcross.cmps]
    exact ⟨_, exec_comparatorCrossing k s, (hcmp k).trans (setCmp_same ..), fun j hj => (hcmp j).trans (setCmp_ne _ _ _ _ hj), hcross.cnt,
      hcross.event, hcross.src, hin, hcross.seqs, hcopy, hnone⟩
  · rw [exec_comparatorCrossing, comparatorCrossing_spent hk]
  · exact ⟨_, exec_comparatorRearm k s, comparatorRearm_leaves k.isLt hk⟩
  · rw [exec_comparatorRearm, comparatorRearm_armed hk]

end Sys2Proof.Machine
end
